-- ==== Sys2Proof/Word.lean ====
section
/-! DEFINITION. The plainest types of the model: bytes, words, sparse tables and instants, and the little-endian bytes of a
number. -/

namespace Sys2Proof

/-- One byte (R41: every message field is made of bytes, little-endian). -/
abbrev Byte := BitVec 8

/-- A 32-bit register or memory word (R32, R233). -/
abbrev Word := BitVec 32

/-- A finite map from indices to values in one canonical form: keys strictly rising and no entry equal to what an
unlisted index reads as. Memories are tables of bytes. -/
abbrev Tbl (α : Type) := List (Nat × α)

/-- Complex integer sample: I then Q. -/
abbrev IQ := Int × Int

/-- Instants and durations in units `u`: one tick of R7 is 400,000 u and one nanosecond is 589,824 u, so that ticks,
nanoseconds and the 2^-16 ns of corrected time (9 u, R317) are whole numbers of u. -/
abbrev Instant := Int

/-- The `n` little-endian bytes of a number (R9: multi-byte fields are little-endian). -/
def leBytes : Nat → Nat → List Byte
  | 0, _ => []
  | n + 1, v => BitVec.ofNat 8 v :: leBytes n (v / 256)

/-- The number that little-endian bytes spell. -/
def leNat : List Byte → Nat
  | [] => 0
  | b :: bs => b.toNat + 256 * leNat bs

/-- `n` zero bytes: reserved bytes of a layout. -/
def zeros (n : Nat) : List Byte := List.replicate n 0

end Sys2Proof
end

