-- ==== Sys2Proof/Syntax.lean ====
section
/-! DEFINITION. Commands of the RGH-6464: one constructor of `Instr` per row of spec/opcode_table.json. The queue's
sender is the host, the baseband, the board or the device's own clock; values that only the outside world can supply (a
measured code, a received frame, a solved coefficient, a verdict of physics) are operands. -/

namespace Sys2Proof

/-- Name of one carrier symbol (R110, R111): frame is the full frame number, slot counts within the subframe. -/
structure SymName where
  carrier : Nat
  frame : Nat
  subframe : Nat
  slot : Nat
  symbol : Nat
  deriving DecidableEq, Repr

/-- How a long operation or a record write ended (R195, R222, R425): done, its NVM lease revoked, or cut short. -/
inductive LongEnd where
  | done | leaseRevoked | cutShort
  deriving DecidableEq, Repr

/-- Carrier of a pad release (R354): the message on a ring, or the keyed register `PAD_RELEASE`. -/
inductive PadSource where
  | message (ring : Nat) (dma : List Byte)
  | register (value : Word)
  deriving DecidableEq, Repr

/-- An access to aperture W2 (R65): a PCIe read of `length` bytes at any byte offset, an SPI frame W2_READ, or a PCIe write, which
the aperture does not accept. -/
inductive W2Source where
  | pcie (offset length : Nat)
  | spi (frame : List Byte)
  | write (offset : Nat) (data : List Byte)
  deriving DecidableEq, Repr

/-- A read of aperture W0: a PCIe read of `width` bytes at an offset (R32), or an SPI frame W0_READ (R33). -/
inductive W0Source where
  | pcie (offset width : Nat)
  | spi (frame : List Byte)
  deriving DecidableEq, Repr

/-- Verdicts of the line coding on a received frame (Table 4-4 steps 1 and 2). -/
structure RxCheck where
  fecOk : Bool
  corrected : Nat
  uncorrectable : Nat
  fcsOk : Bool
  deriving DecidableEq, Repr

/-- Source of a capture (R226): entry of the host plan, or adaptation of a path and class. -/
inductive CaptureSrc where
  | host (entry : Nat)
  | adapt (path cls : Nat)
  deriving DecidableEq, Repr

/-- A thermal measurement (R357): the edges counted, and what their conversion gives, in 0.25 °C, with the sensor's factory trim and with nominal
coefficients. -/
structure Reading where
  count : Nat
  trimmed : Int
  nominal : Int
  deriving DecidableEq, Repr

/-- A level of a WAKE_SENSE input in µV (R347). -/
structure SenseLevel where
  comparator : Nat
  level : Int
  deriving DecidableEq, Repr

/-- One attempt of a calibration type (R373): its result section (Table 16-4) as the two runs measured it. For types 8 to 11, whose parts no
table gives: whether the runs agreed, and by what percent of a tolerance they differed at worst. -/
structure CalAttempt where
  first : List Byte
  second : List Byte
  agreed : Bool
  worst : Nat
  deriving DecidableEq, Repr

/-- What one calibration type measured (R373): its attempts, at most three, and for type 6 the level of a path at CAL_RX in 0.01 dBm (R374). -/
structure CalResult where
  typ : Nat
  attempts : List CalAttempt
  levels : List (Nat × Int)
  deriving DecidableEq, Repr

/-- Outcome of one slice of `test.run` (R412): windows completed and the first failing window. -/
structure SliceResult where
  completed : Nat
  firstFailing : Option Nat
  deriving DecidableEq, Repr

/-- What the test engine found (R412, R414, R416): full LBIST with its failing windows (partition, window) and whether it
ran to its end; the slices in order; for each TX path its level relative to the factory value and its tone-to-spur ratio, for each RX path its
level and its image over the carrier, in 0.01 dB; for each tile the words in error in either direction of its bridge; for each HK-ADC channel
the voltage in µV. -/
structure TestResult where
  lbist : List (Nat × Nat)
  lbistDone : Bool
  slices : List SliceResult
  txLoop : List (Nat × Int × Int)
  rxTone : List (Nat × Int × Int)
  bridge : List (Nat × Nat × Nat)
  refs : List (Nat × Int)
  deriving DecidableEq, Repr, Inhabited

/-- A signing header as read from flash or the patch region (Table 18-5), with the verdict of its body's signature. -/
structure FwHeader where
  headerOk : Bool
  keyIndex : Nat
  raiseVersion : Bool
  securityVersion : Nat
  version : Nat
  digestOk : Bool
  signatureOk : Bool
  deriving DecidableEq, Repr

/-- The boot flash: whether its SFDP declares octal DTR, and the header of its slot 0 (R422). -/
structure BootFlash where
  octal : Bool
  slot0 : FwHeader
  deriving DecidableEq, Repr

/-- A Trestle address operand (Table 10-4): register `Pm` plus an offset, or `Pm` with post-increment. -/
inductive TAddr where
  | off (m : Fin 8) (o : Int)
  | post (m : Fin 8) (inc : Int)
  deriving DecidableEq, Repr

/-- A Trestle packed-complex operand: one data register, or a quad. -/
inductive TPack where
  | one (d : Fin 16)
  | quad (q : Fin 4)
  deriving DecidableEq, Repr

/-- Source of an integer operand: a data register or a 16-bit immediate. -/
inductive TSrc where
  | reg (d : Fin 16)
  | imm (v : BitVec 16)
  deriving DecidableEq, Repr

/-- A move destination or source: data register, pointer register, BE, FLAGS or CYC (Table 10-2). -/
inductive TReg where
  | d (n : Fin 16)
  | p (n : Fin 8)
  | be
  | flags
  | cyc
  | loop (n : Fin 12)
  deriving DecidableEq, Repr

/-- Repeat count of RPT: immediate or register (R242). -/
inductive TCount where
  | imm (n : Nat)
  | reg (d : Fin 16)
  deriving DecidableEq, Repr

/-- Branch conditions: "Z, N, C, V and their combinations" (Table 10-4). A condition is a set of flag patterns: bit
`8V + 4C + 2N + Z` of the mask says whether the branch is taken under that pattern. -/
abbrev TCond := BitVec 16

/-- Master data of PTP (Table 13-10), as the BMCA and the Announce messages give it. -/
structure PtpMaster where
  port : Option Nat
  stepsRemoved : Nat
  grandmaster : Nat
  master : Nat
  masterPort : Nat
  clockClass : Nat
  utcOffset : Nat
  deriving DecidableEq, Repr

/-- A read-back of an RFFE entry (R276, R278): the byte read, and whether the first and second reads passed parity. -/
structure RffeRead where
  value : Nat
  parity1 : Bool
  parity2 : Bool
  deriving DecidableEq, Repr

/-- What comes back while a bus's RFFE program runs: the read-backs of its verified entries in order, and for entries (by index) how
often in a row the control word failed parity on the bridge (R16). -/
structure RffeRun where
  reads : List RffeRead
  lost : List (Nat × Nat)
  deriving DecidableEq, Repr

/-- `hk.configure` as it is executed: its bytes, and whether the HK-ADC lease is revoked while it is applied (R295). -/
structure HkSetup where
  bytes : List Byte
  revoked : Bool
  deriving DecidableEq, Repr

/-- A monitor's trip (R308): its offset in ppb, and the cause and offset of the other oscillator's trip inside the same microsecond
(R310). -/
structure Trip where
  offset : Int
  other : Option (Nat × Int)
  deriving DecidableEq, Repr

/-- An event of the live TDD pattern that comes (R271), and how often in a row its control word failed parity on the bridge (R16). -/
structure FrameEvent where
  index : Nat
  fails : Nat
  deriving DecidableEq, Repr

/-- What the ORx converter gives over a capture's ticks (R23, R223): its 12-bit codes (a tick not listed has code 0), and the samples whose
word failed parity on the bridge (R16). -/
structure OrxRun where
  codes : List IQ
  parity : List Nat
  deriving DecidableEq, Repr

/-- A stored word that has been struck since the last scrub: memory 1 to 8 of Table 1-7 (0 the DPD banks), word address, whether two of
its bits are wrong, and whether it was struck before this scrub read it, so that the scrub meets it. The scrubber meets those of the
memories it reads (R387), the consumers all of them (R26). -/
structure ScrubHit where
  memory : Nat
  address : Nat
  double : Bool
  met : Bool
  deriving DecidableEq, Repr

/-- Requester of a stalled access (Table 14-10): 1 PCIe, 2 SPI, 3 message, 4 datapath; `info` is the offset or opcode, and `dma`
the bytes of a stalled message whose ring lies in host memory. -/
structure StallReq where
  requester : Nat
  info : Nat
  dma : List Byte
  deriving DecidableEq, Repr

/-- A hardware fault that the residue code covers (R386): the lane (antenna stream, UL stream or path), the index of the result, the error
put into the exact result in units of its last place, and whether a received residue disagrees with its operand. -/
structure Flip where
  lane : Nat
  index : Nat
  err : IQ
  received : Bool
  deriving DecidableEq, Repr

/-- Sample words of one RX path as they cross the bridge (R14), one a tick: the tick since frame 0 at which the first stood at the ADC
pins, and the words. -/
structure AdcRun where
  path : Nat
  tick : Int
  words : List Word
  deriving DecidableEq, Repr

/-- What the outside world and the hardware's faults bring to the export of one symbol or PRACH repetition: the converter samples (a path or
tick that is not listed has code 0), the words that failed parity (path, pin tick), those overwritten before the alignment buffer read
them (R394), errors in the FFT (path, bin) and in the beamformer's sums (stream, resource element), the flow records whose values failed
their residue at the compressor's input (R385), the errors of words of the symbol's buffers (true: double-bit), and the flow records whose
section was late or found no room in the UL buffer (R161). -/
structure UlObs where
  adc : List AdcRun
  parity : List (Nat × Int)
  overwritten : List (Nat × Int)
  fft : List Flip
  bf : List Flip
  compressor : List Nat
  buffer : List Bool
  late : List Nat
  bufferFull : List Nat
  deriving DecidableEq, Repr

/-- The last sample words of an RX path, at most 64 of consecutive ticks, up to the one of air time `air` (R167). -/
structure RailWindow where
  air : Instant
  words : List Word
  deriving DecidableEq, Repr

/-- Faults of the hardware met while a released symbol is processed: words of the DL section buffer with an error that its read meets (true:
double-bit; the PRBs of those are told by SECTION_USABLE), errors in the beamformer's sums (antenna stream, resource element; R202) and in
the iFFT (path, sample; R145), and samples that fail parity on the way from the iFFT to the up-converter (path, sample; R385). -/
structure DlFaults where
  buffer : List Bool
  bf : List Flip
  fft : List Flip
  parity : List (Nat × Nat)
  deriving DecidableEq, Repr

/-- A fault in the predistorter at a sample (R213): the tick of the symbol, the basis term whose product it strikes (none: the sum), the error
in units of the exact result's last place, and whether a received residue disagrees with its operand (R386). -/
structure DpdFault where
  tick : Nat
  term : Option Nat
  err : IQ
  received : Bool
  deriving DecidableEq, Repr

/-- A JTAG lifecycle block (Table 18-3): its 224 bytes as shifted in, and where the supply is lost while its cells are being programmed, after
how many of them (R402). -/
structure LcBlock where
  bytes : List Byte
  cut : Option Nat
  deriving DecidableEq, Repr

/-- The commands. `ring` is a host-to-device pigeonhole 0..7 and `dma` the bytes the device fetches for the message when
the ring lies in host memory (LOC = 0, R35); with LOC = 1 the bytes come from the ring's slots and `dma` is not read. -/
inductive Instr where
  -- system and event messages (chapter 02, 19)
  | sysHello (ring : Nat) (dma : List Byte)
  | sysInfo (ring : Nat) (dma : List Byte)
  | sysReset (ring : Nat) (dma : List Byte)
  | sysFwImage (ring : Nat) (dma : List Byte)
  | fwImageComplete (e : LongEnd)
  | sysReady
  | eventConfig (ring : Nat) (dma : List Byte)
  | eventDrain (ring : Nat) (dma : List Byte)
  | badOpcode (ring : Nat) (dma : List Byte)
  | framingLost (ring : Nat) (dma : List Byte)
  -- configuration (chapter 03)
  | cfgStage (ring : Nat) (dma : List Byte)
  | cfgCommit (ring : Nat) (dma : List Byte)
  | commitArmed
  | commitArmTimeout
  | commitBoundary
  | cfgDiscard (ring : Nat) (dma : List Byte)
  | cfgRead (ring : Nat) (dma : List Byte)
  -- beamforming (chapter 08)
  | beamCatalogueWrite (ring : Nat) (dma : List Byte)
  | cabinetWriteComplete
  | cabinetBoundary
  | beamCataloguePersist (ring : Nat) (dma : List Byte)
  | cataloguePersistComplete (e : LongEnd)
  | beamElementMap (ring : Nat) (dma : List Byte)
  -- linearisation (chapter 09)
  | dpdConfigure (ring : Nat) (dma : List Byte)
  | dpdBankWrite (ring : Nat) (dma : List Byte)
  | bankCommit
  | dpdClassSwitch (sym : SymName)
  | dpdAdaptControl (ring : Nat) (dma : List Byte)
  | adaptationSolution (path cls : Nat) (poisoned : Bool) (ovf : Nat) (coefs : List IQ)
  | dpdBankPersist (ring : Nat) (dma : List Byte)
  | bankPersistComplete (e : LongEnd)
  | cfrConfigure (ring : Nat) (dma : List Byte)
  | capturePlan (ring : Nat) (dma : List Byte)
  | captureOccurrence (src : CaptureSrc) (sym : SymName) (tickOffset : Nat)
  | captureComplete (src : CaptureSrc) (run : OrxRun)
  -- calibration (chapter 16)
  | calRun (ring : Nat) (dma : List Byte)
  | calComplete (results : List CalResult) (e : LongEnd)
  | calStatus (ring : Nat) (dma : List Byte)
  -- power (chapter 14)
  | pwrRequest (ring : Nat) (dma : List Byte)
  | pwrStatus (ring : Nat) (dma : List Byte)
  | pwrRefusals (ring : Nat) (dma : List Byte)
  | padRelease (src : PadSource)
  -- time and clock messages (chapter 13)
  | timeServo (ring : Nat) (dma : List Byte)
  | timeSetOffset (ring : Nat) (dma : List Byte)
  | timeStatus (ring : Nat) (dma : List Byte)
  | clkMeasure (ring : Nat) (dma : List Byte)
  | clkMeasureDone (edges : Nat) (refEdge : Bool)
  | clkSources (ring : Nat) (dma : List Byte)
  -- bias and housekeeping (chapter 12)
  | biasSet (ring : Nat) (dma : List Byte)
  | biasSpan (ring : Nat) (dma : List Byte)
  | biasRelease (ring : Nat) (dma : List Byte) (hvP hvN : Nat)
  | biasSlewUpdate
  | biasParked (channel : Nat)
  | paClearN
  | hkConfigure (ring : Nat) (setup : HkSetup)
  | hkWindow (ring : Nat) (dma : List Byte)
  | hkRead (ring : Nat) (dma : List Byte) (code : Nat)
  | hkTrigger (slot : Nat)
  | hkSlotQueued (slot : Nat)
  | hkConversionComplete (converter code recheck : Nat)
  | hkPowerDown (converter : Nat)
  -- self-test, Rocker, NVM messages (chapters 16, 17, 18)
  | testRun (ring : Nat) (dma : List Byte)
  | testComplete (r : TestResult)
  | testStatus (ring : Nat) (dma : List Byte)
  | rockerSet (ring : Nat) (dma : List Byte)
  | digestStart
  | digestComplete
  | nvmRead (ring : Nat) (dma : List Byte)
  | nvmWriteRecord (ring : Nat) (dma : List Byte)
  | nvmStatus (ring : Nat) (dma : List Byte)
  | nvmWriteStep
  -- Trestle messages and core events (chapter 10)
  | trestleKernelLoad (ring : Nat) (dma : List Byte)
  | trestleKernelStart (ring : Nat) (dma : List Byte)
  | trestleStatus (ring : Nat) (dma : List Byte)
  | quantumEnd (core : Nat)
  | cycleBudgetExhausted (core : Nat)
  -- Trestle instructions
  | ld (core : Nat) (dst : Fin 16) (a : TAddr)
  | st (core : Nat) (src : Fin 16) (a : TAddr)
  | ldq (core : Nat) (dst : Fin 4) (a : TAddr)
  | stq (core : Nat) (src : Fin 4) (a : TAddr)
  | mov (core : Nat) (dst src : TReg)
  | movi (core : Nat) (dst : Fin 16) (v : BitVec 16)
  | movhi (core : Nat) (dst : Fin 16) (v : BitVec 16)
  | add (core : Nat) (dst a : Fin 16) (b : TSrc)
  | sub (core : Nat) (dst a : Fin 16) (b : TSrc)
  | and (core : Nat) (dst a : Fin 16) (b : TSrc)
  | or (core : Nat) (dst a : Fin 16) (b : TSrc)
  | xor (core : Nat) (dst a : Fin 16) (b : TSrc)
  | not (core : Nat) (dst a : Fin 16)
  | lsl (core : Nat) (dst a : Fin 16) (b : TSrc)
  | lsr (core : Nat) (dst a : Fin 16) (b : TSrc)
  | asr (core : Nat) (dst a : Fin 16) (b : TSrc)
  | cmp (core : Nat) (a : Fin 16) (b : TSrc)
  | min (core : Nat) (dst a : Fin 16) (b : TSrc)
  | max (core : Nat) (dst a : Fin 16) (b : TSrc)
  | cadd (core : Nat) (dst a b : TPack)
  | csub (core : Nat) (dst a b : TPack)
  | cneg (core : Nat) (dst a : TPack)
  | conj (core : Nat) (dst a : TPack)
  | cshr (core : Nat) (dst a : TPack) (sh : Nat)
  | swaph (core : Nat) (dst a : TPack)
  | unpko (core : Nat) (dst a : TPack)
  | cmul4 (core : Nat) (h : Fin 2) (a b : Fin 4)
  | cmac4 (core : Nat) (h : Fin 2) (a b : Fin 4)
  | cmsu4 (core : Nat) (h : Fin 2) (a b : Fin 4)
  | cmacj4 (core : Nat) (h : Fin 2) (a b : Fin 4)
  | cmac4l (core : Nat) (h : Fin 2) (a b dst : Fin 4) (addr : TAddr)
  | clra (core : Nat) (h : Fin 2)
  | aadd (core : Nat) (dst src : Fin 8)
  | ashr (core : Nat) (a : Fin 8) (sh : Nat)
  | ashl (core : Nat) (a : Fin 8) (sh : Nat)
  | mova (core : Nat) (a : Fin 8) (d : Fin 8)
  | str (core : Nat) (d : Fin 16) (a : Fin 8) (sh : Int) (w : Nat)
  | exp (core : Nat) (d s : Fin 16)
  | norm (core : Nat) (d s e : Fin 16)
  | expc (core : Nat) (d s : Fin 16)
  | expa (core : Nat) (d : Fin 16) (a : Fin 8)
  | bexp (core : Nat) (m : Fin 8)
  | bexpq (core : Nat) (q : Fin 4)
  | beclr (core : Nat)
  | br (core : Nat) (target : BitVec 16)
  | bcc (core : Nat) (cond : TCond) (target : BitVec 16)
  | call (core : Nat) (target : BitVec 16)
  | ret (core : Nat)
  | rpt (core : Nat) (n : TCount)
  | end_ (core : Nat)
  | nop (core : Nat)
  | setf (core : Nat) (v : Word)
  | clrovf (core : Nat)
  | blk (core : Nat) (count : Nat) (last : BitVec 16)
  | dma (core : Nat)
  -- link, log, lease and thermal messages
  | linkConfigure (ring : Nat) (dma : List Byte)
  | linkStatus (ring : Nat) (dma : List Byte)
  | linkCounters (ring : Nat) (dma : List Byte)
  | logRead (ring : Nat) (dma : List Byte)
  | leaseStatus (ring : Nat) (dma : List Byte)
  | thermalConfigure (ring : Nat) (dma : List Byte)
  | thermalRead (ring : Nat) (dma : List Byte) (readings : List (Nat × Reading))
  -- register window, SPI and PCIe (chapter 02)
  | phDoorbell (ring : Nat) (value : Word)
  | phHead (ring : Nat) (value : Word)
  | ringDisable (ring : Nat)
  | ringDisabled (ring : Nat)
  | ringEnable (ring : Nat)
  | phDmaErr (ring kind cause count : Nat)
  | pcieLinkDown
  | pcieLinkUp
  | muteAll (value : Word)
  | parkAll (value : Word)
  | safeHoldReq (value : Word)
  | muteEnd
  | timeCapture (value : Word)
  | thDemand (value : Word)
  | rockerRegisterWrite (offset : Nat) (value : Word)
  | registerWrite (offset width : Nat) (value : Nat)
  | w2Read (src : W2Source)
  | w0Read (src : W0Source)
  | w0Write (frame : List Byte)
  | slotWrite (frame : List Byte)
  | slotRead (frame : List Byte)
  -- fronthaul (chapters 04, 05)
  | frameReceived (port : Nat) (frame : List Byte) (chk : RxCheck)
  | sectionParse (port : Nat)
  | sectionUsable (id : Nat) (crcOk : Bool) (struck : List (Nat × Bool))
  | type5ResponseTimeout (port : Nat)
  | linkDown (port cause : Nat)
  | linkUp (port : Nat)
  -- downlink, uplink, weights, service (chapters 06, 07, 08, 14)
  | dlSymbolRelease (sym : SymName) (faults : DlFaults)
  | dlPlayout (path : Nat) (sym : SymName) (underflow parity : List Nat) (residue : List DpdFault)
  | ulExport (sym : SymName) (obs : UlObs)
  | prachExport (flow occasion rep : Nat) (obs : UlObs)
  | prachOccasion (entry frame : Nat)
  | agcStep (path : Nat) (sym : SymName)
  | protectionStep (path : Nat) (window : RailWindow)
  | protectionReturn (path : Nat)
  | weightClaim (ul : Bool) (carrier frame slot : Nat)
  | serviceStart
  | serviceEnd
  -- RF (chapter 11)
  | tddEvent (step : FrameEvent)
  | rffeProgram (bus : Nat) (run : RffeRun)
  | loQualified (lo : Nat)
  | loQualifyTimeout (lo : Nat)
  | loUnlock (lo : Nat)
  | loRelockTimeout (lo : Nat)
  -- clocks and time (chapter 13)
  | pllUnlock (pll : Nat)
  | oscQualified (osc : Nat)
  | oscQualifyTimeout (osc : Nat)
  | oscRetry
  | refMonitorTrip (osc cause : Nat) (trip : Trip)
  | frcMonitorTrip
  | xtalARevert
  | compensationUpdate
  | esmcTimeout
  | synceRequalify
  | ptpSyncExchange (port : Nat) (t1 t2 t3 t4 : Instant) (tsLost : Bool)
  | ptpMasterChange (m : PtpMaster)
  | ppsInEdge
  | ppsEdgeTimeout
  | holdoverTimeout
  | ppsOut
  -- modes, regulators, wake (chapter 14)
  | modeEntered
  | quiesceTimeout (domain : Nat)
  | pgGood (k : Nat)
  | pgTimeout (k : Nat)
  | pgLoss (k : Nat)
  | wakeSenseTrip (w : SenseLevel)
  | rxEnergyWake (path : Nat) (dbfs : Int)
  | wakeTimer
  | pcieWake
  | wakeRetry
  | domainReady (domain : Nat)
  | wakeStallTimeout (domain : Nat) (req : StallReq)
  | domainIdleOff (domain : Nat)
  -- thermal, leases, watchdog (chapters 15, 17)
  | thermalScheduledDemand
  | thermalResult (sensor : Nat) (reading : Reading)
  | leaseExpiry (entry : Nat)
  | leaseRelease (entry : Nat)
  | watchdogExpiry
  | scrub (hits : List ScrubHit)
  -- reset, boot and lifecycle (chapters 18, 19)
  | powerOnReset (straps : BitVec 8)
  | resetN
  | pg0Retry
  | bootRom (flash : BootFlash) (slot1 : FwHeader)
  | powerCycle
  | advance (block : LcBlock)
  | provision (block : LcBlock)
  | deploy (block : LcBlock)
  | return_ (block : LcBlock)
  | scrap (block : LcBlock)
  | debugOff (block : LcBlock)
  -- rows at the table's end
  | paClearNRelease
  | wakeSenseRearm (w : SenseLevel)
  | pllQualified (pll : Nat)
  | pllQualifyTimeout (pll : Nat)
  | synceMonitorTrip (offsetPpb : Int)
  | monitorWindowEnd (monitor : Nat) (value : Int)
  | resetNRelease (straps : BitVec 8)
  | vddAoDip
  deriving DecidableEq, Repr

end Sys2Proof
end

