-- ==== Sys2Proof/Config.lean ====
section
/-! DEFINITION. What one device or one build fixes and the manual does not state (constants without a body), and the free
values: results the manual leaves open, as uninterpreted functions of what they depend on. Nothing in Lean can evaluate
them, so every claim holds whatever they are. -/

namespace Sys2Proof.Config

/-- `ID_UNIQUE` of this die (Table 2-10: per die). -/
opaque uid : BitVec 64

/-- Omquel's PCI-SIG vendor ID (02 R31): named, its value not stated. -/
opaque pciVendor : BitVec 16

/-- The 128-bit nonces of the JTAG lifecycle commands (18 R405): a fresh value per index. -/
opaque nonce : Nat → List Byte

/-- Verdict of an ECDSA P-384 verification: public key, signed bytes, signature (18 R405, R423). -/
opaque signatureOk : List Byte → List Byte → List Byte → Bool

/-- SHA-384 digest of bytes (10 R248, 18 R405, 19 R423): a standard function whose values no rule of the manual states. -/
opaque sha384 : List Byte → List Byte

/-- The public key of Omquel key slot n (18 R408), held in the device's cells. -/
opaque omquelKey : Nat → List Byte

/-- Payload bytes of a factory record as shipped (R2): the manual states that it is written, not its values. -/
opaque factoryRecord : Nat → List Byte

/-- Factory values of record 0x0101 that the manual uses but whose place in the payload it does not give (16 R375): the
calibrated delay in ps of a TX path (0) or RX path (1). -/
opaque factoryDelay : Nat → Nat → List Byte → Nat

/-- Gain-step corrections of an RX path in a factory record 0x0101's payload (16 R375): path, payload. -/
opaque factoryGain : Nat → List Byte → List Byte

/-- Payload of record 0x0101 in which a type 10 result has replaced the one before: old payload, result (16 R373, R375; the
place of the result in the payload is not stated). -/
opaque factoryTrim : List Byte → List Byte → List Byte

/-- What the test engine has found when a run is stopped (18 R413): how far it got is a matter of time and of the die. -/
opaque testSoFar : Nat → TestResult

/-- Station address of the peer to which a port's UL frames go: no rule states the destination (log 24). -/
opaque peerMac : Nat → BitVec 48

/-- A port's Delay_Req from its destination address on (13 R321): IEEE 1588's, of which the manual states none (log 24). -/
opaque delayReq : Nat → List Byte

/-- Whether a 16-bit immediate of a Trestle instruction is sign-extended: no rule states it (log 25). -/
opaque immSigned : Bool

/-- Which of the results within 2 LSB the transforms of R144 and R170 give: inverse or not, size, shift, input values, index. For given
inputs they give the same bits on every device; which, no rule states. -/
opaque fft : Bool → Nat → Nat → List IQ → Nat → Nat × Nat

/-- Result of a transform into which a fault has put an error: as `fft`, and the error. -/
opaque fftStruck : Bool → Nat → Nat → List IQ → Nat → IQ → IQ

/-- The interpolation filter of a ratio q (R146, R147): its reach in input samples, its coefficient at a tick offset, and the fraction bits
of a coefficient. The rules bound its response and state no coefficient. -/
opaque interpReach : Nat → Nat
opaque interpTap : Nat → Int → Int
opaque interpFrac : Nat

/-- The decimation filter of a setting at a ratio q (R163): its reach in ticks, its coefficient at a tick offset, and the fraction bits of a
coefficient. -/
opaque decimReach : Nat → Nat → Nat
opaque decimTap : Nat → Nat → Int → Int
opaque decimFrac : Nat

/-- Which of the 18-bit values within one unit of the exact sine of a 48-bit phase the NCO gives (R148): its rounding is not stated. -/
opaque sine18 : Nat → Nat

/-- A carrier's band-limited pulse (R207), 18 bits per component: frequency offset in Hz, occupied width in Hz, taps, offset from its centre. -/
opaque cfrPulse : Int → Nat → Nat → Int → IQ

/-- Fraction bits beyond 2^-15 of the complex amount a peak is cancelled by (R206): not stated. -/
opaque cfrFrac : Nat

/-- Energy in a band (R208): frequency offset and width in Hz, samples. -/
opaque bandEnergy : Int → Nat → List IQ → Nat

/-- The alignment multiplier of a path's stream for an applied gain (R166): path, gain in dB, gain-step calibration; and its fraction bits. -/
opaque gainInverse : Nat → Nat → List Byte → Nat
opaque gainFrac : Nat

/-- The receive path's fractional delay filter (R158): fraction in 2^-8 tick, the 8 codes about the sample, in units of 2^-15. -/
opaque fracAlign : Nat → List IQ → IQ

/-- PRACH sequence elements before rounding (R174): format, frequency in Hz, the samples of a repetition; and their fraction bits. -/
opaque prach : Nat → Int → List IQ → List IQ
opaque prachFrac : Nat

/-- Powers and basis values of R212 that do not fit their 18 bits: the manual gives no reduction for them (log 26). -/
opaque power18 : Nat → Nat
opaque basis18 : Int → Int

/-- The fractional delay filter of R136: fraction in 2^-8 tick, the 8 samples up to the present one, oldest first. -/
opaque fracDelay : Nat → List IQ → IQ

/-- What the core's data memory holds after a firmware service's DMA: free bytes per index (log 28). -/
opaque dmaData : Nat → List Byte

/-- A free value: the n-th value the model leaves open, read as a number of the width its user needs. -/
opaque freeValue : Nat → Nat

/-- Which of the classes that tie as governing a symbol is its DPD class (R120), by the tied classes in ascending order (log 7). -/
opaque tieClass : List Nat → Nat

/-- What a Rocker draw gives for a state of the LFSR and a field's value (R396), reduced to 0 up to the field (log 65). -/
opaque rockerDraw : Nat → Nat → Nat

/-- VCO band of a synthesiser for a frequency in mHz and a temperature in 0.25 °C, from the clock curves of record 0x0103, whose layout the
manual does not give (R325, log 2). -/
opaque vcoBand : List Byte → Nat → Int → Nat

/-- Bandgap and reference trim of a thermal reading, from the same curves (R325, log 2). -/
opaque refTrim : List Byte → Nat → Int → Int

/-- Nominal voltage in µV of an HK-ADC channel that no table gives: I/O and park rails as the board sets them, bandgaps, references (R414, log
118). -/
opaque refNominal : Nat → Int

/-- Ticks that programming the security-version counter takes (R408, log 66). -/
opaque raiseTicks : Nat

/-- Error of comparator k's threshold at setting t, of which the model takes 10 mV either way (R347), in µV. -/
opaque senseError : Nat → Nat → Nat

end Sys2Proof.Config
end

