-- ==== Sys2Proof/Machine/State.lean ====
section
/-! DEFINITION. The state of the RGH-6464: plain data, grouped by chapter. Every field's docstring gives its width, the rule
that names it and its reset value; the default of each field is that reset value, so `State.reset` is `{}`. Tables list only
what differs from the reset value of the index. Numbers the manual gives a width are kept below it by the operations that
write them (saturating or wrapping as the manual says). -/

namespace Sys2Proof.Machine

/-- The twelve operating modes (Table 2-10). -/
inductive Mode where
  | reset | boot | bringUp | standby | listen | deepSleep | operateTdd | operateFdd | calibrate | selfTest | safeHold | thermalLatch
  deriving DecidableEq, Repr

/-- The six lifecycle stages (Table 18-1). -/
inductive Stage where
  | blank | manufacture | provisioned | field | return_ | scrapped
  deriving DecidableEq, Repr

/-- Header of a message as received (Table 2-3). -/
structure Hdr where
  opcode : Nat := 0
  flags : Nat := 0
  seq : Nat := 0
  length : Nat := 0
  epoch : Nat := 0
  tag : Nat := 0
  status : Nat := 0
  crc : Nat := 0
  deriving DecidableEq, Repr

/-- Where an answer goes: the host ring of a message and its header (R38, R43). -/
structure Asker where
  ring : Nat := 0
  hdr : Hdr := {}
  deriving DecidableEq, Repr

/-- One entry of a ring's replay window (R47): sequence number, latest response if one was formed, whether it was an error,
and whether its long operation still runs. -/
structure Replay where
  seq : Nat
  resp : List Byte
  isErr : Bool
  deriving DecidableEq, Repr

/-- One pigeonhole ring (Table 2-11, R34 to R50). -/
structure Ring where
  /-- PH_BASE, 64 bits, [11:0] reserved; 02 Table 2-11; reset 0. -/
  base : Nat := 0
  /-- PH_CTRL.ENABLE; 02 R40; reset 1. -/
  enable : Bool := true
  /-- PH_CTRL.LOC, 1 device memory; 02 R35; reset 1. -/
  loc : Bool := true
  /-- Consumer count, 32 bits; 02 R34; reset 0. -/
  head : Nat := 0
  /-- Producer count, 32 bits; 02 R34; reset 0. -/
  tail : Nat := 0
  /-- PH_STATUS.BAD_DOORBELL; 02 R36; reset 0. -/
  badDoorbell : Bool := false
  /-- PH_STATUS.DMA_ERR; 02 R59; reset 0. -/
  dmaErr : Bool := false
  /-- PH_STATUS.DROPPED; 02 R50; reset 0. -/
  dropped : Bool := false
  /-- PH_STATUS.ACTIVE: disabled while a message is still in execution; 02 R40; reset 0. -/
  active : Bool := false
  /-- Expected sequence, 32 bits, or unset; 02 R46; reset unset. -/
  expect : Option Nat := none
  /-- Replay window, newest first, at most 8; 02 R47; reset empty. -/
  window : List Replay := []
  /-- Responses held for want of room, oldest first (PH_STATUS.HELD); 02 R50; reset none. -/
  held : List (List Byte) := []
  /-- Device message count, 32 bits (sequence of device-originated messages); 02 R43; reset DESIGN CHOICE 0 (log 4). -/
  devSeq : Nat := 0
  /-- A message taken from this ring whose answer is still to come; 02 R48; reset none. -/
  busy : Bool := false
  deriving DecidableEq, Repr

/-- Kinds of long operation (Table 2-7). -/
inductive LongKind where
  | fwImage | cataloguePersist | bankPersist | calRun | testRun
  deriving DecidableEq, Repr

/-- The pigeonholes. -/
structure Pigeon where
  /-- The 16 rings; 02 R34; reset as the fields of a ring say. -/
  ring : Tbl Ring := []
  /-- Slot bytes in Bureau memory, 16 × 64 × 512, key ring × 32768 + slot × 512 + offset; 02 R35; reset DESIGN CHOICE 0 (log 3). -/
  slots : Tbl Byte := []
  /-- PH_GLOBAL.IGNORED_ACCESS, 16 bits saturating; 02 R32; reset 0. -/
  ignored : Nat := 0
  /-- PCIe link up; 02 R35; reset DESIGN CHOICE up (log 3). -/
  pcieUp : Bool := true
  /-- Long operations running, at most 8; 02 R48; reset none. -/
  long : List (LongKind × Asker) := []
  /-- Whose turn it is among pigeonholes 1 to 7; 02 R48; reset DESIGN CHOICE 1 (log 4). -/
  turn : Nat := 1
  /-- MSI-X table of BAR4, 32 entries of four 32-bit words, key 4 × vector + word; 02 R31, Table 2-1; reset DESIGN CHOICE 0, every
  vector unmasked (log 93). -/
  msix : Tbl Nat := []
  /-- MSI-X pending-bit array of BAR4, 32 bits; 02 R31, Table 2-1; reset 0. -/
  pba : BitVec 32 := 0
  deriving DecidableEq, Repr

/-- The occurrence that set an event's status bit (R55, R56): corrected time and the 8-byte detail. -/
structure Occ where
  time : Instant := 0
  detail : List Byte := []
  deriving DecidableEq, Repr

/-- The 256 events (R54 to R58). -/
structure Events where
  /-- EV_STATUS, 256 bits; 02 Table 2-12; reset 0. -/
  status : BitVec 256 := 0
  /-- EV_MASK, 256 bits; 02 Table 2-12; reset 0. -/
  mask : BitVec 256 := 0
  /-- EV_ROUTE[0..15], 32 bits; 02 Table 2-12; reset INT_LINE = b mod 4, VECTOR = b, MSG_EN = 1. -/
  route : Tbl Nat := []
  /-- EV_COUNT of each event, 16 bits saturating; 02 R55; reset 0. -/
  count : Tbl Nat := []
  /-- Occurrence that set each status bit; 02 R55; reset none. -/
  occ : Tbl Occ := []
  deriving DecidableEq, Repr

/-- System registers (Table 2-10). -/
structure SysRegs where
  /-- ID_FW, 32 bits; 02 Table 2-10; reset 0. -/
  idFw : Nat := 0
  /-- SYS_STATE.READY; 02 Table 2-10; reset 0. -/
  ready : Bool := false
  /-- SYS_STATE.BUREAU_HALTED; 02 Table 2-10; reset 0. -/
  halted : Bool := false
  /-- Bureau watchdog restarts, 32 bits saturating; SYS_STATE.RESTART_COUNT shows at most 255; 02 Table 2-10; reset 0. -/
  restarts : Nat := 0
  /-- SYS_STATE.BOOT_CAUSE, 4 bits; 02 Table 2-10; reset the cause, here power-on 0. -/
  bootCause : Nat := 0
  /-- Boots since manufacture, 32 bits; 02 Table 2-8; reset DESIGN CHOICE 0 (log 3). -/
  bootCount : Nat := 0
  deriving DecidableEq, Repr

/-- Emergency registers (Table 2-13). -/
structure Emerg where
  /-- EMERG_STATUS.MUTED; 02 R61; reset 0. -/
  muted : Bool := false
  /-- EMERG_STATUS.PARKED; 02 R61; reset 0. -/
  parked : Bool := false
  /-- EMERG_STATUS.BAD_KEY; 02 R61; reset 0. -/
  badKey : Bool := false
  /-- EMERG_STATUS.BAD_KEY_COUNT, 16 bits saturating; 02 R61; reset 0. -/
  badKeyCount : Nat := 0
  /-- Corrected time at which UNMUTE was executed, while the mute has not ended; 06 R152; reset none. -/
  unmuteAt : Option Instant := none
  /-- PAD_HOLD.HELD, 12 bits; 02 Table 2-13; reset 0. -/
  held : BitVec 12 := 0
  /-- PAD_REFUSED, 12 bits; 02 Table 2-13; reset 0. -/
  refused : BitVec 12 := 0
  /-- TX halves powered since VDD_AO became good, 4 bits: the pins of the others are in high impedance; 19 R421; reset 0. -/
  powered : BitVec 4 := 0
  deriving DecidableEq, Repr

/-- Defaults of `time.servo` (R327), the 144 bytes of Table 13-8. -/
def servoDefault : List Byte :=
  [0, 1, 24, 0, 0, 16] ++ leBytes 2 100 ++ leBytes 4 28147 ++ leBytes 4 1759 ++ leBytes 4 2814750 ++ leBytes 2 1000 ++ [0, 0]
    ++ leBytes 2 100 ++ [0, 0] ++ zeros 8 ++ List.replicate 8 128 ++ zeros 100

/-- The timebase and the servo (R316 to R330). -/
structure Time where
  /-- Raw counter R in ticks, 80 bits; 13 R316; reset 0 when VDD_AO becomes good. -/
  raw : Nat := 0
  /-- Fine mode: CONV-PLL is qualified; 13 R316; reset coarse, no PLL being qualified yet (log 3). -/
  fine : Bool := false
  /-- Offset register O, signed, 2^-16 ns; 13 R319; reset 0. -/
  offset : Int := 0
  /-- Rate register r, signed, 2^-48; 13 R319; reset 0. -/
  rate : Int := 0
  /-- TIME_STATE.SERVO, 2 bits; 02 Table 2-14; reset 0. -/
  servo : Nat := 0
  /-- Servo integral; 13 R320; reset DESIGN CHOICE 0 (log 3). -/
  integ : Int := 0
  /-- Consecutive measurements within the threshold; 13 R320; reset 0. -/
  good : Nat := 0
  /-- Consecutive measurements beyond four thresholds while locked; 13 R320; reset 0. -/
  bad : Nat := 0
  /-- Measurements of the requalification run, newest first; 13 R323; reset none. -/
  requal : List Int := []
  /-- Holdover cause; 13 Table 13-10; reset 0. -/
  holdCause : Nat := 0
  /-- Raw value at which the current holdover began; 13 Table 13-10; reset 0. -/
  holdSince : Nat := 0
  /-- Last e, signed, 2^-16 ns; 13 Table 13-10; reset 0. -/
  lastE : Int := 0
  /-- Mean path delay, 2^-16 ns; 13 Table 13-10; reset 0. -/
  meanDelay : Int := 0
  /-- Measurements since the last state change, 32 bits; 13 Table 13-10; reset 0. -/
  measures : Nat := 0
  /-- Share of the servo's rate that the DPLL has taken up, with PTP as its input, in 2^-48; 13 R320; reset 0. -/
  steer : Int := 0
  /-- Raw value of the last measurement, for the holdover timeout; 13 R323; reset 0. -/
  lastMeas : Nat := 0
  /-- Selected PTP master; 13 Table 13-10; reset none. -/
  master : PtpMaster := ⟨none, 0, 0, 0, 0, 0, 0⟩
  /-- The `time.servo` settings, 144 bytes; 13 R327; reset as listed there. -/
  settings : List Byte := servoDefault
  /-- Raw value of the previous 1PPS_IN edge; 13 R322; reset none. -/
  lastPps : Option Nat := none
  /-- Raw value at which 1PPS_IN became the phase source; 13 R322; reset 0. -/
  ppsSince : Nat := 0
  /-- EV_1PPS_MISSING raised since the last edge; 13 R322; reset 0. -/
  ppsMissed : Nat := 0
  /-- Whole second of the last 1PPS_OUT pulse and the raw value of its edge; 13 R328; reset none. -/
  ppsOut : Option (Int × Nat) := none
  /-- TIME_STATE.VALID; 02 Table 2-14; reset 0. -/
  capValid : Bool := false
  /-- Latched corrected time, 2^-16 ns (TIME_SEC, TIME_NS, TIME_FRAC); 02 Table 2-14; reset 0. -/
  capC : Int := 0
  /-- Latched raw counter TIME_RAW, 80 bits; 02 Table 2-14; reset 0. -/
  capRaw : Nat := 0
  deriving DecidableEq, Repr

/-- Clocks (R305 to R315, R326, R331). -/
structure Clocks where
  /-- The `clk.sources` settings, 32 bytes; 13 Table 13-6; reset DESIGN CHOICE all zero, both oscillators absent, until boot (log 3). -/
  sources : List Byte := zeros 32
  /-- State of XTAL_A (0) and XTAL_B (1): 0 absent, 1 counting, 2 qualified, 3 failed; 13 Table 13-7; reset 0. -/
  osc : Tbl Nat := []
  /-- Active: 0 XTAL_A, 1 XTAL_B, 2 FRC bridge, 3 FRC only; 13 Table 13-7; reset 3, the boot ROM running from the FRC (R422). -/
  active : Nat := 3
  /-- DPLL: 0 free-run, 1 acquiring, 2 locked, 3 holdover; 13 Table 13-7; reset 0. -/
  dpll : Nat := 0
  /-- Qualified loops, bit 0 DPLL, 1 CONV-PLL, 2 SYS-PLL, 3 and 4 serdes PLL [0], [1]; 13 Table 13-2; reset 0. -/
  plls : BitVec 5 := 0
  /-- Last SSM code, 4 bits, 0xF failed; 13 Table 13-7; reset DESIGN CHOICE 0xF (log 3). -/
  ql : Nat := 15
  /-- SyncE input qualified; 13 R315; reset 0. -/
  synceOk : Bool := false
  /-- Raw value since which no disqualifying cause holds; 13 R315; reset 0. -/
  synceSince : Nat := 0
  /-- Raw value of the last ESMC frame; 13 R315; reset 0. -/
  lastEsmc : Nat := 0
  /-- Last comparison XTAL_A minus XTAL_B in ppb, and the raw value of its measurement; 13 Table 13-7, R311; reset none. -/
  comparison : Option (Int × Nat) := none
  /-- Cycles of each oscillator in the last gross-frequency window of 2^16 FRC cycles, 0 with none; 13 R312; reset none. -/
  gross : Tbl Int := []
  /-- Master-clock frequency word of the DPLL, its output over the clock it counts, in 2^-48; 13 R311; reset DESIGN CHOICE 0 (log 110). -/
  word : Int := 0
  /-- Frequency correction that the DPLL holds: the average before its input was lost, and comparisons applied at switches, in 2^-48 of the
  word; 13 R311, R313; reset 0. -/
  held : Int := 0
  /-- Oscillator switches since power-on; 13 Table 13-7; reset 0. -/
  switches : Nat := 0
  /-- Unlocks of each loop; 13 Table 13-13; reset 0. -/
  unlocks : Tbl Nat := []
  /-- Raw value since which XTAL_A has stayed qualified, while XTAL_B is active; 13 R309; reset 0. -/
  aQualSince : Nat := 0
  /-- Crystal correction applied to the DPLL word, and the count of its updates; 13 R325; reset 0. -/
  comp : Int := 0
  compCount : Nat := 0
  /-- Bandgap and reference trim of the last thermal reading of each sensor; 13 R325; reset 0. -/
  refTrim : Tbl Int := []
  /-- Frequency measurement: state 0 to 4; 13 R331; reset 0. -/
  mState : Nat := 0
  /-- Measured tap, reference tap, gate exponent; 13 R331; reset 0. -/
  mTap : Nat := 0
  mRef : Nat := 0
  mGate : Nat := 0
  /-- Reported ratio, 48 bits, and reference cycles elapsed, 32 bits; 13 R331; reset 0. -/
  mRatio : Nat := 0
  mElapsed : Nat := 0
  deriving DecidableEq, Repr

/-- An image of the configuration (R66): for each section the bytes that differ from the reset image. -/
abbrev Image := Tbl (Tbl Byte)

/-- A commit boundary (R72): frame and quarter. -/
structure Boundary where
  frame : Nat := 0
  quarter : Nat := 0
  deriving DecidableEq, Repr

/-- A commit between the checks and its arming (R73, R74): who asked, its boundary, the raw value of the execution's start, and the
image that the checks have passed. -/
structure Arming where
  asker : Asker
  at_ : Boundary
  start : Nat
  image : Image
  deriving DecidableEq, Repr

/-- The configuration images (R66 to R79). -/
structure Config where
  /-- Live image; 03 R66; reset the reset image. -/
  live : Image := []
  /-- Armed image and its boundary; 03 R73; reset none. -/
  armed : Option (Image × Boundary) := none
  /-- Staged image; 03 R68; reset equal to the live image. -/
  staged : Image := []
  /-- Stage count, 32 bits; 03 R68; reset 0. -/
  count : Nat := 0
  /-- LIVE_EPOCH, 32 bits; 02 Table 2-10; reset 1. -/
  epoch : Nat := 1
  /-- Commit being armed; 03 R73, R74; reset none. -/
  arming : Option Arming := none
  /-- Last outcome, 0 to 6; 03 Table 3-7; reset 0. -/
  outcome : Nat := 0
  /-- Last failing check; 03 Table 3-7; reset 0. -/
  lastCheck : Nat := 0
  /-- Previous live image with the boundary that ended it, kept for symbols before it; 03 R75; reset none. -/
  prev : Option (Image × Boundary) := none
  deriving DecidableEq, Repr

/-- A type 5 delay result of a port (Table 4-5). -/
structure DelayResult where
  id : Nat := 0
  delay : Int := 0
  time : Instant := 0
  deriving DecidableEq, Repr

/-- An eCPRI message waiting in a port's ingress FIFO for the section parser (R95, R131). -/
structure Ingress where
  etype : Nat
  pcId : Nat
  arrival : Instant
  bytes : List Byte
  deriving DecidableEq, Repr

/-- Head that a frame gets as it starts, from the port's addresses, VLAN ID and PCPs of that instant (R88, R96): an eCPRI frame's, to an
address with the PCP at a place of the port's record; or that of another frame, whose type stands in its bytes. -/
inductive EgressHead where
  | ecpri (dst : List Byte) (pcp : Nat)
  | plain (dst : List Byte)
  deriving DecidableEq, Repr

/-- What firmware makes of a transmit timestamp (R98, R99): that of a type 5 request gives the t1 of a measurement with a peer; the one of any
other type 5 or PTP event message needs nothing more. -/
inductive StampOf where
  | request (id : Nat) (dst : List Byte)
  | other
  deriving DecidableEq, Repr

/-- A frame in a port's egress queue (R96): class (0 type 5 and PTP, 1 firmware's answers, 2 UL sections), flow, head, bytes after it without
FCS, the timestamp it takes, and the instant at which it was queued. -/
structure EgressFrame where
  cls : Nat
  flow : Nat
  head : EgressHead
  bytes : List Byte
  stamp : Option StampOf
  since : Instant
  deriving DecidableEq, Repr

/-- A frame in transmission: flow, bytes without FCS, and the instant at which its last byte has left. -/
structure Sending where
  flow : Nat
  bytes : List Byte
  ends : Instant
  deriving DecidableEq, Repr

/-- A transmit timestamp (R99): what it belongs to, and its corrected time. -/
structure TxStamp where
  of_ : StampOf
  time : Instant
  deriving DecidableEq, Repr

/-- One fronthaul port (R87, R98 to R105). -/
structure Port where
  /-- State as Table 4-5; reset DESIGN CHOICE 2, no signal (log 3). -/
  state : Nat := 2
  /-- Logical lanes aligned, 8 bits; 04 Table 4-5; reset 0. -/
  aligned : Nat := 0
  /-- Changes to up since the last reset, 32 bits; 04 Table 4-5; reset 0. -/
  upCount : Nat := 0
  /-- Corrected time of the last state change; 04 Table 4-5; reset 0. -/
  changed : Instant := 0
  /-- Last type 5 result; 04 R100; reset none. -/
  delay : Option DelayResult := none
  /-- Remote measurement in progress: measurement ID, t1; 04 R100; reset none. -/
  meas : Option (Nat × Instant) := none
  /-- Receive timestamp t2 held for a request with follow-up: measurement ID, t2; 04 R100; reset none. -/
  heldT2 : Option (Nat × Instant) := none
  /-- Transmit timestamp FIFO, at most 64; 04 R99; reset empty. -/
  txStamps : List TxStamp := []
  /-- Receive timestamp of the last PTP event message, as firmware has it; 04 R98; reset none. -/
  ptpRx : Option Instant := none
  /-- The reconciliation sublayer transmits remote fault, local fault being received; 04 R87; reset 0. -/
  remoteFault : Bool := false
  /-- Egress queue, oldest first; 04 R96; reset empty. -/
  queue : List EgressFrame := []
  /-- Frames of the first two classes that firmware keeps back; 04 R96; reset none. -/
  kept : List EgressFrame := []
  /-- Frame in transmission; 04 R88, R96; reset none. -/
  line : Option Sending := none
  /-- Instant until which a frame and its gap occupy the line; 04 R96; reset 0. -/
  busy : Instant := 0
  /-- Ingress FIFO, 256 KiB; 04 R95; reset empty. -/
  fifo : List Ingress := []
  deriving DecidableEq, Repr

/-- The fronthaul. -/
structure Fronthaul where
  /-- Ports [0..7]; 04 R83; reset as the fields of a port say. -/
  port : Tbl Port := []
  /-- Counters of Table 4-6, 64 bits, key port × 32 + index; 04 R105; reset 0. -/
  count : Tbl Nat := []
  /-- Last sequence number of each PC_ID or RTC_ID, plus 1; 04 R91; reset none. -/
  seqPrev : Tbl Nat := []
  deriving DecidableEq, Repr

/-- A section stored in the DL section buffer (R124, R131). `head` holds its header bytes, `air` the air time of R112, `struck` its 64-bit
words (from its first byte on) that read with a double-bit error (R26). One that failed keeps its header, so that a duplicate is told
(R124), but no payload. -/
structure Section where
  id : Nat
  flow : Nat
  port : Nat
  stype : Nat
  sym : SymName
  air : Instant
  arrival : Instant
  margin : Nat
  head : List Byte
  payload : List Byte
  crc : Nat
  usable : Bool
  applied : Bool
  failed : Bool := false
  struck : List Nat := []
  deriving DecidableEq, Repr

/-- One content item of R125: kind 1 data PRB, 2 control group, 3 weight vector, 4 AGC path, 5 PRACH occasion; `ul`
tells the direction of control and weight items, `owner` the layer, stream or flow. -/
structure Item where
  kind : Nat
  ul : Bool
  carrier : Nat
  owner : Nat
  frame : Nat
  slot : Nat
  symbol : Nat
  index : Nat
  deriving DecidableEq, Repr

/-- One layer of a released symbol (R138 to R142): PRB values, 24 each, and the 64 weights of each PRB group. -/
structure LayerContent where
  layer : Nat
  prbs : List (Nat × List Int)
  weights : List (Nat × List IQ)
  deriving DecidableEq, Repr

/-- A released DL symbol in the pipeline (R20, R135): its layers, on the class carrier its DPD class (R120), the errors of residue
mismatches met at release (beamformer: antenna stream and resource element; iFFT: path and sample), the samples delivered as zero for
parity on the way to the up-converter (path, sample; R385), the paths on which it has been played, and the paths marked with a failed
check (R145, R202, R213, R385). -/
structure Released where
  sym : SymName
  air : Instant
  length : Nat
  layers : List LayerContent
  cls : Nat
  bfErrs : List Flip
  fftErrs : List Flip
  zeros : List (Nat × Nat)
  played : List Nat
  marked : List Nat
  deriving DecidableEq, Repr

/-- Playout of one path (R136): the air-time tick from which its samples have not yet been taken to the pins, and of the ticks from there on
those that had no sample (R137), whose word failed parity on the bridge (R151), and the errors put into the DPD's products and sums
(R213). Ticks are counted since frame 0. -/
structure Playing where
  upTo : Int
  gaps : List Int := []
  lost : List Int := []
  errs : List (Int × DpdFault) := []
  deriving DecidableEq, Repr

/-- An interval in which the DAC samples of a tile's paths are replaced by zero: from an instant at the pins, until the tick of the
symbol or boundary of this air time; `mute` tells a mute (R152) from a synthesiser or the FRC bridge (R268, R312), whose replaced
samples count nothing. -/
structure Silence where
  tile : Nat
  from_ : Instant
  until_ : Option Instant
  mute : Bool
  deriving DecidableEq, Repr

/-- The downlink. -/
structure Downlink where
  /-- DL section buffer, 16 MiB; 01 R26, 05 R131; reset empty. -/
  buffer : List Section := []
  /-- Number of the next stored section (the model's own handle); reset 0. -/
  nextId : Nat := 0
  /-- Content items made invalid by overlap; 05 R125; reset none. -/
  invalid : List Item := []
  /-- Released symbols in the pipeline and the playout buffers; 06 R135, R136; reset none. -/
  released : List Released := []
  /-- DPD class in force, 4 bits; 05 R120, 09 R218; reset 0 (class 0 at the first symbol of service). -/
  cls : Nat := 0
  /-- Class carrier symbol (index since frame 0) at which the class last switched; 09 R218; reset 0. -/
  clsAir : Instant := 0
  /-- Instant from which the class history runs: the last service start, handover (row 4) or change of duplex; 05 R120, 14 R342;
  reset 0. -/
  clsFrom : Instant := 0
  /-- Playout of TX paths [0..63]; 06 R136; reset none. -/
  playing : Tbl (Option Playing) := []
  /-- Air time of the last class-carrier symbol at which the class was switched; 03 R75, 09 R218; reset none. -/
  switched : Option Instant := none
  /-- Intervals in which DAC samples are replaced by zero; 06 R152, 11 R268; reset none. -/
  silence : List Silence := []
  deriving DecidableEq, Repr

/-- A mark on a UL symbol of one path (Table 7-6): flag bit of Table 5-12, and the step for AGC_STEP. -/
structure UlMark where
  carrier : Nat
  air : Instant
  path : Nat
  flag : Nat
  step : Int
  deriving DecidableEq, Repr

/-- A PRACH occasion in progress on one flow (R174, R176), with the image that governs it. -/
structure PrachRun where
  image : Image
  flow : Nat
  entry : Nat
  occasion : Nat
  frame : Nat
  start : Instant
  reps : Nat
  done : Nat
  missing : Bool
  weight : List IQ
  deriving DecidableEq, Repr

/-- A change of a path's applied gain: the air time at which its alignment multiplier switches, and the gains in dB (R166, R167). -/
structure GainStep where
  path : Nat
  air : Instant
  old : Nat
  new : Nat
  deriving DecidableEq, Repr

/-- The uplink. -/
structure Uplink where
  /-- Planned gain of RX paths [0..63], dB, 0 to 30; 07 R165; reset 20, section 0x0C's reset gain. -/
  planned : Tbl Nat := []
  /-- Protection reduction of each path, dB; 07 R167; reset 0. -/
  reduction : Tbl Nat := []
  /-- Air time of the last protection trigger of each path; 07 R167; reset none. -/
  trigger : Tbl Instant := []
  /-- UL symbols are exported that begin at or after this instant (service start or offset write); 13 R324, 14 R342; reset 0. -/
  notBefore : Instant := 0
  /-- UL symbols are exported that end at or before this instant, service having ended there; 14 R342; reset none. -/
  notAfter : Option Instant := none
  /-- Marks set on symbols and not yet exported; 07 R178; reset none. -/
  marks : List UlMark := []
  /-- Per-flow message sequence, 8 bits; 05 R130; reset 0. -/
  seq : Tbl Nat := []
  /-- PRACH occasions in progress, at most 32; 07 R176; reset none. -/
  prach : List PrachRun := []
  /-- Repetitions whose saturations and parity failures have been counted: entry, frame, repetition; 07 R179; reset none. -/
  prachSeen : List (Nat × Nat × Nat) := []
  /-- Words that failed parity and have been counted: path, pin tick; 07 R168; reset none. -/
  paritySeen : List (Nat × Int) := []
  /-- Changes of applied gains, oldest first, until their multipliers have served; 07 R166; reset none. -/
  gains : List GainStep := []
  /-- Air time of the last symbol exported of each carrier (key carrier), of the last AGC step of each path and carrier (key 16 + 4 × path +
  carrier), and start of the last PRACH occasion begun of each entry (key 1024 + entry): they tell apart two of one name about a boundary;
  03 R75; reset none. -/
  served : Tbl Instant := []
  /-- Bytes of the sections stored in the UL buffer for an export instant, of 4 MiB; 07 R161, 01 Table 1-7; reset none. -/
  stored : Option (Instant × Nat) := none
  deriving DecidableEq, Repr

/-- A Cabinet entry (Table 8-4). -/
structure CabEntry where
  defined : Bool := false
  weights : List Byte := []
  cls : Nat := 0
  label : Nat := 0
  deriving DecidableEq, Repr

/-- A Cabinet write between its execution and its completion instant W (R193, R194). -/
structure CabWrite where
  asker : Asker
  records : List (Nat × CabEntry)
  deriving DecidableEq, Repr

/-- What a dynamic weight vector was until an instant: claim, state and content. -/
structure PastVec where
  until_ : Instant
  claim : Option (Nat × Nat)
  state : Nat
  data : List Byte
  deriving DecidableEq, Repr

/-- A dynamic weight vector (R197): claim (carrier, slot count since frame 0) with the air time at which that slot ends, state 0 EMPTY,
1 VALID, 2 INVALID. `past` is what it was before its last changes, newest first, for reads that belong to an instant before them (R172,
R174). -/
structure WeightVec where
  claim : Option (Nat × Nat) := none
  ends : Instant := 0
  state : Nat := 0
  data : List Byte := []
  past : List PastVec := []
  deriving DecidableEq, Repr

/-- Beamforming. -/
structure Beam where
  /-- Live Cabinet entries [0..6143]; 08 R191; reset undefined (R192: no valid copy is shipped). -/
  cabinet : Tbl CabEntry := []
  /-- Start of the last slot claimed of each carrier, key 2 × carrier + 1 for UL; 03 R75, 08 R197; reset none. -/
  claimed : Tbl Instant := []
  /-- Cabinet writes not yet complete; 08 R193; reset none. -/
  writes : List CabWrite := []
  /-- Waiting entries: boundary, entry number, content; at most 512; 08 R193; reset none. -/
  waiting : List (Boundary × Nat × CabEntry) := []
  /-- Dynamic vectors, key ((direction × 2 + bank) × 10240 + v); 08 R196; reset EMPTY, DESIGN CHOICE unclaimed (log 3). -/
  vec : Tbl WeightVec := []
  /-- Content that entries had before a recent boundary, for symbols before it (R193): boundary, entry, content; reset none. -/
  old : List (Boundary × Nat × CabEntry) := []
  /-- Boundary whose content the live Cabinet is; 08 R195; reset frame 0, quarter 0. -/
  liveAt : Boundary := {}
  deriving DecidableEq, Repr

/-- A DPD bank (R217): coefficients that differ from 0. -/
abbrev Bank := Tbl IQ

/-- A pending bank commit (R219). -/
structure BankCommit where
  pairs : List Nat
  boundary : Instant
  host : Bool
  deriving DecidableEq, Repr

/-- Adaptation of one path and class (Table 9-10). -/
structure Adapt where
  state : Nat := 0
  cause : Nat := 0
  /-- Commits and last commit boundary, since power-on; 09 Table 9-10; reset 0, none. -/
  commits : Nat := 0
  lastAir : Option Instant := none
  damping : Nat := 0
  length : Nat := 0
  atten : Nat := 0
  paused : Bool := false
  retried : Bool := false
  missedRun : Nat := 0
  /-- Samples of the pair's last capture that its next solution takes, DPD input and ORx code; 10 R254; reset none. -/
  inputs : List (IQ × IQ) := []
  deriving DecidableEq, Repr

/-- One entry of the host capture plan (Table 9-7). -/
structure PlanEntry where
  frame : Nat
  period : Nat
  subframe : Nat
  slot : Nat
  symbol : Nat
  clsFilter : Nat
  path : Nat
  atten : Nat
  tick : Nat
  length : Nat
  region : Nat
  deriving DecidableEq, Repr

/-- A capture in progress (R223, R226): source, ORx, path, air-time interval in ticks, class and header fields: the name of the first
sample's symbol, its tick in it, and the occurrences of the entry taken with it. `input` is its DPD input so far where playout has
ended since it began. -/
structure Capturing where
  src : CaptureSrc
  orx : Nat
  path : Nat
  start : Instant
  length : Nat
  cls : Nat
  atten : Nat
  sym : SymName
  tick : Nat
  region : Nat
  taken : Nat
  input : List IQ := []
  deriving DecidableEq, Repr

/-- Linearisation. -/
structure Linear where
  /-- Live DPD banks, 64 × 16 × 48 coefficients, key path × 16 + class; 09 R217; reset zero until boot (R220). -/
  live : Tbl Bank := []
  /-- Shadow DPD banks; 09 R217; reset zero until boot (R220). -/
  shadow : Tbl Bank := []
  /-- Banks written for the armed epoch (target 1); 09 R221; reset none. -/
  armedBanks : Tbl (Option Bank) := []
  /-- Pending bank commits; 09 R219; reset none. -/
  commits : List BankCommit := []
  /-- Adaptation pairs; 09 R227; reset off. -/
  adapt : Tbl Adapt := []
  /-- Host capture plan, at most 64 entries; 09 R225; reset empty. -/
  plan : List PlanEntry := []
  /-- Previous plan, whose started captures complete; the new plan governs from this air time; 09 R225; reset 0. -/
  planFrom : Instant := 0
  /-- Occurrences taken of each plan entry, 32 bits; 09 Table 9-6; reset 0. -/
  taken : Tbl Nat := []
  /-- Captures in progress; 09 R223; reset none. -/
  caps : List Capturing := []
  /-- Capture memory, 4 MiB; 09 R223, 02 Table 2-19; reset DESIGN CHOICE 0 (log 3). -/
  capMem : Tbl Byte := []
  /-- Selector input and attenuation of ORx [0..7], packed selector × 32 + attenuation; 11 R261; reset 0. -/
  orx : Tbl Nat := []
  deriving DecidableEq, Repr

/-- Registers of one Trestle context (Table 10-2). -/
structure TRegs where
  /-- D0–D15, 32 bits; reset DESIGN CHOICE 0 (log 3); a run's start loads them (R251). -/
  d : Tbl Word := []
  /-- A0–A7, two 40-bit components; 10 Table 10-2; reset DESIGN CHOICE 0 (log 3). -/
  a : Tbl IQ := []
  /-- P0–P7, 32 bits; 10 Table 10-2; reset DESIGN CHOICE 0 (log 3). -/
  p : Tbl Word := []
  /-- BE, 4 bits; reset DESIGN CHOICE 0 (log 3), 15 at a run's start. -/
  be : Nat := 0
  /-- FLAGS Z, N, C, V, SAT, POISON, IN_RPT; 10 Table 10-3; reset 0. -/
  z : Bool := false
  n : Bool := false
  c : Bool := false
  v : Bool := false
  sat : Bool := false
  poison : Bool := false
  inRpt : Bool := false
  /-- FLAGS.ACC_OVF, 8 bits; 10 Table 10-3; reset 0. -/
  ovf : BitVec 8 := 0
  /-- PC, 16 bits; 10 Table 10-2; reset DESIGN CHOICE 0 (log 3). -/
  pc : Nat := 0
  /-- CYC, 32 bits; 10 Table 10-2; reset DESIGN CHOICE 0 (log 3). -/
  cyc : Nat := 0
  /-- LC, LS, LE of the four levels, 16 bits each; 10 Table 10-2; reset DESIGN CHOICE 0 (log 3). -/
  lc : Tbl Nat := []
  ls : Tbl Nat := []
  le : Tbl Nat := []
  /-- Block repeats open, 0 to 4; 10 R243; reset 0. -/
  depth : Nat := 0
  /-- Return stack, 8 entries of 16 bits (4 for a customer kernel); 10 Table 10-2; reset DESIGN CHOICE empty (log 3). -/
  stack : List Nat := []
  /-- Count of an RPT whose repeated instruction comes next; 10 R242; reset none. -/
  rpt : Option Nat := none
  deriving DecidableEq, Repr

/-- A loaded customer kernel image (Table 10-8). -/
structure TImage where
  kernelId : Nat := 0
  version : Nat := 0
  code : List Byte := []
  data : List Byte := []
  entry : Nat := 0
  budget : Nat := 0
  deriving DecidableEq, Repr

/-- One customer slot of a core (Table 10-11). -/
structure TSlot where
  /-- 0 empty, 1 loaded, 2 queued, 3 running, 4 done, 5 trapped, 6 aborted; 10 Table 10-11; reset 0 (R252). -/
  state : Nat := 0
  cause : Nat := 0
  image : TImage := {}
  run : Nat := 0
  budget : Nat := 0
  cycles : Nat := 0
  trapPc : Nat := 0
  poisoned : Bool := false
  ovf : BitVec 8 := 0
  sat : Bool := false
  result : List Byte := []
  abortHeld : Bool := false
  deriving DecidableEq, Repr

/-- One Trestle core (R232 to R247). -/
structure Core where
  /-- Context the core executes: 0 or 1 a customer slot, 2 vendor; reset DESIGN CHOICE vendor (log 3). -/
  cur : Nat := 2
  /-- Registers of the three contexts; only `cur`'s are in the core, the others are saved; 10 R246; reset as the fields say. -/
  regs : Tbl TRegs := []
  /-- Data memory, 256 KiB; 10 Table 10-1; reset DESIGN CHOICE 0 (log 3). -/
  dmem : Tbl Byte := []
  /-- Instruction memory, 64 KiB; 10 Table 10-1; reset DESIGN CHOICE 0 (log 3). -/
  imem : Tbl Byte := []
  /-- Quantum number since core reset; 10 R245; reset 0. -/
  quantum : Nat := 0
  /-- Cycles of the present quantum; 10 R245; reset 0. -/
  qcyc : Nat := 0
  /-- Slot that takes the next contested customer quantum; 10 R245; reset 0. -/
  turn : Nat := 0
  /-- How the last vendor run ended, where its solution is not to be used: trapped or not, and its overflowed accumulators; 10 R239, R244;
  reset none. -/
  vendorEnd : Option (Bool × BitVec 8) := none
  /-- The two slots; 10 R249; reset empty (R252). -/
  slot : Tbl TSlot := []
  deriving DecidableEq, Repr

/-- One synthesiser (Table 11-11), LO-T[q] at 2q and LO-R[q] at 2q + 1. -/
structure Lo where
  /-- 0 off, 1 retuning, 2 qualified, 3 unlocked; 11 Table 11-11; reset 0. -/
  state : Nat := 0
  divider : Nat := 0
  n : Nat := 0
  f : Nat := 0
  /-- Raw value at which the retune or unlock began; 11 R268, R269; reset 0, of no effect while it is off. -/
  since : Nat := 0
  /-- Unlocked because a retune did not qualify; 11 R268; reset 0. -/
  late : Bool := false
  /-- Retuning by a commit, with 150 µs to qualify, not started with a mode; 11 R268; reset 0. -/
  retune : Bool := false
  /-- The 2 ms of a relock have passed; 11 R269; reset 0. -/
  expired : Bool := false
  /-- VCO band chosen at the last start; 13 R325; reset 0. -/
  band : Nat := 0
  deriving DecidableEq, Repr

/-- RF and front-end control. -/
structure Rf where
  /-- The eight synthesisers; 11 R263; reset off. -/
  lo : Tbl Lo := []
  /-- FE_GPIO[0..31] pattern levels, key pin; 11 R271; reset DESIGN CHOICE 0 (log 3). -/
  gpio : Tbl Bool := []
  /-- Level of each FE_GPIO pin as its last edge left it, and raw value of its last rising edge; 12 R296 (source 4); reset low (19 R421)
  and 0. -/
  level : Tbl Bool := []
  rise : Tbl Nat := []
  /-- Role 2 pins forced by a clear or an overcurrent until their channels are released, 32 bits; 11 R272; reset 0. -/
  forced : BitVec 32 := 0
  /-- Paths with a confirmed overcurrent that the host has not released, 64 bits; 12 R303; reset 0. -/
  ocPaths : BitVec 64 := 0
  /-- Levels at which held FE_GPIO pins were latched, key pin; 14 R349; reset 0, none held. -/
  padLatch : Tbl Bool := []
  /-- TX enable pattern level; 11 R271; reset 0. -/
  txEnable : Bool := false
  /-- RX enable; 11 R271; reset 0. -/
  rxEnable : Bool := false
  /-- The pattern is running; 11 R271; reset 0. -/
  running : Bool := false
  /-- Applied attenuation of TX paths [0..63], 0.25 dB; 11 R258; reset 40, section 0x0C's reset value. -/
  atten : Tbl Nat := []
  /-- BRING-UP back-off in force; 19 R427; reset 0. -/
  backoff : Bool := false
  /-- RFFE buses whose commit program is still to run; 11 R276; reset none. -/
  rffe : List Nat := []
  /-- Buses whose entries and trigger are skipped, their domain having been off at arming; 11 R278; reset 0. -/
  rffeSkip : BitVec 4 := 0
  /-- Paths whose service resumes at the next class-carrier symbol after an LO requalified (tile mask); 11 R268; reset 0. -/
  resume : BitVec 4 := 0
  /-- Bridge parity failures of each tile and direction, 32 bits, key tile × 2 + direction (1 UL); 01 R16; reset 0. -/
  parity : Tbl Nat := []
  /-- TX and RX treated as under an LO retune by the FRC bridge; 13 R312; reset 0. -/
  bridge : Bool := false
  /-- Raw value at which the bridge began; 13 R312; reset 0. -/
  bridgeSince : Nat := 0
  deriving DecidableEq, Repr

/-- One bias channel (R282 to R291). -/
structure Chan where
  /-- 0 parked, 1 releasing, 2 driven, 3 slewing, 4 span change, 5 clearing; 12 R293; reset 0. -/
  state : Nat := 0
  /-- Span 0 to 3; 12 R283; reset S0 with no record (R285). -/
  span : Nat := 0
  /-- Clear codes of the four spans, 14 bits; 12 Table 12-3; reset 0 (R285). -/
  clear : List Nat := [0, 0, 0, 0]
  /-- Clear-mask bit; 12 Table 12-3; reset 1 for c ≤ 63, DESIGN CHOICE 0 above (log 3). -/
  mask : Bool := false
  /-- Slew limit r, 0.01 V/ms; 12 R286; reset 1 (R285). -/
  slew : Nat := 1
  /-- Target code, 14 bits; 12 R286; reset the clear code. -/
  target : Nat := 0
  /-- Position, 14 integer and 16 fractional bits; 12 R286; reset the clear code. -/
  pos : Nat := 0
  /-- Code at the pin, which the track-and-hold may keep at a former value, 14 bits; 12 R287; reset 0. -/
  pin : Nat := 0
  /-- Time left of a deglitch hold, in 50 ns; 12 R287; reset 0. -/
  hold : Nat := 0
  /-- Updates (100 ns) left of the present phase of a release, span change or park; 12 R288, R291; reset 0. -/
  timer : Nat := 0
  /-- Phase of a span change, 0 none, 1 slewing to the clear code, 2 parking, 3 switching, 4 reconnecting; 12 R291; reset 0. -/
  phase : Nat := 0
  /-- Span and target a span change leads to; 12 R291; reset 0. -/
  nextSpan : Nat := 0
  nextTarget : Nat := 0
  /-- A release waits for the clear to end; 12 R288; reset 0. -/
  releaseAfter : Bool := false
  deriving DecidableEq, Repr

/-- Bias generation. -/
structure Bias where
  /-- The 80 channels; 12 R282; reset as the fields of a channel say. -/
  chan : Tbl Chan := []
  /-- A valid bias defaults record is in force; 12 R285; reset 0. -/
  valid : Bool := false
  /-- BIAS_PSEL[7:0] as sampled at reset's end; 12 R284; reset DESIGN CHOICE 0 (log 3). -/
  straps : BitVec 8 := 0
  /-- PA_CLEAR_N is low; 12 R289; reset DESIGN CHOICE high (log 3). -/
  paClearLow : Bool := false
  /-- Each `bias.release` whose answer waits for its channels; 12 Table 12-4; reset none. -/
  release : List (Asker × List Nat) := []
  deriving DecidableEq, Repr

/-- One HK slot (Table 12-10). -/
structure HkSlot where
  source : Nat := 0
  converter : Nat := 0
  channel : Nat := 0
  sub : Nat := 0
  gain : Nat := 0
  mode : Nat := 0
  avg : Nat := 0
  delay : Nat := 0
  param : Nat := 0
  limit : Nat := 0
  deriving DecidableEq, Repr

/-- One HK result (Table 12-11). -/
structure HkResult where
  value : Nat := 0
  valid : Bool := false
  count : Nat := 0
  time : Instant := 0
  deriving DecidableEq, Repr

/-- A conversion that a new configuration left running: its slot, channel, sub-select and gain, and whether it is invalid (R295). -/
structure Orphan where
  slot : Nat
  channel : Nat
  sub : Nat
  gain : Nat
  invalid : Bool
  deriving DecidableEq, Repr

/-- One HK converter (R294, R297, R298). `queue` holds queueing instants and slots in the order of R297; `since` is when the start-up or the
last conversion ended. -/
structure Conv where
  powered : Bool := false
  since : Instant := 0
  prev : Option (Nat × Nat × Nat) := none
  queue : List (Instant × Nat) := []
  running : Option Nat := none
  orphan : Option Orphan := none
  sum : Nat := 0
  taken : Nat := 0
  spoiled : Bool := false
  invalidLeft : Nat := 0
  deriving DecidableEq, Repr

/-- One window comparator (R302). -/
structure Window where
  enable : Bool := false
  slot : Nat := 0
  low : Nat := 0
  high : Nat := 0
  armed : Bool := true
  deriving DecidableEq, Repr

/-- Housekeeping conversion. -/
structure Hk where
  /-- Overcurrent enable mask, 64 bits; 12 R295; reset 0. -/
  ocMask : BitVec 64 := 0
  /-- Overcurrent limits, 14 bits; 12 R295; reset DESIGN CHOICE 16383 (log 3). -/
  limit : Tbl Nat := []
  /-- Slots [0..63]; 12 R295; reset disabled. -/
  slot : Tbl HkSlot := []
  /-- Slots whose trigger delay is running, and when each joins its queue; 12 R296; reset none. -/
  delayed : List (Nat × Instant) := []
  /-- When `hk.configure` last executed, from which periods count; 12 R296; reset 0. -/
  since : Instant := 0
  /-- Pulse that last triggered each slot of source 4, as its rise + 1; 12 R296; reset none. -/
  pulse : Tbl Nat := []
  /-- Results; 12 R301; reset 0. -/
  result : Tbl HkResult := []
  /-- First result of these slots is invalid because N changed; 12 R298; reset none. -/
  fresh : List Nat := []
  /-- The two converters; 12 R294; reset powered down and idle. -/
  conv : Tbl Conv := []
  /-- The 32 window comparators; 12 R302; reset disabled and armed. -/
  window : Tbl Window := []
  deriving DecidableEq, Repr

/-- A target part of `pwr.request` (Table 14-8). -/
structure PwrReq where
  target : Mode := .standby
  releasePads : Bool := false
  wakeTarget : Mode := .standby
  sources : Nat := 0
  timer : Nat := 0
  sense : List (Nat × Bool) := []
  energy : Int := 0
  window : Nat := 0
  energyMask : Nat := 0
  deriving DecidableEq, Repr

/-- A transition in flight (R337, R341). `cause` and `source` are those of EV_MODE_CHANGE (Table 14-10). -/
structure Trans where
  origin : Mode
  target : Mode
  start : Nat
  cause : Nat
  source : Nat
  req : PwrReq
  raised : BitVec 8
  powered : BitVec 20
  deriving DecidableEq, Repr

/-- One refusal record (Table 2-15). -/
structure RefRec where
  name : List Byte := zeros 8
  target : Nat := 0
  reason : Nat := 0
  number : Nat := 0
  timeMs : Nat := 0
  deriving DecidableEq, Repr

/-- A regulator of the power map (Table 14-6). -/
structure Reg where
  mask : Nat
  timeout : Nat
  keep : Bool
  deriving DecidableEq, Repr

/-- Modes, domains, regulators and wake (chapter 14). -/
structure Power where
  /-- SYS_STATE.MODE; 02 Table 2-10; reset 0x1 BOOT. -/
  mode : Mode := .boot
  /-- Domains powered, 20 bits; 14 Table 14-9; reset the BOOT row: AO, CTRL, NVM, TIMING, HK. -/
  on : BitVec 20 := 0x417
  /-- Domains ready, 20 bits; 14 Table 14-9; reset as powered. -/
  ready : BitVec 20 := 0x417
  /-- Transition in flight; 14 R341; reset none. -/
  trans : Option Trans := none
  /-- Queued request; 14 R341; reset none. -/
  queued : Option PwrReq := none
  /-- PWR_EN[7:0]; 14 R344; reset regulator 0 raised (R420). -/
  en : BitVec 8 := 1
  /-- PG[7:0] good; 14 R344; reset PG[0] good, BOOT having been entered (R422). -/
  pg : BitVec 8 := 1
  /-- Power map in force; 14 R344; reset none. -/
  map : Option (List Reg) := none
  /-- Domains held off by a lost power-good, 20 bits; 14 R345; reset 0. -/
  heldOff : BitVec 20 := 0
  /-- Raw value of M of the present mode; 14 Table 14-9; reset 0. -/
  since : Nat := 0
  /-- Service start S: boundary and instant; 14 R342; reset none. -/
  service : Option (Boundary × Instant) := none
  /-- Service runs; 14 R342; reset 0. -/
  serving : Bool := false
  /-- Service ends at this corrected time; 14 R342; reset none. -/
  endAt : Option Instant := none
  /-- SAFE-HOLD cause; 14 Table 14-5; reset 0. -/
  cause : Nat := 0
  /-- Regulator of SAFE-HOLD cause 8; 14 Table 14-10; reset 0. -/
  causeReg : Nat := 0
  /-- Further causes counted during SAFE-HOLD; 14 R343; reset 0. -/
  further : Nat := 0
  /-- Wake target of the last entry into LISTEN or DEEP-SLEEP; 14 Table 14-9; reset 0. -/
  wakeTarget : Nat := 0
  /-- Consecutive failed wakes; 14 R348; reset 0. -/
  fails : Nat := 0
  /-- Last wake source; 14 Table 14-9; reset 0. -/
  lastSource : Nat := 0
  /-- Wake settings of the low-power mode, and its armed sources, 9 bits; 14 R346; reset none armed. -/
  wake : PwrReq := {}
  armed : BitVec 9 := 0
  /-- Level of each WAKE_SENSE input as last told, in µV; 14 R347; reset DESIGN CHOICE 0 (log 3). -/
  sense : Tbl Int := []
  /-- WAKE_SENSE comparators armed, 4 bits; 14 R347; reset 0. -/
  senseArmed : BitVec 4 := 0
  /-- A retry of the failed wake is due 10 ms after this raw value; 14 R348; reset none. -/
  retry : Option Nat := none
  /-- The present wake attempt is the retry; 14 R348; reset 0. -/
  retrying : Bool := false
  /-- Mode that CALIBRATE or SELF-TEST was entered from; 14 Table 14-3; reset STANDBY. -/
  from_ : Mode := .standby
  /-- Domains woken on demand and the raw value of the last access; 14 R336; reset none. -/
  demand : Tbl Nat := []
  /-- Aborted transactions, 32 bits; 14 R340; reset 0. -/
  aborted : Nat := 0
  /-- Refusal records, 32; 02 Table 2-15; reset 0. -/
  refs : Tbl RefRec := []
  /-- REF_COUNT[0..11], 32 bits saturating; 02 Table 2-15; reset 0. -/
  refCount : Tbl Nat := []
  /-- REF_NEWEST.INDEX, 5 bits; 02 Table 2-15; reset 0. -/
  refIndex : Nat := 0
  /-- REF_NEWEST.TOTAL, 16 bits wrapping; 02 Table 2-15; reset 0. -/
  refTotal : Nat := 0
  deriving DecidableEq, Repr

/-- Defaults of `thermal.configure` (Table 15-4). -/
def thermalDefault : List Byte :=
  [7, 8, 0, 0] ++ leBytes 2 12 ++ leBytes 2 40 ++ leBytes 2 120 ++ zeros 6
    ++ (List.replicate 5 (leBytes 2 400 ++ leBytes 2 420 ++ zeros 4)).flatten ++ zeros 8

/-- One thermal sensor (R356 to R360). -/
structure Sensor where
  /-- TH_TS.TEMP, 0.25 °C units; 02 Table 2-18; reset 0. -/
  temp : Int := 0
  /-- TH_TS.VALID; 02 Table 2-18; reset 0. -/
  valid : Bool := false
  /-- A measurement counts since this raw value, with the arming a scheduled demand gives its result (0 for a host demand);
  15 R358; reset none. -/
  counting : Option (Nat × Nat) := none
  hot : Nat := 0
  upW : Nat := 0
  downW : Nat := 0
  tripW : Bool := false
  upD : Nat := 0
  downD : Nat := 0
  tripD : Bool := false
  /-- Last scheduled valid results, newest first, at most 4; 15 R359; reset none. -/
  last : List Int := []
  /-- Filtered values f (1/16 °C) with the raw value of their result; 15 R359; reset none. -/
  hist : List (Nat × Int) := []
  deriving DecidableEq, Repr

/-- The latch record (Table 15-5). -/
structure LatchRec where
  sensor : Nat := 255
  modeLeft : Nat := 0
  result : Int := 0
  time : Instant := 0
  deriving DecidableEq, Repr

/-- The last armed rate trip (Table 15-5). -/
structure RateTrip where
  sensor : Nat := 255
  window : Nat := 0
  rise : Int := 0
  time : Instant := 0
  deriving DecidableEq, Repr

/-- Thermal sensing and protection. -/
structure Thermal where
  sensor : Tbl Sensor := []
  /-- `thermal.configure` settings, 64 bytes; 15 R364; reset Table 15-4. -/
  cfg : List Byte := thermalDefault
  /-- The settings that the last scheduled result was judged by; a write takes effect from the next one; 15 R364; reset Table 15-4. -/
  acting : List Byte := thermalDefault
  /-- TH_STATE.RATE_TRIP; 02 Table 2-18; reset 0. -/
  rateTrip : Bool := false
  /-- AO latch, TH_STATE.LATCH; 15 R363; reset 0. -/
  latch : Bool := false
  latchRec : LatchRec := {}
  lastTrip : RateTrip := {}
  /-- Sensor faults since power-on, 32 bits saturating; 15 Table 15-5; reset 0. -/
  faults : Nat := 0
  /-- Rate trips since power-on, 32 bits saturating; 15 Table 15-5; reset 0. -/
  trips : Nat := 0
  /-- Latches decided while in THERMAL-LATCH; 15 R362; reset 0. -/
  latches : Nat := 0
  /-- Raw value of the last scheduled demand, and the period in µs until the next; 15 R358; reset 0 and that of RESET (Table 15-2). -/
  demandAt : Nat := 0
  period : Nat := 1000
  deriving DecidableEq, Repr

/-- One record copy in MRAM (R369). `data` is the payload, `chkSeq` the check word's sequence, `crcOk` whether its CRC
verifies and no word reads with a double-bit error. -/
structure NvmCopy where
  id : Nat := 0
  version : Nat := 0
  seq : Nat := 0
  length : Nat := 0
  data : List Byte := []
  chkSeq : Nat := 0
  crcOk : Bool := false
  deriving DecidableEq, Repr

/-- A factory record as shipped (R2), its payload `n` bytes the manual does not state (log 17). -/
def factoryCopy (id n : Nat) : Nat × NvmCopy :=
  (2 * id, { id := id, version := 1, seq := 1, length := n, data := (Config.factoryRecord id ++ zeros n).take n,
             chkSeq := 1, crcOk := true })

/-- The records 0x0101 to 0x0104 as shipped: lengths of Table 16-2 where it gives them, else the slot filled (log 17). -/
def factoryCopies : Tbl NvmCopy :=
  [factoryCopy 0x0101 131048, factoryCopy 0x0102 256, factoryCopy 0x0103 4072, factoryCopy 0x0104 49152]

/-- A record write in progress or waiting (R370): record, copy, sequence, payload, words written. -/
structure NvmJob where
  id : Nat
  copy : Nat
  seq : Nat
  data : List Byte
  words : Nat
  asker : Option Asker
  retried : Bool := false
  deriving DecidableEq, Repr

/-- Non-volatile storage. -/
structure Nvm where
  /-- Record copies, key record ID × 2 + copy; 16 R368; reset what the device ships with (00 R2): the factory records. -/
  copy : Tbl NvmCopy := factoryCopies
  /-- Write counts of record copies, same key; 16 R372; reset DESIGN CHOICE 0 (log 3). -/
  writes : Tbl Nat := []
  /-- Record writes, the one in progress first; 16 R370; reset none. -/
  jobs : List NvmJob := []
  /-- Writes of records of long operations (persists) that have ended before the operation: record and status, 0, LEASE_REVOKED or INTEGRITY;
  16 R370, 17 R392; reset none. -/
  ended : List (Nat × Nat) := []
  /-- Paths whose accepted result record 0x0201 holds, by type, bit p; device bookkeeping in the reserve region; 16 R367, R375;
  reset DESIGN CHOICE none (log 3). -/
  paths : Tbl Nat := []
  /-- Single-bit corrections and double-bit errors, 32 bits; 16 R380; reset 0. -/
  sec : Nat := 0
  ded : Nat := 0
  /-- Log ring, 4,096 entries of 64 bytes, key k mod 4096; 16 R381; reset DESIGN CHOICE empty (log 3). -/
  log : Tbl (List Byte) := []
  /-- Next log sequence; 16 R381; reset DESIGN CHOICE 0 (log 3). -/
  logNext : Nat := 0
  /-- Log entries not written since the last one; 16 R381; reset 0. -/
  dropped : Nat := 0
  /-- Raw second and entries written in it, for the limit of 16; 16 R381; reset 0. -/
  logSecond : Nat := 0
  logCount : Nat := 0
  /-- Firmware patch region, 1 MiB; 19 R425; reset empty. -/
  patch : Tbl Byte := []
  /-- The region holds a committed patch; 19 R425; reset 0. -/
  patchValid : Bool := false
  /-- The next write empties the region first; 19 R425; reset 1. -/
  patchFresh : Bool := true
  /-- Operation of the running `sys.fw_image`: operation, offset, data; 19 R425; reset none. -/
  fwOp : Option (Nat × Nat × List Byte) := none
  deriving DecidableEq, Repr

/-- One calibration status entry (Table 16-7). -/
structure CalStatus where
  last : Nat := 0
  attempts : Nat := 0
  flags : Nat := 0
  accepted : Nat := 0
  time : Instant := 0
  temp : Int := 0
  worst : Nat := 0
  deriving DecidableEq, Repr

/-- A running `cal.run` (R376): its masks, the types not yet finished in the order of Table 16-4, the paths rejected so far, and the type
finished last. -/
structure CalRun where
  mask : Nat
  tx : Nat
  rx : Nat
  left : List Nat
  rejected : Nat := 0
  typ : Nat := 0
  deriving DecidableEq, Repr

/-- Calibration. -/
structure Cal where
  /-- Status of types 1 to 11; 16 R377; reset never run. -/
  status : Tbl CalStatus := []
  /-- Accepted results, by type; 16 R375; reset none. -/
  data : Tbl (List Byte) := []
  /-- Paths with an accepted result, by type, bit p; 16 R375; reset none. -/
  paths : Tbl Nat := []
  /-- The running `cal.run`; 16 R376; reset none. -/
  run : Option CalRun := none
  deriving DecidableEq, Repr

/-- One lease (Tables 2-17, 17-3). Holder codes of Table 2-17, 0 none. `free` is the raw value at which a release that `ROCKER_LEASE` stretches
takes effect (R396). -/
structure Lease where
  holder : Nat := 0
  granted : Nat := 0
  revokes : Nat := 0
  wait : List Nat := []
  free : Option Nat := none
  deriving DecidableEq, Repr

/-- Leases and the watchdog. -/
structure Leases where
  /-- Entries [0..23]; 17 R391; reset free. -/
  entry : Tbl Lease := []
  /-- Last 8 revocations: entry, holder, cause; 17 R392; reset none. -/
  revoked : List (Nat × Nat × Nat) := []
  /-- SRAM single- and double-bit error counts of the eight memories; 01 R26; reset 0. -/
  sec : Tbl Nat := []
  ded : Tbl Nat := []
  /-- Words of the Cabinet, dynamic weight memory, capture memory, Trestle local memory, Bureau memory, MRAM and the DPD banks that hold an
  error and have been neither corrected nor rewritten; 01 R26; reset none. -/
  bad : List ScrubHit := []
  deriving DecidableEq, Repr

/-- Rocker registers and the digest (Table 2-16, R390). -/
structure Rocker where
  /-- Words ROCKER_CTRL to ROCKER_SEED, key word; 02 Table 2-16; reset 0. -/
  reg : Tbl Nat := []
  /-- LFSR, 32 bits; 17 R396; reset 0. -/
  lfsr : Nat := 0
  /-- Digest: 0 idle, 1 armed, 2 running, 3 done, 4 aborted; 17 R398; reset 0. -/
  digest : Nat := 0
  start : Nat := 0
  frames : Nat := 0
  /-- CRC registers of TX paths [0..63] and of ports [0..7] at 64 + n, 32 bits; 17 R390; reset 0. -/
  crc : Tbl Nat := []
  /-- Air-time tick of each TX path whose word enters the DL digest next; 17 R390; reset 0. -/
  next : Tbl Int := []
  deriving DecidableEq, Repr

/-- Self-test (R415, R416). -/
structure Test where
  /-- The running request's 40-byte head and slices; 18 R415; reset none. -/
  run : Option (List Byte) := none
  /-- Raw value at the start of the run; 18 R417; reset 0. -/
  start : Nat := 0
  /-- Result block, 1,084 bytes; 18 R416; reset 0. -/
  block : List Byte := []
  deriving DecidableEq, Repr

/-- One customer key slot (R406). -/
structure KeySlot where
  /-- Cells of 96 key bytes and their 4-byte CRC; 18 R406; ships unprogrammed (R2), which no list stands for. -/
  cells : List Byte := []
  deriving DecidableEq, Repr

/-- Lifecycle cells and the JTAG registers (chapter 18). Cells are one-time-programmable. -/
structure Life where
  /-- The two cells of each stage bit, of bit k cells 2k and 2k + 1; 18 R402; ships MANUFACTURE 0b00001 (R2). -/
  cells : BitVec 10 := 3
  /-- Debug-enable and debug-disable cells; 18 R402; reset stored, DESIGN CHOICE unprogrammed (log 3). -/
  debugEnable : Bool := false
  debugDisable : Bool := false
  /-- Customer key slots 0 and 1; 18 R406; ships with no key (R2). -/
  key0 : KeySlot := {}
  key1 : KeySlot := {}
  /-- Revocation cells of Omquel keys [0..3]; 18 R408; reset DESIGN CHOICE none revoked (log 3). -/
  revoked : BitVec 4 := 0
  /-- Security-version counter, 0 to 64; 18 R408; reset DESIGN CHOICE 0 (log 3). -/
  secver : Nat := 0
  /-- A raise of the security-version counter that this boot has begun: the count before it and the raw value; 18 R408; reset none. -/
  raising : Option (Nat × Nat) := none
  /-- Instruction register of the TAP, 8 bits; 18 R404; reset DESIGN CHOICE 0 (log 3). -/
  ir : Nat := 0
  /-- LC_CMD data register, 1,792 bits; 18 R404; reset DESIGN CHOICE 0 (log 3). -/
  lcCmd : List Byte := []
  /-- LC_STAT result; 18 Table 18-4; reset 0. -/
  result : Nat := 0
  /-- Index of the nonce in force; 18 R405; reset 0, its bytes `Config.nonce` (log 2). -/
  nonce : Nat := 0
  /-- The stage has changed and its zeroing (R407) has not completed; 18 R407; reset 0. -/
  zero : Bool := false
  /-- EV_LIFECYCLE_CHANGE due after the next `sys.ready`: stage left, stage entered, command; 18 R404; reset none. -/
  event : Option (Nat × Nat × Nat) := none
  deriving DecidableEq, Repr

/-- The xSPI pins (R421 to R423): before the boot ROM's access, in its 1S-1S-1S or 8D-8D-8D mode, or released to the board. -/
inductive Xspi where
  | untouched
  | serial
  | octal
  | released
  deriving DecidableEq, Repr

/-- Reset and boot (chapter 19). -/
structure Boot where
  /-- Held in reset: RESET_N low or supplies not good; 19 R420; reset released. -/
  inReset : Bool := false
  /-- Raw value at the release of reset, t0; 19 R420; reset 0. -/
  t0 : Nat := 0
  /-- A supply of the AO domain is not good, or not yet for 200 µs; 19 R420; reset good. -/
  supplyBad : Bool := false
  /-- RESET_N is low; 19 R420; reset high. -/
  resetLow : Bool := false
  /-- xSPI pins; 19 R421; reset untouched. -/
  xspi : Xspi := .untouched
  /-- The boot ROM has run and stopped or started Aethiq; 19 R422; reset not run. -/
  romDone : Bool := false
  /-- Aethiq has been started; 19 R422; reset not started. -/
  started : Bool := false
  /-- Header of the image that runs; 19 R426; reset none. -/
  image : Option FwHeader := none
  /-- EV_SIG_FAIL to raise after `sys.ready`: key index, security version, firmware version; 19 R423; reset none. -/
  sigFail : Option (Nat × Nat × Nat) := none
  /-- A patch was applied at boot; 19 R422; reset no. -/
  patched : Bool := false
  /-- The first `sys.ready` of this boot has been posted; 19 R426; reset no. -/
  booted : Bool := false
  deriving DecidableEq, Repr

/-- What left the device on an output that the model does not hold as a level: MSI-X vectors, SPI answers, PCIe read data
(none: Completer Abort), unsupported requests, DMA reads and writes of message slots at their addresses, the sample words of a path from an
air-time tick on, Ethernet frames, RFFE writes, 1PPS_OUT pulses and the pulse on XSPI_RESET_N. The model's own record (log 5). -/
inductive Out where
  | msix (vector : Nat)
  | spi (answer : List Byte)
  | pcie (data : Option (List Byte))
  | unsupported
  | dmaRead (address length : Nat)
  | dmaWrite (address : Nat) (bytes : List Byte)
  | dac (path : Nat) (tick : Int) (words : List Word)
  | egress (port flow : Nat) (bytes : List Byte)
  | rffe (bus : Nat) (usid command address data : Nat)
  | pps
  | xspiReset
  deriving DecidableEq, Repr

/-- The machine's state. -/
structure State where
  ph : Pigeon := {}
  ev : Events := {}
  sys : SysRegs := {}
  em : Emerg := {}
  tm : Time := {}
  clk : Clocks := {}
  cfg : Config := {}
  fh : Fronthaul := {}
  dl : Downlink := {}
  ul : Uplink := {}
  bf : Beam := {}
  lin : Linear := {}
  /-- Trestle cores [0..7]; 10 R232; reset as the fields of a core say. -/
  core : Tbl Core := []
  rf : Rf := {}
  bias : Bias := {}
  hk : Hk := {}
  pwr : Power := {}
  th : Thermal := {}
  nvm : Nvm := {}
  cal : Cal := {}
  ls : Leases := {}
  rk : Rocker := {}
  test : Test := {}
  life : Life := {}
  boot : Boot := {}
  /-- Statistics records of `log.read` sources 0x10 to 0x1D, 32-bit saturating words, key (source × 1024 + record) × 16 + word;
  06 R154, 07 R180, 08 R203, 09 R230, 11 R280, 12 R304; reset 0, smallest margin 0xFFFF_FFFF. -/
  stat : Tbl Nat := []
  /-- Signals that have left the device (the model's own record, log 5); reset empty. -/
  out : List Out := []
  /-- The model's own counter of free values (log 7); reset DESIGN CHOICE 0, and nothing rests on it. -/
  fresh : Nat := 0
  /-- Commands waiting, first in first out; reset empty. -/
  pending : List Instr := []
  deriving DecidableEq, Repr

/-- The machine right after reset: BOOT entered, the boot ROM not yet run (Table 2-10: MODE 0x1, READY 0). -/
def State.reset : State := {}

/-- Reasons a step stops with a fault. -/
inductive Fault where
  /-- Never raised: the manual gives the device no state in which it stops for good (17 R395). Safe. -/
  | none
  deriving DecidableEq, Repr

/-- Reasons a command has no meaning. -/
inductive Refusal where
  /-- Raised by exec's arm of a row that has no meaning yet. Safe. -/
  | notModelled (mnemonic : String)
  deriving DecidableEq, Repr

end Sys2Proof.Machine
end

