-- ==== Sys2Proof/Machine/Ops.lean ====
section
/-! DEFINITION. Operations every family shares: sparse tables, bits and bytes, CRC-32C, rounding, and time. -/

namespace Sys2Proof.Machine

/-! ### Tables -/

/-- Read a table: an unlisted index reads as `d`. -/
def tget {α : Type} (d : α) : Tbl α → Nat → α
  | [], _ => d
  | (k', v) :: t, k => if k' = k then v else tget d t k

/-- A table without index `k`. -/
def tdrop {α : Type} : Tbl α → Nat → Tbl α
  | [], _ => []
  | (k', w) :: t, k => if k' = k then tdrop t k else (k', w) :: tdrop t k

/-- Insert an entry before the first greater index. -/
def tput {α : Type} (k : Nat) (v : α) : Tbl α → Tbl α
  | [] => [(k, v)]
  | (k', w) :: t => if k < k' then (k, v) :: (k', w) :: t else (k', w) :: tput k v t

/-- Write a table, keeping its keys rising and listing no entry equal to the default. -/
def tset {α : Type} [DecidableEq α] (d : α) (t : Tbl α) (k : Nat) (v : α) : Tbl α :=
  if v = d then tdrop t k else tput k v (tdrop t k)

/-- Write consecutive indices from `k`. -/
def tsetList {α : Type} [DecidableEq α] (d : α) (t : Tbl α) (k : Nat) : List α → Tbl α
  | [] => t
  | v :: vs => tsetList d (tset d t k v) (k + 1) vs

/-- Read `n` consecutive indices from `k`. -/
def tgetList {α : Type} (d : α) (t : Tbl α) (k : Nat) : Nat → List α
  | 0 => []
  | n + 1 => tget d t k :: tgetList d t (k + 1) n

/-- The indices listed below `hi` and at or above `lo` are dropped: the range returns to its default. -/
def tclear {α : Type} (t : Tbl α) (lo hi : Nat) : Tbl α :=
  t.filter fun e => !(decide (lo ≤ e.1) && decide (e.1 < hi))

/-- Canonical form of a table whose unlisted indices read as `d`: keys strictly rising, no entry equal to `d`. -/
def Tbl.wf {α : Type} [DecidableEq α] (d : α) : Tbl α → Bool
  | [] => true
  | [(_, v)] => decide (v ≠ d)
  | (k, v) :: (k', w) :: t => decide (v ≠ d) && decide (k < k') && Tbl.wf d ((k', w) :: t)

/-! ### Bits and bytes -/

/-- Bits [lo + w − 1 : lo] of a number. -/
def bits (v lo w : Nat) : Nat := v / 2 ^ lo % 2 ^ w

/-- 0 or 1. -/
def b2n (b : Bool) : Nat := if b then 1 else 0

/-- A count that stops at `top`. -/
def satAdd (top a b : Nat) : Nat := Nat.min top (a + b)

/-- Two's complement reading of a `w`-bit number. -/
def signed (w v : Nat) : Int := if v % 2 ^ w < 2 ^ (w - 1) then (v % 2 ^ w : Nat) else (v % 2 ^ w : Nat) - (2 ^ w : Nat)

/-- The `w`-bit two's complement pattern of an integer. -/
def wrapN (w : Nat) (v : Int) : Nat := (v % (2 ^ w : Nat)).toNat

/-- An integer held between bounds. -/
def clampI (lo hi v : Int) : Int := if v < lo then lo else if hi < v then hi else v

/-- `n` bytes from offset `o`. -/
def slice (p : List Byte) (o n : Nat) : List Byte := (p.drop o).take n

/-- Unsigned little-endian field. -/
def u (p : List Byte) (o n : Nat) : Nat := leNat (slice p o n)

/-- Signed little-endian field. -/
def i (p : List Byte) (o n : Nat) : Int := signed (8 * n) (u p o n)

/-- Bytes of a signed value. -/
def leI (n : Nat) (v : Int) : List Byte := leBytes n (wrapN (8 * n) v)

/-- A byte string cut or filled with zeros to length `n`. -/
def fitBytes (n : Nat) (p : List Byte) : List Byte := (p ++ zeros n).take n

/-- Bytes of a text constant. -/
def ascii (t : String) : List Byte := t.toList.map fun c => BitVec.ofNat 8 c.toNat

/-- Name of 8 characters, space-padded (R338). -/
def name8 (t : String) : List Byte := (ascii t ++ List.replicate 8 32).take 8

/-- Replace bytes of a string from offset `o`. -/
def patch (p : List Byte) (o : Nat) (b : List Byte) : List Byte := p.take o ++ b ++ p.drop (o + b.length)

/-- Round half to even of n / d (R317). -/
def rhe (n : Int) (d : Nat) : Int :=
  let q := n / (d : Int)
  let r2 := 2 * (n - q * d)
  if r2 < d then q else if r2 = d then (if q % 2 = 0 then q else q + 1) else q + 1

/-- Ceiling of n / d. -/
def ceilDiv (n : Int) (d : Nat) : Int := -((-n) / (d : Int))

/-! ### CRC-32C (R108) -/

/-- One bit of CRC-32C, reflected. -/
def crcBit (c : Nat) : Nat := if c % 2 = 1 then Nat.xor (c / 2) 0x82F63B78 else c / 2

/-- One byte of CRC-32C. -/
def crcByte (c : Nat) (b : Byte) : Nat :=
  crcBit (crcBit (crcBit (crcBit (crcBit (crcBit (crcBit (crcBit (Nat.xor c b.toNat))))))))

/-- CRC-32C register after bytes, before the final inversion. -/
def crcRun (c : Nat) (p : List Byte) : Nat := p.foldl crcByte c

/-- CRC-32C of a byte string. -/
def crc32c (p : List Byte) : Nat := Nat.xor (crcRun 0xFFFFFFFF p) 0xFFFFFFFF

/-! ### Time (R316, R317) -/

/-- Instants: one tick, microsecond, millisecond, second, frame, and 2^-16 ns in units u. -/
def tickU : Nat := 400000
def nsU : Nat := 589824
def usU : Nat := 589824000
def msU : Nat := 589824000000
def secU : Nat := 589824000000000
def frameU : Nat := 5898240000000
def quarterU : Nat := 147456000000

/-- Ticks in a microsecond are 1,474.56: the first raw span of at least `us` microseconds. -/
def usTicks (us : Nat) : Nat := (us * 147456 + 99) / 100

/-- Corrected time C at a raw value, in 2^-16 ns (R317). -/
def corrected (t : Time) (r : Nat) : Int :=
  t.offset + rhe ((r * 400000 : Nat) * ((2 ^ 48 : Nat) + t.rate)) (9 * 2 ^ 48)

/-- Corrected time now, in 2^-16 ns. -/
def nowC (s : State) : Int := corrected s.tm s.tm.raw

/-- The instant of a raw value, in units u: corrected time before the rounding of R317 to 2^-16 ns. Instants that lie on a tick
are met on that tick (DEDUCED, log 29). -/
def instantAt (t : Time) (r : Nat) : Instant := 9 * t.offset + rhe ((r * 400000 : Nat) * ((2 ^ 48 : Nat) + t.rate)) (2 ^ 48)

/-- The present instant. -/
def nowU (s : State) : Instant := instantAt s.tm s.tm.raw

/-- Corrected time of an instant, rounded to 2^-16 ns (R317), as an instant. -/
def roundC (t : Instant) : Instant := 9 * rhe t 9

/-- Seconds, nanoseconds and fraction of corrected time (R319). -/
def secOf (t : Instant) : Int := roundC t / secU
def nsOf (t : Instant) : Nat := (roundC t % secU / nsU).toNat
def fracOf (t : Instant) : Nat := (roundC t % nsU / 9).toNat

/-- Frame that holds an instant, and its quarter (R72). -/
def frameOf (t : Instant) : Int := t / frameU

/-- The raw values R316 can take from `r` on: every tick in fine mode, every sixth in coarse mode. -/
def rawStep (t : Time) : Nat := if t.fine then 1 else 6

/-- Move the raw counter forward by at least `n` ticks. -/
def advanceRaw (n : Nat) (s : State) : State :=
  let st := rawStep s.tm
  { s with tm := { s.tm with raw := (s.tm.raw + (n + st - 1) / st * st) % 2 ^ 80 } }

/-- Least raw value whose instant is at least `g`. -/
def rawReaching (t : Time) (g : Instant) : Nat :=
  let d := g - 9 * t.offset
  let a : Int := 400000 * ((2 ^ 48 : Nat) + t.rate)
  let q : Int := (2 * d - 1) * (2 ^ 48 : Nat)
  let den : Nat := (2 * a).toNat
  (if d % 2 = 0 then ceilDiv q den else q / den + 1).toNat

/-- The first raw value that R316 can take at or after `goal`; the present one where that is past. -/
def rawAfter (t : Time) (goal : Nat) : Nat :=
  if goal ≤ t.raw then t.raw else (t.raw + (goal - t.raw + rawStep t - 1) / rawStep t * rawStep t) % 2 ^ 80

/-- Wait until corrected time has reached instant `t`; nothing if it has (DESIGN CHOICE, log 6: an event row that occurs at
a scheduled instant brings time there). -/
def advanceTo (t : Instant) (s : State) : State :=
  { s with tm := { s.tm with raw := rawAfter s.tm (rawReaching s.tm t) } }

/-- Wait until `n` ticks have passed since raw value `from_`. -/
def advanceSince (from_ n : Nat) (s : State) : State :=
  { s with tm := { s.tm with raw := rawAfter s.tm (n + from_) } }

/-- Ticks since a raw value. -/
def ticksSince (r : Nat) (s : State) : Nat := s.tm.raw - r

/-- Microseconds since a raw value, saturating at 32 bits. -/
def usSince (r : Nat) (s : State) : Nat := Nat.min 0xFFFFFFFF (ticksSince r s * 100 / 147456)

/-- Milliseconds since a raw value, saturating at 32 bits. -/
def msSince (r : Nat) (s : State) : Nat := Nat.min 0xFFFFFFFF (ticksSince r s / 1474560)

/-- Take a fresh free value (log 7). -/
def takeFree (s : State) : Nat × State := (Config.freeValue s.fresh, { s with fresh := s.fresh + 1 })

end Sys2Proof.Machine
end

