-- ==== Sys2Proof/Machine/Flags.lean ====
section
/-! DEFINITION. Flags and what they drive: the events (R54 to R59) with their status bits, counters, routes, MSI-X and
`event.notify`; INT_N and ALERT_N; posting into rings (R34, R37, R50), which raises events of its own; and the flags of a
Trestle result (Table 10-3). -/

namespace Sys2Proof.Machine

/-! ### Rings -/

def ringOf (s : State) (n : Nat) : Ring := tget {} s.ph.ring n

def setRing (n : Nat) (g : Ring) (s : State) : State := { s with ph := { s.ph with ring := tset {} s.ph.ring n g } }

/-- Slots in use (R34; counts are modulo 2^32). -/
def ringUsed (g : Ring) : Nat := (g.tail + 2 ^ 32 - g.head) % 2 ^ 32

/-- Slots a message of `len` bytes takes (R37: k = ceil((32 + L) / 512)). -/
def slotCount (len : Nat) : Nat := (len + 511) / 512

/-- Table index of byte `b` of a message that starts at count `c` of ring `n`, wrapping from slot 63 to slot 0 (R37). -/
def slotKey (n c b : Nat) : Nat := n * 32768 + (c + b / 512) % 64 * 512 + b % 512

/-- Store message bytes from byte `b` on. -/
def writeSlots (n c b : Nat) (t : Tbl Byte) : List Byte → Tbl Byte
  | [] => t
  | x :: xs => writeSlots n c (b + 1) (tset 0 t (slotKey n c b) x) xs

/-- Read `k` message bytes from byte `b` on. -/
def readSlots (t : Tbl Byte) (n c b : Nat) : Nat → List Byte
  | 0 => []
  | k + 1 => tget 0 t (slotKey n c b) :: readSlots t n c (b + 1) k

/-- A device-to-host ring can take `k` slots now: enabled, not paused (R35, R40), with room. -/
def hasRoom (s : State) (g : Ring) (k : Nat) : Bool :=
  g.enable && (g.loc || s.ph.pcieUp) && decide (ringUsed g + k ≤ 64)

/-- Bytes of a message (Table 2-3): header with its CRC-32C, then the payload. -/
def mkMsg (opcode flags seq epoch tag status : Nat) (payload : List Byte) : List Byte :=
  let head := leBytes 2 opcode ++ leBytes 2 flags ++ leBytes 4 seq ++ leBytes 4 payload.length ++ leBytes 4 epoch ++
    leBytes 8 tag ++ leBytes 4 status
  head ++ leBytes 4 (crc32c (head ++ payload)) ++ payload

/-- PCIe address of the slot of count `c` of a ring in host memory (R35). -/
def slotAddress (g : Ring) (c : Nat) : Nat := g.base + 512 * (c % 64)

/-- DMA writes of a message from count `c` of a ring in host memory on, slot by slot. -/
def dmaWrites (g : Ring) (c : Nat) (m : List Byte) : List Out :=
  (List.range (slotCount m.length)).map fun k => .dmaWrite (slotAddress g (c + k)) (slice m (512 * k) 512)

/-- The device fetches `k` slots from count `c` of a ring on: by DMA where the ring lies in host memory (R35). -/
def fetchSlots (g : Ring) (c k : Nat) (s : State) : State :=
  if g.loc then s else { s with out := s.out ++ (List.range k).map fun j => .dmaRead (slotAddress g (c + j)) 512 }

/-- Place a message in a device-to-host ring that has room: into device memory, or by DMA (R35). -/
def placeMsg (n : Nat) (m : List Byte) (s : State) : State :=
  let g := ringOf s n
  let s1 := if g.loc then { s with ph := { s.ph with slots := writeSlots n g.tail 0 s.ph.slots m } }
    else { s with out := s.out ++ dmaWrites g g.tail m }
  setRing n { g with tail := (g.tail + slotCount m.length) % 2 ^ 32 } s1

/-! ### Events -/

/-- `EV_ROUTE[b]` (reset INT_LINE = b mod 4, VECTOR = b, MSG_EN = 1). -/
def routeOf (s : State) (b : Nat) : Nat := tget (b % 4 + 256 * b + 0x4000) s.ev.route b

/-- Pending events (R54). -/
def evPending (s : State) : BitVec 256 := s.ev.status &&& s.ev.mask

/-- Bit b of `EV_SUMMARY`. -/
def summaryBit (s : State) (b : Nat) : Bool := decide (bits (evPending s).toNat (16 * b) 16 ≠ 0)

/-- Event detail of four bytes and a 32-bit argument. -/
def det (b0 b1 b2 b3 w : Nat) : List Byte :=
  [BitVec.ofNat 8 b0, BitVec.ofNat 8 b1, BitVec.ofNat 8 b2, BitVec.ofNat 8 b3] ++ leBytes 4 w

/-- Event detail with a 16-bit field in bytes 2 and 3. -/
def detH (b0 b1 h w : Nat) : List Byte := det b0 b1 (h % 256) (h / 256) w

/-- A signed 32-bit argument, saturating. -/
def arg32 (v : Int) : Nat := wrapN 32 (clampI (-(2 ^ 31)) (2 ^ 31 - 1) v)

/-- The MSI-X vectors of blocks whose summary bit is set in `s` and was not before (R56). -/
def risingVectors (before s : State) : List Nat :=
  ((List.range 16).filter fun b => !summaryBit before b && summaryBit s b && (routeOf s b).testBit 13).map fun b =>
    bits (routeOf s b) 8 5

/-- Vector v is masked in the MSI-X table (vector control, bit 0: PCIe Base Specification, log 50). -/
def vectorMasked (s : State) (v : Nat) : Bool := (tget 0 s.ph.msix (4 * v + 3)).testBit 0

/-- Send the vectors that rise, or set the pending bit of one that is masked. A vector is sent in every mode, also while the PCIe link
is down or CTRL is off (DESIGN CHOICE, log 94). -/
def sendMsix (before : State) (s : State) : State :=
  let vs := risingVectors before s
  { s with out := s.out ++ (vs.filter fun v => !vectorMasked s v).map Out.msix,
           ph := { s.ph with pba := (vs.filter fun v => vectorMasked s v).foldl (fun b v => b ||| BitVec.twoPow 32 v) s.ph.pba } }

/-- Counter, status bit and occurrence of event `e` (R55), and the MSI-X vector (R56). -/
def markEvent (e : Nat) (detail : List Byte) (s : State) : State :=
  let s1 := { s with ev := { s.ev with count := tset 0 s.ev.count e (satAdd 0xFFFF (tget 0 s.ev.count e) 1) } }
  if s.ev.status.getLsbD e then s1
  else sendMsix s { s1 with ev := { s1.ev with status := s1.ev.status ||| BitVec.twoPow 256 e,
                                               occ := tset {} s1.ev.occ e ⟨nowU s, detail⟩ } }

/-- Payload of `event.notify` (Table 2-8) for an event as it stands. -/
def notifyPayload (e : Nat) (s : State) : List Byte :=
  let o := tget {} s.ev.occ e
  leBytes 2 e ++ leBytes 2 (tget 0 s.ev.count e) ++ leI 8 (secOf o.time) ++ leBytes 4 (nsOf o.time) ++ fitBytes 8 o.detail

/-- Post `event.notify` on pigeonhole [15], or note that it was dropped (R50, R56); EV [15] reports the posting. That it is posted
at once in every mode, also while CTRL is off or the Bureau is halted, and that it is dropped as for want of room where ring [15] is
disabled, or lies in host memory while the PCIe link is down, is a DESIGN CHOICE (log 94). -/
def postNotify (e : Nat) (s : State) : State :=
  let g := ringOf s 15
  if hasRoom s g 1 then
    let m := mkMsg 0x0D00 0xA000 g.devSeq s.cfg.epoch 0 0 (notifyPayload e s)
    let s1 := placeMsg 15 m (setRing 15 { g with devSeq := (g.devSeq + 1) % 2 ^ 32 } s)
    markEvent 15 (detH 15 0 0x0D00 (ringOf s1 15).tail) s1
  else setRing 15 { g with dropped := true } s

/-- The event's block posts messages (MSG_EN), and the event is not EV [15] (R56). -/
def notifies (e : Nat) (s : State) : Bool := (routeOf s (e / 16)).testBit 14 && decide (e ≠ 15)

/-- An occurrence of event `e` (R55, R56). -/
def raise (e : Nat) (detail : List Byte) (s : State) : State :=
  let fresh := !s.ev.status.getLsbD e && s.ev.mask.getLsbD e
  let s1 := markEvent e detail s
  if fresh && notifies e s then postNotify e s1 else s1

/-- Notify each of the events listed. -/
def notifyAll (s : State) : List Nat → State
  | [] => s
  | e :: es => notifyAll (if notifies e s then postNotify e s else s) es

/-- Write the masks; events that thereby become pending are notified (R56). -/
def setMask (m : BitVec 256) (s : State) : State :=
  let newly := s.ev.status &&& m &&& ~~~s.ev.mask
  let s1 := sendMsix s { s with ev := { s.ev with mask := m } }
  notifyAll s1 ((List.range 256).filter fun e => newly.getLsbD e)

/-- Clear status bits (W1C); the counters stay (R55). -/
def clearStatus (b : BitVec 256) (s : State) : State :=
  { s with ev := { s.ev with status := s.ev.status &&& ~~~b, occ := s.ev.occ.filter fun o => !b.getLsbD o.1 } }

/-- INT_N[k] is asserted (R56). -/
def intAsserted (s : State) (k : Nat) : Bool :=
  (List.range 16).any fun b => summaryBit s b && (routeOf s b).testBit 2 && decide (bits (routeOf s b) 0 2 = k)

/-- ALERT_N is asserted (R57). -/
def alertAsserted (s : State) : Bool := [128, 161, 163, 178, 179, 144].any fun e => s.ev.status.getLsbD e

/-! ### Posting (R38, R50) -/

/-- Post a message in ring 8 to 14; EV_PH_POST reports it (Table 2-9b). -/
def postMsg (n : Nat) (m : List Byte) (s : State) : State :=
  let s1 := placeMsg n m s
  raise n (detH n 0 (u m 0 2) (ringOf s1 n).tail) s1

/-- Send a message to a device-to-host ring: post it, or hold it while there is no room (R50). A disabled or paused ring
holds without EV_PH_RING_FULL (log 8). -/
def sendMsg (n : Nat) (m : List Byte) (s : State) : State :=
  let g := ringOf s n
  if g.held = [] ∧ hasRoom s g (slotCount m.length) then postMsg n m s
  else
    let s1 := setRing n { g with held := g.held ++ [m] } s
    if g.enable && (g.loc || s.ph.pcieUp) then raise 4 (det n (Nat.min 255 (g.held.length + 1)) 0 0 g.tail) s1 else s1

/-- Post held messages in order while there is room (R50). -/
def flushHeld (n : Nat) : List (List Byte) → State → State
  | [], s => s
  | m :: ms, s =>
    let g := ringOf s n
    if hasRoom s g (slotCount m.length) then flushHeld n ms (postMsg n m (setRing n { g with held := ms } s)) else s

/-- Post what ring `n` holds, as far as it has room. -/
def flushRing (n : Nat) (s : State) : State := flushHeld n (ringOf s n).held s

/-- A device-originated message (R43): flags [13] and [15], the ring's own count as sequence. The live epoch in its epoch field and
the host tag 0 are a DESIGN CHOICE (log 94). -/
def sendDevice (n opcode : Nat) (payload : List Byte) (s : State) : State :=
  let g := ringOf s n
  sendMsg n (mkMsg opcode 0xA000 g.devSeq s.cfg.epoch 0 0 payload) (setRing n { g with devSeq := (g.devSeq + 1) % 2 ^ 32 } s)

/-! ### Memory errors (R26) -/

/-- Count a single-bit or double-bit error of a memory. -/
def sramCount (double : Bool) (memory : Nat) (s : State) : State :=
  if double then { s with ls := { s.ls with ded := tset 0 s.ls.ded memory (tget 0 s.ls.ded memory + 1) } }
  else { s with ls := { s.ls with sec := tset 0 s.ls.sec memory (tget 0 s.ls.sec memory + 1) } }

/-- A single-bit (210) or double-bit (209) error of a memory of Table 1-7, counted and raised; `kind` 1 a functional read, 2 the
scrub (Table 17-9). -/
def sramError (double : Bool) (memory kind address : Nat) (s : State) : State :=
  raise (if double then 209 else 210) (det (memory % 256) kind 0 0 address) (sramCount double memory s)

/-- The error that a word of a memory holds: none, a single-bit (false) or a double-bit one (true). -/
def wordError (s : State) (memory address : Nat) : Option Bool :=
  (s.ls.bad.find? fun h => decide (h.memory = memory) && decide (h.address = address)).map fun h => h.double

/-- A functional read of a word (R26): what error it holds is counted and raised. -/
def readWord (memory address : Nat) (s : State) : State :=
  match wordError s memory address with
  | some d => sramError d memory 1 address s
  | none => s

/-- Functional reads of words in ascending order. -/
def readWords (memory : Nat) (addresses : List Nat) (s : State) : State := addresses.foldl (fun t a => readWord memory a t) s

/-- `n` words from `lo` on are rewritten: they hold no error any more. -/
def cleanWords (memory lo n : Nat) (s : State) : State :=
  { s with ls := { s.ls with bad := s.ls.bad.filter fun h =>
      !(decide (h.memory = memory) && decide (lo ≤ h.address) && decide (h.address < lo + n)) } }

/-! ### Flags of a Trestle result (Table 10-3) -/

/-- Z and N of a 32-bit result. -/
def trestleZN (v : Word) (r : TRegs) : TRegs := { r with z := decide (v = 0), n := v.getLsbD 31 }

/-- Z, N, C (carry out of bit 31) and V (signed overflow) of a + b. -/
def trestleAddFlags (a b : Word) (r : TRegs) : TRegs :=
  { trestleZN (a + b) r with
    c := decide (2 ^ 32 ≤ a.toNat + b.toNat), v := decide ((a + b).toInt ≠ a.toInt + b.toInt) }

/-- Z, N, C (no borrow, log 9) and V of a − b. -/
def trestleSubFlags (a b : Word) (r : TRegs) : TRegs :=
  { trestleZN (a - b) r with
    c := decide (b.toNat ≤ a.toNat), v := decide ((a - b).toInt ≠ a.toInt - b.toInt) }

end Sys2Proof.Machine
end

