-- ==== Sys2Proof/Machine/Operands.lean ====
section
/-! DEFINITION. Operand forms of the commands: Darhiura messages (R34 to R52: taking one, checking, sequencing, replay,
answering), their payload fields and range checks, and SPI frames (R33). -/

namespace Sys2Proof.Machine

/-! ### Codes -/

/-- Status codes (Table 2-6). -/
def stAccepted : Nat := 0x01
def stBadOpcode : Nat := 0x10
def stBadLength : Nat := 0x11
def stBadField : Nat := 0x12
def stMismatch : Nat := 0x13
def stState : Nat := 0x14
def stBusy : Nat := 0x15
def stRefused : Nat := 0x16
def stTimeout : Nat := 0x17
def stIntegrity : Nat := 0x18
def stIncomplete : Nat := 0x19
def stLeaseRevoked : Nat := 0x1A
def stBudget : Nat := 0x1B

/-- Opcodes the host may send (Table 2-7): ordinary and long. -/
def hostOpcodes : List Nat :=
  [0x0101, 0x0102, 0x0103, 0x0104, 0x0201, 0x0202, 0x0203, 0x0204, 0x0301, 0x0302, 0x0303, 0x0401, 0x0402, 0x0403, 0x0404,
   0x0405, 0x0406, 0x0501, 0x0502, 0x0601, 0x0602, 0x0603, 0x0604, 0x0701, 0x0702, 0x0703, 0x0704, 0x0705, 0x0801, 0x0802,
   0x0803, 0x0804, 0x0805, 0x0806, 0x0901, 0x0902, 0x0903, 0x0A01, 0x0A02, 0x0A03, 0x0B01, 0x0B02, 0x0B03, 0x0C01, 0x0C02,
   0x0C03, 0x0D01, 0x0D02, 0x0D03, 0x0D04, 0x0E01, 0x0E02]

/-- Long operations (kind L of Table 2-7). -/
def longOpcodes : List Nat := [0x0104, 0x0302, 0x0404, 0x0501, 0x0901]

/-- Ring [0] accepts only these (R39). -/
def urgentOpcodes : List Nat := [0x0601, 0x0602, 0x0101]

/-! ### Taking a message -/

/-- Fields of a header (Table 2-3). -/
def parseHdr (b : List Byte) : Hdr :=
  { opcode := u b 0 2, flags := u b 2 2, seq := u b 4 4, length := u b 8 4, epoch := u b 12 4, tag := u b 16 8,
    status := u b 24 4, crc := u b 28 4 }

/-- Device-to-host ring that answers host ring n (R38). -/
def respRing (n : Nat) : Nat := if n < 7 then 8 + n else 14

/-- The Bureau executes messages: READY, not halted, CTRL powered (R426, R393, R334). -/
def bureauRuns (s : State) : Bool := s.sys.ready && !s.sys.halted && s.pwr.ready.getLsbD 1

/-- The Bureau may take a message from host ring n now (R34, R35, R40, R48, R50). -/
def canTake (s : State) (n : Nat) : Bool :=
  let g := ringOf s n
  g.enable && (g.loc || s.ph.pcieUp) && !g.busy && !g.active && decide (0 < ringUsed g) && (ringOf s (respRing n)).held.isEmpty

/-- The ring whose message the Bureau takes next: pigeonhole [0] first, then [1..7] in turn (R48). -/
def pickRing (s : State) : Option Nat :=
  if !bureauRuns s then none
  else if canTake s 0 then some 0
  else ((List.range 7).map fun j => (s.ph.turn + 6 + j) % 7 + 1).find? fun n => canTake s n

/-- `n` bytes of the message at the consumer count of ring `r`: from its slots, or as fetched by DMA. -/
def msgBytes (r : Nat) (dma : List Byte) (n : Nat) (s : State) : List Byte :=
  let g := ringOf s r
  if g.loc then readSlots s.ph.slots r g.head 0 n else fitBytes n dma

/-- Words of Bureau memory that hold an error among the first `len` bytes of the message at the consumer count of ring `r` in device
memory: slot s of ring r starts at word 4096 r + 64 s (log 23). -/
def frontWords (r len : Nat) (s : State) : List ScrubHit :=
  let g := ringOf s r
  if g.loc then s.ls.bad.filter fun h => decide (h.memory = 7) && decide (h.address / 4096 = r) &&
    decide ((h.address % 4096 / 64 + 64 - g.head % 64) % 64 * 512 + h.address % 64 * 8 < len)
  else []

/-- The words of a message that hold an error are met as the Bureau reads it (R26). -/
def meetFront (r len : Nat) (s : State) : State := readWords 7 ((frontWords r len s).map fun h => h.address) s

/-- What the front message of a ring is (R44): lost framing, a failed CRC, or a message of header and payload. -/
inductive Front where
  | badLength (h : Hdr)
  | badCrc (h : Hdr)
  | msg (h : Hdr) (payload : List Byte)
  deriving DecidableEq, Repr

/-- The message at the front of ring `r`; one with a word that reads with a double-bit error fails as its CRC does (R26). -/
def frontOf (r : Nat) (dma : List Byte) (s : State) : Front :=
  let h := parseHdr (msgBytes r dma 32 s)
  if 16352 < h.length ∨ ringUsed (ringOf s r) < slotCount (32 + h.length) then .badLength h
  else
    let m := msgBytes r dma (32 + h.length) s
    if (frontWords r (32 + h.length) s).any fun x => x.double then .badCrc h
    else if crc32c (m.take 28 ++ m.drop 32) ≠ h.crc then .badCrc h else .msg h (m.drop 32)

/-! ### Answering -/

/-- A code that reports an error (Table 2-6). -/
def isError (code : Nat) : Bool := decide (2 ≤ code)

/-- Bytes of a response (R43, R45). `a.hdr.epoch` holds the live epoch at execution. -/
def response (a : Asker) (code detail : Nat) (final : Bool) (payload : List Byte) : List Byte :=
  mkMsg a.hdr.opcode (a.hdr.flags % 4 + 0x8000 + 0x4000 * b2n final) a.hdr.seq a.hdr.epoch a.hdr.tag
    (code + 65536 * (detail % 65536)) payload

/-- Send a response if it is an error or was requested (R43). -/
def sendResponse (a : Asker) (isErr : Bool) (m : List Byte) (s : State) : State :=
  if isErr || a.hdr.flags.testBit 0 then sendMsg (respRing a.ring) m s else s

/-- Note a consumed sequence number with its response in the replay window, the last 8 (R47). -/
def remember (a : Asker) (m : List Byte) (isErr : Bool) (s : State) : State :=
  let g := ringOf s a.ring
  setRing a.ring { g with window := (⟨a.hdr.seq, m, isErr⟩ :: g.window.filter fun r => decide (r.seq ≠ a.hdr.seq)).take 8 } s

/-- Replace the response kept for a sequence number still in the window (R47). -/
def updateReplay (a : Asker) (m : List Byte) (isErr : Bool) (s : State) : State :=
  let g := ringOf s a.ring
  setRing a.ring { g with window := g.window.map fun r => if r.seq = a.hdr.seq then ⟨r.seq, m, isErr⟩ else r } s

/-- Zero the counts of a ring and forget its expected sequence (R40). -/
def clearRing (n : Nat) (s : State) : State :=
  let g := ringOf s n
  setRing n { g with head := 0, tail := 0, expect := none, active := false } s

/-- A deferred or long execution answers finally: response, replay window, and the ring goes on (R40, R47, R48). -/
def finish (a : Asker) (code detail : Nat) (payload : List Byte) (s : State) : State :=
  let m := response a code detail true payload
  sendResponse a (isError code) m (updateReplay a m (isError code) s)

/-- End a deferred execution: as `finish`, and the ring is no longer busy. -/
def finishDeferred (a : Asker) (code detail : Nat) (payload : List Byte) (s : State) : State :=
  let s1 := finish a code detail payload s
  setRing a.ring { ringOf s1 a.ring with busy := false } s1

/-- End the long operation of kind `k`: final response, and it leaves the list of those running. -/
def finishLong (k : LongKind) (code detail : Nat) (payload : List Byte) (s : State) : State :=
  match s.ph.long.find? fun e => decide (e.1 = k) with
  | some (_, a) => finish a code detail payload { s with ph := { s.ph with long := s.ph.long.filter fun e => decide (e.1 ≠ k) } }
  | none => s

/-- A long operation of kind `k` is running. -/
def longRunning (k : LongKind) (s : State) : Bool := s.ph.long.any fun e => decide (e.1 = k)

/-! ### Execution -/

/-- What the execution of a message leaves: the state, the answer, whether a long operation has started, the answer is deferred or the
message stalls (R336), and what the device does after answering. -/
structure Reply where
  st : State
  code : Nat := 0
  detail : Nat := 0
  payload : List Byte := []
  long : Option LongKind := none
  defer : Bool := false
  stall : Bool := false
  post : State → State := fun s => s

/-- Success. -/
def ok (payload : List Byte) (s : State) : Reply := { st := s, payload := payload }

/-- An error without payload. -/
def err (code detail : Nat) (s : State) : Reply := { st := s, code := code, detail := detail }

/-- A long operation has started. -/
def accepted (k : LongKind) (s : State) : Reply := { st := s, code := stAccepted, long := some k }

/-- The answer follows later. -/
def deferred (s : State) : Reply := { st := s, defer := true }

/-- The message stalls for a domain: `s` is the state in which that domain is being woken. -/
def stalled (s : State) : Reply := { st := s, stall := true }

/-- Conclude an execution (R43, R47, R48): answer, or note the long or deferred one. A message that stalls is still to be taken, as in `back`,
with the wake of its domain begun (R336). -/
def settle (a : Asker) (before back : State) (r : Reply) : State :=
  if r.stall then { back with pwr := r.st.pwr }
  else if r.defer then
    let s1 := remember a [] false r.st
    setRing a.ring { ringOf s1 a.ring with busy := true } s1
  else
    match r.long with
    | none =>
      let m := response a r.code r.detail true r.payload
      r.post (sendResponse a (isError r.code) m (remember a m (isError r.code) r.st))
    | some k =>
      if 8 ≤ before.ph.long.length then
        let m := response a stBusy 0 true []
        sendResponse a true m (remember a m true before)
      else
        let m := response a stAccepted 0 false []
        let s1 := remember a m false { r.st with ph := { r.st.ph with long := r.st.ph.long ++ [(k, a)] } }
        sendResponse a false m s1

/-- Steps of R44 after the sequence check: flags and status (R42), opcode by `bad`, epoch (R42), the long-operation flag
(R48), then the message's own checks and effect. -/
def execute (a : Asker) (payload : List Byte) (bad : Option Nat) (body : Asker → List Byte → State → Reply) (back s : State) :
    State :=
  let live := s.cfg.epoch
  let a1 : Asker := { a with hdr := { a.hdr with epoch := live } }
  let r : Reply :=
    if 4 ≤ a.hdr.flags then err stBadField 2 s
    else if a.hdr.status ≠ 0 then err stBadField 24 s
    else match bad with
      | some d => err stBadOpcode d s
      | none =>
        if a.hdr.epoch ≠ 0 ∧ a.hdr.epoch ≠ live then err stMismatch 0 s
        else if a.hdr.opcode ∈ longOpcodes ∧ !a.hdr.flags.testBit 1 then err stRefused 1 s
        else body a1 payload s
  settle a1 s back r

/-- The message has been framed and its CRC holds: consume its slots, then replay, sequence and execution (R44). A `sys.hello`, and
the first message while the expected sequence is unset, set it even where they are replayed (R46). -/
def takeMsg (n : Nat) (h : Hdr) (payload : List Byte) (bad : Option Nat) (body : Asker → List Byte → State → Reply)
    (s : State) : State :=
  let g := ringOf s n
  let turn := if n = 0 then s.ph.turn else n % 7 + 1
  let g1 := { g with head := (g.head + slotCount (32 + h.length)) % 2 ^ 32 }
  let s1 := setRing n g1 (fetchSlots g g.head (slotCount (32 + h.length)) { s with ph := { s.ph with turn := turn } })
  let a : Asker := { ring := n, hdr := h }
  match g.window.find? fun r => decide (r.seq = h.seq) with
  | some r =>
    sendResponse a r.isErr r.resp
      (if g.expect.isNone ∨ h.opcode = 0x0101 then setRing n { g1 with expect := some ((h.seq + 1) % 2 ^ 32) } s1 else s1)
  | none =>
    if g.expect.isSome ∧ g.expect ≠ some h.seq ∧ h.opcode ≠ 0x0101 then
      sendResponse a true (response { a with hdr := { h with epoch := s.cfg.epoch } } stBadField 4 true []) s1
    else execute a payload bad body s (setRing n { g1 with expect := some ((h.seq + 1) % 2 ^ 32) } s1)

/-- The opcode check of R52 and R39: none where the opcode is known and accepted on the ring, else the detail. -/
def badOpcode (n op : Nat) : Option Nat :=
  if n = 0 ∧ op ∉ urgentOpcodes then some 1 else if op ∉ hostOpcodes then some 0 else none

/-- A message row: if the Bureau takes next the front message of ring `n`, and that message is framed, verifies and has
opcode `op`, run it with `body`, or answer BAD_OPCODE where the ring does not accept it (R39); otherwise the row does not occur
and nothing changes (log 10). -/
def runMessage (op n : Nat) (dma : List Byte) (body : Asker → List Byte → State → Reply) (s : State) : State :=
  if pickRing s = some n then
    match frontOf n dma s with
    | .msg h p => if h.opcode = op then takeMsg n h p (badOpcode n op) body (meetFront n (32 + h.length) s) else s
    | _ => s
  else s

/-! ### Field checks -/

/-- BAD_LENGTH unless the payload has one of the lengths (detail 8, R43). -/
def withLength (ls : List Nat) (p : List Byte) (s : State) (k : Reply) : Reply :=
  if p.length ∈ ls then k else err stBadLength 8 s

/-- Payload offset of the first failed check. -/
def firstBad : List (Nat × Bool) → Option Nat
  | [] => none
  | (o, good) :: cs => if good then firstBad cs else some o

/-- BAD_FIELD at the first failed check (detail 32 + payload offset, R43). -/
def withFields (cs : List (Nat × Bool)) (s : State) (k : Reply) : Reply :=
  match firstBad cs with
  | some o => err stBadField (32 + o) s
  | none => k

/-- An unsigned field lies in a range. -/
def inRange (p : List Byte) (o n lo hi : Nat) : Nat × Bool := (o, decide (lo ≤ u p o n) && decide (u p o n ≤ hi))

/-- A signed field lies in a range. -/
def inRangeI (p : List Byte) (o n : Nat) (lo hi : Int) : Nat × Bool := (o, decide (lo ≤ i p o n) && decide (i p o n ≤ hi))

/-- Reserved bytes are 0. -/
def isZero (p : List Byte) (o n : Nat) : Nat × Bool := (o, (slice p o n).all fun b => decide (b = 0))

/-- A field has no bit at or above `w`. -/
def below (p : List Byte) (o n w : Nat) : Nat × Bool := (o, decide (u p o n < 2 ^ w))

/-! ### SPI frames (R33) -/

/-- The answer of the SPI target: start byte, status, data, CRC-32C over status and data. -/
def spiAnswer (status : Nat) (data : List Byte) (s : State) : State :=
  let body := BitVec.ofNat 8 status :: data
  { s with out := s.out ++ [.spi ((0x5A : Byte) :: body ++ leBytes 4 (crc32c body))] }

/-- An SPI request: command, address, length, data; `none` where its CRC fails. -/
structure SpiReq where
  cmd : Nat
  addr : Nat
  len : Nat
  data : List Byte
  deriving DecidableEq, Repr

/-- The frame has command `cmd` (byte 0). -/
def spiIs (frame : List Byte) (cmd : Nat) : Bool := decide (7 ≤ frame.length ∧ u frame 0 1 = cmd)

/-- Length of a request with command, address, length field, data of writes and CRC (R33). -/
def spiParse (frame : List Byte) : Option SpiReq :=
  let n := frame.length - 4
  if 11 ≤ frame.length ∧ crc32c (frame.take n) = leNat (frame.drop n) then
    some ⟨u frame 0 1, u frame 1 4, u frame 5 2, slice (frame.take n) 7 (n - 7)⟩
  else none

end Sys2Proof.Machine
end

