-- ==== Sys2Proof/Machine/Layout.lean ====
section
/-! DEFINITION. The configuration image (R66 to R70): section layouts with their ranges, reset content and dependent
fields, typed views of an image, and the air-time arithmetic of R110, R111 and R193 on its carriers. -/

namespace Sys2Proof.Machine

/-- Sizes of the sections (Table 3-1); 0 for an ID that names none. -/
def sectionSize (sec : Nat) : Nat :=
  match sec with
  | 1 => 256 | 2 => 256 | 3 => 4096 | 4 => 16384 | 5 => 1024 | 6 => 1024 | 7 => 8192 | 8 => 1024 | 9 => 4096 | 10 => 256
  | 11 => 8192 | 12 => 2048 | _ => 0

/-! ### Reset content -/

/-- Byte `k` of the little-endian number `v`. -/
def leByteAt (v k : Nat) : Byte := BitVec.ofNat 8 (v / 256 ^ k)

/-- Reset bytes of a carrier record (Tables 6-1 and 7-1). -/
def resetCarrier (ul : Bool) (o : Nat) : Byte :=
  if o = 1 then 1
  else if o < 4 ∧ 2 ≤ o then leByteAt 4096 (o - 2)
  else if 4 ≤ o ∧ o < 8 then leByteAt 100000 (o - 4)
  else if 8 ≤ o ∧ o < 10 then leByteAt 273 (o - 8)
  else if o = 10 then 6
  else if o = 11 then (if ul then 2 else 0)
  else if 16 ≤ o ∧ o < 18 then leByteAt 16384 (o - 16)
  else if ul ∧ o = 18 then 1
  else if ul ∧ 20 ≤ o ∧ o < 55 then 255
  else 0

/-- Reset bytes of the record of port n (Table 4-2). -/
def resetPort (n o : Nat) : Byte :=
  if o = 0 then 2
  else if o < 5 then BitVec.ofNat 8 (Config.uid.toNat % 2 ^ 32 / 256 ^ (4 - o))
  else if o = 5 then BitVec.ofNat 8 n
  else if o < 8 then leByteAt 9216 (o - 6)
  else if o < 10 then leByteAt 1000 (o - 8)
  else if o < 12 then leByteAt 50 (o - 10)
  else if o < 20 then 255
  else if o < 22 then leByteAt 1 (o - 20)
  else match o with
    | 22 => 6 | 23 => 6 | 24 => 7 | 25 => 1 | 26 => 1 | 28 => 7 | _ => 0

/-- Byte `o` of section `sec` of the reset image (R67; the reset columns of Tables 4-2, 5-4, 6-1, 7-1, 7-4, 8-2, 8-3, 9-1,
9-2, 11-5, 11-6, 11-8). -/
def resetByte (sec o : Nat) : Byte :=
  match sec with
  | 1 => resetCarrier false (o % 64)
  | 2 => resetCarrier true (o % 64)
  | 3 =>
    if o = 0 then 5 else if o = 7 then 1 else if o = 40 ∨ o = 41 then 2
    else if 64 ≤ o ∧ o < 1088 then resetPort ((o - 64) / 128) ((o - 64) % 128) else 0
  | 5 => if o = 2 ∨ o = 3 then 1 else if o = 5 then 3 else if 8 ≤ o ∧ o < 16 then 4 else 0
  | 6 => if o % 16 = 0 then BitVec.ofNat 8 (o / 16) else if o % 16 = 1 then BitVec.ofNat 8 (o / 16 / 8)
    else if o % 16 = 2 then BitVec.ofNat 8 (o / 16 % 8) else 0
  | 7 =>
    if o = 0 then 1
    else if 64 ≤ o ∧ o < 1088 then
      let s := (o - 64) / 256
      let r := (o - 64) % 256
      if r = 0 then 1
      else if s = 0 ∧ 16 ≤ r ∧ r < 48 then
        (if (r - 16) % 4 = 0 then 1 else if (r - 16) % 4 = 1 then BitVec.ofNat 8 ((r - 16) / 4 + 1) else 0)
      else 0
    else if 1088 ≤ o ∧ o < 3136 then (if 2 ≤ (o - 1088) % 32 ∧ (o - 1088) % 32 < 6 then 255 else 0)
    else 0
  | 8 => if o = 1 then 80 else if o = 3 then 16 else if 16 ≤ o ∧ o < 48 then
      (if (o - 16) % 8 = 0 then 30 else if (o - 16) % 8 = 1 then 45 else 0) else 0
  | 10 =>
    if o = 0 then 1
    else if 16 ≤ o ∧ o < 144 ∧ (o - 16) % 32 < 16 then leByteAt 3500000000000 ((o - 16) % 8) else 0
  | 11 => match o with
    | 2 => 1 | 3 => 1 | 4 => 6 | 5 => 16 | 6 => 1 | _ => 0
  | 12 =>
    if o < 1024 then (if o % 16 = 0 then 40 else if o % 16 = 1 then 20 else 0)
    else if o < 1088 ∧ o % 16 = 1 then 2 else 0
  | _ => 0

/-! ### Reading and writing an image -/

/-- A byte of an image. -/
def imgByte (im : Image) (sec o : Nat) : Byte := tget (resetByte sec o) (tget [] im sec) o

/-- `n` bytes of an image. -/
def imgBytes (im : Image) (sec o : Nat) : Nat → List Byte
  | 0 => []
  | n + 1 => imgByte im sec o :: imgBytes im sec (o + 1) n

/-- Unsigned field of an image. -/
def cf (im : Image) (sec o n : Nat) : Nat := leNat (imgBytes im sec o n)

/-- Signed field of an image. -/
def cfI (im : Image) (sec o n : Nat) : Int := signed (8 * n) (cf im sec o n)

/-- Write bytes into a section table. -/
def putBytes (sec o : Nat) (t : Tbl Byte) : List Byte → Tbl Byte
  | [] => t
  | b :: bs => putBytes sec (o + 1) (tset (resetByte sec o) t o b) bs

/-- Write bytes into an image. -/
def imgWrite (im : Image) (sec o : Nat) (b : List Byte) : Image := tset [] im sec (putBytes sec o (tget [] im sec) b)

/-! ### Fields and ranges (R70) -/

/-- A field of a section layout: where it starts, its size, and the values its range admits (as unsigned numbers). -/
structure Fld where
  start : Nat
  size : Nat
  good : Nat → Bool

def fAny (st sz : Nat) : Fld := ⟨st, sz, fun _ => true⟩
def fR (st sz lo hi : Nat) : Fld := ⟨st, sz, fun v => decide (lo ≤ v) && decide (v ≤ hi)⟩
def fI (st sz : Nat) (lo hi : Int) : Fld :=
  ⟨st, sz, fun v => decide (lo ≤ signed (8 * sz) v) && decide (signed (8 * sz) v ≤ hi)⟩
def fL (st sz : Nat) (l : List Nat) : Fld := ⟨st, sz, fun v => decide (v ∈ l)⟩
/-- A reserved byte: each is taken as a field of its own (DEDUCED, log 11). -/
def fZ (st : Nat) : Fld := ⟨st, 1, fun v => decide (v = 0)⟩

/-- Field of a carrier record that holds record offset `r`; `b` is the record's start. -/
def fldCarrier (ul : Bool) (b r : Nat) : Fld :=
  if r = 0 then fR b 1 0 1
  else if r = 1 then fR (b + 1) 1 0 2
  else if r < 4 then fL (b + 2) 2 [256, 512, 1024, 2048, 4096]
  else if r < 8 then fR (b + 4) 4 5000 200000
  else if r < 10 then fR (b + 8) 2 1 275
  else if r = 10 then fR (b + 10) 1 0 12
  else if r = 11 then (if ul then fR (b + 11) 1 0 3 else fZ (b + 11))
  else if r < 16 then fI (b + 12) 4 (-250000000) 250000000
  else if r < 18 then fR (b + 16) 2 1 32767
  else if ul ∧ r = 18 then fL (b + 18) 1 [1, 2, 4, 5, 10, 20]
  else if ul ∧ 20 ≤ r ∧ r < 55 then fAny (b + 20) 35
  else fZ (b + r)

/-- Field of a port record. A group MAC address is out of range. -/
def fldPort (b r : Nat) : Fld :=
  if r < 6 then ⟨b, 6, fun v => decide (v % 2 = 0)⟩
  else if r < 8 then fR (b + 6) 2 1522 9216
  else if r < 10 then fR (b + 8) 2 100 1000
  else if r < 12 then fR (b + 10) 2 50 500
  else if r < 20 then ⟨b + r / 2 * 2, 2, fun v => decide (1 ≤ v ∧ v ≤ 4094) || decide (v = 0xFFFF)⟩
  else if r < 22 then fR (b + 20) 2 1 4094
  else if r < 25 then fR (b + r) 1 0 7
  else if r = 25 then fR (b + 25) 1 1 4
  else if r < 28 then fR (b + 26) 2 1 4094
  else if r = 28 then fR (b + 28) 1 0 7
  else if r < 32 then fZ (b + r)
  else if r < 36 then fAny (b + 32) 4
  else if r < 52 then fAny (b + 36) 16
  else fZ (b + r)

/-- Field of section `sec` that holds offset `o`. -/
def fldAt (sec o : Nat) : Fld :=
  match sec with
  | 1 => fldCarrier false (o / 64 * 64) (o % 64)
  | 2 => fldCarrier true (o / 64 * 64) (o % 64)
  | 3 =>
    if o = 0 then fR 0 1 1 5
    else if o < 5 then fR o 1 0 23
    else if o < 7 then fAny o 1
    else if o = 7 then fR 7 1 1 2
    else if o < 40 then fI o 1 (-12) 12
    else if o < 42 then fR o 1 1 2
    else if 64 ≤ o ∧ o < 1088 then fldPort (64 + (o - 64) / 128 * 128) ((o - 64) % 128)
    else fZ o
  | 4 =>
    let b := o / 16 * 16
    let r := o % 16
    if r < 2 then fAny b 2 else if r = 2 then fR (b + 2) 1 0 8 else if r = 3 then fR (b + 3) 1 0 3
    else if r = 4 then fR (b + 4) 1 0 63 else if r = 5 then fR (b + 5) 1 0 7 else if r = 6 then fR (b + 6) 1 0 2
    else if r = 7 then ⟨b + 7, 1, fun v => decide (v = 0) || decide (6 ≤ v ∧ v ≤ 16)⟩ else fZ o
  | 5 =>
    if o < 2 then fAny o 1 else if o < 4 then fR o 1 1 3 else if o < 6 then fR o 1 0 6
    else if 8 ≤ o ∧ o < 16 then fR o 1 1 4 else fZ o
  | 6 =>
    let r := o % 16
    if r = 0 then fR o 1 0 63 else if r < 3 then fR o 1 0 31 else if r = 3 then fR o 1 0 1 else fZ o
  | 7 =>
    if o = 0 then fR 0 1 1 2
    else if 64 ≤ o ∧ o < 1088 then
      let r := (o - 64) % 256
      if r = 0 then fR o 1 1 8
      else if 16 ≤ r ∧ r < 208 then
        (match (r - 16) % 4 with
        | 0 => fR o 1 0 2
        | 1 => fR o 1 0 9
        | _ => fR o 1 0 7)
      else fZ o
    else if 1088 ≤ o ∧ o < 3136 then
      let r := (o - 1088) % 32
      if r = 0 then ⟨o, 1, fun v => decide (v ≤ 3) || decide (v = 0xFF)⟩
      else if r = 1 then fR o 1 0 4
      else if r < 6 then ⟨o, 1, fun v => decide (v ≤ 63) || decide (v = 0xFF)⟩
      else fZ o
    else fZ o
  | 8 =>
    if o = 0 then fR 0 1 0 4 else if o = 1 then fR 1 1 60 95 else if o < 4 then fR 2 2 1 32767
    else if o < 8 then fR o 1 0 30 else if o = 8 then fR 8 1 0 1
    else if 16 ≤ o ∧ o < 48 ∧ (o - 16) % 8 = 0 then fR o 1 1 125
    else if 16 ≤ o ∧ o < 48 ∧ (o - 16) % 8 = 1 then fR o 1 30 65
    else fZ o
  | 9 =>
    if o < 2 then fR 0 2 0 512
    else if 64 ≤ o ∧ o < 192 then
      let b := o / 4 * 4
      (match o % 4 with
      | 0 => fR b 1 0 2
      | 1 => fR (b + 1) 1 0 1
      | _ => fAny (b + 2) 2)
    else if 1024 ≤ o ∧ o < 3072 then
      let b := o / 4 * 4
      if o % 4 = 3 then ⟨b + 3, 1, fun v => decide (v % 128 ≤ 33)⟩ else fR b 3 0 14745599
    else fZ o
  | 10 =>
    if o = 0 then fR 0 1 1 2
    else if 16 ≤ o ∧ o < 144 ∧ (o - 16) % 32 < 16 then fR (o / 8 * 8) 8 600000000000 10500000000000
    else fZ o
  | 11 =>
    if o = 0 then fR 0 1 0 2 else if o = 1 then fR 1 1 0 3 else if o < 4 then fR o 1 0 1 else if o = 4 then fR 4 1 1 12
    else if o = 5 then fR 5 1 1 64 else if o = 6 then fL 6 1 [1, 2, 4, 5, 10, 20]
    else if 64 ≤ o ∧ o < 2112 then
      let b := o / 16 * 16
      (match o % 16 with
      | 0 => fR b 1 0 1
      | 1 => fR o 1 0 19
      | 2 => fR o 1 0 13
      | 3 => fI o 1 (-30) 30
      | 4 => fZ o | 5 => fZ o | 6 => fZ o | 7 => fZ o
      | _ => fAny (b + 8) 8)
    else if 2112 ≤ o ∧ o < 4160 then
      let b := o / 64 * 64
      let r := o % 64
      if r = 0 then fR o 1 0 1 else if r < 3 then fR o 1 0 3 else if r = 3 then fR o 1 0 7 else if r = 4 then fR o 1 0 12
      else if r = 5 then fL o 1 [0, 1, 2, 4, 8, 16] else if r = 6 then fR o 1 0 15 else if r = 7 then fZ o
      else if r < 12 then fR (b + 8) 4 0 14745599 else if r < 16 then fR (b + 12) 4 0 1000000
      else if r < 20 then fI (b + 16) 4 (-250000000) 250000000 else fZ o
    else fZ o
  | 12 =>
    if o < 1024 then
      let b := o / 16 * 16
      let r := o % 16
      if r = 0 then fR b 1 0 127 else if r = 1 then fR o 1 0 30 else if r < 4 then fZ o
      else if r < 8 then fR (b + 4) 4 0 8000000 else if r < 12 then fR (b + 8) 4 0 8000000 else fZ o
    else if o < 1088 then
      (match o % 16 with
      | 0 => fR o 1 0 1
      | 1 => fR o 1 1 2
      | 2 => fR o 1 0 1
      | 3 => fAny o 1
      | _ => fZ o)
    else
      let b := o / 8 * 8
      (match o % 8 with
      | 0 => fR b 1 0 1
      | 1 => fR o 1 0 3
      | 2 => fR o 1 0 15
      | 3 => fR o 1 0 3
      | 4 => fAny (b + 4) 2
      | 5 => fAny (b + 4) 2
      | 6 => fAny o 1
      | _ => fR o 1 0 1)
  | _ => fZ o

/-- Verdict on a field whose range depends on another of its section (R70, R81): none where the value is allowed, else the
offsets of its controlling fields. `g` reads the section as it would stand; `st` is the field's start. -/
def dependent (sec st : Nat) (g : Nat → Nat → Nat) : Option (List Nat) :=
  let no (bad : Bool) (c : List Nat) : Option (List Nat) := if bad then some c else none
  match sec with
  | 2 =>
    let b := st / 64 * 64
    if st % 64 = 20 then no (decide (g st 35 % 2 ^ (14 * g (b + 18) 1) = 0)) [b + 18] else none
  | 4 =>
    let b := st / 16 * 16
    let k := g (b + 2) 1
    let c := [b + 2]
    (match st % 16 with
    | 0 => no (decide (k = 0 ∧ g b 2 ≠ 0)) c
    | 3 => no (decide (k = 0 ∧ g st 1 ≠ 0)) c
    | 4 => no (decide ((if k = 1 ∨ k = 2 ∨ k = 4 then 31 else if k = 3 ∨ k = 5 then 63 else 0) < g st 1)) c
    | 5 => no (decide (k = 0 ∧ g st 1 ≠ 0)) c
    | 6 => no (if 1 ≤ k ∧ k ≤ 5 then decide (g st 1 = 0) else decide (g st 1 ≠ 0)) c
    | 7 => no (if 1 ≤ k ∧ k ≤ 5 then decide (g st 1 = 0) else decide (g st 1 ≠ 0)) c
    | _ => none)
  | 7 =>
    if 64 ≤ st ∧ st < 1088 ∧ 16 ≤ (st - 64) % 256 ∧ (st - 64) % 256 < 208 then
      let b := st / 4 * 4
      let k := g b 1
      (match st % 4 with
      | 0 => none
      | 1 => no (if k = 0 then decide (g st 1 ≠ 0) else decide (g st 1 = 0)) [b]
      | 2 => no (decide (k = 0 ∧ g st 1 ≠ 0)) [b]
      | _ => no (decide (k = 0 ∧ g st 1 ≠ 0) || decide (k = 2 ∧ 3 < g st 1)) [b])
    else if 1088 ≤ st ∧ st < 3136 ∧ 2 ≤ (st - 1088) % 32 ∧ (st - 1088) % 32 < 6 then
      let b := 1088 + (st - 1088) / 32 * 32
      let t := (st - 1088) % 32 - 2
      no (if t < g (b + 1) 1 then decide (g st 1 = 0xFF) else decide (g st 1 ≠ 0xFF)) [b + 1]
    else none
  | 9 =>
    if 64 ≤ st ∧ st < 192 ∧ st % 4 = 2 then
      no (if g (st - 2) 1 = 2 then decide (g st 2 = 0) else decide (g st 2 ≠ 0)) [st - 2]
    else if 1024 ≤ st ∧ st < 3072 then
      no (decide (g 0 2 ≤ (st - 1024) / 4) && decide (g st (if st % 4 = 3 then 1 else 3) ≠ 0)) [0]
    else none
  | 11 =>
    if 64 ≤ st ∧ st < 2112 then
      let b := st / 16 * 16
      let v := g b 1
      (match st % 16 with
      | 0 => none
      | 8 => no (if v = 0 then decide (g st 8 ≠ 0) else decide (g st 8 = 0)) [b]
      | _ => no (decide (v = 0 ∧ g st 1 ≠ 0)) [b])
    else if 2112 ≤ st ∧ st < 4160 then
      let b := st / 64 * 64
      let v := g b 1
      let r := st % 64
      if r = 0 then none
      else if r = 3 ∨ r = 4 ∨ r = 5 then no (if v = 0 then decide (g st 1 ≠ 0) else decide (g st 1 = 0)) [b]
      else if r = 12 then no (if v = 0 then decide (g st 4 ≠ 0) else decide (g st 4 = 0)) [b]
      else if r = 8 ∨ r = 16 then no (decide (v = 0 ∧ g st 4 ≠ 0)) [b]
      else if r < 8 then no (decide (v = 0 ∧ g st 1 ≠ 0)) [b]
      else none
    else none
  | 12 =>
    if 1088 ≤ st then
      let b := st / 8 * 8
      let v := g b 1
      (match st % 8 with
      | 0 => none
      | 1 => no (decide (v = 0 ∧ g st 1 ≠ 0)) [b]
      | 2 => no (if v = 0 then decide (g st 1 ≠ 0) else decide (g st 1 = 0)) [b]
      | 3 => no (if v = 0 then decide (g st 1 ≠ 0) else decide (g st 1 = 0)) [b]
      | 4 => no (if v = 0 then decide (g st 2 ≠ 0)
          else decide ((match g (b + 3) 1 with | 1 => 31 | 2 => 255 | _ => 65535) < g st 2)) [b, b + 3]
      | _ => no (decide (v = 0 ∧ g st 1 ≠ 0)) [b])
    else none
  | _ => none

/-- Record that holds an offset, as the span within which a change can make dependent fields illegal. -/
def recordSpan (sec o : Nat) : Nat × Nat :=
  match sec with
  | 1 => (o / 64 * 64, o / 64 * 64 + 64)
  | 2 => (o / 64 * 64, o / 64 * 64 + 64)
  | 4 => (o / 16 * 16, o / 16 * 16 + 16)
  | 7 => (o / 32 * 32, o / 32 * 32 + 32)
  | 9 => if o < 2 then (0, 3072) else (o / 4 * 4, o / 4 * 4 + 4)
  | 11 => if 2112 ≤ o then (o / 64 * 64, o / 64 * 64 + 64) else (o / 16 * 16, o / 16 * 16 + 16)
  | 12 => (o / 8 * 8, o / 8 * 8 + 8)
  | _ => (o, o + 1)

/-- Walk the fields from `o` to `hi`; `fuel` bounds the number of fields. -/
def fieldsFrom (sec hi : Nat) : Nat → Nat → List Fld
  | 0, _ => []
  | fuel + 1, o => if hi ≤ o then [] else
    let f := fldAt sec o
    f :: fieldsFrom sec hi fuel (f.start + f.size)

/-- Verdict of R70 on writing `data` at `off` of section `sec` whose bytes are read by `old`: none where the write is
accepted, else the section offset the BAD_FIELD detail names. -/
def stageVerdict (sec off : Nat) (data : List Byte) (im : Image) : Option Nat :=
  let n := data.length
  if n = 0 then none
  else
    let hi := off + n
    let fs := fieldsFrom sec hi n off
    let im2 := imgWrite im sec off data
    let g := fun o k => cf im2 sec o k
    match fs.find? fun f => decide (f.start < off) || decide (hi < f.start + f.size) with
    | some f => some f.start
    | none =>
      match fs.find? fun f => !f.good (g f.start f.size) with
      | some f => some f.start
      | none =>
        let lo2 := (recordSpan sec off).1
        let hi2 := if sec = 9 ∧ off < 2 then Nat.max 3072 (recordSpan sec (hi - 1)).2 else (recordSpan sec (hi - 1)).2
        let judged := (fieldsFrom sec hi2 (hi2 - lo2) lo2).filterMap fun f =>
          match dependent sec f.start g with
          | none => none
          | some cs =>
            if off ≤ f.start ∧ f.start < hi then some f.start
            else cs.find? fun c => decide (off ≤ c) && decide (c < hi)
        judged.head?

/-! ### Images in force -/

/-- Instant of a boundary (R72). -/
def boundaryU (b : Boundary) : Instant := (b.frame : Int) * frameU + (b.quarter : Int) * quarterU

/-- Boundary at or before an instant, in quarters. -/
def boundaryAt (t : Instant) : Boundary := ⟨(t / frameU).toNat, (t % frameU / quarterU).toNat⟩

/-- Image that governs an air time (R75). -/
def imageAt (s : State) (air : Instant) : Image :=
  match s.cfg.armed with
  | some (im, b) => if boundaryU b ≤ air then im else
      (match s.cfg.prev with
      | some (p, pb) => if air < boundaryU pb then p else s.cfg.live
      | none => s.cfg.live)
  | none =>
    match s.cfg.prev with
    | some (p, pb) => if air < boundaryU pb then p else s.cfg.live
    | none => s.cfg.live

/-! ### Typed views -/

/-- Section of a direction's carrier plan. -/
def ccSec (ul : Bool) : Nat := if ul then 2 else 1

def ccEnabled (im : Image) (ul : Bool) (c : Nat) : Bool := decide (c < 4) && decide (cf im (ccSec ul) (64 * c) 1 = 1)
def ccMu (im : Image) (ul : Bool) (c : Nat) : Nat := cf im (ccSec ul) (64 * c + 1) 1
def ccN (im : Image) (ul : Bool) (c : Nat) : Nat := cf im (ccSec ul) (64 * c + 2) 2
def ccBw (im : Image) (ul : Bool) (c : Nat) : Nat := cf im (ccSec ul) (64 * c + 4) 4
def ccP (im : Image) (ul : Bool) (c : Nat) : Nat := cf im (ccSec ul) (64 * c + 8) 2
def ccShift (im : Image) (ul : Bool) (c : Nat) : Nat := cf im (ccSec ul) (64 * c + 10) 1
def ccDecim (im : Image) (c : Nat) : Nat := cf im 2 (64 * c + 11) 1
def ccFreq (im : Image) (ul : Bool) (c : Nat) : Int := cfI im (ccSec ul) (64 * c + 12) 4
def ccScale (im : Image) (ul : Bool) (c : Nat) : Nat := cf im (ccSec ul) (64 * c + 16) 2

/-- Carriers enabled in a direction, ascending. -/
def enabledCCs (im : Image) (ul : Bool) : List Nat := (List.range 4).filter fun c => ccEnabled im ul c

/-- Class carrier: the lowest-numbered enabled DL carrier (R120). -/
def classCarrier (im : Image) : Option Nat := (enabledCCs im false).head?

/-- Bandwidth-plan fields (Table 8-2). -/
def bfLayers (im : Image) (ul : Bool) : Nat := cf im 5 (if ul then 1 else 0) 1
def bfSource (im : Image) (ul : Bool) : Nat := cf im 5 (if ul then 3 else 2) 1
def bfShift (im : Image) (ul : Bool) : Nat := cf im 5 (if ul then 5 else 4) 1
def bfGran (im : Image) (ul : Bool) (c : Nat) : Nat := cf im 5 ((if ul then 12 else 8) + c) 1

/-- ceil(a / b); 0 when b is 0. -/
def ceilN (a b : Nat) : Nat := (a + b - 1) / b

/-- PRB groups of a carrier (R187). -/
def groupsOf (im : Image) (ul : Bool) (c : Nat) : Nat := ceilN (ccP im ul c) (bfGran im ul c)

/-- A flow record (Table 5-4). -/
structure Flow where
  idx : Nat
  eaxc : Nat
  kind : Nat
  cc : Nat
  index : Nat
  port : Nat
  method : Nat
  width : Nat
  deriving DecidableEq, Repr

/-- Flow record r of an image. -/
def flowAt (im : Image) (r : Nat) : Flow :=
  ⟨r, cf im 4 (16 * r) 2, cf im 4 (16 * r + 2) 1, cf im 4 (16 * r + 3) 1, cf im 4 (16 * r + 4) 1, cf im 4 (16 * r + 5) 1,
    cf im 4 (16 * r + 6) 1, cf im 4 (16 * r + 7) 1⟩

/-- Flow records that differ from the reset record (all zero), so that a plan is walked by what it lists. -/
def listedFlows (im : Image) : List Nat := ((tget [] im 4).map fun e => e.1 / 16).dedup

/-- Records of non-zero kind, the lower index governing where two carry one eAxC identifier (R114). -/
def governingFlows (im : Image) : List Flow :=
  ((listedFlows im).map (flowAt im)).foldl
    (fun acc f => if f.kind = 0 ∨ acc.any (fun g => decide (g.eaxc = f.eaxc)) then acc else acc ++ [f]) []

/-- Flow with an eAxC identifier (R92, R114). -/
def findFlow (im : Image) (eaxc : Nat) : Option Flow := (governingFlows im).find? fun f => decide (f.eaxc = eaxc)

/-- The direction of a flow's carrier: uplink for kinds 2 to 5, 7 and 8. -/
def flowUl (f : Flow) : Bool := decide (f.kind ≠ 1 ∧ f.kind ≠ 6)

/-- Ports of a mode (Table 4-1). -/
def portCount (mode : Nat) : Nat :=
  match mode with | 1 => 2 | 2 => 4 | 3 => 8 | 4 => 4 | 5 => 1 | _ => 0

def portMode (im : Image) : Nat := cf im 3 0 1
def portField (im : Image) (n o k : Nat) : Nat := cf im 3 (64 + 128 * n + o) k
def winOpen (im : Image) (n : Nat) : Nat := portField im n 8 2
def winClose (im : Image) (n : Nat) : Nat := portField im n 10 2
def maxFrame (im : Image) (n : Nat) : Nat := portField im n 6 2

/-- Duplex field: true for FDD (Table 11-6). -/
def isFdd (im : Image) : Bool := decide (cf im 10 0 1 = 2)
def loFreq (im : Image) (lo : Nat) : Nat := cf im 10 (16 + 32 * (lo / 2) + 8 * (lo % 2)) 8

def txAtten (im : Image) (p : Nat) : Nat := cf im 12 (16 * p) 1
def rxGain (im : Image) (p : Nat) : Nat := cf im 12 (16 * p + 1) 1

/-- Element record of a path under an element map (Table 8-3), as (record, row, column, polarisation). -/
def elementOf (im : Image) (p : Nat) : Nat × Nat × Nat × Nat :=
  match (List.range 64).find? fun k => decide (cf im 6 (16 * k) 1 = p) with
  | some k => (k, cf im 6 (16 * k + 1) 1, cf im 6 (16 * k + 2) 1, cf im 6 (16 * k + 3) 1)
  | none => (64, 0, 0, 0)

/-! ### Symbols and slots (R111, R193) -/

/-- A number of ticks as an instant difference. -/
def tk (n : Int) : Instant := n * tickU

/-- Tick count since frame 0 of an instant. -/
def tickOf (t : Instant) : Int := t / tickU

/-- Normal symbol length in ticks (Table 5-3). -/
def symNormal (mu : Nat) : Nat := 105216 / 2 ^ mu

/-- Symbol index within the frame. -/
def symIndex (mu : Nat) (n : SymName) : Nat := (n.subframe * 2 ^ mu + n.slot) * 14 + n.symbol

/-- Ticks from the frame start to symbol index `n` (R111). -/
def symOffset (mu n : Nat) : Nat :=
  let h := 7 * 2 ^ mu
  let j := n % h
  n / h * 737280 + j * symNormal mu + (if 0 < j then 768 else 0)

/-- Length in ticks of symbol index `n`. -/
def symTicks (mu n : Nat) : Nat := if n % (7 * 2 ^ mu) = 0 then symNormal mu + 768 else symNormal mu

/-- Air time of a symbol (R111). -/
def airOf (mu : Nat) (n : SymName) : Instant := (n.frame : Int) * frameU + tk (symOffset mu (symIndex mu n))

/-- Slot within the frame of slot number n: start in ticks. -/
def slotOffset (mu n : Nat) : Nat := symOffset mu (14 * n)

/-- Slots per frame. -/
def slotsPerFrame (mu : Nat) : Nat := 10 * 2 ^ mu

/-- Slot count since frame 0 of a slot (R156). -/
def slotCountOf (mu frame n : Nat) : Nat := frame * slotsPerFrame mu + n

/-- Start of the slot with count m since frame 0. -/
def slotStart (mu m : Nat) : Instant :=
  ((m / slotsPerFrame mu : Nat) : Int) * frameU + tk (slotOffset mu (m % slotsPerFrame mu))

/-- First symbol index since frame 0 (140 × 2^μ per frame) whose start is at or after `t`. -/
def nextSymbol (mu : Nat) (t : Instant) : Nat :=
  let h := 7 * 2 ^ mu
  let half := (t / tk 737280).toNat
  let r := ceilDiv (t - (half : Int) * tk 737280) tickU
  let j := if r ≤ 0 then 0 else (ceilDiv (r - 768) (symNormal mu)).toNat
  half * h + Nat.min (if r ≤ 0 then 0 else Nat.max 1 j) h

/-- Start of the symbol with index `n` since frame 0. -/
def symbolStart (mu n : Nat) : Instant :=
  let per := 140 * 2 ^ mu
  ((n / per : Nat) : Int) * frameU + tk (symOffset mu (n % per))

/-- Frame, subframe, slot and symbol of symbol index `n` since frame 0. -/
def symNameOf (carrier mu n : Nat) : SymName :=
  let per := 140 * 2 ^ mu
  let k := n % per
  ⟨carrier, n / per, k / 14 / 2 ^ mu, k / 14 % 2 ^ mu, k % 14⟩

/-- Index since frame 0 of the symbol that contains instant `t`. -/
def symbolAt (mu : Nat) (t : Instant) : Nat :=
  let n := nextSymbol mu t
  if symbolStart mu n = t then n else n - 1

/-- First slot count whose start is at or after `t`. -/
def nextSlot (mu : Nat) (t : Instant) : Nat := ceilN (nextSymbol mu t) 14

/-- Lowest numerology among the enabled carriers of both directions (R193). -/
def lowestMu (im : Image) : Option Nat :=
  (((enabledCCs im false).map (ccMu im false)) ++ ((enabledCCs im true).map (ccMu im true))).min?

/-- Period of the common slot boundaries in quarters (R193): 1 ms at 15 kHz or with no carrier, else 0.5 ms. -/
def commonPeriod (im : Image) : Nat :=
  match lowestMu im with
  | none => 4
  | some mu => if mu = 0 then 4 else 2

/-- First common slot boundary at or after an instant (R193). -/
def nextCommon (im : Image) (t : Instant) : Instant :=
  let p : Nat := commonPeriod im * quarterU
  ceilDiv t p * p

/-- First slot boundary of the class carrier at or after an instant, else the first 1 ms boundary (R219). -/
def nextClassSlot (im : Image) (t : Instant) : Instant :=
  match classCarrier im with
  | some c => slotStart (ccMu im false c) (nextSlot (ccMu im false c) t)
  | none => ceilDiv t (msU) * msU

/-- First symbol of the class carrier starting at or after an instant, else the instant itself. -/
def nextClassSymbol (im : Image) (t : Instant) : Instant :=
  match classCarrier im with
  | some c => symbolStart (ccMu im false c) (nextSymbol (ccMu im false c) t)
  | none => t

/-- Subframe, slot and symbol of an air time on the class carrier, and its frame; with none, the subframe of 1 ms alone. -/
def className (im : Image) (t : Instant) : SymName :=
  match classCarrier im with
  | some c => symNameOf c (ccMu im false c) (symbolAt (ccMu im false c) t)
  | none => ⟨0, (t / frameU).toNat, (t % frameU / msU).toNat, 0, 0⟩

/-- Event detail of a chapter that names a symbol: two bytes, two bytes, then subframe, slot, symbol and frame ID [7:0]. -/
def detSym (h b2 b3 : Nat) (n : SymName) : List Byte :=
  leBytes 2 h ++ [BitVec.ofNat 8 b2, BitVec.ofNat 8 b3, BitVec.ofNat 8 n.subframe, BitVec.ofNat 8 n.slot,
    BitVec.ofNat 8 n.symbol, BitVec.ofNat 8 n.frame]

/-! ### The image that governs a symbol, slot or occasion (R75) -/

/-- The images that may govern, each with the boundaries its air times lie between. -/
def imageSpans (s : State) : List (Image × Option Instant × Option Instant) :=
  let pb := s.cfg.prev.map fun e => boundaryU e.2
  let ab := s.cfg.armed.map fun e => boundaryU e.2
  (match s.cfg.prev with | some (p, b) => [(p, none, some (boundaryU b))] | none => []) ++ [(s.cfg.live, pb, ab)] ++
    (match s.cfg.armed with | some (a, b) => [(a, some (boundaryU b), none)] | none => [])

/-- An instant lies in a span. -/
def inSpan (e : Image × Option Instant × Option Instant) (t : Instant) : Bool :=
  (match e.2.1 with | some a => decide (a ≤ t) | none => true) && (match e.2.2 with | some b => decide (t < b) | none => true)

/-- A name that a carrier's numerology admits. -/
def symNamed (mu : Nat) (n : SymName) : Bool := decide (n.subframe < 10 ∧ n.slot < 2 ^ mu ∧ n.symbol < 14)

/-- Of the images that give a name a meaning about a boundary, with the air times they give it, oldest first: the first whose air time comes
after that of the last one served and whose own instant, `lead` before or after the air time, is not past; else the newest (DEDUCED, log 114:
a name that two images use is served once for each). -/
def pickNamed (now lead : Instant) (last : Option Instant) (l : List (Image × Instant)) : Option Image :=
  match l.find? fun e => decide (now ≤ e.2 + lead) && last.all fun t => decide (t < e.2) with
  | some e => some e.1
  | none => l.getLast?.map fun e => e.1

/-- Images in which a carrier has a symbol of a name at an air time that the image governs, with that air time. The numerology may differ
on the two sides of a boundary. -/
def symImages (s : State) (ul : Bool) (n : SymName) : List (Image × Instant) :=
  (imageSpans s).filterMap fun e =>
    let air := airOf (ccMu e.1 ul n.carrier) n
    if ccEnabled e.1 ul n.carrier && symNamed (ccMu e.1 ul n.carrier) n && inSpan e air then some (e.1, air) else none

/-- Image that governs the symbol of a name, for a row whose instant lies `lead` after its air time and that served `last`. -/
def symImage (s : State) (ul : Bool) (n : SymName) (lead : Instant) (last : Option Instant) : Option Image :=
  pickNamed (nowU s) lead last (symImages s ul n)

/-- Images in which a carrier has a slot of a count within its frame, with its start. -/
def slotImages (s : State) (ul : Bool) (c frame slot : Nat) : List (Image × Instant) :=
  (imageSpans s).filterMap fun e =>
    let t := slotStart (ccMu e.1 ul c) (slotCountOf (ccMu e.1 ul c) frame slot)
    if ccEnabled e.1 ul c && decide (slot < slotsPerFrame (ccMu e.1 ul c)) && inSpan e t then some (e.1, t) else none

/-- Image whose class carrier names a symbol so: the one that governs its air time, else the live image. -/
def classImage (s : State) (n : SymName) : Image :=
  (((imageSpans s).find? fun e => match classCarrier e.1 with
    | some c => symNamed (ccMu e.1 false c) n && inSpan e (airOf (ccMu e.1 false c) n)
    | none => false).map fun e => e.1).getD s.cfg.live

/-- Numerology of an image's class carrier; 0 with none. -/
def classMu (im : Image) : Nat := match classCarrier im with | some c => ccMu im false c | none => 0

/-! ### Statistics records -/

/-- Read word `w` of record `r` of a `log.read` source. -/
def statGet (src r w : Nat) (s : State) : Nat :=
  tget (if src = 0x10 ∧ w = 12 then 0xFFFFFFFF else 0) s.stat ((src * 1024 + r) * 16 + w)

/-- Write a statistics word. -/
def statPut (src r w v : Nat) (s : State) : State :=
  { s with stat := tset (if src = 0x10 ∧ w = 12 then 0xFFFFFFFF else 0) s.stat ((src * 1024 + r) * 16 + w) v }

/-- Add to a saturating 32-bit statistics word. -/
def statAdd (src r w n : Nat) (s : State) : State := statPut src r w (satAdd 0xFFFFFFFF (statGet src r w s) n) s

end Sys2Proof.Machine
end

