-- ==== Sys2Proof/Machine/Checks.lean ====
section
/-! DEFINITION. The commit checks of Table 3-5 (R77) on a staged image, with the payload rates of R101, R102 and R177 and the
pattern walks of R274. -/

namespace Sys2Proof.Machine

/-- What a failed check reports (Table 3-4). -/
structure CheckFail where
  sec : Nat := 0
  off : Nat := 0
  index : Nat := 0
  value : Nat := 0
  limit : Nat := 0
  deriving DecidableEq, Repr

/-- First failure of a list of indexed verdicts. -/
def firstFail : List (Option CheckFail) → Option CheckFail
  | [] => none
  | some f :: _ => some f
  | none :: r => firstFail r

/-- Fail with a report when a condition is broken. -/
def failIf (bad : Bool) (f : CheckFail) : Option CheckFail := if bad then some f else none

/-- Round a non-negative Hz quantity to kHz. -/
def khz (hz : Int) : Nat := (rhe hz 1000).toNat

/-- Enabled carriers of both directions, DL first. -/
def bothCCs (im : Image) : List (Bool × Nat) :=
  (enabledCCs im false).map (fun c => (false, c)) ++ (enabledCCs im true).map fun c => (true, c)

/-- Extent of a carrier in Hz: its bandwidth centred on its offset (R133). -/
def extentOf (im : Image) (ul : Bool) (c : Nat) : Int × Int :=
  (ccFreq im ul c - ccBw im ul c * 500, ccFreq im ul c + ccBw im ul c * 500)

/-- Span from the lowest to the highest carrier edge of a direction, in Hz, and the carrier of the highest edge. -/
def spanOf (im : Image) (ul : Bool) : Int × Nat :=
  match enabledCCs im ul with
  | [] => (0, 0)
  | c :: cs =>
    let lo := cs.foldl (fun a k => min a (extentOf im ul k).1) (extentOf im ul c).1
    let top := cs.foldl (fun a k => if (extentOf im ul a).2 < (extentOf im ul k).2 then k else a) c
    ((extentOf im ul top).2 - lo, top)

def check2 (im : Image) : Option CheckFail :=
  firstFail ((bothCCs im).map fun (ul, c) =>
    let lim := if ccMu im ul c = 2 then 200000 else 100000
    let bw := ccBw im ul c
    failIf (decide (bw < 5000) || decide (lim < bw)) ⟨ccSec ul, 64 * c + 4, c, bw, lim⟩)

def check3 (im : Image) : Option CheckFail :=
  firstFail ((bothCCs im).map fun (ul, c) =>
    let n := ccN im ul c
    failIf (decide (n ∉ [256, 512, 1024, 2048, 4096]) || decide (n < 12 * ccP im ul c))
      ⟨ccSec ul, 64 * c + 2, c, n, 12 * ccP im ul c⟩)

/-- Check 4. It reports the overlap in kHz with limit 0, at the frequency offset of the lower carrier of the pair (DESIGN CHOICE,
log 98: the table gives the unit alone). -/
def check4 (im : Image) : Option CheckFail :=
  firstFail ((bothCCs im).map fun (ul, c) =>
    let e := extentOf im ul c
    firstFail ((enabledCCs im ul).map fun d =>
      let f := extentOf im ul d
      let ov := min e.2 f.2 - max e.1 f.1
      failIf (decide (d ≠ c) && decide (0 < ov)) ⟨ccSec ul, 64 * c + 12, c, khz ov, 0⟩))

/-- Check 5. It reports the frequency offset of the carrier with the highest edge (DESIGN CHOICE, log 98). -/
def check5 (im : Image) : Option CheckFail :=
  firstFail ([false, true].map fun ul =>
    let sp := spanOf im ul
    failIf (decide (400000000 < sp.1)) ⟨ccSec ul, 64 * sp.2 + 12, b2n ul, khz sp.1, 400000⟩)

/-- Check 6. A flow of a disabled carrier is reported at its carrier field, one of a layer that is not there at its index field, value and limit
0 (DESIGN CHOICE, log 98). -/
def check6 (im : Image) : Option CheckFail :=
  firstFail ((governingFlows im).map fun f =>
    let ul := flowUl f
    if !ccEnabled im ul f.cc then some ⟨4, 16 * f.idx + 3, f.idx, 0, 0⟩
    else failIf ((decide (f.kind = 1) && decide (bfLayers im false ≤ f.index)) ||
        ((decide (f.kind = 2) || decide (f.kind = 4)) && decide (bfLayers im true ≤ f.index)))
      ⟨4, 16 * f.idx + 4, f.idx, 0, 0⟩)

def check7 (im : Image) : Option CheckFail :=
  firstFail ((governingFlows im).map fun f =>
    if 5 < f.kind then none
    else if f.method ≠ 1 ∧ f.method ≠ 2 then some ⟨4, 16 * f.idx + 6, f.idx, f.width, 16⟩
    else failIf (decide (f.width < 6) || decide (16 < f.width)) ⟨4, 16 * f.idx + 7, f.idx, f.width, 16⟩)

def check8 (im : Image) : Option CheckFail :=
  let sp := spanOf im true
  firstFail ((governingFlows im).map fun f =>
    failIf (decide (300000000 < sp.1) && (decide (f.kind = 3) || decide (f.kind = 5)) && decide (f.method = 2))
      ⟨4, 16 * f.idx + 6, f.idx, khz sp.1, 300000⟩)

/-- Check 9. It is reported at the flow's port field, value and limit 0 (DESIGN CHOICE, log 98). -/
def check9 (im : Image) : Option CheckFail :=
  firstFail ((governingFlows im).map fun f =>
    failIf (decide (f.kind ≤ 5) && decide (portCount (portMode im) ≤ f.port)) ⟨4, 16 * f.idx + 5, f.idx, 0, 0⟩)

/-! ### Payload rates (R101, R102, R177) -/

/-- 96 % limit of a mode in bit/s (Table 4-1). -/
def rateLimit (mode : Nat) : Nat :=
  match mode with
  | 1 => 384000000000 | 2 => 192000000000 | 3 => 96000000000 | 4 => 24000000000 | 5 => 96000000000 | _ => 0

/-- Bits of one PRB (or block of 12 resource elements). -/
def prbBits (f : Flow) : Nat := if f.method = 2 then 384 else 24 * f.width + 8

/-- Frames that a payload of `bits` takes at a maximum frame size (R102: D = size − 62). -/
def framesOf (bits size : Nat) : Nat := ceilN (ceilN bits 8) (size - 62)

/-- PRACH blocks of a format (Table 7-5). -/
def prachBlocks (fmt : Nat) : Nat :=
  match fmt with | 1 => 70 | 2 => 70 | 3 => 12 | 4 => 12 | 5 => 12 | 6 => 96 | 7 => 48 | _ => 0

/-- A valid PRACH entry (Table 7-4). -/
structure PrachEntry where
  idx : Nat
  cc : Nat
  occ : Nat
  fmt : Nat
  reps : Nat
  period : Nat
  offset : Nat
  start : Nat
  cp : Nat
  freq : Int
  deriving DecidableEq, Repr

def prachAt (im : Image) (j : Nat) : PrachEntry :=
  let b := 2112 + 64 * j
  ⟨j, cf im 11 (b + 1) 1, cf im 11 (b + 2) 1, cf im 11 (b + 3) 1, cf im 11 (b + 4) 1, cf im 11 (b + 5) 1,
    cf im 11 (b + 6) 1, cf im 11 (b + 8) 4, cf im 11 (b + 12) 4, cfI im 11 (b + 16) 4⟩

def prachEntries (im : Image) : List PrachEntry :=
  ((List.range 32).filter fun j => decide (cf im 11 (2112 + 64 * j) 1 = 1)).map (prachAt im)

/-- Slot of a frame that contains a tick offset, in a numerology. -/
def slotAtTick (mu t : Nat) : Nat :=
  ((List.range (slotsPerFrame mu)).filter fun n => decide (slotOffset mu n ≤ t)).length - 1

/-- Payload and total rate of a flow on its port, in 1/840 bit/s. -/
def flowRate (im : Image) (f : Flow) : Nat × Nat :=
  let size := maxFrame im f.port
  let rate (unit bits : Nat) : Nat × Nat := (unit * bits, unit * (bits + framesOf bits size * 656))
  if f.kind = 4 ∨ f.kind = 5 then
    (((prachEntries im).filter fun e => decide (e.cc = f.cc)).map fun e =>
      rate (84000 / e.period * e.reps) (prachBlocks e.fmt * prbBits f)).foldl (fun a b => (a.1 + b.1, a.2 + b.2)) (0, 0)
  else rate (840 * 14000 * 2 ^ ccMu im (flowUl f) f.cc) (ccP im (flowUl f) f.cc * prbBits f)

/-- Ports that share the weight rate (R101): those with a DL flow, else all ports of the mode. -/
def sharePorts (im : Image) : List Nat :=
  let ps := (List.range (portCount (portMode im))).filter fun p =>
    (governingFlows im).any fun f => decide (f.kind = 1) && decide (f.port = p)
  if ps.isEmpty then List.range (portCount (portMode im)) else ps

/-- Weight rate of one port's share, in 1/840 bit/s: payload and total. -/
def weightShare (im : Image) (p : Nat) : Nat × Nat :=
  let share := sharePorts im
  if p ∉ share then (0, 0)
  else
    ([false, true].flatMap fun ul =>
      if bfSource im ul = 1 then [] else
        (enabledCCs im ul).map fun c =>
          let bits := bfLayers im ul * groupsOf im ul c * 2048
          let k := 840 / share.length * 1000 * 2 ^ ccMu im ul c
          (k * bits, k * (bits + framesOf bits (maxFrame im p) * 656))).foldl
      (fun a b => (a.1 + b.1, a.2 + b.2)) (0, 0)

/-- Payload and total rate of a port in a direction, in 1/840 bit/s. -/
def portRate (im : Image) (ul : Bool) (p : Nat) : Nat × Nat :=
  let fs := (governingFlows im).filter fun f => decide (f.port = p) &&
    (if ul then decide (2 ≤ f.kind ∧ f.kind ≤ 5) else decide (f.kind = 1))
  (fs.map (flowRate im)).foldl (fun a b => (a.1 + b.1, a.2 + b.2)) (if ul then (0, 0) else weightShare im p)

/-- The first offending field of check 10 is taken as the port field of the port's first flow in the direction, else the
mode (DESIGN CHOICE, log 98). -/
def check10 (im : Image) : Option CheckFail :=
  let mode := portMode im
  firstFail ([false, true].flatMap fun ul => (List.range (portCount mode)).map fun p =>
    let t := (portRate im ul p).2
    let fs := (governingFlows im).filter fun f => decide (f.port = p) &&
      (if ul then decide (2 ≤ f.kind ∧ f.kind ≤ 5) else decide (f.kind = 1))
    let site := match fs.head? with | some f => (4, 16 * f.idx + 5) | none => (3, 0)
    failIf (decide (840 * rateLimit mode < t)) ⟨site.1, site.2, p, (rhe t 840).toNat, rateLimit mode⟩)

/-- Check 11. The value is open − close, in two's complement of 64 bits where it is negative (DEDUCED, log 12). -/
def check11 (im : Image) : Option CheckFail :=
  firstFail ((List.range (portCount (portMode im))).map fun p =>
    failIf (decide (winOpen im p < winClose im p + 1))
      ⟨3, 64 + 128 * p + 8, p, wrapN 64 ((winOpen im p : Int) - winClose im p), 1⟩)

/-- Check 12. Its first offending field is taken as the window opening of the port with the largest term (DESIGN CHOICE, log 98). -/
def check12 (im : Image) : Option CheckFail :=
  let ts := (List.range (portCount (portMode im))).map fun p => (p, (winOpen im p - winClose im p) * (portRate im false p).1)
  let tot : Nat := ts.foldl (fun a e => a + e.2) 0
  let top := ts.foldl (fun a e => if a.2 < e.2 then e else a) (0, 0)
  failIf (decide (134217728 * 840000000 < tot)) ⟨3, 64 + 128 * top.1 + 8, top.1, (rhe tot 840000000).toNat, 134217728⟩

def check13 (im : Image) : Option CheckFail :=
  firstFail ([false, true].map fun ul => failIf (decide (32 < bfLayers im ul)) ⟨5, b2n ul, b2n ul, bfLayers im ul, 32⟩)

def check14 (im : Image) : Option CheckFail :=
  firstFail ([false, true].flatMap fun ul => (List.range 4).map fun c =>
    failIf (decide (bfGran im ul c ∉ [1, 2, 4])) ⟨5, (if ul then 12 else 8) + c, c, bfGran im ul c, 4⟩)

def check15 (im : Image) : Option CheckFail :=
  firstFail ([false, true].map fun ul =>
    let v := bfLayers im ul * ((enabledCCs im ul).map (groupsOf im ul)).sum
    failIf (decide (10240 < v)) ⟨5, b2n ul, b2n ul, v, 10240⟩)

/-- Element records as (path, row, column, polarisation). -/
def elementMap (im : Image) : List (Nat × Nat × Nat × Nat × Nat) :=
  (List.range 64).map fun k => (k, cf im 6 (16 * k) 1, cf im 6 (16 * k + 1) 1, cf im 6 (16 * k + 2) 1, cf im 6 (16 * k + 3) 1)

/-- Check 16. A path that no record names is reported at the section's start, one named twice at the second record's path field, an element
taken twice at its row field, value and limit 0 (DESIGN CHOICE, log 98). -/
def check16 (im : Image) : Option CheckFail :=
  let m := elementMap im
  firstFail ((List.range 64).map fun p =>
    match m.filter fun e => decide (e.2.1 = p) with
    | [e] => failIf (m.any fun f => decide (f.1 ≠ e.1) && decide (f.2.2 = e.2.2)) ⟨6, 16 * e.1 + 1, p, 0, 0⟩
    | [] => some ⟨6, 0, p, 0, 0⟩
    | _ :: e :: _ => some ⟨6, 16 * e.1, p, 0, 0⟩)

/-- Adjacency of two elements (R215). -/
def adjacent (a b : Nat × Nat × Nat) : Bool :=
  let dr := (a.1 : Int) - b.1
  let dc := (a.2.1 : Int) - b.2.1
  if a.2.2 = b.2.2 then decide (dr.natAbs ≤ 1) && decide (dc.natAbs ≤ 1) && !(decide (dr = 0) && decide (dc = 0))
  else decide (dr = 0) && decide (dc = 0)

/-- Basis set of a path, 0xFF for bypass, and its neighbours (Table 9-2). -/
def basisSet (im : Image) (p : Nat) : Nat := cf im 7 (1088 + 32 * p) 1
def neighbourCount (im : Image) (p : Nat) : Nat := cf im 7 (1088 + 32 * p + 1) 1
def neighbourAt (im : Image) (p t : Nat) : Nat := cf im 7 (1088 + 32 * p + 2 + t) 1

/-- Term descriptor i of a set: kind, order, signal lag, envelope lag or slot (Table 9-3). -/
def termAt (im : Image) (st k : Nat) : Nat × Nat × Nat × Nat :=
  let b := 64 + 256 * st + 16 + 4 * k
  (cf im 7 b 1, cf im 7 (b + 1) 1, cf im 7 (b + 2) 1, cf im 7 (b + 3) 1)

def termsOf (im : Image) (st : Nat) : List (Nat × Nat × Nat × Nat) := (List.range 48).map (termAt im st)

/-- Check 17. It reports the neighbour as value and the path itself as limit (DESIGN CHOICE, log 98). -/
def check17 (im : Image) : Option CheckFail :=
  firstFail ((List.range 64).map fun p =>
    let n := Nat.min 4 (neighbourCount im p)
    firstFail ((List.range n).map fun t =>
      let q := neighbourAt im p t
      let earlier := (List.range t).any fun t' => decide (neighbourAt im p t' = q)
      failIf (decide (q = p) || earlier || decide (63 < q) || !adjacent (elementOf im p).2 (elementOf im q).2)
        ⟨7, 1088 + 32 * p + 2 + t, p, q, p⟩))

/-- Check 18. Its first offending field is taken as the path's basis-set field (DESIGN CHOICE, log 98). -/
def check18 (im : Image) : Option CheckFail :=
  let counts := (List.range 4).map fun st =>
    let ts := termsOf im st
    ((ts.filter fun t => decide (t.1 = 1)).length, (ts.filter fun t => decide (t.1 = 2)).length)
  firstFail ((List.range 64).map fun p =>
    match counts[basisSet im p]? with
    | none => none
    | some (a, b) => firstFail [failIf (decide (32 < a)) ⟨7, 1088 + 32 * p, p, a, 32⟩,
        failIf (decide (16 < b)) ⟨7, 1088 + 32 * p, p, b, 16⟩,
        failIf (decide (48 < a + b)) ⟨7, 1088 + 32 * p, p, a + b, 48⟩])

/-- Check 19. Its first offending field is taken as the DL weight source of section 0x05 (DESIGN CHOICE, log 98). -/
def check19 (im : Image) : Option CheckFail :=
  failIf (decide (cf im 7 0 1 = 2) && decide (bfSource im false ≠ 1)) ⟨5, 2, 0, 0, 0⟩

/-! ### The TDD pattern -/

/-- Events of a pattern in record order: (time, target, level) (Table 11-8). -/
def tddEvents (im : Image) : List (Nat × Nat × Bool) :=
  (List.range (Nat.min 512 (cf im 9 0 2))).map fun e =>
    let t := cf im 9 (1024 + 4 * e + 3) 1
    (cf im 9 (1024 + 4 * e) 3, t % 64, decide (128 ≤ t))

/-- Of two events of one target, the later; at one time the later record (R271). -/
def laterEvent (a b : Nat × Nat × Bool) : Nat × Nat × Bool := if a.1 ≤ b.1 then b else a

/-- Level a pattern gives a target at a frame offset, repeated cyclically; none where it does not name the target (R271). -/
def levelAt (evs : List (Nat × Nat × Bool)) (target off : Nat) : Option Bool :=
  let mine := evs.filter fun e => decide (e.2.1 = target)
  match mine.filter fun e => decide (e.1 ≤ off) with
  | e :: es => some (es.foldl laterEvent e).2.2
  | [] => match mine with
    | e :: es => some (es.foldl laterEvent e).2.2
    | [] => none

/-- Insert an event into a time-ordered list, after those of the same time. -/
def insertEvent (e : Nat × Nat × Bool) : List (Nat × Nat × Bool) → List (Nat × Nat × Bool)
  | [] => [e]
  | f :: fs => if e.1 < f.1 then e :: f :: fs else f :: insertEvent e fs

/-- A walk of R274: levels of TX and RX enable, when each last fell, the shortest turnaround found, and whether they have
overlapped. -/
structure Walk where
  tx : Bool
  rx : Bool
  txFall : Option Nat := none
  rxFall : Option Nat := none
  best : Option Nat := none
  overlap : Bool := false
  deriving DecidableEq, Repr

def minOpt (a : Option Nat) (b : Nat) : Option Nat := match a with | some x => some (Nat.min x b) | none => some b

/-- One event of the walk; `last` says that no further event has the same time, when overlap is judged. -/
def walkEvent (w : Walk) (e : Nat × Nat × Bool) (last : Bool) : Walk :=
  let w1 :=
    if e.2.1 = 32 then
      if e.2.2 = w.tx then w
      else if e.2.2 then { w with tx := true, best := match w.rxFall with | some f => minOpt w.best (e.1 - f) | none => w.best }
      else { w with tx := false, txFall := some e.1 }
    else if e.2.2 = w.rx then w
    else if e.2.2 then { w with rx := true, best := match w.txFall with | some f => minOpt w.best (e.1 - f) | none => w.best }
    else { w with rx := false, rxFall := some e.1 }
  { w1 with overlap := w1.overlap || (last && w1.tx && w1.rx) }

/-- Walk a time-ordered list of events. -/
def walkAll (w : Walk) : List (Nat × Nat × Bool) → Walk
  | [] => w
  | [e] => walkEvent w e true
  | e :: f :: es => walkAll (walkEvent w e (decide (e.1 ≠ f.1))) (f :: es)

/-- Shortest turnaround of a walk, 0 where the enables overlap, none without a turnaround. -/
def walkResult (w : Walk) : Option Nat := if w.overlap then some 0 else w.best

/-- Enable events of a pattern, falls before rises at one time, in time order. -/
def enableEvents (evs : List (Nat × Nat × Bool)) : List (Nat × Nat × Bool) :=
  let en := evs.filter fun e => decide (e.2.1 = 32) || decide (e.2.1 = 33)
  let eff := en.filter fun e => decide (levelAt en e.2.1 e.1 = some e.2.2)
  let falls := eff.filter fun e => !e.2.2
  let rises := eff.filter fun e => e.2.2
  (falls ++ rises).foldl (fun l e => insertEvent e l) []

/-- Staged walk: one frame cyclically, run twice so that turnarounds across the frame's end count. -/
def stagedWalk (evs : List (Nat × Nat × Bool)) (heldTx heldRx : Bool) : Option Nat :=
  let es := enableEvents evs
  let tx := (levelAt es 32 14745599).getD heldTx
  let rx := (levelAt es 33 14745599).getD heldRx
  walkResult (walkAll { tx := tx, rx := rx, overlap := tx && rx }
    (es ++ es.map fun e => (e.1 + 14745600, e.2.1, e.2.2)))

/-- Crossing walk: live events before B's offset, the levels at B, then the staged events for one frame (R274). -/
def crossWalk (live staged : List (Nat × Nat × Bool)) (off : Nat) (heldTx heldRx : Bool) : Option Nat :=
  let le := enableEvents live
  let se := enableEvents staged
  let atB (t : Nat) (h : Bool) : Bool := (levelAt se t off).getD ((levelAt le t off).getD h)
  let tx := (levelAt le 32 14745599).getD heldTx
  let rx := (levelAt le 33 14745599).getD heldRx
  let marks := [(off, 32, atB 32 heldTx), (off, 33, atB 33 heldRx)]
  let marks' := (marks.filter fun e => !e.2.2) ++ marks.filter fun e => e.2.2
  walkResult (walkAll { tx := tx, rx := rx, overlap := tx && rx }
    ((le.filter fun e => decide (e.1 < off)) ++ marks' ++ (se.filter fun e => decide (off < e.1)) ++
      ((se.filter fun e => decide (e.1 < off)).map fun e => (e.1 + 14745600, e.2.1, e.2.2))))

/-- The lesser of two optional turnarounds. -/
def minTurn (a b : Option Nat) : Option Nat := match a with | some x => minOpt b x | none => b

/-- Check 20 (R266, R274), for a boundary at tick `off` of its frame and the levels the enables hold there. Unequal LOs are reported at
the tile's LO-R field with limit 0, a short turnaround at offset 0 of section 0x09 (DESIGN CHOICE, log 98). -/
def check20 (live im : Image) (off : Nat) (heldTx heldRx : Bool) : Option CheckFail :=
  if isFdd im then
    firstFail ((bothCCs im).map fun (ul, c) =>
      let edge : Int := (ccFreq im ul c).natAbs + ccBw im ul c * 500
      failIf (decide (300000000 < edge)) ⟨ccSec ul, 64 * c + 12, 0, khz edge, 300000⟩)
  else
    let le := tddEvents live
    let se := tddEvents im
    let turn :=
      if isFdd live then stagedWalk se true true
      else
        let ht := (levelAt le 32 off).getD heldTx
        let hr := (levelAt le 33 off).getD heldRx
        minTurn (if tget [] live 9 = tget [] im 9 then none else crossWalk le se off heldTx heldRx) (stagedWalk se ht hr)
    firstFail ((List.range 4).flatMap fun q =>
      let d := ((loFreq im (2 * q) : Int) - loFreq im (2 * q + 1)).natAbs
      [failIf (decide (d ≠ 0)) ⟨10, 16 + 32 * q + 8, q, (rhe d 1000000).toNat, 0⟩,
       match turn with
       | some t => failIf (decide (q = 0) && decide (t < 2212)) ⟨9, 0, 0, (rhe (t * 1000000000) 1474560000).toNat, 1500⟩
       | none => none])

/-- A PRACH entry has an occurrence in frame f. -/
def PrachEntry.occursIn (e : PrachEntry) (f : Nat) : Bool := decide (f % Nat.max 1 e.period = e.offset % Nat.max 1 e.period)

/-- Occasions that entries of one carrier define in a slot of one frame: each valid entry defines one per occurrence (R173). -/
def occasionsIn (mu : Nat) (es : List PrachEntry) (slot frame : Nat) : Nat :=
  (es.filter fun e => decide (slotAtTick mu e.start = slot) && e.occursIn frame).length

/-- Check 21: the frames in which an entry's slot may hold most are those named by the entries' own offsets. Occasions
on a carrier that is not enabled are reported by their number with limit 0 (DESIGN CHOICE, log 98). -/
def check21 (im : Image) : Option CheckFail :=
  let es := prachEntries im
  firstFail ((List.range 4).map fun c =>
    let mine := es.filter fun e => decide (e.cc = c)
    match mine with
    | [] => none
    | e :: _ =>
      if !ccEnabled im true c then some ⟨11, 2112 + 64 * e.idx + 1, c, mine.length, 0⟩
      else firstFail (mine.map fun e =>
        let frames := (mine.map fun f => f.offset).filter fun r => e.occursIn r
        let n := frames.foldl (fun a r => Nat.max a (occasionsIn (ccMu im true c) mine (slotAtTick (ccMu im true c) e.start) r)) 0
        failIf (decide (4 < n)) ⟨11, 2112 + 64 * e.idx + 2, c, n, 4⟩))

/-- Divisor a carrier requires of the quarter (check 22). -/
def quarterDiv (mu : Nat) : Nat := if mu = 0 then 4 else 2

def check22 (live im : Image) (quarter : Nat) : Option CheckFail :=
  firstFail ([false, true].flatMap fun ul => (List.range 4).flatMap fun c => [live, im].map fun v =>
    let d := quarterDiv (ccMu v ul c)
    failIf (ccEnabled v ul c && decide (quarter % d ≠ 0)) ⟨ccSec ul, 64 * c + 1, c, quarter, d⟩)

/-- Check 23. A second carrier is reported at its enable field with the number of carriers, a port mode at the mode field with limit 5, the
others at the field they name (DESIGN CHOICE, log 98). -/
def check23 (im : Image) : Option CheckFail :=
  let dir := [false, true].map fun ul =>
    match enabledCCs im ul with
    | [] => firstFail [failIf (decide (bfSource im ul ≠ 1)) ⟨5, 2 + b2n ul, b2n ul, bfSource im ul, 1⟩,
        failIf (decide (16 < bfLayers im ul)) ⟨5, b2n ul, b2n ul, bfLayers im ul, 16⟩]
    | c :: cs => firstFail [
        (match cs with | d :: _ => some ⟨ccSec ul, 64 * d, b2n ul, cs.length + 1, 1⟩ | [] => none),
        failIf (decide (100000 < ccBw im ul c)) ⟨ccSec ul, 64 * c + 4, b2n ul, ccBw im ul c, 100000⟩,
        failIf (decide (bfSource im ul ≠ 1)) ⟨5, 2 + b2n ul, b2n ul, bfSource im ul, 1⟩,
        failIf (decide (16 < bfLayers im ul)) ⟨5, b2n ul, b2n ul, bfLayers im ul, 16⟩]
  let sets := (List.range 4).map fun st =>
    let nz := (termsOf im st).filter fun t => decide (t.1 ≠ 0)
    (nz.length, decide (8 < nz.length) || nz.any fun t => decide (t.1 ≠ 1) || decide (t.2.2.1 ≠ 0) || decide (t.2.2.2 ≠ 0))
  let dpd := (List.range 64).map fun p =>
    match sets[basisSet im p]? with
    | some (n, bad) => failIf bad ⟨7, 1088 + 32 * p, p, n, 8⟩
    | none => none
  firstFail (dir ++ dpd ++
    [failIf (decide (portMode im ≠ 4 ∧ portMode im ≠ 5)) ⟨3, 0, 0, portMode im, 5⟩])

/-- Checks 2 to 21 in order, with their numbers. -/
def checks2to21 (live im : Image) (off : Nat) (heldTx heldRx : Bool) : List (Nat × Option CheckFail) :=
  [(2, check2 im), (3, check3 im), (4, check4 im), (5, check5 im), (6, check6 im), (7, check7 im), (8, check8 im),
   (9, check9 im), (10, check10 im), (11, check11 im), (12, check12 im), (13, check13 im), (14, check14 im),
   (15, check15 im), (16, check16 im), (17, check17 im), (18, check18 im), (19, check19 im),
   (20, check20 live im off heldTx heldRx), (21, check21 im)]

/-- Checks that answer BUDGET; the others answer MISMATCH. -/
def budgetChecks : List Nat := [5, 8, 10, 12, 13, 15, 18, 23]

/-- First failing check of a numbered list. -/
def firstCheck : List (Nat × Option CheckFail) → Option (Nat × CheckFail)
  | [] => none
  | (n, some f) :: _ => some (n, f)
  | (_, none) :: r => firstCheck r

/-- Boundary for timing = 1: the first quarter at or after `t` that passes check 22. -/
def earliestBoundary (live im : Image) (t : Instant) : Boundary :=
  let needs := [live, im].flatMap fun v => (bothCCs v).map fun (ul, c) => quarterDiv (ccMu v ul c)
  let d : Nat := needs.foldl Nat.max 1 * quarterU
  boundaryAt (ceilDiv t d * d)

end Sys2Proof.Machine
end

