-- ==== Sys2Proof/Machine/Modes.lean ====
section
/-! DEFINITION. Mode and stage encodings, the domain states of Table 14-2, refusal records (R350), pad hold (R349) and the
cancelling of an armed commit (R76). -/

namespace Sys2Proof.Machine

/-- Encoding of a mode (Table 2-10). -/
def modeCode (m : Mode) : Nat :=
  match m with
  | .reset => 0 | .boot => 1 | .bringUp => 2 | .standby => 3 | .listen => 4 | .deepSleep => 5 | .operateTdd => 6
  | .operateFdd => 7 | .calibrate => 8 | .selfTest => 9 | .safeHold => 10 | .thermalLatch => 11

/-- Mode with an encoding. -/
def modeOf (n : Nat) : Mode :=
  match n with
  | 0 => .reset | 1 => .boot | 2 => .bringUp | 3 => .standby | 4 => .listen | 5 => .deepSleep | 6 => .operateTdd
  | 7 => .operateFdd | 8 => .calibrate | 9 => .selfTest | 10 => .safeHold | _ => .thermalLatch

/-- Encoding of a lifecycle stage (Table 2-10, Table 18-1). -/
def stageCode (g : Stage) : Nat :=
  match g with
  | .blank => 0 | .manufacture => 1 | .provisioned => 2 | .field => 3 | .return_ => 4 | .scrapped => 5

/-- Stage decoded from the run of set bits counted upward from bit 0 (R402). -/
def stageOf (b : BitVec 5) : Stage :=
  if !b.getLsbD 0 then .blank else if !b.getLsbD 1 then .manufacture else if !b.getLsbD 2 then .provisioned
  else if !b.getLsbD 3 then .field else if !b.getLsbD 4 then .return_ else .scrapped

/-- Stage bits as they read: each is set when both of its cells are programmed (R402). -/
def stageRead (c : BitVec 10) : BitVec 5 :=
  (List.range 5).foldl (fun a k => if c.getLsbD (2 * k) && c.getLsbD (2 * k + 1) then a ||| BitVec.twoPow 5 k else a) 0

/-- The stage the device is in. -/
def stageNow (s : State) : Stage := stageOf (stageRead s.life.cells)

/-- The OPERATE modes. -/
def isOperate (m : Mode) : Bool := decide (m = .operateTdd) || decide (m = .operateFdd)

/-- Modes in which the chains and the TDD pattern run (R134, R157, R271). -/
def isService (m : Mode) : Bool := isOperate m || decide (m = .bringUp)

/-- Modes in which an access to an Off domain wakes it (R336). -/
def wakesOnDemand (m : Mode) : Bool :=
  match m with
  | .boot => true | .bringUp => true | .standby => true | .operateTdd => true | .operateFdd => true | .calibrate => true
  | .selfTest => true | _ => false

/-- Power domains by index (Table 14-1). -/
def dAO : Nat := 0
def dCTRL : Nat := 1
def dNVM : Nat := 2
def dLINK : Nat := 3
def dTIMING : Nat := 4
def dBF : Nat := 5
def dFD : Nat := 6
def dDUCDDC : Nat := 7
def dDPD : Nat := 8
def dADAPT : Nat := 9
def dHK : Nat := 10
def dLO : Nat := 11
def dTXQ (q : Nat) : Nat := 12 + q
def dRXQ (q : Nat) : Nat := 16 + q

/-- Refuser name of a domain (Table 14-4, reason 8). -/
def domainName (d : Nat) : List Byte :=
  name8 (match d with
    | 0 => "AO" | 1 => "CTRL" | 2 => "NVM" | 3 => "LINK" | 4 => "TIMING" | 5 => "BF" | 6 => "FD" | 7 => "DUCDDC" | 8 => "DPD"
    | 9 => "ADAPT" | 10 => "HK" | 11 => "LO" | 12 => "TXQ0" | 13 => "TXQ1" | 14 => "TXQ2" | 15 => "TXQ3" | 16 => "RXQ0"
    | 17 => "RXQ1" | 18 => "RXQ2" | _ => "RXQ3")

/-- RXQ halves that hold a path of an energy mask (Table 14-2, note 2). -/
def rxqOf (mask : Nat) : Nat := ((List.range 4).map fun q => if bits mask (16 * q) 16 = 0 then 0 else 2 ^ (16 + q)).sum

/-- Domains On or Part in a mode by Table 14-2; note 2's RX halves come with the energy path mask, a test's with the
SELF-TEST row's domains, all taken as needed (log 13). CTRL's note 4 is applied by `fed`. -/
def domainMask (m : Mode) (energyMask : Nat) : BitVec 20 :=
  match m with
  | .reset => 0x00001
  | .boot => 0x00417
  | .bringUp => 0xFFDFB
  | .standby => 0x0041B
  | .listen => 0x00813 ||| BitVec.ofNat 20 (rxqOf energyMask)
  | .deepSleep => 0x00011
  | .operateTdd => 0xFFFFB
  | .operateFdd => 0xFFFFB
  | .calibrate => 0xFFFFF
  | .selfTest => 0xFFFFB
  | .safeHold => 0x0041B
  | .thermalLatch => 0x00013

/-- BRING-UP without RF, on the FRC: LO, TXQ and RXQ stay off in it (R424). -/
def withoutRf (s : State) (m : Mode) : Bool := decide (m = .bringUp) && decide (s.clk.active = 3)

/-- Domains the mode holds On or Part, with the settings of the last request for a low-power mode. -/
def modeDomains (s : State) (m : Mode) : BitVec 20 :=
  domainMask m s.pwr.wake.energyMask &&& (if withoutRf s m then 0x007FF else 0xFFFFF)

/-- Whether the oscillators have settled: the mode of row 2 of Table 14-3, if they have. -/
def settledMode (s : State) : Option Mode :=
  if s.clk.active ≠ 3 then (if s.clk.plls.getLsbD 1 && s.clk.plls.getLsbD 2 then some .standby else none)
  else if tget 0 s.clk.osc 0 = 1 ∨ tget 0 s.clk.osc 1 = 1 then none else some .bringUp

/-- Domains held now: those of the mode, and in BOOT from Aethiq's start those of the mode that firmware boots into (R424). -/
def heldDomains (s : State) : BitVec 20 :=
  modeDomains s s.pwr.mode |||
    (if s.pwr.mode = .boot ∧ s.boot.started then modeDomains s ((settledMode s).getD .standby) else 0)

/-! ### Regulators (R344) -/

/-- Regulators of the map in force that feed a domain, with regulator 0 for CTRL where no map is valid (note 4). -/
def regsFeeding (s : State) (d : Nat) : List Nat :=
  match s.pwr.map with
  | none => if d = 1 then [0] else []
  | some rs => (List.range 8).filter fun k => match rs[k]? with | some r => r.mask.testBit d | none => false

/-- Domain mask of regulator k; with no map regulator 0 feeds CTRL (note 4). -/
def regMask (s : State) (k : Nat) : Nat :=
  match s.pwr.map with
  | none => if k = 0 then 2 else 0
  | some rs => match rs[k]? with | some r => r.mask | none => 0

/-- A regulator is raised and its power-good is good. -/
def regGood (s : State) (k : Nat) : Bool := s.pwr.en.getLsbD k && s.pwr.pg.getLsbD k


/-- PWR_EN as the map wants it with domains `on`: regulators that feed one of them or are kept (R344). Without a map every
enable is raised at boot, once the map has been looked for (R422), and never released. -/
def enablesFor (s : State) (on : BitVec 20) : BitVec 8 :=
  match s.pwr.map with
  | none => if s.boot.romDone then 0xFF else 1
  | some rs => (List.range 8).foldl (fun a k =>
      match rs[k]? with
      | some r => if r.mask ≠ 0 ∧ (r.keep ∨ (BitVec.ofNat 20 r.mask &&& on) ≠ 0) then a ||| BitVec.twoPow 8 k else a
      | none => a) 0

/-- A raised regulator whose power-good is awaited: not good, and feeding a domain that no lost power-good holds off. -/
def awaited (s : State) (k : Nat) : Bool :=
  s.pwr.en.getLsbD k && !s.pwr.pg.getLsbD k && decide ((BitVec.ofNat 20 (regMask s k) &&& ~~~s.pwr.heldOff) ≠ 0)

/-- Raise the next wanted regulator in ascending order, once no raised one is awaited (R344); without a map, all at once. -/
def raiseNext (want : BitVec 8) (s : State) : State :=
  if s.pwr.map.isNone then { s with pwr := { s.pwr with en := s.pwr.en ||| want } }
  else if (List.range 8).any (awaited s) then s
  else match (List.range 8).find? fun k => want.getLsbD k && !s.pwr.en.getLsbD k with
    | some k => { s with pwr := { s.pwr with en := s.pwr.en ||| BitVec.twoPow 8 k } }
    | none => s

/-- Domains whose wake on demand is under way or done. -/
def demandMask (s : State) : BitVec 20 := s.pwr.demand.foldl (fun a e => a ||| BitVec.twoPow 20 e.1) 0

/-! ### Refusal records (R350) -/

/-- Refusal name of a regulator. -/
def pmicName (k : Nat) : List Byte := (ascii "PMIC_PG" ++ [BitVec.ofNat 8 (48 + k % 8)]).take 8

/-- A refusal is recorded, counted and raised as EV_PWR_REFUSAL. Record numbers begin at 0 and record n takes slot n mod 32
(DEDUCED, log 14). -/
def recordRefusal (target reason : Nat) (name : List Byte) (s : State) : State :=
  let num := s.pwr.refTotal
  let ms := (nowU s / msU).toNat % 2 ^ 32
  let s1 := { s with pwr := { s.pwr with
    refs := tset {} s.pwr.refs (num % 32) ⟨name, target, reason, num, ms⟩, refIndex := num % 32, refTotal := (num + 1) % 2 ^ 16,
    refCount := tset 0 s.pwr.refCount target (satAdd 0xFFFFFFFF (tget 0 s.pwr.refCount target) 1) } }
  raise 160 (detH target reason num (leNat (name.take 4))) s1

/-! ### Pad hold (R349) -/

/-- Pad groups whose owning domain is `d`: groups q and 4 + q of TXQq, groups 8 to 11 of HK. -/
def padGroups (d : Nat) : BitVec 12 :=
  if 12 ≤ d ∧ d < 16 then BitVec.twoPow 12 (d - 12) ||| BitVec.twoPow 12 (d - 8)
  else if d = 10 then 0xF00 else 0

/-- Owning domain of a pad group. -/
def padOwner (g : Nat) : Nat := if g < 4 then 12 + g else if g < 8 then 8 + g else 10

/-- Groups held when the domains of `off` are switched off. -/
def padsOfOff (off : BitVec 20) : BitVec 12 :=
  (List.range 20).foldl (fun a d => if off.getLsbD d then a ||| padGroups d else a) 0

/-- Release pad groups whose owning domain is powered; the others stay held and are noted refused (R61). -/
def releasePads (groups : BitVec 12) (s : State) : State :=
  let good := (List.range 12).foldl (fun (a : BitVec 12) g =>
    if groups.getLsbD g && s.pwr.on.getLsbD (padOwner g) then a ||| BitVec.twoPow 12 g else a) 0
  { s with em := { s.em with held := s.em.held &&& ~~~good, refused := s.em.refused ||| (groups &&& ~~~good) } }

/-! ### Wake on demand (R336) -/

/-- Domains come on; the front-end pins of a TX half are driven from its first power-up on (R421). -/
def comeOn (new : BitVec 20) (s : State) : State :=
  { s with pwr := { s.pwr with on := s.pwr.on ||| new, ready := s.pwr.ready ||| new },
           em := { s.em with powered := s.em.powered ||| BitVec.ofNat 4 (new.toNat / 2 ^ 12) } }

/-- The regulators that feed a domain are good (R339). -/
def fed (s : State) (d : Nat) : Bool := (regsFeeding s d).all fun k => regGood s k

/-- Domain of an LBIST partition (Table 18-7). -/
def partitionDomain (k : Nat) : Nat :=
  if k < 48 then 3 else if k < 120 then 5 else if k < 160 then 6 else if k < 200 then 7 else if k < 264 then 8
  else if k < 296 then 9 else if k < 304 then 10 else if k < 308 then 2 else if k < 316 then 11
  else if k < 364 then 12 + (k - 316) / 12 else 16 + (k - 364) / 9

/-- Slices of a test request: partition, first window, window count (Table 18-9). -/
def testSlices (req : List Byte) : List (Nat × Nat × Nat) :=
  (List.range (u req 6 2)).map fun k => (u req (40 + 4 * k) 2, u req (42 + 4 * k) 1, u req (43 + 4 * k) 1)

/-- Windows that a slice's budget lets complete, at 175.12 µs each (R411, R412). -/
def budgetWindows (req : List Byte) : Nat := (if u req 4 2 = 0xFFFF then 200 else u req 4 2) * 100 / 17512

/-- Outcome of a slice within its count and budget: windows completed, and of those the first whose signature differs (R412). -/
def sliceOutcome (req : List Byte) (e : Nat × Nat × Nat) (x : SliceResult) : SliceResult :=
  let n := Nat.min x.completed (Nat.min e.2.2 (budgetWindows req))
  ⟨n, x.firstFailing.filter fun f => decide (e.2.1 ≤ f ∧ f < e.2.1 + n)⟩

/-- Verdict of a slice (R412): 2 FAIL, 3 INCOMPLETE, 1 PASS, in this order; the pattern counter has come to 64 for each completed window. -/
def sliceVerdict (count : Nat) (r : SliceResult) : Nat :=
  if r.firstFailing.isSome then 2 else if 64 * r.completed < 64 * count then 3 else 1

/-- Outcomes of the slices of a request, one not reached having completed no window. -/
def sliceOutcomes (req : List Byte) (r : TestResult) : List ((Nat × Nat × Nat) × SliceResult) :=
  ((List.range (testSlices req).length).zip (testSlices req)).map fun e => (e.2, sliceOutcome req e.2 ((r.slices[e.1]?).getD ⟨0, none⟩))

/-- Verdict and measured level of a path: within 3 dB of the factory value, and its second value within the limit (Table 18-8); one that the
result does not name is INCOMPLETE. -/
def levelItem (good : Int → Bool) (l : List (Nat × Int × Int)) (k : Nat) : Nat × Int :=
  match l.find? fun e => decide (e.1 = k) with
  | some (_, v, x) => (if v.natAbs ≤ 300 ∧ good x then 1 else 2, v)
  | none => (3, 0)

/-- TX-to-ORx loopback: tone-to-spur ratio of at least 50 dB. -/
def txItem (r : TestResult) (k : Nat) : Nat × Int := levelItem (fun x => decide (5000 ≤ x)) r.txLoop k

/-- RX test tone: image of −50 dBc at most. -/
def rxItem (r : TestResult) (k : Nat) : Nat × Int := levelItem (fun x => decide (x ≤ -5000)) r.rxTone k

/-- Bridge loopback: no word in error in either direction; the value is their number. -/
def bridgeItem (r : TestResult) (q : Nat) : Nat × Int :=
  match r.bridge.find? fun e => decide (e.1 = q) with
  | some (_, a, b) => (if a + b = 0 then 1 else 2, ((a + b : Nat) : Int))
  | none => (3, 0)

/-- Nominal voltage in µV of a reference channel (Tables 12-9, 20-2), and its tolerance in percent (Table 18-8). -/
def refLimit (c : Nat) : Int × Nat :=
  if c = 96 ∨ c = 98 then (750000, 5) else if c = 97 then (800000, 5) else if c = 99 then (1800000, 5)
  else if c = 100 then (900000, 5) else if c = 101 then (1200000, 5) else if c < 106 ∨ c = 110 then (1000000, 5)
  else if c < 110 then (1800000, 5) else if c = 112 then (5500000, 5) else if c = 113 then (-5500000, 5)
  else if c = 127 then (500000, 3) else (Config.refNominal c, if c = 116 ∨ c = 117 ∨ (122 ≤ c ∧ c ≤ 125) then 3 else 5)

/-- Reference and bandgap checks: within the tolerance of the nominal voltage, ground within 5 mV. -/
def refItem (r : TestResult) (c : Nat) : Nat × Int :=
  match r.refs.find? fun e => decide (e.1 = c) with
  | some (_, v) =>
    let (n, pct) := refLimit c
    (if (if c = 126 then decide (v.natAbs ≤ 5000) else decide ((v - n).natAbs * 100 ≤ pct * n.natAbs)) then 1 else 2, v)
  | none => (3, 0)

/-- Verdict over several items (R416). -/
def overall (vs : List Nat) : Nat := if 2 ∈ vs then 2 else if 3 ∈ vs then 3 else 1

/-- Set bits of a mask below n. -/
def bitList (m n : Nat) : List Nat := (List.range n).filter fun k => m.testBit k

/-- Items of test k of a request: number, verdict, value of EV_TEST_FAIL. -/
def testItems (req : List Byte) (r : TestResult) (k : Nat) : List (Nat × Nat × Int) :=
  match k with
  | 0 => if r.lbist = [] then [(0, if r.lbistDone then 1 else 3, 0)] else r.lbist.map fun e => (e.1, 2, (e.2 : Int))
  | 1 => (sliceOutcomes req r).map fun e => (e.1.1, sliceVerdict e.1.2.2 e.2, ((e.2.firstFailing.getD 255 : Nat) : Int))
  | 2 => (bitList (u req 8 8) 64).map fun p => (p, txItem r p)
  | 3 => (bitList (u req 16 8) 64).map fun p => (p, rxItem r p)
  | 4 => (bitList (u req 24 1) 4).map fun q => (q, bridgeItem r q)
  | _ => (List.range 32).map fun c => (96 + c, refItem r (96 + c))

/-- Verdict of test k: 0 where the request does not name it. -/
def testVerdict (req : List Byte) (r : TestResult) (k : Nat) : Nat :=
  if (u req 2 2).testBit k then overall ((testItems req r k).map fun e => e.2.1) else 0

/-- The six verdicts; a run that was stopped before every item was decided is not a PASS. -/
def testVerdicts (cut : Bool) (req : List Byte) (r : TestResult) : List Nat :=
  let vs := (List.range 6).map (testVerdict req r)
  if cut && overall vs = 1 then vs.map fun v => if v = 0 then 0 else 3 else vs

/-- The 1,084-byte result block (R416). -/
def testBlock (cut : Bool) (req : List Byte) (r : TestResult) (s : State) : List Byte :=
  let slices := (List.range 64).flatMap fun k =>
    match (sliceOutcomes req r)[k]? with
    | some ((part, w, n), x) => leBytes 2 part ++ leBytes 1 w ++ leBytes 1 x.completed ++ leBytes 1 (sliceVerdict n x) ++
        leBytes 1 (x.firstFailing.getD 255) ++ [0, 0]
    | none => zeros 8
  let paths (o : Nat) (item : Nat → Nat × Int) := (List.range 64).flatMap fun p =>
    if (u req o 8).testBit p then leBytes 1 (item p).1 ++ leI 2 (item p).2 ++ [0] else zeros 4
  ((testVerdicts cut req r).flatMap fun v => leBytes 1 v) ++ [0, 0] ++ leI 8 (secOf (nowU s)) ++ leBytes 4 (nsOf (nowU s)) ++
    zeros 4 ++ slices ++ paths 8 (txItem r) ++ paths 16 (rxItem r) ++
    ((List.range 4).flatMap fun q => if (u req 24 1).testBit q then leBytes 1 (bridgeItem r q).1 else [0]) ++
    (List.range 32).flatMap fun c => if (u req 2 2).testBit 5 then leBytes 1 (refItem r (96 + c)).1 else [0]

/-- Domains that the slices of a run in STANDBY have isolated for test (R411). -/
def testDomains (s : State) : BitVec 20 :=
  match s.test.run with
  | some req => if u req 1 1 = 0 then (testSlices req).foldl (fun a e => a ||| BitVec.twoPow 20 (partitionDomain e.1)) 0 else 0
  | none => 0

/-- A test request ends (R416, R417): the block, EV_TEST_FAIL for each failing item, EV_TEST_DONE and the final response;
without `answer` the response and its events are lost (R413). -/
def endTest (cut answer : Bool) (r : TestResult) (s : State) : State :=
  match s.test.run with
  | none => s
  | some req =>
    let b := testBlock cut req r s
    let s1 := { s with test := { s.test with run := none, block := b },
                       pwr := { s.pwr with ready := s.pwr.ready ||| (testDomains s &&& s.pwr.on) } }
    let failing := (bitList (u req 2 2) 6).flatMap fun k => ((testItems req r k).filter fun e => decide (e.2.1 = 2)).map fun e => (k, e)
    let o := overall (testVerdicts cut req r)
    if !answer then s1
    else
      let s2 := failing.foldl (fun t e => raise 225 (detH e.1 0 e.2.1 (arg32 e.2.2.2)) t) s1
      let s3 := raise 224 (detH o (u req 2 1) failing.length (usSince s.test.start s)) s2
      finishLong .testRun (if o = 1 then 0 else if o = 2 then stRefused else stIncomplete) (if o = 2 then 3 else 0) b s3

/-- What a run that stops in its slice `i` has found: that slice has not completed, and nothing after it has run (R413). -/
def cutResult (req : List Byte) (i : Nat) (r : TestResult) : TestResult :=
  let sl := testSlices req
  if sl.length ≤ i then r
  else
    let kept (j : Nat) (e : Nat × Nat × Nat) : SliceResult :=
      let x := (r.slices[j]?).getD ⟨0, none⟩
      if j < i then x else if j = i then { x with completed := Nat.min x.completed (e.2.2 - 1) } else ⟨0, none⟩
    { r with slices := ((List.range sl.length).zip sl).map (fun e => kept e.1 e.2), txLoop := [], rxTone := [], bridge := [], refs := [] }

/-- The slice that runs now, which no rule tells: any of the request, or past them all where other tests follow (log 118). -/
def runningSlice (req : List Byte) (s : State) : Nat × State :=
  let (f, s1) := takeFree s
  (f % Nat.max 1 ((testSlices req).length + b2n (decide (bits (u req 2 2) 2 4 ≠ 0))), s1)

/-- A running test request stops in its slice `i`; what it had found is free (R413). -/
def stopTestAt (answer : Bool) (req : List Byte) (i : Nat) (s : State) : State :=
  endTest true answer (cutResult req i (Config.testSoFar s.fresh)) { s with fresh := s.fresh + 1 }

/-- A running test request stops (R413). -/
def stopTest (answer : Bool) (s : State) : State :=
  match s.test.run with
  | none => s
  | some req =>
    let (i, s1) := runningSlice req s
    stopTestAt answer req i s1

/-- A wake on demand of the domain under test stops a run in STANDBY (R413). -/
def stopTestOn (d : Nat) (s : State) : State :=
  match s.test.run with
  | none => s
  | some req =>
    if (testDomains s).getLsbD d then
      let (i, s1) := runningSlice req s
      if ((testSlices req)[i]?).map (fun e => partitionDomain e.1) = some d then stopTestAt true req i s1 else s1
    else s

/-- An access wakes domain `d` (R336): the mode wakes on demand, and nothing keeps the domain off. -/
def wakes (d : Nat) (s : State) : Bool :=
  wakesOnDemand s.pwr.mode && !s.pwr.heldOff.getLsbD d && decide (stageNow s ≠ .scrapped) &&
    !(withoutRf s s.pwr.mode && decide (11 ≤ d))

/-- An access to domain `d`: the state in which it proceeds, or none where it stalls or fails. A domain that the access wakes
and whose regulators are good is taken to be ready within its bound (the row WAKE_STALL_TIMEOUT is the other outcome, log
15); the raw value of the last access is kept, plus 1, while the domain is on by demand. -/
def accessDomain (d : Nat) (s : State) : Option State :=
  let byDemand := !(heldDomains s).getLsbD d
  if s.pwr.ready.getLsbD d && !(testDomains s).getLsbD d then
    some (if byDemand then { s with pwr := { s.pwr with demand := tset 0 s.pwr.demand d (s.tm.raw + 1) } } else s)
  else if wakes d s && fed s d then
    some (stopTestOn d (comeOn (BitVec.twoPow 20 d) { s with pwr := { s.pwr with demand := tset 0 s.pwr.demand d (s.tm.raw + 1) } }))
  else none

/-- The wake of domain `d` begins: its regulators are raised, and it comes on when they are good (R339, R344). -/
def wakeDomain (d : Nat) (s : State) : State :=
  let s1 := { s with pwr := { s.pwr with demand := tset 0 s.pwr.demand d (s.tm.raw + 1) } }
  raiseNext (enablesFor s1 (s1.pwr.on ||| heldDomains s1 ||| demandMask s1)) s1

/-- A failed access raises EV_WAKE_STALL_TIMEOUT: requester 1 PCIe, 2 SPI, 3 message, 4 datapath. A wake that it began goes on. -/
def failAccess (d requester info : Nat) (s : State) : State :=
  let s1 := raise 162 (det d requester 0 0 info) s
  if !s.pwr.ready.getLsbD d && wakes d s then wakeDomain d s1 else s1

/-- An access to domain `d` (R336): it proceeds as `k` says; or it stalls while the regulators of the domain it wakes are raised, and occurs
again once the domain is ready or fails with WAKE_STALL_TIMEOUT (log 15); or it fails at once. -/
def tryDomain (d : Nat) (s : State) (k fail : State → State) : State :=
  match accessDomain d s with
  | some s1 => k s1
  | none => if wakes d s then wakeDomain d s else fail s

/-- A message step that needs domain `d` (R336): TIMEOUT with the domain index where the access fails. -/
def onDomain (d : Nat) (a : Asker) (s : State) (k : State → Reply) : Reply :=
  match accessDomain d s with
  | some s1 => k s1
  | none => if wakes d s then stalled (wakeDomain d s) else err stTimeout d (failAccess d 3 a.hdr.opcode s)

/-! ### Armed commit (R76) -/

/-- An entry into SAFE-HOLD or THERMAL-LATCH is in flight: its forcing begins at the decision (R272). -/
def protectiveEntry (s : State) : Bool := match s.pwr.trans with | some t => decide (t.cause = 3) | none => false

/-! ### Leases (R391) -/

def leaseOf (s : State) (e : Nat) : Lease := tget {} s.ls.entry e

def setLease (e : Nat) (l : Lease) (s : State) : State := { s with ls := { s.ls with entry := tset {} s.ls.entry e l } }

/-- Maximum hold in ms (Table 17-3). -/
def leaseMax (e : Nat) : Nat :=
  if e = 0 then 5 else if e = 1 then 20 else if e ≤ 10 then 50 else if e ≤ 15 then 1 else 10

/-- Domain that holds the leased resource (Table 17-3). -/
def leaseDomain (e : Nat) : Nat :=
  if e = 0 then 2 else if e = 1 then 5 else if e = 2 then 9 else if e ≤ 10 then 12 + (e - 3) / 2 else if e = 11 then 10
  else if e ≤ 15 then 12 + (e - 12) else 1

/-- A lease that becomes free at a raw value, and is granted to the next waiting request (R391). -/
def passOn (raw : Nat) (l : Lease) : Lease :=
  match l.wait with
  | [] => { l with holder := 0, granted := 0, free := none }
  | h :: hs => { l with holder := h, granted := raw, wait := hs, free := none }

/-- A lease as it stands now: a stretched release takes effect at its time (R396). -/
def leaseNow (s : State) (e : Nat) : Lease :=
  let l := leaseOf s e
  match l.free with
  | some t => if t ≤ s.tm.raw then passOn t l else l
  | none => l

/-- Hold so far in µs. -/
def heldUs (s : State) (e : Nat) : Nat := usSince (leaseNow s e).granted s

/-- Hold time left in µs; 0 where not held. -/
def leaseLeft (s : State) (e : Nat) : Nat :=
  if (leaseNow s e).holder = 0 then 0 else leaseMax e * 1000 - heldUs s e

/-- Request a lease: granted when free, unchanged for its holder, else queued (R391). A holder whose release is being stretched has given it
up. -/
def requestLease (e h : Nat) (s : State) : State :=
  let l := leaseNow s e
  if l.holder = 0 then setLease e { l with holder := h, granted := s.tm.raw } s
  else if (l.holder = h ∧ l.free.isNone) ∨ h ∈ l.wait then s
  else setLease e { l with wait := l.wait ++ [h] } s

/-- One step of the Rocker's LFSR, polynomial x^32 + x^22 + x^2 + x + 1 (R396), shifted toward its high end (DESIGN CHOICE, log 65). -/
def lfsrStep (v : Nat) : Nat := (2 * v + (bits v 31 1 + bits v 21 1 + bits v 1 1 + bits v 0 1) % 2) % 2 ^ 32

/-- A value from 0 to a field's value, drawn from the LFSR; with seed 0 the field's value (R396). -/
def rockerDraw (field : Nat) (s : State) : Nat × State :=
  if s.rk.lfsr = 0 then (field, s)
  else
    let v := lfsrStep s.rk.lfsr
    (Config.rockerDraw v field % (field + 1), { s with rk := { s.rk with lfsr := v } })

/-- Raw value until which `ROCKER_LEASE` stretches a release of lease e, where it does: by a drawn percentage of the maximum hold, and to 1 µs
before that at most (R396). -/
def stretched (e : Nat) (s : State) : Option Nat × State :=
  let field := tget 0 s.rk.reg 5
  if tget 0 s.rk.reg 0 = 0 ∨ field = 0 then (none, s)
  else
    let (v, s1) := rockerDraw field s
    let t := Nat.min (s.tm.raw + usTicks (leaseMax e * 10 * v)) ((leaseNow s e).granted + usTicks (leaseMax e * 1000 - 1))
    (if s.tm.raw < t then some t else none, s1)

/-- The holder gives the resource up: it is free, and granted to the next waiting request, at once or when its stretched release ends (R391,
R396). -/
def releaseLease (e : Nat) (s : State) : State :=
  let l := leaseNow s e
  if l.free.isSome then s
  else match stretched e s with
    | (some t, s1) => setLease e { l with free := some t } s1
    | (none, s1) => setLease e (passOn s.tm.raw l) s1

/-! ### Cancelling an armed commit -/

/-- Cancel an armed commit: the staged image equals the live image, the stage count is 0, the banks held
for the armed epoch are discarded (R221), the RFFE programs still to run give their leases up, the outcome is recorded. -/
def cancelArmed (outcome : Nat) (s : State) : State :=
  match s.cfg.armed with
  | none => s
  | some _ =>
    s.rf.rffe.foldl (fun t q => releaseLease (12 + q) t) { s with
      cfg := { s.cfg with armed := none, staged := s.cfg.live, count := 0, outcome := outcome, lastCheck := 0 },
      lin := { s.lin with armedBanks := [] }, rf := { s.rf with rffe := [] } }

end Sys2Proof.Machine
end

