-- ==== Sys2Proof/Machine/Rffe.lean ====
section
/-! DEFINITION. RFFE programs as the image holds them (R276), their errors (R278), and the bridge's parity failures (R16). -/

namespace Sys2Proof.Machine

/-- A word that failed parity on the bridge of a tile (R16): counted per tile and direction. -/
def bridgeCount (ul : Bool) (tile : Nat) (s : State) : State :=
  let key := tile * 2 + b2n ul
  { s with rf := { s.rf with parity := tset 0 s.rf.parity key (satAdd 0xFFFFFFFF (tget 0 s.rf.parity key) 1) } }

/-- EV_BRIDGE_PARITY (Table 11-12); `kind` 1 sample, 2 ORx, 3 control. -/
def bridgeEvent (ul : Bool) (tile kind : Nat) (s : State) : State :=
  raise 112 (det tile (if ul then 2 else 1) kind 0 (tget 0 s.rf.parity (tile * 2 + b2n ul))) s

/-- A sample word of a path failed parity (R16, R151, R168): it is delivered as zero, and counted for the path too. -/
def bridgeFail (ul : Bool) (p : Nat) (s : State) : State :=
  bridgeEvent ul (p / 16) 1 (statAdd (if ul then 0x12 else 0x11) p (if ul then 3 else 5) 1 (bridgeCount ul (p / 16) s))

/-- An ORx word of a tile failed parity (R16). -/
def orxFail (tile : Nat) (s : State) : State := bridgeEvent true tile 2 (bridgeCount true tile s)

/-- A control word toward a tile failed parity `n` times in a row (R16): each failure is counted, and the third raises the event and
ends the transaction. That only the third raises it is DEDUCED (log 96). -/
def controlFails (tile n : Nat) (s : State) : State :=
  let s1 := (List.range (Nat.min 3 n)).foldl (fun t _ => bridgeCount false tile t) s
  if 3 ≤ n then bridgeEvent false tile 3 s1 else s1

/-- An RFFE entry (Table 11-9). -/
structure RffeEntry where
  index : Nat
  usid : Nat
  command : Nat
  address : Nat
  data : Nat
  verify : Bool
  deriving DecidableEq, Repr

/-- Valid entries of an image that name a bus, in ascending index. -/
def rffeEntries (im : Image) (bus : Nat) : List RffeEntry :=
  (List.range 120).filterMap fun e =>
    let b := 1088 + 8 * e
    if cf im 12 b 1 = 1 ∧ cf im 12 (b + 1) 1 = bus then
      some ⟨e, cf im 12 (b + 2) 1, cf im 12 (b + 3) 1, cf im 12 (b + 4) 2, cf im 12 (b + 6) 1, decide (cf im 12 (b + 7) 1 = 1)⟩
    else none

/-- EV_RFFE_ERROR (Table 11-12). -/
def rffeError (bus cause : Nat) (e : RffeEntry) (read : Nat) (s : State) : State :=
  raise 114 (det bus e.index cause e.usid (e.address % 65536 + 65536 * e.data + 16777216 * (read % 256))) s

/-- Entries are skipped: counted each, and one event that names the first. -/
def rffeSkipAll (bus cause : Nat) (es : List RffeEntry) (s : State) : State :=
  match es with
  | [] => s
  | e :: _ => rffeError bus cause e 0 (statAdd 0x1B bus 3 es.length s)

/-- The RFFE lease of a bus is revoked: what its program has not issued is skipped, cause 4 (R278). -/
def rffeRevoked (bus : Nat) (s : State) : State :=
  match s.cfg.armed with
  | none => s
  | some (im, _) =>
    if bus ∈ s.rf.rffe then
      rffeSkipAll bus 4 (rffeEntries im bus) { s with rf := { s.rf with rffe := s.rf.rffe.filter fun q => decide (q ≠ bus) } }
    else s

/-- RFFE part of an image (R276). -/
def rffePart (im : Image) : List Byte := imgBytes im 12 1024 1024

/-- Buses whose program a commit runs: those enabled in the new image, where the RFFE part changes (R276). -/
def rffeBuses (old new : Image) : List Nat :=
  if (tget [] old 12).filter (fun e => decide (1024 ≤ e.1)) = (tget [] new 12).filter (fun e => decide (1024 ≤ e.1)) then []
  else (List.range 4).filter fun q => decide (cf new 12 (1024 + 16 * q) 1 = 1)

end Sys2Proof.Machine
end

