-- ==== Sys2Proof/Machine/Conversion.lean ====
section
/-! DEFINITION. The HK converters (R294, R297, R298) and their urgent conversions (R300). -/

namespace Sys2Proof.Machine

def slotOf (s : State) (n : Nat) : HkSlot := tget {} s.hk.slot n
def convOf (s : State) (c : Nat) : Conv := tget {} s.hk.conv c
def setConv (c : Nat) (v : Conv) (s : State) : State := { s with hk := { s.hk with conv := tset {} s.hk.conv c v } }
def resultOf (s : State) (n : Nat) : HkResult := tget {} s.hk.result n
def windowOf (s : State) (n : Nat) : Window := tget {} s.hk.window n

/-- Invalid conversions that follow a switch (R298). -/
def invalidAfter (prev : Option (Nat × Nat × Nat)) (ch sub gain : Nat) : Nat :=
  match prev with
  | none => 0
  | some (c, b, g) => if g ≠ gain then 2 else if c ≠ ch ∨ b ≠ sub then 1 else 0

/-- A converter that is free and whose start-up has ended takes up the front of its queue (R297). -/
def settleConv (c : Nat) (s : State) : State :=
  let v := convOf s c
  match v.queue with
  | [] => s
  | (_, n) :: q =>
    if v.running.isNone && v.orphan.isNone && decide (v.since < nowU s) then
      setConv c { v with queue := q, running := some n, sum := 0, taken := 0, spoiled := false,
                         invalidLeft := invalidAfter v.prev (slotOf s n).channel (slotOf s n).sub (slotOf s n).gain } s
    else s

/-- Start-up of a converter: 1.2 µs from now where it is powered down (R297). -/
def wakeConv (s : State) (v : Conv) : Conv :=
  if v.powered then (if v.running.isNone && v.orphan.isNone && v.queue.isEmpty then { v with since := max v.since (nowU s) } else v)
  else { v with powered := true, since := nowU s + (1200 * nsU : Nat) }

/-- What an urgent request does to the conversion that runs: it is aborted, counted for its slot, and restarts after the switch back from
`last`, with the invalid conversions that this takes (R298, R300). -/
def abortRunning (c : Nat) (last : Nat × Nat × Nat) (s : State) : State :=
  let v := convOf s c
  match v.running, v.orphan with
  | some n, _ =>
    let x := slotOf s n
    statAdd 0x1C n 2 1 (setConv c { v with invalidLeft := invalidAfter (some last) x.channel x.sub x.gain } s)
  | none, some o =>
    statAdd 0x1C o.slot 2 1 (setConv c { v with
      orphan := some { o with invalid := decide (0 < invalidAfter (some last) o.channel o.sub o.gain) } } s)
  | none, none => s

/-- Conversions that urgent requests for the inputs `ks` take from `prev` on, invalid ones included. -/
def urgentLength (prev : Option (Nat × Nat × Nat)) : List (Nat × Nat × Nat) → Nat
  | [] => 0
  | k :: ks => invalidAfter prev k.1 k.2.1 k.2.2 + 1 + urgentLength (some k) ks

/-- Urgent conversions of inputs (channel, sub-select, gain), one after the other, on converter c (R300). -/
def urgentRun (c : Nat) (ks : List (Nat × Nat × Nat)) (s : State) : State :=
  match ks.getLast? with
  | none => s
  | some last =>
    let s1 := settleConv c s
    let v := wakeConv s1 (convOf s1 c)
    let t := max v.since (nowU s1) + (urgentLength v.prev ks * 250 * nsU : Nat)
    let s2 := advanceTo t (abortRunning c last (setConv c v s1))
    setConv c { convOf s2 c with prev := some last, since := nowU s2 } s2

end Sys2Proof.Machine
end

