-- ==== Sys2Proof/Machine/Bias.lean ====
section
/-! DEFINITION. PA bias generation (R282 to R293) and the front-end pins that clears force (R272). -/

namespace Sys2Proof.Machine

def chanOf (s : State) (c : Nat) : Chan := tget {} s.bias.chan c

def setChan (c : Nat) (ch : Chan) (s : State) : State :=
  { s with bias := { s.bias with chan := tset {} s.bias.chan c ch } }

/-- Clear-mask bit of a channel: reads as 1 for c ≤ 63 (Table 12-3). -/
def clearMask (s : State) (c : Nat) : Bool := decide (c < 64) || (chanOf s c).mask

/-- Tile of a channel (Table 12-1). -/
def chanTile (c : Nat) : Nat := if c < 64 then c / 16 else (c - 64) / 4

/-- Clear code of a span. -/
def clearCode (ch : Chan) (span : Nat) : Nat := ch.clear.getD span 0

/-! ### Park rails and pins (R283, R284) -/

/-- Group of a channel's park strap. -/
def parkGroup (c : Nat) : Nat := if c < 64 then 2 * (c / 16) + c % 16 / 8 else 2 * ((c - 64) / 4) + (c - 64) % 4 / 2

/-- The strap selects BIAS_PARK_B for the channel, as sampled at the end of reset. -/
def parksOnB (s : State) (c : Nat) : Bool := s.bias.straps.getLsbD (parkGroup c)

/-- The park switch of a channel is closed: parked, or releasing until step 4 of Table 12-4; in a span change from 100 ns before the driver
leaves the pin (Table 12-7, steps 3 to 7); held pads keep it closed (R289). -/
def parkClosed (s : State) (c : Nat) : Bool :=
  let ch := chanOf s c
  s.em.held.getLsbD (8 + chanTile c) || decide (ch.state = 0) || decide (ch.state = 1) ||
    (decide (ch.state = 4) && (decide (3 ≤ ch.phase) || (decide (ch.phase = 2) && decide (ch.timer ≤ 1))))

/-- The output switch of a channel is closed: its driver is on the pin. -/
def drivesPin (s : State) (c : Nat) : Bool :=
  let ch := chanOf s c
  !s.em.held.getLsbD (8 + chanTile c) && (decide (ch.state = 2) || decide (ch.state = 3) || decide (ch.state = 5) ||
    (decide (ch.state = 1) && decide (ch.timer ≤ 1)) || (decide (ch.state = 4) && (decide (ch.phase ≤ 2) || (decide (ch.phase = 4) && decide (ch.timer ≤ 1)))))

/-- What BIAS_OUT[c] is connected to: the rail through the park switch (true: BIAS_PARK_B), and the span and code that drive it. -/
def biasPin (s : State) (c : Nat) : Option Bool × Option (Nat × Nat) :=
  (if parkClosed s c then some (parksOnB s c) else none,
   if drivesPin s c then some ((chanOf s c).span, (chanOf s c).pin) else none)

/-- Output of a code in units of 2.5 V / 16,384 (Table 12-2). -/
def outputUnits (span k : Nat) : Int :=
  match span with | 0 => 2 * k - 32768 | 1 => 2 * k - 16384 | 2 => 2 * k | _ => k

/-! ### Codes -/

/-- Code of a position (14 integer and 16 fractional bits), rounded half to even (R286). -/
def codeOfPos (p : Nat) : Nat := (rhe p 65536).toNat

/-- Step of one slew update in units of 2^-16 code (R286). -/
def slewStep (span r : Nat) : Nat := (rhe (r * 2 ^ 30 : Nat) (if span = 3 then 2500000 else 5000000)).toNat

/-- Move a position toward a target without passing it. -/
def moveToward (pos target step : Nat) : Nat := if pos ≤ target then Nat.min target (pos + step) else Nat.max target (pos - step)

/-! ### Front-end pins -/

/-- Role, safe level and path mask of FE_GPIO[n] in the live image (Table 11-8). -/
def pinRole (s : State) (n : Nat) : Nat := cf s.cfg.live 9 (64 + 4 * n) 1
def pinSafe (s : State) (n : Nat) : Bool := decide (cf s.cfg.live 9 (64 + 4 * n + 1) 1 = 1)
def pinPaths (s : State) (n : Nat) : List Nat :=
  let m := cf s.cfg.live 9 (64 + 4 * n + 2) 2
  ((List.range 16).filter fun k => m.testBit k).map fun k => 16 * (n / 8) + k

/-- The synthesiser LO-T[q] is retuning or unlocked, or its paths have yet to resume (R268, R269, R312). -/
def txHeld (s : State) (q : Nat) : Bool :=
  let st := (tget {} s.rf.lo (2 * q)).state
  decide (st = 1) || decide (st = 3) || s.rf.resume.getLsbD q || s.rf.bridge

/-- A forcing cause of R272 holds for the pins of tile q. -/
def forcingCause (s : State) (q : Nat) : Bool :=
  !isService s.pwr.mode || protectiveEntry s || s.bias.paClearLow || s.em.parked || txHeld s q

/-- FE_GPIO[n] is forced to its safe level (R272). -/
def pinForced (s : State) (n : Nat) : Bool :=
  let r := pinRole s n
  if r = 0 then false
  else forcingCause s (n / 8) ||
    (decide (r = 2) && (s.rf.forced.getLsbD n || (pinPaths s n).any fun p => s.rf.ocPaths.getLsbD p))

/-- Level that the device drives on FE_GPIO[n]. -/
def pinDriven (s : State) (n : Nat) : Bool := if pinForced s n then pinSafe s n else tget false s.rf.gpio n

/-- Level at FE_GPIO[n]: low by its pull-down until the TX half first powers (R421), the latched one while its pad group is held (R349). -/
def pinLevel (s : State) (n : Nat) : Bool :=
  if !s.em.powered.getLsbD (n / 8) then false
  else if s.em.held.getLsbD (n / 8) then tget false s.rf.padLatch n else pinDriven s n

/-- An edge of FE_GPIO[n], whatever its cause, is noted; a rising one with its time (R296). -/
def notePin (s : State) (n : Nat) : State :=
  let l := pinLevel s n
  if l = tget false s.rf.level n then s
  else { s with rf := { s.rf with level := tset false s.rf.level n l, rise := if l then tset 0 s.rf.rise n s.tm.raw else s.rf.rise } }

/-- Edges of all pins are noted. -/
def notePins (s : State) : State := (List.range 32).foldl notePin s

/-- TX enable as it acts on tile q (R272). -/
def txEnableLevel (s : State) (q : Nat) : Bool := s.rf.txEnable && !forcingCause s q

/-- A PA gate channel has been released. -/
def chanReleased (ch : Chan) : Bool := decide (ch.state = 2) || decide (ch.state = 3) || decide (ch.state = 4)

/-- Role 2 pins whose forcing by a clear has ended: every PA gate channel of the mask is released (R289). -/
def refreshForced (s : State) : State :=
  { s with rf := { s.rf with
    forced := (List.range 32).foldl (fun a n =>
      if s.rf.forced.getLsbD n && !((pinPaths s n).all fun p => chanReleased (chanOf s p)) then a ||| BitVec.twoPow 32 n else a) 0,
    ocPaths := (List.range 64).foldl (fun a p =>
      if s.rf.ocPaths.getLsbD p && !chanReleased (chanOf s p) then a ||| BitVec.twoPow 64 p else a) 0 } }

/-! ### Records -/

/-- The 80 channel records of an answer (R293). -/
def chanRecords (s : State) : List Byte :=
  (List.range 80).flatMap fun c =>
    let ch := chanOf s c
    leBytes 1 ch.state ++ leBytes 1 ch.span ++ leBytes 2 (codeOfPos ch.pos)

/-- Answer each `bias.release` whose channels have all been driven or whose release a clear has abandoned (Table 12-4,
step 4; R290). -/
def settleReleases (s : State) : State :=
  let waiting (e : Asker × List Nat) : Bool :=
    e.2.any fun c => decide ((chanOf s c).state = 1) || (decide ((chanOf s c).state = 5) && (chanOf s c).releaseAfter)
  let s1 := { s with bias := { s.bias with release := s.bias.release.filter waiting } }
  (s.bias.release.filter fun e => !waiting e).foldl (fun t e => finishDeferred e.1 0 0 (chanRecords t) t) s1

/-! ### Clearing (R289, R290) -/

/-- Clear one channel. -/
def clearChan (ch : Chan) : Chan :=
  let code := clearCode ch ch.span
  let base := { ch with target := code, pos := code * 65536, pin := code, hold := 0, timer := 0, releaseAfter := false, phase := 0 }
  if ch.state = 0 ∨ ch.state = 1 ∨ (ch.state = 4 ∧ 3 ≤ ch.phase) then { base with state := 0 }
  else { base with state := 5 }

/-- A channel that is clear and at its code parks: the park switch closes and the driver switches off (R289). -/
def parkChan (ch : Chan) : Chan := if ch.state = 5 then { ch with state := 0, hold := 0 } else ch

/-- Clear a list of channels. -/
def clearChans (s : State) : List Nat → State
  | [] => s
  | c :: cs => clearChans (setChan c (clearChan (chanOf s c)) s) cs

/-- Channels that a cause of Table 12-6 clears; cause 5 names its path. -/
def clearTargets (cause path : Nat) (s : State) : List Nat :=
  match cause with
  | 4 => List.range 80
  | 5 => [path]
  | 6 => (List.range 80).filter fun c => decide ((chanOf s c).state ≠ 0)
  | _ => (List.range 80).filter (clearMask s)

/-- Park a list of channels at once. -/
def parkChans (s : State) : List Nat → State
  | [] => s
  | c :: cs => parkChans (setChan c (parkChan (chanOf s c)) s) cs

/-- A clear: channels, role 2 pins that stay forced (R272, R289), EV_PA_CLEAR. With cause 6 the channels park before the domain's power
goes. -/
def clearBias (cause path : Nat) (s : State) : State :=
  let cs := clearTargets cause path s
  let s0 := clearChans s cs
  let s1 := if cause = 6 then parkChans s0 cs else s0
  let s2 := if cause ≤ 4 then { s1 with rf := { s1.rf with
      forced := (List.range 32).foldl (fun a n =>
        if decide (pinRole s1 n = 2) && ((pinPaths s1 n).any fun p => decide (p ∈ cs)) then a ||| BitVec.twoPow 32 n else a)
        s1.rf.forced } } else s1
  let s2 := notePins s2
  match cs with
  | [] => s2
  | c :: _ => settleReleases (raise 131 (det cause cs.length (c % 256) (c / 256) 0) s2)

/-- PARK_ALL (R61): cleared and parked, in force until `bias.release`. -/
def parkAll (s : State) : State := clearBias 2 0 { s with em := { s.em with parked := true } }

/-! ### Rows -/

/-- PA_CLEAR_N low for 50 ns: cause 1 and the forcing of R272. -/
def execPaClearN (s : State) : Host.Outcome State Fault Refusal :=
  if s.bias.paClearLow then .next s
  else .next (clearBias 1 0 { s with bias := { s.bias with paClearLow := true } })

/-- PA_CLEAR_N rises: that forcing cause ends (R272); a rising edge releases nothing (R289). -/
def execPaClearNRelease (s : State) : Host.Outcome State Fault Refusal :=
  .next (notePins { s with bias := { s.bias with paClearLow := false } })

/-- One update of a slewing code with the deglitcher (R286, R287). -/
def slewChan (ch : Chan) (target : Nat) : Chan :=
  let old := codeOfPos ch.pos
  let pos := moveToward ch.pos (target * 65536) (slewStep ch.span ch.slew)
  let code := codeOfPos pos
  let hold := if code / 256 ≠ old / 256 then 3 else ch.hold - 2
  { ch with pos := pos, hold := hold, pin := if 0 < hold then ch.pin else code }

/-- A hold goes on under a code that has come to rest (R287). -/
def runHold (ch : Chan) : Chan :=
  { ch with hold := ch.hold - 2, pin := if 0 < ch.hold - 2 then ch.pin else codeOfPos ch.pos }

/-- One 100 ns update of a channel: release steps (Table 12-4: 20.1 µs), slew, span change (R291). -/
def updateChan (ch : Chan) : Chan :=
  match ch.state with
  | 1 => if 1 < ch.timer then { ch with timer := ch.timer - 1 }
    else { ch with state := 2, timer := 0, hold := 0, pin := codeOfPos ch.pos }
  | 2 => if ch.pos = ch.target * 65536 ∧ ch.hold = 0 then ch
    else
      let c1 := slewChan ch ch.target
      { c1 with state := if c1.pos = ch.target * 65536 then 2 else 3 }
  | 3 =>
    let c1 := slewChan ch ch.target
    { c1 with state := if c1.pos = ch.target * 65536 then 2 else 3 }
  | 4 =>
    (match ch.phase with
    | 1 =>
      let goal := clearCode ch ch.span
      let c1 := slewChan ch goal
      if c1.pos = goal * 65536 then { c1 with phase := 2, timer := 11 } else c1
    | 2 => if 1 < ch.timer then runHold { ch with timer := ch.timer - 1 } else { ch with phase := 3, timer := 200, hold := 0 }
    | 3 => if 1 < ch.timer then { ch with timer := ch.timer - 1 }
      else
        let code := clearCode ch ch.nextSpan
        { ch with phase := 4, timer := 201, span := ch.nextSpan, pos := code * 65536, pin := code }
    | _ => if 1 < ch.timer then { ch with timer := ch.timer - 1 }
      else { ch with state := if ch.pos = ch.nextTarget * 65536 then 2 else 3, phase := 0, timer := 0, hold := 0, target := ch.nextTarget })
  | _ => ch

/-- Update every listed channel. -/
def updateChans (s : State) : List Nat → State
  | [] => s
  | c :: cs => updateChans (setChan c (updateChan (chanOf s c)) s) cs

/-- BIAS_SLEW_UPDATE: 100 ns of every channel (R286); the HK domain holds the channels. -/
def execBiasSlewUpdate (s : State) : Host.Outcome State Fault Refusal :=
  if s.pwr.ready.getLsbD 10 then
    .next (settleReleases (notePins (refreshForced (updateChans s ((s.bias.chan.map fun e => e.1))))))
  else .next s

/-- BIAS_PARKED: 1 µs after the clear code is reached the park switch closes and the driver switches off (R289); a release
that waited begins (R288), and a span change goes on (R291). -/
def execBiasParked (channel : Nat) (s : State) : Host.Outcome State Fault Refusal :=
  let ch := chanOf s channel
  if ch.state = 5 then
    .next (setChan channel (if ch.releaseAfter then { ch with state := 1, timer := 201, releaseAfter := false }
      else { ch with state := 0 }) s)
  else if ch.state = 4 ∧ ch.phase = 2 then .next (setChan channel { ch with phase := 3, timer := 200, hold := 0 } s)
  else .next s

/-! ### Messages -/

/-- Checks of the records of `bias.set` (bias = true) or `bias.span`, in order; a channel named twice fails (R292). -/
def biasChecks (set : Bool) (p : List Byte) (n : Nat) : List (Nat × Bool) :=
  (List.range n).flatMap fun r =>
    let b := 8 + 8 * r
    let dup := (List.range r).any fun q => decide (u p (8 + 8 * q) 1 = u p b 1)
    if set then [(b, decide (u p b 1 ≤ 79) && !dup), isZero p (b + 1) 1, inRange p (b + 2) 2 0 16383,
      inRange p (b + 4) 2 1 2000, isZero p (b + 6) 2]
    else [(b, decide (u p b 1 ≤ 79) && !dup), inRange p (b + 1) 1 0 3, inRange p (b + 2) 2 0 16383, isZero p (b + 4) 4]

/-- Length and fields of `bias.set` and `bias.span` (R292). -/
def biasRecords (set : Bool) (p : List Byte) (s : State) (k : Nat → Reply) : Reply :=
  let n := u p 0 4
  if p.length < 8 ∨ p.length ≠ 8 + 8 * n then err stBadLength 8 s
  else withFields ((0, decide (1 ≤ n) && decide (n ≤ 80)) :: isZero p 4 4 :: biasChecks set p n) s (k n)

/-- Targets and slews of `bias.set`: a channel that is driven takes them at the next update (R286). -/
def biasSetAll (p : List Byte) (n : Nat) (s : State) : State :=
  (List.range n).foldl (fun t r =>
    let b := 8 + 8 * r
    let c := u p b 1
    setChan c { chanOf t c with target := u p (b + 2) 2, slew := u p (b + 4) 2 } t) s

/-- `bias.set` (R292). -/
def biasSetBody (a : Asker) (p : List Byte) (s : State) : Reply :=
  biasRecords true p s fun n =>
    if (List.range n).any fun r => decide ((chanOf s (u p (8 + 8 * r) 1)).state = 4) then err stBusy 0 s
    else onDomain 10 a s fun s => let s1 := biasSetAll p n s; ok (chanRecords s1) s1

def execBiasSet (ring : Nat) (dma : List Byte) (s : State) : Host.Outcome State Fault Refusal :=
  .next (runMessage 0x0801 ring dma biasSetBody s)

/-- A span change of one channel (R291): driven ones go through clear and park, parked ones switch at once. A releasing or
clearing channel is taken as parked (DESIGN CHOICE, log 16). -/
def spanChan (ch : Chan) (span target : Nat) : Chan :=
  if span = ch.span then { ch with target := target }
  else
    match ch.state with
    | 0 => { ch with span := span, pos := clearCode ch span * 65536, pin := clearCode ch span, target := target }
    | 1 => { ch with state := 4, phase := 3, timer := 200, nextSpan := span, nextTarget := target }
    | 5 => { ch with span := span, pos := clearCode ch span * 65536, pin := clearCode ch span, target := target }
    | _ => { ch with state := 4, phase := 1, nextSpan := span, nextTarget := target }

/-- `bias.span` (R291, R292). -/
def biasSpanBody (a : Asker) (p : List Byte) (s : State) : Reply :=
  biasRecords false p s fun n =>
    if (List.range n).any fun r => decide ((chanOf s (u p (8 + 8 * r) 1)).state = 4) then err stBusy 0 s
    else onDomain 10 a s fun s =>
      let s1 := (List.range n).foldl (fun t r =>
        let b := 8 + 8 * r
        let c := u p b 1
        setChan c (spanChan (chanOf t c) (u p (b + 1) 1) (u p (b + 2) 2)) t) s
      ok (chanRecords s1) s1

def execBiasSpan (ring : Nat) (dma : List Byte) (s : State) : Host.Outcome State Fault Refusal :=
  .next (runMessage 0x0802 ring dma biasSpanBody s)

/-- Refusal reason of Table 12-5 for a channel, given the measured HV codes; none where it may be released. -/
def releaseReason (s : State) (hvP hvN c : Nat) : Option Nat :=
  if !s.bias.valid then some 1
  else if hvP < 10240 ∨ 3072 < hvN then some 2
  else if s.em.held.getLsbD (8 + chanTile c) then some 3
  else if s.bias.paClearLow ∧ clearMask s c then some 4
  else none

/-- Modes in which `bias.release` acts (R288). -/
def releaseMode (m : Mode) : Bool := isService m || decide (m = .standby) || decide (m = .calibrate)

/-- Channel begins its release, its driver at the clear code (Table 12-4, step 2), or notes it for the end of its clear. -/
def startRelease (ch : Chan) : Chan :=
  if ch.state = 5 then { ch with releaseAfter := true } else { ch with state := 1, timer := 201 }

/-- `bias.release` (R288); `hvP` and `hvN` are the codes the release checks convert. -/
def biasReleaseBody (hvP hvN : Nat) (a : Asker) (p : List Byte) (s : State) : Reply :=
  withLength [16] p s <|
  withFields [isZero p 10 6] s <|
  if !releaseMode s.pwr.mode then err stState 0 s
  else onDomain 10 a s fun s =>
    let mask := u p 0 10
    let checked := (List.range 80).filter fun c => mask.testBit c &&
      (decide ((chanOf s c).state = 0) || decide ((chanOf s c).state = 5))
    let measured := if checked = [] then s else urgentRun 0 [(112, 0, 1), (113, 0, 1)] s
    match checked.find? fun c => (releaseReason s hvP hvN c).isSome with
    | some c =>
      let r := (releaseReason s hvP hvN c).getD 0
      { st := raise 130 (det c r 0 0 0) measured, code := stRefused, detail := r, payload := leBytes 1 c ++ [0, 0, 0] }
    | none =>
      let s1 := checked.foldl (fun t c => setChan c (startRelease (chanOf t c)) t)
        (notePins { measured with em := { measured.em with parked := false } })
      if checked = [] then ok (chanRecords s1) s1
      else deferred { s1 with bias := { s1.bias with release := s1.bias.release ++ [(a, checked)] } }

def execBiasRelease (ring : Nat) (dma : List Byte) (hvP hvN : Nat) (s : State) : Host.Outcome State Fault Refusal :=
  .next (runMessage 0x0803 ring dma (biasReleaseBody hvP hvN) s)

/-! ### Defaults record (R285) -/

/-- A channel at rest or at its clear code takes a new clear code at once; the target stays (R285). -/
def takeClear (ch : Chan) : Chan :=
  let code := clearCode ch ch.span
  if ch.state = 0 ∨ ch.state = 1 ∨ (ch.state = 4 ∧ 3 ≤ ch.phase) ∨ ch.state = 5 then { ch with pos := code * 65536, pin := code } else ch

/-- A valid bias defaults record in force: clear codes, mask bits and slews at once, spans at boot. -/
def applyDefaults (rec : List Byte) (boot : Bool) (s : State) : State :=
  let s1 := (List.range 80).foldl (fun t c =>
    let b := 16 * c
    let ch := chanOf t c
    let codes := [u rec (b + 2) 2, u rec (b + 4) 2, u rec (b + 6) 2, u rec (b + 8) 2]
    let ch1 := { ch with clear := codes, mask := decide (u rec (b + 1) 1 = 1), slew := u rec (b + 10) 2 }
    setChan c (if boot then { ch1 with span := u rec b 1, pos := codes.getD (u rec b 1) 0 * 65536, pin := codes.getD (u rec b 1) 0,
                                       target := codes.getD (u rec b 1) 0 } else takeClear ch1) t) s
  { s1 with bias := { s1.bias with valid := true } }

/-- Ranges of a bias defaults record (Table 12-3). -/
def defaultsChecks (p : List Byte) : List (Nat × Bool) :=
  (List.range 80).flatMap fun c =>
    let b := 16 * c
    [inRange p b 1 0 3, inRange p (b + 1) 1 (if c ≤ 63 then 1 else 0) 1, inRange p (b + 2) 2 0 16383, inRange p (b + 4) 2 0 16383,
     inRange p (b + 6) 2 0 16383, inRange p (b + 8) 2 0 16383, inRange p (b + 10) 2 1 2000, isZero p (b + 12) 4]

end Sys2Proof.Machine
end

