-- ==== Sys2Proof/Machine/Records.lean ====
section
/-! DEFINITION. The log ring (R381), leases (R391, R392), the two-copy records of the MRAM (R367 to R372) and what is read
from them: calibration status, calibrated delays and validity (R375, R377). -/

namespace Sys2Proof.Machine

/-! ### Log (R381) -/

/-- Word of the MRAM at which entry k of the log ring begins (Table 16-1). -/
def logWord (k : Nat) : Nat := 0xB0000 + k % 4096 * 8

/-- Bytes of a log entry (Table 16-8). -/
def logBytes (kind : Nat) (detail : List Byte) (s : State) : List Byte :=
  let e := leBytes 4 s.nvm.logNext ++ leBytes 1 kind ++ leBytes 1 (modeCode s.pwr.mode) ++ [0, 0] ++ leI 8 (secOf (nowU s)) ++
    leBytes 4 (nsOf (nowU s)) ++ leBytes 4 s.sys.bootCount ++ fitBytes 32 detail ++ leBytes 4 s.nvm.dropped
  e ++ leBytes 4 (crc32c e)

/-- Write a log entry; beyond 16 in one second it is dropped and counted (R381). The seconds are those of the raw counter
(DESIGN CHOICE, log 18), and the entry is written at the instant of its event. -/
def writeLog (kind : Nat) (detail : List Byte) (s : State) : State :=
  let sec := s.tm.raw / 1474560000
  let n := if sec = s.nvm.logSecond then s.nvm.logCount else 0
  if 16 ≤ n then { s with nvm := { s.nvm with dropped := satAdd 0xFFFFFFFF s.nvm.dropped 1, logSecond := sec, logCount := n } }
  else cleanWords 8 (logWord s.nvm.logNext) 8 { s with nvm := { s.nvm with
    log := tset [] s.nvm.log (s.nvm.logNext % 4096) (logBytes kind detail s),
    logNext := (s.nvm.logNext + 1) % 2 ^ 32, dropped := 0, logSecond := sec, logCount := n + 1 } }

/-- A stored log entry is valid: its CRC verifies (R381). -/
def logValid (e : List Byte) : Bool := decide (e.length = 64) && decide (crc32c (e.take 60) = leNat (e.drop 60))

/-- The log entries that read back valid: none of their words, from MRAM word 0xB0000 on (Table 16-1), holds a double-bit error. -/
def goodLog (s : State) : Tbl (List Byte) :=
  s.nvm.log.filter fun e => logValid e.2 &&
    !(s.ls.bad.any fun h => decide (h.memory = 8) && h.double && decide (h.address / 8 = 0x16000 + e.1))

/-! ### Revocation (R392) -/

/-- Steps 2 to 4 of a revocation (R392): count, event, record and log entry, next grant. A stretched hold is never revoked (R396). -/
def revokeEntry (e cause : Nat) (s : State) : State :=
  let l := leaseNow s e
  if l.holder = 0 ∨ l.free.isSome then s
  else
    let d := det e l.holder cause 0 (heldUs s e)
    let s1 := { s with ls := { s.ls with revoked := ((e, l.holder, cause) :: s.ls.revoked).take 8 } }
    let s2 := writeLog 7 d (raise 208 d s1)
    setLease e (passOn s2.tm.raw { l with revokes := satAdd 0xFFFFFFFF l.revokes 1 }) s2

/-! ### Records (R368, R369) -/

/-- Record IDs in ascending order. -/
def recordIds : List Nat :=
  [0x0101, 0x0102, 0x0103, 0x0104, 0x0201, 0x0202, 0x0203, 0x0204] ++ (List.range 16).map (fun k => 0x0210 + k) ++ [0x0301, 0x0401]

/-- Slot size of a record (Table 16-2). -/
def slotSize (id : Nat) : Nat :=
  match id with
  | 0x0101 => 131072 | 0x0104 => 98304 | 0x0201 => 262144 | 0x0301 => 1703936 | 0x0401 => 393216
  | _ => if 0x0210 ≤ id ∧ id ≤ 0x021F then 8192 else 4096

/-- Byte address of a record copy's slot in the MRAM (Tables 16-1 and 16-2). -/
def slotBase (id w : Nat) : Nat :=
  match id with
  | 0x0101 => 0x40000 * w
  | 0x0104 => 0x20000 + 0x40000 * w
  | 0x0102 => 0x38000 + 0x40000 * w
  | 0x0103 => 0x39000 + 0x40000 * w
  | 0x0201 => 0x80000 + 0x80000 * w
  | 0x0202 => 0xC0000 + 0x80000 * w
  | 0x0203 => 0xC1000 + 0x80000 * w
  | 0x0204 => 0xC2000 + 0x80000 * w
  | 0x0301 => 0x180000 + 0x1A0000 * w
  | 0x0401 => 0x4C0000 + 0x60000 * w
  | _ => 0xC4000 + 0x2000 * (id - 0x0210) + 0x80000 * w

def copyOf (s : State) (id w : Nat) : NvmCopy := tget {} s.nvm.copy (2 * id + w)

def setCopy (id w : Nat) (c : NvmCopy) (s : State) : State :=
  { s with nvm := { s.nvm with copy := tset {} s.nvm.copy (2 * id + w) c } }

/-- State of a record copy (R369): 0 empty, 1 valid, 2 invalid. -/
def copyState (id : Nat) (c : NvmCopy) : Nat :=
  if c.id = 0 ∧ c.version = 0 ∧ c.seq = 0 ∧ c.length = 0 then 0
  else if c.id = id ∧ c.version = 1 ∧ 24 + c.length ≤ slotSize id ∧ c.chkSeq = c.seq ∧ c.crcOk then 1 else 2

/-- Sequence a is higher than b, modulo 2^32. -/
def seqHigher (a b : Nat) : Bool := decide (a ≠ b) && decide ((a + 2 ^ 32 - b) % 2 ^ 32 < 2 ^ 31)

/-- Copy in force of a record; none where it is absent (R369). -/
def inForce (s : State) (id : Nat) : Option (Nat × NvmCopy) :=
  let c0 := copyOf s id 0
  let c1 := copyOf s id 1
  if copyState id c0 = 1 then
    (if copyState id c1 = 1 ∧ seqHigher c1.seq c0.seq then some (1, c1) else some (0, c0))
  else if copyState id c1 = 1 then some (1, c1) else none

/-- Payload in force, if the record is present. -/
def recordData (s : State) (id : Nat) : Option (List Byte) := (inForce s id).map fun e => e.2.data

/-- Copy and sequence that the next write of a record uses (R370). -/
def nextWrite (s : State) (id : Nat) : Nat × Nat :=
  match inForce s id with
  | none => (0, 1)
  | some (w, c) => (1 - w, (c.seq + 1) % 2 ^ 32)

/-- Words a record write of `n` payload bytes takes (R369). -/
def recordWords (n : Nat) : Nat := 3 + (n + 7) / 8

/-- A record write that has written `k` words: the copy as it stands (R370); invalid until the check word. -/
def partialCopy (old : NvmCopy) (id sq : Nat) (data : List Byte) (k : Nat) : NvmCopy :=
  if k = 0 then old
  else if recordWords data.length ≤ k then
    { id := id, version := 1, seq := sq, length := data.length, data := data, chkSeq := sq, crcOk := true }
  else
    let done := Nat.min data.length (8 * (k - 2))
    { id := id, version := 1, seq := sq, length := if k = 1 then old.length else data.length,
      data := data.take done ++ old.data.drop done, chkSeq := old.chkSeq, crcOk := false }

/-- A word of the MRAM lies in what a record copy holds. -/
def inCopy (s : State) (id w address : Nat) : Bool :=
  decide (slotBase id w / 8 ≤ address) && decide (address < slotBase id w / 8 + recordWords (copyOf s id w).length)

/-- A word of the MRAM is struck with a double-bit error: a copy that holds it no longer verifies (R369). -/
def strikeMram (address : Nat) (s : State) : State :=
  (recordIds.flatMap fun id => [(id, 0), (id, 1)]).foldl (fun t e =>
    if inCopy t e.1 e.2 address ∧ copyState e.1 (copyOf t e.1 e.2) ≠ 0 then
      setCopy e.1 e.2 { copyOf t e.1 e.2 with crcOk := false } t
    else t) s

/-- The errors that reading `n` words of the MRAM from `lo` meets are counted and raised: EV_NVM_ECC, for a record copy, or for record 0 where
none is stored there (R371, R367, Table 16-10; log 21). -/
def readMram (id w lo n : Nat) (s : State) : State :=
  (s.ls.bad.filter fun h => decide (h.memory = 8) && decide (lo ≤ h.address) && decide (h.address < lo + n)).foldl (fun t h =>
    raise 194 (detH (id % 256) (id / 256) (w + 256 * (if h.double then 2 else 1)) h.address)
      { t with nvm := { t.nvm with sec := satAdd 0xFFFFFFFF t.nvm.sec (b2n !h.double), ded := satAdd 0xFFFFFFFF t.nvm.ded (b2n h.double) } }) s

/-- A double-bit error lies among `n` words of the MRAM from `lo`. -/
def mramStruck (lo n : Nat) (s : State) : Bool :=
  s.ls.bad.any fun h => decide (h.memory = 8) && h.double && decide (lo ≤ h.address) && decide (h.address < lo + n)

/-- A record copy is read. -/
def readCopy (id w : Nat) (s : State) : State := readMram id w (slotBase id w / 8) (recordWords (copyOf s id w).length) s

/-- A word of a record copy holds a double-bit error. -/
def copyStruck (s : State) (id w : Nat) : Bool := s.ls.bad.any fun h => decide (h.memory = 8) && h.double && inCopy s id w h.address

/-- EV_NVM_RECORD_INVALID of a copy, by cause (Table 16-10). -/
def recordInvalid (id w cause : Nat) (s : State) : State :=
  raise 193 (leBytes 2 id ++ leBytes 1 w ++ leBytes 1 cause ++ leBytes 4 (copyOf s id w).seq) s

/-- A message reads a record copy: the errors that it meets, and EV_NVM_RECORD_INVALID cause 2 where one is a double-bit error. -/
def readRecord (id w : Nat) (s : State) : State :=
  if copyStruck s id w then recordInvalid id w 2 (readCopy id w s) else readCopy id w s

/-- Words `a` to `k` − 1 of a record copy have been rewritten. -/
def cleanCopy (id w a k : Nat) (s : State) : State := cleanWords 8 (slotBase id w / 8 + a) (k - a) s

/-- Count a write of a record copy; the 900,000,000th raises EV_NVM_ENDURANCE (R372). -/
def countWrite (id w : Nat) (s : State) : State :=
  let n := tget 0 s.nvm.writes (2 * id + w) + 1
  let s1 := { s with nvm := { s.nvm with writes := tset 0 s.nvm.writes (2 * id + w) n } }
  if n = 900000000 then raise 195 (leBytes 2 id ++ leBytes 1 w ++ [0] ++ leBytes 4 (n % 2 ^ 32)) s1 else s1

/-- The record write in progress has written at least its first word (R370). -/
def nvmTorn (s : State) : State :=
  match s.nvm.jobs with
  | [] => s
  | j :: _ => if j.words = 0 then setCopy j.id j.copy (partialCopy (copyOf s j.id j.copy) j.id j.seq j.data 1) s else s

/-- The write of a record that stops leaves the queue: its copy is invalid, the other stays in force (R370). -/
def dropJob (id : Nat) (s : State) : State :=
  let s1 := match s.nvm.jobs with
    | j :: _ => if j.id = id then nvmTorn s else s
    | [] => s
  { s1 with nvm := { s1.nvm with jobs := s1.nvm.jobs.filter fun j => decide (j.id ≠ id) } }

/-- A write of the record waits or is in progress. -/
def recordBusy (id : Nat) (s : State) : Bool := s.nvm.jobs.any fun j => decide (j.id = id)

/-! ### Calibration status (R377) -/

/-- Status entry of type t as it stands (Table 16-7). -/
def calEntry (s : State) (t : Nat) : List Byte :=
  let e := tget {} s.cal.status t
  leBytes 1 t ++ leBytes 1 e.last ++ leBytes 1 e.attempts ++ leBytes 1 e.flags ++ leBytes 4 e.accepted ++
    leI 8 (secOf e.time) ++ leBytes 4 (nsOf e.time) ++ leI 2 e.temp ++ leBytes 2 e.worst ++ zeros 8

/-- The 352-byte status block. -/
def calStatusBytes (s : State) : List Byte := ((List.range 11).map fun k => calEntry s (k + 1)).flatten

/-- Place and size of the section of type t in record 0x0201 (Table 16-5). -/
def calSection (t : Nat) : Nat × Nat :=
  match t with
  | 1 => (384, 256) | 2 => (640, 256) | 3 => (896, 256) | 4 => (1152, 7936) | 5 => (9088, 3968) | 6 => (13056, 512)
  | 7 => (13568, 512) | 8 => (14080, 16384) | 9 => (30464, 64) | _ => (0, 0)

/-- Bytes of the result held of a type (Table 16-4). -/
def calBytes (t : Nat) : Nat := if t = 10 then 1280 else if t = 11 then 256 else (calSection t).2

/-- Result of type t that stands now: the accepted one in memory, else the record's, else zeros. -/
def calStanding (s : State) (t : Nat) : List Byte :=
  match tget [] s.cal.data t with
  | [] =>
    if t ≤ 9 then fitBytes (calBytes t) (slice ((recordData s 0x0201).getD []) (calSection t).1 (calBytes t))
    else if t = 11 then fitBytes 256 ((recordData s 0x0102).getD [])
    else zeros (calBytes t)
  | d => fitBytes (calBytes t) d

/-- Payload of record 0x0201 as the device would write it now (Table 16-5): status, then each type's result. -/
def fieldRecord (s : State) : List Byte :=
  let old := (recordData s 0x0201).getD []
  let p0 := patch (fitBytes 30528 old) 0 (calStatusBytes s |>.take 288 |> fitBytes 352)
  (List.range 9).foldl (fun p k =>
    let t := k + 1
    let (o, n) := calSection t
    match tget [] s.cal.data t with
    | [] => p
    | d => patch p o (fitBytes n d)) p0

/-- Record 0x0201 shows an accepted result of type t. -/
def fieldAccepted (s : State) (t : Nat) : Bool :=
  match recordData s 0x0201 with
  | some p => decide (u p (32 * (t - 1) + 3) 1 % 2 = 1)
  | none => false

/-- The field calibration record is valid for reason 3 of Table 14-4 (R375). -/
def fieldCalValid (s : State) : Bool := (List.range 9).all fun k => fieldAccepted s (k + 1)

/-- Gain-step corrections of an RX path (R375): its accepted result of type 5 outside BRING-UP, else the factory's; none without either. -/
def gainSteps (s : State) (path : Nat) : List Byte :=
  if s.pwr.mode ≠ .bringUp ∧ (tget 0 s.cal.paths 5).testBit path then slice (calStanding s 5) (62 * path) 62
  else match recordData s 0x0101 with
    | some p => Config.factoryGain path p
    | none => []

/-- Calibrated delay of a path in ps (R375), path by path: its accepted result of type 6 (TX) or 7 (RX) outside BRING-UP, else
the factory's. -/
def calibratedDelay (s : State) (rx : Bool) (path : Nat) : Nat :=
  let t := if rx then 7 else 6
  let held := if s.pwr.mode ≠ .bringUp ∧ (tget 0 s.cal.paths t).testBit path then
      let v := u (calStanding s t) (8 * path + 4) 4
      if v ≤ 1000000 then some v else none
    else none
  match held with
  | some v => v
  | none =>
    match recordData s 0x0101 with
    | none => 0
    | some p => let v := Config.factoryDelay (b2n rx) path p; if v ≤ 1000000 then v else 0

end Sys2Proof.Machine
end

