-- ==== Sys2Proof/Machine/Vectors.lean ====
section
/-! DEFINITION. The Cabinet (R191 to R194) and the dynamic weight banks with their claims (R196 to R200). -/

namespace Sys2Proof.Machine

/-! ### The Cabinet -/

def cabOf (s : State) (e : Nat) : CabEntry := tget {} s.bf.cabinet e

/-- The 256 weight bytes of an entry; an undefined entry has zeros (R192). -/
def cabWeights (c : CabEntry) : List Byte := if c.defined then fitBytes 256 c.weights else zeros 256

/-- Tag bytes 256 to 267 of entry e (Table 8-4). -/
def cabHead (e : Nat) (c : CabEntry) : List Byte :=
  (if c.defined then leBytes 1 c.cls ++ [1] else [0, 0]) ++ leBytes 2 e ++ leBytes 4 (if c.defined then c.label else 0) ++ zeros 4

/-- CRC of an entry (R191). -/
def cabCrc (e : Nat) (c : CabEntry) : Nat := crc32c (cabWeights c ++ cabHead e c)

/-- The 16-byte tag of an entry. -/
def cabTag (e : Nat) (c : CabEntry) : List Byte := cabHead e c ++ leBytes 4 (cabCrc e c)

/-- An entry from its stored weights and tag: undefined where the CRC or the entry number fails (R192). -/
def cabLoad (e : Nat) (w tag : List Byte) : Option CabEntry :=
  if crc32c (w ++ tag.take 12) = u tag 12 4 ∧ u tag 2 2 = e then
    some (if u tag 1 1 % 2 = 1 then { defined := true, weights := w, cls := u tag 0 1 % 16, label := u tag 4 4 } else {})
  else none

/-- Address of 64-bit word k of entry e in memory 4: its 32 words of weights, and its two of the tag store (log 23). -/
def cabWord (e k : Nat) : Nat := if k < 32 then 32 * e + k else 196608 + 2 * e + (k - 32)

/-- Entry whose weights or tag a word of memory 4 holds. -/
def wordEntry (w : Nat) : Nat := if w < 196608 then w / 32 else (w - 196608) / 2

/-- Words of the Cabinet that hold an error, of entry e. -/
def cabHits (s : State) (e : Nat) : List ScrubHit := s.ls.bad.filter fun h => decide (h.memory = 4) && decide (wordEntry h.address = e)

/-- The words of an entry are rewritten. -/
def cleanEntry (e : Nat) (s : State) : State := cleanWords 4 (cabWord e 32) 2 (cleanWords 4 (cabWord e 0) 32 s)

/-- Order of boundaries. -/
def boundaryLt (a b : Boundary) : Bool := decide (a.frame < b.frame) || (decide (a.frame = b.frame) && decide (a.quarter < b.quarter))

/-- Earliest boundary for which Cabinet entries wait. -/
def firstWaiting (s : State) : Option Boundary :=
  (s.bf.waiting.map fun e => e.1).foldl (fun a b => match a with
    | none => some b
    | some c => if boundaryLt b c then some b else some c) none

/-- The entries that wait for a boundary become live together (R193). -/
def cabinetLive (b : Boundary) (s : State) : State :=
  let go := s.bf.waiting.filter fun e => decide (e.1 = b)
  go.foldl (fun t e => cleanEntry e.2.1 t) { s with bf := { s.bf with
    cabinet := go.foldl (fun t e => tset {} t e.2.1 e.2.2) s.bf.cabinet,
    old := go.map (fun e => (b, e.2.1, cabOf s e.2.1)) ++ s.bf.old.filter fun e => decide (boundaryU b - msU ≤ boundaryU e.1),
    waiting := s.bf.waiting.filter fun e => decide (e.1 ≠ b), liveAt := b } }

/-- Content of entry e for a symbol at an air time (R193): that of the latest waiting boundary at or before it, else what the
entry held before the first boundary after it, else the live content. -/
def cabAt (s : State) (e : Nat) (air : Instant) : CabEntry :=
  let next := (s.bf.waiting.filter fun x => decide (x.2.1 = e) && decide (boundaryU x.1 ≤ air)).foldl
    (fun a x => match a with
      | some y => if boundaryLt x.1 y.1 then some y else some x
      | none => some x) (none : Option (Boundary × Nat × CabEntry))
  match next with
  | some x => x.2.2
  | none =>
    match (s.bf.old.filter fun x => decide (x.2.1 = e) && decide (air < boundaryU x.1)).foldl
      (fun a x => match a with
        | some y => if boundaryLt x.1 y.1 then some x else some y
        | none => some x) (none : Option (Boundary × Nat × CabEntry)) with
    | some x => x.2.2
    | none => cabOf s e

/-- Entries whose boundary corrected time has passed become live (R193, R324); `n` bounds the boundaries. -/
def cabinetPassed (now : Instant) : Nat → State → State
  | 0, s => s
  | n + 1, s => match firstWaiting s with
    | none => s
    | some b => if boundaryU b ≤ now then cabinetPassed now n (cabinetLive b s) else s

/-- An entry waits for a boundary: a later write for the same boundary replaces the earlier (R193). -/
def waitEntry (b : Boundary) (e : Nat) (c : CabEntry) (w : List (Boundary × Nat × CabEntry)) : List (Boundary × Nat × CabEntry) :=
  (w.filter fun x => !(decide (x.1 = b) && decide (x.2.1 = e))) ++ [(b, e, c)]

/-- Completion instant W of R193 at or after `t`, and the boundary Bc after it. -/
def cabinetTimes (im : Image) (t : Instant) : Instant × Instant :=
  let p : Nat := commonPeriod im * quarterU
  let b := nextCommon im t
  let w := if b ≠ t ∧ b - t ≤ 100 * (usU : Int) then b else t
  (w, (w / (p : Int) + 1) * p)

/-! ### Dynamic weight banks -/

def vecKey (ul : Bool) (bank v : Nat) : Nat := ((if ul then 2 else 0) + bank) * 10240 + v

/-- Region of a carrier: first vector and length (R196). A carrier that is not enabled owns none. -/
def regionOf (im : Image) (ul : Bool) (c : Nat) : Nat × Nat :=
  (((enabledCCs im ul).map fun k => if k < c then bfLayers im ul * groupsOf im ul k else 0).sum,
   if ccEnabled im ul c then bfLayers im ul * groupsOf im ul c else 0)

/-- Claim instant F of a slot, by its count since frame 0 (R197). The slot before it is the one its own numerology numbers so. -/
def claimInstant (mu m : Nat) : Instant :=
  (if m = 0 then slotStart mu (slotsPerFrame mu - 1) - frameU else slotStart mu (m - 1)) + tk 131072

/-- A weight-delivery section waits for slot m of carrier c in a direction. -/
def deliveryFor (s : State) (ul : Bool) (c m : Nat) (x : Section) : Bool :=
  let im := imageAt s x.air
  decide (x.stype = 3) && x.usable && decide ((flowAt im x.flow).kind = (if ul then 7 else 6)) && decide (x.sym.carrier = c) &&
    decide (slotCountOf (ccMu im ul c) x.sym.frame (x.sym.subframe * 2 ^ ccMu im ul c + x.sym.slot) = m)

/-- What a vector held, with that it holds no longer; changes 4 ms back have served. -/
def pastOf (s : State) (w : WeightVec) : List PastVec :=
  ⟨nowU s, w.claim, w.state, w.data⟩ :: w.past.filter fun x => decide (nowU s < x.until_ + 4 * (msU : Int))

/-- A vector as it stood at an instant. -/
def vecAt (t : Instant) (w : WeightVec) : WeightVec :=
  match (w.past.filter fun x => decide (t < x.until_)).getLast? with
  | some x => { w with claim := x.claim, state := x.state, data := x.data }
  | none => w

/-- A vector is stored, and its 32 words with it. -/
def setVec (key : Nat) (w : WeightVec) (s : State) : State :=
  cleanWords 3 (32 * key) 32 { s with bf := { s.bf with
    vec := tset {} s.bf.vec key { w with past := pastOf s (tget {} s.bf.vec key) } } }

/-- Vector `k` of a usable delivery is applied to slot m of carrier c (R198). The item it names may have been made invalid before, and
an invalid item stays so (R125). -/
def applyVector (ul : Bool) (c m : Nat) (x : Section) (reg : Nat × Nat) (s : State) (k : Nat) : State :=
  let v := u x.head 0 2 + k
  let key := vecKey ul (m % 2) v
  let w := tget {} s.bf.vec key
  let item : Item := ⟨3, ul, c, 0, x.sym.frame, m % slotsPerFrame (ccMu (imageAt s x.air) ul c), 0, v⟩
  if v < reg.1 ∨ reg.1 + reg.2 ≤ v then statAdd 0x17 (b2n ul) 2 1 s
  else if w.claim ≠ some (c, m) ∨ w.state = 2 then s
  else if w.state = 0 ∧ item ∉ s.dl.invalid then
    statAdd 0x17 (b2n ul) 0 1 (setVec key { w with state := 1, data := slice x.payload (256 * k) 256 } s)
  else statAdd 0x17 (b2n ul) 1 1 (setVec key { w with state := 2, data := [] } s)

/-- Apply a usable delivery to slot m of carrier c (R198). -/
def applyDelivery (ul : Bool) (c m : Nat) (x : Section) (s : State) : State :=
  (List.range (u x.head 2 2)).foldl (applyVector ul c m x (regionOf (imageAt s x.air) ul c)) s

/-- The claim of a vector names a slot other than (c, m) that has not ended (R200). -/
def claimInUse (c m : Nat) (now : Instant) (w : WeightVec) : Bool :=
  w.claim.isSome && decide (w.claim ≠ some (c, m)) && decide (now < w.ends)

/-- Claim the region of carrier c under image `im` for its slot m, EMPTY, and apply the deliveries that wait for it (R197, R198). The
claim stands whatever another carrier's old region still uses (R200). -/
def claimSlot (im : Image) (ul : Bool) (c m : Nat) (s : State) : State :=
  let reg := regionOf im ul c
  let s1 := (List.range reg.2).foldl (fun t k =>
    let key := vecKey ul (m % 2) (reg.1 + k)
    let t1 := if claimInUse c m (nowU s) (tget {} t.bf.vec key) then statAdd 0x17 (b2n ul) 3 1 t else t
    let w : WeightVec := { claim := some (c, m), ends := slotStart (ccMu im ul c) (m + 1), past := pastOf s (tget {} t.bf.vec key) }
    { t1 with bf := { t1.bf with vec := tset {} t1.bf.vec key w } }) s
  let wait := s1.dl.buffer.filter fun x => deliveryFor s1 ul c m x && !x.applied
  let s2 := wait.foldl (fun t x => applyDelivery ul c m x t) s1
  let buf := s2.dl.buffer.map fun x => if deliveryFor s1 ul c m x then { x with applied := true } else x
  { s2 with dl := { s2.dl with buffer := buf } }

/-- Count since frame 0 of the latest slot whose claim instant has passed at `t`; 0 with none. -/
def latestClaim (mu : Nat) (t : Instant) : Nat :=
  let t' := t - tk 131072
  if t' < 0 then 0
  else
    let k := nextSlot mu t'
    (if slotStart mu k = t' then k else k - 1) + 1

/-- Claims of one carrier under one image whose instants a forward offset write from `old` to `now` passed: of the latest two slots
that the image governs, the instant and the slot. -/
def carrierClaims (old now : Instant) (e : Image × Option Instant × Option Instant) (ul : Bool) (c : Nat) :
    List (Instant × Image × Bool × Nat × Nat) :=
  let mu := ccMu e.1 ul c
  let last := match e.2.2 with
    | some b => Nat.min (latestClaim mu now) (nextSlot mu b - 1)
    | none => latestClaim mu now
  ([last - 1, last].dedup.filter fun m =>
    inSpan e (slotStart mu m) && decide (old < claimInstant mu m) && decide (claimInstant mu m ≤ now)).map fun m =>
      (claimInstant mu m, e.1, ul, c, m)

/-- Claims that a forward offset write from `old` to `now` passed are made at once, in the order of their instants (R197), so that the
two banks of each region come to hold their latest claims. -/
def claimsPassed (old now : Instant) (s : State) : State :=
  let l := (imageSpans s).flatMap fun e => [false, true].flatMap fun ul => (enabledCCs e.1 ul).flatMap (carrierClaims old now e ul)
  (l.insertionSort fun a b => a.1 ≤ b.1).foldl (fun t x => claimSlot x.2.1 x.2.2.1 x.2.2.2.1 x.2.2.2.2 t) s

end Sys2Proof.Machine
end

