-- ==== Sys2Proof/Machine/Beam.lean ====
section
/-! DEFINITION. Cabinet messages and rows, and the claims of dynamic weight banks (R191 to R198). -/

namespace Sys2Proof.Machine

/-- Verdict on record r of `beam.catalogue_write` (R194) in field order (Table 8-5, and Table 8-4 within the tag of a write): none, or
status, detail and whether the payload names the record. The expected CRC is judged at its place, the tag CRC last (log 37). -/
def cabRecordVerdict (p : List Byte) (r : Nat) (s : State) : Option (Nat × Nat × Bool) :=
  let b := 16 + 296 * r
  let e := u p b 2
  let op := u p (b + 2) 1
  let cond := u p (b + 3) 1
  let dup := (List.range r).any fun q => decide (u p (16 + 296 * q) 2 = e)
  let upTo : List (Nat × Bool) :=
    [(b, decide (e ≤ 6143) && !dup), inRange p (b + 2) 1 1 2, inRange p (b + 3) 1 0 1,
     (b + 4, decide (cond = 1 ∨ u p (b + 4) 4 = 0))]
  let after : List (Nat × Bool) :=
    isZero p (b + 8) 16 ::
    (if op = 2 then [isZero p (b + 24) 256, isZero p (b + 280) 16]
     else [inRange p (b + 280) 1 0 15, (b + 281, decide (u p (b + 281) 1 = 1)), (b + 282, decide (u p (b + 282) 2 = e)),
           isZero p (b + 288) 4])
  match firstBad upTo with
  | some o => some (stBadField, 32 + o, false)
  | none =>
    if cond = 1 ∧ cabCrc e (cabOf s e) ≠ u p (b + 4) 4 then some (stRefused, 1, true)
    else match firstBad after with
      | some o => some (stBadField, 32 + o, false)
      | none => if op = 1 ∧ crc32c (slice p (b + 24) 268) ≠ u p (b + 292) 4 then some (stIntegrity, 0, true) else none

/-- Entry that record r writes. -/
def cabRecord (p : List Byte) (r : Nat) : Nat × CabEntry :=
  let b := 16 + 296 * r
  (u p b 2, if u p (b + 2) 1 = 2 then {} else
    { defined := true, weights := slice p (b + 24) 256, cls := u p (b + 280) 1 % 16, label := u p (b + 284) 4 })

/-- First failing record. -/
def cabFirst (p : List Byte) (s : State) : List Nat → Option (Nat × Nat × Nat × Bool)
  | [] => none
  | r :: rs => match cabRecordVerdict p r s with
    | some v => some (r, v)
    | none => cabFirst p s rs

/-- OK payload (Table 8-6). -/
def cabReply (written : Nat) (b : Boundary) : List Byte :=
  leBytes 2 written ++ zeros 6 ++ leBytes 8 b.frame ++ leBytes 1 b.quarter ++ zeros 7

/-- `beam.catalogue_write` (R194). -/
def catalogueWriteBody (a : Asker) (p : List Byte) (s : State) : Reply :=
  let n := u p 0 2
  if p.length < 16 ∨ p.length ≠ 16 + 296 * n then err stBadLength 8 s
  else withFields [inRange p 0 2 0 55, isZero p 2 14] s <|
    match cabFirst p s (List.range n) with
    | some (r, st, d, named) =>
      let e := u p (16 + 296 * r) 2
      let pay := if named then leBytes 2 r ++ [0, 0] ++ leBytes 4 (cabCrc e (cabOf s e)) else []
      { st := s, code := st, detail := d, payload := pay }
    | none =>
      if longRunning .cataloguePersist s then err stBusy 0 s
      else if n = 0 then ok (cabReply 0 {}) s
      else onDomain 5 a s fun s =>
        let s1 := requestLease 1 1 s
        deferred { s1 with bf := { s1.bf with writes := s1.bf.writes ++ [⟨a, (List.range n).map (cabRecord p)⟩] } }

def execBeamCatalogueWrite (ring : Nat) (dma : List Byte) (s : State) : Host.Outcome State Fault Refusal :=
  .next (runMessage 0x0301 ring dma catalogueWriteBody s)

/-- CABINET_WRITE_COMPLETE: the oldest write reaches W; its entries wait for Bc, at most 512 in all (R193). -/
def execCabinetWriteComplete (s : State) : Host.Outcome State Fault Refusal :=
  match s.bf.writes with
  | [] => .next s
  | w :: ws =>
    let (t, bc) := cabinetTimes s.cfg.live (nowU s)
    let b := boundaryAt bc
    let s1 := advanceTo t { s with bf := { s.bf with writes := ws } }
    let s2 := if ws = [] then releaseLease 1 s1 else s1
    let wait := w.records.foldl (fun l r => waitEntry b r.1 r.2 l) s2.bf.waiting
    if 512 < wait.length then .next (finishDeferred w.asker stBusy 0 [] s2)
    else .next (finishDeferred w.asker 0 0 (cabReply w.records.length b) { s2 with bf := { s2.bf with waiting := wait } })

/-- CABINET_BOUNDARY: the waiting entries of the earliest boundary become live at it (R193). -/
def execCabinetBoundary (s : State) : Host.Outcome State Fault Refusal :=
  match firstWaiting s with
  | none => .next s
  | some b => .next (cabinetLive b (advanceTo (boundaryU b) s))

/-- `beam.catalogue_persist` (R195), which reaches the NVM (R336). -/
def cataloguePersistBody (a : Asker) (p : List Byte) (s : State) : Reply :=
  withLength [4] p s <|
  withFields [isZero p 0 4] s <|
  if longRunning .cataloguePersist s ∨ recordBusy 0x0301 s then err stBusy 0 s else onDomain 2 a s (accepted .cataloguePersist)

def execBeamCataloguePersist (ring : Nat) (dma : List Byte) (s : State) : Host.Outcome State Fault Refusal :=
  .next (runMessage 0x0302 ring dma cataloguePersistBody s)

/-- Payload of record 0x0301 (Table 16-3). -/
def cabinetRecord (s : State) : List Byte :=
  leBytes 8 s.bf.liveAt.frame ++ leBytes 1 s.bf.liveAt.quarter ++ zeros 7 ++
    (List.range 6144).flatMap (fun e => cabWeights (cabOf s e)) ++ (List.range 6144).flatMap fun e => cabTag e (cabOf s e)

/-- Load one entry of the Cabinet from the record's data `p`; one that does not verify is empty and raised (R192). -/
def loadEntry (p : List Byte) (t : State) (e : Nat) : State :=
  match cabLoad e (slice p (16 + 256 * e) 256) (slice p (1572880 + 16 * e) 16) with
  | some c => { t with bf := { t.bf with cabinet := tset {} t.bf.cabinet e c } }
  | none => raise 66 (leBytes 2 e ++ [2, 0, 0, 0, 0, 0]) (statAdd 0x17 1 4 1 (statAdd 0x17 0 4 1
      { t with bf := { t.bf with cabinet := tset {} t.bf.cabinet e {} } }))

/-- Load the Cabinet from its record at boot (R192). -/
def loadCabinet (s : State) : State :=
  match recordData s 0x0301 with
  | none => { s with bf := { s.bf with cabinet := [], liveAt := {} } }
  | some p =>
    (List.range 6144).foldl (loadEntry p) { s with bf := { s.bf with liveAt := ⟨u p 0 8, u p 8 1⟩ } }

/-- Key of a carrier and direction among the slots claimed. -/
def claimKey (ul : Bool) (c : Nat) : Nat := 2 * c + b2n ul

/-- Image that governs the slot of a count whose claim instant comes: of two, the one that comes. The instant lies a slot less 131,072 ticks
before the slot; a slot that is due is not past. -/
def claimImage (s : State) (ul : Bool) (c frame slot : Nat) : Option Image :=
  pickNamed (nowU s) 0 ((s.bf.claimed.find? fun e => decide (e.1 = claimKey ul c)).map fun e => e.2) (slotImages s ul c frame slot)

/-- WEIGHT_CLAIM: claim instant F of a slot of a carrier that the image governing the slot enables (R196, R197); BF holds the banks. -/
def execWeightClaim (ul : Bool) (carrier frame slot : Nat) (s : State) : Host.Outcome State Fault Refusal :=
  match claimImage s ul carrier frame slot with
  | none => .next s
  | some im =>
    let mu := ccMu im ul carrier
    let m := slotCountOf mu frame slot
    if s.pwr.ready.getLsbD 5 then 
      let s1 := advanceTo (claimInstant mu m) s
      .next (claimSlot im ul carrier m { s1 with bf := { s1.bf with
        claimed := tput (claimKey ul carrier) (slotStart mu m) (tdrop s1.bf.claimed (claimKey ul carrier)) } })
    else .next s

end Sys2Proof.Machine
end

