-- ==== Sys2Proof/Machine/Arith.lean ====
section
/-! DEFINITION. Arithmetic of the signal chains: rounding and saturation, mod-3 residues (R386), the transforms of R144 and R170,
and the NCO of R148 and R162. -/

namespace Sys2Proof.Machine

/-! ### Saturation and complex numbers -/

/-- Saturate to `w` bits, two's complement. -/
def satBits (w : Nat) (v : Int) : Int := clampI (-(2 ^ (w - 1) : Nat)) ((2 ^ (w - 1) : Nat) - 1) v

/-- A value does not fit `w` bits. -/
def overBits (w : Nat) (v : Int) : Bool := decide (satBits w v ≠ v)

/-- Components of complex values that do not fit `w` bits. -/
def overCount (w : Nat) (l : List IQ) : Nat := (l.map fun x => b2n (overBits w x.1) + b2n (overBits w x.2)).sum

def satIQ (w : Nat) (x : IQ) : IQ := (satBits w x.1, satBits w x.2)

def addIQ (a b : IQ) : IQ := (a.1 + b.1, a.2 + b.2)

/-- The exact complex product (R188). -/
def mulIQ (x w : IQ) : IQ := (x.1 * w.1 - x.2 * w.2, x.1 * w.2 + x.2 * w.1)

def sumIQ (l : List IQ) : IQ := l.foldl addIQ (0, 0)

/-- Convergent rounding of both components of x / d. -/
def rheIQ (x : IQ) (d : Nat) : IQ := (rhe x.1 d, rhe x.2 d)

/-- Output of the beamformer before saturation (R188): acc × 2^-(15 + shift), rounded half to even. -/
def bfRound (shift : Nat) (acc : IQ) : IQ := rheIQ acc (2 ^ (15 + shift))

/-- Raise an event once for each of `n` occurrences alike. -/
def raiseTimes (n e : Nat) (d : List Byte) (s : State) : State := (List.range n).foldl (fun t _ => raise e d t) s

/-- Saturations are counted, and each raises its event (R153, R179, R190). -/
def countSat (src r w n e : Nat) (d : List Byte) (s : State) : State :=
  if n = 0 then s else raiseTimes n e d (statAdd src r w n s)

/-! ### Residues (R386) -/

/-- Residue of a value: v mod 3 of the two's-complement integer. -/
def res3 (v : Int) : Nat := (v % 3).toNat

/-- Predicted residue of a product. -/
def resMul (a b : Nat) : Nat := a * b % 3

/-- Predicted residue of a sum. -/
def resAdd (a b : Nat) : Nat := (a + b) % 3

/-- Predicted residue of a shift by k: times 2^k mod 3. -/
def resShift (k r : Nat) : Nat := if k % 2 = 0 then r % 3 else 2 * r % 3

/-- Predicted residues of the real and imaginary part of a complex product: the minus sign is the residue of −1. -/
def resMulIQ (x w : IQ) : Nat × Nat :=
  (resAdd (resMul (res3 x.1) (res3 w.1)) (resMul 2 (resMul (res3 x.2) (res3 w.2))),
   resAdd (resMul (res3 x.1) (res3 w.2)) (resMul (res3 x.2) (res3 w.1)))

/-- Predicted residues of a sum of complex products, operand pairs as given. -/
def predicted (ops : List (IQ × IQ)) : Nat × Nat :=
  ops.foldl (fun a e => let r := resMulIQ e.1 e.2; (resAdd a.1 r.1, resAdd a.2 r.2)) (0, 0)

/-- The residue of an exact result differs from the predicted one. -/
def mismatch (acc : IQ) (r : Nat × Nat) : Bool := decide ((res3 acc.1, res3 acc.2) ≠ r)

/-- The residue that travels with a value disagrees with the value as received, which an error has changed. -/
def struckValue (v err : IQ) : Bool := mismatch (addIQ v err) (res3 v.1, res3 v.2)

/-- A fault at an exact result of which the error alone is known: a mismatch where a received residue disagrees, or where the error
changes the residue. What is exact and predicted cancels (`mismatch_of_error`). -/
def struckFlip (f : Flip) : Bool := f.received || struckValue (0, 0) f.err

/-- Errors that faults put into lane `l`: index and error. -/
def errorsOf (fs : List Flip) (l : Nat) : List (Nat × IQ) := (fs.filter fun f => decide (f.lane = l)).map fun f => (f.index, f.err)

/-- Error put into one result of a lane. -/
def errorAt (es : List (Nat × IQ)) (k : Nat) : IQ := sumIQ ((es.filter fun e => decide (e.1 = k)).map fun e => e.2)

/-! ### Transforms (R144, R170) -/

/-- Largest r below 2^k with r² ≤ n. -/
def isqrt (n : Nat) : Nat → Nat
  | 0 => 0
  | k + 1 => let r := isqrt (n / 4) k * 2; if (r + 1) * (r + 1) ≤ n then r + 1 else r

/-- Unit of the transform's fixed-point numbers: 2^-64. -/
def fixOne : Int := 2 ^ 64

/-- Product of two fixed-point complex numbers. -/
def fixMul (x w : IQ) : IQ := let p := mulIQ x w; (p.1 / fixOne, p.2 / fixOne)

/-- exp(j2π / 2^n) in fixed point, by halving the angle from a half turn on. -/
def rootOf : Nat → IQ
  | 0 => (fixOne, 0)
  | 1 => (-fixOne, 0)
  | n + 2 =>
    let c := (rootOf (n + 1)).1
    ((isqrt (((fixOne + c) * fixOne / 2).toNat) 65 : Nat), (isqrt (((fixOne - c) * fixOne / 2).toNat) 65 : Nat))

/-- The first `n` powers of a fixed-point number. -/
def powersOf (w : IQ) : Nat → IQ → List IQ
  | 0, _ => []
  | n + 1, x => x :: powersOf w n (fixMul x w)

/-- Elements of even and of odd place. -/
def evens : List IQ → List IQ
  | [] => []
  | [x] => [x]
  | x :: _ :: t => x :: evens t

/-- Discrete Fourier transform of 2^n fixed-point values, Σ x[k] × exp(±j2πkm / 2^n): + for the inverse. -/
def dft (inverse : Bool) : Nat → List IQ → List IQ
  | 0, xs => xs
  | n + 1, xs =>
    let e := dft inverse n (evens xs)
    let o := dft inverse n (evens (xs.drop 1))
    let r := rootOf (n + 1)
    let ws := powersOf (if inverse then r else (r.1, -r.2)) (2 ^ n) (fixOne, 0)
    let t := (o.zip ws).map fun p => fixMul p.1 p.2
    (e.zip t).map (fun p => addIQ p.1 p.2) ++ (e.zip t).map fun p => (p.1.1 - p.2.1, p.1.2 - p.2.2)

/-- A whole number within 2 LSB of a fixed-point number divided by 2^s, chosen by a free value: R144 binds the result no closer. The
bounds are one part in 2^16 wide of the fixed-point number's own error (DESIGN CHOICE, log 75). -/
def within2 (v : Int) (s free : Nat) : Int :=
  let d : Nat := 2 ^ (64 + s)
  let eps : Int := 2 ^ 48
  let lo := ceilDiv (v - eps - 2 * (d : Int)) d
  let hi := (v + eps + 2 * (d : Int)) / (d : Int)
  lo + (free : Int) % (hi - lo + 1)

/-- The N-point transform with its shift before saturation (R144, R170): each component within 2 LSB of the exact one, and for given
inputs always the same. An error in the butterflies (`errs`, by result) leaves that result open. Inputs that are all zero give zero
(DESIGN CHOICE, log 75). -/
def transform (inverse : Bool) (n s : Nat) (xs : List IQ) (errs : List (Nat × IQ)) : List IQ :=
  if errs = [] ∧ xs.all (fun x => decide (x = (0, 0))) then List.replicate n (0, 0) else
  let ys := dft inverse (Nat.log2 n) (xs.map fun x => (x.1 * fixOne, x.2 * fixOne))
  ((List.range n).zip ys).map fun e =>
    let f := Config.fft inverse n s xs e.1
    let bad := errorAt errs e.1
    if bad = (0, 0) then (within2 e.2.1 s f.1, within2 e.2.2 s f.2) else Config.fftStruck inverse n s xs e.1 bad

/-! ### NCO (R148, R162) -/

/-- Phase increment K of a frequency offset in Hz, rounded half to even. -/
def ncoStep (freq : Int) : Int := rhe (freq * 2 ^ 48) 1474560000

/-- Phase at the signed tick offset from the useful part's start. -/
def ncoPhase (k : Int) (offset : Int) : Nat := (offset * k % 2 ^ 48).toNat

/-- exp(j2π / 2^n) for n from 0 to 48, in units of 2^-30. -/
def ncoRoots : List IQ := (List.range 49).map fun n => rheIQ (rootOf n) (2 ^ 34)

/-- exp(j2π × phase / 2^48) in units of 2^-30, as the product of the roots of the phase's bits; within 2^-23 of the exact one. -/
def ncoUnit (phase : Nat) : IQ :=
  ((List.range 48).zip (ncoRoots.drop 1).reverse).foldl (fun a e =>
    if phase.testBit e.1 then (let p := mulIQ a e.2; (p.1 / 2 ^ 30, p.2 / 2 ^ 30)) else a) (2 ^ 30, 0)

/-- A whole number of units of 2^-17 within one of a value in units of 2^-30: how the device rounds is open (log 75). -/
def within1 (v : Int) (free : Nat) : Int :=
  let lo := ceilDiv (v - 128 - 8192) 8192
  lo + (free : Int) % ((v + 128 + 8192) / 8192 - lo + 1)

/-- Cosine and sine of a phase, 18 bits per component: within one unit of the exact ones, and for a given phase always the same. -/
def ncoVector (phase : Nat) : IQ :=
  let x := ncoUnit phase
  (satBits 18 (within1 x.1 (Config.sine18 ((phase + 2 ^ 46) % 2 ^ 48))), satBits 18 (within1 x.2 (Config.sine18 phase)))

/-- Ticks and samples of a symbol's cyclic prefix (Table 6-4). -/
def cpSamples (mu size n : Nat) : Nat := 9 * size / 128 + if n % (7 * 2 ^ mu) = 0 then 2 ^ mu * size / 128 else 0

/-- Ratio between the converter rate and the carrier's sample rate (R146, R159). -/
def rateRatio (mu size : Nat) : Nat := 98304 / (size * 2 ^ mu)

end Sys2Proof.Machine
end

