-- ==== Sys2Proof/Machine/Banks.lean ====
section
/-! DEFINITION. DPD banks and their commits (R216 to R221), the capture memory and captures (R223 to R226), and adaptation
faults (R227 to R229). -/

namespace Sys2Proof.Machine

/-! ### Banks -/

def bankKey (path cls : Nat) : Nat := path * 16 + cls

/-- A bank from its 48 coefficients. -/
def bankOf (cs : List IQ) : Bank := tsetList (0, 0) [] 0 (cs.take 48)

/-- The 384 bytes of a bank's coefficients as Table 9-4 lays them out. -/
def bankBytes (b : Bank) : List Byte := (tgetList (0, 0) b 0 48).flatMap fun c => leI 4 c.1 ++ leI 4 c.2

/-- A coefficient of 6 bytes (Table 16-2), and back. -/
def coef6 (p : List Byte) (o : Nat) : IQ := (i p o 3, i p (o + 3) 3)
def coef6Bytes (c : IQ) : List Byte := leI 3 c.1 ++ leI 3 c.2

/-- Content of the basis set of a path: depth and descriptors; bypass has none (R216). -/
def basisContent (im : Image) (p : Nat) : List Byte :=
  let st := basisSet im p
  if st ≤ 3 then imgBytes im 7 (64 + 256 * st) 208 else []

/-- Neighbour list of a path. -/
def neighbourList (im : Image) (p : Nat) : List Nat := (List.range (neighbourCount im p)).map (neighbourAt im p)

/-- What R216 compares to tell whether a commit changes the basis of a path. -/
def basisKey (im : Image) (p : Nat) : Nat × List Nat × List Byte × List (Nat × Nat × Nat) :=
  (basisSet im p, neighbourList im p, basisContent im p,
    (elementOf im p).2 :: (neighbourList im p).map fun q => (elementOf im q).2)

/-- Image whose section 0x07 is that of a persisted record (Table 16-3). -/
def persistedImage (rec : List Byte) : Image := imgWrite [] 7 0 (rec.take 3136)

/-- Persisted bank of a path and class. -/
def persistedBank (rec : List Byte) (p c : Nat) : Bank :=
  bankOf ((List.range 48).map fun k => coef6 rec (3136 + 288 * (16 * p + c) + 6 * k))

/-- Factory seed bank: 8 coefficients of 6 bytes per bank in record 0x0104. -/
def seedBank (rec : List Byte) (p c : Nat) : Bank :=
  bankOf ((List.range 8).map fun k => coef6 rec (48 * (16 * p + c) + 6 * k))

/-- A bank for path and class under the basis of `im` (R216 items 2 to 4, R220). -/
def storedBank (s : State) (im : Image) (p c : Nat) : Bank :=
  let fallback :=
    if basisContent im p = basisContent [] p ∧ neighbourList im p = neighbourList [] p then
      (match recordData s 0x0104 with | some r => seedBank r p c | none => [])
    else []
  match recordData s 0x0401 with
  | none => fallback
  | some r =>
    if basisContent (persistedImage r) p = basisContent im p ∧ neighbourList (persistedImage r) p = neighbourList im p
    then persistedBank r p c else fallback

/-- Paths whose basis a commit changes (R216). -/
def basisChanged (old new : Image) : List Nat :=
  if tget [] old 7 = tget [] new 7 ∧ tget [] old 6 = tget [] new 6 then []
  else (List.range 64).filter fun p => decide (basisKey old p ≠ basisKey new p)

/-- Replace the banks of the paths whose basis changes at B, and cancel their pending commits (R216). -/
def replaceBanks (s : State) (new : Image) (paths : List Nat) : State :=
  let keys := paths.flatMap fun p => (List.range 16).map fun c => (p, c)
  let s1 := keys.foldl (fun t k =>
    let key := bankKey k.1 k.2
    let b := match tget none t.lin.armedBanks key with
      | some b => b
      | none => storedBank t new k.1 k.2
    { t with lin := { t.lin with live := tset [] t.lin.live key b, shadow := tset [] t.lin.shadow key b } }) s
  { s1 with lin := { s1.lin with
    armedBanks := [],
    commits := (s1.lin.commits.map fun c => { c with pairs := c.pairs.filter fun k => decide (k / 16 ∉ paths) }).filter
      fun c => decide (c.pairs ≠ []) } }

/-- Every bank at boot (R220). -/
def loadBanks (s : State) : State :=
  if (recordData s 0x0401).isNone ∧ (recordData s 0x0104).isNone then { s with lin := { s.lin with live := [], shadow := [] } }
  else ((List.range 64).flatMap fun p => (List.range 16).map fun c => (p, c)).foldl (fun t k =>
    let b := storedBank s [] k.1 k.2
    { t with lin := { t.lin with live := tset [] t.lin.live (bankKey k.1 k.2) b,
                                 shadow := tset [] t.lin.shadow (bankKey k.1 k.2) b } }) s

/-! ### Bank commits (R219) -/

/-- A shadow bank is frozen by a pending commit. -/
def frozen (s : State) (key : Nat) : Bool := s.lin.commits.any fun c => decide (key ∈ c.pairs)

/-- Request a commit of shadow banks at an instant; the boundary of R219. -/
def requestCommit (keys : List Nat) (host : Bool) (at_ : Instant) (s : State) : Boundary × State :=
  let t := at_ + 50 * (usU : Int)
  let b := nextClassSlot (imageAt s t) t
  (boundaryAt b, { s with lin := { s.lin with commits := s.lin.commits ++ [⟨keys, b, host⟩] } })

/-- A commit reaches its boundary: the shadow banks become live, counted per bank, and EV_BANK_COMMIT. -/
def runCommit (c : BankCommit) (s : State) : State :=
  let s1 := c.pairs.foldl (fun t key =>
    let t1 := { t with lin := { t.lin with live := tset [] t.lin.live key (tget [] t.lin.shadow key) } }
    let t2 := statAdd 0x18 (key / 16) (if c.host then 3 else 4) 1 t1
    if c.host then t2
    else
      let a := tget {} t2.lin.adapt key
      let a1 : Adapt := { a with commits := (a.commits + 1) % 2 ^ 32, lastAir := some c.boundary }
      { t2 with lin := { t2.lin with adapt := tset {} t2.lin.adapt key a1 } })
    { s with lin := { s.lin with commits := s.lin.commits.erase c } }
  let n := className (imageAt s c.boundary) c.boundary
  raise 84 (detSym c.pairs.length (if c.host then 1 else 2) 0 { n with symbol := 0 }) s1

/-- The pending commit of the earliest boundary. -/
def firstCommit : List BankCommit → Option BankCommit
  | [] => none
  | c :: cs => match firstCommit cs with
    | none => some c
    | some d => if d.boundary < c.boundary then some d else some c

/-- Commits whose boundary corrected time has passed become live at once (R324); `n` bounds their number. -/
def runPassed (now : Instant) : Nat → State → State
  | 0, s => s
  | n + 1, s => match firstCommit s.lin.commits with
    | none => s
    | some c => if c.boundary ≤ now then runPassed now n (runCommit c s) else s

/-! ### Captures (R223 to R226) -/

/-- Write bytes of the capture memory, and the words that they fill with them. -/
def capWrite (o : Nat) (b : List Byte) (s : State) : State :=
  cleanWords 5 ((o + 7) / 8) ((o + b.length) / 8 - (o + 7) / 8) { s with lin := { s.lin with capMem := tsetList 0 s.lin.capMem o b } }

/-- ORx and selector input of a TX path (R11). -/
def orxOf (path : Nat) : Nat := path / 8
def selOf (path : Nat) : Nat := path % 8

/-- Number that names a capture's source: plan entry, or 0xFF for adaptation. -/
def srcEntry (c : CaptureSrc) : Nat := match c with | .host e => e | .adapt _ _ => 0xFF

/-- Header of a capture record (Table 9-6) without its CRC; `frac` is the alignment fraction. -/
def capHeader (c : Capturing) (state cause frac : Nat) : List Byte :=
  leBytes 1 state ++ leBytes 1 cause ++ leBytes 1 (srcEntry c.src) ++ leBytes 1 c.orx ++ leBytes 1 c.path ++
    leBytes 1 (selOf c.path) ++ leBytes 1 c.cls ++ leBytes 1 c.atten ++ leBytes 4 c.length ++ leBytes 4 c.taken ++
    leBytes 8 c.sym.frame ++ leBytes 1 c.sym.subframe ++ leBytes 1 c.sym.slot ++ leBytes 1 c.sym.symbol ++ [0] ++
    leBytes 4 c.tick ++ leBytes 2 frac ++ zeros 26

/-- Occurrences taken of a capture's plan entry. -/
def takenOf (src : CaptureSrc) (s : State) : Nat := match src with | .host e => tget 0 s.lin.taken e | .adapt _ _ => 0

/-- An adaptation pair faults (R229): state, count, event. -/
def adaptFault (key cause : Nat) (s : State) : State :=
  let a := tget {} s.lin.adapt key
  let s1 := { s with lin := { s.lin with adapt := tset {} s.lin.adapt key { a with state := 2, cause := cause, inputs := [] } } }
  let n := className (imageAt s (nowU s)) (nowU s)
  raise 80 (detSym (key / 16) (key % 16) cause { n with symbol := 0 }) (statAdd 0x18 (key / 16) 6 1 s1)

/-- A capture is missed (Table 9-8): record state 3, count, event; 16 in a row of one pair are fault cause 3. -/
def missCapture (c : Capturing) (cause : Nat) (s : State) : State :=
  let s1 := capWrite c.region (capHeader c 3 cause 0) s
  let s2 := raise 83 (detSym (srcEntry c.src) c.orx cause c.sym) (statAdd 0x19 c.orx 1 1 s1)
  match c.src with
  | .host _ => s2
  | .adapt p k =>
    let key := bankKey p k
    let a := tget {} s2.lin.adapt key
    let s3 := { s2 with lin := { s2.lin with adapt := tset {} s2.lin.adapt key { a with missedRun := a.missedRun + 1 } } }
    if 16 ≤ a.missedRun + 1 then adaptFault key 3 s3 else s3

/-- Release the leases that no capture in progress needs. -/
def releaseCaptureLeases (orx : Nat) (s : State) : State :=
  let s1 := if s.lin.caps.any fun c => decide (c.orx = orx) then s else releaseLease (3 + orx) s
  if s1.lin.caps = [] then releaseLease 2 s1 else s1

/-! ### The ORx selectors (R261) -/

/-- Plan entry e has an occurrence in frame f. -/
def occursIn (e : PlanEntry) (f : Nat) : Bool :=
  decide (e.frame ≤ f) && (if e.period = 0 then decide (f = e.frame) else decide ((f - e.frame) % e.period = 0))

/-- First tick of entry e's occurrence in frame f, on the class carrier of an image. -/
def occurrenceStart (im : Image) (e : PlanEntry) (f : Nat) : Instant :=
  airOf (classMu im) ⟨0, f, e.subframe, e.slot, e.symbol⟩ + tk e.tick

/-- First tick of entry e's first occurrence at or after an instant. -/
def nextOccurrence (s : State) (e : PlanEntry) (t : Instant) : Option Instant :=
  let t1 := max t s.lin.planFrom
  let f := (t1 / frameU).toNat
  let first := if f ≤ e.frame + 1 then e.frame else if e.period = 0 then e.frame else e.frame + (f - 1 - e.frame) / e.period * e.period
  (([first, first + e.period, first + 2 * e.period].map (occurrenceStart s.cfg.live e)).filter fun x => decide (t1 ≤ x)).head?

/-- In the tick after a capture's last sample its ORx takes the selector input and attenuation of the next capture that the plan gives it
(R261); one that firmware chooses is not known before it begins. -/
def selectNext (orx : Nat) (t : Instant) (s : State) : State :=
  match ((s.lin.plan.filter fun e => decide (orxOf e.path = orx)).filterMap fun e => (nextOccurrence s e t).map fun x => (x, e)).foldl
    (fun a x => match a with
      | some y => if x.1 < y.1 then some x else some y
      | none => some x) (none : Option (Instant × PlanEntry)) with
  | some x => { s with lin := { s.lin with orx := tset 0 s.lin.orx orx (selOf x.2.path * 32 + x.2.atten) } }
  | none => s

/-- Captures in progress that meet `p` stop: each is missed with a cause. -/
def stopCaptures (p : Capturing → Bool) (cause : Nat) (s : State) : State :=
  let gone := s.lin.caps.filter p
  gone.foldl (fun t c => selectNext c.orx (nowU s) (releaseCaptureLeases c.orx (missCapture c cause t)))
    { s with lin := { s.lin with caps := s.lin.caps.filter fun c => !p c } }

/-- The captures on ORx of tile q are missed with cause 4 (R268, Table 9-8). -/
def missTile (q : Nat) (s : State) : State := stopCaptures (fun c => decide (c.orx / 2 = q)) 4 s

/-- Leaving the OPERATE modes pauses the running pairs, which a firmware notice counts; coming back resumes them (R227). -/
def pauseAdaptation (operate : Bool) (s : State) : State :=
  if operate then { s with lin := { s.lin with adapt := s.lin.adapt.map fun e => (e.1, { e.2 with paused := false }) } }
  else
    let run := (s.lin.adapt.filter fun e => decide (e.2.state = 1) && !e.2.paused).length
    let s1 := { s with lin := { s.lin with adapt := s.lin.adapt.map fun e =>
      (e.1, if e.2.state = 1 then { e.2 with paused := true } else e.2) } }
    if run = 0 then s1 else raise 240 (det 1 0 0 0 run) s1

end Sys2Proof.Machine
end

