-- ==== Sys2Proof/Machine/FrontEnd.lean ====
section
/-! DEFINITION. Front-end operations that several families share: the frame timer's levels (R271), applied attenuation
(R258), synthesisers (R264, R268), RX gain steps (R165, R166) and the marks they set on UL symbols. -/

namespace Sys2Proof.Machine

/-! ### Frame timer (R271) -/

/-- Tick offset of an instant within its frame. -/
def frameTick (t : Instant) : Nat := (t % frameU / tickU).toNat

/-- Set a target of the pattern: FE_GPIO[0..31], 32 TX enable, 33 RX enable. -/
def setTarget (target : Nat) (level : Bool) (s : State) : State :=
  if target < 32 then
    notePin { s with rf := { s.rf with gpio := tset false s.rf.gpio target level } } target
  else if target = 32 then { s with rf := { s.rf with txEnable := level } }
  else if target = 33 then { s with rf := { s.rf with rxEnable := level } }
  else s

/-- In FDD TX enable and RX enable stay at 1 (R271). -/
def fddLevels (im : Image) (s : State) : State :=
  if isFdd im then { s with rf := { s.rf with txEnable := true, rxEnable := true } } else s

/-- One target takes the level that the pattern gives at an offset of the frame; the enables of an FDD pattern stay high. -/
def patternLevel (im : Image) (off : Nat) (t : State) (k : Nat) : State :=
  match levelAt (tddEvents im) k off with
  | some l => if isFdd im && decide (32 ≤ k) then t else setTarget k l t
  | none => t

/-- Each target that the pattern names takes the level it gives at an offset of the frame; the others hold (R271). -/
def patternLevels (im : Image) (off : Nat) (s : State) : State :=
  fddLevels im (((tddEvents im).map fun e => e.2.1).dedup.foldl (patternLevel im off) s)

/-- The pattern starts to run at M of entry (R271): a target it does not name holds the safe level (roles 1 and 2), 0 (TX
enable) or its last level. -/
def patternEntry (s : State) : State :=
  let rest := (List.range 32).foldl (fun t n => if pinRole t n = 0 then t else setTarget n (pinSafe t n) t) s
  let s1 := { rest with rf := { rest.rf with txEnable := false, running := true } }
  patternLevels s1.cfg.live (frameTick (nowU s1)) s1

/-- Two events of the pattern that set one target at one time: the index of the later record (R271). -/
def patternClash (evs : List (Nat × Nat × Bool)) : Option (Nat × (Nat × Nat × Bool)) :=
  ((List.range evs.length).zip evs).find? fun e => (evs.take e.1).any fun f => decide (f.1 = e.2.1) && decide (f.2.1 = e.2.2.1)

/-! ### Attenuation (R258) -/

/-- Group of a thermal sensor (Table 15-1). -/
def sensorGroup (n : Nat) : Nat := if n < 16 then 0 else 1 + (n - 16) / 4

/-- A sensor of group g is tripped against the derating threshold. -/
def derateTripped (s : State) (g : Nat) : Bool := s.th.sensor.any fun e => decide (sensorGroup e.1 = g) && e.2.tripD

/-- A sensor of group g is tripped against the warning threshold. -/
def warnTripped (s : State) (g : Nat) : Bool := s.th.sensor.any fun e => decide (sensorGroup e.1 = g) && e.2.tripW

/-- Derating is enabled and group g acts on it. -/
def derateActs (s : State) (g : Nat) : Bool := decide (bits (u s.th.acting 0 1) 3 1 = 1) && derateTripped s g

/-- Attenuation that path p is to have (R258, R360, R427), in 0.25 dB, capped at 127. -/
def wantedAtten (s : State) (p : Nat) : Nat :=
  Nat.min 127 (txAtten s.cfg.live p + (if derateActs s 0 || derateActs s (1 + p / 16) then u s.th.acting 1 1 else 0) +
    (if s.rf.backoff then 12 else 0))

/-- The paths take the attenuation that is wanted: the first tick of a class-carrier symbol, or a commit boundary (R258). -/
def applyAtten (s : State) : State :=
  { s with rf := { s.rf with atten := (List.range 64).foldl (fun t p => tset 40 t p (wantedAtten s p)) s.rf.atten } }

/-- A change of the wanted attenuation is decided: it takes effect at once with no DL carrier enabled, else it waits for the first
tick of the next class-carrier symbol (R258). -/
def updateAtten (s : State) : State := if (classCarrier s.cfg.live).isNone then applyAtten s else s

/-! ### Synthesisers -/

/-- Divider, integer and fraction for a frequency in mHz (R264). -/
def loParams (f : Nat) : Nat × Nat × Nat :=
  let d := ([1, 2, 4, 8, 16].find? fun d => decide (6000000000000 ≤ f * d)).getD 16
  let v := (rhe ((f * d * 2 ^ 32 : Nat) : Int) 368640000000).toNat
  (d, v / 2 ^ 32, v % 2 ^ 32)

/-- Realised frequency in kHz (R264, R281), rounded to nearest. -/
def loKHz (l : Lo) : Nat := (rhe ((368640 * (l.n * 2 ^ 32 + l.f) : Nat) : Int) (2 ^ 32 * Nat.max 1 l.divider)).toNat

def loOf (s : State) (k : Nat) : Lo := tget {} s.rf.lo k

def setLo (k : Nat) (l : Lo) (s : State) : State := { s with rf := { s.rf with lo := tset {} s.rf.lo k l } }

/-- Mean reading of the valid core-die sensors, in 0.25 °C. -/
def coreTemp (s : State) : Int :=
  let t := ((List.range 16).map fun n => tget {} s.th.sensor n).filter fun x => x.valid
  rhe (t.map fun x => x.temp).sum (Nat.max 1 t.length)

/-- VCO band for the present temperature, chosen at every start (R325); 0 where that is not enabled and without a valid curve. -/
def vcoBand (s : State) (k : Nat) : Nat :=
  match if (u s.clk.sources 19 1).testBit 1 then recordData s 0x0103 else none with
  | some c => Config.vcoBand c (loFreq s.cfg.live k) (coreTemp s)
  | none => 0

/-- Start a synthesiser toward the live plan (R267, R268); a retune is counted. -/
def startLo (retune : Bool) (s : State) (k : Nat) : State :=
  let (d, n, f) := loParams (loFreq s.cfg.live k)
  let s1 := setLo k { state := 1, divider := d, n := n, f := f, since := s.tm.raw, late := false, retune := retune, band := vcoBand s k } s
  if retune then statAdd 0x1A k 4 1 s1 else s1

/-- EV_LO_UNLOCK (Table 11-12). -/
def loEvent (k cause : Nat) (s : State) : State := raise 113 (det (k / 2) (k % 2) cause 0 (loKHz (loOf s k))) s

/-! ### Silence at the DACs (R152, R268) -/

/-- An interval of silence that has not ended. -/
def Silence.isOpen (x : Silence) (mute : Bool) (q : Nat) : Bool := decide (x.tile = q) && decide (x.mute = mute) && x.until_.isNone

/-- The DAC samples of tiles are zero from now on; a silence that still lasts goes on. -/
def silenceTiles (qs : List Nat) (mute : Bool) (s : State) : State :=
  let new := (qs.filter fun q => !s.dl.silence.any fun x => x.isOpen mute q).map fun q => (⟨q, nowU s, none, mute⟩ : Silence)
  { s with dl := { s.dl with silence := s.dl.silence ++ new } }

/-- The silence of tiles ends with the first tick of the symbol, or at the boundary, of an air time. Intervals that ended 100 ms before
have served. -/
def endSilence (qs : List Nat) (mute : Bool) (air : Instant) (s : State) : State :=
  let ended := s.dl.silence.map fun x => if decide (x.tile ∈ qs) && x.isOpen mute x.tile then { x with until_ := some air } else x
  { s with dl := { s.dl with silence := ended.filter fun x =>
      match x.until_ with | some e => decide (air < e + 100 * (msU : Int)) | none => true } }

/-! ### Marks on UL symbols -/

/-- Symbols of a carrier, by index since frame 0, that meet the interval from `a` to `b`. -/
def symbolsIn (mu : Nat) (a b : Instant) : List Nat :=
  let lo := symbolAt mu a
  (List.range (symbolAt mu b - lo + 1)).map fun k => lo + k

/-- Set a mark on a path's symbol of a carrier. -/
def addMark (carrier : Nat) (air : Instant) (path flag : Nat) (step : Int) (s : State) : State :=
  { s with ul := { s.ul with marks := s.ul.marks ++ [⟨carrier, air, path, flag, step⟩] } }

/-- Carrier number of a mark that stands for an instant, or with the flag CORRUPT for an interval whose length is in the
step's place: what PRACH repetitions are judged by (R174). -/
def noCarrier : Nat := 4

/-- Symbols of the enabled UL carriers that meet an interval, each of the image that governs it: carrier and air time. -/
def symbolsMet (s : State) (a b : Instant) : List (Nat × Instant) :=
  (imageSpans s).flatMap fun e => (enabledCCs e.1 true).flatMap fun c =>
    ((symbolsIn (ccMu e.1 true c) a b).map (symbolStart (ccMu e.1 true c))).filterMap fun t => if inSpan e t then some (c, t) else none

/-- Every symbol of every enabled UL carrier that meets an interval is marked for a list of paths. -/
def markInterval (paths : List Nat) (a b : Instant) (flag : Nat) (s : State) : State :=
  let new := (symbolsMet s a b).flatMap fun x => paths.map fun p => (⟨x.1, x.2, p, flag, 0⟩ : UlMark)
  let exact := paths.map fun p => (⟨noCarrier, a, p, flag, b - a⟩ : UlMark)
  { s with ul := { s.ul with marks := s.ul.marks ++ new ++ exact } }

/-! ### Path delays (R8, R136, R158) -/

/-- External delay of a path in ps (Table 11-5). -/
def externalDelay (im : Image) (rx : Bool) (p : Nat) : Nat := cf im 12 (16 * p + if rx then 8 else 4) 4

/-- d(p) in 2^-8 tick, rounded half to even (R136, R158). -/
def pathDelay (s : State) (im : Image) (rx : Bool) (p : Nat) : Nat :=
  (rhe (((calibratedDelay s rx p + externalDelay im rx p) * 37748736 : Nat) : Int) 100000000).toNat

/-- d(p) as a duration, in whole units of time. -/
def delayU (s : State) (im : Image) (rx : Bool) (p : Nat) : Instant := ((pathDelay s im rx p * tickU / 256 : Nat) : Int)

/-- Marks for an interval at the pins of RX paths: a sample at the pins at t + d(p) has air time t (R8, R158). -/
def markPins (paths : List Nat) (a b : Instant) (flag : Nat) (s : State) : State :=
  paths.foldl (fun t p => let d := delayU s (imageAt s a) true p
                          markInterval [p] (a - d) (b - d) flag t) s

/-! ### Decimation filters (R164) -/

/-- A commit clears the decimation filter and NCO of a carrier (R164). -/
def filterCleared (old new : Image) (c : Nat) : Bool :=
  ccEnabled new true c && (!ccEnabled old true c || decide (ccDecim old c ≠ ccDecim new c) || decide (ccN old true c ≠ ccN new true c) ||
    decide (ccMu old true c ≠ ccMu new true c) || decide (ccBw old true c ≠ ccBw new true c) ||
    decide (ccFreq old true c ≠ ccFreq new true c))

/-- Boundary at which the filter of a carrier was last cleared before a symbol of an air time, as far as a filter can still reach back. -/
def clearedAt (s : State) (c : Nat) (air : Instant) : Option Instant :=
  match s.cfg.prev with
  | some (old, b) => if filterCleared old s.cfg.live c && decide (boundaryU b ≤ air) then some (boundaryU b) else none
  | none => none

/-! ### RX gain (R165, R166) -/

def plannedGain (s : State) (p : Nat) : Nat := tget 20 s.ul.planned p
def appliedGain (s : State) (p : Nat) : Nat := plannedGain s p - tget 0 s.ul.reduction p

/-- The applied gain of a path has changed from `old`; its alignment multiplier switches 128 ticks after `t` (R166, R167). Changes older
than 100 ms have served. -/
def noteGain (p : Nat) (t : Instant) (old : Nat) (s : State) : State :=
  { s with ul := { s.ul with gains := (s.ul.gains.filter fun g => decide (t < g.air + 100 * (msU : Int))) ++
      [⟨p, t + tk 128, old, appliedGain s p⟩] } }

/-- A planned step is reported at boundary instant b (R166): AGC_STEP on each symbol that starts at b, CORRUPT on a symbol of
another carrier that b falls inside; it is counted for the path (Table 7-8). `old` is the applied gain before it. -/
def reportStep (im : Image) (p : Nat) (b : Instant) (old : Nat) (s : State) : State :=
  let step : Int := (appliedGain s p : Int) - old
  if step = 0 then s
  else (enabledCCs im true).foldl (fun t c =>
    let n := symbolAt (ccMu im true c) b
    let air := symbolStart (ccMu im true c) n
    if air = b then addMark c air p 0 step t else addMark c air p 1 0 t)
      (addMark noCarrier b p 0 step (statAdd 0x12 p 6 1 (noteGain p b old s)))

/-- A planned step of path p at b, clamped to 0 to 30 dB (R165, R166): what it moves the applied gain by is reported. -/
def plannedStep (im : Image) (b : Instant) (p : Nat) (step : Int) (s : State) : State :=
  let new := (clampI 0 30 (plannedGain s p + step)).toNat
  reportStep im p b (appliedGain s p) { s with ul := { s.ul with planned := tset 20 s.ul.planned p new } }

/-- At a commit boundary each planned gain becomes the path's RX gain; a change of the applied gain is a planned step (R165). -/
def gainsAtCommit (im : Image) (b : Instant) (s : State) : State :=
  (List.range 64).foldl (fun t p =>
    reportStep im p b (appliedGain t p) { t with ul := { t.ul with planned := tset 20 t.ul.planned p (rxGain im p) } }) s

end Sys2Proof.Machine
end

