-- ==== Sys2Proof/Machine/Chain.lean ====
section
/-! DEFINITION. The downlink's sample chain, by air-time ticks: beamformer output, iFFT and cyclic prefix (R143, R144), interpolation,
NCO and combining (R146 to R149), CFR (R206 to R209), predistortion (R210 to R214), the converter code and the word of R14, and the
playout of a path (R136, R137, R151, R152). Every value depends on air time and content alone (R28, R29). -/

namespace Sys2Proof.Machine

/-! ### Beamformer output (R188) -/

/-- Operands of acc of R188 for element record `e` at resource element k: value and weight of each layer that carries it. -/
def bfOperands (im : Image) (c : Nat) (ls : List LayerContent) (e k : Nat) : List (IQ × IQ) :=
  let p := k / 12
  let j := k % 12
  ls.filterMap fun l =>
    match l.prbs.find? fun x => decide (x.1 = p), l.weights.find? fun x => decide (x.1 = p / bfGran im false c) with
    | some (_, vs), some (_, w) => some ((vs.getD (2 * j) 0, vs.getD (2 * j + 1) 0), w.getD e (0, 0))
    | _, _ => none

/-- acc of R188: the exact sum of exact products. -/
def accOf (ops : List (IQ × IQ)) : IQ := sumIQ (ops.map fun x => mulIQ x.1 x.2)

/-- Resource elements that some layer carries. -/
def carriedRes (c : Released) : List Nat :=
  (c.layers.flatMap fun l => l.prbs.map fun x => x.1).dedup.flatMap fun p => (List.range 12).map fun j => 12 * p + j

/-- Antenna stream n at a resource element before saturation, with the error a fault has put into its sum. -/
def bfOut (im : Image) (r : Released) (n k : Nat) : IQ :=
  bfRound (bfShift im false)
    (addIQ (accOf (bfOperands im r.sym.carrier r.layers (elementOf im n).1 k)) (errorAt (errorsOf r.bfErrs n) k))

/-- The iFFT bins of an antenna (R141): bin b holds resource element (b + 6P) mod N. -/
def dlBins (im : Image) (r : Released) (n : Nat) : List IQ :=
  let c := r.sym.carrier
  let size := ccN im false c
  let p := ccP im false c
  let carried := carriedRes r
  (List.range size).map fun b =>
    let k := (b + 6 * p) % size
    if k ∈ carried then satIQ 16 (bfOut im r n k) else (0, 0)

/-- iFFT output of an antenna before saturation (R144). -/
def ifftOut (im : Image) (r : Released) (n : Nat) : List IQ :=
  transform true (ccN im false r.sym.carrier) (ccShift im false r.sym.carrier) (dlBins im r n) (errorsOf r.fftErrs n)

/-- The symbol's time-domain stream (R143): the cyclic prefix, a copy of the last samples, then the useful part. A sample that fails parity
on the way from the iFFT's island is zero (R385). -/
def symbolStream (im : Image) (r : Released) (n : Nat) : List IQ :=
  let useful := ((List.range (ccN im false r.sym.carrier)).zip (ifftOut im r n)).map fun e =>
    if (n, e.1) ∈ r.zeros then (0, 0) else satIQ 16 e.2
  let cp := cpSamples (ccMu im false r.sym.carrier) useful.length (symIndex (ccMu im false r.sym.carrier) r.sym)
  useful.drop (useful.length - cp) ++ useful

/-! ### Up-conversion and combining (R146 to R149) -/

/-- What one released symbol gives an antenna: its ticks, the ratio q, its stream (empty with no scheduled content), the first tick of
its useful part, the NCO's step, and the carrier scale. -/
structure SymView where
  carrier : Nat
  start : Int
  length : Nat
  q : Nat
  stream : Array IQ
  useful : Int
  step : Int
  scale : Nat

/-- The view of a released symbol, by the image that governs it. -/
def symView (s : State) (p : Nat) (r : Released) : SymView :=
  let im := imageAt s r.air
  let c := r.sym.carrier
  let mu := ccMu im false c
  let q := rateRatio mu (ccN im false c)
  { carrier := c, start := tickOf r.air, length := r.length, q := q,
    stream := if r.layers = [] then #[] else (symbolStream im r p).toArray,
    useful := tickOf r.air + (q * cpSamples mu (ccN im false c) (symIndex mu r.sym) : Nat),
    step := ncoStep (ccFreq im false c), scale := ccScale im false c }

/-- Views of every released symbol for an antenna. -/
def viewsOf (s : State) (p : Nat) : List SymView := s.dl.released.map (symView s p)

/-- A view holds a tick. -/
def SymView.holds (v : SymView) (t : Int) : Bool := decide (v.start ≤ t) && decide (t < v.start + v.length)

/-- Sample of a carrier's stream at a tick of its grid: zero where no symbol with content is there. -/
def streamAt (vs : List SymView) (c : Nat) (t : Int) : IQ :=
  match vs.find? fun v => decide (v.carrier = c) && v.holds t with
  | some v => v.stream.getD ((t - v.start) / v.q).toNat (0, 0)
  | none => (0, 0)

/-- The interpolated stream at a tick (R146): samples stand at the multiples of q, symbols starting on one, and the filter of q reaches
over the symbols' edges; its group delay is compensated. -/
def interpolated (vs : List SymView) (c q : Nat) (t : Int) : IQ :=
  let near : Int := t / q
  let reach := Config.interpReach q
  sumIQ ((List.range (2 * reach + 1)).map fun k =>
    let g := (near + k - reach) * q
    let x := streamAt vs c g
    let h := Config.interpTap q (t - g)
    (x.1 * h, x.2 * h))

/-- The carrier's shifted sample at a tick of a symbol (R148), in units of 2^-(15 + 17 + the filter's fraction). -/
def shiftedAt (vs : List SymView) (v : SymView) (t : Int) : IQ :=
  mulIQ (interpolated vs v.carrier v.q t) (ncoVector (ncoPhase v.step (t - v.useful)))

/-- Combined sample at a tick before saturation (R149): each enabled carrier has one released symbol there. -/
def combinedSum (vs : List SymView) (t : Int) : IQ :=
  if vs.all fun v => v.stream.isEmpty then (0, 0)
  else
    let sum := sumIQ ((vs.filter fun v => v.holds t).map fun v =>
      let x := shiftedAt vs v t
      (x.1 * (v.scale : Int), x.2 * (v.scale : Int)))
    rheIQ sum (2 ^ (15 + 17 + Config.interpFrac))

/-- Ticks from `a` on. -/
def ticksFrom (a : Int) (n : Nat) : List Int := (List.range n).map fun k => a + k

/-- Combined samples of a path over `n` ticks from `a`, before saturation. -/
def combinedOver (s : State) (p : Nat) (a : Int) (n : Nat) : List IQ :=
  let vs := viewsOf s p
  (ticksFrom a n).map (combinedSum vs)

/-! ### Crest-factor reduction (R206 to R209) -/

/-- |x| to 18 bits in units of 2^-17, the exact square root rounded (R212): no square root of a whole number is a tie. -/
def magnitude (x : IQ) : Nat := (isqrt (4 * (16 * (x.1 * x.1 + x.2 * x.2).toNat)) 20 + 1) / 2

/-- Largest t below 2^k with t^200 ≤ n. -/
def root200 (n : Nat) : Nat → Nat
  | 0 => 0
  | k + 1 =>
    (List.range (k + 1)).foldl (fun t j => let u := t + 2 ^ (k - j); if u ^ 200 ≤ n then u else t) 0

/-- r × 2^-15 × 10^(x / 200) in 18 bits of units of 2^-17, rounded (R206); `x` in tenths of a dB. The power of ten is irrational for
the field's range, so that no value is a tie. A threshold of full scale and above cancels nothing. -/
def threshold (r x : Nat) : Nat := Nat.min 262143 ((root200 ((8 * r) ^ 200 * 10 ^ x) 21 + 1) / 2)

/-- Taps of a carrier's pulse (R207): by its ACLR budget, and 1,023 below 20 MHz. -/
def pulseTaps (im : Image) (c : Nat) : Nat :=
  let b := cf im 8 (17 + 8 * c) 1
  if ccBw im false c < 20000 then 1023 else if b ≤ 45 then 255 else if b ≤ 55 then 511 else 1023

/-- A carrier's own pulse at an offset from its centre: zero beyond its taps; flat over its 12 × P subcarriers, about its offset. -/
def carrierPulse (im : Image) (c : Nat) (k : Int) : IQ :=
  let n := pulseTaps im c
  if k.natAbs ≤ n / 2 then satIQ 18 (Config.cfrPulse (ccFreq im false c) (12 * ccP im false c * 15000 * 2 ^ ccMu im false c) n k) else (0, 0)

/-- Sum of the enabled carriers' pulses, each weighted with its EVM budget. -/
def pulseSum (im : Image) (k : Int) : IQ :=
  sumIQ ((enabledCCs im false).map fun c =>
    let w := (cf im 8 (16 + 8 * c) 1 : Int)
    let x := carrierPulse im c k
    (x.1 * w, x.2 * w))

/-- The cancellation pulse (R207): the weighted sum normalised to a peak of 1, 18 bits per component. Their unit is 2^-16, so that the peak
of 1 is one of their values (DESIGN CHOICE, log 41). Dividing by the sum of the budgets leaves what the normalisation gives. -/
def pulseAt (im : Image) (k : Int) : IQ :=
  if k = 0 then (65536, 0) else
    let top := (pulseSum im 0).1.toNat
    let x := pulseSum im k
    satIQ 18 (rheIQ (x.1 * 65536, x.2 * 65536) (Nat.max 1 top))

/-- Section 0x08 as the stages need it, computed once per commit. -/
structure CfrPlan where
  stages : List Nat
  clip : Option Nat
  pulse : Array IQ

/-- Longest reach of a pulse. -/
def pulseReach : Nat := 511

/-- CFR of an image (R205 to R207). -/
def cfrPlan (im : Image) : CfrPlan :=
  let n := cf im 8 0 1
  let r := cf im 8 2 2
  let papr := cf im 8 1 1
  { stages := (List.range n).map fun k => threshold r (papr + cf im 8 (4 + k) 1),
    clip := if n ≠ 0 ∧ cf im 8 8 1 = 1 then some (threshold r papr) else none,
    pulse := if n = 0 then #[] else ((List.range (2 * pulseReach + 1)).map fun k => pulseAt im ((k : Int) - pulseReach)).toArray }

/-- Coefficient of a plan's pulse at an offset. -/
def CfrPlan.at (c : CfrPlan) (k : Int) : IQ := if k.natAbs ≤ pulseReach then c.pulse.getD (k + pulseReach).toNat (0, 0) else (0, 0)

/-- Threshold of a stage; none where the stage is not in use. -/
def CfrPlan.stage (c : CfrPlan) (k : Nat) : Option Nat := c.stages[k]?

/-- CFR of the images that may govern a window: that of the live image, and of the armed and previous ones. -/
def cfrPlanAt (s : State) : Int → CfrPlan :=
  let live := cfrPlan s.cfg.live
  let prev := s.cfg.prev.map fun e => (cfrPlan e.1, tickOf (boundaryU e.2))
  let armed := s.cfg.armed.map fun e => (cfrPlan e.1, tickOf (boundaryU e.2))
  fun t => match armed with
    | some (c, b) => if b ≤ t then c else (match prev with | some (d, pb) => if t < pb then d else live | none => live)
    | none => match prev with | some (d, pb) => if t < pb then d else live | none => live

/-- Place k of a window is a peak of stage `i` (R206 step 1): above the threshold and largest within 8 ticks, the earlier of equals. -/
def isPeak (mags : Array Nat) (k limit : Nat) : Bool :=
  let m := mags.getD k 0
  decide (limit < m) && (List.range 17).all fun j =>
    if j < 8 then decide (k + j < 8) || decide (mags.getD (k + j - 8) 0 < m) else decide (mags.getD (k + j - 8) 0 ≤ m)

/-- Of the peaks in order, those that are taken: none within 16 consecutive ticks of the one taken before (R206 step 2). -/
def takePeaks : Option Nat → List Nat → List Nat
  | _, [] => []
  | none, k :: ks => k :: takePeaks (some k) ks
  | some l, k :: ks => if k < l + 16 then takePeaks (some l) ks else k :: takePeaks (some k) ks

/-- x × (|x| − T) / |x| (R206 step 3), with the fraction bits that the amount has. -/
def peakAmount (x : IQ) (m limit : Nat) : IQ :=
  let f : Int := 2 ^ Config.cfrFrac
  rheIQ (x.1 * ((m : Int) - limit) * f, x.2 * ((m : Int) - limit) * f) (Nat.max 1 m)

/-- A window after a stage or the clip: samples before saturation, and the places whose peaks were cancelled. -/
structure CfrStep where
  out : List IQ
  peaks : List Nat

/-- Stage i on a window that begins at tick `a` (R206, R209): each stage stores 16 bits. -/
def cfrStage (plan : Int → CfrPlan) (a : Int) (i : Nat) (xs : List IQ) : CfrStep :=
  let limit (k : Nat) : Option Nat := (plan (a + k)).stage i
  if (List.range xs.length).all fun k => (limit k).isNone then ⟨xs, []⟩ else
  let mags := (xs.map magnitude).toArray
  let peaks := takePeaks none ((List.range xs.length).filter fun (k : Nat) => match limit k with | some t => isPeak mags k t | none => false)
  let arr := xs.toArray
  let amounts := peaks.map fun (k : Nat) => (k, plan (a + k), peakAmount (arr.getD k (0, 0)) (mags.getD k 0) ((limit k).getD 0))
  let out := if peaks = [] then xs else ((List.range xs.length).zip xs).map fun e =>
    let near := amounts.filter fun q => decide (e.1 ≤ q.1 + pulseReach) && decide (q.1 ≤ e.1 + pulseReach)
    if near.isEmpty then e.2
    else
      let sum := sumIQ (near.map fun q => mulIQ q.2.2 (q.2.1.at ((e.1 : Int) - q.1)))
      let d : Nat := 2 ^ (16 + Config.cfrFrac)
      rheIQ (e.2.1 * (d : Int) - sum.1, e.2.2 * (d : Int) - sum.2) d
  ⟨out, peaks⟩

/-- The final clip (R206): a sample whose magnitude exceeds T is scaled to T, its phase unchanged. -/
def cfrClip (plan : Int → CfrPlan) (a : Int) (xs : List IQ) : List IQ :=
  ((List.range xs.length).zip xs).map fun e =>
    match (plan (a + e.1)).clip with
    | some t =>
      let m := magnitude e.2
      if t < m then rheIQ (e.2.1 * (t : Int), e.2.2 * (t : Int)) m else e.2
    | none => e.2

/-- What CFR makes of a window: its output, the saturations of every store by place, and the peaks by place. -/
structure CfrRun where
  out : List IQ
  overs : List (List IQ)
  peaks : List Nat

/-- The part of a window's run from place `k` on, `n` places long. -/
def CfrRun.cut (r : CfrRun) (k n : Nat) : CfrRun :=
  ⟨(r.out.drop k).take n, r.overs.map fun l => (l.drop k).take n,
   (r.peaks.filter fun j => decide (k ≤ j) && decide (j < k + n)).map fun j => j - k⟩

/-- Four stages in index order, each on the stored output of the one before, then the clip. -/
def cfrRun (plan : Int → CfrPlan) (a : Int) (xs : List IQ) : CfrRun :=
  let r := (List.range 4).foldl (fun (acc : CfrRun) i =>
    let st := cfrStage plan a i acc.out
    (⟨st.out.map (satIQ 16), acc.overs ++ [st.out], acc.peaks ++ st.peaks⟩ : CfrRun)) ⟨xs, [], []⟩
  let c := cfrClip plan a r.out
  ⟨c.map (satIQ 16), r.overs ++ [c], r.peaks⟩

/-- Ticks before and after a window that its CFR output is formed with: beyond the reach of four stages of pulses and peaks
(DESIGN CHOICE, log 41: a longer run of peaks, each within 16 ticks of the one before, is judged from there on). -/
def cfrPad : Nat := 8192

/-- CFR output of a path over `n` ticks from `a`, with the saturations and peaks of the places of the window (R209). -/
def cfrOver (s : State) (p : Nat) (a : Int) (n : Nat) : CfrRun :=
  (cfrRun (cfrPlanAt s) (a - cfrPad) ((combinedOver s p (a - cfrPad) (n + 2 * cfrPad)).map (satIQ 16))).cut cfrPad n

/-! ### Predistortion (R211, R212) -/

/-- |x|^k in units of 2^-17, each power the rounded product of the one before and |x|; |x|^0 is 1. -/
def power (x : IQ) : Nat → Nat
  | 0 => 131072
  | 1 => magnitude x
  | k + 2 =>
    let v := (rhe ((power x (k + 1) * magnitude x : Nat) : Int) 131072).toNat
    if v < 262144 then v else Config.power18 v % 262144

/-- A component in 18 bits; one that does not fit is not stated. -/
def fit18 (v : Int) : Int := if overBits 18 v then satBits 18 (Config.basis18 v) else v

/-- Basis value of a signal sample and an envelope sample (R211, R212), order k; `err` the error that a fault has put into the exact
product. -/
def basisValue (x env : IQ) (k : Nat) (err : IQ) : IQ :=
  let w := (power env (k - 1) : Int)
  (fit18 (rhe (x.1 * 4 * w + err.1) 131072), fit18 (rhe (x.2 * 4 * w + err.2) 131072))

/-- Term i of the basis (R211): `own` and `nb` give the path's own sample and a neighbour slot's sample at a lag, none where the
slot is not filled; `depth` is D. -/
def basisTerm (depth : Nat) (own : Nat → IQ) (nb : Nat → Nat → Option IQ) (term : Nat × Nat × Nat × Nat) (err : IQ) : IQ :=
  let (kind, k, m, j) := term
  if kind = 1 then (if m < depth ∧ j < depth then basisValue (own m) (own j) k err else (0, 0))
  else if kind = 2 then
    (if m < depth then
      match nb j m with
      | some x => basisValue x (own m) k err
      | none => (0, 0)
     else (0, 0))
  else (0, 0)

/-- Error that the faults of a tick put into the product of a basis term, or with none into the sum. -/
def dpdErr (fs : List DpdFault) (term : Option Nat) : IQ := sumIQ ((fs.filter fun f => decide (f.term = term)).map fun f => f.err)

/-- Operands of the sum of R212: coefficient and basis value of each term, its product struck by the faults of the tick. -/
def dpdOperands (depth : Nat) (terms : List (Nat × Nat × Nat × Nat)) (coefs : List IQ) (own : Nat → IQ) (nb : Nat → Nat → Option IQ)
    (fs : List DpdFault) : List (IQ × IQ) :=
  ((List.range terms.length).zip (terms.zip coefs)).map fun e => (e.2.2, basisTerm depth own nb e.2.1 (dpdErr fs (some e.1)))

/-- Residues predicted of the sum of R212: of x_p(n) shifted by 16, and of the products (R386). -/
def dpdPredicted (x : IQ) (ops : List (IQ × IQ)) : Nat × Nat :=
  (resAdd (resShift 16 (res3 x.1)) (predicted ops).1, resAdd (resShift 16 (res3 x.2)) (predicted ops).2)

/-- y(n) before saturation (R212): x_p(n) + Σ c_i × b_i(n), rounded half to even in units of 2^-15; `fs` the faults of the tick. -/
def dpdSum (depth : Nat) (terms : List (Nat × Nat × Nat × Nat)) (coefs : List IQ) (own : Nat → IQ) (nb : Nat → Nat → Option IQ)
    (fs : List DpdFault) : IQ :=
  let x := own 0
  let acc := addIQ (accOf (dpdOperands depth terms coefs own nb fs)) (dpdErr fs none)
  rheIQ (x.1 * 65536 + acc.1, x.2 * 65536 + acc.2) 65536

/-- Bank of a path and class for a sample of an air time (R216, R217, R219): what an armed commit installs, a pending bank commit
whose boundary has come, or the live bank. -/
def bankAt (s : State) (p c : Nat) (air : Instant) : Bank :=
  let key := bankKey p c
  let installed : Option Bank := match s.cfg.armed with
    | some (im, b) =>
      if boundaryU b ≤ air ∧ p ∈ basisChanged s.cfg.live im then
        some (match tget none s.lin.armedBanks key with | some x => x | none => storedBank s im p c)
      else none
    | none => none
  match installed with
  | some x => x
  | none =>
    if s.lin.commits.any fun k => decide (key ∈ k.pairs) && decide (k.boundary ≤ air) then tget [] s.lin.shadow key
    else tget [] s.lin.live key

/-- Class-carrier symbol that holds an air time. -/
def classSymbolAt (s : State) (t : Instant) : Option Released :=
  (classCarrier (imageAt s t)).bind fun c =>
    s.dl.released.find? fun r => decide (r.sym.carrier = c) && decide (r.air ≤ t) && decide (t < r.air + tk r.length)

/-- Class of the sample at an air time. -/
def classAt (s : State) (t : Instant) : Nat := match classSymbolAt s t with | some r => r.cls | none => s.dl.cls

/-- A path's predistortion over one class-carrier symbol: depth, terms, coefficients and neighbours, by the image, class and bank in
force at an air time; none where the path is bypassed (R214). -/
structure DpdView where
  depth : Nat
  terms : List (Nat × Nat × Nat × Nat)
  coefs : List IQ
  neighbours : List Nat

def dpdView (s : State) (p : Nat) (t : Instant) : Option DpdView :=
  let im := imageAt s t
  let st := basisSet im p
  if 3 < st then none
  else some ⟨cf im 7 (64 + 256 * st) 1, termsOf im st, tgetList (0, 0) (bankAt s p (classAt s t) t) 0 48, neighbourList im p⟩

/-- Instants within a window at which a path's predistortion may change: the starts of class-carrier symbols and of slots. -/
def dpdEdges (s : State) (a b : Int) : List Int :=
  ([a] ++ (s.dl.released.map fun r => tickOf r.air).filter fun t => decide (a < t) && decide (t < b)).dedup

/-- The samples of paths over a window, for the taps of R211: path and samples, the first of them at tick `a`. -/
def sampleOf (ws : List (Nat × Array IQ)) (a : Int) (p : Nat) (t : Int) : IQ :=
  if t < a then (0, 0) else match ws.find? fun e => decide (e.1 = p) with
    | some e => e.2.getD (t - a).toNat (0, 0)
    | none => (0, 0)

/-- DPD output at a tick before saturation: `v` what predistorts there, `ws` the CFR outputs from tick `a` on. -/
def dpdAt (v : Option DpdView) (ws : List (Nat × Array IQ)) (a : Int) (p : Nat) (fs : List DpdFault) (t : Int) : IQ :=
  match v with
  | none => sampleOf ws a p t
  | some d => dpdSum d.depth d.terms d.coefs (fun m => sampleOf ws a p (t - m))
      (fun j m => (d.neighbours[j]?).map fun q => sampleOf ws a q (t - m)) fs

/-- Ticks that the longest memory of predistortion (R211) and the fractional filter reach back. -/
def dpdBack : Nat := 8

/-- Paths whose samples a path's predistortion may read within a window. -/
def dpdPaths (s : State) (p : Nat) (ts : List Int) : List Nat :=
  (p :: ts.flatMap fun t => match dpdView s p (t * tickU) with | some d => d.neighbours | none => []).dedup

/-- DPD output of a path over `n` ticks from `a`, before saturation (R210: computed from samples of the same air-time tick and earlier),
with the CFR run of the path itself. -/
def dpdOver (s : State) (p : Nat) (errs : List (Int × DpdFault)) (a : Int) (n : Nat) : List IQ × CfrRun :=
  let edges := dpdEdges s a (a + n)
  let a0 := a - dpdBack
  let own := cfrOver s p a0 (n + dpdBack)
  let ws := (p, own.out.toArray) :: ((dpdPaths s p edges).filter fun q => decide (q ≠ p)).map fun q =>
    (q, (cfrOver s q a0 (n + dpdBack)).out.toArray)
  let views := edges.map fun t => (t, dpdView s p (t * tickU))
  let viewAt (t : Int) : Option DpdView :=
    (views.foldl (fun acc e => if e.1 ≤ t then (match acc with | some x => if x.1 ≤ e.1 then some e else acc | none => some e) else acc)
      (none : Option (Int × Option DpdView))).bind fun e => e.2
  ((ticksFrom a n).map fun t =>
    dpdAt (viewAt t) ws a0 p ((errs.filter fun e => decide (e.1 = t)).map fun e => e.2) t, own.cut dpdBack n)

/-! ### Converter words (R14, R151) -/

/-- Windows of 8 samples, oldest first, ending at each element from the eighth on. -/
def eights : List IQ → List (List IQ)
  | [] => []
  | x :: t => if (x :: t).length < 8 then [] else (x :: t).take 8 :: eights t

/-- 14-bit codes before saturation: the fractional delay filter of the path over the 8 samples up to each, then convergent rounding
(R136, R151). -/
def codesOf (frac : Nat) (ys : List IQ) : List IQ := (eights ys).map fun w => rheIQ (Config.fracDelay frac w) 4

/-- A sample word (R14): I in [31:16] and Q in [15:0], the 14-bit code left-justified. -/
def sampleWord (c : IQ) : Word := BitVec.ofNat 32 (wrapN 14 c.1 * 2 ^ 18 + wrapN 14 c.2 * 4)

/-- Code of a sample word. -/
def wordCode (w : Word) : IQ := (signed 14 (bits w.toNat 18 14), signed 14 (bits w.toNat 2 14))

/-! ### Playout (R136, R137, R151, R152) -/

/-- Tile of a path (R11). -/
def tileOf (p : Nat) : Nat := p / 16

/-- An interval of silence holds the tick of a path: at the pins from its start on, and before the symbol it ends with. -/
def Silence.holds (x : Silence) (p : Nat) (d : Instant) (t : Int) : Bool :=
  decide (x.tile = tileOf p) && decide (x.from_ ≤ t * tickU - d) && (match x.until_ with | some e => decide (t * tickU < e) | none => true)

/-- Size of a path's playout buffer in samples (R136). -/
def playoutBuffer : Nat := 16384

/-- Samples that wait in a path's playout buffer when a symbol starts toward the pins: the DPD is done 13,364 − d(p) ticks before
(Table 6-2). They are those of `playedOver` from the symbol's first tick on. -/
def playoutWait (d : Nat) : Nat := 13364 - d / 256

/-- Record of what a path has sent: the words of `n` ticks from air-time tick `a` on, saturations of each point by place, peaks. -/
structure Played where
  words : List Word
  combined : List IQ
  cfr : CfrRun
  dpd : List IQ
  codes : List IQ
  silent : List Bool

/-- The words of a path for `n` ticks from `a` on (R136, R151): the playout buffer's samples through the fractional delay filter and the
14-bit reduction; zero in a silence, where no sample was there, and where the bridge's parity failed. -/
def playedOver (s : State) (p : Nat) (g : Playing) (a : Int) (n : Nat) : Played :=
  let im := imageAt s (a * tickU)
  let d := delayU s im false p
  let (ys, cfr) := dpdOver s p g.errs (a - 7) (n + 7)
  let codes := codesOf (pathDelay s im false p % 256) (ys.map (satIQ 16))
  let ts := ticksFrom a n
  let quiet (mute : Bool) (t : Int) : Bool := s.dl.silence.any fun x => decide (x.mute = mute) && x.holds p d t
  let words := (ts.zip codes).map fun e =>
    if quiet true e.1 || quiet false e.1 || decide (e.1 ∈ g.gaps) || decide (e.1 ∈ g.lost) then 0 else sampleWord (satIQ 14 e.2)
  ⟨words, combinedOver s p a n, cfr.cut 7 n, ys.drop 7, codes, ts.map (quiet false)⟩

end Sys2Proof.Machine
end

