-- ==== Sys2Proof/Machine/Playout.lean ====
section
/-! DEFINITION. What a path's playout leaves (R136, R137, R151 to R153, R208, R390): words at the DAC, saturations, CFR peaks and EVM
budgets, and the DL digest. A playout command hands over the ticks that its path has sent since the command before it, because a
tick's CFR output needs the samples after it (log 20). -/

namespace Sys2Proof.Machine

/-! ### DL digest (R390) -/

/-- Registers that single bits of a CRC register become, bit 0 first. -/
abbrev CrcMap := List Nat

/-- Register that a register becomes: the exclusive or of what its bits become. -/
def crcApply (m : CrcMap) (c : Nat) : Nat :=
  ((List.range 32).zip m).foldl (fun a e => if c.testBit e.1 then Nat.xor a e.2 else a) 0

/-- CRC-32C register after `n` zero bytes, by halving n; `fuel` bounds its bits. -/
def crcZeros : Nat → CrcMap → Nat → Nat → Nat
  | 0, _, _, c => c
  | fuel + 1, m, n, c =>
    if n = 0 then c else crcZeros fuel (m.map (crcApply m)) (n / 2) (if n % 2 = 1 then crcApply m c else c)

/-- One zero byte. -/
def crcZeroByte : CrcMap := (List.range 32).map fun k => crcByte (2 ^ k) 0

/-- Instant at which the span of the digest ends. -/
def digestEnd (s : State) : Instant := ((s.rk.start + s.rk.frames : Nat) : Int) * frameU

/-- Ticks of a path up to `t` that have not entered its digest do so as zeros. -/
def digestZeros (p : Nat) (t : Int) (s : State) : State :=
  let next := tget 0 s.rk.next p
  if t ≤ next then s
  else { s with rk := { s.rk with next := tset 0 s.rk.next p t,
                                  crc := tset 0 s.rk.crc p (crcZeros 64 crcZeroByte (4 * (t - next).toNat) (tget 0 s.rk.crc p)) } }

/-- Words of a path from tick `a` on enter its digest, as far as they lie in the span; ticks before them without words are zero. -/
def digestSamples (p : Nat) (a : Int) (ws : List Word) (s : State) : State :=
  if s.rk.digest ≠ 2 then s
  else
    let fin := tickOf (digestEnd s)
    let s1 := digestZeros p (min a fin) s
    let skip := (tget 0 s1.rk.next p - a).toNat
    let mine := (ws.drop skip).take (fin - max a (tget 0 s1.rk.next p)).toNat
    if mine = [] then s1
    else { s1 with rk := { s1.rk with next := tset 0 s1.rk.next p (a + skip + mine.length),
                                      crc := tset 0 s1.rk.crc p (crcRun (tget 0 s1.rk.crc p) (mine.flatMap fun w => leBytes 4 w.toNat)) } }

/-! ### Counts of what a path has sent -/

/-- Elements of a window from tick `lo` on that lie in a symbol and are not silent. -/
def symbolPart {α : Type} (lo : Int) (r : Released) (silent : List Bool) (l : List α) : List α :=
  let a := (tickOf r.air - lo).toNat
  let b := (tickOf r.air + r.length - lo).toNat
  (((l.zip silent).take b).drop a).filterMap fun e => if e.2 then none else some e.1

/-- Saturations of combining, CFR, DPD and the 14-bit reduction in the part of a window that a class-carrier symbol holds (R153). -/
def countPlayed (p : Nat) (lo : Int) (x : Played) (s : State) (r : Released) : State :=
  let part (l : List IQ) : List IQ := symbolPart lo r x.silent l
  let n1 := overCount 16 (part x.combined)
  let n2 := ((x.cfr.overs.map fun l => overCount 16 (part l)).sum) + overCount 16 (part x.dpd)
  let n3 := overCount 14 (part x.codes)
  countSat 0x11 p 3 n3 35 (detSym p 4 0xFF r.sym) (countSat 0x11 p 2 n2 35 (detSym p 3 0xFF r.sym)
    (countSat 0x11 p 1 n1 35 (detSym p 2 0xFF r.sym) s))

/-- Ratio of two energies as an rms percentage in tenths, and whether it exceeds a budget (R208). -/
def rmsTenths (e total : Nat) : Nat := isqrt (1000000 * e / Nat.max 1 total) 64
def overBudget (e total budget : Nat) : Bool := decide (budget * budget * total < 1000000 * e)

/-- The EVM budget of a carrier's symbol on a path whose last tick has been sent (R208): the energy that CFR took out of the carrier's
band against the symbol's, be the carrier's own content none. Where no released symbol has content, and where CFR has changed nothing,
nothing was cancelled. The measurement changes no sample. The excess is rounded down (DESIGN CHOICE, log 41). -/
def cfrBudget (p : Nat) (s : State) (r : Released) : State :=
  let im := imageAt s r.air
  let c := r.sym.carrier
  if cf im 8 0 1 = 0 ∨ s.dl.released.all fun q => decide (q.layers = [] ∧ q.bfErrs = [] ∧ q.fftErrs = []) then s
  else
    let a := tickOf r.air
    let before := (combinedOver s p a r.length).map (satIQ 16)
    let after := (cfrOver s p a r.length).out
    if before = after then s else
    let band (l : List IQ) : Nat := Config.bandEnergy (ccFreq im false c) (12 * ccP im false c * 15000 * 2 ^ ccMu im false c) l
    let e := band ((before.zip after).map fun q => (q.1.1 - q.2.1, q.1.2 - q.2.2))
    let budget := cf im 8 (16 + 8 * c) 1
    if overBudget e (band before) budget then
      raise 82 (detSym p c (Nat.min 255 (rmsTenths e (band before) - budget)) (className im r.air)) (statAdd 0x18 p 1 1 s)
    else s

/-! ### Handing over -/

/-- Ticks that the released symbols reach over. -/
def heldFrom (s : State) : Option Int := (s.dl.released.map fun r => tickOf r.air).min?
def heldTo (s : State) : Option Int := (s.dl.released.map fun r => tickOf r.air + r.length).max?

/-- The ticks of a path from `lo` up to `hi` go out: words, digest, counts and budgets. -/
def sendTicks (p : Nat) (g : Playing) (lo hi : Int) (s : State) : State :=
  let x := playedOver s p g lo (hi - lo).toNat
  let s1 := digestSamples p lo x.words { s with out := s.out ++ [.dac p lo x.words] }
  let cls (r : Released) : Bool := decide (classCarrier (imageAt s r.air) = some r.sym.carrier) &&
    decide (tickOf r.air < hi) && decide (lo < tickOf r.air + r.length)
  let s2 := (s.dl.released.filter cls).foldl (countPlayed p lo x) s1
  let s3 := if x.cfr.peaks = [] then s2 else statAdd 0x18 p 0 x.cfr.peaks.length s2
  (s.dl.released.filter fun r => decide (lo < tickOf r.air + r.length) && decide (tickOf r.air + r.length ≤ hi)).foldl (cfrBudget p) s3

/-- A path has sent everything before air-time tick `t`. -/
def sendUpTo (p : Nat) (t : Int) (s : State) : State :=
  match tget none s.dl.playing p, heldFrom s, heldTo s with
  | some g, some a, some b =>
    let lo := max g.upTo a
    let hi := min t b
    let s1 := if lo < hi then sendTicks p g lo hi s else s
    { s1 with dl := { s1.dl with playing := tset none s1.dl.playing p (some { g with upTo := max g.upTo t }) } }
  | _, _, _ => s

/-- Every path has sent what has reached its pins by an instant. -/
def sendUntil (t : Instant) (s : State) : State :=
  (List.range 64).foldl (fun st p => sendUpTo p (tickOf (t + delayU st (imageAt st t) false p)) st) s

/-- DPD input samples of a capture in progress up to an air-time tick (R223): the CFR output of its path (R210). -/
def capInput (s : State) (c : Capturing) (fin : Int) : List IQ :=
  let n := (fin - tickOf c.start - c.input.length).toNat
  if s.dl.released = [] ∨ n = 0 then c.input ++ List.replicate n (0, 0)
  else c.input ++ (cfrOver s c.path (tickOf c.start + c.input.length) n).out

/-- Playout ends at an instant (R134): what has reached the pins is sent, the rest is not; captures in progress keep their input. -/
def endPlayout (t : Instant) (s : State) : State :=
  let s0 := { s with lin := { s.lin with caps := s.lin.caps.map fun c =>
    { c with input := capInput s c (min (tickOf t) (tickOf c.start + c.length)) } } }
  let s1 := if s0.dl.playing = [] then s0 else sendUntil t s0
  { s1 with dl := { s1.dl with released := [], playing := [], silence := s1.dl.silence.filter fun x => x.mute && x.until_.isNone } }

/-- What a path still has to send, with the faults of a symbol that starts at tick `a`; a fault of a tick that has been sent has served. Each
fault stands once, though the symbols of several carriers share the tick. -/
def playFrom (a : Int) (underflow parity : List Nat) (residue : List DpdFault) : Option Playing → Playing
  | none => ⟨a, underflow.map fun k => a + k, parity.map fun k => a + k, residue.map fun f => (a + f.tick, f)⟩
  | some g =>
    ⟨max g.upTo a, ((g.gaps.filter fun t => decide (g.upTo ≤ t)) ++ underflow.map fun k => a + k).dedup,
     ((g.lost.filter fun t => decide (g.upTo ≤ t)) ++ parity.map fun k => a + k).dedup,
     (g.errs.filter fun e => decide (g.upTo ≤ e.1 + dpdBack)) ++ residue.map fun f => (a + f.tick, f)⟩

/-- A word of the live bank of a path and class that a sample reads holds an error (R26): the banks are numbered 0, coefficient k of path p
and class c at word 48 (16 p + c) + k (log 23). -/
def bankHits (s : State) (p c : Nat) : List ScrubHit :=
  s.ls.bad.filter fun h => decide (h.memory = 0) && decide (h.address / 48 = bankKey p c)

/-- The errors of a bank's words that a symbol's samples read are counted and raised, their memory's number a free value (log 23). -/
def meetBank (hits : List ScrubHit) (s : State) : State :=
  hits.foldl (fun t h => let (m, t1) := takeFree t; raise (if h.double then 209 else 210) (det (m % 256) 1 0 0 h.address)
    (sramCount h.double 0 t1)) s

/-- The predistorter's checks of samples fail (R213): each is counted and raised. -/
def dpdFailures (p : Nat) (r : Released) (ticks : List Nat) (s : State) : State :=
  ticks.foldl (fun t k =>
    let air := r.air + tk k
    raise 81 (detSym p (classAt s air) 0 (className (imageAt s r.air) air)) (statAdd 0x18 p 2 1 t)) s

/-- A released symbol starts toward the pins of a path: the path has sent what came before it, and the symbol's faults stand for what
follows. Ticks without a sample count as underflow unless a synthesiser silences them (R137, R268). A bank word that reads with a double-bit
error is a failed check of the symbol's first sample (R26, R213; log 23). -/
def startSymbol (p : Nat) (r : Released) (underflow parity : List Nat) (residue : List DpdFault) (s : State) : State :=
  let im := imageAt s r.air
  let a := tickOf r.air
  let s1 := sendUpTo p a s
  let g := playFrom a underflow parity residue (tget none s1.dl.playing p)
  let s2 := { s1 with dl := { s1.dl with playing := tset none s1.dl.playing p (some g) } }
  let d := delayU s im false p
  let gaps := (underflow.filter fun k => !s.dl.silence.any fun x => !x.mute && x.holds p d (a + k)).length
  let s3 := if gaps = 0 then s2 else raise 115 (detSym p (Nat.min 255 gaps) 0 r.sym) (statAdd 0x11 p 6 gaps s2)
  let s4 := parity.foldl (fun t _ => bridgeFail false p t) s3
  let hits := if classCarrier im = some r.sym.carrier ∧ basisSet im p ≤ 3 then bankHits s4 p (classAt s r.air) else []
  let bad := ((residue.filter fun f => f.received || struckValue (0, 0) f.err).map fun f => f.tick) ++
    ((hits.filter fun h => h.double).take 1).map fun _ => 0
  let s5 := dpdFailures p r bad (meetBank hits s4)
  let q := { r with played := r.played ++ [p], marked := if bad = [] then r.marked else r.marked ++ [p] }
  { s5 with dl := { s5.dl with released := s5.dl.released.map fun x => if x.sym = r.sym ∧ x.air = r.air then q else x } }

end Sys2Proof.Machine
end

