-- ==== Sys2Proof/Machine/Egress.lean ====
section
/-! DEFINITION. Ports and what they send (R96 to R100): counters, Ethernet heads, the three classes of a port's egress queue, transmit
timestamps. Frames leave in the order and at the instants that the line rate gives them; a command that acts on a port first lets out what
has started by then (log 100). -/

namespace Sys2Proof.Machine

/-! ### Ports and counters -/

def portOf (s : State) (n : Nat) : Port := tget {} s.fh.port n

def setPort (n : Nat) (p : Port) (s : State) : State := { s with fh := { s.fh with port := tset {} s.fh.port n p } }

/-- Counter k of a port: its place in Table 4-6 is 8 + 8 k. -/
def linkCount (s : State) (n k : Nat) : Nat := tget 0 s.fh.count (n * 32 + k)

/-- Add to a 64-bit counter. -/
def countLink (n k d : Nat) (s : State) : State :=
  { s with fh := { s.fh with count := tset 0 s.fh.count (n * 32 + k) ((linkCount s n k + d) % 2 ^ 64) } }

/-- MAC data rate of a port mode in Gbit/s (Table 4-1). -/
def macRate (mode : Nat) : Nat := match mode with | 1 => 400 | 2 => 200 | 4 => 25 | _ => 100

/-- Duration of a number of bytes on a port's line. -/
def lineU (s : State) (bytes : Nat) : Instant := ceilDiv ((bytes * 8 * 589824 : Nat) : Int) (macRate (portMode s.cfg.live))

/-! ### Frames -/

/-- The n big-endian bytes of a number, and the number that such bytes spell (Ethernet, eCPRI, IP; R89). -/
def beBytes (n v : Nat) : List Byte := (leBytes n v).reverse
def ub (p : List Byte) (o n : Nat) : Nat := leNat (slice p o n).reverse

/-- Handle of frames that carry no flow. -/
def noFlow : Nat := 0xFFFF

def portMac (im : Image) (n : Nat) : List Byte := imgBytes im 3 (64 + 128 * n) 6

/-- Ethernet header of a frame that starts under an image: with the port's egress VLAN tag and PCP where it is an eCPRI frame (R96). -/
def egressHead (im : Image) (n : Nat) : EgressHead → List Byte
  | .ecpri dst pcp =>
    dst ++ portMac im n ++ beBytes 2 0x8100 ++ beBytes 2 (portField im n pcp 1 * 8192 + portField im n 20 2) ++ beBytes 2 0xAEFE
  | .plain dst => dst ++ portMac im n

/-- An eCPRI type 5 message: action, measurement ID, timestamp, compensation 0 (R100). -/
def type5Bytes (action id : Nat) (t : Instant) : List Byte :=
  [0x10, 5] ++ beBytes 2 20 ++ leBytes 1 id ++ leBytes 1 action ++ beBytes 6 ((secOf t).toNat) ++ beBytes 4 (nsOf t) ++ zeros 8

/-- A type 5 message to a peer, in the first class. -/
def type5Frame (dst : List Byte) (action id : Nat) (t : Instant) (stamp : StampOf) (since : Instant) : EgressFrame :=
  ⟨0, noFlow, .ecpri dst 24, type5Bytes action id t, some stamp, since⟩

/-- Bytes of a frame that starts under an image, padded to the least length of Ethernet, without FCS. -/
def formed (im : Image) (n : Nat) (g : EgressFrame) : List Byte :=
  let f := egressHead im n g.head ++ g.bytes
  fitBytes (Nat.max 60 f.length) f

/-! ### The queue (R96) -/

/-- Frames of the first two classes that a queue holds. -/
def shortQueued (q : List EgressFrame) : Nat := (q.filter fun g => decide (g.cls ≤ 1)).length

/-- A frame enters a port's queue at an instant; one of the first two classes beyond four stays with firmware. -/
def enqueue (g : EgressFrame) (p : Port) : Port :=
  if g.cls ≤ 1 ∧ 4 ≤ shortQueued p.queue then { p with kept := p.kept ++ [g] } else { p with queue := p.queue ++ [g] }

/-- A frame has left at `t`: firmware gives the next that it kept, if there is room. -/
def giveKept (t : Instant) (p : Port) : Port :=
  match p.kept with
  | g :: gs => if shortQueued p.queue < 4 then { p with queue := p.queue ++ [{ g with since := t }], kept := gs } else p
  | [] => p

/-- The frame that starts next, and when: of those queued by then the highest class, the oldest first. -/
def nextFrame (p : Port) : Option (Instant × EgressFrame) :=
  match (p.queue.map fun g => g.since).min? with
  | none => none
  | some t =>
    let start := max p.busy t
    ((p.queue.filter fun g => decide (g.since ≤ start)).foldl (fun a g => match a with
      | some b => if g.cls < b.cls then some g else some b
      | none => some g) (none : Option EgressFrame)).map fun g => (start, g)

/-- The transmit timestamp of a PTP event or type 5 message enters the port's FIFO of 64, or is lost (R98, R99): corrected time in steps of a
tick, within 2 ticks of the start of the first symbol after the SFD at the pins. -/
def stampSent (n : Nat) (start : Instant) (of_ : StampOf) (s : State) : State :=
  let (f, s1) := takeFree s
  let t := tk (tickOf (start + lineU s 8) + ((f % 5 : Nat) : Int) - 2)
  let p := portOf s1 n
  if 64 ≤ p.txStamps.length then
    let s2 := countLink n 23 1 s1
    raise 28 (det n 0 0 0 (linkCount s2 n 23 % 2 ^ 32)) s2
  else setPort n { p with txStamps := p.txStamps ++ [⟨of_, t⟩] } s1

/-- Firmware, while it runs, reads a port's timestamp FIFO (R99) and sends the follow-up that each belongs to (R100). -/
def readStamps (n : Nat) (at_ : Instant) (s : State) : State :=
  if !bureauRuns s then s
  else
    let p := portOf s n
    p.txStamps.foldl (fun t x =>
      let q := portOf t n
      match x.of_ with
      | .request id dst => setPort n { enqueue (type5Frame dst 5 id x.time .other at_) q with meas := some (id, x.time) } t
      | .other => t)
      (if p.txStamps = [] then s else setPort n { p with txStamps := [] } s)

/-- A frame starts at `start` with the head of that instant, and takes the line until its gap ends: 8 bytes of preamble before it, 4 of FCS and
12 of gap after it (R96). Its timestamp is taken at its start (R98). -/
def startFrame (n : Nat) (start : Instant) (g : EgressFrame) (s : State) : State :=
  let p := portOf s n
  let f := formed (imageAt s start) n g
  let p1 := giveKept start { p with queue := p.queue.erase g, line := some ⟨g.flow, f, start + lineU s (f.length + 12)⟩,
                                    busy := start + lineU s (f.length + 24) }
  match g.stamp with
  | some x => readStamps n start (stampSent n start x (setPort n p1 s))
  | none => setPort n p1 s

/-- A frame has left whole: it is counted, with its FCS (R105). -/
def endFrame (n : Nat) (x : Sending) (s : State) : State :=
  countLink n 20 (x.bytes.length + 4) (countLink n 19 1
    (setPort n { portOf s n with line := none } { s with out := s.out ++ [.egress n x.flow x.bytes] }))

/-- The frames of a port that have left by now, and the one that has started; `fuel` bounds their number. -/
def drainFrames (n : Nat) : Nat → State → State
  | 0, s => s
  | fuel + 1, s =>
    match (portOf s n).line with
    | some x => if x.ends ≤ nowU s then drainFrames n fuel (endFrame n x s) else s
    | none =>
      match nextFrame (portOf s n) with
      | none => s
      | some (t, g) => if t ≤ nowU s then drainFrames n fuel (startFrame n t g s) else s

def drainPort (n : Nat) (s : State) : State :=
  drainFrames n (4 * ((portOf s n).queue.length + (portOf s n).kept.length) + 5) s

/-- Firmware runs again: it reads what has waited in every port's FIFO (R99). -/
def readPorts (s : State) : State := (List.range 8).foldl (fun t n => drainPort n (readStamps n (nowU t) (drainPort n t))) s

/-- What the ports have sent by now has left. -/
def drainPorts (s : State) : State := (List.range 8).foldl (fun t n => drainPort n t) s

/-- Hand a frame to the transmitter of an up port. -/
def transmit (n : Nat) (g : EgressFrame) (s : State) : State :=
  let s1 := drainPort n s
  drainPort n (setPort n (enqueue g (portOf s1 n)) s1)

/-- A port's transmitter stops. What it holds is discarded and counted as egress drops (DESIGN CHOICE, log 100); with a restart, so is the
frame in transmission (R88, R105), which else leaves whole (R96). -/
def stopEgress (n : Nat) (restart : Bool) (s : State) : State :=
  let s1 := drainPort n s
  let p := portOf s1 n
  let k := p.queue.length + b2n (restart && p.line.isSome)
  let s2 := if k = 0 then s1 else countLink n 21 k s1
  setPort n { p with queue := [], kept := [], line := if restart then none else p.line, busy := if restart then 0 else p.busy } s2

end Sys2Proof.Machine
end

