-- ==== Sys2Proof/Machine/Sync.lean ====
section
/-! DEFINITION. What a port that goes down takes with it: the link state (R87), the servo's phase source (R323) and the SyncE
input (R315). -/

namespace Sys2Proof.Machine

/-- Phase source of the servo (Table 13-8). -/
def svSource (s : State) : Nat := u s.tm.settings 0 1

/-- The servo changes state; the measurements since the last change are counted anew. -/
def setServo (n : Nat) (s : State) : State :=
  if s.tm.servo = n then s else { s with tm := { s.tm with servo := n, measures := 0, good := 0, bad := 0 } }

/-- EV_HOLDOVER (Table 13-13): 1 DPLL, 2 servo. -/
def holdoverEvent (which cause : Nat) (s : State) : State := raise 146 (det which cause 0 0 (wrapN 32 s.tm.rate)) s

/-- A DPLL frequency word: 245.76 MHz over a clock of a nominal frequency in Hz, with a correction, in 2^-48 (R311; its scale is a DESIGN CHOICE,
log 110). -/
def freqWord (nominal : Nat) (corr : Int) : Int := rhe (245760000 * ((2 ^ 48 : Nat) + corr)) (Nat.max 1 nominal)

/-- The DPLL's word follows the active oscillator's nominal frequency, the held correction and the compensation (R311, R325). -/
def setDpllWord (s : State) : State :=
  if s.clk.active < 2 then
    { s with clk := { s.clk with word := freqWord (u s.clk.sources (4 + 4 * s.clk.active) 4) (s.clk.held + s.clk.comp) } }
  else s

/-- The DPLL enters holdover on the active oscillator (R313): it holds the average of the last second, which its loop had come to: a free
value. -/
def dpllHold (s : State) : State :=
  let (f, s1) := takeFree s
  setDpllWord { s1 with clk := { s1.clk with dpll := 3, held := signed 48 f } }

/-- With PTP as its input the DPLL is steered by the servo: it goes into holdover with it, and pulls in as the servo acts again (R313). -/
def dpllFollows (before : Nat) (s : State) : State :=
  if u s.clk.sources 3 1 ≠ 2 ∨ s.clk.active = 3 then s
  else if s.tm.servo = 3 then (if before = 3 then s else holdoverEvent 1 1 (dpllHold s))
  else if before = 3 then { s with clk := { s.clk with dpll := 1 } } else s

/-- The servo holds: r stays, cause and begin are noted, requalification begins (R323). -/
def servoHold (cause : Nat) (s : State) : State :=
  if s.tm.servo = 3 then { s with tm := { s.tm with requal := [], holdCause := cause } }
  else
    let s1 := setServo 3 s
    dpllFollows s.tm.servo
      (holdoverEvent 2 cause { s1 with tm := { s1.tm with holdCause := cause, holdSince := s1.tm.raw, requal := [] } })

/-- An acquiring or locked servo enters holdover; one in holdover starts its requalification again (R323, R327). -/
def servoLost (cause : Nat) (s : State) : State :=
  if s.tm.servo = 1 ∨ s.tm.servo = 2 then servoHold cause s
  else { s with tm := { s.tm with requal := [] } }

/-- Port n exists in the live mode (R83). -/
def portExists (s : State) (n : Nat) : Bool := decide (n < portCount (portMode s.cfg.live))

/-- Port n delivers frames: it exists, LINK is ready and the port is up (R87). -/
def portUp (s : State) (n : Nat) : Bool := portExists s n && s.pwr.ready.getLsbD 3 && decide ((portOf s n).state = 6)

/-- The DPLL input is SyncE, taken from port n. -/
def syncePort (s : State) (n : Nat) : Bool := decide (u s.clk.sources 3 1 = 1) && decide (u s.clk.sources 16 1 = n)

/-- A disqualifying cause of the SyncE input: the DPLL goes into holdover on the change, and the 10 s run anew. -/
def synceLost (s : State) : State :=
  let s1 := { s with clk := { s.clk with synceSince := s.tm.raw } }
  if s.clk.synceOk then
    holdoverEvent 1 1 (dpllHold { s1 with clk := { s1.clk with synceOk := false } })
  else s1

/-- A port goes down: EV_LINK_DOWN, the servo's and the SyncE input's loss with it. Without alignment or with local fault the reconciliation
sublayer has local fault, and transmits remote fault (R87). -/
def linkFalls (n cause : Nat) (s : State) : State :=
  let s := stopEgress n (decide (cause = 4)) s
  let p := portOf s n
  let st := if cause = 1 then 3 else if cause = 2 then 5 else if cause = 3 then 4 else 2
  let s1 := setPort n { p with state := st, aligned := if cause = 2 ∨ cause = 3 then p.aligned else 0, changed := nowU s,
                               remoteFault := decide (cause = 1 ∨ cause = 3) } s
  let s2 := raise (16 + n) (det n cause p.state 0 p.upCount) s1
  let s3 := if syncePort s2 n then synceLost s2 else s2
  if svSource s3 = 1 ∧ s3.tm.master.port = some n then servoLost 3 s3 else s3

end Sys2Proof.Machine
end

