-- ==== Sys2Proof/Machine/Protect.lean ====
section
/-! DEFINITION. What every change of mode does (R334, R335, R342, R349, R360), the entries into SAFE-HOLD (R343) and
THERMAL-LATCH (R362), and the effects of an offset write (R324). -/

namespace Sys2Proof.Machine

/-! ### Thermal state (R360) -/

/-- A sensor can be measured: its domain is on (R356). In LISTEN the RX halves are powered in part only (Table 14-2, note 2). -/
def measurable (s : State) (n : Nat) : Bool :=
  if n < 16 then true else decide (s.pwr.mode ≠ .listen) && s.pwr.ready.getLsbD (if n % 4 < 2 then 12 + (n - 16) / 4 else 16 + (n - 16) / 4)

/-- Arming of a mode (Table 15-2): 0 fixed level only, 1 full, 2 SAFE-HOLD persistence. -/
def armingOf (m : Mode) (recovery : Bool) : Nat :=
  match m with
  | .bringUp => 1 | .standby => 1 | .listen => 1 | .operateTdd => 1 | .operateFdd => 1
  | .safeHold => if recovery then 0 else 2
  | _ => 0

/-- A recovery from SAFE-HOLD is under way: from the start of its request to M of row 14 (R343). -/
def recovering (s : State) : Bool :=
  decide (s.pwr.mode = .safeHold) && match s.pwr.trans with | some t => decide (t.target ≠ .thermalLatch) | none => false

/-- Arming in force now. -/
def arming (s : State) : Nat := armingOf s.pwr.mode (recovering s)

/-- Thresholds become disarmed: tripped states, counts and histories are cleared and derating is removed. -/
def disarmThermal (s : State) : State :=
  let clear (x : Sensor) : Sensor := { x with
    upW := 0, downW := 0, tripW := false, upD := 0, downD := 0, tripD := false, last := [], hist := [] }
  updateAtten { s with th := { s.th with sensor := (s.th.sensor.map fun e => (e.1, clear e.2)).filter fun e => decide (e.2 ≠ {}) } }

/-- Sensors that have become unmeasurable lose their counts and history, and VALID; a tripped state stays (R360). -/
def darkenSensors (s : State) : State :=
  let dark (x : Sensor) : Sensor := { x with
    valid := false, counting := none, hot := 0, upW := 0, downW := 0, upD := 0, downD := 0, last := [], hist := [] }
  let t := s.th.sensor.map fun e => if measurable s e.1 then e else (e.1, dark e.2)
  { s with th := { s.th with sensor := t.filter fun e => decide (e.2 ≠ {}) } }

/-! ### Domains (R334, R349) -/

/-- Hold pad groups: each FE_GPIO pad is latched at its level (R349). -/
def holdPads (groups : BitVec 12) (s : State) : State :=
  let new := groups &&& ~~~s.em.held
  let latch := (List.range 32).foldl (fun t n => if new.getLsbD (n / 8) then tset false t n (pinLevel s n) else t) s.rf.padLatch
  { s with em := { s.em with held := s.em.held ||| groups }, rf := { s.rf with padLatch := latch } }

/-- LINK goes off: ports that were up lose alignment (R87), and what the domain held is lost (R334). -/
def portsDark (s : State) : State :=
  let s1 := ((List.range 8).filter fun n => decide ((portOf s n).state = 6)).foldl (fun t n => linkFalls n 1 t) s
  let dark (p : Port) : Port := { p with
    state := 2, aligned := 0, remoteFault := false, meas := none, heldT2 := none, txStamps := [], ptpRx := none, fifo := [],
    changed := if p.state = 2 then p.changed else nowU s }
  { s1 with fh := { s1.fh with port := (s1.fh.port.map fun e => (e.1, dark e.2)).filter fun e => decide (e.2 ≠ {}) } }

/-- A write of the patch region loses its lease: the region holds no valid patch (R425). -/
def tearPatch (s : State) : State :=
  if s.nvm.fwOp.isSome then
    finishLong .fwImage stLeaseRevoked 0 [] { s with nvm := { s.nvm with fwOp := none, patchValid := false } }
  else s

/-- A record that a calibration writes (R375). -/
def calRecord (id : Nat) : Bool := decide (id ∈ [0x0101, 0x0102, 0x0201])

/-- The NVM word in progress completes and the record copy under way stays torn (R370, Table 17-3). A running calibration tries its write
again, once (R377); else the operation in its charge ends with LEASE_REVOKED (R392): a writing message now, a persist with its completion. -/
def tearWrites (s : State) : State :=
  match s.nvm.jobs with
  | [] => tearPatch s
  | j :: js =>
    let s1 := nvmTorn s
    if calRecord j.id ∧ s.cal.run.isSome ∧ !j.retried then
      { s1 with nvm := { s1.nvm with jobs := { j with words := 0, retried := true } :: js } }
    else
    let s2 := { s1 with nvm := { s1.nvm with jobs := js } }
    match j.asker with
    | some a => finishDeferred a stLeaseRevoked 0 [] s2
    | none => { s2 with nvm := { s2.nvm with ended := (j.id, stLeaseRevoked) :: s2.nvm.ended } }

/-- Force-release of a resource (Table 17-3): what its holder was doing on it ends. -/
def forceRelease (e : Nat) (s : State) : State :=
  if e = 0 then tearWrites s
  else if e = 1 then
    match s.bf.writes with
    | [] => s
    | w :: ws => finishDeferred w.asker stLeaseRevoked 0 [] { s with bf := { s.bf with writes := ws } }
  else if e ≤ 10 then
    let mine (c : Capturing) : Bool := decide (e = 2) || decide (3 + c.orx = e)
    (s.lin.caps.filter mine).foldl (fun t c => missCapture c 2 t)
      { s with lin := { s.lin with caps := s.lin.caps.filter fun c => !mine c } }
  else if e = 11 then
    { s with hk := { s.hk with conv := (s.hk.conv.map fun k => (k.1, { k.2 with running := none, orphan := none })).filter fun k => decide (k.2 ≠ {}) } }
  else if e ≤ 15 then rffeRevoked (e - 12) s
  else s

/-- Capture leases that no capture in progress needs any more are released. -/
def freeCaptures (s : State) : State :=
  let s1 := (List.range 8).foldl (fun t o =>
    if (leaseNow t (3 + o)).holder = 1 ∧ t.lin.caps.all (fun c => decide (c.orx ≠ o)) then releaseLease (3 + o) t else t) s
  if (leaseNow s1 2).holder = 1 ∧ s1.lin.caps = [] then releaseLease 2 s1 else s1

/-- The supervisor revokes a lease (R392): force-release, count, event, record, and the next grant. A Cabinet write that still
waits asks for the port again. -/
def revokeLease (e cause : Nat) (s : State) : State :=
  if (leaseNow s e).holder = 0 ∨ (leaseNow s e).free.isSome then s
  else
    let s1 := revokeEntry e cause (forceRelease e s)
    if e = 1 ∧ s1.bf.writes ≠ [] then requestLease 1 1 s1
    else if 2 ≤ e ∧ e ≤ 10 then freeCaptures s1 else s1

/-- Revoke the leases of one holder, each with the cause (R392, R393). -/
def revokeHolder (h cause : Nat) (s : State) : State :=
  ((List.range 24).filter fun e => decide ((leaseNow s e).holder = h)).foldl (fun t e => revokeEntry e cause (forceRelease e t)) s

/-- What the Bureau writes to the NVM loses its lease with a cause (R362, R392). -/
def revokeWrites (cause : Nat) (s : State) : State :=
  if s.nvm.jobs = [] ∧ s.nvm.fwOp.isNone then s else revokeLease 0 cause (requestLease 0 1 s)

/-- The words of the memories named hold no error any more: their content is lost. -/
def forgetErrors (memories : List Nat) (s : State) : State :=
  { s with ls := { s.ls with bad := s.ls.bad.filter fun h => decide (h.memory ∉ memories) } }

/-- The pigeonhole registers and the endpoint's MSI-X table return to their reset values with CTRL (R334, R60); what a ring keeps in Bureau
memory, its replay window, held responses and device message count, stays. -/
def losePigeonholes (s : State) : State :=
  let lost (g : Ring) : Ring := { window := g.window, held := g.held, devSeq := g.devSeq, busy := g.busy }
  { s with ph := { s.ph with ring := (s.ph.ring.map fun e => (e.1, lost e.2)).filter fun e => decide (e.2 ≠ {}),
                             ignored := 0, msix := [], pba := 0 } }

/-- TIMING loses the offset and rate registers, the servo with its settings and the loops (R319, R334); the raw counter, kept in every mode
change (R316), and the latched time of W0 stay. -/
def loseTiming (s : State) : State :=
  { s with tm := { raw := s.tm.raw, capValid := s.tm.capValid, capC := s.tm.capC, capRaw := s.tm.capRaw },
           clk := { s.clk with dpll := 0, plls := s.clk.plls &&& 0x18, word := 0, held := 0, comp := 0 } }

/-- What domains lose when they are switched off or scanned (R334, R411). -/
def loseContents (off : BitVec 20) (s : State) : State :=
  let s1 := if off.getLsbD 3 then
      portsDark { s with dl := { s.dl with buffer := [], invalid := [], released := [], playing := [] } } else s
  let s2 := if off.getLsbD 5 then forgetErrors [3] { s1 with bf := { s1.bf with vec := [] } } else s1
  let s3 := if off.getLsbD 9 then
      let t := stopCaptures (fun _ => true) 5 s2
      forgetErrors [5, 6] { t with lin := { t.lin with capMem := [] }, core := [] } else s2
  let s4 := if off.getLsbD 10 then
      { s3 with hk := { s3.hk with result := [], conv := [], delayed := [] } } else s3
  let s5 := if off.getLsbD 11 then { s4 with rf := { s4.rf with lo := [], resume := 0 } } else s4
  let s6 := if off.getLsbD 4 then loseTiming s5 else s5
  if off.getLsbD 1 then losePigeonholes (revokeHolder 1 2 s6) else s6

/-- What is lost when domains are switched off, with the pads they own held (R334, R349). -/
def loseDomains (off : BitVec 20) (s : State) : State := holdPads (padsOfOff off) (loseContents off s)

/-- Of the domains wanted, those whose regulators are good and that no lost power-good holds off; CTRL follows note 4. -/
def powerable (s : State) (want : BitVec 20) : BitVec 20 :=
  (List.range 20).foldl (fun a d =>
    if want.getLsbD d && !s.pwr.heldOff.getLsbD d && (d == 0 || fed s d) then a ||| BitVec.twoPow 20 d else a) 0

/-- Domains of a mode that can be on. -/
def reachable (s : State) (m : Mode) : BitVec 20 := powerable s (modeDomains s m)

/-- PLLs that stay qualified in a mode: DEEP-SLEEP and THERMAL-LATCH keep the DPLL alone (note 3), LINK off loses the serdes
PLLs. -/
def pllsIn (s : State) (m : Mode) (on : BitVec 20) : BitVec 5 :=
  let p := if m = .deepSleep ∨ m = .thermalLatch then s.clk.plls &&& 1 else s.clk.plls
  if on.getLsbD 3 then p else p &&& 7

/-- Wakes on demand that a mode goes on with: those of domains that it does not hold itself, where it wakes on demand (R336). -/
def keptDemand (m : Mode) (s : State) : Tbl Nat :=
  if wakesOnDemand m then s.pwr.demand.filter fun e => !(modeDomains s m).getLsbD e.1 && !(withoutRf s m && decide (11 ≤ e.1)) else []

/-- Domains that the mode holds on, or that a wake on demand waits for, come on when their regulators are good, and the next regulator is
raised. -/
def powerMode (s : State) : State :=
  let new := powerable s (heldDomains s ||| demandMask s) &&& ~~~s.pwr.on
  let t := comeOn new s
  let s1 := { t with pwr := { t.pwr with ready := t.pwr.ready &&& ~~~testDomains s } }
  raiseNext (enablesFor s1 (heldDomains s1 ||| s1.pwr.on ||| demandMask s1)) s1

/-- Set the domains and enables of a mode: what goes off is lost, what is on is ready (R335, R339, R344). Domains woken on demand stay on
until they idle (R336). -/
def setDomains (m : Mode) (s : State) : State :=
  let s := { s with pwr := { s.pwr with demand := keptDemand m s } }
  let want := enablesFor s (modeDomains s m ||| demandMask s)
  let en := s.pwr.en &&& want
  let pg := s.pwr.pg &&& (if s.pwr.map.isNone then 0xFF else en)
  let s0 := raiseNext want { s with pwr := { s.pwr with en := en, pg := pg } }
  let on := powerable s0 (modeDomains s0 m ||| (demandMask s0 &&& s0.pwr.on))
  let off := s0.pwr.on &&& ~~~on
  let s1 := if off.getLsbD 10 ∨ m = .deepSleep then clearBias 6 0 s0 else s0
  let s2 := loseDomains off s1
  let s3 := if m = .deepSleep then holdPads 0xFFF s2 else s2
  let plls := pllsIn s3 m on
  let lo := if m = .listen then s3.rf.lo.filter (fun e => decide (e.1 % 2 = 1)) else s3.rf.lo
  let s3 := comeOn on (if (m = .deepSleep ∨ m = .thermalLatch) ∧ s3.clk.dpll ≠ 3 then dpllHold s3 else s3)
  darkenSensors { s3 with
    pwr := { s3.pwr with on := on, ready := on },
    clk := { s3.clk with plls := plls },
    tm := { s3.tm with fine := plls.getLsbD 1 }, rf := { s3.rf with lo := lo } }

/-! ### Service (R342) -/

/-- A running or armed digest is aborted (R398). -/
def abortDigest (s : State) : State :=
  if s.rk.digest = 2 ∨ s.rk.digest = 1 then { s with rk := { s.rk with digest := 4 } } else s

/-- Service is over: playout and export stop, pending bank commits are cancelled (R219), the back-off ends. -/
def stopService (s : State) : State :=
  let d := endPlayout (nowU s) (if s.rk.digest = 2 ∧ s.pwr.serving then abortDigest s else s)
  updateAtten { d with
    pwr := { d.pwr with serving := false, service := none, endAt := none },
    ul := { d.ul with marks := [], prach := [], reduction := [], trigger := [] },
    lin := { d.lin with commits := [] },
    rf := { d.rf with running := false, backoff := false } }

/-- Service start S: the first common slot boundary at or after M + 1 ms. -/
def planService (s : State) : State :=
  let t := nextCommon s.cfg.live (nowU s + (msU : Int))
  { s with pwr := { s.pwr with service := some (boundaryAt t, t) } }

/-! ### Modes -/

/-- The instant M of a change of mode (R337): the target becomes current, domains and enables follow, thresholds, adaptation,
the frame timer and service follow the mode, and EV_MODE_CHANGE is raised. `cause` and `source` as in Table 14-10. -/
def enterMode (target : Mode) (cause source dur : Nat) (s : State) : State :=
  let old := s.pwr.mode
  let s1 := { s with
    pwr := { s.pwr with mode := target, since := s.tm.raw, trans := none,
                        cause := if target = .safeHold then s.pwr.cause else 0,
                        causeReg := if target = .safeHold then s.pwr.causeReg else 0,
                        further := if target = .safeHold then s.pwr.further else 0 },
    th := { s.th with rateTrip := s.th.rateTrip && !(decide (old = .safeHold) && decide (target ≠ .safeHold)) } }
  let s2 := if isService old && !isService target then stopService s1 else s1
  let s3 := setDomains target s2
  let s4 := if armingOf target false = 0 then disarmThermal s3 else s3
  let s5 := if isOperate old = isOperate target then s4 else pauseAdaptation (isOperate target) s4
  let s6 := if isService target then
      let t := if isService old then s5 else patternEntry s5
      if t.pwr.ready.getLsbD 12 then planService t else t
    else s5
  raise 164 (det (modeCode old) (modeCode target) cause source dur) (notePins s6)

/-! ### Runs that a fault or restart ends -/

/-- Domains whose logic a test request scans (R411). -/
def scannedDomains (req : List Byte) : BitVec 20 :=
  let t := u req 2 2
  if t.testBit 0 then 0xFFFEC
  else if t.testBit 1 then (testSlices req).foldl (fun a e => a ||| BitVec.twoPow 20 (partitionDomain e.1)) 0 else 0

/-- A run in SELF-TEST ends: the scanned domains' memories that R334 does not retain read as after power-up (R411), and ports
restart on return (R415). -/
def testLoss (s : State) : State :=
  match s.test.run with
  | none => s
  | some req => if u req 1 1 = 1 ∧ s.pwr.mode = .selfTest then loseContents (scannedDomains req ||| 8) s else s

/-- The long operation that asked for a refused transition ends with its reason (R376, R415). No test having run, EV_TEST_DONE tells INCOMPLETE
(R417; DESIGN CHOICE, log 42). -/
def refuseRun (t : Mode) (reason : Nat) (s : State) : State :=
  match t with
  | .calibrate => finishLong .calRun stRefused reason [] { s with cal := { s.cal with run := none } }
  | .selfTest =>
    (match s.test.run with
    | none => s
    | some req => finishLong .testRun stRefused reason []
        (raise 224 (detH 3 (u req 2 1) 0 (usSince s.test.start s)) { s with test := { s.test with run := none } }))
  | _ => s

/-- A running `cal.run` ends (R377). In CALIBRATE the type in progress stands as INCOMPLETE, and the types before it keep what they have;
on the way there the transition has been aborted with reason 13 (R341). -/
def stopCal (answer : Bool) (s : State) : State :=
  match s.cal.run with
  | none => s
  | some c =>
    let s1 := { s with cal := { s.cal with run := none } }
    if s.pwr.mode ≠ .calibrate then (if answer then refuseRun .calibrate 13 s else s1)
    else
      let s2 := match c.left with
        | t :: _ => { s1 with cal := { s1.cal with status := tset {} s1.cal.status t { tget {} s1.cal.status t with last := 3 } } }
        | [] => s1
      if answer then finishLong .calRun stIncomplete 0 [] s2 else s2

/-! ### SAFE-HOLD (R343) -/

/-- The transition in flight and the queued request are dropped with a reason (R341). -/
def dropTransitions (reason : Nat) (name : List Byte) (s : State) : State :=
  let s1 := match s.pwr.trans with
    | some t => recordRefusal (modeCode t.target) reason name { s with pwr := { s.pwr with trans := none, endAt := none } }
    | none => s
  match s1.pwr.queued with
  | some q => recordRefusal (modeCode q.target) reason name { s1 with pwr := { s1.pwr with queued := none } }
  | none => s1

/-- `EMERG_STATUS.SAFE_HOLD`: in SAFE-HOLD, or on the way into it (R343). -/
def holding (s : State) : Bool :=
  decide (s.pwr.mode = .safeHold) || match s.pwr.trans with | some t => decide (t.target = .safeHold) | none => false

/-- A protective entry is in flight: into SAFE-HOLD or THERMAL-LATCH, from its decision to M (rows 13 and 15 of Table 14-3). -/
def protecting (s : State) : Bool := protectiveEntry s

/-- What a protective entry ends at its decision: the transition in flight and the queued request with reason 13 (R341), an
armed commit (R76), a calibration, answered where CTRL remains powered (R377), a test (R413), service and its playout (R342), and the bias
of the channels that `cause` clears (R289). -/
def protectEnds (cause : Nat) (s : State) : State :=
  let powered := (reachable s (if cause = 4 then .thermalLatch else .safeHold)).getLsbD 1
  let s1 := testLoss <| stopCal powered (cancelArmed 5 (dropTransitions 13 (name8 "SAFEHOLD") s))
  let waiting : Bool := match s.test.run with | some req => decide (u req 1 1 = 1 ∧ s.pwr.mode ≠ .selfTest) | none => false
  let s2 := clearBias cause 0 (if waiting then refuseRun .selfTest 13 s1 else stopTest true s1)
  if isService s2.pwr.mode then stopService s2 else s2

/-- The entry into `m` is in flight until MODE_ENTERED (R337); no wake is armed or retried any more. -/
def protectEntry (m : Mode) (s : State) : State :=
  notePins { s with pwr := { s.pwr with
    endAt := none, trans := some ⟨s.pwr.mode, m, s.tm.raw, 3, 0, { target := m }, 0, 0⟩, armed := 0, senseArmed := 0, retry := none } }

/-- A protection fault (R343): the entry into SAFE-HOLD begins. A further cause in SAFE-HOLD, or during an entry, is counted;
one during a recovery ends the recovery. -/
def protect (cause reg : Nat) (s : State) : State :=
  if s.pwr.mode = .reset ∨ s.pwr.mode = .thermalLatch then s
  else if protecting s then { s with pwr := { s.pwr with further := s.pwr.further + 1 } }
  else if s.pwr.mode = .safeHold then
    let s1 := { s with pwr := { s.pwr with further := s.pwr.further + 1 } }
    if s.pwr.trans.isSome then setDomains .safeHold (dropTransitions 13 (name8 "SAFEHOLD") s1) else s1
  else
    let infl := match s.pwr.trans with | some t => modeCode t.target | none => 0xFF
    let d := det cause (modeCode s.pwr.mode) infl (if cause = 8 then reg else 0) 0
    let s1 := protectEnds 3 s
    let s2 := { s1 with pwr := { s1.pwr with cause := cause, causeReg := if cause = 8 then reg else 0, further := 0 } }
    protectEntry .safeHold (writeLog 3 d (raise 163 d s2))

/-! ### THERMAL-LATCH (R362) -/

/-- The 16 latch fields of Table 15-5, offsets 272 to 287. -/
def latchBytes (r : LatchRec) : List Byte :=
  leBytes 1 r.sensor ++ leBytes 1 r.modeLeft ++ leI 2 r.result ++ leI 8 (secOf r.time) ++ leBytes 4 (nsOf r.time)

/-- The entry into THERMAL-LATCH begins, decided by a result of a sensor (R362, Table 15-3). With the latch set
already, as in THERMAL-LATCH and during this entry, it is counted. The lease of an NVM write under way is revoked with the cause of a holder
whose domain goes off (DEDUCED, log 115), and the thermal manager writes its record under the lease as holder 0x11. -/
def thermalLatch (sensor : Nat) (result : Int) (s : State) : State :=
  if s.th.latch then
    { s with th := { s.th with latches := s.th.latches + 1 } }
  else
    let rec_ : LatchRec := ⟨sensor, modeCode s.pwr.mode, result, nowU s⟩
    let s1 := { s with th := { s.th with latch := true, latchRec := rec_ } }
    let s2 := raise 179 (detH sensor (modeCode s.pwr.mode) (wrapN 16 result) 0) s1
    let s3 := requestLease 0 0x11 (revokeWrites 2 (protectEnds 4 s2))
    protectEntry .thermalLatch (releaseLease 0 (writeLog 4 (latchBytes rec_) s3))

/-! ### Offset writes (R324) -/

/-- Change O at one raw value, with the effects of R324. A commit that is being armed and not yet armed goes on (DESIGN CHOICE, log 97). -/
def writeOffset (o : Int) (s : State) : State :=
  let old := nowU s
  let tm := { (if s.tm.servo = 2 then setServo 1 s else s).tm with offset := o, ppsOut := s.tm.ppsOut.map fun e => (-1, e.2) }
  let s1 := cancelArmed 6 { s with tm := tm }
  let now := nowU s1
  let s2 := claimsPassed old now (cabinetPassed now s1.bf.waiting.length s1)
  let s3 := runPassed now s2.lin.commits.length s2
  let s4 := if s3.rf.running then patternLevels s3.cfg.live (frameTick now) s3 else s3
  let d := if s4.rk.digest = 2 then abortDigest s4 else s4
  let e := { d with dl := { d.dl with released := [], playing := [] } }
  { e with dl := { e.dl with clsFrom := now }, ul := { e.ul with marks := [], prach := [], notBefore := now } }

end Sys2Proof.Machine
end

