-- ==== Sys2Proof/Machine/Thermal.lean ====
section
/-! DEFINITION. Thermal sensing and protection (R356 to R366): demands, the judgement of a result, rate limits, and the
thermal messages. -/

namespace Sys2Proof.Machine

def sensorOf (s : State) (n : Nat) : Sensor := tget {} s.th.sensor n

def setSensor (n : Nat) (x : Sensor) (s : State) : State :=
  { s with th := { s.th with sensor := tset {} s.th.sensor n x } }

/-! ### State bits (Table 2-18) -/

/-- Group g acts on a tripped derating threshold: TX derating is active. -/
def anyDerate (s : State) : Bool := (List.range 5).any (derateActs s)

/-- `TH_STATE` [3:0]. -/
def thState (s : State) : Nat :=
  b2n (s.th.sensor.any fun e => e.2.tripW) + 2 * b2n (anyDerate s) + 4 * b2n s.th.rateTrip + 8 * b2n s.th.latch

/-- `TH_STATE.HOTTEST` (R357). -/
def hottest (s : State) : Nat :=
  ((List.range 32).foldl (fun (a : Option Nat) n =>
    if !(sensorOf s n).valid then a
    else match a with
      | none => some n
      | some m => if (sensorOf s m).temp < (sensorOf s n).temp then some n else some m) none).getD 0

/-! ### Thresholds of the settings (Table 15-4) -/

def warnAt (s : State) (g : Nat) : Int := i s.th.acting (16 + 8 * g) 2
def derateAt (s : State) (g : Nat) : Int := i s.th.acting (18 + 8 * g) 2

/-- Window w = 0 to 2: enabled, limit in 0.25 °C, span in ticks. -/
def windowOn (s : State) (w : Nat) : Bool := (u s.th.acting 0 1).testBit w
def windowLimit (s : State) (w : Nat) : Nat := u s.th.acting (4 + 2 * w) 2
def windowTicks (w : Nat) : Nat := if w = 0 then 1474560 else if w = 1 then 147456000 else 14745600000

/-- Rise of a sensor in window w at its latest filtered value (R359), in 1/16 °C. -/
def riseOf (x : Sensor) (w : Nat) : Int :=
  match x.hist with
  | [] => 0
  | (r, f) :: _ => f - ((x.hist.filter fun e => decide (r ≤ e.1 + windowTicks w)).foldl (fun a e => if e.2 < a then e.2 else a) f)

/-- Enabled windows whose limit a sensor's rise exceeds. -/
def exceeded (s : State) (x : Sensor) : List Nat :=
  (List.range 3).filter fun w => windowOn s w && decide (4 * (windowLimit s w : Int) < riseOf x w)

/-- Cause 3 persists for reason 7: some sensor's rise exceeds a limit (R361). -/
def rateHolds (s : State) : Bool := s.th.sensor.any fun e => decide (exceeded s e.2 ≠ [])

/-! ### Demands (R358) -/

/-- Demand sensor n with the arming `arm` (0 for a host demand). A measurement already counting is not started again, and a
scheduled demand that meets it makes its result scheduled. -/
def demandSensor (arm : Nat) (s : State) (n : Nat) : State :=
  let x := sensorOf s n
  if !measurable s n then s
  else match x.counting with
    | none => setSensor n { x with counting := some (s.tm.raw, arm) } s
    | some (r, a) => setSensor n { x with counting := some (r, Nat.max a arm) } s

/-- Sensors scheduled in a mode (Table 15-2). -/
def scheduledSensors (m : Mode) : List Nat :=
  if m = .reset ∨ m = .deepSleep ∨ m = .thermalLatch then List.range 16 else List.range 32

/-- Period of Table 15-2 in µs. -/
def thermalPeriod (s : State) : Nat :=
  match s.pwr.mode with
  | .reset => 1000 | .deepSleep => 10000 | .thermalLatch => 10000 | .boot => 50 | .calibrate => 50 | .selfTest => 50
  | .safeHold => if recovering s then 50 else 100
  | _ => 100

/-- THERMAL_SCHEDULED_DEMAND: the period that the last demand's mode gave has passed; a mode change takes effect now (R358). -/
def execThermalScheduledDemand (s : State) : Host.Outcome State Fault Refusal :=
  let s1 := advanceSince s.th.demandAt (usTicks s.th.period) s
  .next ((scheduledSensors s1.pwr.mode).foldl (demandSensor (arming s1))
    { s1 with th := { s1.th with demandAt := s1.tm.raw, period := thermalPeriod s1 } })

/-- Demand the sensors of a `TH_DEMAND` value (R64). -/
def demandMany (v : Nat) (s : State) : State := ((List.range 32).filter fun n => v.testBit n).foldl (demandSensor 0) s

/-- TH_DEMAND: a write of the register. -/
def execThDemand (value : Word) (s : State) : Host.Outcome State Fault Refusal := .next (demandMany value.toNat s)

/-! ### Results (R357, R359 to R361) -/

/-- One threshold: tripped state, up and down counts after a value v. -/
def stepThreshold (v t : Int) (trip : Bool) (up down : Nat) : Bool × Nat × Nat :=
  if !trip then
    (if t < v then (if up + 1 = 3 then (true, 3, 0) else (false, up + 1, down)) else (false, 0, down))
  else (if v < t - 8 then (if down + 1 = 3 then (false, 0, 3) else (true, up, down + 1)) else (true, up, 0))

/-- Warning threshold (R360): the first sensor of the group to trip raises EV_TH_WARN. -/
def judgeWarn (n : Nat) (v : Int) (s : State) : State :=
  let g := sensorGroup n
  let x := sensorOf s n
  let r := stepThreshold v (warnAt s g) x.tripW x.upW x.downW
  let s1 := setSensor n { x with tripW := r.1, upW := r.2.1, downW := r.2.2 } s
  if r.1 && !x.tripW && !warnTripped s g then
    raise 176 ([BitVec.ofNat 8 n, 1] ++ leI 2 v ++ leI 2 (warnAt s g) ++ leBytes 2 g) s1
  else s1

/-- Derating threshold (R360): the applied attenuation follows, and the first trip of the group raises EV_TH_DERATE. -/
def judgeDerate (n : Nat) (v : Int) (s : State) : State :=
  let g := sensorGroup n
  let x := sensorOf s n
  let r := stepThreshold v (derateAt s g) x.tripD x.upD x.downD
  let s1 := updateAtten (setSensor n { x with tripD := r.1, upD := r.2.1, downD := r.2.2 } s)
  if r.1 && !x.tripD && !derateTripped s g && decide (bits (u s.th.acting 0 1) 3 1 = 1) then
    raise 177 ([BitVec.ofNat 8 n, BitVec.ofNat 8 g] ++ leI 2 v ++ leBytes 2 (u s.th.acting 1 1) ++ zeros 2) s1
  else s1

/-- The filtered value of a sensor after v, kept with its result instant as far back as 10 s. -/
def filterStep (v : Int) (now : Nat) (x : Sensor) : Sensor :=
  let last := (v :: x.last).take 4
  if last.length < 4 then { x with last := last }
  else { x with last := last, hist := (now, last.sum) :: x.hist.filter fun e => decide (now ≤ e.1 + windowTicks 2) }

/-- A rate trip of sensor n in window w (R361); each window exceeded is a trip of its own. -/
def rateTrip (n w : Nat) (rise : Int) (mode : Mode) (s : State) : State :=
  let s1 := { s with th := { s.th with rateTrip := true, lastTrip := ⟨n, w + 1, rise, nowU s⟩ } }
  protect 3 0 (raise 178 ([BitVec.ofNat 8 n, BitVec.ofNat 8 (w + 1)] ++ leI 2 rise ++ leBytes 2 (windowLimit s w) ++
    leBytes 2 (modeCode mode)) s1)

/-- Rate limits (R359, R361): armed (arm = 1) they trip, in SAFE-HOLD (arm = 2) they are counted. -/
def judgeRate (n : Nat) (v : Int) (arm : Nat) (s : State) : State :=
  let x := filterStep v s.tm.raw (sensorOf s n)
  let s1 := setSensor n x s
  if x.last.length < 4 then s1
  else
    let ws := exceeded s1 x
    let s2 := { s1 with th := { s1.th with trips := satAdd 0xFFFFFFFF s1.th.trips ws.length } }
    if arm = 1 then ws.foldl (fun t w => rateTrip n w (riseOf x w) s.pwr.mode t) s2 else s2

/-- A sensor fault (R357): stored with VALID 0, counted, counts and history reset; the event tells the raw count (Table 15-6). -/
def sensorFault (n : Nat) (v : Int) (count : Nat) (s : State) : State :=
  let x := sensorOf s n
  let s1 := setSensor n { x with
    temp := v, valid := false, counting := none, hot := 0, upW := 0, downW := 0, upD := 0, downD := 0, last := [], hist := [] } s
  raise 176 ([BitVec.ofNat 8 n, 2] ++ leBytes 2 count ++ zeros 2 ++ leBytes 2 (sensorGroup n))
    { s1 with th := { s1.th with faults := satAdd 0xFFFFFFFF s1.th.faults 1 } }

/-- Temperature of a measurement: by the factory trim, which record 0x0102 holds, else by nominal coefficients (R357). -/
def converted (s : State) (x : Reading) : Int := if (recordData s 0x0102).isSome then x.trimmed else x.nominal

/-- The bandgap and reference trim follows a thermal reading (R325); 0 where that is not enabled and without a valid curve. -/
def trimReference (n : Nat) (v : Int) (s : State) : State :=
  let t := match if (u s.clk.sources 19 1).testBit 2 then recordData s 0x0103 else none with
    | some c => Config.refTrim c n v
    | none => 0
  { s with clk := { s.clk with refTrim := tset 0 s.clk.refTrim n t } }

/-- A result of sensor n is written and judged (R359). Thresholds act where the demand was scheduled while they were armed,
and they are armed still; the demand's arming tells whether a rate trip acts (R358; DEDUCED, log 111). The settings written last
take effect (R364). -/
def judge (n : Nat) (m : Reading) (s0 : State) : State :=
  let v := converted s0 m
  if v < -240 ∨ 700 < v then sensorFault n v m.count s0
  else
    let s := trimReference n v s0
    let x := sensorOf s n
    let arm := match x.counting with | some (_, a) => a | none => 0
    let hot := if 500 ≤ v then x.hot + 1 else 0
    let s1 := setSensor n { x with temp := v, valid := true, counting := none, hot := hot } s
    if hot = 2 then thermalLatch n v s1
    else if arm = 0 ∨ arming s = 0 then s1
    else judgeRate n v arm (judgeDerate n v (judgeWarn n v { s1 with th := { s1.th with acting := s1.th.cfg } }))

/-- THERMAL_RESULT: a measurement completes 12 µs after its demand (R357). -/
def execThermalResult (sensor : Nat) (reading : Reading) (s : State) : Host.Outcome State Fault Refusal :=
  match (sensorOf s sensor).counting with
  | none => .next s
  | some (r, _) => .next (judge sensor reading (advanceSince r (usTicks 12) s))

/-! ### Messages -/

/-- Field checks of `thermal.configure` (Table 15-4). -/
def thermalChecks (p : List Byte) : List (Nat × Bool) :=
  [below p 0 1 4, inRange p 1 1 1 40, isZero p 2 2, inRange p 4 2 1 400, inRange p 6 2 1 400, inRange p 8 2 1 400, isZero p 10 6] ++
    ((List.range 5).flatMap fun g =>
      let b := 16 + 8 * g
      [inRangeI p b 2 (-160) 480, (b + 2, decide (i p b 2 ≤ i p (b + 2) 2) && decide (i p (b + 2) 2 ≤ 480)), isZero p (b + 4) 4]) ++
    [isZero p 56 8]

/-- A changed threshold resets the counts of its group's sensors against it (R364). -/
def resetCounts (old new : List Byte) (n : Nat) (x : Sensor) : Sensor :=
  let b := 16 + 8 * sensorGroup n
  let x1 := if i old b 2 = i new b 2 then x else { x with upW := 0, downW := 0 }
  if i old (b + 2) 2 = i new (b + 2) 2 then x1 else { x1 with upD := 0, downD := 0 }

/-- `thermal.configure` (R364). -/
def thermalConfigureBody (_a : Asker) (p : List Byte) (s : State) : Reply :=
  withLength [64, 0] p s <|
  if p = [] then ok s.th.cfg s
  else withFields (thermalChecks p) s <|
    let t := (s.th.sensor.map fun e => (e.1, resetCounts s.th.cfg p e.1 e.2)).filter fun e => decide (e.2 ≠ {})
    ok p { s with th := { s.th with cfg := p, sensor := t } }

def execThermalConfigure (ring : Nat) (dma : List Byte) (s : State) : Host.Outcome State Fault Refusal :=
  .next (runMessage 0x0E01 ring dma thermalConfigureBody s)

/-- Response of `thermal.read` (Table 15-5). -/
def thermalReport (s : State) : List Byte :=
  let groups (f : Nat → Bool) : Nat := ((List.range 5).map fun g => if f g then 2 ^ g else 0).sum
  leBytes 1 (thState s) ++ leBytes 1 (hottest s) ++ leBytes 1 (groups (warnTripped s)) ++ leBytes 1 (groups (derateTripped s)) ++
    leBytes 1 (arming s) ++ zeros 3 ++ leBytes 4 s.th.faults ++ leBytes 4 s.th.trips ++
    ((List.range 32).flatMap fun n =>
      let x := sensorOf s n
      leI 2 x.temp ++ (match x.hist with | [] => leBytes 2 0x8000 | e :: _ => leI 2 e.2) ++ leBytes 1 (b2n x.valid) ++
        leBytes 1 (b2n x.tripW + 2 * b2n x.tripD) ++ zeros 2) ++
    latchBytes s.th.latchRec ++ leBytes 1 s.th.lastTrip.sensor ++ leBytes 1 s.th.lastTrip.window ++ leI 2 s.th.lastTrip.rise ++
    leI 8 (secOf s.th.lastTrip.time) ++ leBytes 4 (nsOf s.th.lastTrip.time)

/-- `thermal.read` (R365): every measurable sensor is demanded, and the response is formed 12 µs later. -/
def thermalReadBody (readings : List (Nat × Reading)) (_a : Asker) (p : List Byte) (s : State) : Reply :=
  withLength [0] p s <|
  let ns := (List.range 32).filter (measurable s)
  let s1 := advanceSince s.tm.raw (usTicks 12) (ns.foldl (demandSensor 0) s)
  let s2 := ns.foldl (fun t n => match readings.find? fun e => decide (e.1 = n) with
    | some e => judge n e.2 t
    | none => t) s1
  ok (thermalReport s2) s2

/-- THERMAL_READ: `readings` hold a result of each measurable sensor. -/
def execThermalRead (ring : Nat) (dma : List Byte) (readings : List (Nat × Reading)) (s : State) : Host.Outcome State Fault Refusal :=
  if (List.range 32).all fun n => !measurable s n || readings.any fun e => decide (e.1 = n) then
    .next (runMessage 0x0E02 ring dma (thermalReadBody readings) s)
  else .next s

end Sys2Proof.Machine
end

