-- ==== Sys2Proof/Machine/Power.lean ====
section
/-! DEFINITION. Operating modes (R337 to R342), regulators (R344, R345), wake (R336, R346 to R348) and the power messages
(R351 to R354). -/

namespace Sys2Proof.Machine

/-! ### Checks of R338 -/

/-- Mode that the live duplex names. -/
def operateMode (s : State) : Mode := if isFdd s.cfg.live then .operateFdd else .operateTdd

/-- A row of Table 14-3 that a request can meet leads from `m` to `t`. -/
def rowFor (m t : Mode) : Bool :=
  match m with
  | .standby => decide (t = .bringUp) || isOperate t || decide (t = .listen) || decide (t = .deepSleep) || decide (t = .calibrate) ||
      decide (t = .selfTest)
  | .bringUp => isOperate t || decide (t = .standby) || decide (t = .calibrate)
  | .operateTdd => decide (t = .bringUp) || decide (t = .standby) || decide (t = .operateFdd)
  | .operateFdd => decide (t = .bringUp) || decide (t = .standby) || decide (t = .operateTdd)
  | .safeHold => decide (t = .standby)
  | _ => false

/-- Raised regulators whose power-good is not good. -/
def badRegs (s : State) : List Nat := (List.range 8).filter fun k => s.pwr.en.getLsbD k && !s.pwr.pg.getLsbD k && decide (regMask s k ≠ 0)

/-- Element of the first condition of Table 14-5 that persists. -/
def persistent (s : State) : Option (List Byte) :=
  if rateHolds s then some (name8 "THERMAL")
  else if tget 0 s.clk.osc 0 ≠ 2 ∧ tget 0 s.clk.osc 1 ≠ 2 then some (name8 "XTAL_A")
  else match badRegs s with
    | k :: _ => some (pmicName k)
    | [] => none

/-- The live image fails check 23. -/
def liveFails23 (s : State) : Bool := (check23 s.cfg.live).isSome

/-- Checks 1 to 7 of Table 14-4 for a request of `t`. Reason 6 never arises: no rule bars a target in a stage that runs
firmware. -/
def refusalOf (t : Mode) (s : State) : Option (Nat × List Byte) :=
  if !rowFor s.pwr.mode t then some (1, name8 "MODE")
  else if isOperate t ∧ t ≠ operateMode s then some (2, name8 "LO_PLAN")
  else if isOperate t ∧ !fieldCalValid s then some (3, name8 "FIELDCAL")
  else if isOperate t ∧ s.tm.servo ≠ 2 then some (4, name8 "SERVO")
  else if t = .bringUp ∧ liveFails23 s then some (5, name8 "CFG_C23")
  else if s.pwr.mode = .safeHold then (persistent s).map fun n => (7, n)
  else none

/-! ### A transition in flight -/

/-- Synthesisers that a mode runs: none off, LO-R alone in LISTEN, else all. -/
def losOf (m : Mode) (on : BitVec 20) : List Nat :=
  if !on.getLsbD 11 then [] else if m = .listen then [1, 3, 5, 7] else List.range 8

/-- Regulators that the transition raises are good. -/
def raisedGood (s : State) (t : Trans) : Bool := (List.range 8).all fun k => !t.raised.getLsbD k || regGood s k

/-- Power domains of the target of a transition, those of `mask`. -/
def powerSome (mask : BitVec 20) (t : Trans) (s : State) : State :=
  let new := reachable s t.target &&& mask &&& ~~~s.pwr.on
  comeOn new { s with pwr := { s.pwr with trans := some { t with powered := t.powered ||| new } } }

/-- The synthesisers that the target runs are qualified, where the transition powers TX or RX halves, which wait for them (R339). -/
def losReady (s : State) (t : Trans) : Bool :=
  decide ((reachable s t.target &&& 0xFF800 &&& (~~~s.pwr.on ||| t.powered)) = 0) ||
    (losOf t.target (modeDomains s t.target)).all fun k => decide ((loOf s k).state = 2)

/-- Power the domains of the target in the order of R339: TIMING, CTRL, NVM, LINK, HK and LO, whose synthesisers start, and once those are
qualified TXQ, RXQ, BF, FD, DUCDDC, DPD and ADAPT. -/
def powerFor (t : Trans) (s : State) : State :=
  let s1 := powerSome 0x00C1F t s
  let off := (losOf t.target (modeDomains s t.target &&& s1.pwr.on)).filter fun k => decide ((loOf s1 k).state = 0)
  let s2 := off.foldl (startLo false) s1
  match s2.pwr.trans with
  | some t1 => if losReady s2 t1 then powerSome 0xFF3E0 t1 s2 else s2
  | none => s2

/-- A transition goes on: the next regulator is raised, or the domains are powered (R344, R339). -/
def progress (s : State) : State :=
  match s.pwr.trans with
  | none => s
  | some t =>
    let s1 := raiseNext (enablesFor s (modeDomains s t.target ||| s.pwr.on ||| demandMask s)) s
    if raisedGood s1 t then powerFor t s1 else s1

/-- Targets whose transition cancels an armed commit (R76). -/
def cancelsCommit (m : Mode) : Bool :=
  decide (m = .listen) || decide (m = .deepSleep) || decide (m = .calibrate) || decide (m = .selfTest) || decide (m = .bringUp)

/-- Start a transition; one that leaves service ends it at E (R342), a test under way stops (R413), and the recovery from SAFE-HOLD
disarms the thresholds (R360). -/
def startTrans (t : Mode) (cause source : Nat) (req : PwrReq) (s : State) : State :=
  let s0 := if t = .selfTest then s else stopTest true s
  let s1 := if cancelsCommit t then cancelArmed 5 s0 else s0
  let s2 := if t = .listen ∨ t = .deepSleep then { s1 with pwr := { s1.pwr with wake := req } } else s1
  let e := if isService s2.pwr.mode && !isService t && s2.pwr.service.isSome
    then some (nextCommon s2.cfg.live (nowU s2 + 100 * (usU : Int))) else none
  let raised := enablesFor s2 (modeDomains s2 t) &&& ~~~s2.pwr.en
  let s3 := if s2.pwr.mode = .safeHold then disarmThermal s2 else s2
  progress { s3 with pwr := { s3.pwr with
    endAt := e, trans := some ⟨s3.pwr.mode, t, s3.tm.raw, cause, source, req, raised, 0⟩ } }

/-- CONV-PLL and SYS-PLL are qualified wherever the target runs them on an oscillator. -/
def pllsReady (s : State) (t : Trans) : Bool :=
  decide (t.target = .deepSleep) || decide (s.clk.active = 3) || (s.clk.plls.getLsbD 1 && s.clk.plls.getLsbD 2)

/-- The transition may reach M (R337); a protective entry waits for nothing. -/
def arrived (s : State) (t : Trans) : Bool :=
  decide (t.cause = 3) || raisedGood s t && s.pwr.endAt.isNone && losReady s t && pllsReady s t

/-! ### The queue of one (R341) -/

/-- Cause of EV_MODE_CHANGE for a transition that a request starts: 5 for a run of `cal.run` or `test.run`, else 1 (Table 14-10). -/
def requestCause (t : Mode) : Nat := if t = .calibrate ∨ t = .selfTest then 5 else 1

/-- The queued request starts: dropped where it names the current mode, else checked (R341). -/
def runQueue (s : State) : State :=
  match s.pwr.trans, s.pwr.queued with
  | none, some q =>
    let s1 := { s with pwr := { s.pwr with queued := none } }
    if q.target = s.pwr.mode then s1
    else match refusalOf q.target s1 with
      | some (r, n) => refuseRun q.target r (recordRefusal (modeCode q.target) r n s1)
      | none => startTrans q.target (requestCause q.target) 0 q s1
  | _, _ => s

/-- A request that arrives while a transition is in flight is queued; one that it replaces is recorded with reason 12, and ended with it
where a run had asked for it (R341). -/
def queueRequest (r : PwrReq) (s : State) : State :=
  let s1 := match s.pwr.queued with
    | some q => refuseRun q.target 12 (recordRefusal (modeCode q.target) 12 (name8 "QUEUE") s)
    | none => s
  { s1 with pwr := { s1.pwr with queued := some r } }

/-! ### Refusal of a transition in flight (R338) and failed wakes (R348) -/

/-- Undo a transition: domains, enables and synthesisers return to the starting mode; a service that had ended starts anew. -/
def undoTrans (t : Trans) (s : State) : State :=
  let s1 := setDomains t.origin { s with pwr := { s.pwr with trans := none, endAt := none } }
  if isService t.origin && s1.pwr.service.isNone && s1.pwr.ready.getLsbD 12 then planService s1 else s1

/-- A wake fails (R348): back to the low-power mode, record, EV_WAKE_FAILED, count, retry or SAFE-HOLD. Whether CTRL's regulators are good
is judged as the wake fails, before it releases what it raised (DESIGN CHOICE, log 47). -/
def failWake (t : Trans) (reason : Nat) (name : List Byte) (s : State) : State :=
  let n := satAdd 255 s.pwr.fails 1
  let s1 := recordRefusal s.pwr.wakeTarget reason name (undoTrans t s)
  let s2 := raise 161 (det (modeCode t.origin) s.pwr.wakeTarget n reason (leNat (name.take 4))) { s1 with pwr := { s1.pwr with
    fails := n, retry := if s.pwr.retrying ∨ 3 ≤ n then none else some s1.tm.raw, retrying := false } }
  if n < 3 then s2
  else
    match (regsFeeding s 1).find? fun k => !regGood s k with
    | none => protect 7 0 s2
    | some k => recordRefusal s.pwr.wakeTarget 14 (pmicName k) { s2 with pwr := { s2.pwr with armed := 0, senseArmed := 0 } }

/-- A transition in flight is refused (reasons 8 to 11); a protective entry cannot be (R340, R362). -/
def refuseTrans (reason : Nat) (name : List Byte) (s : State) : State :=
  match s.pwr.trans with
  | none => s
  | some t =>
    if t.cause = 3 then s
    else if t.cause = 2 ∧ t.target = .standby ∧ reason ≠ 8 then runQueue (failWake t reason name s)
    else runQueue (refuseRun t.target reason (recordRefusal (modeCode t.target) reason name (undoTrans t s)))

/-! ### Wakes (R346, R347) -/

/-- A wake during which neither oscillator can qualify, the live image passing check 23: BRING-UP without RF takes STANDBY's place (row 7 of
Table 13-5, R424). -/
def wakesWithoutRf (s : State) : Bool :=
  decide (s.clk.active = 3) && [0, 1].all (fun k => decide (tget 0 s.clk.osc k ≠ 1)) && !liveFails23 s &&
    match s.pwr.trans with | some t => decide (t.cause = 2) && decide (t.target = .standby) | none => false

/-- The wake goes on to BRING-UP without RF. -/
def wakeWithoutRf (s : State) : State :=
  match s.pwr.trans with
  | none => s
  | some t =>
    let raised := enablesFor s (modeDomains s .bringUp) &&& ~~~s.pwr.en
    progress { s with pwr := { s.pwr with trans := some { t with target := .bringUp, raised := t.raised ||| raised } } }

/-- A wake source trips: row 11 or 12 toward STANDBY. -/
def startWake (source : Nat) (retry : Bool) (s : State) : State :=
  if (s.pwr.mode = .listen ∨ s.pwr.mode = .deepSleep) ∧ s.pwr.trans.isNone then
    let s1 := startTrans .standby 2 source {} { s with pwr := { s.pwr with lastSource := source, retry := none, retrying := retry } }
    if wakesWithoutRf s1 then wakeWithoutRf s1 else s1
  else s

/-- Wake source with bit b of the armed mask trips (codes of Table 14-9 are b + 1). -/
def wakeBy (b : Nat) (s : State) : State := if s.pwr.armed.getLsbD b then startWake (b + 1) false s else s

/-- A wake source that is one instant or one edge after M, timer or 1PPS_IN, trips once (R346). -/
def wakeOnce (b : Nat) (s : State) : State :=
  let t := wakeBy b s
  { t with pwr := { t.pwr with armed := t.pwr.armed &&& ~~~BitVec.twoPow 9 b } }

/-- Threshold of comparator k in µV and whether it wakes below (R347); the DAC's error, within 10 mV, is free (log 2). -/
def senseAt (s : State) (k : Nat) : Int × Bool :=
  let (t, below) := (s.pwr.wake.sense[k]?).getD (0, false)
  (5000 * (t : Int) + (Config.senseError k t % 20001 : Nat) - 10000, below)

/-- A level lies on the side of comparator k's threshold that trips it. -/
def senseBeyond (s : State) (k : Nat) (level : Int) : Bool :=
  let (t, below) := senseAt s k
  if below then decide (level < t) else decide (t < level)

/-- A level lies beyond the hysteresis of 10 mV on the other side, where it arms comparator k. -/
def senseArms (s : State) (k : Nat) (level : Int) : Bool :=
  let (t, below) := senseAt s k
  if below then decide (t + 10000 < level) else decide (level < t - 10000)

/-- WAKE_SENSE[k] takes a level. -/
def senseInput (w : SenseLevel) (s : State) : State :=
  { s with pwr := { s.pwr with sense := tset 0 s.pwr.sense w.comparator w.level } }

/-- WAKE_SENSE_TRIP: the input has been at a level for 100 ns; an armed comparator whose threshold it has passed trips and disarms (R347).
The comparators act in LISTEN and DEEP-SLEEP alone. -/
def execWakeSenseTrip (w : SenseLevel) (s : State) : Host.Outcome State Fault Refusal :=
  let k := w.comparator
  let s1 := senseInput w s
  if 4 ≤ k then .next s
  else if (s.pwr.mode = .listen ∨ s.pwr.mode = .deepSleep) ∧ s.pwr.senseArmed.getLsbD k ∧ senseBeyond s k w.level then
    .next (wakeBy k { s1 with pwr := { s1.pwr with senseArmed := s1.pwr.senseArmed &&& ~~~BitVec.twoPow 4 k } })
  else .next s1

/-- WAKE_SENSE_REARM: the input takes a level; one beyond the hysteresis arms the comparator again (R347). -/
def execWakeSenseRearm (w : SenseLevel) (s : State) : Host.Outcome State Fault Refusal :=
  let k := w.comparator
  let s1 := senseInput w s
  if 4 ≤ k then .next s
  else if (s.pwr.mode = .listen ∨ s.pwr.mode = .deepSleep) ∧ senseArms s k w.level then
    .next { s1 with pwr := { s1.pwr with senseArmed := s1.pwr.senseArmed ||| BitVec.twoPow 4 k } }
  else .next s1

/-- RX_ENERGY_WAKE: the mean power of a path of the mask over the window, in dBFS, exceeds the threshold (R346). -/
def execRxEnergyWake (path : Nat) (dbfs : Int) (s : State) : Host.Outcome State Fault Refusal :=
  if s.pwr.mode = .listen ∧ path < 64 ∧ s.pwr.wake.energyMask.testBit path ∧ s.pwr.wake.energy < dbfs ∧
      s.pwr.ready.getLsbD (16 + path / 16) then .next (wakeBy 4 s)
  else .next s

/-- WAKE_TIMER: the timer has run since M of the entry (R346). -/
def execWakeTimer (s : State) : Host.Outcome State Fault Refusal :=
  if (s.pwr.mode = .listen ∨ s.pwr.mode = .deepSleep) ∧ s.pwr.armed.getLsbD 5 ∧ s.pwr.trans.isNone then
    .next (wakeOnce 5 (advanceSince s.pwr.since (s.pwr.wake.timer * 1474560) s))
  else .next s

/-- PCIE_WAKE: a TLP in LISTEN, or an exit from electrical idle in DEEP-SLEEP (R346). -/
def execPcieWake (s : State) : Host.Outcome State Fault Refusal := .next (wakeBy 7 s)

/-- WAKE_RETRY: 10 ms after the release of a failed wake (R348). -/
def execWakeRetry (s : State) : Host.Outcome State Fault Refusal :=
  match s.pwr.retry with
  | none => .next s
  | some r => .next (startWake s.pwr.lastSource true (advanceSince r 14745600 s))

/-! ### M -/

/-- Comparators that the present levels of their inputs arm (R347). -/
def sensesArmed (s : State) : BitVec 4 :=
  (List.range 4).foldl (fun a k => if senseArms s k (tget 0 s.pwr.sense k) then a ||| BitVec.twoPow 4 k else a) 0

/-- Wake settings at M of an entry into LISTEN or DEEP-SLEEP, disarmed at M of any other mode. -/
def armWake (t : Trans) (s : State) : State :=
  if t.target = .listen ∨ t.target = .deepSleep then
    { s with pwr := { s.pwr with armed := BitVec.ofNat 9 t.req.sources, senseArmed := sensesArmed s, retry := none, retrying := false,
                                 wakeTarget := modeCode t.req.wakeTarget } }
  else { s with pwr := { s.pwr with armed := 0, senseArmed := 0, retry := none } }

/-- After a wake: its count, and the rest of the way to the wake target by row 3 (R337, R346, R348). -/
def continueWake (t : Trans) (s : State) : State :=
  let goal := modeOf s.pwr.wakeTarget
  if t.cause ≠ 2 then s
  else if t.target = goal ∨ (t.target = .bringUp ∧ t.origin ≠ .standby) then { s with pwr := { s.pwr with fails := 0, retrying := false } }
  else match refusalOf goal s with
    | some (r, n) => recordRefusal s.pwr.wakeTarget r n s
    | none => startTrans goal 2 t.source {} s

/-- The transition arrives. -/
def finishTrans (t : Trans) (s : State) : State :=
  let before := s.pwr.on &&& ~~~t.powered
  let s1 := enterMode t.target t.cause t.source (usSince t.start s) s
  let s2 := if t.req.releasePads then notePins (releasePads (padsOfOff (s1.pwr.on &&& ~~~before) &&& s1.em.held) s1) else s1
  let s3 := if t.target = .calibrate ∨ t.target = .selfTest then { s2 with pwr := { s2.pwr with from_ := t.origin } } else s2
  runQueue (continueWake t (armWake t s3))

/-- MODE_ENTERED: everything the transition waits for has come, and M is reached. -/
def execModeEntered (s : State) : Host.Outcome State Fault Refusal :=
  match s.pwr.trans with
  | none => .next s
  | some t => if arrived s t then .next (finishTrans t s) else .next s

/-- QUIESCE_TIMEOUT (R340): a transition is refused, a domain woken on demand stays on, a protection fault's gate closes and
the transaction in progress is counted as aborted. -/
def execQuiesceTimeout (domain : Nat) (s : State) : Host.Outcome State Fault Refusal :=
  match s.pwr.trans with
  | some t =>
    if s.pwr.on.getLsbD domain && !(modeDomains s t.target).getLsbD domain && s.pwr.endAt.isNone then
      (if t.cause = 3 then
        .next (advanceSince t.start (usTicks 10) { s with pwr := { s.pwr with aborted := (s.pwr.aborted + 1) % 2 ^ 32 } })
      else .next (refuseTrans 8 (domainName domain) s))
    else .next s
  | none =>
    if tget 0 s.pwr.demand domain ≠ 0 then
      .next { s with pwr := { s.pwr with demand := tset 0 s.pwr.demand domain (s.tm.raw + 1) } }
    else .next s

/-! ### Service (R342) -/

/-- SERVICE_START: S comes; playout and export begin, or the handover of row 4 takes effect (R342, R427). -/
def execServiceStart (s : State) : Host.Outcome State Fault Refusal :=
  match s.pwr.service with
  | none => .next s
  | some (_, t) =>
    let back := decide (s.pwr.mode = .bringUp)
    let ended := match s.pwr.endAt with | some e => decide (e ≤ t) | none => false
    if isService s.pwr.mode ∧ !ended ∧ (!s.pwr.serving ∨ s.rf.backoff ≠ back) then
      let s1 := advanceTo t s
      let s2 := { s1 with
        dl := { s1.dl with cls := 0, clsAir := t, clsFrom := t },
        ul := if s1.pwr.serving then s1.ul else { s1.ul with notBefore := t, notAfter := none } }
      .next (applyAtten { s2 with pwr := { s2.pwr with serving := true }, rf := { s2.rf with backoff := back } })
    else .next s

/-- SERVICE_END: E comes (R342); UL symbols that end by E are still exported until the domains are quiesced. A digest whose span is not
over is aborted (R398). -/
def execServiceEnd (s : State) : Host.Outcome State Fault Refusal :=
  match s.pwr.endAt with
  | none => .next s
  | some e =>
    let s0 := advanceTo e s
    let s1 := endPlayout e (if (s0.rk.start : Int) * frameU ≤ e ∧ e < digestEnd s0 then abortDigest s0 else s0)
    .next { s1 with pwr := { s1.pwr with serving := false, service := none, endAt := none }, ul := { s1.ul with notAfter := some e } }

/-! ### Regulators (R344, R345) -/

/-- Domains none of whose regulators is not good. -/
def fedDomains (s : State) : BitVec 20 :=
  (List.range 20).foldl (fun a d => if fed s d then a ||| BitVec.twoPow 20 d else a) 0

/-- PG_GOOD: a raised regulator's power-good has been good for 10 µs. In RESET it is PG[0] and BOOT is entered (R422). -/
def execPgGood (k : Nat) (s : State) : Host.Outcome State Fault Refusal :=
  if k < 8 ∧ s.pwr.en.getLsbD k ∧ !s.pwr.pg.getLsbD k ∧ !s.boot.inReset then
    let s1 := { s with pwr := { s.pwr with pg := s.pwr.pg ||| BitVec.twoPow 8 k } }
    let s2 := { s1 with pwr := { s1.pwr with heldOff := s1.pwr.heldOff &&& ~~~fedDomains s1 } }
    if s2.pwr.mode = .reset then
      .next (if k = 0 then enterMode (if s2.th.latch then .thermalLatch else .boot) 6 0 (usSince s2.boot.t0 s2) s2 else s2)
    else if s2.pwr.trans.isSome then .next (progress s2)
    else .next (powerMode s2)
  else .next s

/-- PG_TIMEOUT: a power-good is not good within its timeout: reason 9, a failed wake, or a domain that stays off. -/
def execPgTimeout (k : Nat) (s : State) : Host.Outcome State Fault Refusal :=
  if k < 8 ∧ s.pwr.en.getLsbD k ∧ !s.pwr.pg.getLsbD k then
    if s.pwr.mode = .reset then
      (if k = 0 then
        .next (recordRefusal 1 9 (pmicName 0) { s with pwr := { s.pwr with en := 0, since := s.tm.raw } })
      else .next s)
    else
      let inFlight := match s.pwr.trans with | some t => t.raised.getLsbD k | none => false
      if inFlight then .next (refuseTrans 9 (pmicName k) s)
      else
        let s1 := { s with pwr := { s.pwr with
          heldOff := s.pwr.heldOff ||| BitVec.ofNat 20 (regMask s k),
          demand := s.pwr.demand.filter fun e => !(regMask s k).testBit e.1 || s.pwr.on.getLsbD e.1 } }
        .next (raiseNext (enablesFor s1 (heldDomains s1 ||| s1.pwr.on ||| demandMask s1)) s1)
  else .next s

/-- Domains that a lost power-good holds off go off at once (R345). -/
def dropHeld (s : State) : State :=
  let off := s.pwr.on &&& s.pwr.heldOff
  let s1 := loseDomains off (if off.getLsbD 10 then clearBias 6 0 s else s)
  darkenSensors { s1 with pwr := { s1.pwr with on := s1.pwr.on &&& ~~~off, ready := s1.pwr.ready &&& ~~~off } }

/-- PG_LOSS: a raised regulator that feeds an On or Part domain stops being good for 10 µs (R345): On now, or by Table 14-2. -/
def execPgLoss (k : Nat) (s : State) : Host.Outcome State Fault Refusal :=
  if k < 8 ∧ s.pwr.en.getLsbD k ∧ s.pwr.pg.getLsbD k ∧ s.pwr.mode ≠ .reset then
    let s1 := { s with pwr := { s.pwr with pg := s.pwr.pg &&& ~~~BitVec.twoPow 8 k } }
    let m := regMask s k
    if BitVec.ofNat 20 m &&& (s.pwr.on ||| heldDomains s) = 0 then .next s1
    else
      let s2 := raise 165 (det k (modeCode s.pwr.mode) 0 0 m)
        { s1 with pwr := { s1.pwr with heldOff := s1.pwr.heldOff ||| BitVec.ofNat 20 m } }
      .next (dropHeld (protect 8 k s2))
  else .next s

/-! ### Wake on demand (R336) -/

/-- DOMAIN_READY: a domain woken on demand becomes ready. -/
def execDomainReady (domain : Nat) (s : State) : Host.Outcome State Fault Refusal :=
  if domain < 20 ∧ !s.pwr.ready.getLsbD domain then
    (match accessDomain domain s with
    | some s1 => .next s1
    | none => .next s)
  else .next s

/-- WAKE_STALL_TIMEOUT: the access fails (R336). A message is the one the Bureau takes next, if it has the opcode. -/
def execWakeStallTimeout (domain : Nat) (req : StallReq) (s : State) : Host.Outcome State Fault Refusal :=
  if domain < 20 ∧ !s.pwr.ready.getLsbD domain then
    let failed := failAccess domain req.requester req.info s
    match req.requester with
    | 1 => .next { failed with out := failed.out ++ [.pcie none] }
    | 2 => .next (spiAnswer 4 [] failed)
    | 3 => .next (match pickRing s with
      | some n => runMessage req.info n req.dma (fun a _ t => err stTimeout domain (failAccess domain 3 a.hdr.opcode t)) s
      | none => s)
    | 4 => .next failed
    | _ => .next s
  else .next s

/-- A lease is held on a resource that lies in the domain (R336). -/
def leasedIn (s : State) (d : Nat) : Bool :=
  (List.range 24).any fun e => decide ((leaseNow s e).holder ≠ 0) && decide (leaseDomain e = d)

/-- DOMAIN_IDLE_OFF: no access for 1 ms and no lease in the domain: it switches off (R336). -/
def execDomainIdleOff (domain : Nat) (s : State) : Host.Outcome State Fault Refusal :=
  let last := tget 0 s.pwr.demand domain
  if last ≠ 0 ∧ !(heldDomains s ||| testDomains s).getLsbD domain ∧ !leasedIn s domain then
    let s1 := advanceSince (last - 1) 1474560 s
    let b := BitVec.twoPow 20 domain
    let s2 := if domain = 10 then clearBias 6 0 s1 else s1
    let s3 := loseDomains (b &&& s2.pwr.on) { s2 with pwr := { s2.pwr with demand := tset 0 s2.pwr.demand domain 0 } }
    let s4 := { s3 with pwr := { s3.pwr with on := s3.pwr.on &&& ~~~b, ready := s3.pwr.ready &&& ~~~b } }
    let en := s4.pwr.en &&& enablesFor s4 (s4.pwr.on ||| heldDomains s4 ||| demandMask s4)
    .next (darkenSensors { s4 with pwr := { s4.pwr with
      en := en, pg := s4.pwr.pg &&& (if s4.pwr.map.isNone then 0xFF else en) } })
  else .next s

/-! ### Messages -/

/-- Fields of `pwr.request` (Table 14-8). -/
def pwrChecks (p : List Byte) : List (Nat × Bool) :=
  let t := u p 0 1
  let low := t = 4 ∨ t = 5
  let w := u p 4 2
  let sense := [0, 1, 2, 3].flatMap fun k => [inRange p (17 + 4 * k) 1 0 1, isZero p (18 + 4 * k) 2]
  [(0, decide ((2 ≤ t ∧ t ≤ 7) ∨ t = 10 ∨ t = 255)),
   (1, decide (u p 1 1 < 16 ∧ u p 1 1 % 4 ≠ 3)),
   (2, if low then decide (u p 2 1 ∈ [2, 3, 6, 7]) else decide (u p 2 1 = 0)), isZero p 3 1,
   (4, decide (w < 512) && (if low then decide (w ≠ 0) else decide (w = 0)) && !(decide (t = 5) && w.testBit 4)), isZero p 6 2,
   (8, if w.testBit 5 then decide (1 ≤ u p 8 4 ∧ u p 8 4 ≤ 86400000) else decide (u p 8 4 = 0)), isZero p 12 4] ++ sense ++
  [(32, if w.testBit 4 then decide (-60 ≤ i p 32 1 ∧ i p 32 1 ≤ -10) else decide (u p 32 1 = 0)), isZero p 33 1,
   (34, if w.testBit 4 then decide (1 ≤ u p 34 2 ∧ u p 34 2 ≤ 1000) else decide (u p 34 2 = 0)), isZero p 36 4,
   (40, if w.testBit 4 then decide (u p 40 8 ≠ 0) else decide (u p 40 8 = 0))]

/-- The target part of a request. -/
def pwrParse (p : List Byte) : PwrReq :=
  { target := modeOf (u p 0 1), releasePads := (u p 1 1).testBit 3, wakeTarget := modeOf (u p 2 1), sources := u p 4 2,
    timer := u p 8 4, sense := [0, 1, 2, 3].map fun k => (u p (16 + 4 * k) 1, decide (u p (17 + 4 * k) 1 = 1)),
    energy := i p 32 1, window := u p 34 2, energyMask := u p 40 8 }

/-- OK response with a disposition. -/
def pwrDone (d : Nat) (s : State) : Reply :=
  let t := match s.pwr.trans with | some t => modeCode t.target | none => 0xFF
  let q := match s.pwr.queued with | some q => modeCode q.target | none => 0xFF
  ok (leBytes 1 d ++ leBytes 1 (modeCode s.pwr.mode) ++ leBytes 1 t ++ leBytes 1 q) s

/-- REFUSED with the number of the record written last. -/
def pwrRefused (reason : Nat) (name : List Byte) (t : Mode) (s : State) : Reply :=
  { st := recordRefusal (modeCode t) reason name s, code := stRefused, detail := reason,
    payload := leBytes 2 s.pwr.refTotal ++ [0, 0] }

/-- MUTE_ALL (R61): the DAC samples of every path are zero from now on (R152; at once, within its 2 µs: DESIGN CHOICE, log 20). -/
def muteAll (s : State) : State :=
  silenceTiles [0, 1, 2, 3] true { s with em := { s.em with muted := true, unmuteAt := none } }

/-- UNMUTE (R152): the mute ends at the next class-carrier symbol. -/
def unmute (s : State) : State :=
  if s.em.muted then { s with em := { s.em with unmuteAt := some (nowU s) } } else s

/-- Actions of a request, in the order MUTE, UNMUTE, PARK. -/
def pwrActions (a : Nat) (s : State) : State :=
  let s1 := if a.testBit 0 then muteAll s else s
  let s2 := if a.testBit 1 then unmute s1 else s1
  if a.testBit 2 then parkAll s2 else s2

/-- The target part (R338, R341). -/
def pwrTarget (r : PwrReq) (s : State) : Reply :=
  match s.pwr.trans with
  | none =>
    if r.target = s.pwr.mode then pwrDone 4 s
    else if r.target = .safeHold ∧ s.pwr.mode ≠ .thermalLatch then pwrDone 1 (protect 2 0 s)
    else match refusalOf r.target s with
      | some (n, nm) => pwrRefused n nm r.target s
      | none => pwrDone 1 (startTrans r.target 1 0 r s)
  | some t =>
    if r.target = .safeHold ∧ t.cause ≠ 3 then pwrDone 1 (protect 2 0 s)
    else match s.pwr.queued with
      | none =>
        if r.target = t.target then pwrDone 4 s else pwrDone 2 (queueRequest r s)
      | some _ => pwrDone 3 (queueRequest r s)

/-- `pwr.request` (R351). -/
def pwrRequestBody (_a : Asker) (p : List Byte) (s : State) : Reply :=
  withLength [48] p s <|
  withFields (pwrChecks p) s <|
  let s1 := pwrActions (u p 1 1) s
  if u p 0 1 = 255 then pwrDone 5 s1 else pwrTarget (pwrParse p) s1

def execPwrRequest (ring : Nat) (dma : List Byte) (s : State) : Host.Outcome State Fault Refusal :=
  .next (runMessage 0x0601 ring dma pwrRequestBody s)

/-- `pwr.status` (R352). -/
def pwrStatusBody (_a : Asker) (p : List Byte) (s : State) : Reply :=
  withLength [0] p s <|
  let tr := if recovering s then 2 else b2n s.pwr.trans.isSome
  let t := match s.pwr.trans with | some t => modeCode t.target | none => 0xFF
  let q := match s.pwr.queued with | some q => modeCode q.target | none => 0xFF
  let b : Boundary := match s.pwr.service with | some (b, _) => b | none => {}
  ok (leBytes 1 (modeCode s.pwr.mode) ++ leBytes 1 tr ++ leBytes 1 t ++ leBytes 1 q ++ leBytes 1 s.pwr.wakeTarget ++
    leBytes 1 s.pwr.fails ++ leBytes 1 s.pwr.lastSource ++ leBytes 1 (if s.pwr.mode = .safeHold then s.pwr.cause else 0) ++ leBytes 4 s.pwr.on.toNat ++
    leBytes 4 s.pwr.ready.toNat ++ leBytes 1 s.pwr.en.toNat ++ leBytes 1 s.pwr.pg.toNat ++
    leBytes 1 (b2n s.em.muted + 2 * b2n s.em.parked) ++ [0] ++ leBytes 4 (msSince s.pwr.since s) ++ leBytes 8 b.frame ++
    leBytes 1 b.quarter ++ zeros 3 ++ leBytes 4 s.pwr.aborted) s

def execPwrStatus (ring : Nat) (dma : List Byte) (s : State) : Host.Outcome State Fault Refusal :=
  .next (runMessage 0x0602 ring dma pwrStatusBody s)

/-- Bytes of refusal record r (Table 2-15). -/
def refBytes (s : State) (r : Nat) : List Byte :=
  let e := tget {} s.pwr.refs r
  e.name ++ leBytes 1 e.target ++ leBytes 1 e.reason ++ leBytes 2 e.number ++ leBytes 4 e.timeMs

/-- `REF_NEWEST`. -/
def refNewest (s : State) : Nat := s.pwr.refIndex + 65536 * s.pwr.refTotal

/-- `pwr.refusals` (R353). -/
def pwrRefusalsBody (_a : Asker) (p : List Byte) (s : State) : Reply :=
  withLength [4] p s <|
  withFields [inRange p 0 1 0 1, isZero p 1 3] s <|
  ok (((List.range 12).flatMap fun m => leBytes 4 (tget 0 s.pwr.refCount m)) ++ leBytes 4 (refNewest s) ++
    (List.range 32).flatMap (refBytes s))
    (if u p 0 1 = 1 then { s with pwr := { s.pwr with refCount := [] } } else s)

def execPwrRefusals (ring : Nat) (dma : List Byte) (s : State) : Host.Outcome State Fault Refusal :=
  .next (runMessage 0x0603 ring dma pwrRefusalsBody s)

/-- `pad.release` (R354). -/
def padReleaseBody (_a : Asker) (p : List Byte) (s : State) : Reply :=
  withLength [4] p s <|
  withFields [below p 0 2 12, isZero p 2 2] s <|
  let s1 := notePins (releasePads (BitVec.ofNat 12 (u p 0 2)) s)
  ok (leBytes 2 s1.em.held.toNat ++ leBytes 2 s1.em.refused.toNat) s1

/-- A keyed emergency write whose key is wrong (R61): ignored, counted, EV_EMERG_BAD_KEY. -/
def badKey (which key : Nat) (s : State) : State :=
  let n := satAdd 0xFFFF s.em.badKeyCount 1
  raise 6 (detH which 0 key n) { s with em := { s.em with badKey := true, badKeyCount := n } }

/-- A write of `PAD_RELEASE` (R61): key in [31:16]. -/
def padReleaseWrite (value : Word) (s : State) : State :=
  if bits value.toNat 16 16 = 0xA5C3 then notePins (releasePads (BitVec.ofNat 12 (value.toNat % 4096)) s)
  else badKey 1 (bits value.toNat 16 16) s

/-- PAD_RELEASE, by message or by register. -/
def execPadRelease (src : PadSource) (s : State) : Host.Outcome State Fault Refusal :=
  match src with
  | .message ring dma => .next (runMessage 0x0604 ring dma padReleaseBody s)
  | .register value => .next (padReleaseWrite value s)

end Sys2Proof.Machine
end

