-- ==== Sys2Proof/Machine/Servo.lean ====
section
/-! DEFINITION. Corrected time and the servo (R317 to R324, R327 to R330). -/

namespace Sys2Proof.Machine

/-! ### Settings (Table 13-8) -/

def svAuto (s : State) : Bool := decide (u s.tm.settings 4 1 = 1)
def svRequal (s : State) : Nat := u s.tm.settings 5 1
/-- Threshold in 2^-16 ns. -/
def svThreshold (s : State) : Int := (u s.tm.settings 6 2 * 65536 : Nat)
def svKp (s : State) : Nat := u s.tm.settings 8 4
def svKi (s : State) : Nat := u s.tm.settings 12 4
def svMaxRate (s : State) : Int := (u s.tm.settings 16 4 : Nat)
def svTimeout (s : State) : Nat := u s.tm.settings 20 2
def svPpsOut (s : State) : Nat := u s.tm.settings 22 1
def svWidth (s : State) : Nat := u s.tm.settings 24 2

/-- A field in ps as units u, rounded half to even. -/
def psU (ps : Int) : Int := rhe (ps * 589824) 1000

/-! ### Rate and state -/

/-- A change of r at the present raw value: O keeps corrected time continuous (R318). -/
def setRate (r : Int) (s : State) : State :=
  let share (x : Int) : Int := rhe ((s.tm.raw * 400000 : Nat) * ((2 ^ 48 : Nat) + x)) (9 * 2 ^ 48)
  { s with tm := { s.tm with offset := s.tm.offset + share s.tm.rate - share r, rate := r } }

/-- Corrected time stays within R319 after a change of O. -/
def offsetFits (o : Int) (s : State) : Bool :=
  let c := corrected { s.tm with offset := o } s.tm.raw
  decide (0 ≤ c) && decide (secOf (9 * c) ≤ 2 ^ 63 - 1)

/-- Modes in which O may not be written (R324). -/
def offsetBarred (m : Mode) : Bool := isOperate m || decide (m = .calibrate)

/-- Lock detection of R320 for a measurement within 1 ms. -/
def servoLock (e : Int) (s : State) : State :=
  let near := decide (-svThreshold s ≤ e) && decide (e ≤ svThreshold s)
  let far := decide (e < -4 * svThreshold s) || decide (4 * svThreshold s < e)
  let s0 := if s.tm.servo = 0 ∨ s.tm.servo = 3 then setServo 1 s else s
  let good := if near then s0.tm.good + 1 else 0
  let bad := if s0.tm.servo = 2 ∧ far then s0.tm.bad + 1 else 0
  let s1 := { s0 with tm := { s0.tm with good := Nat.min 16 good, bad := bad } }
  if s1.tm.servo = 1 ∧ 16 ≤ good then setServo 2 s1
  else if 4 ≤ bad then setServo 1 s1
  else s1

/-- Share of the servo's command r that the DPLL has taken up at this instant: with PTP as its input and an oscillator active a free value from 0
to r, which its bandwidth of 0.1 Hz decides; else none (R320). -/
def dpllShare (r : Int) (s : State) : Int × State :=
  if u s.clk.sources 3 1 = 2 ∧ s.clk.active ≠ 3 then
    let (f, s1) := takeFree s
    let n : Int := (f % (r.natAbs + 1) : Nat)
    (if r < 0 then -n else n, s1)
  else (0, s)

/-- A measurement e (2^-16 ns) that acts (R320). Products are rounded half to even to 2^-48 (DESIGN CHOICE, log
110). -/
def servoAct (e : Int) (s : State) : State :=
  let big := decide (e < -65536000000) || decide (65536000000 < e)
  if big then
    if svAuto s && !offsetBarred s.pwr.mode && offsetFits (s.tm.offset - e) s then
      let t := setServo 1 (writeOffset (s.tm.offset - e) s)
      { t with tm := { t.tm with good := 0, bad := 0 } }
    else servoHold 4 s
  else
    let m := svMaxRate s
    let integ := clampI (-m) m (s.tm.integ - rhe ((svKi s : Int) * e) 65536)
    let r := clampI (-m) m (integ - rhe ((svKp s : Int) * e) 65536)
    let (st, s0) := dpllShare r s
    servoLock e (setRate (r - st) { s0 with tm := { s0.tm with integ := integ, steer := st } })

/-- A measurement of the servo (R320, R323): one that changes the state is not counted among those since the change. In FRC-only operation the
servo stays in holdover (R314). -/
def servoMeasure (e : Int) (s : State) : State :=
  let s0 := { s with tm := { s.tm with lastE := e, lastMeas := s.tm.raw } }
  let s1 :=
    if s.tm.servo = 3 ∧ s.clk.active = 3 then s0
    else if s.tm.servo = 3 then
      let run := (e :: s0.tm.requal).take (svRequal s)
      let hi := run.foldl (fun a x => if a < x then x else a) e
      let lo := run.foldl (fun a x => if x < a then x else a) e
      if svRequal s ≤ run.length ∧ hi - lo ≤ 4 * svThreshold s then
        dpllFollows 3 (servoAct e { s0 with tm := { s0.tm with integ := s0.tm.rate + s0.tm.steer, requal := [] } })
      else { s0 with tm := { s0.tm with requal := run } }
    else servoAct e s0
  if s1.tm.servo = s.tm.servo then { s1 with tm := { s1.tm with measures := (s1.tm.measures + 1) % 2 ^ 32 } } else s1

/-! ### Phase sources (R321, R322) -/

/-- HOLDOVER_TIMEOUT: no measurement for the holdover timeout (R323). -/
def execHoldoverTimeout (s : State) : Host.Outcome State Fault Refusal :=
  if s.tm.servo = 1 ∨ s.tm.servo = 2 then
    .next (servoHold 1 (advanceSince s.tm.lastMeas (svTimeout s * 1474560) s))
  else .next s

/-- The same master, by the same port. -/
def sameMaster (a b : PtpMaster) : Bool := decide (a.port = b.port) && decide (a.master = b.master) && decide (a.masterPort = b.masterPort)

/-- PTP_MASTER_CHANGE: the BMCA, which runs over the ports of the PTP port mask that are up (R321), selects another master or port (R323). What the present one announces otherwise is noted. -/
def execPtpMasterChange (m : PtpMaster) (s : State) : Host.Outcome State Fault Refusal :=
  let reachable : Bool := match m.port with | some p => (u s.tm.settings 3 1).testBit p && portUp s p | none => true
  if svSource s = 1 ∧ reachable then
    let s1 := { s with tm := { s.tm with master := m } }
    let port := match m.port with | some p => p | none => 0xFF
    .next (if sameMaster m s.tm.master then s1
      else servoLost 2 (raise 147 (det port m.stepsRemoved m.clockClass 0 (m.grandmaster % 2 ^ 32)) s1))
  else .next s

/-- PPS_IN_EDGE: a wake source of the low-power modes (R346), and a measurement of the servo (R322). -/
def execPpsInEdge (s : State) : Host.Outcome State Fault Refusal :=
  let s1 := wakeOnce 6 s
  if svSource s1 = 2 ∧ s1.pwr.mode ≠ .deepSleep ∧ s1.pwr.ready.getLsbD 4 then
    let s2 := { s1 with tm := { s1.tm with lastPps := some s1.tm.raw, ppsMissed := 0 } }
    match s1.tm.lastPps with
    | none => .next s2
    | some r =>
      let gap := s1.tm.raw - r
      if 1327104000 ≤ gap ∧ gap ≤ 1622016000 then
        let t := 9 * nowC s2 - psU (i s2.tm.settings 32 4)
        let near := (t + (secU : Int) / 2) / (secU : Int) * (secU : Int)
        .next (servoMeasure (rhe (t - near) 9) s2)
      else .next s2
  else .next s1

/-- PPS_EDGE_TIMEOUT: 1.1 s without an edge, and each further second (R322). -/
def execPpsEdgeTimeout (s : State) : Host.Outcome State Fault Refusal :=
  if svSource s = 2 then
    let base := s.tm.lastPps.getD s.tm.ppsSince
    let s1 := advanceSince base (1622016000 + s.tm.ppsMissed * 1474560000) s
    .next (raise 149 (det 0 0 0 0 (1 + s.tm.ppsMissed)) { s1 with tm := { s1.tm with ppsMissed := s1.tm.ppsMissed + 1 } })
  else .next s

/-- Level of 1PPS_OUT (R328): high for the width from its edge, low in coarse mode. -/
def ppsOutLevel (s : State) : Bool :=
  match s.tm.ppsOut with
  | some (_, r) => s.tm.fine && decide (s.tm.raw - r < svWidth s * 1474560)
  | none => false

/-- PPS_OUT: corrected time reaches a whole second minus the output delay (R328). -/
def execPpsOut (s : State) : Host.Outcome State Fault Refusal :=
  let on := svPpsOut s = 2 ∨ (svPpsOut s = 1 ∧ (s.tm.servo = 2 ∨ s.tm.servo = 3))
  if on ∧ s.tm.fine then
    let d := psU (i s.tm.settings 28 4)
    let k0 := ceilDiv (nowU s + d) secU
    let k := match s.tm.ppsOut with | some (j, _) => if j = k0 then k0 + 1 else k0 | none => k0
    let s1 := advanceTo (k * (secU : Int) - d) s
    match s1.tm.ppsOut with
    | some (_, r) =>
      if s1.tm.raw - r < (svWidth s + 10) * 1474560 then .next { s1 with tm := { s1.tm with ppsOut := some (k, r) } }
      else .next { s1 with tm := { s1.tm with ppsOut := some (k, s1.tm.raw) }, out := s1.out ++ [.pps] }
    | none => .next { s1 with tm := { s1.tm with ppsOut := some (k, s1.tm.raw) }, out := s1.out ++ [.pps] }
  else .next s

/-! ### Messages -/

/-- Field checks of `time.servo` (Table 13-8). -/
def servoChecks (p : List Byte) : List (Nat × Bool) :=
  let d := u p 2 1
  [inRange p 0 1 0 2, inRange p 1 1 1 2, (2, if u p 1 1 = 1 then decide (24 ≤ d ∧ d ≤ 43) else decide (44 ≤ d ∧ d ≤ 63)),
   inRange p 4 1 0 1, inRange p 5 1 4 255, inRange p 6 2 1 65535, inRange p 16 4 1 140737488, inRange p 20 2 100 60000,
   inRange p 22 1 0 2, isZero p 23 1, inRange p 24 2 1 500, isZero p 26 2, inRangeI p 28 4 (-1000000) 1000000,
   inRangeI p 32 4 (-1000000) 1000000] ++ ((List.range 8).map fun n => inRange p (36 + n) 1 1 255) ++ [isZero p 44 4] ++
  (List.range 8).flatMap fun n =>
    [inRange p (48 + 12 * n) 4 0 10000000, inRange p (52 + 12 * n) 4 0 10000000, inRangeI p (56 + 12 * n) 4 (-10000000) 10000000]

/-- A write of the servo settings (R327). -/
def servoWrite (p : List Byte) (s : State) : State :=
  let s1 := { s with tm := { s.tm with settings := p } }
  let s2 := if slice p 0 4 = slice s.tm.settings 0 4 then s1 else servoLost 3 s1
  if u p 0 1 = 2 ∧ u s.tm.settings 0 1 ≠ 2 then
    { s2 with tm := { s2.tm with lastPps := none, ppsSince := s2.tm.raw, ppsMissed := 0 } } else s2

/-- `time.servo` (R327). -/
def timeServoBody (_a : Asker) (p : List Byte) (s : State) : Reply :=
  withLength [144, 0] p s <|
  if p = [] then ok s.tm.settings s else withFields (servoChecks p) s (ok p (servoWrite p s))

def execTimeServo (ring : Nat) (dma : List Byte) (s : State) : Host.Outcome State Fault Refusal :=
  .next (runMessage 0x0701 ring dma timeServoBody s)

/-- New O of a `time.set_offset` request (Table 13-9). -/
def newOffset (p : List Byte) (s : State) : Int :=
  let v : Int := i p 8 8 * 65536000000000 + (u p 16 4 * 65536 + u p 20 2 : Nat)
  if u p 0 1 = 0 then s.tm.offset + v
  else v - rhe ((u p 24 10 * 400000 : Nat) * ((2 ^ 48 : Nat) + s.tm.rate)) (9 * 2 ^ 48)

/-- `time.set_offset` (R329, R324). -/
def timeSetOffsetBody (_a : Asker) (p : List Byte) (s : State) : Reply :=
  withLength [40] p s <|
  withFields [inRange p 0 1 0 1, isZero p 1 7, inRange p 16 4 0 999999999, isZero p 22 2,
    (24, decide (u p 0 1 = 1) || decide (u p 24 10 = 0)), isZero p 34 6] s <|
  if offsetBarred s.pwr.mode then err stState 0 s
  else
    let o := newOffset p s
    if !offsetFits o s then err stBadField 40 s
    else
      let s1 := writeOffset o s
      let d := 9 * (corrected s1.tm s1.tm.raw - nowC s)
      ok (leI 8 (secOf d) ++ leBytes 4 (nsOf d) ++ leBytes 2 (fracOf d) ++ [0, 0]) s1

def execTimeSetOffset (ring : Nat) (dma : List Byte) (s : State) : Host.Outcome State Fault Refusal :=
  .next (runMessage 0x0702 ring dma timeSetOffsetBody s)

/-- `time.status` (Table 13-10). -/
def timeStatusBody (_a : Asker) (p : List Byte) (s : State) : Reply :=
  withLength [0] p s <|
  let m := s.tm.master
  let o := 9 * s.tm.offset
  ok (leBytes 1 s.tm.servo ++ leBytes 1 (if s.tm.servo = 3 then s.tm.holdCause else 0) ++ leBytes 1 (match m.port with | some n => n | none => 0xFF) ++
    leBytes 1 m.stepsRemoved ++ leBytes 8 m.grandmaster ++ leBytes 8 m.master ++ leBytes 2 m.masterPort ++
    leBytes 1 m.clockClass ++ [0] ++ leI 8 s.tm.lastE ++ leI 8 s.tm.meanDelay ++ leI 8 s.tm.rate ++ leI 8 (secOf o) ++
    leBytes 4 (nsOf o) ++ leBytes 2 (fracOf o) ++ leBytes 2 m.utcOffset ++
    leBytes 4 (if s.tm.servo = 3 then ticksSince s.tm.holdSince s / 1474560000 else 0) ++ leBytes 4 s.tm.measures) s

def execTimeStatus (ring : Nat) (dma : List Byte) (s : State) : Host.Outcome State Fault Refusal :=
  .next (runMessage 0x0703 ring dma timeStatusBody s)

/-- Latch corrected time and the raw counter at one tick (R62). -/
def captureTime (s : State) : State :=
  { s with tm := { s.tm with capValid := true, capC := nowC s, capRaw := s.tm.raw } }

end Sys2Proof.Machine
end

