-- ==== Sys2Proof/Machine/Links.lean ====
section
/-! DEFINITION. Fronthaul ports: link state and restarts (R87, R88), ingress classification (R89 to R92), egress (R96, R97),
receive timestamps and delay measurement (R98 to R100), SyncE (R315), and the link messages (R104, R105). -/

namespace Sys2Proof.Machine

/-! ### Ports and counters -/

/-- Logical lanes of port n in a mode (Table 4-1). -/
def lanesOf (mode n : Nat) : List Nat :=
  let k := if mode = 1 then 4 else if mode = 2 then 2 else 1
  (List.range k).map fun j => k * n + j

/-! ### SyncE (R315) -/

/-- EV_REF_MONITOR_TRIP of the SyncE input (Table 13-13, source 2). -/
def synceTrip (cause : Nat) (offset : Int) (s : State) : State :=
  if s.clk.synceOk then raise 144 (det 2 cause s.clk.active 0 (arg32 offset)) (synceLost s) else synceLost s

/-- A QL code that the minimum of the settings accepts: PRC 2, SSU-A 4, SSU-B 8, SEC 11, better first. -/
def qlGood (s : State) (c : Nat) : Bool := decide (c ∈ [2, 4, 8, 11]) && decide (c ≤ u s.clk.sources 17 1)

/-- An ESMC frame of the SyncE port brings an SSM code. The first that passes ends the cause that the one before was (R315). -/
def esmcCode (c : Nat) (s : State) : State :=
  let s1 := { s with clk := { s.clk with ql := c, lastEsmc := s.tm.raw, synceSince := if qlGood s s.clk.ql then s.clk.synceSince else s.tm.raw } }
  if qlGood s c then s1 else synceTrip 5 0 s1

/-! ### Link state (R87, R88) -/

/-- LINK_DOWN: an up port loses alignment (1), receives remote fault (2), has local fault for 10 µs (3), or its serdes PLL
loses lock (5). -/
def execLinkDown (port cause : Nat) (s : State) : Host.Outcome State Fault Refusal :=
  if portUp s port ∧ cause ∈ [1, 2, 3, 5] then .next (linkFalls port cause s) else .next s

/-- Half whose serdes PLL a port uses. -/
def portHalf (s : State) (n : Nat) : Nat := ((lanesOf (portMode s.cfg.live) n).head?.getD 0) / 4

/-- LINK_UP: aligned without fault for 10 ms. -/
def execLinkUp (port : Nat) (s : State) : Host.Outcome State Fault Refusal :=
  let p := portOf s port
  if portExists s port ∧ s.pwr.ready.getLsbD 3 ∧ p.state ≠ 6 ∧ s.clk.plls.getLsbD (3 + portHalf s port) then
    let n := (lanesOf (portMode s.cfg.live) port).length
    let s1 := setPort port { p with state := 6, aligned := 2 ^ n - 1, remoteFault := false, upCount := (p.upCount + 1) % 2 ^ 32, changed := nowU s } s
    .next (if syncePort s1 port then { s1 with clk := { s1.clk with synceSince := s1.tm.raw } } else s1)
  else .next s

/-- Ports of half h go down with the serdes PLL (cause 5). -/
def halfDown (h : Nat) (s : State) : State :=
  ((List.range 8).filter fun n => portUp s n && decide (portHalf s n = h)).foldl (fun t n => linkFalls n 5 t) s

/-- Permutation of four with an index, in lexicographic order (R84). -/
def permOf (k : Nat) : List Nat :=
  let pick (l : List Nat) (j : Nat) : Nat × List Nat := let x := l.getD j 0; (x, l.filter fun y => decide (y ≠ x))
  let a := pick [0, 1, 2, 3] (k / 6)
  let b := pick a.2 (k % 6 / 2)
  let c := pick b.2 (k % 2)
  [a.1, b.1, c.1] ++ c.2

/-- Physical lane of logical lane j (R84); `o` is the offset of the half-0 permutation. -/
def physLane (im : Image) (o j : Nat) : Nat := 4 * (j / 4) + (permOf (cf im 3 (o + j / 4) 1)).getD (j % 4) 0

/-- What of the port plan restarts a port when it changes (R88). -/
def laneKey (im : Image) (n : Nat) : List Nat :=
  (lanesOf (portMode im) n).flatMap fun j =>
    let t := physLane im 1 j
    let r := physLane im 3 j
    [t, r, bits (cf im 3 5 1) t 1, bits (cf im 3 6 1) r 1, cf im 3 (8 + 4 * t) 4,
      cf im 3 (40 + j / 4) 1, if portMode im = 4 then cf im 3 7 1 else 0]

/-- A port that is not up stands without signal; where it did not, its state changes now (R104). -/
def noSignal (n : Nat) (changed : Bool) (s : State) : State :=
  let p := portOf s n
  setPort n { p with state := 2, aligned := 0, remoteFault := false, changed := if changed || decide (p.state ≠ 2) then nowU s else p.changed } s

/-- One port at a commit boundary that restarts it or makes it exist or not (Table 4-3): one that was up raises EV_LINK_DOWN with cause 4,
and whether a frame was being received is a free value: it counts as an FCS error (R105). A delay measurement in progress, a held t2 and
stored transmit timestamps end with it, and messages that had arrived stay (DESIGN CHOICE, log 102). -/
def restartPort (existed exists_ : Bool) (n : Nat) (s : State) : State :=
  let up := existed && s.pwr.ready.getLsbD 3 && decide ((portOf s n).state = 6)
  let s1 := if up then
      let (f, t) := takeFree (linkFalls n 4 s)
      countLink n 2 (f % 2) t
    else noSignal n (existed != exists_) s
  setPort n { portOf s1 n with meas := none, heldT2 := none, txStamps := [] } s1

/-- Restart of ports at a commit boundary (R88, Table 4-3). -/
def restartPorts (old new : Image) (s : State) : State :=
  let was (n : Nat) : Bool := decide (n < portCount (portMode old))
  let is (n : Nat) : Bool := decide (n < portCount (portMode new))
  let hit := (List.range 8).filter fun n =>
    (was n && (decide (portMode old ≠ portMode new) || decide (laneKey old n ≠ laneKey new n))) || was n != is n
  hit.foldl (fun t n => restartPort (was n) (is n) n t) s

/-! ### eCPRI type 5 (R100) -/

/-- Ticks by which a receive timestamp may lie before the instant that the arrival gives: 300 ns between the pins and the delivery of the
last byte (R93), and 2 ticks either way (R98). -/
def stampReach : Nat := 443 + 2

/-- Receive timestamp of a frame of `len` bytes that arrives now (R98): corrected time in steps of a tick, of the start of its first symbol
after the SFD at the pins. Within its bounds it is not a function of the command, so it is a free value. -/
def stampRx (len : Nat) (s : State) : Instant × State :=
  let (f, s1) := takeFree s
  (tk (tickOf (nowU s - lineU s len) + 2 - ((f % (stampReach + 2) : Nat) : Int)), s1)

/-- A type 5 message arrives (R100) in a frame of `len` bytes. `src` is the sender's address, `m` the eCPRI payload. A request of the device
that has left by now has given its t1. -/
def type5 (n len : Nat) (src m : List Byte) (s : State) : State :=
  let s0 := countLink n 18 1 (drainPort n s)
  let id := ub m 0 1
  let p := portOf s0 n
  match ub m 1 1 with
  | 0 => let (t2, s1) := stampRx len s0; transmit n (type5Frame src 2 id t2 .other (nowU s1)) s1
  | 1 => let (t2, s1) := stampRx len s0; setPort n { p with heldT2 := some (id, t2) } s1
  | 5 =>
    (match p.heldT2 with
    | some (k, t2) =>
      if k = id then transmit n (type5Frame src 2 id t2 .other (nowU s0)) (setPort n { p with heldT2 := none } s0) else s0
    | none => s0)
  | 2 =>
    (match p.meas with
    | some (k, t1) =>
      if k = id then
        let t2 : Int := (ub m 2 6 * 1000000000 + ub m 8 4 : Nat) * 65536
        let d := t2 - t1 / 9 + signed 64 (ub m 12 8)
        setPort n { p with meas := none, delay := some ⟨id, d, nowU s0⟩ } s0
      else s0
    | none => s0)
  | a =>
    if a = 3 ∨ a = 4 then transmit n (type5Frame src 1 id 0 (.request id src) (nowU s0)) s0 else s0

/-- TYPE5_RESPONSE_TIMEOUT: no response within 100 ms; the previous result stays (R100). -/
def execType5ResponseTimeout (port : Nat) (s : State) : Host.Outcome State Fault Refusal :=
  let s := drainPort port s
  if (portOf s port).meas.isSome then .next (setPort port { portOf s port with meas := none } s) else .next s

/-! ### Ingress (R89 to R92) -/

/-- A dropped frame or message: its counter, and EV_FH_INGRESS_DROP with the cause (Table 4-7). -/
def ingressDrop (n cause k : Nat) (s : State) : State :=
  let s1 := countLink n k 1 s
  raise 24 (det n cause 0 0 (linkCount s1 n k % 2 ^ 32)) s1

/-- A frame that is accepted is counted with its bytes. -/
def acceptFrame (n : Nat) (f : List Byte) (s : State) : State := countLink n 1 f.length (countLink n 0 1 s)

/-- 16-bit ones' complement sum of a byte string. -/
def onesSum : List Byte → Nat
  | a :: b :: t => let v := a.toNat * 256 + b.toNat + onesSum t; v % 65536 + v / 65536
  | [a] => a.toNat * 256
  | [] => 0

/-- Answer of firmware to an ARP request for the port's address (R89 step 9). -/
def arpAnswer (n : Nat) (tag p : List Byte) (s : State) : State :=
  let im := s.cfg.live
  if ub p 6 2 = 1 then
    transmit n ⟨1, noFlow, .plain (slice p 8 6), tag ++ beBytes 2 0x0806 ++ slice p 0 6 ++ beBytes 2 2 ++ portMac im n ++
      slice p 24 4 ++ slice p 8 10, none, nowU s⟩ s
  else s

/-- Answer of firmware to an IPv6 neighbour solicitation for the port's address (R89 step 9). -/
def ndAnswer (n : Nat) (src tag p : List Byte) (s : State) : State :=
  let im := s.cfg.live
  let own := imgBytes im 3 (64 + 128 * n + 36) 16
  let peer := slice p 8 16
  let head : List Byte := [136, 0, 0, 0, 0x60, 0, 0, 0]
  let rest := own ++ ([2, 1] : List Byte) ++ portMac im n
  let sum := onesSum (own ++ peer ++ beBytes 4 32 ++ zeros 3 ++ [58] ++ head ++ rest)
  let ck := 0xFFFF - (if 0xFFFF < sum then sum - 0xFFFF else sum)
  let icmp := ([136, 0] : List Byte) ++ beBytes 2 ck ++ ([0x60, 0, 0, 0] : List Byte) ++ rest
  if ub p 40 1 = 135 then
    transmit n ⟨1, noFlow, .plain src, tag ++ beBytes 2 0x86DD ++ ([0x60, 0, 0, 0] : List Byte) ++ beBytes 2 32 ++
      ([58, 255] : List Byte) ++ own ++ peer ++ icmp, none, nowU s⟩ s
  else s

/-- The IP frame is one that step 9 accepts. -/
def ipAccepted (im : Image) (n etype : Nat) (p : List Byte) : Bool :=
  let enc := portField im n 25 1
  let ptp (o : Nat) : Bool := decide (ub p (o + 2) 2 = 319) || decide (ub p (o + 2) 2 = 320)
  let ip4 := imgBytes im 3 (64 + 128 * n + 32) 4
  let ip6 := imgBytes im 3 (64 + 128 * n + 36) 16
  if etype = 0x0800 then
    decide (enc = 3) && decide (ub p 9 1 = 17) && decide (slice p 16 4 = ip4) && ptp (ub p 0 1 % 16 * 4)
  else if etype = 0x0806 then decide (enc = 3) && decide (slice p 24 4 = ip4)
  else if ub p 6 1 = 58 then
    decide (enc = 4) && (decide (ub p 40 1 = 135) || decide (ub p 40 1 = 136)) && decide (slice p 48 16 = ip6)
  else decide (enc = 4) && decide (ub p 6 1 = 17) && decide (slice p 24 16 = ip6) && ptp 40

/-- Check the sequence ID of an identifier (R91): a value other than the previous plus 1 counts as a gap. PC_ID and RTC_ID are
followed apart. -/
def checkSeq (n type id sq : Nat) (s : State) : State :=
  let key := (if type = 2 then 65536 else 0) + id
  let prev := tget 0 s.fh.seqPrev key
  let s1 := { s with fh := { s.fh with seqPrev := tset 0 s.fh.seqPrev key (sq + 1) } }
  if prev = 0 ∨ prev % 256 = sq then s1 else countLink n 16 1 s1

/-- The eCPRI messages of a frame in turn (R91); `fuel` bounds their number. Those that pass enter the port's FIFO, type 5
messages are handled at once. -/
def ecpriRun (n len : Nat) (src : List Byte) (arrival : Instant) : Nat → List Byte → State → State
  | 0, _, s => s
  | fuel + 1, p, s =>
    let b0 := ub p 0 1
    let type := ub p 1 1
    let size := ub p 2 2
    let bad := ingressDrop n 15 9 s
    if p.length < 4 ∨ b0 / 16 ≠ 1 ∨ b0 / 2 % 8 ≠ 0 ∨ p.length < 4 + size ∨ ((type = 0 ∨ type = 2) ∧ size < 4) then bad
    else if type ≠ 0 ∧ type ≠ 2 ∧ type ≠ 5 then
      let s1 := ingressDrop n 11 8 s
      raise 26 (det n type 0 0 (linkCount s1 n 8 % 2 ^ 32)) s1
    else
      let m := slice p 4 size
      let next (t : State) : State :=
        if b0 % 2 = 1 then ecpriRun n len src arrival fuel (p.drop ((4 + size + 3) / 4 * 4)) t else t
      if type = 5 then next (type5 n len src m s)
      else if ub m 3 1 ≠ 0x80 then bad
      else
        let s1 := checkSeq n type (ub m 0 2) (ub m 2 1) s
        let q := portOf s1 n
        next (setPort n { q with fifo := q.fifo ++ [⟨type, ub m 0 2, arrival, m.drop 4⟩] } s1)

/-- Bytes that a port's ingress FIFO holds (R95): each waiting message with 8 bytes for its identifier and arrival, where an entering frame
is measured at its whole length (DESIGN CHOICE, log 101). -/
def fifoBytes (s : State) (n : Nat) : Nat := ((portOf s n).fifo.map fun e => 8 + e.bytes.length).sum

/-- A PTP message reaches firmware; an event message (types 0 to 3 of IEEE 1588) with its receive timestamp (R98). -/
def ptpFrame (n len : Nat) (m : List Byte) (s : State) : State :=
  let s1 := countLink n 17 1 s
  if ub m 0 1 % 16 ≤ 3 then
    let (t, s2) := stampRx len s1
    setPort n { portOf s2 n with ptpRx := some t } s2
  else s1

/-- Steps 3 to 11 of Table 4-4 on a frame from destination address to FCS. -/
def classify (n : Nat) (f : List Byte) (s : State) : State :=
  let im := s.cfg.live
  let dst := slice f 0 6
  let src := slice f 6 6
  let tagged := decide (ub f 12 2 = 0x8100)
  let o := if tagged then 18 else 14
  let etype := ub f (o - 2) 2
  let tag := if tagged then slice f 12 4 else []
  let vid := ub f 14 2 % 4096
  let p := slice f o (f.length - o - 4)
  let other (cause : Nat) : State := ingressDrop n cause 7 s
  let ok := acceptFrame n f s
  if f.length < 64 ∨ maxFrame im n < f.length then other 3
  else if !(decide (dst = portMac im n) || (decide (dst = List.replicate 6 255) && decide (etype = 0x0806)) ||
      decide (ub f 0 6 ∈ [0x011B19000000, 0x0180C200000E, 0x0180C2000001, 0x0180C2000002])) then other 4
  else if ub f 12 2 = 0x88A8 ∨ (tagged ∧ (etype = 0x8100 ∨ etype = 0x88A8)) then other 5
  else if etype = 0x8808 then
    (if ub p 0 2 = 1 then
      let s1 := countLink n 5 1 s
      raise 27 (det n 1 0 0 ((linkCount s1 n 5 + linkCount s1 n 6) % 2 ^ 32)) s1
    else if ub p 0 2 = 0x0101 then
      let s1 := countLink n 6 1 s
      raise 27 (det n 2 (ub p 2 2 % 256) 0 ((linkCount s1 n 5 + linkCount s1 n 6) % 2 ^ 32)) s1
    else other 6)
  else if etype = 0x8809 then
    (if ub p 0 1 = 0x0A then (if syncePort ok n then esmcCode (ub p 13 1 % 16) ok else ok) else other 7)
  else if etype = 0x88F7 then
    (let enc := portField im n 25 1
    if (enc = 1 ∧ !tagged) ∨ (enc = 2 ∧ tagged ∧ vid = portField im n 26 2) then ptpFrame n f.length p ok else other 8)
  else if etype = 0x0800 ∨ etype = 0x86DD ∨ etype = 0x0806 then
    (if !ipAccepted im n etype p then other 9
    else if etype = 0x0806 then arpAnswer n tag p ok
    else if etype = 0x86DD ∧ ub p 6 1 = 58 then ndAnswer n src tag p ok
    else ptpFrame n f.length (p.drop (if etype = 0x0800 then ub p 0 1 % 16 * 4 + 8 else 48)) ok)
  else if etype ≠ 0xAEFE ∨ !tagged ∨ !([0, 1, 2, 3].any fun k =>
      decide (portField im n (12 + 2 * k) 2 = vid) && decide (portField im n (12 + 2 * k) 2 ≠ 0xFFFF)) then other 10
  else if 262144 < fifoBytes s n + f.length then ingressDrop n 12 13 s
  else ecpriRun n f.length src (nowU s) p.length p ok

/-- FRAME_RECEIVED (R89): codewords are counted on every port that exists; a port that is not up delivers no frame. -/
def execFrameReceived (port : Nat) (frame : List Byte) (chk : RxCheck) (s : State) : Host.Outcome State Fault Refusal :=
  if portExists s port ∧ s.pwr.ready.getLsbD 3 then
    let s1 := countLink port 4 chk.uncorrectable (countLink port 3 chk.corrected s)
    if (portOf s port).state ≠ 6 then .next s1
    else if !chk.fecOk then .next (raise 24 (det port 1 0 0 (linkCount s1 port 4 % 2 ^ 32)) s1)
    else if !chk.fcsOk then
      let s2 := countLink port 2 1 s1
      .next (raise 25 (det port 0 0 0 (linkCount s2 port 2 % 2 ^ 32)) s2)
    else .next (classify port frame s1)
  else .next s

/-! ### Messages -/

/-- FEC as Table 4-5 reports it. -/
def portFec (im : Image) : Nat := if portMode im = 4 then (if cf im 3 7 1 = 1 then 2 else 3) else 1

/-- `link.status` (R104). -/
def linkStatusBody (_a : Asker) (p : List Byte) (s : State) : Reply :=
  withLength [4] p s <|
  withFields [inRange p 0 1 0 7, isZero p 1 3] s <|
  let n := u p 0 1
  let q := portOf s n
  let ex := portExists s n
  let d := q.delay.getD {}
  ok (leBytes 1 n ++ leBytes 1 (if ex then q.state else 1) ++ leBytes 1 (portMode s.cfg.live) ++
    leBytes 1 (portFec s.cfg.live) ++ leBytes 1 (if ex then q.aligned else 0) ++ zeros 3 ++ leBytes 4 q.upCount ++
    leI 8 (secOf q.changed) ++ leBytes 4 (nsOf q.changed) ++ leBytes 1 (b2n q.delay.isSome) ++ leBytes 1 d.id ++ zeros 2 ++
    leI 8 d.delay ++ leI 8 (secOf d.time) ++ leBytes 4 (nsOf d.time)) s

def execLinkStatus (ring : Nat) (dma : List Byte) (s : State) : Host.Outcome State Fault Refusal :=
  .next (runMessage 0x0C02 ring dma linkStatusBody s)

/-- `link.counters` (R105). -/
def linkCountersBody (_a : Asker) (p : List Byte) (s : State) : Reply :=
  withLength [4] p s <|
  withFields [inRange p 0 1 0 7, inRange p 1 1 0 1, isZero p 2 2] s <|
  let n := u p 0 1
  let s := drainPort n s
  ok (p ++ zeros 4 ++ (List.range 24).flatMap fun k => leBytes 8 (linkCount s n k))
    (if u p 1 1 = 1 then { s with fh := { s.fh with count := tclear s.fh.count (n * 32) (n * 32 + 32) } } else s)

def execLinkCounters (ring : Nat) (dma : List Byte) (s : State) : Host.Outcome State Fault Refusal :=
  .next (runMessage 0x0C03 ring dma linkCountersBody s)

/-! ### PTP over a port (R321) -/

/-- Bytes of a Delay_Req frame with FCS under the port's PTP encapsulation (IEEE 1588: 44 bytes of message). -/
def delayReqBytes (s : State) (n : Nat) : Nat :=
  match portField s.cfg.live n 25 1 with | 3 => 90 | 4 => 110 | 2 => 68 | _ => 64

/-- Offset e and mean path delay of a Sync exchange, in 2^-16 ns (R321). -/
def ptpOffset (s : State) (n : Nat) (t1 t2 t3 t4 : Instant) : Int × Int :=
  let din := i s.tm.settings (48 + 12 * n) 4
  let dout := i s.tm.settings (52 + 12 * n) 4
  let asym := i s.tm.settings (56 + 12 * n) 4
  (rhe (((t2 - t1) - (t4 - t3)) * 1000 + (dout - din - 2 * asym) * 589824) 18000,
    rhe (((t2 - t1) + (t4 - t3)) * 1000 - (din + dout) * 589824) 18000)

/-- The Delay_Req of an exchange (R96, R98), sent at `t3`: its bytes are IEEE 1588's, which the manual does not repeat. -/
def delayReqFrame (s : State) (n : Nat) (t3 : Instant) : EgressFrame :=
  ⟨0, noFlow, .plain (fitBytes 6 (Config.delayReq n)), fitBytes (delayReqBytes s n - 16) ((Config.delayReq n).drop 6), some .other, t3⟩

/-- PTP_SYNC_EXCHANGE: an exchange of the active port completes (R321). Its t2 is the receive timestamp of the Sync, where FRAME_RECEIVED has
brought that, else the command's; its Delay_Req has gone through the port's queue at t3. The exchange is lost where that frame's timestamp
finds the FIFO full, which counts an overrun (R99), and where the command says that firmware did not get it. -/
def execPtpSyncExchange (port : Nat) (t1 t2 t3 t4 : Instant) (tsLost : Bool) (s : State) : Host.Outcome State Fault Refusal :=
  if svSource s = 1 ∧ s.tm.master.port = some port ∧ (u s.tm.settings 3 1).testBit port ∧ portUp s port then
    let s0 := drainPort port s
    let full := decide (64 ≤ (portOf s0 port).txStamps.length)
    let r2 := (portOf s0 port).ptpRx.getD t2
    let s1 := transmit port (delayReqFrame s port (min t3 (nowU s))) (countLink port 22 1 s0)
    let s2 := setPort port { portOf s1 port with ptpRx := none } s1
    if tsLost || full then .next s2
    else
      let (e, d) := ptpOffset s2 port t1 r2 t3 t4
      .next (servoMeasure e { s2 with tm := { s2.tm with meanDelay := d } })
  else .next s

end Sys2Proof.Machine
end

