-- ==== Sys2Proof/Machine/Clocking.lean ====
section
/-! DEFINITION. Oscillators, loops and their fallback (R305 to R315), temperature compensation (R325), `clk.sources` (R326) and
the frequency counter (R331). -/

namespace Sys2Proof.Machine

/-! ### Oscillators -/

def oscOf (s : State) (k : Nat) : Nat := tget 0 s.clk.osc k

def setOsc (k st : Nat) (s : State) : State := { s with clk := { s.clk with osc := tset 0 s.clk.osc k st } }

/-- Mode of oscillator k: 0 absent, 1 crystal, 2 external (Table 13-6). -/
def oscMode (s : State) (k : Nat) : Nat := u s.clk.sources k 1

/-- EV_REF_SWITCH (Table 13-13). -/
def switchEvent (from_ to_ row : Nat) (s : State) : State := raise 145 (det from_ to_ row 0 s.clk.switches) s

/-- What the last comparison, if measured within 60 s, adds to the word's correction at a switch to oscillator k (R311), from ppb to 2^-48:
XTAL_A minus XTAL_B keeps the output where it was on a switch to XTAL_B, and its negative on one to XTAL_A. -/
def comparisonStep (k : Nat) (s : State) : Int :=
  match s.clk.comparison with
  | some (d, r) =>
    if ticksSince r s ≤ 60 * 1474560000 then rhe ((if k = 1 then d else -d) * (2 ^ 48 : Nat)) 1000000000 else 0
  | none => 0

/-- The DPLL's master clock becomes oscillator k (R311). -/
def switchTo (k row : Nat) (s : State) : State :=
  let s1 := setDpllWord { s with clk := { s.clk with
    active := k, switches := (s.clk.switches + 1) % 2 ^ 32, held := s.clk.held + comparisonStep k s } }
  switchEvent s.clk.active k row { s1 with clk := { s1.clk with aQualSince := s1.tm.raw } }

/-- Service on the tiles of a mask resumes at the next class-carrier symbol (R268); at once where no DL carrier is enabled. -/
def resumeTiles (m : BitVec 4) (s : State) : State :=
  if (classCarrier s.cfg.live).isSome then { s with rf := { s.rf with resume := s.rf.resume ||| m } }
  else notePins (endSilence ((List.range 4).filter fun q => m.getLsbD q) false (nowU s) s)

/-- The DPLL's DCO runs from the FRC: the word of the active oscillator is scaled by the ratio that its gross monitor last measured (R312), a
free value where it has not measured yet. -/
def frcWord (s : State) : State :=
  if 2 ≤ s.clk.active then s
  else
    let g := tget 0 s.clk.gross s.clk.active
    if g = 0 then
      let (f, s1) := takeFree s
      { s1 with clk := { s1.clk with word := signed 64 f } }
    else { s with clk := { s.clk with word := rhe (s.clk.word * g) 65536 } }

/-- The DPLL goes onto the FRC bridge (R312). -/
def startBridge (s0 : State) : State :=
  let s := frcWord s0
  let s1 := notePins { s with clk := { s.clk with active := 2 }, rf := { s.rf with bridge := true, bridgeSince := s.tm.raw } }
  stopCaptures (fun _ => true) 4 (if isService s.pwr.mode then silenceTiles [0, 1, 2, 3] false s1 else s1)

/-- The bridge ends: the UL symbols it met are CORRUPT, and TX resumes under R268. -/
def endBridge (s : State) : State :=
  if s.rf.bridge then
    let from_ : Instant := instantAt s.tm s.rf.bridgeSince
    let s1 := markPins (List.range 64) from_ (nowU s) 1 s
    resumeTiles 0xF { s1 with rf := { s1.rf with bridge := false } }
  else s

/-- FRC-only operation (R314): CONV-PLL and SYS-PLL stop, time goes on in coarse mode, the servo reads holdover, of
a cause that Table 13-10 does not name: 0, where it was not in holdover before (DESIGN CHOICE, log 110). -/
def frcOnly (s0 : State) : State :=
  let s := frcWord s0
  let s1 := setServo 3 { s with
    clk := { s.clk with active := 3, plls := s.clk.plls &&& 0x19, dpll := 3 }, rf := { s.rf with bridge := false } }
  let t := if s.tm.servo = 3 then s1.tm else { s1.tm with holdSince := s1.tm.raw, holdCause := 0 }
  protect 6 0 { s1 with tm := { t with fine := false, requal := [] } }

/-- Decision of Table 13-5 when the active oscillator k has tripped. -/
def fallback (k cause : Nat) (offset : Int) (s : State) : State :=
  let o := 1 - k
  let event (active : Nat) (t : State) : State := raise 144 (det k cause active 0 (arg32 offset)) t
  if oscOf s o = 2 then switchTo o 1 (event o s)
  else if oscOf s o = 1 then holdoverEvent 1 1 (event 2 (startBridge s))
  else frcOnly (event 3 s)

/-- One oscillator trips by activity (1) or gross frequency (2). -/
def tripOsc (osc cause : Nat) (offset : Int) (s : State) : State :=
  if osc < 2 ∧ (cause = 1 ∨ cause = 2) ∧ oscOf s osc = 2 then
    let s1 := setOsc osc 3 s
    if s.clk.active = osc then fallback osc cause offset s1
    else raise 144 (det osc cause s.clk.active 0 (arg32 offset)) s1
  else s

/-- REF_MONITOR_TRIP (R308): activity (1), gross frequency (2) or comparison (3). Trips of both oscillators inside one microsecond are taken
in oscillator order (R310). -/
def execRefMonitorTrip (osc cause : Nat) (trip : Trip) (s : State) : Host.Outcome State Fault Refusal :=
  if cause = 3 then
    (if oscOf s 0 = 2 ∧ oscOf s 1 = 2 then
      .next (raise 144 (det osc 3 s.clk.active 0 (arg32 trip.offset))
        { s with clk := { s.clk with comparison := some (trip.offset, s.tm.raw) } })
    else .next s)
  else match trip.other with
    | none => .next (tripOsc osc cause trip.offset s)
    | some (c, d) =>
      if osc = 0 then .next (tripOsc 1 c d (tripOsc 0 cause trip.offset s))
      else .next (tripOsc osc cause trip.offset (tripOsc (1 - osc) c d s))

/-- OSC_QUALIFIED (R307): a counting oscillator qualifies; on the bridge the DPLL switches to it, in FRC-only operation it
becomes the active one. -/
def execOscQualified (osc : Nat) (s : State) : Host.Outcome State Fault Refusal :=
  if osc < 2 ∧ oscOf s osc = 1 then
    let s1 := setOsc osc 2 s
    if s.clk.active = 2 then .next (endBridge (switchTo osc 2 s1))
    else if s.clk.active = 3 then .next (setDpllWord { s1 with clk := { s1.clk with active := osc } })
    else if osc = 0 then .next { s1 with clk := { s1.clk with aQualSince := s1.tm.raw } }
    else .next s1
  else .next s

/-- Nominal frequencies of the default search in Hz (R326): those of an external input, and those a crystal can have. -/
def searchNominals (crystal : Bool) : List Nat :=
  if crystal then [19200000, 25000000, 30720000, 38400000, 50000000, 61440000]
  else [10000000, 19200000, 25000000, 30720000, 38400000, 50000000, 61440000, 100000000, 122880000, 153600000, 245760000]

/-- Try oscillator k in a mode, against the nearest nominal frequency: which one that is depends on the board (log 7). -/
def searchTry (k mode : Nat) (s : State) : State :=
  let (f, s1) := takeFree s
  let l := searchNominals (decide (mode = 1))
  let src := patch (patch s1.clk.sources k (leBytes 1 mode)) (4 + 4 * k) (leBytes 4 (l.getD (f % l.length) 0))
  setOsc k 1 { s1 with clk := { s1.clk with sources := src } }

/-- With no valid clock record the default search of R326 goes on at boot: XTAL_A external, XTAL_A crystal, XTAL_B external,
XTAL_B crystal. -/
def searchOn (osc : Nat) (s : State) : Option State :=
  if s.pwr.mode ≠ .boot ∨ (recordData s 0x0203).isSome then none
  else if oscMode s osc = 2 then some (searchTry osc 1 s)
  else if osc = 0 then some (searchTry 1 2 (setOsc 0 3 s))
  else none

/-- OSC_QUALIFY_TIMEOUT (R307): the oscillator is failed; on the bridge FRC-only operation follows (row 3), and a transition
that no oscillator is left for is refused with reason 10. -/
def execOscQualifyTimeout (osc : Nat) (s : State) : Host.Outcome State Fault Refusal :=
  if osc < 2 ∧ oscOf s osc = 1 then
    match searchOn osc s with
    | some s1 => .next s1
    | none =>
      let s1 := setOsc osc 3 s
      if s.clk.active = 2 then .next (frcOnly (endBridge s1))
      else if s.clk.active = 3 ∧ s.pwr.trans.isSome ∧ oscOf s (1 - osc) ≠ 1 then
        .next (if wakesWithoutRf s1 then wakeWithoutRf s1 else refuseTrans 10 (name8 (if osc = 0 then "XTAL_A" else "XTAL_B")) s1)
      else .next s1
  else .next s

/-- OSC_RETRY: every second a failed oscillator starts again while the other is active, or in FRC-only operation. -/
def execOscRetry (s : State) : Host.Outcome State Fault Refusal :=
  .next ([0, 1].foldl (fun t k =>
    if oscOf s k = 3 ∧ oscMode s k ≠ 0 ∧ (s.clk.active = 1 - k ∨ s.clk.active = 3) then setOsc k 1 t else t) s)

/-- XTAL_A_REVERT: row 4 of Table 13-5. -/
def execXtalARevert (s : State) : Host.Outcome State Fault Refusal :=
  if s.clk.active = 1 ∧ oscOf s 0 = 2 ∧ u s.clk.sources 2 1 = 1 then
    .next (switchTo 0 4 (advanceSince s.clk.aQualSince 14745600000 s))
  else .next s

/-- MONITOR_WINDOW_END: a window ends without a trip; monitors 0 and 1 are the gross-frequency ratios of XTAL_A and XTAL_B, 2
the comparison in ppb. -/
def execMonitorWindowEnd (monitor : Nat) (value : Int) (s : State) : Host.Outcome State Fault Refusal :=
  if monitor < 2 then
    (if oscMode s monitor ≠ 0 then .next { s with clk := { s.clk with gross := tset 0 s.clk.gross monitor value } } else .next s)
  else if monitor = 2 ∧ oscOf s 0 = 2 ∧ oscOf s 1 = 2 then
    .next { s with clk := { s.clk with comparison := some (value, s.tm.raw) } }
  else .next s

/-! ### Loops (R306) -/

/-- CONV-PLL and SYS-PLL may run: an oscillator is active and the mode, or the transition in flight, runs them. -/
def pllsRun (s : State) : Bool :=
  let stops (m : Mode) : Bool := decide (m = .deepSleep) || decide (m = .thermalLatch) || decide (m = .reset)
  decide (s.clk.active ≠ 3) && (!stops s.pwr.mode || match s.pwr.trans with | some t => !stops t.target | none => false)

/-- PLL_UNLOCK: 0 DPLL, 1 CONV-PLL, 2 SYS-PLL, 3 and 4 serdes PLL [0] and [1]. -/
def execPllUnlock (pll : Nat) (s : State) : Host.Outcome State Fault Refusal :=
  if pll < 5 ∧ s.clk.plls.getLsbD pll then
    let n := (tget 0 s.clk.unlocks pll + 1) % 2 ^ 32
    let s1 := raise 148 (det pll 0 0 0 n) { s with clk := { s.clk with
      plls := s.clk.plls &&& ~~~BitVec.twoPow 5 pll, unlocks := tset 0 s.clk.unlocks pll n } }
    match pll with
    | 0 => .next (dpllHold s1)
    | 1 => .next (protect 4 0 { s1 with tm := { s1.tm with fine := false } })
    | 2 => .next (protect 4 0 s1)
    | k => .next (halfDown (k - 3) s1)
  else .next s

/-- PLL_QUALIFIED: the loop qualifies under Table 13-2; time is fine while CONV-PLL is qualified (R316). -/
def execPllQualified (pll : Nat) (s : State) : Host.Outcome State Fault Refusal :=
  let may := if pll = 0 then decide (s.pwr.mode ≠ .reset) else if pll < 3 then pllsRun s else s.pwr.ready.getLsbD 3
  if pll < 5 ∧ may then
    let s1 := { s with clk := { s.clk with plls := s.clk.plls ||| BitVec.twoPow 5 pll } }
    match pll with
    | 0 =>
      let input := u s.clk.sources 3 1
      .next { s1 with clk := { s1.clk with dpll :=
        if input = 0 then 0 else if (input = 1 ∧ !s.clk.synceOk) ∨ (input = 2 ∧ s.tm.servo = 3) then 3 else 2 } }
    | 1 => .next { s1 with tm := { s1.tm with fine := true } }
    | _ => .next s1
  else .next s

/-- PLL_QUALIFY_TIMEOUT: reason 11 for the transition or wake that waits for CONV-PLL or SYS-PLL. -/
def execPllQualifyTimeout (pll : Nat) (s : State) : Host.Outcome State Fault Refusal :=
  if (pll = 1 ∨ pll = 2) ∧ !s.clk.plls.getLsbD pll ∧ s.pwr.trans.isSome then
    .next (refuseTrans 11 (name8 (if pll = 1 then "CONV-PLL" else "SYS-PLL")) s)
  else .next s

/-! ### SyncE -/

/-- ESMC_TIMEOUT: no ESMC frame for 5 s counts as QL-FAILED (R315). -/
def execEsmcTimeout (s : State) : Host.Outcome State Fault Refusal :=
  if u s.clk.sources 3 1 = 1 ∧ s.clk.ql ≠ 15 then
    let s1 := advanceSince s.clk.lastEsmc 7372800000 s
    .next (synceTrip 6 0 { s1 with clk := { s1.clk with ql := 15 } })
  else .next s

/-- SYNCE_MONITOR_TRIP: the recovered clock lies outside the SyncE window over 1 s (R308, R315). -/
def execSynceMonitorTrip (offsetPpb : Int) (s : State) : Host.Outcome State Fault Refusal :=
  if u s.clk.sources 3 1 = 1 then .next (synceTrip 4 offsetPpb s) else .next s

/-- SYNCE_REQUALIFY: 10 s without any disqualifying cause; the DPLL leaves holdover and pulls in (R313, R315). -/
def execSynceRequalify (s : State) : Host.Outcome State Fault Refusal :=
  if u s.clk.sources 3 1 = 1 ∧ !s.clk.synceOk ∧ qlGood s s.clk.ql ∧ portUp s (u s.clk.sources 16 1) then
    let s1 := advanceSince s.clk.synceSince 14745600000 s
    .next { s1 with clk := { s1.clk with synceOk := true, dpll := 1 } }
  else .next s

/-! ### Compensation (R325) -/

/-- COMPENSATION_UPDATE: 100 ms of the crystal correction, slewing at no more than 1 ppb/s (28,147 of 2^-48 in 100 ms) toward
the curve's value, which the manual does not give: a free value. Zero where it is not enabled and without a valid curve. -/
def execCompensationUpdate (s : State) : Host.Outcome State Fault Refusal :=
  if (u s.clk.sources 19 1).testBit 0 = false ∨ (recordData s 0x0103).isNone then .next (setDpllWord { s with clk := { s.clk with comp := 0 } })
  else if s.clk.dpll = 0 ∨ s.clk.dpll = 3 then
    let (f, s1) := takeFree s
    let goal := signed 48 f
    let c := clampI (s.clk.comp - 28147) (s.clk.comp + 28147) goal
    .next (setDpllWord { s1 with clk := { s1.clk with comp := c, compCount := s1.clk.compCount + 1 } })
  else .next s

/-! ### `clk.sources` (R326) -/

/-- Field checks of Table 13-6. -/
def clkChecks (p : List Byte) : List (Nat × Bool) :=
  let nominal (k o : Nat) : Nat × Bool :=
    (o, decide (10000000 ≤ u p o 4 ∧ u p o 4 ≤ 245760000) &&
      (!decide (u p k 1 = 1) || decide (19200000 ≤ u p o 4 ∧ u p o 4 ≤ 61440000)))
  [inRange p 0 1 0 2, inRange p 1 1 0 2, inRange p 2 1 0 1, inRange p 3 1 0 2, nominal 0 4, nominal 1 8, inRange p 12 2 1 1000,
   inRange p 14 2 10 1000, inRange p 16 1 0 7, (17, decide (u p 17 1 ∈ [2, 4, 8, 11])), inRange p 18 1 1 3, below p 19 1 3,
   isZero p 20 12]

/-- Oscillator k keeps its mode and nominal frequency. -/
def oscSame (a b : List Byte) (k : Nat) : Bool := decide (u a k 1 = u b k 1) && decide (u a (4 + 4 * k) 4 = u b (4 + 4 * k) 4)

/-- A change of oscillator k by a write: an inactive one starts its qualification again or is absent; the active one is left
for the other where it is disabled. -/
def oscWrite (p : List Byte) (k : Nat) (s : State) : State :=
  if oscSame s.clk.sources p k then s
  else if s.clk.active = k then
    (if u p k 1 = 0 then setOsc k 0 (switchTo (1 - k) 1 s) else s)
  else setOsc k (if u p k 1 = 0 then 0 else 1) s

/-- A change of DPLL input acts as an input loss followed by a new input (R326, R313): a new SyncE port has brought no code yet, and its 5 s run
from now (R315; DEDUCED, log 116). -/
def inputWrite (p : List Byte) (s : State) : State :=
  let old := u s.clk.sources 3 1
  let new := u p 3 1
  if old = new ∧ (new ≠ 1 ∨ u s.clk.sources 16 1 = u p 16 1) then s
  else
    let s1 := if old = 0 then s else holdoverEvent 1 1 (dpllHold s)
    { s1 with clk := { s1.clk with
      synceOk := false, synceSince := s1.tm.raw, dpll := if new = 0 then 0 else if new = 2 then 1 else s1.clk.dpll,
      ql := if new = 1 then 15 else s1.clk.ql, lastEsmc := if new = 1 then s1.tm.raw else s1.clk.lastEsmc } }

/-- A write of the minimum QL takes effect at once on the code last received (R315, R326): one that no longer passes disqualifies the input,
and one that passes again ends that cause. -/
def minimumQl (before s : State) : State :=
  if u s.clk.sources 3 1 ≠ 1 then s
  else if !qlGood s s.clk.ql then (if s.clk.synceOk then synceTrip 5 0 s else s)
  else if !qlGood before s.clk.ql then { s with clk := { s.clk with synceSince := s.tm.raw } } else s

/-- The 48 bytes of the answer: settings and Table 13-7. -/
def clkReport (s : State) : List Byte :=
  s.clk.sources ++ leBytes 1 (oscOf s 0) ++ leBytes 1 (oscOf s 1) ++ leBytes 1 s.clk.active ++ leBytes 1 s.clk.dpll ++
    leBytes 1 (s.clk.plls.toNat / 2) ++ leBytes 1 s.clk.ql ++ zeros 2 ++
    (match s.clk.comparison with
    | some (d, _) => leBytes 4 (arg32 d)
    | none => leBytes 4 0x80000000) ++ leBytes 4 s.clk.switches

/-- `clk.sources` (R326, R310). A write that disables the active oscillator leaves the device only to one that is qualified and that the
write itself leaves so. One that leaves the FRC bridge with no oscillator counting ends it as row 3 of Table 13-5 does. -/
def clkSourcesBody (_a : Asker) (p : List Byte) (s : State) : Reply :=
  withLength [32, 0] p s <|
  if p = [] then ok (clkReport s) s
  else withFields (clkChecks p) s <|
    let a := s.clk.active
    if a < 2 ∧ !oscSame s.clk.sources p a ∧ offsetBarred s.pwr.mode then err stState 0 s
    else if a < 2 ∧ u p a 1 = 0 ∧ u s.clk.sources a 1 ≠ 0 ∧ !(decide (oscOf s (1 - a) = 2) && oscSame s.clk.sources p (1 - a)) then err stState 0 s
    else
      let s0 := inputWrite p (oscWrite p 1 (oscWrite p 0 s))
      let s1 := if s0.clk.active = 2 ∧ oscOf s0 0 ≠ 1 ∧ oscOf s0 1 ≠ 1 then frcOnly (endBridge s0) else s0
      let s2 := minimumQl s { s1 with clk := { s1.clk with sources := p } }
      ok (clkReport s2) s2

def execClkSources (ring : Nat) (dma : List Byte) (s : State) : Host.Outcome State Fault Refusal :=
  .next (runMessage 0x0705 ring dma clkSourcesBody s)

/-! ### `clk.measure` (R331) -/

/-- Answer of read and start. -/
def measureReport (s : State) : List Byte :=
  leBytes 1 s.clk.mState ++ [0] ++ leBytes 6 s.clk.mRatio ++ leBytes 4 s.clk.mElapsed ++ zeros 4

/-- `clk.measure`: taps and gate are checked for a start only (DESIGN CHOICE, log 22). How many reference cycles have elapsed while a
measurement runs is a matter of time: a free value below the gate. -/
def clkMeasureBody (_a : Asker) (p : List Byte) (s : State) : Reply :=
  withLength [8] p s <|
  let start := decide (u p 0 1 = 1)
  withFields [inRange p 0 1 0 2, (1, !start || decide (u p 1 1 ≤ 31)), (2, !start || decide (u p 2 1 ≤ 31)),
    (2, !start || decide (u p 1 1 ≠ u p 2 1)), (3, !start || decide (10 ≤ u p 3 1 ∧ u p 3 1 ≤ 30)), isZero p 4 4] s <|
  match u p 0 1 with
  | 0 => ok [] { s with clk := { s.clk with mState := 0 } }
  | 1 =>
    if s.clk.mState = 1 then err stBusy 0 s
    else
      let s1 := { s with clk := { s.clk with mState := 1, mTap := u p 1 1, mRef := u p 2 1, mGate := u p 3 1, mRatio := 0, mElapsed := 0 } }
      ok (measureReport s1) s1
  | _ =>
    if s.clk.mState = 1 then
      let (f, s1) := takeFree s
      let s2 := { s1 with clk := { s1.clk with mElapsed := f % 2 ^ s.clk.mGate } }
      ok (measureReport s2) s2
    else ok (measureReport s) s

def execClkMeasure (ring : Nat) (dma : List Byte) (s : State) : Host.Outcome State Fault Refusal :=
  .next (runMessage 0x0704 ring dma clkMeasureBody s)

/-- CLK_MEASURE_DONE: `edges` measured edges over the gate, or no reference edge for 2 s, after a number of reference cycles
that is a free value below the gate. A ratio of 2^16 or more does not fit the 48 bits: its reported value is a free value. -/
def execClkMeasureDone (edges : Nat) (refEdge : Bool) (s : State) : Host.Outcome State Fault Refusal :=
  if s.clk.mState = 1 then
    if !refEdge then
      let (f, s1) := takeFree s
      .next { s1 with clk := { s1.clk with mState := 3, mElapsed := f % 2 ^ s.clk.mGate } }
    else
      let ratio := (rhe ((edges * 2 ^ 32 : Nat) : Int) (2 ^ s.clk.mGate)).toNat
      if 2 ^ 48 ≤ ratio then
        let (f, s1) := takeFree s
        .next { s1 with clk := { s1.clk with mState := 4, mRatio := f % 2 ^ 48, mElapsed := 2 ^ s.clk.mGate } }
      else .next { s with clk := { s.clk with mState := 2, mRatio := ratio, mElapsed := 2 ^ s.clk.mGate } }
  else .next s

end Sys2Proof.Machine
end

