-- ==== Sys2Proof/Machine/Linear.lean ====
section
/-! DEFINITION. Predistortion messages and rows: banks and their commits, adaptation, capture plans and captures (R217 to
R229). -/

namespace Sys2Proof.Machine

/-! ### Banks -/

/-- Path and class of record r of `dpd.bank_write`, and the key they have where they are in range. -/
def bankRecName (p : List Byte) (r : Nat) : Nat × Nat := (u p (16 + 392 * r) 1, u p (16 + 392 * r + 1) 1)
def bankRecKey (p : List Byte) (r : Nat) : Nat := bankKey (bankRecName p r).1 (bankRecName p r).2

/-- Field checks of record r (Table 9-4). -/
def bankRecChecks (p : List Byte) (r : Nat) : List (Nat × Bool) :=
  let b := 16 + 392 * r
  let dup := (List.range r).any fun q => decide (bankRecName p q = bankRecName p r)
  [(b, decide (u p b 1 ≤ 63) && !dup), inRange p (b + 1) 1 0 15, isZero p (b + 2) 6] ++
    (List.range 96).map fun k => inRangeI p (b + 8 + 4 * k) 4 (-131072) 131071

/-- Coefficients of record r. -/
def bankRec (p : List Byte) (r : Nat) : Bank :=
  bankOf ((List.range 48).map fun k => (i p (16 + 392 * r + 8 + 8 * k) 4, i p (16 + 392 * r + 12 + 8 * k) 4))

/-- Modes in which shadow banks may be written. -/
def bankMode (m : Mode) : Bool := isService m || decide (m = .standby)

/-- `dpd.bank_write` (R221). -/
def bankWriteBody (a : Asker) (p : List Byte) (s : State) : Reply :=
  let n := u p 0 2
  let target := u p 2 1
  let commit := u p 3 1
  let keys := (List.range n).map (bankRecKey p)
  if p.length < 16 ∨ p.length ≠ 16 + 392 * n then err stBadLength 8 s
  else withFields ([inRange p 0 2 0 41, inRange p 2 1 0 1, (3, decide (commit = 0 ∨ (commit = 1 ∧ target = 0))), isZero p 4 12] ++
      (List.range n).flatMap (bankRecChecks p)) s <|
    let running := keys.any fun k => decide ((tget {} s.lin.adapt k).state = 1)
    if target = 0 ∧ (!bankMode s.pwr.mode ∨ running) then err stState 0 s
    else match (if target = 1 then s.cfg.armed.map fun e => some e.1 else some none) with
    | none => err stState 0 s
    | some im =>
      let changed := match im with | some new => basisChanged s.cfg.live new | none => []
      match (List.range n).find? fun r => decide (target = 1) && decide (u p (16 + 392 * r) 1 ∉ changed) with
      | some r => err stMismatch (32 + 16 + 392 * r) s
      | none =>
        if target = 0 ∧ keys.any (frozen s) then err stBusy 0 s
        else onDomain 8 a s fun s =>
          let s1 := (List.range n).foldl (fun t r =>
            let lin := if target = 0 then { t.lin with shadow := tset [] t.lin.shadow (bankRecKey p r) (bankRec p r) }
              else { t.lin with armedBanks := tset none t.lin.armedBanks (bankRecKey p r) (some (bankRec p r)) }
            { t with lin := lin }) s
          if commit = 1 ∧ n ≠ 0 then
            let (_, s2) := requestCommit keys true (nowU s) s1
            let t := nextClassSlot (imageAt s (nowU s + 50 * (usU : Int))) (nowU s + 50 * (usU : Int))
            let nm := className (imageAt s t) t
            ok (leBytes 2 n ++ zeros 6 ++ leBytes 8 nm.frame ++ leBytes 1 nm.subframe ++ leBytes 1 nm.slot ++ zeros 6) s2
          else ok (leBytes 2 n ++ zeros 22) s1

def execDpdBankWrite (ring : Nat) (dma : List Byte) (s : State) : Host.Outcome State Fault Refusal :=
  .next (runMessage 0x0402 ring dma bankWriteBody s)

/-- BANK_COMMIT: the pending commit of the earliest boundary takes effect at it (R219). -/
def execBankCommit (s : State) : Host.Outcome State Fault Refusal :=
  match firstCommit s.lin.commits with
  | none => .next s
  | some c => .next (runCommit c (advanceTo c.boundary s))

/-- `dpd.bank_persist` (R222), which reaches the NVM (R336). -/
def bankPersistBody (a : Asker) (p : List Byte) (s : State) : Reply :=
  withLength [4] p s <|
  withFields [isZero p 0 4] s <|
  if longRunning .bankPersist s ∨ recordBusy 0x0401 s then err stBusy 0 s else onDomain 2 a s (accepted .bankPersist)

def execDpdBankPersist (ring : Nat) (dma : List Byte) (s : State) : Host.Outcome State Fault Refusal :=
  .next (runMessage 0x0404 ring dma bankPersistBody s)

/-- Payload of record 0x0401 (Table 16-3). -/
def bankRecordBytes (s : State) : List Byte :=
  imgBytes s.cfg.live 7 0 3136 ++
    (List.range 1024).flatMap fun k => (tgetList (0, 0) (tget [] s.lin.live k) 0 48).flatMap coef6Bytes

/-! ### Adaptation -/

/-- Pairs that two masks name. -/
def maskPairs (pm cm : Nat) : List Nat :=
  ((List.range 64).filter fun p => pm.testBit p).flatMap fun p => ((List.range 16).filter fun c => cm.testBit c).map fun c => bankKey p c

/-- Read response of one pair (Table 9-10). -/
def adaptReport (s : State) (key : Nat) : List Byte :=
  let a := tget {} s.lin.adapt key
  let nm := match a.lastAir with
    | some t => className (imageAt s t) t
    | none => ⟨0, 0, 0, 0, 0⟩
  leBytes 1 (key / 16) ++ leBytes 1 (key % 16) ++ leBytes 1 a.state ++ leBytes 1 (if a.state = 2 then a.cause else 0) ++
    leBytes 4 a.commits ++ leBytes 8 nm.frame ++ leBytes 1 nm.subframe ++ leBytes 1 nm.slot ++ zeros 6 ++
    bankBytes (tget [] s.lin.live key)

/-- `dpd.adapt_control` (R227); a read reaches the banks of DPD (R336). -/
def adaptControlBody (asker : Asker) (p : List Byte) (s : State) : Reply :=
  let act := u p 0 1
  let keys := maskPairs (u p 8 8) (u p 4 2)
  withLength [16] p s <|
  withFields [inRange p 0 1 0 2, inRange p 1 1 1 255,
    (2, decide (1024 ≤ u p 2 2 ∧ u p 2 2 ≤ 16384 ∧ u p 2 2 % 1024 = 0)), inRange p 6 1 0 30, isZero p 7 1] s <|
  if act = 1 ∧ !isOperate s.pwr.mode then err stState 0 s
  else if act = 2 then
    (match keys with
    | [] => ok [] s
    | k :: _ => onDomain 8 asker s fun s => ok (adaptReport s k) s)
  else
    ok [] (keys.foldl (fun t k =>
      let a := tget {} t.lin.adapt k
      let a1 : Adapt := if act = 1 then { a with state := 1, cause := 0, damping := u p 1 1, length := u p 2 2, atten := u p 6 1,
                                                 paused := false, retried := false, missedRun := 0 }
        else { a with state := 0, cause := 0, paused := false, retried := false, inputs := [] }
      { t with lin := { t.lin with adapt := tset {} t.lin.adapt k a1 } }) s)

def execDpdAdaptControl (ring : Nat) (dma : List Byte) (s : State) : Host.Outcome State Fault Refusal :=
  .next (runMessage 0x0403 ring dma adaptControlBody s)

/-- Core that adapts a path (R254). -/
def adaptCore (path : Nat) : Nat := path / 8

/-- Step k between the samples of a capture that a solution takes (R254). -/
def solutionStep (length : Nat) : Nat := ceilN length 4096

/-- Every k-th sample of a capture, DPD input and ORx code, a code that failed parity being zero (R16, R254): at most 4,096. -/
def solutionInputs (c : Capturing) (input : List IQ) (run : OrxRun) : List (IQ × IQ) :=
  let k := solutionStep c.length
  (List.range (ceilN c.length k)).map fun n => (input.getD (n * k) (0, 0), if n * k ∈ run.parity then (0, 0) else run.codes.getD (n * k) (0, 0))

/-- A bank after a step of `damping` / 256 from its coefficients to the solved ones (R227). The update is what the solution differs by from
the live bank (DESIGN CHOICE, log 41). -/
def dampedBank (damping : Nat) (live : Bank) (coefs : List IQ) : Bank :=
  bankOf ((List.range 48).map fun k =>
    let old := tget (0, 0) live k
    let new := coefs.getD k (0, 0)
    let d := rheIQ ((new.1 - old.1) * (damping : Int), (new.2 - old.2) * (damping : Int)) 256
    (old.1 + d.1, old.2 + d.2))

/-- ADAPTATION_SOLUTION (R228, R229): `coefs` is what the vendor kernel solved from the pair's `inputs`, with `retried` pre-scaled by 2^-2,
and `ovf` its overflowed accumulators. The kernel is firmware, which the manual does not give (log 27, 41). It is poisoned where the command says so, or where the core's run ended so (R239) or by a trap (R244); a poisoned
result also raises EV_ACC_OVF (R255), a trap has raised its own event. A frozen shadow makes adaptation wait (R219). -/
def execAdaptationSolution (path cls : Nat) (poisoned : Bool) (ovf : Nat) (coefs : List IQ) (s : State) :
    Host.Outcome State Fault Refusal :=
  let key := bankKey path cls
  let a := tget {} s.lin.adapt key
  let k := tget {} s.core (adaptCore path)
  if path < 64 ∧ cls < 16 ∧ a.state = 1 ∧ !a.paused ∧ a.inputs ≠ [] ∧ bureauRuns s then
    let s := { s with core := tset {} s.core (adaptCore path) { k with vendorEnd := none } }
    if poisoned || k.vendorEnd.isSome then
      let s1 := statAdd 0x18 path 5 1 s
      let n := match k.vendorEnd with | some (_, o) => ovf ||| o.toNat | none => ovf
      let trapped := match k.vendorEnd with | some (t, _) => t && !poisoned | none => false
      let s2 := if trapped then s1 else raise 98 (det (adaptCore path) 0xFF n 0 (path % 256 + 256 * cls)) s1
      if a.retried then .next (adaptFault key 1 s2)
      else .next { s2 with lin := { s2.lin with adapt := tset {} s2.lin.adapt key { a with retried := true } } }
    else if coefs.any fun c => decide (c.1 < -131072 ∨ 131071 < c.1 ∨ c.2 < -131072 ∨ 131071 < c.2) then .next (adaptFault key 2 s)
    else if frozen s key then .next s
    else
      let lin := { s.lin with shadow := tset [] s.lin.shadow key (dampedBank a.damping (tget [] s.lin.live key) coefs),
                              adapt := tset {} s.lin.adapt key { a with retried := false, inputs := [] } }
      .next (requestCommit [key] false (nowU s) { s with lin := lin }).2
  else .next s

/-! ### Capture plans -/

/-- Field checks of plan entry e (Table 9-7); the slot range is that of the class carrier. -/
def planChecks (im : Image) (p : List Byte) (e : Nat) : List (Nat × Bool) :=
  let b := 16 + 48 * e
  let mu := classMu im
  [inRange p (b + 8) 2 0 1024, inRange p (b + 10) 1 0 9, inRange p (b + 11) 1 0 (2 ^ mu - 1), inRange p (b + 12) 1 0 13,
   (b + 13, decide (u p (b + 13) 1 ≤ 15 ∨ u p (b + 13) 1 = 0xFF)), inRange p (b + 14) 1 0 63, inRange p (b + 15) 1 0 30,
   inRange p (b + 16) 4 0 1474559, inRange p (b + 20) 4 0 65536,
   (b + 24, decide (u p (b + 24) 4 ≤ 1048512 ∧ u p (b + 24) 4 % 64 = 0 ∧ u p (b + 24) 4 + 64 + 8 * u p (b + 20) 4 ≤ 1048576)),
   isZero p (b + 28) 20]

/-- Plan entry e of a request. -/
def planEntry (p : List Byte) (e : Nat) : PlanEntry :=
  let b := 16 + 48 * e
  ⟨u p b 8, u p (b + 8) 2, u p (b + 10) 1, u p (b + 11) 1, u p (b + 12) 1, u p (b + 13) 1, u p (b + 14) 1, u p (b + 15) 1,
    u p (b + 16) 4, u p (b + 20) 4, u p (b + 24) 4⟩

/-- Two regions of the host part overlap. -/
def regionsMeet (a b : PlanEntry) : Bool :=
  decide (a.region < b.region + 64 + 8 * b.length) && decide (b.region < a.region + 64 + 8 * a.length)

/-- `capture.plan` (R225). -/
def capturePlanBody (_a : Asker) (p : List Byte) (s : State) : Reply :=
  let n := u p 0 2
  if p.length < 16 ∨ p.length ≠ 16 + 48 * n then err stBadLength 8 s
  else withFields ([inRange p 0 2 0 64, isZero p 2 14] ++ (List.range n).flatMap (planChecks s.cfg.live p)) s <|
    match (List.range n).find? fun e => (List.range e).any fun d => regionsMeet (planEntry p d) (planEntry p e) with
    | some e => err stMismatch (32 + 16 + 48 * e + 24) s
    | none => ok [] { s with lin := { s.lin with
        plan := (List.range n).map (planEntry p), planFrom := nowU s + (msU : Int), taken := [] } }

def execCapturePlan (ring : Nat) (dma : List Byte) (s : State) : Host.Outcome State Fault Refusal :=
  .next (runMessage 0x0406 ring dma capturePlanBody s)

/-! ### Captures -/

/-- A lower entry of the plan needs the ORx in an interval that overlaps (R226); a capture of length 0 needs none, and a class filter of
the lower entry is not consulted (DESIGN CHOICE, log 19). -/
def lowerConflict (s : State) (im : Image) (n orx : Nat) (start : Instant) (len frame : Nat) : Bool :=
  decide (0 < len) && (s.lin.plan.take n).any fun e => decide (orxOf e.path = orx) && decide (0 < e.length) &&
    [frame - 1, frame, frame + 1].any fun f =>
      let t := occurrenceStart im e f
      occursIn e f && decide (s.lin.planFrom ≤ t) && decide (t < start + tk len) && decide (start < t + tk e.length)

/-- Remainder of the ORx's whole-tick attribution (R224): d(p) and the calibrated loop delay of the ORx and selector input, which the
factory record holds, in 2^-8 tick. -/
def alignFraction (s : State) (c : Capturing) : Nat :=
  let loop := match recordData s 0x0101 with | some p => Config.factoryDelay 2 c.path p | none => 0
  (pathDelay s (imageAt s c.start) false c.path + (rhe ((loop * 37748736 : Nat) : Int) 100000000).toNat) % 256

/-- ORx word of a 12-bit code and a selector input (R14). -/
def orxWord (sel : Nat) (code : IQ) : Nat := wrapN 12 code.1 * 2 ^ 20 + wrapN 12 code.2 * 2 ^ 8 + sel % 8

/-- Bytes of the samples of a capture (Table 9-6): DPD input and ORx word; a word that failed parity is zero (R16). -/
def capBytes (c : Capturing) (input : List IQ) (run : OrxRun) : List Byte :=
  (List.range c.length).flatMap fun k =>
    let x := input.getD k (0, 0)
    leBytes 2 (wrapN 16 x.1) ++ leBytes 2 (wrapN 16 x.2) ++
      leBytes 4 (if k ∈ run.parity then 0 else orxWord (selOf c.path) (run.codes.getD k (0, 0)))

/-- The last sample of a capture has been written (R223): samples, header with CRC, state 2; leases returned, and the ORx turned to its
next capture (R261). -/
def completeCapture (c : Capturing) (run : OrxRun) (s : State) : State :=
  let input := capInput s c (tickOf c.start + c.length)
  let data := capBytes c input run
  let h := capHeader c 2 0 (alignFraction s c)
  let s1 := (run.parity.filter fun k => decide (k < c.length)).foldl (fun t _ => orxFail (c.orx / 2) t)
    { s with lin := { s.lin with caps := s.lin.caps.filter fun d => decide (d ≠ c) } }
  let s2 := capWrite c.region (h ++ leBytes 4 (crc32c (h ++ data)) ++ data) s1
  let s3 := selectNext c.orx (c.start + tk c.length) (releaseCaptureLeases c.orx (statAdd 0x19 c.orx 0 1 s2))
  match c.src with
  | .host _ => s3
  | .adapt p k =>
    let a := tget {} s3.lin.adapt (bankKey p k)
    { s3 with lin := { s3.lin with
      adapt := tset {} s3.lin.adapt (bankKey p k) { a with missedRun := 0, inputs := solutionInputs c input run } } }

/-- A capture whose class filter does not match is skipped (R226). -/
def skipCapture (c : Capturing) (s : State) : State :=
  statAdd 0x19 c.orx 2 1 (capWrite c.region (capHeader c 4 0 0) s)

/-- A capture starts: the leases of R223, selector and attenuation, record state 1. -/
def startCapture (c : Capturing) (s : State) : State :=
  let c1 := match c.src with | .host _ => { c with taken := (c.taken + 1) % 2 ^ 32 } | .adapt _ _ => c
  let taken := match c.src with | .host e => tset 0 s.lin.taken e c1.taken | .adapt _ _ => s.lin.taken
  let s1 := requestLease (3 + c.orx) 1 (requestLease 2 1 { s with lin := { s.lin with
    taken := taken, caps := s.lin.caps ++ [c1], orx := tset 0 s.lin.orx c.orx (selOf c.path * 32 + c.atten) } })
  let s2 := capWrite c.region (capHeader c1 1 0 0) s1
  if c.length = 0 then completeCapture c1 ⟨[], []⟩ s2 else s2

/-- Decide an occurrence (R226, Table 9-8) and start, skip or miss it. -/
def decideCapture (c : Capturing) (filter : Nat) (conflict : Bool) (s : State) : State :=
  if !isService s.pwr.mode then missCapture c 5 s
  else if (classCarrier (imageAt s c.start)).isNone then missCapture c 3 s
  else if filter ≠ 0xFF ∧ filter ≠ c.cls then skipCapture c s
  else if !s.pwr.ready.getLsbD (12 + c.orx / 2) || txHeld s (c.orx / 2) then missCapture c 4 s
  else if conflict then missCapture c 1 s
  else startCapture c s

/-- CAPTURE_OCCURRENCE (R226): the first sample's air time comes. `tickOffset` is that of the plan entry, or firmware's choice
for an adaptation capture, whose region in the adaptation part is a free value. -/
def execCaptureOccurrence (src : CaptureSrc) (sym : SymName) (tickOffset : Nat) (s : State) : Host.Outcome State Fault Refusal :=
  let im := classImage s sym
  let start := airOf (classMu im) sym + tk tickOffset
  let first := className (imageAt s start) start
  let tick := (tickOf start - tickOf (airOf (classMu (imageAt s start)) first)).toNat
  match src with
  | .host n =>
    (match s.lin.plan[n]? with
    | none => .next s
    | some e =>
      if occursIn e sym.frame && decide (e.subframe = sym.subframe) && decide (e.slot = sym.slot) &&
          decide (e.symbol = sym.symbol) && decide (e.tick = tickOffset) && decide (s.lin.planFrom ≤ start) then
        let s1 := advanceTo start s
        let c : Capturing := { src := src, orx := orxOf e.path, path := e.path, start := start, length := e.length,
                               cls := classAt s1 start, atten := e.atten, sym := first, tick := tick, region := 0x300000 + e.region,
                               taken := takenOf src s1 }
        let meets (d : Capturing) : Bool := decide (d.orx = c.orx) && decide (0 < e.length) && decide (start < d.start + tk d.length)
        let s2 := stopCaptures (fun d => meets d && decide (srcEntry d.src = 0xFF)) 1 s1
        let held := s2.lin.caps.any meets
        .next (decideCapture c e.clsFilter (held || lowerConflict s2 im n c.orx start e.length sym.frame) s2)
      else .next s)
  | .adapt p k =>
    let a := tget {} s.lin.adapt (bankKey p k)
    if p < 64 ∧ k < 16 ∧ a.state = 1 ∧ !a.paused ∧ s.lin.caps.all (fun d => decide (d.src ≠ src)) then
      let (f, s0) := takeFree (advanceTo start s)
      let region := f % ((0x300000 - 64 - 8 * a.length) / 64 + 1) * 64
      let c : Capturing := { src := src, orx := orxOf p, path := p, start := start, length := a.length, cls := classAt s0 start,
                             atten := a.atten, sym := first, tick := tick, region := region, taken := 0 }
      let held := s0.lin.caps.any fun d => decide (d.orx = c.orx) && decide (start < d.start + tk d.length)
      .next (decideCapture c k (held || lowerConflict s0 im 64 c.orx start a.length sym.frame) s0)
    else .next s

/-- CAPTURE_COMPLETE (R223): the capture's interval has ended; `run` is what its ORx gave. -/
def execCaptureComplete (src : CaptureSrc) (run : OrxRun) (s : State) : Host.Outcome State Fault Refusal :=
  match s.lin.caps.find? fun c => decide (c.src = src) with
  | none => .next s
  | some c => .next (completeCapture c run (advanceTo (c.start + tk c.length) s))

end Sys2Proof.Machine
end

