-- ==== Sys2Proof/Machine/Nvm.lean ====
section
/-! DEFINITION. Record messages (R378 to R380), the steps in which records and the patch region are written (R370, R425), and the two
persists (R195, R222). -/

namespace Sys2Proof.Machine

/-! ### Record messages -/

/-- Bytes of a stored copy from an offset, zero beyond its length. -/
def copyBytes (c : NvmCopy) (o n : Nat) : List Byte := fitBytes n ((c.data.take c.length).drop o)

/-- `nvm.read` (R379). -/
def nvmReadBody (a : Asker) (p : List Byte) (s : State) : Reply :=
  let id := u p 0 2
  withLength [12] p s <|
  withFields [(0, decide (id ∈ recordIds)), inRange p 2 1 0 2, isZero p 3 1, inRange p 8 4 0 16320] s <|
  onDomain 2 a s fun s =>
    let answer (st w : Nat) (c : NvmCopy) : Reply :=
      ok (leBytes 1 st ++ zeros 3 ++ leBytes 4 c.seq ++ leBytes 4 c.length ++ zeros 4 ++ copyBytes c (u p 4 4) (u p 8 4))
        (readRecord id w s)
    match u p 2 1 with
    | 0 => (match inForce s id with
        | some (w, c) => answer 1 w c
        | none => ok (leBytes 1 3 ++ zeros 15) s)
    | n => answer (copyState id (copyOf s id (n - 1))) (n - 1) (copyOf s id (n - 1))

def execNvmRead (ring : Nat) (dma : List Byte) (s : State) : Host.Outcome State Fault Refusal :=
  .next (runMessage 0x0A01 ring dma nvmReadBody s)

/-- Record IDs marked "host" (Table 16-2). -/
def hostRecord (id : Nat) : Bool := decide (id ∈ [0x0202, 0x0203, 0x0204]) || (decide (0x0210 ≤ id) && decide (id ≤ 0x021F))

/-- A length is that of the record's payload. -/
def recordLength (id n : Nat) : Bool :=
  match id with
  | 0x0202 => decide (n = 1280)
  | 0x0203 => decide (n = 32)
  | 0x0204 => decide (n = 128)
  | _ => decide (n ≤ 8168)

/-- Ranges of the power map record (Table 14-6); an unused regulator's other fields are judged too. -/
def mapChecks (p : List Byte) : List (Nat × Bool) :=
  (List.range 8).flatMap fun k =>
    let b := 16 * k
    [(b, decide (u p b 4 % 2 = 0 ∧ u p b 4 < 2 ^ 20)), inRange p (b + 4) 1 1 100, inRange p (b + 5) 1 0 1, isZero p (b + 6) 10]

/-- Regulators of a power map record. -/
def mapOf (p : List Byte) : List Reg :=
  (List.range 8).map fun k => ⟨u p (16 * k) 4, u p (16 * k + 4) 1, decide (u p (16 * k + 5) 1 = 1)⟩

/-- Ranges of a host record. -/
def recordChecks (id : Nat) (d : List Byte) : List (Nat × Bool) :=
  match id with
  | 0x0202 => defaultsChecks d
  | 0x0203 => clkChecks d
  | 0x0204 => mapChecks d
  | _ => []

/-- Stages in which `nvm.write_record` is accepted. -/
def recordStage (g : Stage) : Bool := decide (g ≠ .blank) && decide (g ≠ .scrapped)

/-- A record write joins the queue (R370): on behalf of a writing message, or of a long operation. -/
def queueRecord (id : Nat) (data : List Byte) (asker : Option Asker) (s : State) : State :=
  let (w, sq) := nextWrite s id
  { s with nvm := { s.nvm with jobs := s.nvm.jobs ++ [⟨id, w, sq, data, 0, asker, false⟩] } }

/-- `nvm.write_record` (R378): checked, then its write waits for the lease. -/
def nvmWriteBody (a : Asker) (p : List Byte) (s : State) : Reply :=
  let id := u p 0 2
  let n := u p 4 4
  let d := p.drop 8
  if p.length < 8 ∨ p.length ≠ 8 + n then err stBadLength 8 s
  else withFields ([(0, hostRecord id), isZero p 2 2, (4, recordLength id n)] ++
      (recordChecks id d).map fun c => (8 + c.1, c.2)) s <|
    if !recordStage (stageNow s) then err stState 0 s
    else if recordBusy id s then err stBusy 0 s
    else onDomain 2 a s fun s => deferred (queueRecord id d (some a) s)

def execNvmWriteRecord (ring : Nat) (dma : List Byte) (s : State) : Host.Outcome State Fault Refusal :=
  .next (runMessage 0x0A02 ring dma nvmWriteBody s)

/-- `nvm.status` (R380). -/
def nvmStatusBody (a : Asker) (p : List Byte) (s : State) : Reply :=
  withLength [0] p s <|
  onDomain 2 a s fun s =>
    ok (leBytes 4 s.nvm.sec ++ leBytes 4 s.nvm.ded ++ leBytes 4 s.nvm.logNext ++ zeros 4 ++
      recordIds.flatMap fun id =>
        let c0 := copyOf s id 0
        let c1 := copyOf s id 1
        leBytes 2 id ++ leBytes 1 (match inForce s id with | some (w, _) => w | none => 255) ++
          leBytes 1 (copyState id c0 + 4 * copyState id c1) ++ leBytes 4 c0.seq ++ leBytes 4 c1.seq ++
          leBytes 4 (tget 0 s.nvm.writes (2 * id)) ++ leBytes 4 (tget 0 s.nvm.writes (2 * id + 1))) s

def execNvmStatus (ring : Nat) (dma : List Byte) (s : State) : Host.Outcome State Fault Refusal :=
  .next (runMessage 0x0A03 ring dma nvmStatusBody s)

/-! ### Record writes (R370) -/

/-- What a record does once written: the bias defaults (R378), and the device's bookkeeping beside the field calibration (R367, R375). -/
def recordEffect (id : Nat) (d : List Byte) (s : State) : State :=
  if id = 0x0202 then applyDefaults d false s
  else if id = 0x0201 then { s with nvm := { s.nvm with paths := s.cal.paths } } else s

/-- The write of a record has ended: a writing message is answered; a persist takes the status with its completion. -/
def answerJob (j : NvmJob) (st : Nat) (pay : List Byte) (s : State) : State :=
  match j.asker with
  | some a => finishDeferred a st 0 pay s
  | none => if calRecord j.id then s else { s with nvm := { s.nvm with ended := (j.id, st) :: s.nvm.ended } }

/-- The check word is written: the copy is counted and read back. Valid, its record takes effect; not valid, because a word written earlier
has been struck since, the writing message is answered INTEGRITY (R370). -/
def jobDone (j : NvmJob) (js : List NvmJob) (s : State) : State :=
  let s1 := readCopy j.id j.copy (countWrite j.id j.copy { s with nvm := { s.nvm with jobs := js } })
  if copyStruck s j.id j.copy then
    answerJob j stIntegrity [] (recordInvalid j.id j.copy 3
      (setCopy j.id j.copy { copyOf s1 j.id j.copy with crcOk := false } s1))
  else answerJob j 0 (leBytes 4 j.seq ++ leBytes 1 j.copy ++ zeros 3) (recordEffect j.id j.data s1)

/-- The write in progress goes on up to word `k`. -/
def writeWords (j : NvmJob) (js : List NvmJob) (k : Nat) (s : State) : State :=
  let s1 := setCopy j.id j.copy (partialCopy (copyOf s j.id j.copy) j.id j.seq j.data k) (cleanCopy j.id j.copy j.words k s)
  if k = recordWords j.data.length then jobDone j js s1
  else { s1 with nvm := { s1.nvm with jobs := { j with words := k } :: js } }

/-- The writes in front of a record's, and with `self` its own, are finished in their order. -/
def finishWrites (id : Nat) (self : Bool) : List NvmJob → State → State
  | [], s => s
  | j :: js, s =>
    if j.id = id then (if self then writeWords j js (recordWords j.data.length) s else s)
    else finishWrites id self js (writeWords j js (recordWords j.data.length) s)

/-- Bytes of the patch region take their values; the first write since the last commit or erase empties it (R425). -/
def patchWrite (off : Nat) (data : List Byte) (s : State) : State :=
  let base := if s.nvm.patchFresh then [] else s.nvm.patch
  (if s.nvm.patchFresh then cleanWords 8 0xB8000 0x20000 else cleanWords 8 (0xB8000 + off / 8) (ceilN data.length 8))
    { s with nvm := { s.nvm with patch := tsetList 0 base off data, patchFresh := false, patchValid := false } }

/-- The running persists whose content is complete start the writes of their records: the Cabinet's when no entry waits for its boundary (R195),
the banks' when no commit is pending (R222). -/
def queuePersists (s : State) : State :=
  let idle (id : Nat) (t : State) : Bool := !recordBusy id t && t.nvm.ended.all fun e => decide (e.1 ≠ id)
  let s1 := if longRunning .cataloguePersist s && decide (s.bf.waiting = []) && decide (s.bf.writes = []) && idle 0x0301 s then
    queueRecord 0x0301 (cabinetRecord s) none s else s
  if longRunning .bankPersist s1 && decide (s1.lin.commits = []) && idle 0x0401 s1 then
    queueRecord 0x0401 (bankRecordBytes s1) none s1 else s1

/-- Words that a write of the patch region still has for another step; none beyond its last 1,024. -/
def patchStep (s : State) : State :=
  match s.nvm.fwOp with
  | some (1, off, data) =>
    if 8192 < data.length then
      let s1 := patchWrite off (data.take 8192) s
      { s1 with nvm := { s1.nvm with fwOp := some (1, off + 8192, data.drop 8192) } }
    else s
  | _ => s

/-- One step of the write in progress: at most 1,024 words. -/
def writeStep (s : State) : State :=
  match s.nvm.jobs with
  | j :: js => writeWords j js (Nat.min (recordWords j.data.length) (j.words + 1024)) s
  | [] => patchStep s

/-- NVM_WRITE_STEP (R370): the write in progress takes the lease for a step, and releases it. -/
def execNvmWriteStep (s : State) : Host.Outcome State Fault Refusal :=
  let s1 := queuePersists s
  if s1.nvm.jobs = [] ∧ s1.nvm.fwOp.isNone then .next s
  else match accessDomain 2 s1 with
    | none => .next s1
    | some s2 =>
      let s3 := requestLease 0 1 s2
      if (leaseNow s3 0).holder = 1 ∧ (leaseNow s3 0).free.isNone then .next (releaseLease 0 (writeStep s3)) else .next s3

/-- The NVM lease reaches its maximum hold in the middle of a step and is revoked (R392). -/
def revokeStep (s : State) : State :=
  let s1 := requestLease 0 1 s
  revokeLease 0 1 (advanceSince (leaseNow s1 0).granted (leaseMax 0 * 1474560) s1)

/-! ### Persists (R195, R222) -/

/-- Result of a running persist's write of its record: the status it ended with, 0 done. -/
def persistStatus (id : Nat) (s : State) : Option Nat := (s.nvm.ended.find? fun e => decide (e.1 = id)).map fun e => e.2

/-- A persist ends. Where its write has not ended yet, `e` says how it does: to its end, behind the writes in front of it; by a revoked
lease; or cut short. None where the content is not complete. -/
def persistEnd (id : Nat) (e : LongEnd) (s : State) : Option (Nat × State) :=
  let forget (t : State) : State := { t with nvm := { t.nvm with ended := t.nvm.ended.filter fun x => decide (x.1 ≠ id) } }
  let s1 := queuePersists s
  match persistStatus id s1 with
  | some st => some (st, forget s1)
  | none =>
    if !recordBusy id s1 then none
    else match e with
      | .cutShort => some (stIncomplete, dropJob id s1)
      | .done =>
        let s2 := finishWrites id true s1.nvm.jobs s1
        some ((persistStatus id s2).getD 0, forget s2)
      | .leaseRevoked =>
        let s2 := revokeStep (finishWrites id false s1.nvm.jobs s1)
        some ((persistStatus id s2).getD stLeaseRevoked, forget s2)

/-- Sequence of a record's copy in force. -/
def recordSeq (s : State) (id : Nat) : Nat := ((inForce s id).map fun e => e.2.seq).getD 0

/-- OK payload of `beam.catalogue_persist`: sequence, defined entries and boundary of the record stored (R195). -/
def cataloguePersisted (s : State) : List Byte :=
  let p := (recordData s 0x0301).getD []
  leBytes 4 (recordSeq s 0x0301) ++ leBytes 2 ((List.range 6144).countP fun e => decide (u p (1572881 + 16 * e) 1 = 1)) ++ [0, 0] ++
    slice p 0 9 ++ zeros 7

/-- CATALOGUE_PERSIST_COMPLETE (R195). -/
def execCataloguePersistComplete (e : LongEnd) (s : State) : Host.Outcome State Fault Refusal :=
  if !longRunning .cataloguePersist s then .next s
  else match persistEnd 0x0301 e s with
    | none => .next s
    | some (st, s1) => .next (finishLong .cataloguePersist st 0 (if st = 0 then cataloguePersisted s1 else []) s1)

/-- BANK_PERSIST_COMPLETE (R222). -/
def execBankPersistComplete (e : LongEnd) (s : State) : Host.Outcome State Fault Refusal :=
  if !longRunning .bankPersist s then .next s
  else match persistEnd 0x0401 e s with
    | none => .next s
    | some (st, s1) => .next (finishLong .bankPersist st 0 (if st = 0 then leBytes 4 (recordSeq s1 0x0401) ++ zeros 4 else []) s1)

end Sys2Proof.Machine
end

