-- ==== Sys2Proof/Machine/CalNvm.lean ====
section
/-! DEFINITION. Calibration runs (R373 to R377) and `log.read` (R381, R382). -/

namespace Sys2Proof.Machine

/-! ### Calibration types -/

/-- Types of a mask in the order of Table 16-4. -/
def calOrder (m : Nat) : List Nat := [11, 10, 9, 4, 8, 1, 2, 3, 5, 6, 7].filter fun t => m.testBit t

/-- The paths of a request that a type covers; none for types 8 to 11, which cover every instance. -/
def calPaths (tx rx t : Nat) : Option Nat :=
  if t = 1 ∨ t = 2 ∨ t = 6 then some tx else if t = 3 ∨ t = 4 ∨ t = 5 ∨ t = 7 then some rx else none

/-- Parts of one path's result: bytes, and the tolerance between the runs in the unit of the part (Table 16-4); none for types 8 to 11. -/
def calParts (t : Nat) : List (Nat × Nat) :=
  match t with
  | 1 => [(2, 4), (2, 4)] | 2 => [(2, 20), (2, 100)] | 3 => [(2, 20), (2, 100)] | 4 => List.replicate 62 (2, 2)
  | 5 => List.replicate 31 (2, 20) | 6 => [(2, 100), (2, 500), (4, 5)] | 7 => [(2, 100), (2, 500), (4, 5)] | _ => []

/-- Bytes of one path's result. -/
def calWidth (t : Nat) : Nat := ((calParts t).map fun e => e.1).sum

/-- The parts of a result from offset `o`: offset, bytes, tolerance. -/
def partsAt (o : Nat) : List (Nat × Nat) → List (Nat × Nat × Nat)
  | [] => []
  | (n, tol) :: l => (o, n, tol) :: partsAt (o + n) l

/-- The parts of path p in a section. -/
def pathParts (t p : Nat) : List (Nat × Nat × Nat) := partsAt (calWidth t * p) (calParts t)

/-- Greatest difference of two runs of a path, in percent of the tolerance. -/
def calWorst (t p : Nat) (a : CalAttempt) : Nat :=
  ((pathParts t p).map fun (o, n, tol) => (i a.first o n - i a.second o n).natAbs * 100 / tol).foldl Nat.max 0

/-- A result lies within its range: the delay of types 6 and 7. -/
def calInRange (t p : Nat) (d : List Byte) : Bool :=
  decide (t ≠ 6 ∧ t ≠ 7) || (decide (0 ≤ i d (8 * p + 4) 4) && decide (i d (8 * p + 4) 4 ≤ 1000000))

/-- An attempt for a path is accepted (R373): the runs agree within every tolerance and lie within range; type 6 at −70 dBm or more (R374). -/
def calAccepts (r : CalResult) (p : Nat) (a : CalAttempt) : Bool :=
  ((pathParts r.typ p).all fun (o, n, tol) => decide ((i a.first o n - i a.second o n).natAbs ≤ tol)) &&
    calInRange r.typ p a.first && calInRange r.typ p a.second &&
    (decide (r.typ ≠ 6) || r.levels.all fun e => decide (e.1 ≠ p ∨ -7000 ≤ e.2))

/-- Mean of the two runs of parts, rounded half to even (R373). -/
def calMean (l : List (Nat × Nat × Nat)) (a : CalAttempt) : List Byte :=
  l.flatMap fun (o, n, _) => leI n (rhe (i a.first o n + i a.second o n) 2)

/-- The result of a path: the mean of its first accepted attempt, with that attempt's number; none where every attempt disagreed. -/
def calPath (r : CalResult) (p : Nat) : Option (Nat × List Byte) :=
  ((List.range r.attempts.length).zip r.attempts).findSome? fun (k, a) =>
    if calAccepts r p a then some (k + 1, calMean (pathParts r.typ p) a) else none

/-- The result of a type that covers every instance, likewise; a section of 16-bit components (DESIGN CHOICE, log 21). -/
def calWhole (r : CalResult) : Option (Nat × List Byte) :=
  ((List.range r.attempts.length).zip r.attempts).findSome? fun (k, a) =>
    if a.agreed then some (k + 1, calMean ((List.range (calBytes r.typ / 2)).map fun j => (2 * j, 2, 0)) a) else none

/-- Attempts after which a type with the paths of a mask is decided: all accepted, or three. -/
def calAttempts (mask : Option Nat) (r : CalResult) : Nat :=
  match mask with
  | none => match calWhole r with | some (k, _) => k | none => 3
  | some m => ((bitList m 64).map fun p => match calPath r p with | some (k, _) => k | none => 3).foldl Nat.max 0

/-- Worst disagreement in the last attempt, of the paths that it still measured. -/
def calLastWorst (mask : Option Nat) (r : CalResult) : Nat :=
  let n := calAttempts mask r
  let a := r.attempts.getD (n - 1) ⟨[], [], false, 0⟩
  match mask with
  | none => a.worst
  | some m => (((bitList m 64).filter fun p => match calPath r p with | some (k, _) => decide (k = n) | none => true).map fun p =>
      calWorst r.typ p a).foldl Nat.max 0

/-- An outcome decides its type: it holds exactly the attempts that R373 makes. -/
def calDecided (mask : Option Nat) (r : CalResult) : Bool := decide (r.attempts.length = calAttempts mask r)

/-- Paths rejected; 0xFFFF stands for a type that covers every instance. -/
def calRejected (mask : Option Nat) (r : CalResult) : List Nat :=
  match mask with
  | none => if (calWhole r).isNone then [0xFFFF] else []
  | some m => (bitList m 64).filter fun p => (calPath r p).isNone

/-- New section of a type: accepted paths take their new bytes, the others keep theirs (R373, R376). -/
def calMerge (mask : Option Nat) (r : CalResult) (old : List Byte) : List Byte :=
  match mask with
  | none => match calWhole r with | some (_, d) => d | none => old
  | some m => (List.range 64).flatMap fun p =>
      match if m.testBit p then calPath r p else none with
      | some (_, d) => d
      | none => slice old (calWidth r.typ * p) (calWidth r.typ)

/-- The record that holds a type's result is written (R375): after a FAIL of type 10 or 11 with its results unchanged. With `whole` false
the write goes on after the command. -/
def calStore (t : Nat) (pass whole : Bool) (s : State) : State :=
  let rec_ : Option (Nat × List Byte) :=
    if t = 10 then
      if pass then some (0x0101, fitBytes 131048 (Config.factoryTrim ((recordData s 0x0101).getD []) (calStanding s 10)))
      else (recordData s 0x0101).map fun d => (0x0101, d)
    else if t = 11 then
      if pass then some (0x0102, calStanding s 11) else (recordData s 0x0102).map fun d => (0x0102, d)
    else some (0x0201, fieldRecord s)
  match rec_ with
  | none => s
  | some (id, d) =>
    let s1 := queueRecord id d none s
    if whole then finishWrites id true s1.nvm.jobs s1 else s1

/-- One rejection (R373): EV_CAL_FAIL and a log entry of kind 5. `count` is the rejected paths of this request so far. -/
def calReject (t path worst count : Nat) (s : State) : State :=
  let d := leBytes 2 path ++ leBytes 1 t ++ leBytes 1 (Nat.min 255 worst) ++ leBytes 4 count
  writeLog 5 d (raise 192 d s)

/-- Type 7 of an FDD part tunes LO-T[0] to each LO-R[q] in turn and back (R374, R268): five retunings, and the synthesiser as before. -/
def calTour (t : Nat) (s : State) : State := if t = 7 ∧ isFdd s.cfg.live then statAdd 0x1A 0 4 5 s else s

/-- Outcome of one type: status entry, result, rejections, record. -/
def calOne (c : CalRun) (r : CalResult) (whole : Bool) (s : State) : State :=
  let old := tget {} s.cal.status r.typ
  let named := calPaths c.tx c.rx r.typ
  let rej := calRejected named r
  let hot := (sensorOf s (hottest s)).temp
  let pass := decide (rej = [])
  let worst := calLastWorst named r
  let base : CalStatus := { old with last := if pass then 1 else 2, attempts := calAttempts named r, worst := Nat.min 65535 worst }
  let entry : CalStatus := if pass then { base with
      flags := 1, accepted := satAdd 0xFFFFFFFF old.accepted 1, time := nowU s, temp := hot } else base
  let paths := match named with
    | some m => (bitList m 64).foldl (fun a p => if p ∈ rej then a else a ||| 2 ^ p) (tget 0 s.cal.paths r.typ)
    | none => 0
  let run : CalRun := { c with left := c.left.drop 1, rejected := c.rejected + rej.length, typ := r.typ }
  let s1 := { s with cal := { s.cal with
    status := tset {} s.cal.status r.typ entry, data := tset [] s.cal.data r.typ (calMerge named r (calStanding s r.typ)),
    paths := tset 0 s.cal.paths r.typ paths, run := some run } }
  let s2 := ((List.range rej.length).zip rej).foldl (fun t e => calReject r.typ e.2 worst (c.rejected + e.1 + 1) t) (calTour r.typ s1)
  calStore r.typ pass whole s2

/-- The outcomes in order; with `whole` false the last one's record write is still under way. -/
def calAll (whole : Bool) : List CalResult → State → State
  | [], s => s
  | r :: rs, s =>
    match s.cal.run with
    | none => s
    | some c => calAll whole rs (calOne c r (whole || !rs.isEmpty) s)

/-- The status and results that firmware loads from record 0x0201 at boot. -/
def loadCal (s : State) : State :=
  match recordData s 0x0201 with
  | none => { s with cal := { s.cal with status := tclear s.cal.status 1 10, data := tclear s.cal.data 1 10, paths := [] } }
  | some p =>
    (List.range 9).foldl (fun t k =>
      let b := 32 * k
      let e : CalStatus := { last := u p (b + 1) 1, attempts := u p (b + 2) 1, flags := u p (b + 3) 1, accepted := u p (b + 4) 4,
                             time := i p (b + 8) 8 * secU + (u p (b + 16) 4 * nsU : Nat), temp := i p (b + 20) 2,
                             worst := u p (b + 22) 2 }
      let d := if (u p (b + 3) 1) % 2 = 1 then slice p (calSection (k + 1)).1 (calSection (k + 1)).2 else []
      { t with cal := { t.cal with status := tset {} t.cal.status (k + 1) e, data := tset [] t.cal.data (k + 1) d } })
      { s with cal := { s.cal with paths := s.nvm.paths } }

/-! ### `cal.run` (R376, R377) -/

/-- Fields of Table 16-6. -/
def calFields (p : List Byte) : List (Nat × Bool) :=
  let m := u p 0 2
  let tx := m.testBit 1 || m.testBit 2 || m.testBit 6
  let rx := m.testBit 3 || m.testBit 4 || m.testBit 5 || m.testBit 7
  [(0, decide (m ≠ 0 ∧ m % 2 = 0 ∧ m < 4096)), isZero p 2 6, (8, tx == decide (u p 8 8 ≠ 0)), (16, rx == decide (u p 16 8 ≠ 0))]

/-- Types 10 and 11 are allowed in the stage. -/
def factoryStage (g : Stage) : Bool := decide (g = .blank ∨ g = .manufacture ∨ g = .return_)

/-- `cal.run`: fields, stage, conflict, PA gates of type 6, then the transition into CALIBRATE under R338, queued behind one in flight (R341). -/
def calRunBody (_a : Asker) (p : List Byte) (s : State) : Reply :=
  withLength [24] p s <|
  withFields (calFields p) s <|
  let m := u p 0 2
  let g := stageNow s
  if decide (g = .scrapped) || ((m.testBit 10 || m.testBit 11) && !factoryStage g) then err stState 0 s
  else if longRunning .calRun s ∨ longRunning .testRun s then err stBusy 0 s
  else if m.testBit 6 && (List.range 64).any (fun c => (u p 8 8).testBit c &&
      !decide ((chanOf s c).state = 2 ∨ (chanOf s c).state = 3)) then err stRefused 2 s
  else
    let run (t : State) : Reply :=
      accepted .calRun { t with cal := { t.cal with run := some { mask := m, tx := u p 8 8, rx := u p 16 8, left := calOrder m } } }
    if s.pwr.trans.isSome then run (queueRequest { target := .calibrate } s)
    else match refusalOf .calibrate s with
      | some (n, nm) => pwrRefused n nm .calibrate s
      | none => run (startTrans .calibrate 5 0 {} s)

def execCalRun (ring : Nat) (dma : List Byte) (s : State) : Host.Outcome State Fault Refusal :=
  .next (runMessage 0x0501 ring dma calRunBody s)

/-- The device starts back to the mode that CALIBRATE or SELF-TEST was entered from (rows 8 and 9). -/
def returnMode (s : State) : State := startTrans s.pwr.from_ 5 0 {} s

/-- The running calibration ends with a status; the device starts back, and the final response is sent (R376, R377). -/
def calEnd (st detail : Nat) (s : State) : State :=
  let s1 := returnMode { s with cal := { s.cal with run := none } }
  finishLong .calRun st detail (if st = 0 ∨ detail = 3 then calStatusBytes s1 else []) s1

/-- The record write of a calibration has lost its lease twice: its type carries flag [1] and the request ends (R377). -/
def calLost (s : State) : State :=
  match s.cal.run with
  | none => s
  | some c =>
    let e := tget {} s.cal.status c.typ
    calEnd stLeaseRevoked 0 { s with cal := { s.cal with status := tset {} s.cal.status c.typ { e with flags := e.flags % 2 + 2 } } }

/-- The write of a calibration's record that is under way, if one is. -/
def calJob (s : State) : Option NvmJob := s.nvm.jobs.find? fun j => calRecord j.id

/-- The calibration's record write is finished, behind the writes in front of it. -/
def finishCalJob (s : State) : State :=
  match calJob s with
  | some j => finishWrites j.id true s.nvm.jobs s
  | none => s

/-- The calibration's record write loses its lease, and its retry too (R377). -/
def loseCalJob (s : State) : State :=
  match calJob s with
  | none => s
  | some j =>
    let s1 := revokeStep (finishWrites j.id false s.nvm.jobs s)
    calLost (if (calJob s1).isSome then revokeStep s1 else s1)

/-- CAL_COMPLETE: the outcomes of the next types in order (R373). After the last type the device starts back and the final response is sent
(R376). Cut short, the last outcome's record write is under way; with the lease revoked it, or the one under way before, is lost (R377). -/
def execCalComplete (results : List CalResult) (e : LongEnd) (s : State) : Host.Outcome State Fault Refusal :=
  match s.cal.run with
  | none => .next s
  | some c =>
    let fits := decide (results.map (fun r => r.typ) = c.left.take results.length) &&
      results.all fun r => calDecided (calPaths c.tx c.rx r.typ) r
    if s.pwr.mode ≠ .calibrate ∨ s.pwr.trans.isSome ∨ !fits then .next s
    else
      let s0 := if results = [] ∧ e ≠ .done then s else finishCalJob s
      let s1 := calAll (decide (e = .done)) results s0
      match e with
      | .leaseRevoked => .next (loseCalJob s1)
      | .cutShort => .next s1
      | .done =>
        match s1.cal.run with
        | some d => if d.left ≠ [] then .next s1
            else .next (if d.rejected = 0 then calEnd 0 0 s1 else calEnd stRefused 3 s1)
        | none => .next s1

/-- `cal.status` (R377). -/
def execCalStatus (ring : Nat) (dma : List Byte) (s : State) : Host.Outcome State Fault Refusal :=
  .next (runMessage 0x0502 ring dma (fun _ p s => withLength [0] p s (ok (calStatusBytes s) s)) s)

/-! ### `log.read` (R382) -/

/-- Records of a source and their size in bytes; (0, 0) for a value that names none. -/
def sourceShape (src : Nat) : Nat × Nat :=
  match src with
  | 0x01 => (4096, 64) | 0x10 => (1024, 64) | 0x11 => (64, 32) | 0x12 => (64, 32) | 0x13 => (1024, 32) | 0x14 => (64, 32)
  | 0x15 => (32, 16) | 0x16 => (32, 32) | 0x17 => (2, 32) | 0x18 => (64, 32) | 0x19 => (8, 16) | 0x1A => (8, 32)
  | 0x1B => (4, 16) | 0x1C => (64, 16) | 0x1D => (64, 8) | _ => (0, 0)

/-- Bytes of record r of a statistics source. -/
def statBytes (src r : Nat) (s : State) : List Byte :=
  let words := (List.range ((sourceShape src).2 / 4)).flatMap fun w => leBytes 4 (statGet src r w s)
  if src = 0x1A then
    let l := loOf s r
    leBytes 1 l.state ++ leBytes 1 l.divider ++ zeros 2 ++ leBytes 4 l.n ++ leBytes 4 l.f ++ words.drop 12
  else if src = 0x13 then
    (let k := (flowAt s.cfg.live r).kind
    if 2 ≤ k ∧ k ≤ 5 then words else zeros 32)
  else words

/-- Zero a statistics record; the smallest margin returns to 0xFFFF_FFFF. -/
def statClear (src r : Nat) (s : State) : State := { s with stat := tclear s.stat ((src * 1024 + r) * 16) ((src * 1024 + r + 1) * 16) }

/-- Valid log entries among `n` sequence numbers modulo 65,536 from `first`. -/
def logEntries (s : State) (first n : Nat) : List (List Byte) :=
  ((List.range n).map fun j =>
    let q := (first + j) % 65536
    (q, tget [] (goodLog s) (q % 4096))).filterMap fun e => if logValid e.2 && decide (u e.2 0 4 % 65536 = e.1) then some e.2 else none

/-- Log entries that are valid. -/
def logCount (s : State) : Nat := (goodLog s).length

/-- `log.read`. -/
def logReadBody (a : Asker) (p : List Byte) (s : State) : Reply :=
  let src := u p 0 1
  let first := u p 4 2
  let n := u p 6 2
  let shape := sourceShape src
  withLength [8] p s <|
  withFields [(0, decide (shape.1 ≠ 0)), (1, decide (u p 1 1 = 0) || (decide (u p 1 1 = 1) && decide (src ≠ 1))), isZero p 2 2,
    (6, decide (n * shape.2 ≤ 16336))] s <|
  if src = 1 then onDomain 2 a s fun s =>
    let es := logEntries s first n
    let s := (List.range n).foldl (fun t k => readMram 0 0 (logWord (first + k)) 8 t) s
    ok (leBytes 1 src ++ [0] ++ leBytes 2 (logCount s) ++ leBytes 2 first ++ leBytes 2 es.length ++ es.flatten) s
  else
    let rs := (List.range n).map (first + ·) |>.filter fun r => decide (r < shape.1)
    let body := rs.flatMap fun r => statBytes src r s
    let s1 := if u p 1 1 = 1 then rs.foldl (fun t r => statClear src r t) s else s
    ok (leBytes 1 src ++ [0] ++ leBytes 2 shape.1 ++ leBytes 2 first ++ leBytes 2 rs.length ++ body) s1

def execLogRead (ring : Nat) (dma : List Byte) (s : State) : Host.Outcome State Fault Refusal :=
  .next (runMessage 0x0D03 ring dma logReadBody s)

end Sys2Proof.Machine
end

