-- ==== Sys2Proof/Machine/Configuration.lean ====
section
/-! DEFINITION. Configuration messages: staging, commit and its arming, discard and read (R66 to R79), and the subject
messages that stage a whole section (R69). -/

namespace Sys2Proof.Machine

/-- Staged image as staging sees it (R68). -/
def stagedImage (s : State) : Image := s.cfg.staged

/-- An accepted staging write of `data` at `off` of a section (R68). -/
def stageWrite (sec off : Nat) (data : List Byte) (s : State) : State :=
  { s with cfg := { s.cfg with staged := (if data = [] then s.cfg.staged else imgWrite s.cfg.staged sec off data),
                               count := (s.cfg.count + 1) % 2 ^ 32 } }

/-- Answer of an accepted staging write: the stage count. -/
def stageReply (sec off : Nat) (data : List Byte) (s : State) : Reply :=
  let s1 := stageWrite sec off data s
  ok (leBytes 4 s1.cfg.count) s1

/-- A subject message that writes a whole section (R69). -/
def stageSection (sec : Nat) (p : List Byte) (s : State) : Reply :=
  withLength [sectionSize sec] p s
    (match stageVerdict sec 0 p s.cfg.staged with
    | some o => err stBadField (32 + o) s
    | none => stageReply sec 0 p s)

/-- `cfg.stage` (R70). -/
def cfgStageBody (_a : Asker) (p : List Byte) (s : State) : Reply :=
  let sec := u p 0 2
  let off := u p 4 4
  let n := u p 8 4
  if p.length < 12 ∨ p.length ≠ 12 + n then err stBadLength 8 s
  else withFields [(0, decide (sectionSize sec ≠ 0)), isZero p 2 2,
      (4, decide (off < sectionSize sec) && decide (off + n ≤ sectionSize sec)), inRange p 8 4 0 16340] s
    (match stageVerdict sec off (p.drop 12) s.cfg.staged with
    | some o => err stBadField (44 + (o - off)) s
    | none => stageReply sec off (p.drop 12) s)

def execCfgStage (ring : Nat) (dma : List Byte) (s : State) : Host.Outcome State Fault Refusal :=
  .next (runMessage 0x0201 ring dma cfgStageBody s)

/-- Payload of a `cfg.commit` refused by a check (Table 3-4). -/
def checkPayload (n : Nat) (f : CheckFail) : List Byte :=
  leBytes 2 n ++ leBytes 2 f.sec ++ leBytes 4 f.off ++ leBytes 2 f.index ++ [0, 0] ++ leBytes 8 f.value ++ leBytes 8 f.limit

/-- A check fails: the last outcome is noted and the status of the check answered (R73, R79). -/
def commitRejected (n : Nat) (f : CheckFail) (s : State) : Reply :=
  { st := { s with cfg := { s.cfg with outcome := 2, lastCheck := n } },
    code := if n ∈ budgetChecks then stBudget else stMismatch, detail := n, payload := checkPayload n f }

/-- Mode that permits `cfg.commit`. -/
def commitMode (m : Mode) : Bool := isService m || decide (m = .standby)

/-- `cfg.commit` (R73): the checks, then arming begins. A second commit while one is being armed is answered BUSY (DESIGN CHOICE, log 97); a
failed check 1 concerns no section, and reports section and field 0 (DESIGN CHOICE, log 98). -/
def cfgCommitBody (a : Asker) (p : List Byte) (s : State) : Reply :=
  withLength [24] p s <|
  withFields [inRange p 0 1 0 1, isZero p 1 3, (16, decide (u p 0 1 = 1) || decide (u p 16 1 ≤ 39)), isZero p 17 7] s <|
  let timing := u p 0 1
  let now := nowU s
  let named : Boundary := ⟨u p 8 8, u p 16 1⟩
  let live := s.cfg.live
  let im := s.cfg.staged
  if !commitMode s.pwr.mode then err stState 0 s
  else if s.cfg.armed.isSome ∨ s.cfg.arming.isSome then err stBusy 0 s
  else if timing = 0 ∧ boundaryU named < now + 2 * (msU : Int) then err stRefused 1 s
  else if timing = 0 ∧ now + 60 * (secU : Int) < boundaryU named then err stRefused 2 s
  else
    let b := if timing = 1 then earliestBoundary live im (now + 2 * (msU : Int)) else named
    let expected := u p 4 4
    let off := (boundaryU b % frameU / tickU).toNat
    let c1 := failIf (decide (expected ≠ 0xFFFFFFFF) && decide (expected ≠ s.cfg.count)) ⟨0, 0, 0, s.cfg.count, expected⟩
    let list := (1, c1) :: checks2to21 live im off (s.rf.txEnable && isService s.pwr.mode && !protectiveEntry s) s.rf.rxEnable ++
      (if timing = 0 then [(22, check22 live im b.quarter)] else []) ++
      (if s.pwr.mode = .bringUp then [(23, check23 im)] else [])
    match firstCheck list with
    | some (n, f) => commitRejected n f s
    | none => deferred { s with cfg := { s.cfg with arming := some ⟨a, b, s.tm.raw, im⟩ } }

def execCfgCommit (ring : Nat) (dma : List Byte) (s : State) : Host.Outcome State Fault Refusal :=
  .next (runMessage 0x0202 ring dma cfgCommitBody s)

/-- Next epoch number (R67: after 0xFFFF_FFFF comes 1). -/
def nextEpoch (e : Nat) : Nat := if e = 0xFFFFFFFF then 1 else e + 1

/-- Latest instant of arming: B − 1.1 ms (R74). -/
def armLimit (b : Boundary) : Instant := boundaryU b - 1100 * (usU : Int)

/-- Each enabled bus takes its RFFE lease at arming (R276); one whose domain is off then is skipped, entries and trigger, cause 5
(R278). -/
def rffeAtArming (im : Image) (s : State) : State :=
  (rffeBuses s.cfg.live im).foldl (fun t q =>
    if t.pwr.ready.getLsbD (12 + q) then requestLease (12 + q) 1 { t with rf := { t.rf with rffe := t.rf.rffe ++ [q] } }
    else rffeSkipAll q 5 (rffeEntries im q) { t with rf := { t.rf with rffeSkip := t.rf.rffeSkip ||| BitVec.twoPow 4 q } })
    { s with rf := { s.rf with rffe := [], rffeSkip := 0 } }

/-- The commit is armed: the image that the checks have passed becomes the armed image, which the staged image equals again, and the
stage count 0 (R68, R73). What another ring has staged since the checks is lost (DESIGN CHOICE, log 97). -/
def armCommit (im : Image) (b : Boundary) (s : State) : State :=
  rffeAtArming im { s with cfg := { s.cfg with armed := some (im, b), staged := im, count := 0, arming := none } }

/-- COMMIT_ARMED: arming completes before its limit, and OK is posted. A mode transition that has begun since the execution's start
does not stop it (DESIGN CHOICE, log 97: R76 speaks of an armed commit). -/
def execCommitArmed (s : State) : Host.Outcome State Fault Refusal :=
  match s.cfg.arming with
  | none => .next s
  | some ⟨a, b, _, im⟩ =>
    if armLimit b < nowU s then .next s
    else .next (finishDeferred a 0 0 (leBytes 4 (nextEpoch s.cfg.epoch) ++ zeros 4 ++ leBytes 8 b.frame ++
      leBytes 1 b.quarter ++ zeros 7) (armCommit im b s))

/-- COMMIT_ARM_TIMEOUT: arming is not complete by B − 1.1 ms (R74). -/
def execCommitArmTimeout (s : State) : Host.Outcome State Fault Refusal :=
  match s.cfg.arming with
  | none => .next s
  | some ⟨a, b, _, _⟩ =>
    let s1 := advanceTo (armLimit b) s
    .next (finishDeferred a stTimeout 0 [] { s1 with cfg := { s1.cfg with arming := none, outcome := 3, lastCheck := 0 } })

/-- `cfg.discard` (R78). Scope 1 answered STATE leaves the staged image and the stage count (DESIGN CHOICE, log 97). -/
def cfgDiscardBody (_a : Asker) (p : List Byte) (s : State) : Reply :=
  withLength [4] p s <|
  withFields [inRange p 0 1 0 1, isZero p 1 3] s <|
  match s.cfg.armed with
  | none => ok [] { s with cfg := { s.cfg with staged := s.cfg.live, count := 0 } }
  | some (im, b) =>
    if u p 0 1 = 0 then ok [] { s with cfg := { s.cfg with staged := im, count := 0 } }
    else if boundaryU b < nowU s + (msU : Int) then err stState 0 s
    else ok [] (cancelArmed 4 s)

def execCfgDiscard (ring : Nat) (dma : List Byte) (s : State) : Host.Outcome State Fault Refusal :=
  .next (runMessage 0x0203 ring dma cfgDiscardBody s)

/-- `cfg.read` (R79). -/
def cfgReadBody (_a : Asker) (p : List Byte) (s : State) : Reply :=
  let sec := u p 2 2
  let off := u p 4 4
  let n := u p 8 4
  withLength [12] p s <|
  withFields [inRange p 0 1 0 2, isZero p 1 1, (2, decide (sectionSize sec ≠ 0)), (4, decide (off < sectionSize sec)),
    (8, decide (n ≤ 16316) && decide (off + n ≤ sectionSize sec))] s <|
  let im := match u p 0 1 with
    | 0 => some s.cfg.live
    | 1 => some s.cfg.staged
    | _ => s.cfg.armed.map fun e => e.1
  match im with
  | none => err stState 0 s
  | some im =>
    let b := match s.cfg.armed with | some e => e.2 | none => ⟨0, 0⟩
    ok (leBytes 4 s.cfg.epoch ++ leBytes 4 s.cfg.count ++ leBytes 8 b.frame ++ leBytes 1 b.quarter ++
      leBytes 1 (b2n s.cfg.armed.isSome) ++ leBytes 1 s.cfg.outcome ++ [0] ++
      leBytes 2 (if s.cfg.outcome = 2 then s.cfg.lastCheck else 0) ++ [0, 0] ++ leBytes 1 (u p 0 1) ++ [0] ++
      leBytes 2 sec ++ leBytes 4 off ++ leBytes 4 n ++ imgBytes im sec off n) s

def execCfgRead (ring : Nat) (dma : List Byte) (s : State) : Host.Outcome State Fault Refusal :=
  .next (runMessage 0x0204 ring dma cfgReadBody s)

/-- `link.configure` (R103). -/
def execLinkConfigure (ring : Nat) (dma : List Byte) (s : State) : Host.Outcome State Fault Refusal :=
  .next (runMessage 0x0C01 ring dma (fun _ p s => stageSection 3 p s) s)

/-- `beam.element_map` (R185). -/
def execBeamElementMap (ring : Nat) (dma : List Byte) (s : State) : Host.Outcome State Fault Refusal :=
  .next (runMessage 0x0303 ring dma (fun _ p s => stageSection 6 p s) s)

/-- `dpd.configure` (R214). -/
def execDpdConfigure (ring : Nat) (dma : List Byte) (s : State) : Host.Outcome State Fault Refusal :=
  .next (runMessage 0x0401 ring dma (fun _ p s => stageSection 7 p s) s)

/-- `cfr.configure` (R205). -/
def execCfrConfigure (ring : Nat) (dma : List Byte) (s : State) : Host.Outcome State Fault Refusal :=
  .next (runMessage 0x0405 ring dma (fun _ p s => stageSection 8 p s) s)

end Sys2Proof.Machine
end

