-- ==== Sys2Proof/Machine/Rf.lean ====
section
/-! DEFINITION. The frame timer's events (R270, R271), synthesiser lock (R267 to R269), RFFE programs and triggers (R275 to
R278), and what a commit boundary does to them. -/

namespace Sys2Proof.Machine

/-! ### Frame timer -/

/-- First instant at or after `t` whose offset within its frame is `off` ticks. -/
def nextOffset (off : Nat) (t : Instant) : Instant :=
  let f := t / frameU * frameU + tk off
  if t ≤ f then f else f + frameU

/-- First instant that the present tick brings: just after the instant of the tick before. -/
def tickStart (s : State) : Instant :=
  if s.tm.raw = 0 then nowU s else instantAt s.tm (s.tm.raw - rawStep s.tm) + 1

/-- Tile whose bridge carries the control word of a target: the pin's own, and tile 0 for the array-wide enables (DESIGN CHOICE,
log 109). -/
def targetTile (target : Nat) : Nat := if target < 32 then target / 8 else 0

/-- TDD_EVENT: event `index` of the live pattern comes. Of events of one target at one time the highest index governs; in FDD
those of the enables are ignored (R271). A control word that fails parity on the bridge three times is not acted
on (R16). -/
def execTddEvent (step : FrameEvent) (s : State) : Host.Outcome State Fault Refusal :=
  match (tddEvents s.cfg.live)[step.index]? with
  | none => .next s
  | some (t, target, _) =>
    if s.rf.running && isService s.pwr.mode then
      let s0 := advanceTo (nextOffset t (tickStart s)) s
      let s1 := controlFails (targetTile target) step.fails s0
      .next (if 3 ≤ step.fails then s1 else if isFdd s.cfg.live && decide (32 ≤ target) then s1
        else match levelAt (tddEvents s.cfg.live) target t with
          | some l => setTarget target l s1
          | none => s1)
    else .next s

/-- A commit brings a pattern into the live image: levels at B, and EV_TDD_PATTERN_ERR for a pair at one time (R271). -/
def patternAtCommit (old new : Image) (b : Instant) (s : State) : State :=
  let s1 := if s.rf.running then patternLevels new (frameTick b) s else s
  if tget [] old 9 = tget [] new 9 then s1
  else match patternClash (tddEvents new) with
    | some (e, (t, target, _)) => raise 116 (det (e % 256) (e / 256) target 1 t) s1
    | none => s1

/-! ### Calibration ports (R279) -/

/-- CAL_TX and CAL_RX are active; in every other mode both are terminated. -/
def calPorts (s : State) : Bool := decide (s.pwr.mode = .calibrate) || decide (s.pwr.mode = .selfTest)

/-- Feedback inputs, as TX paths, that ORx[k] can see: its selector's (R11), and CAL_RX (none) through the port switch ahead of the selector of
ORx[0] while the ports are active. -/
def orxSees (s : State) (k : Nat) : List (Option Nat) :=
  (if decide (k = 0) && calPorts s then [none] else []) ++ [some (8 * k + tget 0 s.lin.orx k / 32)]

/-- Synthesiser that CAL_TX's tone comes from, while a calibration transmitter may drive it: LO-T[0]. -/
def calTxLo (s : State) : Option Lo := if calPorts s then some (tget {} s.rf.lo 0) else none

/-! ### Synthesisers -/

/-- Refusal name of a synthesiser (Table 14-4, reason 11). -/
def loName (k : Nat) : List Byte :=
  (ascii (if k % 2 = 0 then "LO-T" else "LO-R") ++ [BitVec.ofNat 8 (48 + k / 2)] ++ [32, 32, 32]).take 8

/-- The synthesiser's paths stop being served: the DAC samples of a TX tile are zero and its captures are missed (R268). -/
def loServiceLost (k : Nat) (s : State) : State :=
  if k % 2 = 0 then notePins (missTile (k / 2) (if isService s.pwr.mode then silenceTiles [k / 2] false s else s)) else s

/-- A synthesiser qualifies: TX paths resume at the next class-carrier symbol, UL symbols met since `from_` are CORRUPT. -/
def loServiceBack (k from_ : Nat) (s : State) : State :=
  if !isService s.pwr.mode then s
  else if k % 2 = 0 then resumeTiles (BitVec.twoPow 4 (k / 2)) s
  else markPins ((List.range 16).map fun p => 16 * (k / 2) + p) (instantAt s.tm from_) (nowU s) 1 s

/-- Raw value at which the paths of a synthesiser stopped being served: 150 µs before the count of a late retune began. -/
def loSince (l : Lo) : Nat := if l.late then l.since - usTicks 150 else l.since

/-- Within the bound of R268 or R269 as a qualification may be: 150 µs for a retune in service, 2 ms for a relock. -/
def loInTime (s : State) (l : Lo) : Bool :=
  if l.state = 1 then !l.retune || decide (ticksSince l.since s ≤ usTicks 150)
  else !l.expired && decide (ticksSince l.since s * 100 ≤ 2000 * 147456)

/-- LO_QUALIFIED: a transition that waits for the synthesisers goes on (R339). -/
def execLoQualified (lo : Nat) (s : State) : Host.Outcome State Fault Refusal :=
  let l := loOf s lo
  if lo < 8 ∧ (l.state = 1 ∨ l.state = 3) ∧ loInTime s l then
    let s1 := loServiceBack lo (loSince l) (setLo lo { l with state := 2, late := false, retune := false } s)
    .next (progress (if l.state = 3 then loEvent lo 3 s1 else s1))
  else .next s

/-- LO_QUALIFY_TIMEOUT: a retune not qualified by B + 150 µs is unlocked, cause 2 (R268), whatever else is in flight; a synthesiser
that a transition has started refuses the transition with reason 11. -/
def execLoQualifyTimeout (lo : Nat) (s : State) : Host.Outcome State Fault Refusal :=
  let l := loOf s lo
  if lo < 8 ∧ l.state = 1 then
    match s.pwr.trans, l.retune with
    | some _, false => .next (refuseTrans 11 (loName lo) s)
    | _, _ =>
      let s1 := advanceSince l.since (usTicks 150) s
      .next (loEvent lo 2 (statAdd 0x1A lo 3 1
        (setLo lo { l with state := 3, late := true, retune := false, expired := false, since := l.since + usTicks 150 } s1)))
  else .next s

/-- LO_UNLOCK: a qualified synthesiser loses lock. -/
def execLoUnlock (lo : Nat) (s : State) : Host.Outcome State Fault Refusal :=
  let l := loOf s lo
  if lo < 8 ∧ l.state = 2 then
    .next (loEvent lo 1 (loServiceLost lo (statAdd 0x1A lo 3 1 (setLo lo { l with state := 3, since := s.tm.raw, late := false, expired := false } s))))
  else .next s

/-- LO_RELOCK_TIMEOUT: not qualified 2 ms after the loss: SAFE-HOLD, cause 5. The synthesiser stays unlocked until its domain goes off. -/
def execLoRelockTimeout (lo : Nat) (s : State) : Host.Outcome State Fault Refusal :=
  let l := loOf s lo
  if lo < 8 ∧ l.state = 3 ∧ !l.expired then
    .next (protect 5 0 (setLo lo { l with expired := true } (advanceSince l.since (usTicks 2000) s)))
  else .next s

/-- Synthesisers whose frequency a commit changes retune from B (R268); those of a domain that is off do not run. -/
def loAtCommit (old new : Image) (s : State) : State :=
  if tget [] old 10 = tget [] new 10 then s
  else ((List.range 8).filter fun k => decide (loFreq old k ≠ loFreq new k) && decide ((loOf s k).state ≠ 0)).foldl
    (fun t k => loServiceLost k (startLo true t k)) s

/-! ### RFFE -/

/-- A write leaves on the pads of a bus, where they are not held (R349). -/
def rffeOut (bus usid command address data : Nat) (s : State) : State :=
  if s.em.held.getLsbD (4 + bus) then s else { s with out := s.out ++ [.rffe bus usid command address data] }

/-- Issue one entry, with its read-back where it is verified. -/
def rffeIssue (bus : Nat) (e : RffeEntry) (r : Option RffeRead) (s : State) : State :=
  let s1 := statAdd 0x1B bus 0 1 (rffeOut bus e.usid e.command e.address e.data s)
  match r with
  | none => s1
  | some x =>
    if !x.parity1 && !x.parity2 then rffeError bus 1 e 0 (statAdd 0x1B bus 1 1 s1)
    else if x.value % 256 ≠ e.data then rffeError bus 2 e x.value (statAdd 0x1B bus 2 1 s1)
    else s1

/-- Issue entries in order; each verified one takes the next read. -/
def rffeRun (bus : Nat) : List RffeEntry → List RffeRead → State → State
  | [], _, s => s
  | e :: es, rs, s =>
    if e.verify then
      match rs with
      | r :: rs1 => rffeRun bus es rs1 (rffeIssue bus e (some r) s)
      | [] => s
    else rffeRun bus es rs (rffeIssue bus e none s)

/-- The control word of this entry failed parity three times on the bridge (R16). -/
def controlLost (lost : List (Nat × Nat)) (k : Nat) : Bool := lost.any fun e => decide (e.1 = k) && decide (3 ≤ e.2)

/-- Parity failures of control words toward a tile, counted and raised. -/
def controlWords (tile : Nat) (lost : List (Nat × Nat)) (s : State) : State :=
  lost.foldl (fun t e => controlFails tile e.2 t) s

/-- The program of a bus is over: it leaves the list and gives its lease up. -/
def rffeOver (bus : Nat) (s : State) : State :=
  releaseLease (12 + bus) { s with rf := { s.rf with rffe := s.rf.rffe.filter fun q => decide (q ≠ bus) } }

/-- RFFE_PROGRAM: the armed image's entries of an enabled bus (R276, R278), under the lease taken at arming. The reads are those of the
verified entries that reach the tile; an entry of `run.lost` is not issued where its control word failed three times (R16). -/
def execRffeProgram (bus : Nat) (run : RffeRun) (s : State) : Host.Outcome State Fault Refusal :=
  match s.cfg.armed with
  | none => .next s
  | some (im, b) =>
    let es := (rffeEntries im bus).filter fun e => !controlLost run.lost e.index
    if bus ∈ s.rf.rffe then
      if !s.pwr.ready.getLsbD (12 + bus) then .next (rffeSkipAll bus 5 (rffeEntries im bus) (rffeOver bus s))
      else if boundaryU b - 100 * (usU : Int) < nowU s then .next (rffeSkipAll bus 3 (rffeEntries im bus) (rffeOver bus s))
      else if run.reads.length = (es.filter fun e => e.verify).length then
        .next (rffeRun bus es run.reads (controlWords bus run.lost (rffeOver bus s)))
      else .next s
    else .next s

/-- At B: programs that have not run are late, and each enabled bus with trigger write 1 gets its trigger (R277). A commit
that leaves the RFFE part unchanged issues nothing (R276). -/
def rffeAtCommit (old new : Image) (s : State) : State :=
  let s1 := s.rf.rffe.foldl (fun t q => rffeSkipAll q 3 (rffeEntries new q) (releaseLease (12 + q) t))
    { s with rf := { s.rf with rffe := [] } }
  (rffeBuses old new).foldl (fun t q =>
    if cf new 12 (1024 + 16 * q + 2) 1 = 1 ∧ !t.rf.rffeSkip.getLsbD q 
    then rffeOut q 0 1 0x1C (cf new 12 (1024 + 16 * q + 3) 1) t else t) s1

end Sys2Proof.Machine
end

