-- ==== Sys2Proof/Machine/Hk.lean ====
section
/-! DEFINITION. Housekeeping conversion (R294 to R301), window comparators (R302) and PA overcurrent (R303). -/

namespace Sys2Proof.Machine

/-! ### Configuration (R295, R302) -/

/-- Fields of slot record i (Table 12-10). -/
def slotChecks (p : List Byte) (n : Nat) : List (Nat × Bool) :=
  let b := 16 + 16 * n
  let src := u p b 1
  if src = 0 then [(b, true), isZero p (b + 1) 15]
  else
    let ch := u p (b + 2) 1
    [inRange p b 1 0 5, inRange p (b + 1) 1 0 1, inRange p (b + 2) 1 0 127,
     (b + 3, if 118 ≤ ch ∧ ch ≤ 121 then decide (u p (b + 3) 1 ≤ 19) else decide (u p (b + 3) 1 = 0)),
     (b + 4, decide (u p (b + 4) 1 ∈ [1, 2, 4, 8])), inRange p (b + 5) 1 0 1,
     (b + 6, decide (u p (b + 6) 2 ∈ [1, 2, 4, 8, 16, 32, 64, 128, 256])),
     (b + 10, if src = 1 then decide (u p (b + 10) 2 ≤ 511) else if src ≤ 4 then decide (u p (b + 10) 2 ≤ 31)
       else decide (u p (b + 10) 2 = 0)),
     (b + 12, if 4 ≤ src then decide (1 ≤ u p (b + 12) 2) else decide (u p (b + 12) 2 = 0)), isZero p (b + 14) 2]

/-- Slot record i. -/
def slotParse (p : List Byte) (n : Nat) : HkSlot :=
  let b := 16 + 16 * n
  if u p b 1 = 0 then {}
  else { source := u p b 1, converter := u p (b + 1) 1, channel := u p (b + 2) 1, sub := u p (b + 3) 1, gain := u p (b + 4) 1,
         mode := u p (b + 5) 1, avg := u p (b + 6) 2, delay := u p (b + 8) 2, param := u p (b + 10) 2, limit := u p (b + 12) 2 }

/-- What `hk.configure` leaves of a converter: queued triggers are dropped, a running conversion completes and is of no slot any more. -/
def dropQueue (s : State) (v : Conv) : Conv :=
  { v with queue := [], running := none, sum := 0, taken := 0, spoiled := false, invalidLeft := 0,
           orphan := match v.running with
             | some n => some ⟨n, (slotOf s n).channel, (slotOf s n).sub, (slotOf s n).gain, decide (0 < v.invalidLeft)⟩
             | none => v.orphan }

/-- `hk.configure` takes effect: queued triggers are dropped, comparators are re-armed, and the first result of a slot whose N changes is
invalid (R298). -/
def hkApply (p : List Byte) (s : State) : State :=
  let s := settleConv 1 (settleConv 0 s)
  let new := (List.range 64).foldl (fun t n => tset {} t n (slotParse p n)) []
  let changed := (List.range 64).filter fun n => decide ((tget {} new n).avg ≠ (slotOf s n).avg) || decide (n ∈ s.hk.fresh)
  { s with hk := { s.hk with
    ocMask := BitVec.ofNat 64 (u p 0 8), slot := new, delayed := [], fresh := changed, since := nowU s, pulse := [],
    limit := (List.range 64).foldl (fun t n => tset 16383 t n (u p (1040 + 2 * n) 2)) [],
    result := s.hk.result.map (fun e => (e.1, { e.2 with count := 0 })) |>.filter fun e => decide (e.2 ≠ {}),
    conv := (s.hk.conv.map fun e => (e.1, dropQueue s e.2)).filter fun e => decide (e.2 ≠ {}),
    window := (s.hk.window.map fun e => (e.1, { e.2 with armed := true })).filter fun e => decide (e.2 ≠ {}) } }

/-- The HK-ADC lease expires in the Bureau's hands while it applies a configuration (R295, R392). -/
def hkRevoked (s : State) : State :=
  let s1 := requestLease 11 1 s
  revokeLease 11 1 (advanceSince (leaseNow s1 11).granted (leaseMax 11 * 1474560) s1)

/-- `hk.configure` (R295). -/
def hkConfigureBody (revoked : Bool) (a : Asker) (p : List Byte) (s : State) : Reply :=
  withLength [1168] p s <|
  withFields ((isZero p 8 8 :: (List.range 64).flatMap (slotChecks p)) ++ (List.range 64).map fun n => inRange p (1040 + 2 * n) 2 1 16383) s <|
  onDomain 10 a s fun s => if revoked then err stLeaseRevoked 0 (hkRevoked s) else ok [] (hkApply p s)

def execHkConfigure (ring : Nat) (setup : HkSetup) (s : State) : Host.Outcome State Fault Refusal :=
  .next (runMessage 0x0804 ring setup.bytes (hkConfigureBody setup.revoked) s)

/-- Fields of comparator record n. -/
def windowChecks (p : List Byte) (n : Nat) : List (Nat × Bool) :=
  let b := 8 * n
  [inRange p b 1 0 1, inRange p (b + 1) 1 0 63, (b + 2, decide (u p (b + 2) 2 ≤ 65532 ∧ u p (b + 2) 2 ≤ u p (b + 4) 2)),
   inRange p (b + 4) 2 0 65532, isZero p (b + 6) 2]

/-- `hk.window` (R302). -/
def hkWindowBody (a : Asker) (p : List Byte) (s : State) : Reply :=
  withLength [256] p s <|
  withFields ((List.range 32).flatMap (windowChecks p)) s <|
  onDomain 10 a s fun s =>
    ok [] { s with hk := { s.hk with window := (List.range 32).foldl (fun t n =>
      tset {} t n (⟨decide (u p (8 * n) 1 = 1), u p (8 * n + 1) 1, u p (8 * n + 2) 2, u p (8 * n + 4) 2, true⟩ : Window)) [] } }

def execHkWindow (ring : Nat) (dma : List Byte) (s : State) : Host.Outcome State Fault Refusal :=
  .next (runMessage 0x0805 ring dma hkWindowBody s)

/-! ### Triggers (R296) -/

/-- The slot is queued or converting. -/
def slotBusy (s : State) (n : Nat) : Bool :=
  [0, 1].any fun c => (convOf s c).queue.any (fun e => decide (e.2 = n)) || decide ((convOf s c).running = some n)

/-- Time reaches what a trigger is counted from: the event of the frame, the end of the period, the pulse's width. -/
def triggerTime (n : Nat) (s : State) : State :=
  let x := slotOf s n
  match x.source with
  | 1 => advanceTo (nextOffset (((tddEvents s.cfg.live).getD x.param (0, 0, false)).1) (tickStart s)) s
  | 4 => advanceSince (tget 0 s.rf.rise x.param) ((x.limit * 147456 + 9999) / 10000) s
  | 5 => advanceTo (s.hk.since + (Nat.max 1 (ceilDiv (tickStart s - s.hk.since) (x.limit * usU : Nat)).toNat * (x.limit * usU) : Nat)) s
  | _ => s

/-- A trigger source can occur (R296): a frame-timer event while the pattern runs and holds it, an edge that leaves the pin at its level
now, the first time in a pulse. -/
def triggerable (s : State) (n : Nat) : Bool :=
  let x := slotOf s n
  match x.source with
  | 0 => false
  | 1 => s.rf.running && decide (x.param < (tddEvents s.cfg.live).length)
  | 2 => pinLevel s x.param
  | 3 => !pinLevel s x.param
  | 4 => pinLevel s x.param && decide (tget 0 s.hk.pulse n ≠ tget 0 s.rf.rise x.param + 1)
  | _ => true

/-- A slot's trigger comes: time has reached it, its pulse is noted, and its converter stands as at that instant. -/
def triggered (n : Nat) (s : State) : State :=
  let x := slotOf s n
  let s1 := triggerTime n s
  settleConv x.converter { s1 with hk := { s1.hk with
    pulse := if x.source = 4 then tset 0 s1.hk.pulse n (tget 0 s1.rf.rise x.param + 1) else s1.hk.pulse } }

/-- HK_TRIGGER: a slot is triggered; one that is already queued or converting counts an overrun, else its delay runs (R296). -/
def execHkTrigger (slot : Nat) (s0 : State) : Host.Outcome State Fault Refusal :=
  let s := notePins s0
  if slot < 64 ∧ s.pwr.ready.getLsbD 10 ∧ triggerable s slot then
    let t := triggered slot s
    if slotBusy t slot then .next (statAdd 0x1C slot 0 1 t)
    else .next { t with hk := { t.hk with delayed := t.hk.delayed ++ [(slot, nowU t + ((slotOf s slot).delay * 10 * nsU : Nat))] } }
  else .next s

/-- Order of the queue: by instant, then by slot (R297). -/
def queueBefore (a b : Instant × Nat) : Bool := decide (a.1 < b.1) || (decide (a.1 = b.1) && decide (a.2 < b.2))

def enqueueSlot (e : Instant × Nat) : List (Instant × Nat) → List (Instant × Nat)
  | [] => [e]
  | x :: xs => if queueBefore e x then e :: x :: xs else x :: enqueueSlot e xs

/-- HK_SLOT_QUEUED: the delay has passed and the slot joins its converter's queue, unless it is there already (R296, R297). -/
def execHkSlotQueued (slot : Nat) (s : State) : Host.Outcome State Fault Refusal :=
  match s.hk.delayed.find? fun e => decide (e.1 = slot) with
  | none => .next s
  | some e =>
    if s.pwr.ready.getLsbD 10 then
      let c := (slotOf s slot).converter
      let s0 := advanceTo e.2 { s with hk := { s.hk with delayed := s.hk.delayed.erase e } }
      let s1 := settleConv c s0
      let v := convOf s1 c
      .next (if slotBusy s1 slot then statAdd 0x1C slot 0 1 s1
        else setConv c { wakeConv s1 v with queue := enqueueSlot (e.2, slot) v.queue } s1)
    else .next s

/-- HK_POWER_DOWN: idle for more than 5 µs. -/
def execHkPowerDown (converter : Nat) (s : State) : Host.Outcome State Fault Refusal :=
  let v := convOf s converter
  if converter < 2 ∧ v.powered ∧ v.running.isNone ∧ v.orphan.isNone ∧ v.queue = [] then
    let s1 := advanceTo (v.since + (5 * usU : Nat)) s
    .next (setConv converter { v with powered := false } s1)
  else .next s

/-! ### Conversions (R297 to R303) -/

/-- A conversion that began at `since` has ended: 250 ns later. -/
def endConversion (c : Nat) (s : State) : State :=
  advanceTo (max (convOf s c).since (nowU s - (250 * nsU : Nat)) + (250 * nsU : Nat)) s

/-- The running slot, or the front of the queue taken up. -/
def takeSlot (c : Nat) (s : State) : Option (Nat × State) :=
  let v := convOf s c
  match v.running with
  | some n => some (n, s)
  | none =>
    match v.queue with
    | [] => none
    | (_, n) :: q =>
      let left := invalidAfter v.prev (slotOf s n).channel (slotOf s n).sub (slotOf s n).gain
      some (n, setConv c { v with queue := q, running := some n, sum := 0, taken := 0, spoiled := false, invalidLeft := left } s)

/-- One comparator on a valid result (R302). -/
def judgeWindow (slot value : Nat) (s : State) (k : Nat) : State :=
  let w := windowOf s k
  if !w.enable || decide (w.slot ≠ slot) then s
  else
    let inside := decide (w.low ≤ value ∧ value ≤ w.high)
    let set (b : Bool) (t : State) : State :=
      let w2 : Window := { w with armed := b }
      { t with hk := { t.hk with window := tset {} t.hk.window k w2 } }
    if inside then set true s
    else if w.armed then
      set false (raise 129 (leBytes 1 k ++ leBytes 1 slot ++ leBytes 2 value ++ leBytes 2 (if value < w.low then 1 else 2) ++ [0, 0]) s)
    else s

/-- A slot has taken its N conversions (R294, R299). -/
def storeResult (c n : Nat) (s : State) : State :=
  let v := convOf s c
  let x := slotOf s n
  let value := (rhe ((4 * v.sum : Nat) : Int) (Nat.max 1 x.avg)).toNat
  let fresh := decide (n ∈ s.hk.fresh)
  let good := !v.spoiled && !fresh
  let old := resultOf s n
  let s1 := setConv c { v with running := none, sum := 0, taken := 0, spoiled := false } { s with hk := { s.hk with fresh := s.hk.fresh.erase n } }
  if !good && decide (x.mode = 1) then statAdd 0x1C n 1 1 s1
  else
    let r : HkResult := { value := value, valid := good, count := (old.count + 1) % 2 ^ 32, time := nowU s1 }
    let s2 := { s1 with hk := { s1.hk with result := tset {} s1.hk.result n r } }
    if good then (List.range 32).foldl (judgeWindow n value) s2 else s2

/-- A path's overcurrent limit at a gain. -/
def ocLimit (s : State) (p gain : Nat) : Nat := Nat.min (tget 16383 s.hk.limit p * gain) 16383

/-- A conversion of a drain channel is over the limit of an enabled path (R303). -/
def overLimit (s : State) (ch gain code : Nat) : Bool :=
  decide (ch < 64) && s.hk.ocMask.getLsbD ch && decide (ocLimit s ch gain ≤ code)

/-- The urgent re-check at the same gain on the same converter, with code `code`: it follows at once (R303). -/
def recheck (c p gain code : Nat) (s : State) : State :=
  let s0 := advanceTo (nowU s + (250 * nsU : Nat)) s
  let s := setConv c { convOf s0 c with since := nowU s0 } s0
  if ocLimit s p gain ≤ code then
    let s1 := statAdd 0x1D p 0 1 { s with rf := { s.rf with ocPaths := s.rf.ocPaths ||| BitVec.twoPow 64 p } }
    raise 128 (leBytes 1 p ++ leBytes 1 c ++ leBytes 2 code ++ leBytes 2 (ocLimit s p gain) ++ leBytes 2 gain) (clearBias 5 p s1)
  else statAdd 0x1D p 1 1 s

/-- A conversion that a new configuration left running ends: its result is discarded (R295). -/
def endOrphan (c : Nat) (o : Orphan) (code rck : Nat) (s : State) : State :=
  let s1 := endConversion c s
  let s2 := setConv c { convOf s1 c with powered := true, since := nowU s1, prev := some (o.channel, o.sub, o.gain), orphan := none } s1
  if !o.invalid && overLimit s2 o.channel o.gain code then recheck c o.channel o.gain rck s2 else s2

/-- HK_CONVERSION_COMPLETE: one conversion of the running slot ends with `code`; `rck` is the code of the urgent re-check that an
over-limit conversion starts at once. -/
def execHkConversionComplete (converter code rck : Nat) (s : State) : Host.Outcome State Fault Refusal :=
  if converter < 2 ∧ s.pwr.ready.getLsbD 10 then
    match (convOf s converter).orphan with
    | some o => .next (endOrphan converter o (code % 16384) (rck % 16384) s)
    | none =>
      match takeSlot converter s with
      | none => .next s
      | some (n, t) =>
        let s0 := endConversion converter t
        let x := slotOf s0 n
        let v := convOf s0 converter
        let invalid := decide (0 < v.invalidLeft)
        let c := code % 16384
        let v1 : Conv := { v with powered := true, since := nowU s0, prev := some (x.channel, x.sub, x.gain), invalidLeft := v.invalidLeft - 1 }
        let v2 : Conv := if invalid && decide (x.mode = 1) then v1
          else { v1 with sum := v1.sum + c, taken := v1.taken + 1, spoiled := v1.spoiled || invalid }
        let s1 := setConv converter v2 s0
        let s2 := if v2.taken = x.avg then storeResult converter n s1 else s1
        .next (if !invalid && overLimit s2 x.channel x.gain c then recheck converter x.channel x.gain (rck % 16384) s2 else s2)
  else .next s

/-! ### `hk.read` (R301) -/

/-- Result record (Table 12-11). -/
def hkRecord (value valid channel count : Nat) (t : Instant) : List Byte :=
  leBytes 2 value ++ leBytes 1 valid ++ leBytes 1 channel ++ leBytes 4 count ++ leBytes 4 (wrapN 32 (secOf t)) ++ leBytes 4 (nsOf t)

/-- Record of slot n. -/
def slotRecord (s : State) (n : Nat) : List Byte :=
  let r := resultOf s n
  hkRecord r.value (b2n r.valid) (slotOf s n).channel r.count r.time

/-- Fields of `hk.read`. -/
def hkReadChecks (p : List Byte) : List (Nat × Bool) :=
  let op := u p 0 1
  let ch := u p 2 1
  if op = 2 then
    [inRange p 1 1 0 1, inRange p 2 1 0 127,
     (3, if 118 ≤ ch ∧ ch ≤ 121 then decide (u p 3 1 ≤ 19) else decide (u p 3 1 = 0)), (4, decide (u p 4 1 ∈ [1, 2, 4, 8])), isZero p 5 3]
  else [inRange p 0 1 1 2, isZero p 1 7]

/-- A host urgent conversion (R300, R301). -/
def urgent (p : List Byte) (code : Nat) (s : State) : Reply :=
  let s1 := urgentRun (u p 1 1) [(u p 2 1, u p 3 1, u p 4 1)] s
  ok (hkRecord (4 * (code % 16384)) 1 (u p 2 1) 0 (nowU s1)) s1

/-- `hk.read`; `code` is the code of the urgent conversion. -/
def hkReadBody (code : Nat) (a : Asker) (p : List Byte) (s : State) : Reply :=
  withLength [8] p s <|
  withFields (hkReadChecks p) s <|
  onDomain 10 a s fun s =>
    if u p 0 1 = 1 then ok ((List.range 64).flatMap (slotRecord s)) s else urgent p code s

def execHkRead (ring : Nat) (dma : List Byte) (code : Nat) (s : State) : Host.Outcome State Fault Refusal :=
  .next (runMessage 0x0806 ring dma (hkReadBody code) s)

end Sys2Proof.Machine
end

