-- ==== Sys2Proof/Machine/Integrity.lean ====
section
/-! DEFINITION. Leases and their revocation (R391, R392, R399), the scrubber (R387), the Rocker registers and the output digest
(R63, R390, R396 to R398). -/

namespace Sys2Proof.Machine

/-! ### Leases -/

/-- One record of `lease.status` (R399). -/
def leaseRecord (s : State) (e : Nat) : List Byte :=
  let l := leaseNow s e
  leBytes 1 e ++ leBytes 1 l.holder ++ leBytes 1 (b2n (decide (l.holder ≠ 0))) ++ leBytes 1 (Nat.min 255 l.wait.length) ++
    leBytes 2 (leaseMax e) ++ [0, 0] ++ leBytes 4 (leaseLeft s e) ++ leBytes 4 l.revokes

/-- `lease.status` (R399). -/
def leaseStatusBody (_a : Asker) (p : List Byte) (s : State) : Reply :=
  let e := u p 0 1
  withLength [4] p s <|
  withFields [(0, decide (e ≤ 23) || decide (e = 255)), isZero p 1 3] s <|
  ok (if e = 255 then (List.range 24).flatMap (leaseRecord s) else leaseRecord s e) s

def execLeaseStatus (ring : Nat) (dma : List Byte) (s : State) : Host.Outcome State Fault Refusal :=
  .next (runMessage 0x0D04 ring dma leaseStatusBody s)

/-- The lease whose hold an expiry ends: one that is held, or the NVM lease, which a write under way takes for each of its steps (R370). -/
def expiring (e : Nat) (s : State) : State :=
  let s1 := if e = 0 then queuePersists s else s
  if e = 0 ∧ (s1.nvm.jobs ≠ [] ∨ s1.nvm.fwOp.isSome) then requestLease e 1 s1 else s1

/-- The write that the NVM lease's revocation ends is a calibration's, which has tried it again already (R377). -/
def calGivesUp (entry : Nat) (s : State) : Bool :=
  decide (entry = 0) && s.cal.run.isSome && match s.nvm.jobs with | j :: _ => calRecord j.id && j.retried | [] => false

/-- LEASE_EXPIRY (R391, R392): the maximum hold of a held lease passes and the supervisor revokes it. -/
def execLeaseExpiry (entry : Nat) (s : State) : Host.Outcome State Fault Refusal :=
  let s1 := expiring entry s
  if 24 ≤ entry ∨ (leaseNow s1 entry).holder = 0 ∨ (leaseNow s1 entry).free.isSome then .next s
  else
    let s2 := revokeLease entry 1 (advanceSince (leaseNow s1 entry).granted (leaseMax entry * 1474560) s1)
    .next (if calGivesUp entry s1 then calLost s2 else s2)

/-- LEASE_RELEASE (R391): the holder gives the resource up. -/
def execLeaseRelease (entry : Nat) (s : State) : Host.Outcome State Fault Refusal :=
  if 24 ≤ entry ∨ (leaseNow s entry).holder = 0 then .next s else .next (releaseLease entry s)

/-! ### Scrubber (R387) -/

/-- A struck word holds its error for the consumer that reads it (R26): of the DPD banks (0), the dynamic weight memory, the Cabinet and
its tag store, the capture memory, the cores' local memory, Bureau memory and MRAM. The words of the section buffers 1 and 2 are struck
where they are read. -/
def strikeWord (s : State) (h : ScrubHit) : State :=
  if h.memory = 1 ∨ h.memory = 2 ∨ 8 < h.memory then s
  else
    let s := if h.memory = 8 ∧ h.double then strikeMram h.address s else s
    { s with ls := { s.ls with bad := h :: s.ls.bad.filter fun b => !(decide (b.memory = h.memory) && decide (b.address = h.address)) } }

/-- The scrubber reads a memory (R387): Cabinet and tag store (4), Bureau memory (7), the DPD banks (0). -/
def scrubbed (h : ScrubHit) : Bool := decide (h.memory = 4) || decide (h.memory = 7) || decide (h.memory = 0)

/-- The scrub reads a word with an error: counted and raised. The number of the DPD banks in the event is not stated (a free value). -/
def scrubMeet (s : State) (h : ScrubHit) : State :=
  let (m, s0) : Nat × State := if h.memory = 0 then takeFree s else (h.memory, s)
  raise (if h.double then 209 else 210) (det (m % 256) 2 0 0 h.address) (sramCount h.double h.memory s0)

/-- What a scrub leaves of an error: a corrected word has none any more; one that the scrub has not reached yet is met by the next. Of Bureau memory
only the slots of pigeonholes 0 to 7 hold words that this model reads (log 23). -/
def afterScrub (h : ScrubHit) : Option ScrubHit :=
  if !scrubbed h then some h
  else if h.met ∧ (!h.double ∨ (h.memory = 7 ∧ 32768 ≤ h.address)) then none
  else some { h with met := true }

/-- SCRUB (R387): the words struck since the last one, then the pass itself. -/
def execScrub (hits : List ScrubHit) (s : State) : Host.Outcome State Fault Refusal :=
  if s.pwr.mode = .reset then .next s
  else
    let s1 := hits.foldl strikeWord s
    let s2 := (s1.ls.bad.filter fun h => scrubbed h && h.met).foldl scrubMeet s1
    .next { s2 with ls := { s2.ls with bad := s2.ls.bad.filterMap afterScrub } }

/-! ### Rocker registers (R63, R396, R397) -/

/-- LC_STATE.DEBUG_EN (R402). -/
def debugEn (s : State) : Bool := s.life.debugEnable && !s.life.debugDisable

/-- Stages in which the Rocker registers take writes (R63). -/
def rockerOpen (s : State) : Bool :=
  decide (stageNow s = .manufacture) || (decide (stageNow s = .provisioned) && debugEn s)

/-- Writable bits of Rocker word k (Table 2-16). -/
def rockerMask (k : Nat) : Nat :=
  match k with | 0 => 1 | 1 => 0x3FFF | 2 => 0xF | 3 => 0xFF | 4 => 0xF3F | 5 => 0x7F | 6 => 0xFFFFFFFF | _ => 0

/-- Value stored for a write of Rocker word k: reserved bits dropped, fields held to their maximum (R63). -/
def rockerClamp (k v : Nat) : Nat :=
  match k with
  | 0 => v % 2
  | 1 => v % 256 + 256 * (if 38 < bits v 8 6 then 63 else bits v 8 6)
  | 2 => Nat.min 12 (v % 16)
  | 3 => Nat.min 200 (v % 256)
  | 4 => v % 64 + 256 * bits v 8 4
  | 5 => Nat.min 90 (v % 128)
  | _ => v % 2 ^ 32

/-- Rocker word k as read: 0 outside the stages of R63, PERMITTED set in them. -/
def rockerRead (s : State) (k : Nat) : Nat :=
  if rockerOpen s then tget 0 s.rk.reg k + (if k = 0 then 2 else 0) else 0

/-- Write of Rocker word k: ignored outside the stages of R63; ENABLE going from 0 to 1 loads the LFSR from SEED (R396). -/
def rockerWrite (k v : Nat) (s : State) : State :=
  if !rockerOpen s ∨ 7 ≤ k then s
  else
    let rises := decide (k = 0) && decide (tget 0 s.rk.reg 0 = 0) && decide (rockerClamp k v = 1)
    { s with rk := { s.rk with reg := tset 0 s.rk.reg k (rockerClamp k v), lfsr := if rises then tget 0 s.rk.reg 6 else s.rk.lfsr } }

/-! ### Digest (R390, R398) -/

/-- The 72 digests as `rocker.set` shows them: final ones when the digest is done, zeros when none was made, else values that
the manual leaves open (log 7). -/
def digestWords (s : State) : List Nat × State :=
  if s.rk.digest = 0 ∨ s.rk.digest = 3 then (tgetList 0 s.rk.crc 0 72, s)
  else ((List.range 72).map fun k => Config.freeValue (s.fresh + k) % 2 ^ 32, { s with fresh := s.fresh + 72 })

/-- Table 17-8. -/
def rockerReport (code : Nat) (s : State) : Reply :=
  let (w, s1) := digestWords s
  { st := s1, code := code, payload := ((List.range 7).flatMap fun k => leBytes 4 (rockerRead s k)) ++ leBytes 1 s.rk.digest ++
      [0, 0, 0] ++ leBytes 8 s.rk.start ++ leBytes 2 s.rk.frames ++ zeros 6 ++ w.flatMap (leBytes 4) }

/-- Fields of Table 17-7: reserved bits of the register words are 0, PERMITTED excepted. -/
def rockerChecks (p : List Byte) : List (Nat × Bool) :=
  ((List.range 7).map fun k =>
    let w := u p (4 * k) 4
    (4 * k, decide ((if k = 0 then w - 2 * bits w 1 1 else w) &&& rockerMask k = (if k = 0 then w - 2 * bits w 1 1 else w)))) ++
  [inRange p 28 1 0 2, isZero p 29 3, inRange p 40 2 0 100, isZero p 42 22]

/-- The digest action takes effect; a span of 0 frames is done at once with zero digests. -/
def digestAct (p : List Byte) (s : State) : State :=
  match u p 28 1 with
  | 1 => { s with rk := { s.rk with digest := if u p 40 2 = 0 then 3 else 1, start := u p 32 8, frames := u p 40 2, crc := [] } }
  | 2 => abortDigest s
  | _ => s

/-- `rocker.set` (R398): fields, then the digest part, then the register part. -/
def rockerSetBody (_a : Asker) (p : List Byte) (s : State) : Reply :=
  withLength [0, 64] p s <|
  if p.length = 0 then rockerReport 0 s
  else
    withFields (rockerChecks p) s <|
    if u p 28 1 = 1 ∧ (s.rk.digest = 1 ∨ s.rk.digest = 2) then err stBusy 0 s
    else if u p 28 1 = 1 ∧ (u p 32 8 : Int) * frameU < nowU s + msU then err stRefused 1 s
    else
      let s1 := digestAct p s
      if rockerOpen s then
        rockerReport 0 ((List.range 7).foldl (fun t k => rockerWrite k (u p (4 * k) 4) t) s1)
      else if (List.range 7).all fun k => decide (u p (4 * k) 4 = 0) then
        rockerReport 0 s1
      else rockerReport stState s1

def execRockerSet (ring : Nat) (dma : List Byte) (s : State) : Host.Outcome State Fault Refusal :=
  .next (runMessage 0x0903 ring dma rockerSetBody s)

/-- DIGEST_START: an armed digest begins at its start frame; the CRC registers are initialised. -/
def execDigestStart (s : State) : Host.Outcome State Fault Refusal :=
  if s.rk.digest ≠ 1 then .next s
  else
    let s1 := advanceTo ((s.rk.start : Int) * frameU) s
    .next { s1 with rk := { s1.rk with digest := 2, crc := tsetList 0 [] 0 (List.replicate 72 0xFFFFFFFF),
                                       next := tsetList 0 [] 0 (List.replicate 64 (tickOf ((s.rk.start : Int) * frameU))) } }

/-- UL message bytes queued on port n whose symbol lies in the span enter its digest (R390). The messages of the span's last symbols are
queued after its end: they go on into the digest that is done (DEDUCED, log 117), whose value is the register's complement. -/
def digestMessage (n : Nat) (air : Instant) (m : List Byte) (s : State) : State :=
  let flip := if s.rk.digest = 3 then 0xFFFFFFFF else 0
  if (s.rk.digest = 2 ∨ s.rk.digest = 3) ∧ (s.rk.start : Int) * frameU ≤ air ∧ air < digestEnd s then
    let c := Nat.xor (crcRun (Nat.xor (tget 0 s.rk.crc (64 + n)) flip) m) flip
    { s with rk := { s.rk with crc := tset 0 s.rk.crc (64 + n) c } }
  else s

/-- DIGEST_COMPLETE: the span ends and the digests are final: every tick before its end has been sent (R390). -/
def execDigestComplete (s : State) : Host.Outcome State Fault Refusal :=
  if s.rk.digest ≠ 2 then .next s
  else
    let fin := tickOf (digestEnd s)
    let s1 := (List.range 64).foldl (fun t p => digestZeros p fin (sendUpTo p fin t)) (advanceTo (digestEnd s) s)
    .next { s1 with rk := { s1.rk with digest := 3, next := [],
                                       crc := tsetList 0 [] 0 ((List.range 72).map fun n => Nat.xor (tget 0 s1.rk.crc n) 0xFFFFFFFF) } }

end Sys2Proof.Machine
end

