-- ==== Sys2Proof/Machine/Boot.lean ====
section
/-! DEFINITION. Reset (R420), the boot ROM (R422, R423, R407, R408), the READY handshake (R426, R371), firmware restart (R53, R76,
R393), and `sys.fw_image` (R425). -/

namespace Sys2Proof.Machine

/-! ### Firmware restart (R53, R76, R393) -/

/-- A replay entry of ring n has its final response: neither deferred nor that of a long operation still running. -/
def answeredEntry (s : State) (n : Nat) (r : Replay) : Bool :=
  decide (r.resp ≠ []) && !(s.ph.long.any fun e => decide (e.2.ring = n) && decide (e.2.hdr.seq = r.seq))

/-- The raise of the security-version counter is interrupted: within the time that it takes, it leaves a count between the old and the new value
(R408). -/
def cutRaise (s : State) : State :=
  match s.life.raising with
  | none => s
  | some (old, t) =>
    let s1 := { s with life := { s.life with raising := none } }
    if s.tm.raw - t < Config.raiseTicks then
      let (f, s2) := takeFree s1
      { s2 with life := { s2.life with secver := old + f % (s.life.secver - old + 1) } }
    else s1

/-- The answers that a restart loses: messages in execution, long operations, and what they had under way. Their entries leave the
replay windows, so that a message resent with the same number executes anew (DEDUCED, log 44). -/
def dropWork (s : State) : State :=
  let rings := (List.range 8).foldl (fun t n =>
    let g := ringOf t n
    setRing n { g with busy := false, window := g.window.filter (answeredEntry s n), head := if g.active then 0 else g.head, tail := if g.active then 0 else g.tail,
                       active := false } t) (cutRaise s)
  { rings with
    ph := { rings.ph with long := [] }, cfg := { rings.cfg with arming := none },
    nvm := { rings.nvm with jobs := [], ended := [], fwOp := none, patchValid := rings.nvm.patchValid && rings.nvm.fwOp.isNone },
    bf := { rings.bf with writes := [] }, bias := { rings.bias with release := [] } }

/-- Customer kernels end with the restart: the images are lost and the slots read empty (R252). -/
def dropKernels (s : State) : State :=
  { s with core := (List.range 8).foldl (fun t c => tset {} t c { tget {} t c with slot := [], cur := 2 }) s.core }

/-- Every ring's expected sequence becomes unset (R46, R393). -/
def unsetSequences (s : State) : State := (List.range 16).foldl (fun t k => setRing k { ringOf t k with expect := none } t) s

/-- Aethiq is restarted: running long operations are abandoned without their final responses, an armed commit is cancelled,
and READY reads 0 until `sys.ready`. The datapath, the timebase and the protections run on. -/
def restartFirmware (s : State) : State :=
  let s2 := stopTest false (testLoss (stopCal false (cancelArmed 6 s)))
  let s3 := unsetSequences (dropKernels (dropWork s2))
  let s4 := { s3 with sys := { s3.sys with ready := false } }
  if (s4.pwr.mode = .calibrate ∨ s4.pwr.mode = .selfTest) ∧ !protecting s4 then returnMode s4 else s4

/-- WATCHDOG_EXPIRY (R393): no kick for 20 ms. -/
def execWatchdogExpiry (s : State) : Host.Outcome State Fault Refusal :=
  if s.boot.started && s.pwr.ready.getLsbD 1 && decide (s.pwr.mode ≠ .reset) && !s.sys.halted then
    let n := satAdd 0xFFFFFFFF s.sys.restarts 1
    let s1 := { s with sys := { s.sys with halted := true, restarts := n, bootCause := 3 } }
    let d := det 1 0 0 0 (Nat.min 255 n)
    let s2 := raise 1 d (raise 211 d s1)
    let s3 := stopCal false { s2 with nvm := { s2.nvm with jobs := s2.nvm.jobs.map fun j => { j with asker := none } },
                                      bf := { s2.bf with writes := [] } }
    let s4 := restartFirmware (revokeHolder 1 3 (revokeWrites 3 (queuePersists s3)))
    .next (writeLog 2 d s4)
  else .next s

/-! ### Reset (R420) -/

/-- What a reset leaves of an adaptation pair (R227). -/
def keptCommits (t : Tbl Adapt) (e : Nat × Adapt) : Tbl Adapt := tset {} t e.1 { commits := e.2.commits, lastAir := e.2.lastAir }

/-- What a reset leaves (R420, R316, R349, R350, R363, R364, R334): every other field at its power-on value, in RESET with AO alone
powered. The statistics records and the commit counts of adaptation (R227) lie in retained memory; a power cycle zeroes them. A commit
that was armed leaves no outcome: `cfg.read` answers 0, none, for the last one (DESIGN CHOICE, log 99). -/
def afterReset (cause : Nat) (s : State) : State :=
  let held := holdPads (padsOfOff s.pwr.on) s
  let fresh : State := {}
  { fresh with
    tm := { fresh.tm with raw := s.tm.raw },
    th := { fresh.th with demandAt := s.th.demandAt, period := s.th.period, cfg := s.th.cfg, acting := s.th.cfg, latch := s.th.latch, latchRec := s.th.latchRec, lastTrip := s.th.lastTrip,
                          faults := s.th.faults, trips := s.th.trips, latches := s.th.latches },
    sys := { fresh.sys with restarts := s.sys.restarts, bootCount := s.sys.bootCount, bootCause := cause },
    pwr := { fresh.pwr with mode := .reset, on := 1, ready := 1, en := 0, pg := 0, since := s.tm.raw, refs := s.pwr.refs,
                            aborted := s.pwr.aborted, refCount := s.pwr.refCount, refIndex := s.pwr.refIndex, refTotal := s.pwr.refTotal },
    life := { s.life with result := 0, nonce := s.life.nonce + 1 },
    nvm := { s.nvm with jobs := [], ended := [], fwOp := none },
    clk := { fresh.clk with switches := s.clk.switches },
    em := { fresh.em with held := held.em.held, powered := s.em.powered }, rf := { fresh.rf with padLatch := held.rf.padLatch, level := held.rf.padLatch },
    bias := { fresh.bias with straps := s.bias.straps, paClearLow := s.bias.paClearLow },
    ls := { fresh.ls with sec := s.ls.sec, ded := s.ls.ded, bad := s.ls.bad.filter fun h => decide (h.memory = 8) },
    test := { fresh.test with block := s.test.block },
    lin := { fresh.lin with adapt := s.lin.adapt.foldl keptCommits [] },
    boot := { fresh.boot with inReset := true, resetLow := s.boot.resetLow }, stat := s.stat, out := s.out, fresh := s.fresh, pending := s.pending }

/-- A reset of the device: what was under way is abandoned, and RESET is entered. -/
def deviceReset (cause : Nat) (s : State) : State :=
  afterReset cause (dropWork (stopTest false (drainPorts s)))

/-- Release of reset, t0 (R420): straps are sampled, the always-on logic starts and PWR_EN[0] rises. A set latch returns the
device to THERMAL-LATCH (R363). -/
def releaseReset (straps : BitVec 8) (s : State) : State :=
  let s1 := { s with bias := { s.bias with straps := straps }, boot := { s.boot with inReset := false, t0 := s.tm.raw },
                     pwr := { s.pwr with en := s.pwr.en ||| 1, since := s.tm.raw } }
  if s.th.latch then
    let t := enterMode .thermalLatch 6 0 0 s1
    { t with pwr := { t.pwr with en := s1.pwr.en, pg := s1.pwr.pg } }
  else s1

/-- A reset that releases at once: `sys.reset` with scope 1, a lifecycle command, an FRC that fails. -/
def resetNow (cause : Nat) (s : State) : State := releaseReset s.bias.straps (deviceReset cause s)

/-- State of a device whose supplies have been off: everything at power-on values but what non-volatile cells hold. -/
def powerOff (latch : Bool) (s : State) : State :=
  let r := afterReset 0 (dropWork (stopTest false (drainPorts s)))
  let fresh : State := {}
  { r with
    tm := fresh.tm, th := { fresh.th with latch := latch && s.th.latch, latchRec := if latch then s.th.latchRec else {} },
    sys := { fresh.sys with bootCount := s.sys.bootCount }, clk := fresh.clk, em := fresh.em, rf := fresh.rf,
    ls := { fresh.ls with bad := r.ls.bad },
    test := fresh.test, stat := [], lin := fresh.lin, nvm := { r.nvm with logSecond := 0, logCount := 0 },
    life := { r.life with ir := 0, lcCmd := [] },
    pwr := { r.pwr with since := 0, aborted := 0, refs := [], refCount := [], refIndex := 0, refTotal := 0 },
    boot := { r.boot with supplyBad := true } }

/-- POWER_ON_RESET (R420): the supplies have been good for 200 µs and reset is released, unless RESET_N holds the device. -/
def execPowerOnReset (straps : BitVec 8) (s : State) : Host.Outcome State Fault Refusal :=
  let s1 := { s with boot := { s.boot with supplyBad := false } }
  if s.boot.supplyBad then .next (if s.boot.resetLow then s1 else releaseReset straps s1) else .next s

/-- RESET_N (R420): low for 1 µs; the device stays in RESET until the release. -/
def execResetN (s : State) : Host.Outcome State Fault Refusal :=
  let s1 := { s with boot := { s.boot with resetLow := true } }
  if s.boot.supplyBad then .next s1 else .next (deviceReset 1 s1)

/-- RESET_N_RELEASE (R420): RESET_N is high again; reset is released where the supplies are good. -/
def execResetNRelease (straps : BitVec 8) (s : State) : Host.Outcome State Fault Refusal :=
  let s1 := { s with boot := { s.boot with resetLow := false } }
  if s.boot.inReset && !s.boot.supplyBad then .next (releaseReset straps s1) else .next s1

/-- POWER_CYCLE (R363, R420): VDD_AO below 0.5 V for at least 10 ms; the latch is lost. -/
def execPowerCycle (s : State) : Host.Outcome State Fault Refusal := .next (powerOff false s)

/-- VDD_AO_DIP (R363): a shorter loss of VDD_AO, which the AO latch survives. -/
def execVddAoDip (s : State) : Host.Outcome State Fault Refusal := .next (powerOff true s)

/-- FRC_MONITOR_TRIP (R308): the FRC has failed and the supervisor resets the device, with boot cause 3. -/
def execFrcMonitorTrip (s : State) : Host.Outcome State Fault Refusal :=
  if s.boot.inReset ∨ s.pwr.mode = .reset then .next s else .next (resetNow 3 s)

/-- PG0_RETRY (R420): 100 ms after a PG[0] timeout PWR_EN[0] rises again. -/
def execPg0Retry (s : State) : Host.Outcome State Fault Refusal :=
  if s.pwr.mode = .reset ∧ !s.boot.inReset ∧ s.pwr.en = 0 then
    let s1 := advanceSince s.pwr.since (100 * 1474560) s
    .next { s1 with pwr := { s1.pwr with en := 1, since := s1.tm.raw } }
  else .next s

/-! ### Boot ROM (R422) -/

/-- A patch region's bytes as an image (R408): verdicts on its header. -/
def headerOf (b : List Byte) (s : State) : FwHeader :=
  let n := u b 16 4
  { headerOk := decide (slice b 0 4 = ascii "AETH") && decide (u b 4 2 = 128) && decide (4 ≤ n ∧ n ≤ 4194304 ∧ n % 4 = 0),
    keyIndex := u b 6 1, raiseVersion := (u b 7 1).testBit 0, securityVersion := u b 8 4, version := u b 12 4,
    digestOk := decide (Config.sha384 (slice b 32 96) = Config.sha384 (Config.omquelKey (u b 6 1))),
    signatureOk := Config.signatureOk (slice b 32 96) (slice b 0 (127 + n)) (slice b (128 + n) 96) && decide (s.life.secver ≤ u b 8 4) }

/-- The checks of R408. -/
def imageOk (h : FwHeader) (s : State) : Bool :=
  h.headerOk && decide (h.keyIndex < 4) && !s.life.revoked.getLsbD h.keyIndex && h.digestOk &&
    decide (s.life.secver ≤ h.securityVersion) && h.signatureOk

/-- The first bytes of the patch region. -/
def patchBytes (s : State) : List Byte := tgetList 0 s.nvm.patch 0 1048576

/-- Words of the patch region that its image fills, from word 0xB8000 of the MRAM on (Table 16-1). -/
def patchWords (s : State) : Nat := Nat.min 0x20000 (ceilN (224 + u (patchBytes s) 16 4) 8)

/-- A patch that verifies, no word of it reading with a double-bit error: its header and base version (R425, R367). -/
def goodPatch (s : State) : Option (FwHeader × Nat) :=
  let b := patchBytes s
  let n := u b 16 4
  let h := headerOf b s
  if imageOk h s ∧ 224 + n ≤ 1048576 ∧ !mramStruck 0xB8000 (patchWords s) s then some (h, u b 128 4) else none

/-- The image in the patch region is read. -/
def readPatch (s : State) : State := readMram 0 0 0xB8000 (patchWords s) s

/-- Detail of EV_SIG_FAIL (Table 18-10). -/
def sigDetail (which key sec ver : Nat) : List Byte := detH which key sec ver

/-- Firmware not running, the boot ROM sets the status bit of EV_SIG_FAIL with its occurrence, and counts nothing (DESIGN CHOICE, log 94). -/
def sigFailBit (d : List Byte) (s : State) : State :=
  if s.ev.status.getLsbD 227 then s
  else { s with ev := { s.ev with status := s.ev.status ||| BitVec.twoPow 256 227, occ := tset {} s.ev.occ 227 ⟨nowU s, d⟩ } }

/-- Zeroing of the first boot in a new stage (R407): the copies that read as empty, and words without an error. -/
def zeroRecords (s : State) : State :=
  let keep (id : Nat) : Bool :=
    if stageNow s = .scrapped then decide (id ≤ 0x0104)
    else !(decide (id = 0x0301) || decide (id = 0x0401) || (decide (0x0210 ≤ id) && decide (id ≤ 0x021F)))
  let n : Nvm := { s.nvm with copy := s.nvm.copy.filter fun e => keep (e.1 / 2) }
  let scrap : Nvm := { n with writes := [], paths := [], patch := [], patchValid := false, patchFresh := true }
  let words (a b : Nat) (t : State) : State := cleanWords 8 (a / 8) ((b - a) / 8) t
  let boards (w : Nat) : State → State := words (slotBase 0x0210 w) (slotBase 0x0210 w + 0x20000)
  let s1 := if stageNow s = .scrapped then words 0x80000 0x580000 (words 0x5C0000 0x800000 s)
            else words 0x180000 0x580000 (boards 0 (boards 1 s))
  { s1 with nvm := if stageNow s = .scrapped then scrap else n, life := { s1.life with zero := false } }

/-- Domains and regulators of BOOT with the power map just read: an enable that the map does not use is held low (R344, R422). -/
def bootDomains (s : State) : State :=
  let map := (recordData s 0x0204).map mapOf
  let s1 := { s with pwr := { s.pwr with map := map }, boot := { s.boot with romDone := true } }
  let want := enablesFor s1 (modeDomains s1 .boot)
  let s2 := { s1 with pwr := { s1.pwr with en := s1.pwr.en &&& want, pg := s1.pwr.pg &&& want } }
  let on := reachable s2 .boot
  raiseNext want { s2 with pwr := { s2.pwr with on := on, ready := on } }

/-- Aethiq starts with an image: version, patch, the oscillators of the clock record or of the default search, and the domains of STANDBY
(R424). -/
def startAethiq (h : FwHeader) (fail : Option (Nat × Nat × Nat)) (s : State) : State :=
  let s1 := { s with boot := { s.boot with romDone := true, started := true, image := some h, sigFail := fail },
                     sys := { s.sys with idFw := h.version, bootCount := (s.sys.bootCount + 1) % 2 ^ 32 } }
  let s2 := if s1.nvm.patchValid then
      (match goodPatch s1 with
      | some (p, base) =>
        if base = h.version then { s1 with boot := { s1.boot with patched := true }, sys := { s1.sys with idFw := p.version } }
        else sigFailBit (sigDetail 2 p.keyIndex p.securityVersion p.version) s1
      | none => let p := headerOf (patchBytes s1) s1
                sigFailBit (sigDetail 2 p.keyIndex p.securityVersion p.version) s1)
    else s1
  let s2 := if s1.nvm.patchValid then readPatch s2 else s2
  powerMode (match recordData s2 0x0203 with
  | some r =>
    let s3 := { s2 with clk := { s2.clk with sources := fitBytes 32 r } }
    [0, 1].foldl (fun t k => if oscMode t k = 0 then t else setOsc k 1 t) s3
  | none =>
    let src : List Byte := [0, 0, 0, 0] ++ zeros 8 ++ leBytes 2 1000 ++ leBytes 2 920 ++ [0, 11, 1] ++ zeros 13
    searchTry 0 2 { s2 with clk := { s2.clk with sources := src } })

/-- Step 4 of the boot ROM (R422): XSPI_RESET_N is pulsed, SFDP read at 1S-1S-1S, and the flash used as it declares. -/
def openFlash (octal : Bool) (s : State) : State :=
  { s with boot := { s.boot with xspi := if octal then .octal else .serial }, out := s.out ++ [.xspiReset] }

/-- BOOT_ROM (R422, R423): from BOOT entry to the start of Aethiq; the headers are those of flash slots 0 and 1 with the verdicts
on their bodies. Where neither boots, the xSPI pins are released. -/
def execBootRom (flash : BootFlash) (slot1 : FwHeader) (s : State) : Host.Outcome State Fault Refusal :=
  if s.pwr.mode ≠ .boot ∨ s.boot.romDone then .next s
  else
    let s1 := bootDomains s
    let s2 := if s1.life.zero then zeroRecords s1 else s1
    if stageNow s2 = .scrapped then
      let off := s2.pwr.on &&& ~~~(1 : BitVec 20)
      let s3 := loseDomains off s2
      .next { s3 with pwr := { s3.pwr with on := 1, ready := 1, en := 0, pg := 0 }, boot := { s3.boot with romDone := true } }
    else
      let slot0 := flash.slot0
      let s2 := openFlash flash.octal s2
      if imageOk slot0 s2 then .next (startAethiq slot0 none s2)
      else
        let f := if slot0.headerOk then (slot0.keyIndex, slot0.securityVersion, slot0.version) else (0, 0, 0)
        let s3 := sigFailBit (sigDetail 1 f.1 f.2.1 f.2.2) s2
        if imageOk slot1 s2 then .next (startAethiq slot1 (some f) s3)
        else .next { s3 with boot := { s3.boot with romDone := true, xspi := .released } }

/-! ### READY (R426) -/

/-- Payload of `sys.ready` and of the response to `sys.hello` (Table 2-8). -/
def helloBytes (s : State) : List Byte :=
  leBytes 4 1 ++ leBytes 4 s.sys.idFw ++ leBytes 4 s.cfg.epoch ++ leBytes 1 (modeCode s.pwr.mode) ++
    leBytes 1 (stageCode (stageNow s)) ++ leBytes 1 s.sys.bootCause ++ [0]

/-- Firmware reads both copies of every record (R371). -/
def readRecords (s : State) : State :=
  (recordIds.flatMap fun id => [(id, 0), (id, 1)]).foldl (fun t e =>
    let c := copyOf t e.1 e.2
    let t := readCopy e.1 e.2 t
    if copyState e.1 c = 2 then
      writeLog 6 (leBytes 2 e.1 ++ leBytes 1 e.2 ++ [1] ++ leBytes 4 c.seq) (recordInvalid e.1 e.2 1 t)
    else t) s

/-- Next log sequence: one above the highest valid one (R381), modulo 2^32. -/
def nextLog (s : State) : Nat :=
  ((goodLog s).map fun e => u e.2 0 4).foldl
    (fun a k => if a = 0 ∨ seqHigher (k + 1) a then (k + 1) % 2 ^ 32 else a) 0

/-- What a boot loads before `sys.ready`: banks, Cabinet, calibration, bias defaults. -/
def loadAtBoot (s : State) : State :=
  let s1 := loadCal (loadCabinet (loadBanks (readMram 0 0 0xB0000 0x8000 { s with nvm := { s.nvm with logNext := nextLog s } })))
  match recordData s1 0x0202 with
  | some r => applyDefaults r true s1
  | none => s1

/-- A firmware notice (Table 2-9c). -/
def notice (code arg : Nat) (s : State) : State := raise 240 (det code 0 0 0 arg) s

/-- What firmware reports once, after the first `sys.ready` of a boot (R59, R404, R408, R423). -/
def bootNotices (s : State) : State :=
  let s1 := if s.boot.patched then notice 2 s.sys.idFw s else s
  let khzOf := if s1.clk.active < 2 then u s1.clk.sources (4 + 4 * s1.clk.active) 4 / 1000 else 0
  let s2 := if (recordData s1 0x0203).isNone then notice 4 khzOf s1 else s1
  let s3 := if s2.pwr.map.isNone then notice 5 0 s2 else s2
  let s4 := if s3.bias.valid then s3 else notice 6 0 s3
  let s5 := match s4.boot.sigFail with
    | some (k, v, f) => raise 227 (sigDetail 1 k v f) { s4 with boot := { s4.boot with sigFail := none } }
    | none => s4
  let s6 := match s5.life.event with
    | some (a, b, c) => raise 226 (detH a b c 0) { s5 with life := { s5.life with event := none } }
    | none => s5
  match s6.boot.image with
  | some h =>
    let v := Nat.min 64 h.securityVersion
    if h.raiseVersion ∧ s6.life.secver < v then
      notice 3 v { s6 with life := { s6.life with secver := v, raising := some (s6.life.secver, s6.tm.raw) } }
    else s6
  | none => s6

/-- READY is set, EV_READY raised and `sys.ready` posted. -/
def announce (s : State) : State :=
  let s1 := { s with sys := { s.sys with ready := true, halted := false } }
  sendDevice 8 0x0100 (helloBytes s1) (raise 0 (det s1.sys.bootCause (modeCode s1.pwr.mode) 0 0 s1.sys.idFw) s1)

/-- End of a boot in the mode that it has come to. -/
def endBoot (s : State) : State :=
  let s1 := { s with boot := { s.boot with booted := true } }
  bootNotices (announce (writeLog 1 (det s1.sys.bootCause (modeCode s1.pwr.mode) 0 0 s1.sys.idFw) s1))

/-- SYS_READY (R426): at a boot once the oscillators have settled and the domains of the mode to come are powered, those apart whose regulator
is not good within its timeout (R424), or after a restart of the firmware. A boot during which a protection fault has led into SAFE-HOLD ends
there, after M. -/
def execSysReady (s : State) : Host.Outcome State Fault Refusal :=
  if !s.boot.started ∨ s.sys.ready ∨ !s.pwr.ready.getLsbD 1 then .next s
  else if s.pwr.mode = .boot then
    match settledMode s with
    | none => .next s
    | some m =>
      if protecting s then .next s
      else if modeDomains s m &&& ~~~(s.pwr.on ||| s.pwr.heldOff) ≠ 0 then .next (powerMode s)
      else .next (endBoot (enterMode m 6 0 0 (readRecords (loadAtBoot s))))
  else if !s.boot.booted then .next (endBoot (readRecords (loadAtBoot s)))
  else .next (readPorts (announce (readRecords s)))

/-! ### `sys.fw_image` (R425) -/

/-- Fields of Table 19-5. -/
def fwChecks (p : List Byte) : List (Nat × Bool) :=
  let w := decide (u p 0 1 = 1)
  let o := u p 4 4
  let n := u p 8 4
  [inRange p 0 1 1 3, isZero p 1 3,
   (4, if w then decide (o ≤ 1048572 ∧ o % 4 = 0) else decide (o = 0)),
   (8, if w then decide (n ≤ 16336 ∧ n % 4 = 0 ∧ o + n ≤ 1048576) else decide (n = 0)), isZero p 12 4]

/-- `sys.fw_image` (R425). -/
def fwImageBody (a : Asker) (p : List Byte) (s : State) : Reply :=
  if p.length < 16 ∨ p.length ≠ 16 + u p 8 4 then err stBadLength 8 s
  else withFields (fwChecks p) s <|
    if longRunning .fwImage s then err stBusy 0 s
    else onDomain 2 a s fun s =>
      accepted .fwImage { s with nvm := { s.nvm with fwOp := some (u p 0 1, u p 4 4, p.drop 16) } }

def execSysFwImage (ring : Nat) (dma : List Byte) (s : State) : Host.Outcome State Fault Refusal :=
  .next (runMessage 0x0104 ring dma fwImageBody s)

/-- A finished operation on the patch region. -/
def fwDone (op off : Nat) (data : List Byte) (s : State) : State :=
  match op with
  | 1 =>
    finishLong .fwImage 0 0 [] (patchWrite off data s)
  | 2 =>
    let s1 := readPatch { s with nvm := { s.nvm with patchFresh := true, patchValid := (goodPatch s).isSome } }
    (match goodPatch s with
    | some (h, base) => finishLong .fwImage 0 0 (leBytes 4 h.version ++ leBytes 4 h.securityVersion ++ leBytes 4 base) s1
    | none => finishLong .fwImage stIntegrity 0 [] s1)
  | _ => finishLong .fwImage 0 0 [] (cleanWords 8 0xB8000 0x20000 { s with nvm := { s.nvm with patch := [], patchFresh := true, patchValid := false } })

/-- FW_IMAGE_COMPLETE (R425): a revoked lease, or a cut, leaves the region without a valid patch. -/
def execFwImageComplete (e : LongEnd) (s : State) : Host.Outcome State Fault Refusal :=
  match s.nvm.fwOp with
  | none => .next s
  | some (op, off, data) =>
    let s1 := { s with nvm := { s.nvm with fwOp := none } }
    let bad := { s1 with nvm := { s1.nvm with patchValid := false } }
    match e with
    | .done => .next (fwDone op off data s1)
    | .leaseRevoked => .next (revokeStep (finishWrites 0 false s.nvm.jobs s))
    | .cutShort => .next (finishLong .fwImage stIncomplete 0 [] bad)

end Sys2Proof.Machine
end

