-- ==== Sys2Proof/Machine/TestLife.lean ====
section
/-! DEFINITION. Self-test messages (R410 to R417) and the JTAG lifecycle commands (R402 to R407). -/

namespace Sys2Proof.Machine

/-! ### `test.run` (R415) -/

/-- Fields of Table 18-9. -/
def testChecks (p : List Byte) : List (Nat × Bool) :=
  if u p 0 1 = 2 then [isZero p 1 (p.length - 1)]
  else
    let t := u p 2 2
    let n := u p 6 2
    [inRange p 0 1 1 2, inRange p 1 1 0 1, (2, decide (t ≠ 0 ∧ t < 64) && !(t.testBit 0 && t.testBit 1)),
     (4, decide (50 ≤ u p 4 2 ∧ u p 4 2 ≤ 2000) || decide (u p 4 2 = 0xFFFF)),
     (6, if t.testBit 1 then decide (1 ≤ n ∧ n ≤ 64) else decide (n = 0)),
     (8, decide (u p 8 8 ≠ 0) == t.testBit 2), (16, decide (u p 16 8 ≠ 0) == t.testBit 3),
     (24, if t.testBit 4 then decide (1 ≤ u p 24 1 ∧ u p 24 1 ≤ 15) else decide (u p 24 1 = 0)), isZero p 25 15] ++
    (List.range n).flatMap fun k =>
      [inRange p (40 + 4 * k) 2 0 399, inRange p (42 + 4 * k) 1 0 63,
       (43 + 4 * k, decide (1 ≤ u p (43 + 4 * k) 1) && decide (u p (43 + 4 * k) 1 ≤ 64 - u p (42 + 4 * k) 1))]

/-- Reachability (R410, Table 18-6): the stage, and for a run that stays in STANDBY the mode and the domains; SELF-TEST is reached
by the transition of row 9, checked last (R415). -/
def testReachable (p : List Byte) (s : State) : Bool :=
  let t := u p 2 2
  let g := stageNow s
  let stage := decide (g ≠ .scrapped) &&
    (!t.testBit 0 || decide (g = .blank ∨ g = .manufacture ∨ g = .return_) || (decide (g = .provisioned) && debugEn s))
  let idle := (testSlices p).all fun e => !(domainMask .standby 0).getLsbD (partitionDomain e.1)
  stage && (decide (u p 1 1 = 1) || (decide (s.pwr.mode = .standby) && !t.testBit 0 && decide (bits t 2 3 = 0) && idle))

/-- The request that asked for a mode leaves the queue. -/
def unqueue (t : Mode) (s : State) : State :=
  match s.pwr.queued with
  | some q => if q.target = t then { s with pwr := { s.pwr with queued := none } } else s
  | none => s

/-- With no run left the device starts back to STANDBY, or the transition into SELF-TEST is undone or no longer waits. -/
def leaveTest (s : State) : State :=
  if s.test.run.isSome then s
  else match s.pwr.trans with
    | some t => if t.target = .selfTest then runQueue (undoTrans t s) else unqueue .selfTest s
    | none => if s.pwr.mode = .selfTest then servoLost 3 (returnMode s) else s

/-- A run that stays in STANDBY begins: its slices' domains lose what R334 does not retain, are powered, and are isolated for test (R411). -/
def startSlices (s : State) : State :=
  let d := testDomains s
  let s1 := (bitList d.toNat 20).foldl (fun t k => wakeDomain k t) (loseContents d s)
  powerMode { s1 with pwr := { s1.pwr with ready := s1.pwr.ready &&& ~~~d } }

/-- `test.run` (R415): action 2 aborts; a run in SELF-TEST starts the transition of row 9 under R338, queued behind one in
flight (R341). -/
def testRunBody (_a : Asker) (p : List Byte) (s : State) : Reply :=
  if p.length < 40 ∨ p.length ≠ 40 + 4 * u p 6 2 then err stBadLength 8 s
  else withFields (testChecks p) s <|
    if u p 0 1 = 2 then { st := stopTest true (testLoss s), post := leaveTest }
    else if !testReachable p s then err stState 0 s
    else if s.test.run.isSome ∨ s.cal.run.isSome then err stBusy 0 s
    else
      let run (t : State) : Reply := accepted .testRun { t with test := { t.test with run := some p, start := s.tm.raw } }
      if u p 1 1 = 0 then
        let r := run s
        { r with st := startSlices r.st }
      else if s.pwr.trans.isSome then run (queueRequest { target := .selfTest } s)
      else match refusalOf .selfTest s with
        | some (n, nm) => pwrRefused n nm .selfTest s
        | none => run (startTrans .selfTest 5 0 { target := .selfTest } s)

def execTestRun (ring : Nat) (dma : List Byte) (s : State) : Host.Outcome State Fault Refusal :=
  .next (runMessage 0x0901 ring dma testRunBody s)

/-- TEST_COMPLETE (R416): every named test has been decided; a run in SELF-TEST goes back, and the servo requalifies (R415). -/
def execTestComplete (r : TestResult) (s : State) : Host.Outcome State Fault Refusal :=
  match s.test.run with
  | none => .next s
  | some req =>
    if u req 1 1 = 0 then .next (endTest false true r s)
    else if s.pwr.mode = .selfTest ∧ s.pwr.trans.isNone then
      .next (servoLost 3 (returnMode (endTest false true r (testLoss s))))
    else .next s

/-- `test.status` (R416). -/
def testStatusBody (_a : Asker) (p : List Byte) (s : State) : Reply :=
  withLength [0] p s (ok (leBytes 1 (b2n s.test.run.isSome) ++ [0, 0, 0] ++ fitBytes 1084 s.test.block) s)

def execTestStatus (ring : Nat) (dma : List Byte) (s : State) : Host.Outcome State Fault Refusal :=
  .next (runMessage 0x0902 ring dma testStatusBody s)

/-! ### Lifecycle commands (R402 to R407) -/

/-- Prime and constant of the curve P-384 (FIPS 186-5, PRESUMED from the standard that R408 names). -/
def p384 : Nat := 2 ^ 384 - 2 ^ 128 - 2 ^ 96 + 2 ^ 32 - 1
def b384 : Nat := 0xB3312FA7E23EE7E4988E056BE3F82D19181D9C6EFE8141120314088F5013875AC656398D8A2ED19D2A85C8EDD3EC2AEF

/-- A point given as X then Y, big-endian, lies on the curve. -/
def onCurve (key : List Byte) : Bool :=
  let x := leNat (slice key 0 48).reverse
  let y := leNat (slice key 48 48).reverse
  decide (x < p384) && decide (y < p384) && decide (y * y % p384 = (x * x * x + (p384 - 3) * x + b384) % p384)

/-- State of a key slot (R406): 0 empty, 1 valid, 2 spoilt. -/
def slotState (k : KeySlot) : Nat :=
  let c := fitBytes 100 k.cells
  if c.all fun x => decide (x = 0) then 0 else if crc32c (c.take 96) = leNat (c.drop 96) then 1 else 2

/-- Key that a slot's cells hold. -/
def keyOfSlot (k : KeySlot) : List Byte := fitBytes 96 (k.cells.take 96)

/-- The key in force: the valid slot with the lower index (R406). -/
def keyInForce (s : State) : Option (List Byte) :=
  if slotState s.life.key0 = 1 then some (keyOfSlot s.life.key0)
  else if slotState s.life.key1 = 1 then some (keyOfSlot s.life.key1) else none

/-- A valid slot holds the key. -/
def keyHeld (key : List Byte) (s : State) : Bool :=
  [s.life.key0, s.life.key1].any fun k => decide (slotState k = 1) && decide (keyOfSlot k = key)

/-- The stage a command leads from and to (Table 18-2); none where it is not permitted from this stage. -/
def stageChange (cmd : Nat) (s : State) : Option Stage :=
  match cmd, stageNow s with
  | 1, .blank => if (recordData s 0x0101).isSome then some .manufacture else none
  | 2, .manufacture => some .provisioned
  | 3, .provisioned => some .field
  | 4, .field => some .return_
  | 5, .scrapped => none
  | 5, _ => some .scrapped
  | 6, .provisioned => if debugEn s then some .provisioned else none
  | _, _ => none

/-- Fields that must be 0 for the command (Table 18-3). -/
def blockClean (cmd : Nat) (b : List Byte) : Bool :=
  let z (o n : Nat) : Bool := (slice b o n).all fun x => decide (x = 0)
  (if cmd = 2 then decide (u b 1 1 < 2) else z 1 1) && z 2 2 && (decide (cmd = 4) || z 12 16) && (decide (cmd = 2) || z 28 96) &&
    (decide (cmd = 4) || z 124 96)

/-- Result of a command block in the order of Table 18-4: 0 accepted. `free` stands for the code of a block whose reserved
fields are not 0, which the table does not give (log 7). -/
def blockResult (cmd free : Nat) (b : List Byte) (s : State) : Nat :=
  if crc32c (b.take 220) ≠ leNat (slice b 220 4) then 2
  else if cmd = 0 ∨ 6 < cmd then 3
  else if !blockClean cmd b then free
  else if (stageChange cmd s).isNone then 3
  else if u b 4 8 ≠ Config.uid.toNat then 4
  else if cmd = 4 ∧ slice b 12 16 ≠ fitBytes 16 (Config.nonce s.life.nonce) then 5
  else if cmd = 2 ∧ !onCurve (slice b 28 96) then 6
  else if cmd = 2 ∧ (keyInForce s).isSome ∧ !keyHeld (slice b 28 96) s then 7
  else if cmd = 2 ∧ (keyInForce s).isNone ∧ slotState s.life.key0 ≠ 0 ∧ slotState s.life.key1 ≠ 0 then 8
  else if cmd = 4 ∧ (keyInForce s).isNone then 8
  else if cmd = 4 ∧ !Config.signatureOk ((keyInForce s).getD []) (ascii "RTRN" ++ slice b 4 8 ++ slice b 12 16) (slice b 124 96) then 9
  else if s.pwr.mode = .thermalLatch then 10 else 0

/-- Cells of a slot that is to hold the key of a block: the key, then its CRC (R406). -/
def keyCells (b : List Byte) : List Byte := slice b 28 96 ++ leBytes 4 (crc32c (slice b 28 96))

/-- The first `n` cells of a slot programmed, in bit order (DESIGN CHOICE, log 66). -/
def keyPrefix (n : Nat) (c : List Byte) : List Byte :=
  ((List.range c.length).zip c).map fun e => BitVec.ofNat 8 (e.2.toNat % 2 ^ Nat.min 8 (n - 8 * e.1))

/-- The key cells that PROVISION programs, up to the n-th: those of the first empty slot, where no slot holds the key (R406). -/
def programKey (n : Nat) (b : List Byte) (s : State) : State :=
  if slotState s.life.key0 = 0 then { s with life := { s.life with key0 := ⟨keyPrefix n (keyCells b)⟩ } }
  else { s with life := { s.life with key1 := ⟨keyPrefix n (keyCells b)⟩ } }

/-- Stage bits of a stage: the thermometer code of R402. -/
def stageBits (g : Stage) : BitVec 5 :=
  match g with | .blank => 0 | .manufacture => 1 | .provisioned => 3 | .field => 7 | .return_ => 15 | .scrapped => 31

/-- Programming one cell after the key's: 0 to 9 those of the stage bits, 10 debug enable, else debug disable. -/
def programCell (s : State) (k : Nat) : State :=
  if k < 10 then { s with life := { s.life with cells := s.life.cells ||| BitVec.twoPow 10 k } }
  else if k = 10 then { s with life := { s.life with debugEnable := true } }
  else { s with life := { s.life with debugDisable := true } }

/-- The cells that a block programs after its key's, in order: debug (its place is a DESIGN CHOICE, log 66), then the stage bits needed from the
highest down, both cells of each (R402). -/
def cellOrder (cmd : Nat) (g : Stage) (b : List Byte) (s : State) : List Nat :=
  (if cmd = 2 ∧ u b 1 1 = 1 then [10] else []) ++ (if cmd = 6 then [11] else []) ++
    ([4, 3, 2, 1, 0].filter fun k => (stageBits g).getLsbD k && !(stageRead s.life.cells).getLsbD k).flatMap fun k => [2 * k, 2 * k + 1]

/-- The cells of an accepted block (R404, R406): key before stage, `cut` of them where the programming is cut short. -/
def programCells (cmd : Nat) (g : Stage) (b : List Byte) (cut : Option Nat) (s : State) : State :=
  let key := cmd = 2 ∧ (keyInForce s).isNone
  let n := if key then 800 else 0
  let s1 := if key then programKey (cut.getD n) b s else s
  let order := cellOrder cmd g b s
  let s2 := (order.take (cut.getD (n + order.length) - n)).foldl programCell s1
  let new := decide (stageNow s2 ≠ stageNow s) && (decide (g = .return_) || decide (g = .scrapped))
  { s2 with life := { s2.life with zero := s2.life.zero || new } }

/-- A lifecycle block (R404): refused with a result, or programmed, logged and followed by a reset. It comes through LC_CMD (0xC1); the row is
the one whose command its byte 0 names, or any where it names none; the TAP is dead while the device is held in reset. Where the supply is
lost during the programming, the cells stand as they are (R402). -/
def lifecycle (row : Nat) (blk : LcBlock) (s : State) : State :=
  let b := blk.bytes
  let cmd := u b 0 1
  if b.length ≠ 224 ∨ (cmd ≠ row ∧ cmd ≠ 0 ∧ cmd ≤ 6) ∨ s.boot.inReset then s
  else
    let s := { s with life := { s.life with ir := 0xC1, lcCmd := b } }
    let (f, s0) := takeFree s
    let r := blockResult cmd (f % 256) b s0
    let clean := blockClean cmd b || decide (r = 2) || decide (cmd = 0 ∨ 6 < cmd)
    let s1 := if clean then s else s0
    if r ≠ 0 ∨ !clean then
      { s1 with life := { s1.life with result := r, nonce := if cmd = 4 then s1.life.nonce + 1 else s1.life.nonce } }
    else
      match stageChange cmd s1 with
      | none => s1
      | some g =>
        let left := stageCode (stageNow s1)
        let s2 := programCells cmd g b blk.cut s1
        if blk.cut.isSome then powerOff false s2
        else
          let s3 := resetNow 2 (writeLog 8 (detH left (stageCode g) cmd 0) s2)
          { s3 with life := { s3.life with event := some (left, stageCode g, cmd) } }

def execAdvance (block : LcBlock) (s : State) : Host.Outcome State Fault Refusal := .next (lifecycle 1 block s)
def execProvision (block : LcBlock) (s : State) : Host.Outcome State Fault Refusal := .next (lifecycle 2 block s)
def execDeploy (block : LcBlock) (s : State) : Host.Outcome State Fault Refusal := .next (lifecycle 3 block s)
def execReturn (block : LcBlock) (s : State) : Host.Outcome State Fault Refusal := .next (lifecycle 4 block s)
def execScrap (block : LcBlock) (s : State) : Host.Outcome State Fault Refusal := .next (lifecycle 5 block s)
def execDebugOff (block : LcBlock) (s : State) : Host.Outcome State Fault Refusal := .next (lifecycle 6 block s)

/-- LC_STAT (0xC2, Table 18-4): the 256 bits that its data register holds. -/
def lcStat (s : State) : List Byte :=
  leBytes 1 (stageCode (stageNow s)) ++ leBytes 1 (b2n (debugEn s)) ++ leBytes 1 s.life.result ++
    leBytes 1 (slotState s.life.key0 + 4 * slotState s.life.key1) ++ fitBytes 16 (Config.nonce s.life.nonce) ++
    leBytes 8 Config.uid.toNat ++ zeros 4

end Sys2Proof.Machine
end

