-- ==== Sys2Proof/Machine/Control.lean ====
section
/-! DEFINITION. System and event messages (R53), the framing failures of R44 and R45, the register window W0 (R32, R60 to R64), the
pigeonhole registers (R36, R40), the SPI target (R33), the PCIe link (R35, R59) and aperture W2 (R65). -/

namespace Sys2Proof.Machine

/-! ### System and event messages (Table 2-8) -/

/-- `sys.hello`. -/
def sysHelloBody (_a : Asker) (p : List Byte) (s : State) : Reply :=
  withLength [4] p s <|
  if u p 0 4 ≠ 1 then err stMismatch 32 s else ok (helloBytes s) s

def execSysHello (ring : Nat) (dma : List Byte) (s : State) : Host.Outcome State Fault Refusal :=
  .next (runMessage 0x0101 ring dma sysHelloBody s)

/-- Identity of the PCIe endpoint (R31); the vendor ID, Omquel's PCI-SIG number, is not stated (log 2). -/
def pcieDeviceId : Nat := 0x6464
def pcieClassCode : Nat := 0x118000
def pcieVendorId : Nat := Config.pciVendor.toNat

/-- Sizes of the BARs (Table 2-1): W0, W2, and BAR4 with the MSI-X table at 0 and the pending-bit array at 0x1000. -/
def barW0 : Nat := 0x10000
def barW2 : Nat := 0x4000000
def barMsix : Nat := 0x2000
def barPba : Nat := 0x1000

/-- ID_PART (Table 2-10). -/
def idPart : Nat := 0x6464B002

/-- `sys.info`. -/
def sysInfoBody (_a : Asker) (p : List Byte) (s : State) : Reply :=
  withLength [0] p s <|
  ok (leBytes 4 idPart ++ leBytes 8 Config.uid.toNat ++ leBytes 4 s.sys.idFw ++ leBytes 4 s.sys.bootCount ++
    leBytes 4 s.sys.restarts ++ leBytes 4 (Nat.min 0xFFFFFFFF (s.tm.raw / 1474560000))) s

def execSysInfo (ring : Nat) (dma : List Byte) (s : State) : Host.Outcome State Fault Refusal :=
  .next (runMessage 0x0102 ring dma sysInfoBody s)

/-- What `sys.reset` does after it has answered. With the latch set no firmware is loaded again (R363). -/
def resetScope (scope : Nat) (s : State) : State :=
  if scope = 1 then resetNow 2 s
  else
    let s1 := restartFirmware s
    { s1 with sys := { s1.sys with bootCause := 2, halted := s.boot.started }, boot := { s1.boot with started := s.boot.started && !s.th.latch } }

/-- `sys.reset`: OK first, then the restart or the reset. -/
def sysResetBody (_a : Asker) (p : List Byte) (s : State) : Reply :=
  withLength [4] p s <|
  withFields [inRange p 0 1 0 1, isZero p 1 3] s { st := s, post := resetScope (u p 0 1) }

def execSysReset (ring : Nat) (dma : List Byte) (s : State) : Host.Outcome State Fault Refusal :=
  .next (runMessage 0x0103 ring dma sysResetBody s)

/-- Writable bits of EV_ROUTE (Table 2-12). -/
def routeMask : Nat := 0x7F07

/-- Write `EV_ROUTE[b]`. -/
def setRoute (b v : Nat) (s : State) : State :=
  { s with ev := { s.ev with route := tset (b % 4 + 256 * b + 0x4000) s.ev.route b (v &&& routeMask) } }

/-- The 96 bytes of `event.config`. -/
def eventConfigBytes (s : State) : List Byte :=
  leBytes 32 s.ev.mask.toNat ++ (List.range 16).flatMap fun b => leBytes 4 (routeOf s b)

/-- `event.config`: routes first, so that a mask written with them is notified as they say. -/
def eventConfigBody (_a : Asker) (p : List Byte) (s : State) : Reply :=
  withLength [0, 96] p s <|
  if p.length = 0 then ok (eventConfigBytes s) s
  else
    withFields ((List.range 16).map fun b => (32 + 4 * b, decide (u p (32 + 4 * b) 4 &&& routeMask = u p (32 + 4 * b) 4))) s <|
    let s1 := (List.range 16).foldl (fun t b => setRoute b (u p (32 + 4 * b) 4) t) s
    let s2 := setMask (BitVec.ofNat 256 (u p 0 32)) s1
    ok (eventConfigBytes s2) s2

def execEventConfig (ring : Nat) (dma : List Byte) (s : State) : Host.Outcome State Fault Refusal :=
  .next (runMessage 0x0D01 ring dma eventConfigBody s)

/-- Clear the counters and status bits of `n` events from `first`. -/
def clearEvents (first n : Nat) (s : State) : State :=
  let b := BitVec.ofNat 256 ((2 ^ n - 1) * 2 ^ first)
  let s1 := clearStatus b s
  { s1 with ev := { s1.ev with count := tclear s1.ev.count first (first + n) } }

/-- `event.drain`. -/
def eventDrainBody (_a : Asker) (p : List Byte) (s : State) : Reply :=
  let f := u p 0 2
  let n := u p 2 2
  withLength [8] p s <|
  withFields [inRange p 0 2 0 255, (2, decide (n ≤ 256) && decide (f + n ≤ 256)), inRange p 4 1 0 1, isZero p 5 3] s <|
  ok (leBytes 2 f ++ leBytes 2 n ++ (tgetList 0 s.ev.count f n).flatMap (leBytes 2)) (if u p 4 1 = 1 then clearEvents f n s else s)

def execEventDrain (ring : Nat) (dma : List Byte) (s : State) : Host.Outcome State Fault Refusal :=
  .next (runMessage 0x0D02 ring dma eventDrainBody s)

/-- BAD_OPCODE (R52, R39): the message taken next has an opcode that is unknown, device-originated or not of its ring. -/
def execBadOpcode (ring : Nat) (dma : List Byte) (s : State) : Host.Outcome State Fault Refusal :=
  if pickRing s = some ring then
    match frontOf ring dma s with
    | .msg h p =>
      (match badOpcode ring h.opcode with
      | some d => .next (takeMsg ring h p (some d) (fun _ _ t => ok [] t) (meetFront ring (32 + h.length) s))
      | none => .next s)
    | _ => .next s
  else .next s

/-- A framing failure (R44, R45): every slot up to the producer count is discarded, nothing is cached, no sequence consumed. -/
def loseFraming (ring code detail : Nat) (h : Hdr) (s : State) : State :=
  let g := ringOf s ring
  let turn := if ring = 0 then s.ph.turn else ring % 7 + 1
  let s1 := setRing ring { g with head := g.tail } (fetchSlots g g.head (Nat.min (ringUsed g) (slotCount (32 + h.length)))
    { s with ph := { s.ph with turn := turn } })
  let a : Asker := { ring := ring, hdr := { h with epoch := s.cfg.epoch } }
  sendResponse a true (response a code detail true []) s1

/-- FRAMING_LOST (R44, R45). -/
def execFramingLost (ring : Nat) (dma : List Byte) (s : State) : Host.Outcome State Fault Refusal :=
  if pickRing s = some ring then
    match frontOf ring dma s with
    | .badLength h => .next (loseFraming ring stBadLength 8 h (meetFront ring 32 s))
    | .badCrc h => .next (loseFraming ring stIntegrity 0 h (raise 5 (detH ring 0 h.opcode h.seq) (meetFront ring (32 + h.length) s)))
    | .msg _ _ => .next s
  else .next s

/-! ### Pigeonhole registers (R36, R40) -/

/-- PH_DOORBELL of ring n ≤ 7 (R36, R40). -/
def doorbell (n v : Nat) (s : State) : State :=
  let g := ringOf s n
  if 8 ≤ n ∨ !g.enable then s
  else
    let used := (v + 2 ^ 32 - g.head) % 2 ^ 32
    if used ≤ 64 ∧ ringUsed g ≤ used then setRing n { g with tail := v } s
    else raise 2 (det n 1 0 0 v) (setRing n { g with badDoorbell := true } s)

/-- PH_HEAD of ring n ≥ 8 (R36, R40): slots are freed, and what is held is posted (R50). -/
def headWrite (n v : Nat) (s : State) : State :=
  let g := ringOf s n
  if n < 8 ∨ 16 ≤ n ∨ !g.enable then s
  else
    let used := (g.tail + 2 ^ 32 - v) % 2 ^ 32
    if used ≤ ringUsed g then flushRing n (setRing n { g with head := v } s)
    else raise 2 (det n 2 0 0 v) (setRing n { g with badDoorbell := true } s)

/-- The host clears ENABLE (R40): counts and messages go at once, or when the message in execution has finished. -/
def disableRing (n : Nat) (s : State) : State :=
  let g := ringOf s n
  if !g.enable then s
  else if g.busy then setRing n { g with enable := false, active := true } s
  else clearRing n (setRing n { g with enable := false } s)

/-- The host sets ENABLE; a response ring posts what it holds. -/
def enableRing (n : Nat) (s : State) : State :=
  let g := ringOf s n
  if g.enable then s else flushRing n (setRing n { g with enable := true } s)

/-- PH_CTRL: LOC takes effect only while ENABLE is 0 (R40). -/
def ctrlWrite (n v : Nat) (s : State) : State :=
  let g := ringOf s n
  let s1 := if g.enable then s else setRing n { g with loc := v.testBit 1 } s
  if v.testBit 0 then enableRing n s1 else disableRing n s1

/-- A write of a register of ring n at offset `o` of its block. -/
def ringWrite (n o v : Nat) (s : State) : State :=
  let g := ringOf s n
  match o with
  | 0x00 => if g.enable then s else setRing n { g with base := v / 4096 * 4096 } s
  | 0x08 => ctrlWrite n v s
  | 0x0C => doorbell n v s
  | 0x10 => headWrite n v s
  | 0x18 => setRing n { g with badDoorbell := g.badDoorbell && !v.testBit 2, dmaErr := g.dmaErr && !v.testBit 3,
                               dropped := g.dropped && !v.testBit 5 } s
  | _ => s

/-- PH_STATUS. -/
def ringStatus (g : Ring) : Nat :=
  b2n (decide (ringUsed g = 64)) + 2 * b2n (decide (ringUsed g = 0)) + 4 * b2n g.badDoorbell + 8 * b2n g.dmaErr +
    16 * b2n (!g.held.isEmpty) + 32 * b2n g.dropped + 64 * b2n g.active + 128 * b2n g.expect.isNone

/-! ### W0 reads -/

/-- Word `k` of a wide number. -/
def wordOf (v k : Nat) : Nat := v / 2 ^ (32 * k) % 2 ^ 32

/-- SYS_STATE.BUREAU_HALTED: the Bureau is stopped, by a restart or with its domain, once firmware has been started (Table 2-10). -/
def bureauHalted (s : State) : Bool := s.sys.halted || (s.boot.started && !s.pwr.ready.getLsbD 1)

/-- SYS_STATE. -/
def sysState (s : State) : Nat :=
  modeCode s.pwr.mode + 16 * b2n s.sys.ready + 32 * b2n (bureauHalted s) + 256 * Nat.min 255 s.sys.restarts + 65536 * s.sys.bootCause

/-- EMERG_STATUS. -/
def emergStatus (s : State) : Nat :=
  b2n s.em.muted + 2 * b2n s.em.parked + 4 * b2n (holding s) + 256 * b2n s.em.badKey + 65536 * s.em.badKeyCount

/-- A word of the lease mirror (Table 2-17). -/
def leaseWord (s : State) (o : Nat) : Nat :=
  let l := leaseNow s (o / 8)
  if 192 ≤ o then 0
  else if o % 8 = 0 then l.holder % 256 + 256 * b2n (decide (l.holder ≠ 0)) + 65536 * Nat.min 65535 l.revokes
  else Nat.min 65535 (leaseLeft s (o / 8))

/-- A word of the refusal mirror (Table 2-15). -/
def refusalWord (s : State) (o : Nat) : Nat :=
  if o < 0x200 then u (refBytes s (o / 16)) (o % 16) 4
  else if o < 0x230 then tget 0 s.pwr.refCount ((o - 0x200) / 4)
  else if o = 0x240 then refNewest s else 0

/-- A word of the thermal mirror (Table 2-18). -/
def thermalWord (s : State) (o : Nat) : Nat :=
  if o < 0x80 then
    (let x := sensorOf s (o / 4)
    wrapN 16 x.temp + 65536 * b2n x.valid)
  else if o = 0x80 then thState s + 256 * hottest s else 0

/-- The blocks that W0 serves in SCRAPPED (R401): identity, lifecycle, events, latched time and the thermal mirror. -/
def scrapServed (o : Nat) : Bool := decide (o / 0x1000 ∈ [0, 2, 5, 9])

/-- The 32-bit word at an aligned offset of W0 (Tables 2-10 to 2-18); reserved offsets read 0. -/
def w0Read (s : State) (o : Nat) : Nat :=
  let r := o % 0x1000
  if stageNow s = .scrapped ∧ !scrapServed o then 0
  else match o / 0x1000 with
  | 0 => (match r with
    | 0x00 => idPart | 0x04 => s.sys.idFw | 0x08 => wordOf Config.uid.toNat 0 | 0x0C => wordOf Config.uid.toNat 1
    | 0x10 => stageCode (stageNow s) + 16 * b2n (debugEn s) | 0x14 => sysState s | 0x18 => s.cfg.epoch | _ => 0)
  | 1 =>
    if r < 0x400 then
      (let g := ringOf s (r / 64)
      match r % 64 with
      | 0x00 => wordOf g.base 0 | 0x04 => wordOf g.base 1 | 0x08 => b2n g.enable + 2 * b2n g.loc | 0x10 => g.head
      | 0x14 => g.tail | 0x18 => ringStatus g | 0x1C => if r / 64 < 8 then g.expect.getD 0 else 0 | _ => 0)
    else if r = 0x400 then s.ph.ignored else 0
  | 2 =>
    if r < 0x20 then wordOf s.ev.status.toNat (r / 4)
    else if r < 0x40 then wordOf s.ev.mask.toNat ((r - 0x20) / 4)
    else if r < 0x60 then wordOf (evPending s).toNat ((r - 0x40) / 4)
    else if r = 0x60 then ((List.range 16).map fun b => b2n (summaryBit s b) * 2 ^ b).sum
    else if 0x80 ≤ r ∧ r < 0xC0 then routeOf s ((r - 0x80) / 4)
    else if 0x100 ≤ r ∧ r < 0x300 then tget 0 s.ev.count ((r - 0x100) / 2) + 65536 * tget 0 s.ev.count ((r - 0x100) / 2 + 1)
    else 0
  | 3 => if r = 4 then emergStatus s else 0
  | 4 => if r = 0 then s.em.held.toNat else if r = 8 then s.em.refused.toNat else 0
  | 5 => (match r with
    | 0x04 => s.tm.servo + 4 * b2n s.tm.capValid
    | 0x08 => wordOf (wrapN 64 (secOf (9 * s.tm.capC))) 0 | 0x0C => wordOf (wrapN 64 (secOf (9 * s.tm.capC))) 1
    | 0x10 => nsOf (9 * s.tm.capC) | 0x14 => fracOf (9 * s.tm.capC)
    | 0x18 => wordOf s.tm.capRaw 0 | 0x1C => wordOf s.tm.capRaw 1 | 0x20 => wordOf s.tm.capRaw 2 % 65536 | _ => 0)
  | 6 => refusalWord s r
  | 7 => if r < 0x1C then rockerRead s (r / 4) else 0
  | 8 => leaseWord s r
  | 9 => thermalWord s r
  | _ => 0

/-! ### W0 writes -/

/-- EMERG_CMD (R61): the set bits act together under the key; in a low-power mode SAFE_HOLD_REQ is the wake source. -/
def emergWrite (v : Nat) (s : State) : State :=
  if bits v 16 16 ≠ 0xA5C3 then badKey 0 (bits v 16 16) s
  else
    let s1 := if v.testBit 0 then muteAll s else s
    let s2 := if v.testBit 1 then Sys2Proof.Machine.parkAll s1 else s1
    if v.testBit 2 then
      if (s2.pwr.mode = .listen ∨ s2.pwr.mode = .deepSleep) ∧ !protecting s2 then
        let t := protect 1 0 { s2 with pwr := { s2.pwr with lastSource := 10 } }
        { t with pwr := { t.pwr with trans := t.pwr.trans.map fun x => { x with source := 10 } } }
      else protect 1 0 s2
    else s2

/-- Offsets of 64-bit registers: ID_UNIQUE, PH_BASE, TIME_SEC and the refusal names. -/
def wide (o : Nat) : Bool :=
  decide (o = 8) || (decide (0x1000 ≤ o ∧ o < 0x1400) && decide (o % 64 = 0)) || decide (o = 0x5008) ||
    (decide (0x6000 ≤ o ∧ o < 0x6200) && decide (o % 16 = 0))

/-- Width and alignment that R32 admits for a write. -/
def writeFits (o width : Nat) : Bool :=
  if width = 8 then wide o
  else decide (width = 4) && decide (o % 4 = 0) && !wide o && !(decide (4 ≤ o) && wide (o - 4))

/-- Effect of an admitted write; writes to reserved offsets and read-only fields are ignored. -/
def w0Effect (o v : Nat) (s : State) : State :=
  let r := o % 0x1000
  match o / 0x1000 with
  | 1 => if r < 0x400 then ringWrite (r / 64) (r % 64) v s else s
  | 2 =>
    if r < 0x20 then clearStatus (BitVec.ofNat 256 (v * 2 ^ (8 * r))) s
    else if r < 0x40 then
      (let k := 8 * (r - 0x20)
      setMask ((s.ev.mask &&& ~~~BitVec.ofNat 256 (0xFFFFFFFF * 2 ^ k)) ||| BitVec.ofNat 256 (v * 2 ^ k)) s)
    else if 0x80 ≤ r ∧ r < 0xC0 then setRoute ((r - 0x80) / 4) v s else s
  | 3 =>
    if r = 0 then emergWrite v s
    else if r = 4 ∧ v.testBit 8 then { s with em := { s.em with badKey := false } } else s
  | 4 =>
    if r = 4 then padReleaseWrite (BitVec.ofNat 32 v) s
    else if r = 8 then { s with em := { s.em with refused := s.em.refused &&& ~~~BitVec.ofNat 12 v } } else s
  | 5 => if r = 0 ∧ v.testBit 0 then captureTime s else s
  | 7 => if r < 0x1C then rockerWrite (r / 4) v s else s
  | 9 => if r = 0x84 then demandMany v s else s
  | _ => s

/-- A write of W0 (R32): an access of another width or alignment is ignored and counted. -/
def w0Write (o width v : Nat) (s : State) : State :=
  if stageNow s = .scrapped ∧ !scrapServed o then s
  else if writeFits o width then w0Effect o (v % 2 ^ (8 * width)) s
  else { s with ph := { s.ph with ignored := satAdd 0xFFFF s.ph.ignored 1 } }

/-- The pigeonhole block lies in CTRL, the rest of W0 in AO (R60). -/
def w0Domain (o : Nat) : Nat := if 0x1000 ≤ o ∧ o < 0x2000 then 1 else 0

/-- A PCIe write of W0: it reaches its domain or is discarded with EV_WAKE_STALL_TIMEOUT (R336); PCIe activity wakes a mode in
which it is armed (R346). Nothing answers in RESET. -/
def hostWrite (o width v : Nat) (s : State) : State :=
  if s.pwr.mode = .reset ∨ !s.ph.pcieUp then s
  else
    wakeBy 7 (tryDomain (w0Domain o) s (w0Write o width v) (failAccess (w0Domain o) 1 o))

/-- Offset of a register of ring n. -/
def ringOffset (n o : Nat) : Nat := 0x1000 + 0x40 * n + o

def execPhDoorbell (ring : Nat) (value : Word) (s : State) : Host.Outcome State Fault Refusal :=
  if ring < 8 then .next (hostWrite (ringOffset ring 0x0C) 4 value.toNat s) else .next s

def execPhHead (ring : Nat) (value : Word) (s : State) : Host.Outcome State Fault Refusal :=
  if 8 ≤ ring ∧ ring < 16 then .next (hostWrite (ringOffset ring 0x10) 4 value.toNat s) else .next s

/-- RING_DISABLE: PH_CTRL is written with ENABLE 0 and LOC as it stands. -/
def execRingDisable (ring : Nat) (s : State) : Host.Outcome State Fault Refusal :=
  if ring < 16 then .next (hostWrite (ringOffset ring 8) 4 (2 * b2n (ringOf s ring).loc) s) else .next s

/-- RING_DISABLED (R40): the message in execution has finished; counts are zeroed and the rest discarded. -/
def execRingDisabled (ring : Nat) (s : State) : Host.Outcome State Fault Refusal :=
  if (ringOf s ring).active ∧ !(ringOf s ring).busy then .next (clearRing ring s) else .next s

/-- RING_ENABLE: PH_CTRL is written with ENABLE 1 and LOC as it stands. -/
def execRingEnable (ring : Nat) (s : State) : Host.Outcome State Fault Refusal :=
  if ring < 16 then .next (hostWrite (ringOffset ring 8) 4 (1 + 2 * b2n (ringOf s ring).loc) s) else .next s

/-- PH_DMA_ERR (Table 2-9b): ENABLE is cleared and DMA_ERR set. -/
def execPhDmaErr (ring kind cause count : Nat) (s : State) : Host.Outcome State Fault Refusal :=
  let g := ringOf s ring
  if ring < 16 ∧ g.enable ∧ !g.loc ∧ s.ph.pcieUp ∧ kind = (if ring < 8 then 1 else 2) ∧ 1 ≤ cause ∧ cause ≤ 4 then
    .next (raise 3 (detH ring kind cause count) (disableRing ring (setRing ring { g with dmaErr := true } s)))
  else .next s

/-- PCIE_LINK_DOWN (R35): rings in host memory pause. -/
def execPcieLinkDown (s : State) : Host.Outcome State Fault Refusal := .next { s with ph := { s.ph with pcieUp := false } }

/-- PCIE_LINK_UP (R35): paused rings resume and post what they hold. -/
def execPcieLinkUp (s : State) : Host.Outcome State Fault Refusal :=
  .next ((List.range 8).foldl (fun t k => flushRing (8 + k) t) { s with ph := { s.ph with pcieUp := true } })

def execMuteAll (value : Word) (s : State) : Host.Outcome State Fault Refusal := .next (hostWrite 0x3000 4 value.toNat s)
def execParkAll (value : Word) (s : State) : Host.Outcome State Fault Refusal := .next (hostWrite 0x3000 4 value.toNat s)
def execSafeHoldReq (value : Word) (s : State) : Host.Outcome State Fault Refusal := .next (hostWrite 0x3000 4 value.toNat s)

/-- TIME_CAPTURE (R62). -/
def execTimeCapture (value : Word) (s : State) : Host.Outcome State Fault Refusal := .next (hostWrite 0x5000 4 value.toNat s)

/-- ROCKER_REGISTER_WRITE (R63): `offset` is that of Table 2-16. -/
def execRockerRegisterWrite (offset : Nat) (value : Word) (s : State) : Host.Outcome State Fault Refusal :=
  if 0x7000 ≤ offset ∧ offset < 0x701C then .next (hostWrite offset 4 value.toNat s) else .next s

/-- A write of 32-bit word k of the MSI-X table (PCIe Base Specification, log 50): a vector that is unmasked while pending is sent. -/
def msixWrite (k v : Nat) (s : State) : State :=
  let s1 := { s with ph := { s.ph with msix := tset 0 s.ph.msix k (v % 2 ^ 32) } }
  if k % 4 = 3 ∧ !v.testBit 0 ∧ s.ph.pba.getLsbD (k / 4) then
    { s1 with out := s1.out ++ [.msix (k / 4)], ph := { s1.ph with pba := s1.ph.pba &&& ~~~BitVec.twoPow 32 (k / 4) } }
  else s1

/-- A word of BAR4 at an aligned offset: the MSI-X table from 0, the pending-bit array at 0x1000, whose vectors 32 and up there are
none of (Table 2-1); the rest reads 0 (log 93). -/
def bar4Word (s : State) (o : Nat) : Nat :=
  if o < 512 then tget 0 s.ph.msix (o / 4) else if o = barPba then s.ph.pba.toNat else 0

/-- The write of an admitted width: 32-bit or 64-bit words of the MSI-X table; the pending-bit array is read-only. -/
def bar4Effect (o width v : Nat) (s : State) : State :=
  if 512 ≤ o ∨ o % 4 ≠ 0 then s
  else if width = 4 then msixWrite (o / 4) v s
  else if width = 8 ∧ o % 8 = 0 then msixWrite (o / 4 + 1) (v / 2 ^ 32) (msixWrite (o / 4) v s)
  else s

/-- A PCIe write of BAR4, whose table lies with the endpoint in CTRL. PCIe activity wakes a mode in which it is armed (R346). -/
def bar4Write (o width v : Nat) (s : State) : State :=
  if s.pwr.mode = .reset ∨ !s.ph.pcieUp then s else wakeBy 7 (if s.pwr.ready.getLsbD 1 then bar4Effect o width v s else s)

/-- A PCIe read at an offset fails: Completer Abort (R336). -/
def pcieFails (d o : Nat) (s : State) : State :=
  let t := failAccess d 1 o s
  { t with out := t.out ++ [.pcie none] }

/-- A PCIe read of BAR4, in 32-bit or 64-bit words. What a read of another width or alignment gives is not stated. -/
def bar4Read (o width : Nat) (s : State) : State :=
  if s.pwr.mode = .reset ∨ !s.ph.pcieUp then s
  else if !s.pwr.ready.getLsbD 1 then wakeBy 7 (pcieFails 1 o s)
  else if (width = 4 ∨ width = 8) ∧ o % width = 0 then
    wakeBy 7 { s with out := s.out ++ [.pcie (some ((List.range (width / 4)).flatMap fun k => leBytes 4 (bar4Word s (o + 4 * k))))] }
  else
    let (f, s1) := takeFree s
    wakeBy 7 { s1 with out := s1.out ++ [.pcie (some (leBytes width f))] }

/-- REGISTER_WRITE (R32): `width` in bytes; offsets from 0x10000 on name BAR4 (DESIGN CHOICE, log 93). -/
def execRegisterWrite (offset width : Nat) (value : Nat) (s : State) : Host.Outcome State Fault Refusal :=
  if offset < barW0 then .next (hostWrite offset width value s)
  else if offset < barW0 + barMsix then .next (bar4Write (offset - barW0) width value s)
  else .next s

/-! ### SPI (R33) -/

/-- The request of a frame: `none` while CS rises before its CRC has come; then its CRC verdict. Writes carry L data bytes. -/
def spiRequest (frame : List Byte) : Option (Option SpiReq) :=
  let n := 11 + (if u frame 0 1 = 2 ∨ u frame 0 1 = 3 then u frame 5 2 else 0)
  if frame.length < n then none else some (spiParse (frame.take n))

/-- The SPI target answers: every mode but RESET, and W0_READ alone in SCRAPPED (R33, R401). -/
def spiServes (cmd : Nat) (s : State) : Bool :=
  decide (s.pwr.mode ≠ .reset) && (decide (stageNow s ≠ .scrapped) || decide (cmd = 1))

/-- A frame of command `cmd`: no effect while incomplete, status 1 where its CRC fails, 3 where address or length is out of range. -/
def spiFrame (cmd : Nat) (frame : List Byte) (good : SpiReq → Bool) (body : SpiReq → State → State) (s : State) : State :=
  if !spiIs frame cmd ∨ !spiServes cmd s then s
  else match spiRequest frame with
    | none => s
    | some none => spiAnswer 1 [] s
    | some (some r) => if good r then body r s else spiAnswer 3 [] s

/-- An access over SPI to domain `d`: status 0x04 where it fails, which wakes a mode in which SPI is armed (R336, R346). -/
def spiDomain (d info : Nat) (s : State) (k : State → State) : State :=
  tryDomain d s k fun t => wakeBy 8 (spiAnswer 4 [] (failAccess d 2 info t))

/-- The words of a W0 read touch the pigeonhole block. -/
def touchesRings (a n : Nat) : Bool := decide (a < 0x2000) && decide (0x1000 < a + n)

/-- W0_READ over SPI; a frame with a command that Table 2-2 does not name is answered with status 2. -/
def spiRead (frame : List Byte) (s : State) : State :=
  let cmd := u frame 0 1
  if 1 ≤ frame.length ∧ (cmd = 0 ∨ 5 < cmd) then
    if !spiServes cmd s then s else match spiRequest frame with
      | none => s
      | some none => spiAnswer 1 [] s
      | some (some _) => spiAnswer 2 [] s
  else
    spiFrame 1 frame
      (fun r => decide (4 ≤ r.len ∧ r.len ≤ 256 ∧ r.len % 4 = 0) && decide (r.addr % 4 = 0) && decide (r.addr + r.len ≤ 0x10000))
      (fun r t => spiDomain (if touchesRings r.addr r.len then 1 else 0) r.addr t fun t =>
        spiAnswer 0 ((List.range (r.len / 4)).flatMap fun k => leBytes 4 (w0Read t (r.addr + 4 * k))) t) s

/-- A PCIe read of W0 (R32): an aligned 32-bit one gives the register; one of another width or alignment is ignored and counted,
and what its completion carries is not stated. -/
def pcieRead (o width : Nat) (s : State) : State :=
  if width = 4 ∧ o % 4 = 0 then { s with out := s.out ++ [.pcie (some (leBytes 4 (w0Read s o)))] }
  else
    let (f, s1) := takeFree s
    { s1 with ph := { s1.ph with ignored := satAdd 0xFFFF s1.ph.ignored 1 }, out := s1.out ++ [.pcie (some (leBytes width f))] }

/-- A PCIe read of W0 that reaches its domain, or completes with Completer Abort (R336, R346). -/
def hostRead (o width : Nat) (s : State) : State :=
  if s.pwr.mode = .reset ∨ !s.ph.pcieUp then s
  else wakeBy 7 (tryDomain (w0Domain o) s (pcieRead o width) (pcieFails (w0Domain o) o))

/-- W0_READ; a PCIe read's offsets from 0x10000 on name BAR4 (DESIGN CHOICE, log 93). -/
def execW0Read (src : W0Source) (s : State) : Host.Outcome State Fault Refusal :=
  match src with
  | .pcie o width =>
    if o < barW0 then .next (hostRead o width s)
    else if o < barW0 + barMsix then .next (bar4Read (o - barW0) width s)
    else .next s
  | .spi frame => .next (spiRead frame s)

/-- W0_WRITE. A misaligned address or a wrong length is answered with status 3 (Table 2-2) and not counted in IGNORED_ACCESS
(DESIGN CHOICE, log 95). -/
def execW0Write (frame : List Byte) (s : State) : Host.Outcome State Fault Refusal :=
  .next (spiFrame 2 frame
    (fun r => (decide (r.len = 4) || (decide (r.len = 8) && wide r.addr)) && decide (r.addr % 4 = 0) && decide (r.addr < 0x10000))
    (fun r t => spiDomain (w0Domain r.addr) r.addr t fun t => spiAnswer 0 [] (w0Write r.addr r.len (leNat r.data) t)) s)

/-- SLOT_WRITE: a slot of a host-to-device pigeonhole. -/
def execSlotWrite (frame : List Byte) (s : State) : Host.Outcome State Fault Refusal :=
  .next (spiFrame 3 frame (fun r => decide (r.addr < 512) && decide (r.len = 512))
    (fun r t => spiDomain 1 r.addr t fun t =>
      if !(ringOf t (r.addr / 64)).loc then spiAnswer 5 [] t
      else spiAnswer 0 [] (cleanWords 7 (64 * r.addr) 64
        { t with ph := { t.ph with slots := tsetList 0 t.ph.slots (r.addr * 512) r.data } })) s)

/-- SLOT_READ: a slot of a device-to-host pigeonhole. -/
def execSlotRead (frame : List Byte) (s : State) : Host.Outcome State Fault Refusal :=
  .next (spiFrame 4 frame (fun r => decide (512 ≤ r.addr ∧ r.addr < 1024) && decide (r.len = 512))
    (fun r t => spiDomain 1 r.addr t fun t =>
      if !(ringOf t (r.addr / 64)).loc then spiAnswer 5 [] t
      else spiAnswer 0 (tgetList 0 t.ph.slots (r.addr * 512) 512) t) s)

/-! ### Aperture W2 (R65) -/

/-- Memory of Table 1-7 behind an offset of W2, and the address of its 64-bit word: capture memory, Cabinet, the log region of MRAM
(Table 16-1); memory 9, which there is none of, where nothing is assigned. -/
def w2Word (a : Nat) : Nat × Nat :=
  if a < 0x400000 then (5, a / 8)
  else if a < 0x700000 then (if a % 512 < 272 then (4, cabWord ((a - 0x400000) / 512) (a % 512 / 8)) else (9, 0))
  else if a < 0x740000 then (8, (a - 0x700000 + 0x580000) / 8)
  else (9, 0)

/-- The byte at an offset of W2 lies in a word that reads with a double-bit error. -/
def w2Bad (s : State) (a : Nat) : Bool := decide (wordError s (w2Word a).1 (w2Word a).2 = some true)

/-- The byte at an offset of W2 (Table 2-19). -/
def w2Byte (s : State) (a : Nat) : Byte :=
  if w2Bad s a then 0xFF
  else if a < 0x400000 then tget 0 s.lin.capMem a
  else if a < 0x700000 then
    (let e := (a - 0x400000) / 512
    let o := a % 512
    if o < 256 then (cabWeights (cabOf s e)).getD o 0 else if o < 272 then (cabTag e (cabOf s e)).getD (o - 256) 0 else 0)
  else if a < 0x740000 then (tget [] s.nvm.log ((a - 0x700000) / 64)).getD (a % 64) 0
  else 0

/-- Domains that a read of `n` bytes at `a` reaches: ADAPT, BF, NVM. -/
def w2Domains (a n : Nat) : List Nat :=
  (if a < 0x400000 ∧ 0 < n then [9] else []) ++ (if a < 0x700000 ∧ 0x400000 < a + n then [5] else []) ++
    (if a < 0x740000 ∧ 0x700000 < a + n then [2] else [])

/-- Reach every domain of a list: the state, or the one that fails. -/
def reachAll (s : State) : List Nat → State ⊕ Nat
  | [] => .inl s
  | d :: ds => match accessDomain d s with
    | some t => reachAll t ds
    | none => .inr d

/-- What the functional read of a word of W2 meets (R26, R380): an SRAM word's errors are counted and raised; a word of the MRAM
counts with the MRAM's own and raises EV_NVM_ECC, record 0 for the logs (Table 16-10). -/
def w2Meet (s : State) (w : Nat × Nat) : State :=
  if w.1 = 4 ∨ w.1 = 5 then readWord w.1 w.2 s
  else if w.1 = 8 then readMram 0 0 w.2 1 s
  else s

/-- A read of W2: the data, the errors its words meet, and EV_W2_ECC for the first affected 32-bit word (Table 2-9b). -/
def w2Data (a n : Nat) (s : State) : List Byte × State :=
  let as := (List.range n).map fun k => a + k
  let s1 := ((as.map w2Word).dedup).foldl w2Meet s
  (as.map (w2Byte s), match as.find? (w2Bad s) with
    | some b => raise 7 (det (w2Word b).1 0 0 0 (b / 4 * 4)) s1
    | none => s1)

/-- W2_READ over PCIe or SPI; a write is discarded and completes as an unsupported request. -/
def execW2Read (src : W2Source) (s : State) : Host.Outcome State Fault Refusal :=
  match src with
  | .write _ _ =>
    if s.pwr.mode = .reset ∨ !s.ph.pcieUp then .next s else .next (wakeBy 7 { s with out := s.out ++ [.unsupported] })
  | .pcie a n =>
    if s.pwr.mode = .reset ∨ !s.ph.pcieUp ∨ stageNow s = .scrapped ∨ 0x4000000 < a + n then .next s
    else match reachAll s (w2Domains a n) with
      | .inl t =>
        let (b, t1) := w2Data a n t
        .next (wakeBy 7 { t1 with out := t1.out ++ [.pcie (some b)] })
      | .inr d => .next (wakeBy 7 (if wakes d s then wakeDomain d s else pcieFails d a s))
  | .spi frame =>
    .next (spiFrame 5 frame
      (fun r => decide (4 ≤ r.len ∧ r.len ≤ 4096 ∧ r.len % 4 = 0) && decide (r.addr % 4 = 0) && decide (r.addr + r.len ≤ 0x4000000))
      (fun r t => match reachAll t (w2Domains r.addr r.len) with
        | .inl t1 =>
          let (b, t2) := w2Data r.addr r.len t1
          spiAnswer 0 b t2
        | .inr d => if wakes d t then wakeDomain d t else wakeBy 8 (spiAnswer 4 [] (failAccess d 2 r.addr t))) s)

end Sys2Proof.Machine
end

