-- ==== Sys2Proof/Machine/Commit.lean ====
section
/-! DEFINITION. The commit boundary (R75, R27): what takes effect at B. -/

namespace Sys2Proof.Machine

/-- Records whose kind or eAxC identifier a commit changes (R154). -/
def flowsChanged (old new : Image) : List Nat :=
  ((listedFlows old ++ listedFlows new).dedup).filter fun r =>
    decide ((flowAt old r).kind ≠ (flowAt new r).kind ∨ (flowAt old r).eaxc ≠ (flowAt new r).eaxc)

/-- Flows that enter the live image: in force in the new plan, with a record of another kind or identifier before (R91, R130). -/
def flowsEntering (old new : Image) : List Flow :=
  (governingFlows new).filter fun f => !(governingFlows old).any fun g =>
    decide (g.idx = f.idx) && decide (g.eaxc = f.eaxc) && decide (g.kind = f.kind)

/-- Clear the statistics records of a flow (R154, R180). -/
def clearFlowStats (r : Nat) (s : State) : State :=
  let a := (0x10 * 1024 + r) * 16
  let b := (0x13 * 1024 + r) * 16
  { s with stat := tclear (tclear s.stat a (a + 16)) b (b + 16) }

/-- Sequence state of an entering flow: no previous sequence ID (R91), and its own count at 0 (R130). -/
def enterFlow (f : Flow) (s : State) : State :=
  { s with
    fh := { s.fh with seqPrev := tset 0 (tset 0 s.fh.seqPrev f.eaxc 0) (65536 + f.eaxc) 0 },
    ul := { s.ul with seq := tset 0 s.ul.seq f.idx 0 } }

/-- A record whose flow changes or ends: its former flow keeps its count for the symbols before the boundary that leave after it (R130). -/
def leaveFlow (r : Nat) (s : State) : State :=
  { s with ul := { s.ul with seq := tset 0 s.ul.seq (1024 + r) (tget 0 s.ul.seq r) } }

/-- Flow statistics and sequences at a boundary. -/
def flowsAtCommit (old new : Image) (s : State) : State :=
  (flowsEntering old new).foldl (fun t f => enterFlow f t)
    ((flowsChanged old new).foldl (fun t r => leaveFlow r (clearFlowStats r t)) s)

/-- The first symbol at or after B of a cleared carrier is FILTER_INVALID on every path, and counted per path (R164). -/
def filtersAtCommit (old new : Image) (b : Instant) (s : State) : State :=
  ((List.range 4).filter (filterCleared old new)).foldl (fun t c =>
    let mu := ccMu new true c
    let air := symbolStart mu (nextSymbol mu b)
    (List.range 64).foldl (fun t p => addMark c air p 2 0 (statAdd 0x12 p 7 1 t)) t) s

/-- A commit that changes the duplex changes the OPERATE mode at B (Table 14-3 row 5); service goes on, and so does a
transition in flight; the class history begins anew with class 0 (R120). -/
def duplexAtCommit (b : Instant) (s : State) : State :=
  if isOperate s.pwr.mode && decide (operateMode s ≠ s.pwr.mode) then
    let t := enterMode (operateMode s) 4 0 0 s
    { t with dl := { t.dl with cls := 0, clsAir := b, clsFrom := b }, pwr := { t.pwr with
      service := s.pwr.service, trans := s.pwr.trans.map fun f => { f with origin := operateMode s } } }
  else s

/-- The armed image becomes live at B, `LIVE_EPOCH` takes the new value and the previous image is kept (R75). -/
def goLive (new : Image) (b : Boundary) (s : State) : State :=
  { s with cfg := { s.cfg with
    live := new, armed := none, prev := some (s.cfg.live, b), epoch := nextEpoch s.cfg.epoch, outcome := 1, lastCheck := 0 } }

/-- All effects of boundary B; what the ports have sent by then went at the rates and with the heads of before. -/
def commitAt (new : Image) (b : Boundary) (s : State) : State :=
  let s := drainPorts s
  let old := s.cfg.live
  let t := boundaryU b
  let s1 := goLive new b (rffeAtCommit old new s)
  let s2 := restartPorts old new (flowsAtCommit old new s1)
  let s3 := patternAtCommit old new t (loAtCommit old new s2)
  let s4 := replaceBanks s3 new (basisChanged old new)
  let s5 := filtersAtCommit old new t (gainsAtCommit new t s4)
  notePins (duplexAtCommit t (applyAtten s5))

/-- COMMIT_BOUNDARY. -/
def execCommitBoundary (s : State) : Host.Outcome State Fault Refusal :=
  match s.cfg.armed with
  | none => .next s
  | some (new, b) => .next (commitAt new b (advanceTo (boundaryU b) s))

end Sys2Proof.Machine
end

