-- ==== Sys2Proof/Machine/Sections.lean ====
section
/-! DEFINITION. The section parser (R107 to R125, R131, R132): Baesque messages from the ingress FIFO, their checks, the
receive window (R94), the section buffer, and read-back (R21). -/

namespace Sys2Proof.Machine

/-! ### Messages (R107, Table 5-1) -/

/-- Bytes of a section's header (Tables 5-6 to 5-10). -/
def headSize (t : Nat) : Nat := if t = 2 ∨ t = 4 ∨ t = 5 then 12 else 8

/-- Payload bytes that a section's header announces; none where a type 1 method or width is out of range. -/
def payloadSize (t : Nat) (h : List Byte) : Option Nat :=
  if t = 1 then
    let w := u h 5 1
    if (u h 4 1 = 1 ∨ u h 4 1 = 2) ∧ 6 ≤ w ∧ w ≤ 16 then some (u h 2 2 * (if u h 4 1 = 2 then 48 else 3 * w + 1)) else none
  else some (if t = 3 then 256 * u h 2 2 else 0)

/-- The sections that fill a message exactly: header and payload of each (R107). -/
def splitSections (t : Nat) : Nat → List Byte → Option (List (List Byte × List Byte))
  | 0, p => if p = [] then some [] else none
  | n + 1, p =>
    match payloadSize t p with
    | none => none
    | some k =>
      if p.length < headSize t + k then none
      else (splitSections t n (p.drop (headSize t + k))).map fun r => (p.take (headSize t), slice p (headSize t) k) :: r

/-- Frame that a frame ID names at an arrival time (R110). -/
def resolveFrame (id : Nat) (t : Instant) : Int := frameOf t - 32768 + ((id : Int) - (frameOf t - 32768)) % 65536

/-- Air time that a message header names, in the numerology of a flow's carrier (R111, R112). -/
def headerAir (im : Image) (f : Flow) (h : List Byte) (t : Instant) : Instant :=
  let mu := ccMu im (flowUl f) f.cc
  resolveFrame (u h 2 2) t * frameU + tk (symOffset mu ((u h 4 1 * 2 ^ mu + u h 5 1) * 14 + u h 6 1))

/-- Plan and flow that govern a message (R441, R92). -/
def governingFlow (s : State) (id : Nat) (h : List Byte) (t : Instant) : Option (Image × Flow) :=
  let live := s.cfg.live
  match s.cfg.armed with
  | none => (findFlow live id).map fun f => (live, f)
  | some (im, b) =>
    let old := match findFlow live id with
      | some f => if headerAir live f h t < boundaryU b then some (live, f) else none
      | none => none
    match findFlow im id with
    | some f => if boundaryU b ≤ headerAir im f h t then some (im, f) else old
    | none => old

/-- Flow kinds of a section type, and its eCPRI message type (Table 5-2). -/
def kindsOf (t : Nat) : List Nat :=
  match t with | 1 => [1] | 2 => [1] | 3 => [6, 7] | 4 => [2] | 5 => [8] | 6 => [4, 5] | _ => []

/-- The message header passes (Tables 5-1, 5-14). -/
def headerOk (im : Image) (f : Flow) (etype : Nat) (m : List Byte) : Bool :=
  let t := u m 0 1 % 16
  let mu := ccMu im (flowUl f) f.cc
  decide (8 ≤ m.length ∧ u m 0 1 / 16 = 1 ∧ f.kind ∈ kindsOf t ∧ etype = (if t = 1 then 0 else 2) ∧ u m 1 1 ≠ 0 ∧
    u m 4 1 ≤ 9 ∧ u m 5 1 < 2 ^ mu ∧ u m 6 1 ≤ 13 ∧ ((t = 3 ∨ t = 6) → u m 6 1 = 0) ∧ u m 7 1 = 0)

/-! ### Fields (Table 5-14) -/

/-- A weight kind that the direction's weight source permits (R184). -/
def kindPermitted (im : Image) (ul : Bool) (k : Nat) : Bool :=
  (decide (k = 1) && decide (bfSource im ul ≠ 2)) || (decide (k = 2) && decide (bfSource im ul ≠ 1))

/-- PRACH entry e has an occurrence in frame f (Table 7-4). -/
def prachIn (e : PrachEntry) (f : Nat) : Bool := decide (f % e.period = e.offset % e.period)

/-- The plan defines occasion k of a carrier in a slot of a frame (R122). -/
def occasionDefined (im : Image) (c k frame slot : Nat) : Bool :=
  (prachEntries im).any fun e => decide (e.cc = c) && decide (e.occ = k) && prachIn e frame &&
    decide (slotAtTick (ccMu im true c) e.start = slot)

/-- Groups that a control section covers, from the first (R119). -/
def ctlGroups (im : Image) (ul : Bool) (c : Nat) (h : List Byte) : Nat × Nat :=
  (u h 0 2 / bfGran im ul c, ceilN (u h 2 2) (bfGran im ul c))

/-- A beam field in range for its weight kind: an entry, or `n` vectors from the first. -/
def beamOk (kind beam n : Nat) : Bool := if kind = 1 then decide (beam ≤ 6143) else decide (beam + n - 1 ≤ 10239)

/-- Flow statistic under which a section is dropped for its fields (Table 5-14): 3 zero PRB, 4 bad section, 5 compression
mismatch; none where every field passes. -/
def fieldError (im : Image) (f : Flow) (t : Nat) (n : SymName) (h : List Byte) : Option Nat :=
  let ul := flowUl f
  let p := ccP im ul f.cc
  let mu := ccMu im ul f.cc
  let zero (o k : Nat) : Bool := decide (u h o k = 0)
  let bad (b : Bool) : Option Nat := if b then some 4 else none
  match t with
  | 1 =>
    if !zero 6 2 then some 4
    else if u h 2 2 = 0 then some 3
    else if p < u h 0 2 + u h 2 2 then some 4
    else if u h 4 1 ≠ f.method ∨ (f.method = 1 ∧ u h 5 1 ≠ f.width) ∨ (f.method = 2 ∧ u h 5 1 ≠ 16) then some 5
    else none
  | 3 => bad (!zero 4 4 || decide (10240 < u h 0 2 + u h 2 2))
  | 5 => bad (!zero 9 3 || zero 0 8 || decide (i h 8 1 = 0 ∨ i h 8 1 < -30 ∨ 30 < i h 8 1) || decide (cf im 11 0 1 ≠ 2))
  | 6 =>
    let occs := (List.range 4).filter fun k => (u h 0 1).testBit k
    bad (!zero 4 4 || zero 0 1 || decide (15 < u h 0 1) ||
      occs.any (fun k => !occasionDefined im f.cc k n.frame (n.subframe * 2 ^ mu + n.slot)) ||
      (if f.kind = 5 then !zero 1 1 || !zero 2 2 else !(decide (u h 1 1 = 1) || decide (u h 1 1 = 2)) || !beamOk (u h 1 1) (u h 2 2) 1))
  | _ =>
    let g := bfGran im ul f.cc
    let st := u h 0 2
    let cnt := u h 2 2
    let cls := u h 8 1
    bad (!zero 9 3 || decide (cnt = 0) || decide (st % g ≠ 0) || decide (cnt % g ≠ 0 ∧ st + cnt ≠ p) || decide (p < st + cnt) ||
      zero 4 1 || decide (14 < n.symbol + u h 4 1) || !kindPermitted im ul (u h 5 1) ||
      !beamOk (u h 5 1) (u h 6 2) (ctlGroups im ul f.cc h).2 ||
      (if t = 4 then decide (cls ≠ 0) else decide (15 < cls ∧ cls ≠ 0xFF)))

/-- Bytes of one PRB of a data section. -/
def prbBytes (h : List Byte) : Nat := if u h 4 1 = 2 then 48 else 3 * u h 5 1 + 1

/-- PRB k of a data section carries an exponent above 16 − w (R116). -/
def badExponent (h payload : List Byte) (k : Nat) : Bool :=
  decide (u h 4 1 = 1) && decide (16 - u h 5 1 < u payload (k * prbBytes h) 1 % 16)

/-! ### Storing -/

/-- Bytes that the DL section buffer holds (R26); delivered weight vectors no longer count. -/
def bufferUsed (s : State) : Nat :=
  (s.dl.buffer.map fun x => if x.failed then 0 else x.head.length + if x.applied then 0 else x.payload.length).sum

/-- Sections whose air time lies 12 ms back, and overlapped items two frames back, serve nothing any more. -/
def purgeBuffer (s : State) : State :=
  let now := nowU s
  { s with dl := { s.dl with
    buffer := s.dl.buffer.filter fun x => decide (now ≤ x.air + 12 * (msU : Int)),
    invalid := s.dl.invalid.filter fun x => decide (frameOf now ≤ x.frame + 2) } }

/-- The section is an exact duplicate of one that has been stored, whatever became of that (R124). -/
def isDuplicate (s : State) (x : Section) : Bool :=
  s.dl.buffer.any fun y => decide (y.flow = x.flow) && decide (y.stype = x.stype) && decide (y.sym = x.sym) &&
    decide (y.air = x.air) && decide (y.head = x.head) && decide (y.crc = x.crc)

/-- EV_LATE_SECTION's detail (Table 6-8). -/
def lateDetail (flow port : Nat) (n : SymName) (us : Nat) : List Byte :=
  leBytes 2 flow ++ leBytes 1 port ++ leBytes 1 n.subframe ++ leBytes 1 n.slot ++ leBytes 1 n.symbol ++ leBytes 1 n.frame ++
    leBytes 1 (Nat.min 255 us)

/-- One section of a message: fields, window (R94), duplicates (R124), room (R95), store. -/
def parseSection (im : Image) (f : Flow) (port t : Nat) (n : SymName) (air arrival : Instant) (h payload : List Byte) (s : State) :
    State :=
  match fieldError im f t n h with
  | some w => statAdd 0x10 f.idx w 1 s
  | none =>
    let win := imageAt s air
    let close := air - winClose win port * (usU : Int)
    if arrival < air - winOpen win port * (usU : Int) then ingressDrop port 16 11 (statAdd 0x10 f.idx 1 1 s)
    else if close ≤ arrival then
      raise 32 (lateDetail f.idx port n (rhe (arrival - close) usU).toNat) (countLink port 12 1 (statAdd 0x10 f.idx 2 1 s))
    else
      let x : Section := {
        id := s.dl.nextId, flow := f.idx, port := port, stype := t, sym := n, air := air, arrival := arrival,
        margin := ((close - arrival) / tickU).toNat, head := h, payload := payload, crc := crc32c (h ++ payload),
        usable := false, applied := false }
      if isDuplicate s x then statAdd 0x10 f.idx 7 1 s
      else if 16777216 < bufferUsed s + h.length + payload.length then ingressDrop port 13 14 s
      else
        let bad := if t = 1 then ((List.range (u h 2 2)).filter (badExponent h payload)).length else 0
        let s1 := if bad = 0 then s else statAdd 0x10 f.idx 6 bad s
        { s1 with dl := { s1.dl with buffer := s1.dl.buffer ++ [x], nextId := s1.dl.nextId + 1 } }

/-- A message from port n's FIFO (R131). A frame number below 0 has passed long ago; its symbol is named by the frame ID, which agrees with
it in every field that reads it (R110). -/
def parseMessage (n : Nat) (q : Ingress) (s : State) : State :=
  let m := q.bytes
  match governingFlow s q.pcId (fitBytes 8 m) q.arrival with
  | none => ingressDrop n 14 10 s
  | some (im, f) =>
    let s1 := if f.port ≠ n ∧ f.kind ≤ 5 then countLink n 15 1 s else s
    let t := u m 0 1 % 16
    match (if headerOk im f q.etype m then splitSections t (u m 1 1) (m.drop 8) else none) with
    | none => ingressDrop n 15 9 s1
    | some xs =>
      let fr := resolveFrame (u m 2 2) q.arrival
      let name : SymName := ⟨f.cc, if fr < 0 then u m 2 2 else fr.toNat, u m 4 1, u m 5 1, u m 6 1⟩
      xs.foldl (fun st x => parseSection im f n t name (headerAir im f m q.arrival) q.arrival x.1 x.2 st) s1

/-- SECTION_PARSE: the parser takes the oldest message of a port's FIFO. -/
def execSectionParse (port : Nat) (s : State) : Host.Outcome State Fault Refusal :=
  let p := portOf s port
  match p.fifo with
  | [] => .next s
  | q :: qs =>
    if port < 8 ∧ s.pwr.ready.getLsbD 3 then .next (parseMessage port q (purgeBuffer (setPort port { p with fifo := qs } s)))
    else .next s

/-! ### Read-back (R21, R125) -/

/-- Image and flow of a stored section. -/
def sectionFlow (s : State) (x : Section) : Flow := flowAt (imageAt s x.air) x.flow

/-- Slot within the frame of a stored section. -/
def sectionSlot (im : Image) (f : Flow) (n : SymName) : Nat := n.subframe * 2 ^ ccMu im (flowUl f) f.cc + n.slot

/-- Content items that a section names (R125). -/
def sectionItems (s : State) (x : Section) : List Item :=
  let im := imageAt s x.air
  let f := flowAt im x.flow
  let slot := sectionSlot im f x.sym
  let item (kind owner symbol index : Nat) : Item := ⟨kind, flowUl f, f.cc, owner, x.sym.frame, slot, symbol, index⟩
  match x.stype with
  | 1 => (List.range (u x.head 2 2)).map fun k => item 1 f.index x.sym.symbol (u x.head 0 2 + k)
  | 3 => (List.range (u x.head 2 2)).map fun k => item 3 0 0 (u x.head 0 2 + k)
  | 5 => ((List.range 64).filter fun p => (u x.head 0 8).testBit p).map fun p => item 4 0 x.sym.symbol p
  | 6 => ((List.range 4).filter fun k => (u x.head 0 1).testBit k).map fun k => item 5 x.flow 0 k
  | _ =>
    let g := ctlGroups im (flowUl f) f.cc x.head
    (List.range (u x.head 4 1)).flatMap fun d => (List.range g.2).map fun k => item 2 f.index (x.sym.symbol + d) (g.1 + k)

/-- Item kind of a section type in EV_DL_DUPLICATE (Table 6-8). -/
def itemKind (t : Nat) : Nat := match t with | 1 => 1 | 3 => 3 | 5 => 4 | 6 => 5 | _ => 2

/-- Items of a section that an earlier usable section names too become invalid, are counted and reported (R125). -/
def applyOverlap (x : Section) (s : State) : State :=
  let others := (s.dl.buffer.filter fun y => y.usable && decide (y.id ≠ x.id) && decide (itemKind y.stype = itemKind x.stype)).flatMap
    (sectionItems s)
  let both := (sectionItems s x).filter fun k => decide (k ∈ others)
  if both = [] then s
  else
    raise 36 (detSym x.flow (itemKind x.stype) 0 x.sym) (statAdd 0x10 x.flow 8 both.length
      { s with dl := { s.dl with invalid := s.dl.invalid ++ both.filter fun k => decide (k ∉ s.dl.invalid) } })

/-- A delivery that becomes usable at or after the claim instant of its slot is applied at once (R198); the others wait for it. -/
def deliverNow (x : Section) (s : State) : State :=
  let im := imageAt s x.air
  let f := flowAt im x.flow
  let ul := flowUl f
  let m := slotCountOf (ccMu im ul f.cc) x.sym.frame (sectionSlot im f x.sym)
  if claimInstant (ccMu im ul f.cc) m ≤ nowU s then
    let s1 := applyDelivery ul f.cc m x s
    { s1 with dl := { s1.dl with buffer := s1.dl.buffer.map fun y => if y.id = x.id then { y with applied := true } else y } }
  else s

/-- A stored section becomes usable (R21): counted with its margin, overlaps judged, weights delivered. -/
def makeUsable (x : Section) (s : State) : State :=
  let x1 := { x with usable := true }
  let s1 := { s with dl := { s.dl with buffer := s.dl.buffer.map fun y => if y.id = x.id then x1 else y } }
  let s2 := statPut 0x10 x.flow 12 (Nat.min (statGet 0x10 x.flow 12 s1) x.margin) (statAdd 0x10 x.flow 0 1 s1)
  let s3 := applyOverlap x1 s2
  if x.stype = 3 then deliverNow x1 s3 else s3

/-- A failure of a stored section is counted and raised (R155): cause 1 CRC at read-back, 2 double-bit error. -/
def countFailure (x : Section) (cause : Nat) (s : State) : State :=
  raise 33 (detSym x.flow cause x.stype x.sym) (statAdd 0x10 x.flow 9 1 s)

/-- A stored section takes a new form. -/
def setSection (x : Section) (s : State) : State :=
  { s with dl := { s.dl with buffer := s.dl.buffer.map fun y => if y.id = x.id then x else y } }

/-- A stored section fails as a whole (R21, R26). -/
def failSection (x : Section) (s : State) : State := setSection { x with usable := false, failed := true, payload := [] } s

/-- An error of a word of the section buffer (1) or the UL buffer (2) met by its read (R26): counted and raised, its address a free value
(log 23). -/
def bufferError (memory : Nat) (s : State) (double : Bool) : State :=
  let (f, s1) := takeFree s
  sramError double memory 1 (f % 2 ^ 32) s1

/-- Words of a stored section read with a double-bit error (R26): the section counts once. A data section whose header is
sound goes on without the PRBs that the words hold (Table 6-3); any other fails as a whole. -/
def strikeSection (x : Section) (words : List Nat) (s : State) : State :=
  let s2 := if x.struck = [] then countFailure x 2 s else s
  if x.stype = 1 ∧ words.all (fun w => decide (x.head.length ≤ 8 * w)) then setSection { x with struck := x.struck ++ words } s2
  else failSection { x with struck := x.struck ++ words } s2

/-- SECTION_USABLE: the read-back of a stored section, or errors in its words, single-bit or double-bit (true). -/
def execSectionUsable (id : Nat) (crcOk : Bool) (struck : List (Nat × Bool)) (s : State) : Host.Outcome State Fault Refusal :=
  match s.dl.buffer.find? fun x => decide (x.id = id) && !x.failed with
  | none => .next s
  | some x =>
    let s0 := (struck.map fun e => e.2).foldl (bufferError 1) s
    let double := (struck.filter fun e => e.2).map fun e => e.1
    let s1 := if double = [] then s0 else strikeSection x double s0
    match s1.dl.buffer.find? fun y => decide (y.id = id) && !y.failed with
    | none => .next s1
    | some y =>
      if !crcOk then .next (failSection y (if y.struck = [] then countFailure y 1 s1 else s1))
      else if y.usable then .next s1 else .next (makeUsable y s1)

end Sys2Proof.Machine
end

