-- ==== Sys2Proof/Machine/Weights.lean ====
section
/-! DEFINITION. PRB coding (R115 to R117), and weight vectors and their selection (R119, R186 to R189, R199, R201). -/

namespace Sys2Proof.Machine

/-! ### PRB coding (R115 to R117) -/

/-- The 24 values of a PRB: `b` its bytes, method and width as in the section's header. -/
def decodePrb (method width : Nat) (b : List Byte) : List Int :=
  if method = 2 then (List.range 24).map fun j => signed 16 (ub b (2 * j) 2)
  else
    let e := u b 0 1 % 16
    let v := ub b 1 (3 * width)
    (List.range 24).map fun j => signed width (v / 2 ^ (width * (23 - j))) * (2 ^ e : Nat)

/-- Every value, divided by 2^e and rounded half to even, fits the mantissa. -/
def exponentFits (width : Nat) (vs : List Int) (e : Nat) : Bool := vs.all fun v => !overBits width (rhe v (2 ^ e))

/-- Exponent of a PRB (R117). -/
def exponentOf (width : Nat) (vs : List Int) : Nat :=
  ((List.range (17 - width)).find? (exponentFits width vs)).getD (16 - width)

/-- Bytes of a PRB, and its saturated mantissas (R117; uncompressed values stand as they are). -/
def encodePrb (method width : Nat) (vs : List Int) : List Byte × Nat :=
  if method = 2 then (vs.flatMap fun v => beBytes 2 (wrapN 16 v), 0)
  else
    let e := exponentOf width vs
    let ms := vs.map fun v => rhe v (2 ^ e)
    let n := ms.foldl (fun a m => a * 2 ^ width + wrapN width (satBits width m)) 0
    (leBytes 1 e ++ beBytes (3 * width) n, (ms.filter fun m => overBits width m).length)

/-- Resource elements as the 24 values of each block of 12. -/
def blockValues (res : List IQ) (k : Nat) : List Int := ((res.drop (12 * k)).take 12).flatMap fun x => [x.1, x.2]

/-- Encode `n` blocks of 12 resource elements. -/
def encodeBlocks (f : Flow) (n : Nat) (res : List IQ) : List Byte × Nat :=
  (List.range n).foldl (fun a k =>
    let r := encodePrb f.method f.width (blockValues res k)
    (a.1 ++ r.1, a.2 + r.2)) ([], 0)

/-! ### Weights -/

/-- The 64 weights of a vector (R186). -/
def weightsOf (b : List Byte) : List IQ := (List.range 64).map fun k => (i b (4 * k) 2, i b (4 * k + 2) 2)

/-- Usable control sections that cover a symbol of a layer or stream (R119). -/
def controlsFor (s : State) (im : Image) (ul : Bool) (owner : Nat) (n : SymName) : List Section :=
  s.dl.buffer.filter fun x => x.usable && decide (x.stype = if ul then 4 else 2) &&
    (let f := flowAt im x.flow
     decide (f.kind = if ul then 2 else 1) && decide (f.cc = n.carrier) && decide (f.index = owner)) &&
    decide (x.sym.frame = n.frame) && decide (x.sym.subframe = n.subframe) && decide (x.sym.slot = n.slot) &&
    decide (x.air = airOf (ccMu im ul n.carrier) x.sym) && decide (x.sym.symbol ≤ n.symbol) && decide (n.symbol < x.sym.symbol + u x.head 4 1)

/-- Content item of a control group, or of a data PRB, of a symbol. -/
def symItem (kind : Nat) (ul : Bool) (mu owner : Nat) (n : SymName) (index : Nat) : Item :=
  ⟨kind, ul, n.carrier, owner, n.frame, n.subframe * 2 ^ mu + n.slot, n.symbol, index⟩

/-- Control sections among `l` that cover group g. -/
def coveringGroup (im : Image) (ul : Bool) (c g : Nat) (l : List Section) : List Section :=
  l.filter fun x => let r := ctlGroups im ul c x.head; decide (r.1 ≤ g) && decide (g < r.1 + r.2)

/-- What a group has: nothing scheduled, missing weights with a cause of Table 8-8 (and the Cabinet entry whose CRC failed), or
weights. -/
inductive GroupWeights where
  | unscheduled
  | missing (cause : Nat) (entry : Option Nat)
  | weights (w : List IQ)
  deriving DecidableEq, Repr

/-- A stored vector has a word that reads with a double-bit error. -/
def vectorStruck (s : State) (key : Nat) : Bool :=
  s.ls.bad.any fun h => decide (h.memory = 3) && h.double && decide (h.address / 32 = key)

/-- The load of a Cabinet entry for a symbol fails: a word of it reads with a double-bit error (R26), so that its CRC fails (R201). What
the entry held before a boundary, or is to hold after one, is not read from those words. -/
def entryStruck (s : State) (e : Nat) (air : Instant) : Bool :=
  (cabHits s e).any (fun h => h.double) && decide (cabAt s e air = cabOf s e)

/-- The words of loaded vectors that hold an error are met (R26), at each load. -/
def loadVectors (keys : List Nat) (s : State) : State :=
  if s.ls.bad.any fun h => decide (h.memory = 3) then
    keys.foldl (fun t k => readWords 3 ((t.ls.bad.filter fun h => decide (h.memory = 3) && decide (h.address / 32 = k)).map fun h => h.address) t) s
  else s

/-- Weights that a kind and beam select for a vector `v` or an entry (R199, R201): carrier c, slot count m, air time, and the instant at
which the beamformer reads them. -/
def selectWeights (s : State) (im : Image) (ul : Bool) (c m : Nat) (air read : Instant) (kind beam v : Nat) : GroupWeights :=
  if kind = 1 then
    let e := cabAt s beam air
    if !e.defined then .missing 2 none
    else if entryStruck s beam air then .missing 3 (some beam)
    else .weights (weightsOf (fitBytes 256 e.weights))
  else
    let reg := regionOf im ul c
    let w := vecAt read (tget {} s.bf.vec (vecKey ul (m % 2) v))
    if v < reg.1 ∨ reg.1 + reg.2 ≤ v then .missing 4 none
    else if w.claim ≠ some (c, m) ∨ w.state ≠ 1 then .missing 5 none
    else if vectorStruck s (vecKey ul (m % 2) v) then .missing 6 none
    else .weights (weightsOf (fitBytes 256 w.data))

/-- Vector that a control section names for group g. -/
def groupVector (im : Image) (ul : Bool) (c g : Nat) (x : Section) : Nat := u x.head 6 2 + (g - (ctlGroups im ul c x.head).1)

/-- Instant at which the beamformer reads the weights of a symbol: in the downlink at its release (R20); in the uplink when the last stage
before the combine is done (Table 7-2), 28,980 + 48 q ticks after the symbol's end. -/
def weightsRead (im : Image) (ul : Bool) (n : SymName) : Instant :=
  let mu := ccMu im ul n.carrier
  let air := airOf mu n
  if ul then air + tk (symTicks mu (symIndex mu n)) + tk (28980 + 48 * rateRatio mu (ccN im true n.carrier)) else air - tk 66356

/-- Keys of the vectors that the beamformer loads for a layer or stream of a symbol, one load a group. -/
def vectorsLoaded (s : State) (im : Image) (ul : Bool) (owner : Nat) (n : SymName) : List Nat :=
  let c := n.carrier
  let mu := ccMu im ul c
  let m := slotCountOf mu n.frame (n.subframe * 2 ^ mu + n.slot)
  let ctls := controlsFor s im ul owner n
  (List.range (groupsOf im ul c)).filterMap fun g =>
    match coveringGroup im ul c g ctls with
    | [] => none
    | x :: _ =>
      let key := vecKey ul (m % 2) (groupVector im ul c g x)
      let w := vecAt (weightsRead im ul n) (tget {} s.bf.vec key)
      if u x.head 5 1 = 2 ∧ symItem 2 ul mu owner n g ∉ s.dl.invalid ∧ w.claim = some (c, m) ∧ w.state = 1 then some key else none

/-- Cabinet entries that the beamformer loads for a layer or stream of a symbol, one load a group. -/
def entriesLoaded (s : State) (im : Image) (ul : Bool) (owner : Nat) (n : SymName) : List Nat :=
  let ctls := controlsFor s im ul owner n
  (List.range (groupsOf im ul n.carrier)).filterMap fun g =>
    match coveringGroup im ul n.carrier g ctls with
    | [] => none
    | x :: _ =>
      if u x.head 5 1 = 1 ∧ symItem 2 ul (ccMu im ul n.carrier) owner n g ∉ s.dl.invalid ∧
        cabAt s (u x.head 6 2) (airOf (ccMu im ul n.carrier) n) = cabOf s (u x.head 6 2) then some (u x.head 6 2) else none

/-- The corrected words of loaded Cabinet entries are counted at each load (R26); double-bit errors count with the failed load. -/
def loadEntries (es : List Nat) (s : State) : State :=
  if s.ls.bad.any fun h => decide (h.memory = 4) then
    es.foldl (fun t e => readWords 4 (((cabHits t e).filter fun h => !h.double).map fun h => h.address) t) s
  else s

/-- The beamformer loads the weights of a layer or stream of a symbol, and meets the errors of their words (R26). -/
def loadWeights (im : Image) (ul : Bool) (owner : Nat) (n : SymName) (s : State) : State :=
  loadVectors (vectorsLoaded s im ul owner n) (loadEntries (entriesLoaded s im ul owner n) s)

/-- Weights of group g of a layer or stream for a symbol. A control item made invalid by overlap is cause 1 in the uplink, and leaves the
group unscheduled in the downlink (R138). -/
def groupWeights (s : State) (im : Image) (ul : Bool) (owner : Nat) (n : SymName) (ctls : List Section) (g : Nat) : GroupWeights :=
  let c := n.carrier
  let mu := ccMu im ul c
  let m := slotCountOf mu n.frame (n.subframe * 2 ^ mu + n.slot)
  match coveringGroup im ul c g ctls with
  | [] => .unscheduled
  | x :: _ =>
    if symItem 2 ul mu owner n g ∈ s.dl.invalid then (if ul then .missing 1 none else .unscheduled)
    else selectWeights s im ul c m (airOf mu n) (weightsRead im ul n) (u x.head 5 1) (u x.head 6 2) (groupVector im ul c g x)

/-- A load of a Cabinet entry whose CRC fails (R201): counted, raised, and the word that reads with a double-bit error too (R26). -/
def failedLoad (src owner : Nat) (ul : Bool) (n : SymName) (s : State) (e : Nat) : State :=
  let s1 := raise 66 (detSym e 1 0 n) (statAdd src owner (if ul then 6 else 1) 1 s)
  ((cabHits s e).filter fun h => h.double).foldl (fun t h => sramError true 4 1 h.address t) s1

/-- Missing groups of a symbol and layer or stream (R201): counted, each failed load of a Cabinet entry with its event, and
EV_WEIGHT_MISSING with the lowest group and its cause. `gs` lists group, cause and failed entry in ascending order. -/
def reportMissing (ul : Bool) (owner : Nat) (n : SymName) (gs : List (Nat × Nat × Option Nat)) (s : State) : State :=
  match gs with
  | [] => s
  | (g, cause, _) :: _ =>
    let src := if ul then 0x16 else 0x15
    let s1 := statAdd src owner (if ul then 5 else 0) gs.length s
    let s2 := (gs.filterMap fun e => e.2.2).foldl (failedLoad src owner ul n) s1
    raise 65 (detSym g ((if ul then 128 else 0) + 16 * cause + n.carrier) owner n) s2

/-- Groups with missing weights among a list. -/
def missingOf (gw : List (Nat × GroupWeights)) : List (Nat × Nat × Option Nat) :=
  gw.filterMap fun e => match e.2 with
    | .missing c x => some (e.1, c, x)
    | _ => none

end Sys2Proof.Machine
end

