-- ==== Sys2Proof/Machine/Downlink.lean ====
section
/-! DEFINITION. The downlink chain: release (R20, R138 to R142), the DPD class (R120, R218), the sample chain (R143 to R151,
R206, R209 to R213), playout (R136, R137) and the end of a mute (R152). -/

namespace Sys2Proof.Machine

/-! ### Release -/

/-- Pipeline of R20: ticks from release to air time. -/
def pipeTicks : Nat := 66356

/-- PRB k of a data section has a buffer word that reads with a double-bit error (Table 6-3). -/
def prbStruck (x : Section) (k : Nat) : Bool :=
  let lo := x.head.length + k * prbBytes x.head
  x.struck.any fun w => decide (8 * w < lo + prbBytes x.head) && decide (lo < 8 * w + 8)

/-- Usable data section that a PRB of a layer takes its values from (R138): not overlapped, exponent in range, its words sound. -/
def dataFor (s : State) (im : Image) (layer : Nat) (n : SymName) (prb : Nat) : Option Section :=
  if symItem 1 false (ccMu im false n.carrier) layer n prb ∈ s.dl.invalid then none
  else s.dl.buffer.find? fun x => x.usable && decide (x.stype = 1) && decide (x.sym = n) &&
    decide (x.air = airOf (ccMu im false n.carrier) n) &&
    (let f := flowAt im x.flow
     decide (f.kind = 1) && decide (f.cc = n.carrier) && decide (f.index = layer)) &&
    decide (u x.head 0 2 ≤ prb) && decide (prb < u x.head 0 2 + u x.head 2 2) &&
    !badExponent x.head x.payload (prb - u x.head 0 2) && !prbStruck x (prb - u x.head 0 2)

/-- A usable data section covers a PRB, whatever its items' state. -/
def dataCovers (s : State) (im : Image) (layer : Nat) (n : SymName) (prb : Nat) : Bool :=
  s.dl.buffer.any fun x => x.usable && decide (x.stype = 1) && decide (x.sym = n) &&
    decide (x.air = airOf (ccMu im false n.carrier) n) &&
    (let f := flowAt im x.flow
     decide (f.kind = 1) && decide (f.cc = n.carrier) && decide (f.index = layer)) &&
    decide (u x.head 0 2 ≤ prb) && decide (prb < u x.head 0 2 + u x.head 2 2)

/-- Values of a PRB of a data section. -/
def prbValues (x : Section) (prb : Nat) : List Int :=
  let b := prbBytes x.head
  decodePrb (u x.head 4 1) (u x.head 5 1) (slice x.payload ((prb - u x.head 0 2) * b) b)

/-- Lower-index record of kind 1 that names a carrier and layer (R139). -/
def layerFlow (im : Image) (c layer : Nat) : Option Flow :=
  (governingFlows im).foldl (fun a f =>
    if f.kind = 1 ∧ f.cc = c ∧ f.index = layer then
      match a with
      | some g => if g.idx ≤ f.idx then some g else some f
      | none => some f
    else a) none

/-- One layer of a symbol at release: its content, the PRBs zero-filled, and the groups with missing weights. -/
def releaseLayer (s : State) (im : Image) (n : SymName) (layer : Nat) :
    LayerContent × Nat × List (Nat × Nat × Option Nat) :=
  let c := n.carrier
  let g := bfGran im false c
  let ctls := controlsFor s im false layer n
  let prbs := List.range (ccP im false c)
  let gw := (List.range (groupsOf im false c)).map fun k =>
    let w := groupWeights s im false layer n ctls k
    let data := (List.range g).any fun j => dataCovers s im layer n (g * k + j)
    (k, match w with
        | .unscheduled => if data then GroupWeights.missing 1 none else .unscheduled
        | w => w)
  let scheduled (p : Nat) : Bool :=
    (coveringGroup im false c (p / g) ctls).length != 0 && decide (symItem 2 false (ccMu im false c) layer n (p / g) ∉ s.dl.invalid)
  let vals := prbs.filterMap fun p => (dataFor s im layer n p).map fun x => (p, prbValues x p)
  let filled := (prbs.filter fun p => scheduled p && (dataFor s im layer n p).isNone).length
  let ws := gw.filterMap fun e => match e.2 with
    | .weights w => some (e.1, w)
    | _ => none
  (⟨layer, vals, ws⟩, filled, missingOf gw)

/-- Counts and events of a released layer (R139, R201). -/
def layerEvents (im : Image) (n : SymName) (r : LayerContent × Nat × List (Nat × Nat × Option Nat)) (s : State) : State :=
  let s1 := match layerFlow im n.carrier r.1.layer with
    | some f =>
      if r.2.1 = 0 then s
      else raise 34 (detSym r.2.1 n.carrier r.1.layer n) (statAdd 0x10 f.idx 11 1 (statAdd 0x10 f.idx 10 r.2.1 s))
    | none => s
  reportMissing false r.1.layer n r.2.2 s1

/-! ### Saturations and residues at release -/

/-- Saturations of beamformer and iFFT of one antenna at release (R153, R190). -/
def antennaSats (im : Image) (r : Released) (s : State) (n : Nat) : State :=
  let c := r.sym.carrier
  let s1 := countSat 0x14 n c (overCount 16 ((carriedRes r).map (bfOut im r n))) 67 (detSym n c 0 r.sym) s
  countSat 0x11 n 0 (overCount 16 (ifftOut im r n)) 35 (detSym n 1 c r.sym) s1

/-! ### DPD class (R120) -/

/-- Usable DL control sections that cover a symbol on flows of its carrier, with their layers. -/
def classSections (s : State) (im : Image) (n : SymName) : List (Nat × Section) :=
  ((List.range 32).flatMap fun l => (controlsFor s im false l n).map fun x => (l, x))

/-- Sections that tie as governing: lowest layer, then lowest start PRB. -/
def governingSections (l : List (Nat × Section)) : List Section :=
  match (l.map fun e => e.1).min? with
  | none => []
  | some a =>
    let m := (l.filter fun e => decide (e.1 = a)).map fun e => e.2
    match (m.map fun x => u x.head 0 2).min? with
    | none => []
    | some b => m.filter fun x => decide (u x.head 0 2 = b)

/-- Class that a section gives after class `prev` (R120, R201). -/
def sectionClass (s : State) (im : Image) (air : Instant) (prev : Nat) (x : Section) : Nat :=
  if cf im 7 0 1 = 2 then
    let e := cabAt s (u x.head 6 2) air
    if u x.head 5 1 = 1 ∧ e.defined ∧ !entryStruck s (u x.head 6 2) air then e.cls else prev
  else if u x.head 8 1 = 0xFF then prev else u x.head 8 1 % 16

/-- SERVICE_START is still to come: service has not started, or row 4 has not handed it over (R342). -/
def startPending (s : State) : Bool := !s.pwr.serving || !(decide (s.rf.backoff = decide (s.pwr.mode = .bringUp)))

/-- Instant at which the class history of a symbol begins with class 0: the service start or handover S, or the boundary of a
commit that changes the duplex, whichever was last (R120, R342). -/
def classStart (s : State) (air : Instant) : Instant :=
  let a := match s.pwr.service with
    | some (_, t) => if startPending s && decide (t ≤ air) then max t s.dl.clsFrom else s.dl.clsFrom
    | none => s.dl.clsFrom
  match s.cfg.armed with
  | some (new, b) => if isOperate s.pwr.mode && isFdd new != isFdd s.cfg.live && decide (boundaryU b ≤ air) then max a (boundaryU b) else a
  | none => a

/-- Class of the symbol before a class-carrier symbol: that of the latest one released before it on the carrier that was the class
carrier then, else 0 where the symbol is the first after entry into the mode, else the class in force (R120). -/
def previousClass (s : State) (air : Instant) : Nat :=
  let start := classStart s air
  match (s.dl.released.filter fun r => decide (classCarrier (imageAt s r.air) = some r.sym.carrier) && decide (r.air < air) &&
      decide (start ≤ r.air)).foldl
    (fun a r => match a with
      | some q => if q.air ≤ r.air then some r else some q
      | none => some r) (none : Option Released) with
  | some r => r.cls
  | none => if s.pwr.serving && decide (start ≤ s.dl.clsFrom) then s.dl.cls else 0

/-- Class of a class-carrier symbol. Sections that tie as governing and give different classes leave open which class governs: a free
choice that hangs on those classes alone, neither on the order in which they came nor on anything else (R28, R29; log 7). -/
def symbolClass (s : State) (im : Image) (n : SymName) (air : Instant) : Nat :=
  let prev := previousClass s air
  let given := (governingSections (classSections s im n)).map (sectionClass s im air prev)
  match (List.range 16).filter fun c => decide (c ∈ given) with
  | [] => prev
  | cs => cs.getD (Config.tieClass cs % cs.length) prev

/-! ### DL_SYMBOL_RELEASE -/

/-- A DL symbol of air time A is played (R134, R342). Service that runs goes on through the handover of row 4. -/
def playsSymbol (s : State) (air : Instant) : Bool :=
  isService s.pwr.mode &&
  (if s.pwr.serving then decide (s.ul.notBefore ≤ air)
   else match s.pwr.service with
    | some (_, t) => decide (t ≤ air) && decide (nowU s ≤ t)
    | none => false) &&
  (match s.pwr.endAt with | some e => decide (air < e) | none => true)

/-- The data sections of a symbol leave the buffer (R20). -/
def dropData (n : SymName) (air : Instant) (s : State) : State :=
  { s with dl := { s.dl with buffer := s.dl.buffer.filter fun x => !(decide (x.stype = 1) && decide (x.sym = n) && decide (x.air = air)) } }

/-- A fault at a sum of the beamformer is a residue mismatch (R202, R386): a received residue disagrees with its operand, or the exact sum's
residue differs from the one predicted. -/
def bfMismatch (im : Image) (r : Released) (f : Flip) : Bool :=
  let ops := bfOperands im r.sym.carrier r.layers (elementOf im f.lane).1 f.index
  f.received || mismatch (addIQ (accOf ops) f.err) (predicted ops)

/-- Failed checks at release: residue mismatches are counted and raised (R145, R202), by PRB group in the beamformer; a sample that fails
parity on the way to the up-converter raises EV_BRIDGE_PARITY, word kind 1 (R385), and no rule counts it. -/
def dlResidues (im : Image) (r : Released) (s : State) : State :=
  let n := r.sym
  let s1 := (r.bfErrs.filter (bfMismatch im r)).foldl (fun t f =>
    raise 64 (detSym f.lane n.carrier (f.index / 12 / bfGran im false n.carrier % 256) n) (statAdd 0x14 f.lane 4 1 t)) s
  let s2 := (r.fftErrs.filter struckFlip).foldl (fun t f => raise 99 (detSym f.lane n.carrier 0 n) (statAdd 0x11 f.lane 4 1 t)) s1
  r.zeros.dedup.foldl (fun t e => bridgeEvent false (tileOf e.1) 1 t) s2

/-- Paths marked by the failed checks at release. -/
def releaseMarks (im : Image) (r : Released) : List Nat :=
  ((((r.bfErrs.filter (bfMismatch im r)) ++ r.fftErrs.filter struckFlip).map fun f => f.lane) ++ r.zeros.map fun e => e.1).dedup

/-- Symbols leave the list when no capture and no playout can still read their samples. -/
def keepReleased (now : Instant) (r : Released) : Bool := decide (now < r.air + tk (r.length + 3 * pipeTicks))

/-- Release of a symbol that is played: layers, zero-fill, missing weights, class, saturations. -/
def releaseSymbol (im : Image) (n : SymName) (air : Instant) (f : DlFaults) (s : State) : State :=
  let mu := ccMu im false n.carrier
  let rs := (List.range (bfLayers im false)).map (releaseLayer s im n)
  let s0 := (List.range (bfLayers im false)).foldl (fun t l => loadWeights im false l n t) (f.buffer.foldl (bufferError 1) s)
  let s1 := rs.foldl (fun t r => layerEvents im n r t) s0
  let cls := if classCarrier im = some n.carrier then symbolClass s1 im n air else 0
  let r : Released := {
    sym := n, air := air, length := symTicks mu (symIndex mu n),
    layers := (rs.map fun x => x.1).filter fun l => decide (l.prbs ≠ []), cls := cls, bfErrs := f.bf, fftErrs := f.fft, zeros := f.parity,
    played := [], marked := [] }
  let s4 := if r.layers = [] then s1 else (List.range 64).foldl (antennaSats im r) s1
  let s5 := dlResidues im r s4
  dropData n air { s5 with dl := { s5.dl with
    released := s5.dl.released.filter (fun q => keepReleased (nowU s5) q && decide ((q.sym, q.air) ≠ (n, air))) ++ [{ r with marked := releaseMarks im r }] } }

/-- Image that governs the symbol of a name that is to be released. -/
def releaseImage (s : State) (n : SymName) : Option Image :=
  symImage s false n (-(tk pipeTicks)) ((s.dl.released.find? fun r => decide (r.sym = n)).map fun r => r.air)

/-- Image that governs the symbol of a name at which the class switches. -/
def switchImage (s : State) (n : SymName) : Option Image := symImage s false n 0 s.dl.switched

/-- DL_SYMBOL_RELEASE: T0 = A − 66,356 ticks. A symbol that is not played leaves the buffer unflagged (R342). -/
def execDlSymbolRelease (sym : SymName) (faults : DlFaults) (s : State) : Host.Outcome State Fault Refusal :=
  match releaseImage s sym with
  | none => .next s
  | some im =>
    let air := airOf (ccMu im false sym.carrier) sym
    if s.pwr.ready.getLsbD 3 then
      let s1 := advanceTo (air - tk pipeTicks) s
      if playsSymbol s1 air then .next (releaseSymbol im sym air faults s1) else .next (dropData sym air s1)
    else .next s

/-! ### Playout (R136, R137, R151) -/

/-- DL_PLAYOUT: at A − d(p) − 768 ticks a released symbol starts toward the pins of a path. `underflow` are the ticks of the symbol that
have no sample (R137), `parity` those whose word fails on the bridge (R151), and `residue` the faults in the DPD's products and sums (R213). -/
def execDlPlayout (path : Nat) (sym : SymName) (underflow parity : List Nat) (residue : List DpdFault) (s : State) :
    Host.Outcome State Fault Refusal :=
  match s.dl.released.find? fun r => decide (r.sym = sym) && decide (path ∉ r.played) with
  | none => .next s
  | some r =>
    if path < 64 ∧ path ∉ r.played ∧ isService s.pwr.mode then
      .next (startSymbol path r underflow parity residue (advanceTo (r.air - delayU s (imageAt s r.air) false path - tk 768) s))
    else .next s

/-! ### Class switch and mute -/

/-- DPD_CLASS_SWITCH: the class of a class-carrier symbol takes over at its first tick (R218). Paths that an LO had stopped
resume with it (R268), and the attenuations decided since take effect (R258), whether or not the symbol is played. -/
def execDpdClassSwitch (sym : SymName) (s : State) : Host.Outcome State Fault Refusal :=
  match switchImage s sym with
  | none => .next s
  | some im =>
    let air := airOf (ccMu im false sym.carrier) sym
    if classCarrier im = some sym.carrier then
      let s0 := advanceTo air s
      let s1 := applyAtten { s0 with dl := { s0.dl with switched := some air } }
      if !playsSymbol s air then .next s1 else
      let cls := match s1.dl.released.find? fun r => decide (r.sym = sym) with
        | some r => r.cls
        | none => s1.dl.cls
      .next (notePins (endSilence ((List.range 4).filter fun q => s1.rf.resume.getLsbD q) false air { s1 with
        dl := { s1.dl with cls := cls, clsAir := if cls = s1.dl.cls then s1.dl.clsAir else air },
        rf := { s1.rf with resume := 0 } }))
    else .next s

/-- Instant at which a mute ends (R152) that was lifted at `t`: the air time of the first class-carrier symbol whose first tick
reaches the pins of every path after it, else the first 1 ms boundary. -/
def muteEndAt (s : State) (t : Instant) : Instant :=
  let im := s.cfg.live
  match classCarrier im with
  | some c =>
    let far := (List.range 64).foldl (fun a p => max a (delayU s im false p)) 0
    symbolStart (ccMu im false c) (nextSymbol (ccMu im false c) (t + far + 1))
  | none => ceilDiv t msU * msU

/-- MUTE_END. -/
def execMuteEnd (s : State) : Host.Outcome State Fault Refusal :=
  match s.em.unmuteAt with
  | none => .next s
  | some t =>
    let s1 := endSilence [0, 1, 2, 3] true (muteEndAt s t) (advanceTo (muteEndAt s t) s)
    .next { s1 with em := { s1.em with muted := false, unmuteAt := none } }

end Sys2Proof.Machine
end

