-- ==== Sys2Proof/Machine/Ddc.lean ====
section
/-! DEFINITION. The uplink's sample chain: alignment of converter samples to air time (R158), gain alignment (R166), down-conversion and
decimation (R162, R163), cyclic-prefix removal, FFT and demapping (R170, R171), PRACH extraction (R174), and the rail samples and
parity failures of a path (R168). -/

namespace Sys2Proof.Machine

/-! ### Converter samples (R14, R16, R158) -/

/-- Word of a path at a pin tick: as the bridge delivers it, a word that failed parity or was overwritten before it was read being zero (R16,
R394); zero too where none is listed. -/
def adcWord (o : UlObs) (p : Nat) (k : Int) : Word :=
  if (o.parity ++ o.overwritten).any fun e => decide (e.1 = p) && decide (e.2 = k) then 0
  else match o.adc.find? fun r => decide (r.path = p) && decide (r.tick ≤ k) && decide (k < r.tick + r.words.length) with
    | some r => r.words.getD (k - r.tick).toNat 0
    | none => 0

/-- A path has samples other than zero. -/
def hasSamples (o : UlObs) (p : Nat) : Bool := o.adc.any fun r => decide (r.path = p)

/-- A code at either rail, in I or in Q (R167). -/
def atRail (w : Word) : Bool :=
  let c := wordCode w
  decide (c.1 = -8192) || decide (c.1 = 8191) || decide (c.2 = -8192) || decide (c.2 = 8191)

/-- Aligned sample of a path at an air-time tick (R158): the integer part of d(p) comes off in the path's alignment buffer of 16,384
samples, the fraction in the 8-tap filter over the words about it. -/
def alignedAt (o : UlObs) (p d : Nat) (t : Int) : IQ :=
  Config.fracAlign (d % 256) ((List.range 8).map fun k => wordCode (adcWord o p (t + (d / 256 : Nat) + k - 3)))

/-- Size of a path's alignment buffer in samples (R158). -/
def alignmentBuffer : Nat := 16384

/-- Air time of a pin tick of a path (R8, R158). -/
def airOfPin (d : Instant) (k : Int) : Instant := k * tickU - d

/-- Pin ticks of a path with samples at a rail whose air time lies in an interval (R168). -/
def railIn (o : UlObs) (p : Nat) (d a b : Instant) : Bool :=
  o.adc.any fun r => decide (r.path = p) && (List.range r.words.length).any fun j =>
    atRail (adcWord o p (r.tick + j)) && decide (a ≤ airOfPin d (r.tick + j)) && decide (airOfPin d (r.tick + j) < b)

/-- Words of a path that failed parity and whose air time lies in an interval. -/
def parityIn (o : UlObs) (p : Nat) (d a b : Instant) : List (Nat × Int) :=
  (o.parity.filter fun e => decide (e.1 = p) && decide (a ≤ airOfPin d e.2) && decide (airOfPin d e.2 < b)).dedup

/-- A word of a path whose air time lies in an interval was overwritten before it was read (R394). -/
def overwrittenIn (o : UlObs) (p : Nat) (d a b : Instant) : Bool :=
  o.overwritten.any fun e => decide (e.1 = p) && decide (a ≤ airOfPin d e.2) && decide (airOfPin d e.2 < b)

/-! ### Gain alignment (R166, R167) -/

/-- Applied gain that the alignment multiplier of a path stands for at an air time: that of the last change whose multiplier has
switched. -/
def gainAt (s : State) (p : Nat) (t : Instant) : Nat :=
  let mine := s.ul.gains.filter fun g => decide (g.path = p)
  match (mine.filter fun g => decide (g.air ≤ t)).getLast? with
  | some g => g.new
  | none => match mine.head? with
    | some g => g.old
    | none => appliedGain s p

/-- Alignment multiplier at an air time: unity with alignment off, else the inverse of the analogue gain by the path's gain-step
calibration (type 5, R375). -/
def multiplier (s : State) (p : Nat) (t : Instant) : Int :=
  if cf (imageAt s t) 11 2 1 = 1 then Config.gainInverse p (gainAt s p t) (gainSteps s p) else 2 ^ Config.gainFrac

/-- Gain-aligned converter-rate sample of a path at an air-time tick. -/
def gainedAt (s : State) (o : UlObs) (p d : Nat) (t : Int) : IQ :=
  let x := alignedAt o p d t
  let m := multiplier s p (t * tickU)
  (x.1 * m, x.2 * m)

/-! ### Down-conversion and decimation (R162, R163) -/

/-- First tick of the useful part of the symbol of a carrier that holds a tick. -/
def usefulAt (im : Image) (c : Nat) (t : Int) : Int :=
  let mu := ccMu im true c
  let n := symbolAt mu (t * tickU)
  tickOf (symbolStart mu n) + (rateRatio mu (ccN im true c) * cpSamples mu (ccN im true c) n : Nat)

/-- Sample of a carrier shifted from its frequency offset to 0 (R162). -/
def mixedAt (s : State) (im : Image) (o : UlObs) (p d c : Nat) (t : Int) : IQ :=
  mulIQ (gainedAt s o p d t) (ncoVector (ncoPhase (-(ncoStep (ccFreq im true c))) (t - usefulAt im c t)))

/-- Group length G of a decimation setting (Table 7-3). -/
def groupLength (setting : Nat) : Nat := 24 * (setting + 1)

/-- Ticks that the filter of a setting reaches to either side: it is G samples long (Table 7-3), its group delay compensated. -/
def decimReach (setting q : Nat) : Nat := Nat.min (Config.decimReach setting q) (groupLength setting * q / 2)

/-- Decimated sample of a carrier at a tick of its grid, scaled, before saturation (R162): the filter of the setting, its group delay
compensated. A filter cleared at `since` has nothing from before it (R164). -/
def ddcAt (s : State) (im : Image) (o : UlObs) (p d c : Nat) (since : Option Instant) (g : Int) : IQ :=
  let q := rateRatio (ccMu im true c) (ccN im true c)
  let reach := decimReach (ccDecim im c) q
  let sum := sumIQ ((List.range (2 * reach + 1)).map fun k =>
    let t := g + k - reach
    let x := if since.any fun b => decide (t * tickU < b) then (0, 0) else mixedAt s im o p d c t
    let h := Config.decimTap (ccDecim im c) q (g - t)
    (x.1 * h, x.2 * h))
  let w : Int := ccScale im true c
  rheIQ (sum.1 * w, sum.2 * w) (2 ^ (15 + 17 + Config.gainFrac + Config.decimFrac))

/-- The decimated samples of a symbol on a path before saturation, cyclic prefix first. -/
def ddcSymbol (s : State) (im : Image) (o : UlObs) (p d c : Nat) (air : Instant) (n : Nat) : List IQ :=
  let size := ccN im true c
  let count := cpSamples (ccMu im true c) size n + size
  if hasSamples o p then
    (List.range count).map fun j => ddcAt s im o p d c (clearedAt s c air) (tickOf air + (j * rateRatio (ccMu im true c) size : Nat))
  else List.replicate count (0, 0)

/-! ### FFT and demapping (R170, R171) -/

/-- What the chain makes of a symbol on one path: resource elements, saturations of the DDC and of the FFT, rail samples, words that
failed parity, whether one was overwritten, and the mismatches of the FFT's residue. -/
structure AntennaSym where
  res : List IQ
  ddcSat : Nat
  fftSat : Nat
  rail : Bool
  parity : List (Nat × Int)
  overwritten : Bool
  residue : Nat
  deriving DecidableEq, Repr

/-- Resource element k = 12 × PRB + j comes from bin (k − 6P) mod N; the other bins are discarded (R171). -/
def demap (size prbs : Nat) (bins : List IQ) : List IQ :=
  let arr := bins.toArray
  (List.range (12 * prbs)).map fun k => arr.getD ((((k : Int) - 6 * prbs) % size).toNat) (0, 0)

/-- A symbol of a carrier on one path, from its converter samples to its resource elements. -/
def antennaSymbol (s : State) (im : Image) (o : UlObs) (n : SymName) (air fin : Instant) (p : Nat) : AntennaSym :=
  let c := n.carrier
  let size := ccN im true c
  let d := pathDelay s im true p
  let dU := delayU s im true p
  let xs := ddcSymbol s im o p d c air (symIndex (ccMu im true c) n)
  let errs := errorsOf o.fft p
  let bins := transform false size (ccShift im true c) ((xs.drop (xs.length - size)).map (satIQ 16)) errs
  { res := demap size (ccP im true c) (bins.map (satIQ 16)), ddcSat := overCount 16 xs, fftSat := overCount 16 bins,
    rail := railIn o p dU air fin, parity := parityIn o p dU air fin,
    overwritten := overwrittenIn o p dU air fin,
    residue := (o.fft.filter fun f => decide (f.lane = p) && struckFlip f).length }

/-! ### PRACH extraction (R174) -/

/-- A repetition's sequence elements on one path: from the aligned, gain-compensated converter-rate stream, shifted to the entry's
frequency, which is relative to the carrier's centre. -/
def antennaPrach (s : State) (im : Image) (o : UlObs) (c fmt : Nat) (freq : Int) (len ticks : Nat) (a : Instant) (p : Nat) : AntennaSym :=
  let d := pathDelay s im true p
  let dU := delayU s im true p
  let xs := if hasSamples o p then (ticksFrom (tickOf a) ticks).map (gainedAt s o p d) else []
  let raw := if xs = [] then [] else
    (Config.prach fmt (ccFreq im true c + freq) xs).map fun x => rheIQ x (2 ^ Config.prachFrac)
  let es := (raw ++ List.replicate len (0, 0)).take len
  { res := es.map (satIQ 16), ddcSat := overCount 16 es, fftSat := 0, rail := railIn o p dU a (a + tk ticks),
    parity := parityIn o p dU a (a + tk ticks), overwritten := overwrittenIn o p dU a (a + tk ticks),
    residue := 0 }

end Sys2Proof.Machine
end

