-- ==== Sys2Proof/Machine/Uplink.lean ====
section
/-! DEFINITION. The uplink chain: flags and marks (R165 to R168, R178), the beamformer combine (R172, R189), sections and
fragments (R126 to R130), export (R157, R160, R161), PRACH (R173 to R176) and gain steps (R166, R167, R169). -/

namespace Sys2Proof.Machine

/-! ### What has been served (R75) -/

/-- The row of key `k` has served the symbol or occasion of an air time. -/
def serve (k : Nat) (air : Instant) (s : State) : State := { s with ul := { s.ul with served := tput k air (tdrop s.ul.served k) } }

/-- Air time that the row of key `k` last served. -/
def lastServed (s : State) (k : Nat) : Option Instant := (s.ul.served.find? fun e => decide (e.1 = k)).map fun e => e.2

/-! ### Running and flags -/

/-- A word of the symbol's buffers reads with a double-bit error (R26). -/
def ulDed (o : UlObs) : Bool := o.buffer.any fun d => d

/-- A check of a flow's section fails at the compressor's input or in the UL buffer (R385). -/
def ulBad (o : UlObs) (f : Flow) : Bool := ulDed o || decide (f.idx ∈ o.compressor)

/-- The UL chain runs at the antenna reference point for the whole of an interval (R157, R342). -/
def ulRuns (s : State) (a b : Instant) : Bool :=
  isService s.pwr.mode && (s.pwr.serving || s.ul.notAfter.isSome) && decide (s.ul.notBefore ≤ a) &&
    (match s.ul.notAfter with | some e => decide (b ≤ e) | none => true)

/-- The LO-R of a path's tile is retuning, unlocked or treated so, since before a pin instant (R168, R312). -/
def rxLoBad (s : State) (p : Nat) (pin : Instant) : Bool :=
  let l := loOf s (2 * (p / 16) + 1)
  ((decide (l.state = 1) || decide (l.state = 3)) && decide (instantAt s.tm (loSince l) < pin)) ||
    (s.rf.bridge && decide (instantAt s.tm s.rf.bridgeSince < pin))

/-- What one antenna reports for a section: flags of Table 5-12 but WEIGHT_MISSING, and the gain step with AGC_STEP. -/
structure AntennaFlags where
  flags : Nat
  step : Int
  deriving DecidableEq, Repr

/-- Flag word from bits. -/
def flagWord (agc corrupt filt integ sat rail missing : Bool) : Nat :=
  b2n agc + 2 * b2n corrupt + 4 * b2n filt + 8 * b2n integ + 16 * b2n sat + 32 * b2n rail + 64 * b2n missing

/-- Flags of an antenna given the marks that concern it and what the chain made of its samples (Table 7-6); `pin` is the end of the
interval at its pins (R8). -/
def antennaFlags (s : State) (ms : List UlMark) (pin : Instant) (ded : Bool) (x : AntennaSym) (p : Nat) : AntennaFlags :=
  let mine := ms.filter fun m => decide (m.path = p)
  let steps := mine.filter fun m => decide (m.flag = 0)
  let has (f : Nat) : Bool := mine.any fun m => decide (m.flag = f)
  { flags := flagWord (steps != []) (has 1 || rxLoBad s p pin) (has 2)
      (has 3 || decide (x.parity ≠ []) || x.overwritten || decide (0 < x.residue) || ded) (decide (0 < x.fftSat) || decide (0 < x.ddcSat)) (x.rail || has 5) false,
    step := (steps.map fun m => m.step).sum }

/-- Flags, step byte and corrupt antennas of a section over its antennas (R127, R172): 0x80 where steps differ. -/
def combineFlags (l : List AntennaFlags) : Nat × Nat × Nat :=
  let fl := l.foldl (fun a x => a ||| x.flags) 0
  let steps := ((l.filter fun x => x.flags.testBit 0).map fun x => x.step).dedup
  let step := match steps with
    | [] => 0
    | [v] => wrapN 8 v
    | _ => 0x80
  (fl, step, (l.filter fun x => x.flags.testBit 1).length)

/-- A word that failed parity is counted once, whichever carriers and occasions its sample serves (R168). -/
def countParity (s : State) (e : Nat × Int) : State :=
  if e ∈ s.ul.paritySeen then s
  else bridgeFail true e.1 { s with ul := { s.ul with paritySeen := (e :: s.ul.paritySeen).take 65536 } }

/-- Counts and events of one antenna's saturations: `point` 1 of the DDC, 4 of PRACH extraction; the FFT's are point 2. -/
def countAntenna (n : SymName) (point : Nat) (s : State) (e : Nat × AntennaSym) : State :=
  countSat 0x12 e.1 1 e.2.fftSat 50 (detSym e.1 2 n.carrier n)
    (countSat 0x12 e.1 0 e.2.ddcSat 50 (detSym e.1 point n.carrier n) s)

/-- Counts and events of what the antennas report of a symbol (R162, R168, R170): `railed` the antennas whose rail samples in it are
reported now. -/
def antennaEvents (n : SymName) (railed : List Nat) (xs : List (Nat × AntennaSym)) (buffer : List Bool) (s : State) : State :=
  let c := n.carrier
  let s1 := railed.foldl (fun t p => raise 53 (detSym p c 0 n) (statAdd 0x12 p 4 1 t)) s
  let s2 := (xs.flatMap fun e => e.2.parity).foldl countParity s1
  let s3 := xs.foldl (fun t e => (List.range e.2.residue).foldl (fun t _ => raise 99 (detSym e.1 c 0 n) (statAdd 0x12 e.1 2 1 t)) t) s2
  buffer.foldl (bufferError 2) (xs.foldl (countAntenna n 1) s3)

/-! ### Combine (R189) -/

/-- Operands of acc of R189: value and weight of each antenna. -/
def combineOperands (im : Image) (w : List IQ) (y : Nat → IQ) : List (IQ × IQ) :=
  (List.range 64).map fun p => (y p, w.getD (elementOf im p).1 (0, 0))

/-- Output of R189 before saturation: `w` the 64 weights, `y` the value of each antenna, `err` the error a fault has put into the sum. -/
def combineRe (im : Image) (w : List IQ) (y : Nat → IQ) (err : IQ) : IQ :=
  bfRound (bfShift im true) (addIQ (accOf (combineOperands im w y)) err)

/-- A fault at a combine's sum is a residue mismatch (R202, R386): a received residue disagrees with its operand, or the exact sum's residue
differs from the one predicted. -/
def combineMismatch (im : Image) (w : List IQ) (y : Nat → IQ) (f : Flip) : Bool :=
  f.received || mismatch (addIQ (accOf (combineOperands im w y)) f.err) (predicted (combineOperands im w y))

/-- Antennas whose weight is non-zero in some vector of a list (R172). -/
def contributing (im : Image) (ws : List (List IQ)) : List Nat :=
  (List.range 64).filter fun p => ws.any fun w => decide (w.getD (elementOf im p).1 (0, 0) ≠ (0, 0))

/-! ### Sections (R126 to R130) -/

/-- Message header of a device's section (Table 5-1). -/
def ulHeader (t : Nat) (n : SymName) : List Byte :=
  leBytes 1 (16 + t) ++ [1] ++ leBytes 2 n.frame ++ leBytes 1 n.subframe ++ leBytes 1 n.slot ++ leBytes 1 n.symbol ++ [0]

/-- What Table 5-11 says of a section apart from its fragment. -/
structure UlHead where
  typ : Nat
  sym : SymName
  air : Instant
  first : Nat
  count : Nat
  flags : Nat
  step : Nat
  corrupt : Nat
  deriving DecidableEq, Repr

/-- Fragments of a payload of S bytes on a port (R128): count and size of all but the last. -/
def fragments (im : Image) (port size : Nat) : Nat × Nat :=
  let n := ceilN size (maxFrame im port - 62)
  (n, ceilN size n)

/-- Baesque message of fragment k (Table 5-11), closed by its CRC. -/
def fragmentMessage (f : Flow) (h : UlHead) (payload : List Byte) (n m k : Nat) : List Byte :=
  let b := ulHeader h.typ h.sym ++ leBytes 2 h.first ++ leBytes 2 h.count ++ leBytes 1 f.method ++
    leBytes 1 (if f.method = 2 then 16 else f.width) ++ leBytes 1 k ++ leBytes 1 n ++ leBytes 4 (m * k) ++ leBytes 2 h.flags ++
    leBytes 1 h.step ++ leBytes 1 h.corrupt ++ slice payload (m * k) m
  b ++ leBytes 4 (crc32c b)

/-- Frame of a Baesque message (R96, R130): SEQ_ID with the flow's count, E = 1, subsequence 0; the PCP is UL IQ's or PRACH's. -/
def ulFrame (f : Flow) (typ seq : Nat) (m : List Byte) (since : Instant) : EgressFrame :=
  ⟨2, f.idx, .ecpri (beBytes 6 (Config.peerMac f.port).toNat) (if typ = 9 then 23 else 22),
    [0x10, 0] ++ beBytes 2 (4 + m.length) ++ beBytes 2 f.eaxc ++ leBytes 1 seq ++ [0x80] ++ m, none, since⟩

/-- Key of a flow's message count: a record's former flow, whose symbols before a boundary still leave after it, keeps its own (R130). -/
def seqKey (s : State) (f : Flow) : Nat :=
  let g := flowAt s.cfg.live f.idx
  if g.eaxc = f.eaxc ∧ g.kind = f.kind then f.idx else 1024 + f.idx

/-- One fragment is queued: the digest takes it, and it is sent, or dropped where its port is down or absent (R97). -/
def sendFragment (f : Flow) (h : UlHead) (m : List Byte) (s : State) : State :=
  let s1 := digestMessage f.port h.air m s
  if portUp s f.port then
    let k := seqKey s f
    let q := tget 0 s.ul.seq k
    transmit f.port (ulFrame f h.typ q m (nowU s))
      (statAdd 0x13 f.idx 1 1 { s1 with ul := { s1.ul with seq := tset 0 s1.ul.seq k ((q + 1) % 256) } })
  else raise 51 (detSym f.idx f.port 2 h.sym) (countLink f.port 21 1 (statAdd 0x13 f.idx 4 1 s1))

/-- A section is queued at its export instant: its fragments in index order (R128, R160). -/
def sendSection (im : Image) (f : Flow) (h : UlHead) (payload : List Byte) (s : State) : State :=
  let (n, m) := fragments im f.port payload.length
  let s1 := if portUp s f.port then statAdd 0x13 f.idx 0 1 s else s
  (List.range n).foldl (fun t k => sendFragment f h (fragmentMessage f h payload n m k) t) s1

/-- Bytes that the sections of the present export instant take in the UL buffer. -/
def storedNow (s : State) : Nat := match s.ul.stored with | some (t, n) => if t = nowU s then n else 0 | none => 0

/-- A section leaves, is late, or found no room (R161): in the 4 MiB that the sections of its export instant share, or because others
held them. `sat` mantissas saturated in encoding (R117). -/
def exportSection (im : Image) (f : Flow) (h : UlHead) (payload : List Byte) (sat : Nat) (o : UlObs) (s : State) : State :=
  let s1 := countSat 0x13 f.idx 5 sat 50 (detSym f.idx 3 f.cc h.sym) s
  let n := storedNow s1 + payload.length
  if f.idx ∈ o.bufferFull ∨ 4194304 < n then raise 51 (detSym f.idx f.port 1 h.sym) (statAdd 0x13 f.idx 3 1 s1)
  else
    let s2 := { s1 with ul := { s1.ul with stored := some (nowU s1, n) } }
    if f.idx ∈ o.late then raise 49 (detSym f.idx f.port 0 h.sym) (statAdd 0x13 f.idx 2 1 s2)
    else sendSection im f h payload s2

/-! ### UL_EXPORT -/

/-- The export map marks a symbol (R156). -/
def exportMarked (im : Image) (n : SymName) : Bool :=
  let b := 64 * n.carrier
  let mu := ccMu im true n.carrier
  let m := slotCountOf mu n.frame (n.subframe * 2 ^ mu + n.slot)
  (cf im 2 (b + 20) 35).testBit (14 * (m % cf im 2 (b + 18) 1) + n.symbol)

/-- Section of an antenna flow: the antenna's resource elements unchanged (R171). -/
def exportAntenna (im : Image) (n : SymName) (air : Instant) (o : UlObs) (xs : List AntennaSym) (fl : List AntennaFlags) (f : Flow)
    (s : State) : State :=
  let p := ccP im true f.cc
  let enc := encodeBlocks f p ((xs.map fun x => x.res).getD f.index [])
  let a := combineFlags [fl.getD f.index ⟨0, 0⟩]
  exportSection im f ⟨8, n, air, 0, p, a.1 ||| flagWord false false false (ulBad o f) (decide (enc.2 ≠ 0)) false false, a.2.1, a.2.2⟩ enc.1 enc.2 o s

/-- Residue mismatches of a combine are counted for the stream and raised, with the PRB group of each (R202). -/
def combineResidues (f : Flow) (n : SymName) (groups : List Nat) (s : State) : State :=
  groups.foldl (fun t g => raise 64 (detSym f.index (128 + f.cc) (g % 256) n) (statAdd 0x16 f.index 4 1 t)) s

/-- Section of a stream flow (R172, R189). -/
def exportStream (im : Image) (n : SymName) (air : Instant) (o : UlObs) (xs : List AntennaSym) (fl : List AntennaFlags) (f : Flow)
    (s : State) : State :=
  let c := f.cc
  let p := ccP im true c
  let g := bfGran im true c
  let ctls := controlsFor s im true f.index n
  let gw := (List.range (groupsOf im true c)).map fun k =>
    (k, groupWeights s im true f.index n ctls k)
  let ws := gw.filterMap fun e => match e.2 with | .weights w => some (e.1, w) | _ => none
  let ants := (xs.map fun x => x.res.toArray).toArray
  let y (k a : Nat) : IQ := (ants.getD a #[]).getD k (0, 0)
  let errs := errorsOf o.bf f.index
  let out := (List.range (12 * p)).map fun k =>
    match ws.find? fun e => decide (e.1 = k / 12 / g) with
    | some (_, w) => combineRe im w (y k) (errorAt errs k)
    | none => (0, 0)
  let sat := overCount 16 out
  let enc := encodeBlocks f p (out.map (satIQ 16))
  let bad := o.bf.filter fun e => decide (e.lane = f.index) && match ws.find? fun w => decide (w.1 = e.index / 12 / g) with
    | some (_, w) => combineMismatch im w (y e.index) e
    | none => false
  let a := combineFlags ((contributing im (ws.map fun e => e.2)).map fun k => fl.getD k ⟨0, 0⟩)
  let missing := missingOf gw
  let flags := a.1 ||| flagWord false false (fl.any fun x => x.flags.testBit 2) (bad != [] || ulBad o f) (decide (sat ≠ 0) || decide (enc.2 ≠ 0))
    false (missing != [])
  let s1 := combineResidues f n (bad.map fun e => e.index / 12 / g) (loadWeights im true f.index n s)
  let s2 := countSat 0x16 f.index c sat 67 (detSym f.index (128 + c) 0 n) s1
  let s3 := reportMissing true f.index n missing (if missing = [] then s2 else statAdd 0x13 f.idx 6 missing.length s2)
  exportSection im f ⟨8, n, air, 0, p, flags, a.2.1, a.2.2⟩ enc.1 enc.2 o s3

/-- Marks that have served (of this symbol and before) leave; those of instants are kept 20 ms. -/
def dropMarks (c : Nat) (air now : Instant) (s : State) : State :=
  { s with ul := { s.ul with marks := s.ul.marks.filter fun m =>
    if m.carrier = noCarrier then decide (now ≤ m.air + m.step + 20 * (msU : Int)) else !(decide (m.carrier = c) && decide (m.air ≤ air)) } }

/-- Antennas with a rail sample in a symbol that no protection step has reported already. -/
def railedIn (ms : List UlMark) (xs : List AntennaSym) : List Nat :=
  (List.range 64).filter fun p => (match xs[p]? with | some x => x.rail | none => false) &&
    !ms.any fun m => decide (m.path = p) && decide (m.flag = 5)

/-- Export of a symbol: what the antennas report, then the sections in ascending record index (R160). -/
def exportSymbol (im : Image) (n : SymName) (air fin : Instant) (o : UlObs) (s : State) : State :=
  let ms := s.ul.marks.filter fun m => decide (m.carrier = n.carrier) && decide (m.air = air)
  let xs := (List.range 64).map (antennaSymbol s im o n air fin)
  let each := (List.range 64).zip xs
  let fl := each.map fun e => antennaFlags s ms (fin + delayU s im true e.1) (ulDed o) e.2 e.1
  let s1 := antennaEvents n (railedIn ms xs) each o.buffer s
  let flows := (governingFlows im).filter fun f => decide (f.cc = n.carrier) && decide (f.kind = 2 ∨ f.kind = 3)
  let s2 := if exportMarked im n then
      flows.foldl (fun t f => if f.kind = 3 then exportAntenna im n air o xs fl f t else exportStream im n air o xs fl f t) s1
    else s1
  dropMarks n.carrier air (nowU s2) s2

/-- Ticks from a symbol's end to its export instant, less its own length (R160). -/
def exportTicks : Nat := 36864

/-- Image that governs the symbol of a name that is to be exported: of two, the one whose export comes. -/
def exportImage (s : State) (n : SymName) : Option Image := symImage s true n (tk exportTicks) (lastServed s n.carrier)

/-- UL_EXPORT: E = A_end + Ls + 36,864 ticks (R160). -/
def execUlExport (sym : SymName) (obs : UlObs) (s : State) : Host.Outcome State Fault Refusal :=
  match exportImage s sym with
  | none => .next s
  | some im =>
    let mu := ccMu im true sym.carrier
    let air := airOf mu sym
    let len := symTicks mu (symIndex mu sym)
    let fin := air + tk len
    if ulRuns s air fin then .next (serve sym.carrier air (exportSymbol im sym air fin obs (advanceTo (fin + tk len + tk exportTicks) s))) else .next s

/-! ### PRACH -/

/-- Repetition length of a format in ticks (Table 7-5). -/
def prachTicks (fmt : Nat) : Nat :=
  match fmt with | 1 => 1179648 | 2 => 294912 | 3 => 98304 | 4 => 49152 | 5 => 24576 | 6 => 98304 | 7 => 49152 | _ => 0

/-- Sequence length of a format. -/
def prachLength (fmt : Nat) : Nat :=
  match fmt with | 1 => 839 | 2 => 839 | 3 => 139 | 4 => 139 | 5 => 139 | 6 => 1151 | 7 => 571 | _ => 0

/-- Start of an entry's occasion in a frame. -/
def occasionStart (e : PrachEntry) (frame : Nat) : Instant := (frame : Int) * frameU + tk e.start

/-- Carrier symbol that contains an occasion's start (R175). -/
def occasionSym (im : Image) (e : PrachEntry) (frame : Nat) : SymName :=
  symNameOf e.cc (ccMu im true e.cc) (symbolAt (ccMu im true e.cc) (occasionStart e frame))

/-- A lower entry governs the occasion in this frame (R173). -/
def prachCollides (im : Image) (e : PrachEntry) (frame : Nat) : Bool :=
  (prachEntries im).any fun d => decide (d.idx < e.idx) && decide (d.cc = e.cc) && decide (d.occ = e.occ) &&
    decide (slotAtTick (ccMu im true e.cc) d.start = slotAtTick (ccMu im true e.cc) e.start) && prachIn d frame

/-- PRACH control section that enables an occasion on a flow in the slot of a symbol (R122), its item not overlapped. -/
def prachControl (s : State) (im : Image) (f : Flow) (occ : Nat) (n : SymName) : Option Section :=
  if (⟨5, true, f.cc, f.idx, n.frame, n.subframe * 2 ^ ccMu im true f.cc + n.slot, 0, occ⟩ : Item) ∈ s.dl.invalid then none
  else s.dl.buffer.find? fun x => x.usable && decide (x.stype = 6) && decide (x.flow = f.idx) && decide (x.sym.frame = n.frame) &&
    decide (x.air = airOf (ccMu im true f.cc) x.sym) && decide (x.sym.subframe = n.subframe) && decide (x.sym.slot = n.slot) && (u x.head 0 1).testBit occ

/-- The occasion begins on a flow (R174): a kind 4 flow takes its copy of the weights; a missing vector counts once. -/
def beginOccasion (im : Image) (e : PrachEntry) (frame : Nat) (n : SymName) (fx : Flow × Section) (s : State) : State :=
  let (f, x) := fx
  let mu := ccMu im true f.cc
  let m := slotCountOf mu n.frame (n.subframe * 2 ^ mu + n.slot)
  let v := u x.head 2 2
  let key := vecKey true (m % 2) v
  let gw : GroupWeights := if f.kind = 5 then .weights []
    else selectWeights s im true f.cc m (slotStart mu m) (slotStart mu m) (u x.head 1 1) v v
  let s := match u x.head 1 1, gw with
    | 2, .weights _ => loadVectors [key] s
    | 2, .missing 6 _ => loadVectors [key] s
    | 1, .weights _ => if f.kind = 5 ∨ cabAt s v (slotStart mu m) ≠ cabOf s v then s else loadEntries [v] s
    | _, _ => s
  let run (missing : Bool) (w : List IQ) : PrachRun := ⟨im, f.idx, e.idx, e.occ, frame, occasionStart e frame, e.reps, 0, missing, w⟩
  match gw with
  | .weights w => { s with ul := { s.ul with prach := s.ul.prach ++ [run false w] } }
  | .missing c x =>
    reportMissing true f.index n [(0, c, x)] (statAdd 0x13 f.idx 6 1 { s with ul := { s.ul with prach := s.ul.prach ++ [run true []] } })
  | .unscheduled => s

/-- Image that governs an entry's occasion in a frame (R75): one whose entry begins, as it states it, at an air time the image governs; of two,
the one that comes. -/
def occasionImage (s : State) (entry frame : Nat) : Option Image :=
  pickNamed (nowU s) 0 (lastServed s (1024 + entry))
    ((imageSpans s).filterMap fun x =>
      let t := occasionStart (prachAt x.1 entry) frame
      if (prachEntries x.1).any (fun d => decide (d.idx = entry) && prachIn d frame) && inSpan x t then some (x.1, t) else none)

/-- PRACH_OCCASION (R173, R176): entry `entry` of the plan in a frame. -/
def execPrachOccasion (entry frame : Nat) (s : State) : Host.Outcome State Fault Refusal :=
  match occasionImage s entry frame with
  | none => .next s
  | some im =>
  let e := prachAt im entry
  let t := occasionStart e frame
  if prachIn e frame && ccEnabled im true e.cc && !prachCollides im e frame && ulRuns s t t then
    let s1 := serve (1024 + entry) t (advanceTo t s)
    let n := occasionSym im e frame
    let flows := ((governingFlows im).filter fun f => decide (f.cc = e.cc) && decide (f.kind = 4 ∨ f.kind = 5)).filterMap fun f =>
      (prachControl s1 im f e.occ n).map fun x => (f, x)
    if flows = [] then .next s1
    else if 32 < s1.ul.prach.length + flows.length then
      .next (raise 52 (detSym entry e.cc e.occ n) (flows.foldl (fun t fx => statAdd 0x13 fx.1.idx 7 1 t) s1))
    else .next (flows.foldl (fun t fx => beginOccasion im e frame n fx t) s1)
  else .next s

/-- Marks that a repetition's interval meets (R174): planned steps inside it, protection and LO intervals overlapping it. -/
def repetitionMarks (s : State) (a b : Instant) : List UlMark :=
  s.ul.marks.filter fun m => decide (m.carrier = noCarrier) &&
    (if m.flag = 0 then decide (a ≤ m.air ∧ m.air < b) else decide (m.air < b ∧ a ≤ m.air + m.step))

/-- What the extractor makes of a repetition is counted once, however many flows export it (R174, R179). -/
def countRepetition (e : PrachEntry) (frame rep : Nat) (n : SymName) (xs : List (Nat × AntennaSym)) (buffer : List Bool) (s : State) : State :=
  if (e.idx, frame, rep) ∈ s.ul.prachSeen then s
  else
    let s1 := { s with ul := { s.ul with prachSeen := ((e.idx, frame, rep) :: s.ul.prachSeen).take 1024 } }
    buffer.foldl (bufferError 2) (xs.foldl (countAntenna n 4) ((xs.flatMap fun x => x.2.parity).foldl countParity s1))

/-- Export of repetition `rep` of a run (R174, R175). -/
def exportRepetition (im : Image) (e : PrachEntry) (f : Flow) (r : PrachRun) (rep : Nat) (o : UlObs) (s : State) : State :=
  let n := occasionSym im e r.frame
  let a := r.start + tk e.cp + tk (rep * prachTicks e.fmt)
  let b := a + tk (prachTicks e.fmt)
  let len := prachLength e.fmt
  let blocks := prachBlocks e.fmt
  let xs := (List.range 64).map (antennaPrach s im o f.cc e.fmt e.freq len (prachTicks e.fmt) a)
  let each := (List.range 64).zip xs
  let ants := (xs.map fun x => x.res.toArray).toArray
  let y (k p : Nat) : IQ := (ants.getD p #[]).getD k (0, 0)
  let errs := if f.kind = 5 ∨ r.missing then [] else errorsOf o.bf f.index
  let out := if f.kind = 5 then (xs.map fun x => x.res).getD f.index []
    else if r.missing then List.replicate len (0, 0)
    else (List.range len).map fun k => combineRe im r.weight (y k) (errorAt errs k)
  let sat := if f.kind = 5 then 0 else overCount 16 out
  let bad := if f.kind = 5 ∨ r.missing then [] else o.bf.filter fun x => decide (x.lane = f.index) && combineMismatch im r.weight (y x.index) x
  let enc := encodeBlocks f blocks (out.map (satIQ 16) ++ List.replicate (12 * blocks - len) (0, 0))
  let ms := repetitionMarks s a b
  let fl := each.map fun x => antennaFlags s ms (b + delayU s im true x.1) (ulDed o) x.2 x.1
  let who := if f.kind = 5 then [f.index] else contributing im [r.weight]
  let c := combineFlags (who.map fun k => fl.getD k ⟨0, 0⟩)
  let flags := c.1 ||| flagWord false false false (bad != [] || ulBad o f) (decide (sat ≠ 0) || decide (enc.2 ≠ 0)) false r.missing
  let s1 := combineResidues f n (bad.map fun _ => 0) (countRepetition e r.frame rep n each o.buffer s)
  let s2 := countSat 0x16 f.index f.cc sat 67 (detSym f.index (128 + f.cc) 0 n) s1
  let s3 := exportSection im f ⟨9, n, airOf (ccMu im true e.cc) n, e.occ + 256 * rep, blocks, flags, c.2.1, c.2.2⟩ enc.1 enc.2 o s2
  let rest := s3.ul.prach.filterMap fun q =>
    if q = r then (if rep + 1 = r.reps then none else some { r with done := rep + 1 }) else some q
  { s3 with ul := { s3.ul with prach := rest } }

/-- PRACH_EXPORT: 88,473 ticks after repetition `rep` of a flow's occasion ends (R175). -/
def execPrachExport (flow occasion rep : Nat) (obs : UlObs) (s : State) : Host.Outcome State Fault Refusal :=
  match s.ul.prach.find? fun r => decide (r.flow = flow) && decide (r.occasion = occasion) && decide (r.done = rep) with
  | none => .next s
  | some r =>
    let im := r.image
    let e := prachAt im r.entry
    let fin := r.start + tk e.cp + tk ((rep + 1) * prachTicks e.fmt)
    if ulRuns s r.start fin then
      .next (exportRepetition im e (flowAt im flow) r rep obs (advanceTo (fin + tk 88473) s))
    else .next { s with ul := { s.ul with prach := s.ul.prach.filter fun q => decide (q ≠ r) } }

/-! ### Gain steps -/

/-- Timing carrier of section 0x0B (Table 7-4). -/
def timingCarrier (im : Image) : Nat := cf im 11 1 1

/-- Sum of the steps that the valid AGC entries give a path on a symbol of the timing carrier (R169). -/
def entrySteps (im : Image) (p : Nat) (n : SymName) : Int :=
  let mu := ccMu im true n.carrier
  let m := slotCountOf mu n.frame (n.subframe * 2 ^ mu + n.slot)
  ((List.range 128).map fun k =>
    let b := 64 + 16 * k
    if cf im 11 b 1 = 1 ∧ cf im 11 (b + 1) 1 = m % cf im 11 6 1 ∧ cf im 11 (b + 2) 1 = n.symbol ∧ (cf im 11 (b + 8) 8).testBit p
    then cfI im 11 (b + 3) 1 else 0).sum

/-- Step that the usable AGC step section of a symbol gives a path, its item not overlapped (R121, R125). -/
def sectionStep (s : State) (im : Image) (p : Nat) (n : SymName) : Int :=
  if symItem 4 true (ccMu im true n.carrier) 0 n p ∈ s.dl.invalid then 0
  else match s.dl.buffer.find? fun x => x.usable && decide (x.stype = 5) && decide (x.sym = n) &&
      decide (x.air = airOf (ccMu im true n.carrier) n) && (u x.head 0 8).testBit p with
    | some x => i x.head 8 1
    | none => 0

/-- Key of a path's gain steps on a carrier among what has been served. -/
def stepKey (p c : Nat) : Nat := 16 + 4 * p + c

/-- Image that governs the symbol of a name at whose start a path steps. -/
def stepImage (s : State) (p : Nat) (n : SymName) : Option Image := symImage s true n 0 (lastServed s (stepKey p n.carrier))

/-- AGC_STEP: the planned step of a path at the start of a symbol (R166, R169). -/
def execAgcStep (path : Nat) (sym : SymName) (s : State) : Host.Outcome State Fault Refusal :=
  match stepImage s path sym with
  | none => .next s
  | some im =>
    let b := airOf (ccMu im true sym.carrier) sym
    let src := cf im 11 0 1
    let step := if src = 1 ∧ sym.carrier = timingCarrier im then entrySteps im path sym
      else if src = 2 then sectionStep s im path sym else 0
    if path < 64 ∧ isService s.pwr.mode ∧ step ≠ 0 then .next (plannedStep im b path step (serve (stepKey path sym.carrier) b (advanceTo b s))) else .next s

/-- Symbols of every enabled UL carrier that hold an air time are marked with a rail sample of a path, counted and raised, once each
(R168). -/
def markRail (p : Nat) (s : State) (t : Instant) : State :=
  let im := imageAt s t
  (enabledCCs im true).foldl (fun st c =>
    let air := symbolStart (ccMu im true c) (symbolAt (ccMu im true c) t)
    if st.ul.marks.any fun m => decide (m.carrier = c) && decide (m.air = air) && decide (m.path = p) && decide (m.flag = 5) then st
    else raise 53 (detSym p c 0 (symNameOf c (ccMu im true c) (symbolAt (ccMu im true c) t)))
      (statAdd 0x12 p 4 1 (addMark c air p 5 0 st))) (if s.ul.marks.any fun m => decide (m = ⟨noCarrier, t, p, 5, 0⟩) then s else addMark noCarrier t p 5 0 s)

/-- A protection step (R167): the reduction grows, its multiplier follows 128 ticks later, every symbol that meets the 384 ticks is
CORRUPT, count and event. -/
def protectPath (im : Image) (p : Nat) (t : Instant) (s : State) : State :=
  let c := timingCarrier im
  let step := cf im 11 4 1
  let old := appliedGain s p
  let s1 := { s with ul := { s.ul with trigger := tset 0 s.ul.trigger p t } }
  if old = 0 then s1
  else
    let s2 := noteGain p t old (markInterval [p] t (t + tk 384) 1 { s1 with ul := { s1.ul with
      reduction := tset 0 s1.ul.reduction p (tget 0 s1.ul.reduction p + step) } })
    let mu := ccMu im true c
    raise 48 (detSym p c step (symNameOf c mu (symbolAt mu t))) (statAdd 0x12 p 5 1 s2)

/-- Air times of the words of a window that stand at a rail. -/
def railTimes (w : RailWindow) : List Instant :=
  ((List.range w.words.length).filter fun k => atRail (w.words.getD k 0)).map fun k => w.air - tk (w.words.length - 1 - k : Nat)

/-- PROTECTION_STEP: the window's last sample completes the count of rail samples within 64 ticks on a path (R167); each of them sets
ADC_OVERRANGE on its symbols (R168). Below the threshold count the row does not occur. -/
def execProtectionStep (path : Nat) (window : RailWindow) (s : State) : Host.Outcome State Fault Refusal :=
  let im := imageAt s window.air
  let rails := railTimes { window with words := window.words.drop (window.words.length - 64) }
  if path < 64 ∧ cf im 11 3 1 = 1 ∧ isService s.pwr.mode ∧ cf im 11 5 1 ≤ rails.length then
    .next (protectPath im path window.air (rails.foldl (markRail path) (advanceTo window.air s)))
  else .next s

/-- PROTECTION_RETURN: at the first slot boundary of the timing carrier after the last trigger the reduction returns to 0, as a
planned step (R167). -/
def execProtectionReturn (path : Nat) (s : State) : Host.Outcome State Fault Refusal :=
  let t := tget 0 s.ul.trigger path
  if path < 64 ∧ tget 0 s.ul.reduction path ≠ 0 then
    let mu := ccMu (imageAt s t) true (timingCarrier (imageAt s t))
    let b := slotStart mu (nextSlot mu (t + 1))
    let s1 := advanceTo b s
    .next (reportStep (imageAt s b) path b (appliedGain s1 path) { s1 with ul := { s1.ul with
      reduction := tset 0 s1.ul.reduction path 0, trigger := tset 0 s1.ul.trigger path 0 } })
  else .next s

end Sys2Proof.Machine
end

