-- ==== Sys2Proof/Machine/Trestle.lean ====
section
/-! DEFINITION. Trestle cores (R232 to R255): issuing an instruction, traps, repeats, quanta, and the customer kernel messages.
An instruction is a command: the manual gives no encoding (R237), so what a core fetches is what the command names. -/

namespace Sys2Proof.Machine

/-! ### Cores, slots, registers -/

def coreOf (s : State) (c : Nat) : Core := tget {} s.core c
def setCore (c : Nat) (k : Core) (s : State) : State := { s with core := tset {} s.core c k }
def tslotOf (k : Core) (n : Nat) : TSlot := tget {} k.slot n
def setTslot (n : Nat) (t : TSlot) (k : Core) : Core := { k with slot := tset {} k.slot n t }
def regsOf (k : Core) (ctx : Nat) : TRegs := tget {} k.regs ctx
def setRegs (ctx : Nat) (r : TRegs) (k : Core) : Core := { k with regs := tset {} k.regs ctx r }

/-- Context of vendor kernels; 0 and 1 are the customer slots. -/
def vendor : Nat := 2

/-- First address of a context's code (Table 10-1). -/
def codeBase (ctx : Nat) : Nat := if ctx = 0 then 0xC000 else if ctx = 1 then 0xE000 else 0

/-- Data addresses that a context may reach: first and size (Table 10-1). -/
def dataRange (ctx : Nat) : Nat × Nat := if ctx = 0 then (0x30000, 0x8000) else if ctx = 1 then (0x38000, 0x8000) else (0, 0x40000)

def dReg (r : TRegs) (n : Nat) : Word := tget 0 r.d n
def setD (n : Nat) (v : Word) (r : TRegs) : TRegs := { r with d := tset 0 r.d n v }
def pReg (r : TRegs) (n : Nat) : Word := tget 0 r.p n
def setP (n : Nat) (v : Word) (r : TRegs) : TRegs := { r with p := tset 0 r.p n v }
def aReg (r : TRegs) (n : Nat) : IQ := tget (0, 0) r.a n

/-- The FLAGS word (Table 10-3). -/
def flagsWord (r : TRegs) : Word :=
  BitVec.ofNat 32 (b2n r.z + 2 * b2n r.n + 4 * b2n r.c + 8 * b2n r.v + 16 * b2n r.sat + 64 * b2n r.poison + 128 * b2n r.inRpt +
    256 * r.ovf.toNat)

/-! ### Issuing -/

/-- What an instruction works on: context, registers, data memory, where the program jumps, where it goes on if not at the next word (behind
a skipped instruction, or behind a CALL that it returns from, which may end a block repeat's body; R243), cycles, accumulators that it saturated, and the index of the next free value. `bad` are the 64-bit words of data memory that hold an
error (double or not), `met` those that it read, `cleaned` those that it rewrote (R26). -/
structure TEnv where
  ctx : Nat
  regs : TRegs
  mem : Tbl Byte
  bad : List (Nat × Bool)
  jump : Option Nat := none
  fall : Option Nat := none
  met : List Nat := []
  cleaned : List Nat := []
  cycles : Nat
  hit : BitVec 8
  fresh : Nat
  deriving DecidableEq, Repr

/-- An instruction completes, or traps with a cause of Table 10-6 and no effect (R244): cause 10 with the word that read with a double-bit
error. -/
inductive TRes where
  | ok (e : TEnv)
  | trap (cause : Nat)
  | ded (word : Nat)
  deriving DecidableEq, Repr

abbrev TOp := TEnv → TRes

/-- The customer run of a slot that the core executes is running. -/
def slotRuns (k : Core) : Bool := decide (k.cur = vendor) || decide ((tslotOf k k.cur).state = 3)

/-- An event waits for the present instruction boundary, outside an RPT: the budget or the quantum's end (R245, R250). -/
def boundaryDue (k : Core) : Bool :=
  (regsOf k k.cur).rpt.isNone &&
    (decide (12000 ≤ k.qcyc) || (decide (k.cur ≠ vendor) && decide ((tslotOf k k.cur).budget ≤ (regsOf k k.cur).cyc)))

/-- Core c issues its next instruction: ADAPT is on, there is a run, and nothing waits for the boundary. -/
def canIssue (s : State) (c : Nat) : Bool :=
  decide (c < 8) && s.pwr.ready.getLsbD 9 && slotRuns (coreOf s c) && !boundaryDue (coreOf s c)

/-- The environment as an instruction reads it: CYC stands at the cycles executed before it, `start` ones before the RPT (R234, R242). -/
def atCycle (start : Nat) (e : TEnv) : TEnv := { e with regs := { e.regs with cyc := (start + e.cycles) % 2 ^ 32 } }

/-- Iterations of a repeated instruction; a fault stops them and the earlier ones stand (R242). -/
def iterate (start : Nat) (op : TOp) : Nat → TEnv → TEnv × Option TRes
  | 0, e => (e, none)
  | n + 1, e =>
    match op (atCycle start e) with
    | .ok e1 => iterate start op n e1
    | t => (e, some t)

/-- Where the program goes on as it falls through to `next` (R243): past the end of an open block repeat it counts down and loops, or
leaves the block and meets the end of the one around it; `levels` bounds them. -/
def loopBack : Nat → TRegs → Nat → TRegs × Nat
  | 0, r, next => (r, next)
  | levels + 1, r, next =>
    let l := r.depth - 1
    if r.depth = 0 ∨ next % 65536 ≠ (tget 0 r.le l + 4) % 65536 then (r, next)
    else if 1 < tget 0 r.lc l then ({ r with lc := tset 0 r.lc l (tget 0 r.lc l - 1) }, tget 0 r.ls l)
    else loopBack levels { r with lc := tset 0 r.lc l 0, depth := l } next

/-- A vendor run is over and the core's vendor context is ready for the next (R251 prepares customer slots alone; log 27); `bad` how it
ended where its solution is not to be used (R239, R244). -/
def endVendor (bad : Option (Bool × BitVec 8)) (k : Core) : Core :=
  { setRegs vendor { be := 15 } k with vendorEnd := if bad.isSome then bad else k.vendorEnd }

/-- A run ends by a trap (R244): a customer slot is trapped; a vendor trap is reported, and firmware takes that solution as poisoned. The
offset of a trap PC below the code base is negative, in two's complement of its 32 bits (DEDUCED, log 61). -/
def trapRun (c cause : Nat) (s : State) : State :=
  let k := coreOf s c
  let r := regsOf k k.cur
  let r1 := { r with rpt := none, inRpt := false }
  if k.cur = vendor then raise 96 (det c 0xFF cause 0 r.pc) (setCore c (endVendor (some (true, r.ovf)) k) s)
  else
    let pc := wrapN 32 ((r.pc : Int) - codeBase k.cur)
    let t := { tslotOf k k.cur with state := 5, cause := cause, cycles := r.cyc, trapPc := pc, abortHeld := false }
    let k1 := { setTslot k.cur t (setRegs k.cur r1 k) with cur := vendor }
    raise 96 (det c k.cur cause 0 pc) (setCore c k1 s)

/-- A run ends aborted (R250, R252): cause 1 host. -/
def abortRun (c n : Nat) (s : State) : State :=
  let k := coreOf s c
  let t := { tslotOf k n with state := 6, cause := 1, cycles := (regsOf k n).cyc, trapPc := 0, abortHeld := false }
  setCore c { setTslot n t k with cur := if k.cur = n then vendor else k.cur } s

/-- Words of core c's local memory (memory 6 of Table 1-7): 32,768 of data, then 8,192 of instructions (DESIGN CHOICE, log 23). -/
def localWord (c w : Nat) : Nat := 40960 * c + w

/-- Words that an instruction read with a single-bit error are counted, and those that it rewrote are clean (R26). -/
def settleWords (c : Nat) (e : TEnv) (s : State) : State :=
  (e.met.map (localWord c)).foldl (fun t w => readWord 6 w t) ((e.cleaned.map (localWord c)).foldl (fun t w => cleanWords 6 w 1 t) s)

/-- Registers and memory after an instruction, with the cycles it took and the accumulators it saturated. -/
def retire (c : Nat) (e : TEnv) (next : Nat) (s : State) : State :=
  let k := coreOf s c
  let r0 : TRegs := e.regs
  let p := if e.jump.isNone then loopBack 4 r0 next else (r0, next)
  let r := { p.1 with pc := p.2 % 65536, cyc := ((regsOf k k.cur).cyc + e.cycles) % 2 ^ 32 }
  let k1 := { setRegs k.cur r k with dmem := e.mem, qcyc := k.qcyc + e.cycles }
  let t := tslotOf k k.cur
  let k2 := if k.cur = vendor ∨ e.hit = 0 then k1 else setTslot k.cur { t with ovf := t.ovf ||| e.hit } k1
  settleWords c e { setCore c k2 s with fresh := e.fresh }

/-- The environment of the next instruction of core c. -/
def envOf (s : State) (c : Nat) : TEnv :=
  let k := coreOf s c
  { ctx := k.cur, regs := regsOf k k.cur, mem := k.dmem, cycles := 0, hit := 0, fresh := s.fresh,
    bad := (s.ls.bad.filter fun h => decide (h.memory = 6) && decide (h.address / 40960 = c)).map fun h => (h.address % 40960, h.double) }

/-- Fetch check (R233): a customer fetches from its slot's code alone, at word addresses. -/
def fetchTrap (k : Core) : Option Nat :=
  let pc := (regsOf k k.cur).pc
  if k.cur ≠ vendor ∧ (pc < codeBase k.cur ∨ codeBase k.cur + 0x2000 ≤ pc) then some 6
  else if pc % 4 ≠ 0 then some 7 else none

/-- Word of local memory that core c fetches from. -/
def fetchWord (s : State) (c : Nat) : Nat :=
  localWord c (32768 + (regsOf (coreOf s c) (coreOf s c).cur).pc / 8)

/-- A double-bit error in local memory (Table 10-6, cause 10). -/
def dedRun (c w : Nat) (s : State) : State := trapRun c 10 (readWord 6 (localWord c w) s)

/-- How a run ends on an instruction that did not complete. -/
def failRun (c : Nat) (t : TRes) (s : State) : State :=
  match t with
  | .trap cause => trapRun c cause s
  | .ded w => dedRun c w s
  | .ok _ => s

/-- The fetched instruction runs: repeat (R242), effect, and at the boundary after an RPT a host abort that waited (R247). `rep` tells
that RPT may repeat it. -/
def runFetched (c : Nat) (rep : Bool) (op : TOp) (s : State) : State :=
  let k := coreOf s c
  let e := envOf s c
  match e.regs.rpt with
  | some n =>
    if !rep then trapRun c 4 s
    else
      let res := iterate e.regs.cyc op n e
      match res.2 with
      | some t => failRun c t (retire c { res.1 with jump := some 0 } e.regs.pc s)
      | none =>
        let s1 := retire c { res.1 with regs := { res.1.regs with rpt := none, inRpt := false } } (e.regs.pc + 4) s
        if k.cur ≠ vendor ∧ (tslotOf k k.cur).abortHeld then abortRun c k.cur s1 else s1
  | none =>
    match op e with
    | .ok e1 => retire c e1 (e1.jump.getD (e1.fall.getD (e.regs.pc + 4))) s
    | t => failRun c t s

/-- Core c issues an instruction: the fetch, which may trap, and the run of what it fetched. -/
def issue (c : Nat) (rep : Bool) (op : TOp) (s : State) : State :=
  if !canIssue s c then s
  else
    match fetchTrap (coreOf s c) with
    | some f => trapRun c f s
    | none =>
      if wordError s 6 (fetchWord s c) = some true then trapRun c 10 (readWord 6 (fetchWord s c) s)
      else runFetched c rep op (readWord 6 (fetchWord s c) s)

/-- One cycle and new registers. -/
def tick1 (r : TRegs) (e : TEnv) : TRes := .ok { e with regs := r, cycles := e.cycles + 1 }

/-! ### Memory (R233) -/

/-- Cause of a trap on an access of n bytes, if any: outside the region 5, misaligned 7. -/
def accessTrap (ctx a n : Nat) : Option Nat :=
  let g := dataRange ctx
  if a < g.1 ∨ g.1 + g.2 < a + n then some 5 else if a % n ≠ 0 then some 7 else none

/-- Address of an operand, the pointer it leaves, and whether the increment can be encoded (Table 10-4). -/
def address (r : TRegs) : TAddr → Nat × TRegs × Bool
  | .off m o => ((pReg r m.val + BitVec.ofInt 32 o).toNat, r, true)
  | .post m inc =>
    ((pReg r m.val).toNat, setP m.val (pReg r m.val + BitVec.ofInt 32 inc) r, decide (-512 ≤ inc ∧ inc ≤ 508 ∧ inc % 4 = 0))

/-- A 32-bit word of data memory. -/
def memWord (m : Tbl Byte) (a : Nat) : Word := BitVec.ofNat 32 (leNat (tgetList 0 m a 4))

/-- Store a 32-bit word. -/
def setWord (a : Nat) (v : Word) (m : Tbl Byte) : Tbl Byte := tsetList 0 m a (leBytes 4 v.toNat)

/-- Do an access of n bytes at an operand: trap causes, then the rest with its address and the pointer advanced. -/
def access (n : Nat) (a : TAddr) (k : Nat → TRegs → TEnv → TRes) : TOp := fun e =>
  let r := address e.regs a
  if !r.2.2 then .trap 8
  else match accessTrap e.ctx r.1 n with
    | some c => .trap c
    | none => k r.1 r.2.1 e

/-- 64-bit words of an access of 4 or 16 bytes. -/
def wordsOf (n a : Nat) : List Nat := if n = 16 then [a / 8, a / 8 + 1] else [a / 8]

/-- Words among some that hold an error and have not been rewritten by the instruction. -/
def badAmong (ws : List Nat) (e : TEnv) : List (Nat × Bool) := e.bad.filter fun b => decide (b.1 ∈ ws) && decide (b.1 ∉ e.cleaned)

/-- An access that reads its words, a load of n bytes or a store that covers a word in part: a word with a double-bit error traps, one with a
single-bit error is corrected (R26, R232). -/
def loadAccess (n : Nat) (a : TAddr) (k : Nat → TRegs → TEnv → TRes) : TOp := access n a fun m r e =>
  match (badAmong (wordsOf n m) e).find? fun b => b.2 with
  | some b => .ded b.1
  | none => k m r { e with met := e.met ++ (badAmong (wordsOf n m) e).map fun b => b.1 }

/-- Load a quad into Q dst. -/
def loadQuad (dst : Nat) (m : Tbl Byte) (a : Nat) (r : TRegs) : TRegs :=
  (List.range 4).foldl (fun t j => setD (4 * dst + j) (memWord m (a + 4 * j)) t) r

/-! ### Integer class -/

/-- Value of an integer source; whether a 16-bit immediate is sign-extended is not stated (log 25). -/
def srcVal (r : TRegs) : TSrc → Word
  | .reg d => dReg r d.val
  | .imm v => if Config.immSigned then v.signExtend 32 else v.setWidth 32

/-- A two-operand integer instruction: result into dst, flags from the operands. -/
def intOp (dst a : Fin 16) (b : TSrc) (f : Word → Word → Word) (fl : Word → Word → TRegs → TRegs) : TOp := fun e =>
  let x := dReg e.regs a.val
  let y := srcVal e.regs b
  tick1 (fl x y (setD dst.val (f x y) e.regs)) e

/-- Z and N from the result alone (Table 10-3). -/
def znOf (f : Word → Word → Word) (x y : Word) (r : TRegs) : TRegs := trestleZN (f x y) r

/-- A shift: an amount of 32 or more leaves a result that no rule states. -/
def shiftOp (dst a : Fin 16) (b : TSrc) (f : Word → Nat → Word) : TOp := fun e =>
  let x := dReg e.regs a.val
  let n := (srcVal e.regs b).toNat
  if n < 32 then tick1 (trestleZN (f x n) (setD dst.val (f x n) e.regs)) e
  else
    let v := BitVec.ofNat 32 (Config.freeValue e.fresh)
    tick1 (trestleZN v (setD dst.val v e.regs)) { e with fresh := e.fresh + 1 }

/-- Read a register of Table 10-2; loop registers LC [0..3], LS [0..3], LE [0..3] in this order. -/
def readReg (r : TRegs) : TReg → Word
  | .d n => dReg r n.val
  | .p n => pReg r n.val
  | .be => BitVec.ofNat 32 r.be
  | .flags => flagsWord r
  | .cyc => BitVec.ofNat 32 r.cyc
  | .loop n => BitVec.ofNat 32 (tget 0 (if n.val < 4 then r.lc else if n.val < 8 then r.ls else r.le) (n.val % 4))

/-- Write a register; FLAGS and CYC have no move to them (R235, Table 10-2). -/
def writeReg (v : Word) (r : TRegs) : TReg → Option TRegs
  | .d n => some (setD n.val v r)
  | .p n => some (setP n.val v r)
  | .be => some { r with be := v.toNat % 16 }
  | .flags => none
  | .cyc => none
  | .loop n =>
    let w := v.toNat % 65536
    some (if n.val < 4 then { r with lc := tset 0 r.lc (n.val % 4) w }
      else if n.val < 8 then { r with ls := tset 0 r.ls (n.val % 4) w } else { r with le := tset 0 r.le (n.val % 4) w })

/-- A loop register, which a customer kernel may not access. -/
def isLoopReg : TReg → Bool
  | .loop _ => true
  | _ => false

/-! ### Packed complex class (R236, R240) -/

/-- Components of a packed word: I in [31:16], Q in [15:0]. -/
def unpack (w : Word) : IQ := (signed 16 (w.toNat / 65536), signed 16 w.toNat)

/-- A packed word from components taken modulo 2^16. -/
def pack (x : IQ) : Word := BitVec.ofNat 32 (wrapN 16 x.1 * 65536 + wrapN 16 x.2)

/-- Data registers of a packed operand. -/
def packRegs : TPack → List Nat
  | .one d => [d.val]
  | .quad q => (List.range 4).map fun j => 4 * q.val + j

/-- Saturate a packed result, and set SAT where a component did. -/
def satPacked (x : IQ) (r : TRegs) : Word × TRegs :=
  (pack (satIQ 16 x), if overBits 16 x.1 || overBits 16 x.2 then { r with sat := true } else r)

/-- Apply a function to each word of one or two packed operands of one form, all operands read first; a mixture of forms is an
undefined encoding. -/
def packedOp (dst a : TPack) (b : Option TPack) (f : IQ → IQ → TRegs → Word × TRegs) : TOp := fun e =>
  let ds := packRegs dst
  let xs := (packRegs a).map fun n => unpack (dReg e.regs n)
  let ys := match b with
    | some b => (packRegs b).map fun n => unpack (dReg e.regs n)
    | none => xs
  if ds.length ≠ xs.length ∨ ds.length ≠ ys.length then .trap 8
  else tick1 ((ds.zip (xs.zip ys)).foldl (fun r t => let w := f t.2.1 t.2.2 r; setD t.1 w.1 w.2) e.regs) e

/-- Conjugate: the negative of the most negative Q is not stated, and `free` stands for it. -/
def conjWord (free : Nat) (x : IQ) : Word := pack (x.1, if x.2 = -32768 then (free : Int) else -x.2)

/-- UNPKO: I is bits [31:20] × 16 and Q bits [19:8] × 16. -/
def unpkoWord (w : Word) : Word := BitVec.ofNat 32 (w.toNat / 2 ^ 20 * 16 * 65536 + w.toNat / 2 ^ 8 % 4096 * 16)

/-! ### Accumulators (R238, R239) -/

/-- Write an exact result to accumulator n: a component beyond 40 bits is set to the nearer limit, with ACC_OVF and POISON. -/
def setAcc (n : Nat) (v : IQ) (e : TEnv) : TEnv :=
  let r := { e.regs with a := tset (0, 0) e.regs.a n (satIQ 40 v) }
  if overBits 40 v.1 || overBits 40 v.2 then
    { e with regs := { r with ovf := r.ovf ||| BitVec.twoPow 8 n, poison := true }, hit := e.hit ||| BitVec.twoPow 8 n }
  else { e with regs := r }

def conjIQ (x : IQ) : IQ := (x.1, -x.2)

def subIQ (a b : IQ) : IQ := (a.1 - b.1, a.2 - b.2)

/-- The four lanes of a complex multiply: `f` combines accumulator, x and y. -/
def macLanes (h : Fin 2) (a b : Fin 4) (f : IQ → IQ → IQ → IQ) (e : TEnv) : TEnv :=
  (List.range 4).foldl (fun t j =>
    setAcc (4 * h.val + j)
      (f (aReg e.regs (4 * h.val + j)) (unpack (dReg e.regs (4 * a.val + j))) (unpack (dReg e.regs (4 * b.val + j)))) t) e

/-- One accumulator takes a result. -/
def accOp (n : Fin 8) (f : TRegs → IQ) : TOp := fun e =>
  let e1 := setAcc n.val (f e.regs) e
  .ok { e1 with cycles := e1.cycles + 1 }

/-- Lanes of a MAC as an instruction. -/
def macOp (h : Fin 2) (a b : Fin 4) (f : IQ → IQ → IQ → IQ) : TOp := fun e =>
  let e1 := macLanes h a b f e
  .ok { e1 with cycles := e1.cycles + 1 }

/-- c × 2^-sh of R240, rounded half to even. -/
def scaleBy (c : Int) (sh : Int) : Int := if 0 ≤ sh then rhe c (2 ^ sh.toNat) else c * (2 ^ (-sh).toNat : Nat)

/-! ### Normalise (R241) -/

/-- Redundant sign bits of a value of `w` bits. -/
def signBits (w : Nat) (v : Int) : Nat := ((List.range w).filter fun k => !overBits (w - k) v).length - 1

/-- EXPC of a packed word. -/
def expcOf (x : IQ) : Nat := Nat.min (signBits 16 x.1) (signBits 16 x.2)

/-- BE after a quad of words, with Z from the input and N clear. -/
def bexpRegs (ws : List Word) (r : TRegs) : TRegs :=
  { r with be := ws.foldl (fun b w => Nat.min b (expcOf (unpack w))) r.be, z := ws.all fun w => decide (w = 0), n := false }

/-! ### Runs -/

/-- END (R252): a customer's result is copied and the slot is done; a poisoned result raises EV_ACC_OVF. A vendor's poisoned result is
reported with its solution (R229, R239). -/
def endRun (c : Nat) (s : State) : State :=
  let k := coreOf s c
  let r := regsOf k k.cur
  if k.cur = vendor then
    let k1 := endVendor (if r.poison then some (false, r.ovf) else none) k
    setCore c { k1 with qcyc := k.qcyc + 1 } s
  else
    let n := (dReg r 0).toNat
    let ws := (List.range ((n + 7) / 8)).map fun w => ((dataRange k.cur).1 + 0x7000) / 8 + w
    let bad := badAmong ws (envOf s c)
    if 4096 < n then trapRun c 12 s
    else match bad.find? fun b => b.2 with
    | some b => dedRun c b.1 s
    | none =>
      let s := (bad.map fun b => localWord c b.1).foldl (fun t w => readWord 6 w t) s
      let t := { tslotOf k k.cur with
        state := 4, cause := 0, cycles := (r.cyc + 1) % 2 ^ 32, trapPc := 0, poisoned := r.poison, sat := r.sat,
        result := tgetList 0 k.dmem ((dataRange k.cur).1 + 0x7000) n, abortHeld := false }
      let k1 := { setTslot k.cur t k with cur := vendor, qcyc := k.qcyc + 1 }
      let s1 := setCore c k1 s
      if r.poison then raise 98 (det c k.cur t.ovf.toNat 0 t.run) s1 else s1

/-- A slot has work. -/
def hasWork (k : Core) (n : Nat) : Bool := decide ((tslotOf k n).state = 2) || decide ((tslotOf k n).state = 3)

/-- Context that takes quantum `q`, and whose turn comes next (R245). -/
def allocate (k : Core) (q : Nat) : Nat × Nat :=
  if q % 8 ≠ 7 then (vendor, k.turn)
  else match hasWork k 0, hasWork k 1 with
    | true, true => (k.turn % 2, 1 - k.turn % 2)
    | true, false => (0, k.turn)
    | false, true => (1, k.turn)
    | false, false => (vendor, k.turn)

/-- The next quantum begins: state is switched (R246), and a queued run that takes it is running. -/
def nextQuantum (k : Core) : Core :=
  let q := k.quantum + 1
  let a := allocate k q
  let k1 := { k with quantum := q, qcyc := 0, cur := a.1, turn := a.2 }
  if a.1 = vendor then k1 else setTslot a.1 { tslotOf k a.1 with state := 3 } k1

/-- QUANTUM_END: the quantum reaches its 12,000th cycle outside an RPT; a budget that is exhausted comes first (R247). Cycles of
vendor kernels pass without commands, so a vendor quantum may end at any boundary (log 27). -/
def execQuantumEnd (core : Nat) (s : State) : Host.Outcome State Fault Refusal :=
  let k := coreOf s core
  let r := regsOf k k.cur
  let budget := decide (k.cur ≠ vendor) && decide ((tslotOf k k.cur).budget ≤ r.cyc)
  if core < 8 ∧ s.pwr.ready.getLsbD 9 ∧ r.rpt.isNone ∧ !budget ∧ (k.cur = vendor ∨ 12000 ≤ k.qcyc) then
    .next (setCore core (nextQuantum k) s)
  else .next s

/-- CYCLE_BUDGET_EXHAUSTED: trap cause 9 at the boundary at which CYC has reached the budget (R250). -/
def execCycleBudgetExhausted (core : Nat) (s : State) : Host.Outcome State Fault Refusal :=
  let k := coreOf s core
  let r := regsOf k k.cur
  if core < 8 ∧ s.pwr.ready.getLsbD 9 ∧ k.cur ≠ vendor ∧ slotRuns k ∧ r.rpt.isNone ∧ (tslotOf k k.cur).budget ≤ r.cyc then
    .next (trapRun core 9 s)
  else .next s

/-! ### Messages -/

/-- Image of a request (Table 10-8), at payload offset 16. -/
def imageOfLoad (p : List Byte) : TImage :=
  { kernelId := u p 24 4, version := u p 28 4, code := slice p 80 (u p 36 4), data := slice p (80 + u p 36 4) (u p 40 4),
    entry := u p 44 4, budget := u p 48 4 }

/-- Field checks of `trestle.kernel_load`. -/
def loadChecks (p : List Byte) : List (Nat × Bool) :=
  let lc := u p 36 4
  let ld := u p 40 4
  [inRange p 0 1 1 255, inRange p 1 1 0 1, isZero p 2 14, (16, decide (slice p 16 4 = [0x54, 0x4B, 0x52, 0x4E])),
   inRange p 20 2 1 1, inRange p 22 2 64 64, (36, decide (4 ≤ lc ∧ lc ≤ 8192 ∧ lc % 4 = 0)),
   (40, decide (ld ≤ 16172 ∧ ld % 4 = 0 ∧ lc + ld ≤ 16176)), (44, decide (u p 44 4 + 4 ≤ lc ∧ u p 44 4 % 4 = 0)),
   inRange p 48 4 1 1200000000, isZero p 52 28]

/-- Load an image into a slot of a core (R249). -/
def loadSlot (img : TImage) (n : Nat) (s : State) (c : Nat) : State :=
  let k := coreOf s c
  cleanWords 6 (localWord c (32768 + codeBase n / 8)) ((img.code.length + 7) / 8)
    (setCore c (setTslot n { state := 1, image := img } { k with imem := tsetList 0 k.imem (codeBase n) img.code }) s)

/-- `trestle.kernel_load` (R249). -/
def kernelLoadBody (_a : Asker) (p : List Byte) (s : State) : Reply :=
  let cores := (List.range 8).filter fun c => (u p 0 1).testBit c
  let n := u p 1 1
  let size := 80 + u p 36 4 + u p 40 4
  if p.length < 80 ∨ p.length ≠ size + 96 then err stBadLength 8 s
  else withFields (loadChecks p) s <|
    if stageNow s ∉ [.provisioned, .field, .return_] ∨ (keyInForce s).isNone ∨ !s.pwr.ready.getLsbD 9 then err stState 0 s
    else if cores.any fun c => hasWork (coreOf s c) n then err stBusy 0 s
    else if s.sys.idFw < u p 32 4 then err stMismatch 16 s
    else if !Config.signatureOk ((keyInForce s).getD []) (slice p 16 (size - 16)) (slice p size 96) then
      err stIntegrity 0 (raise 97 (det (u p 0 1) n 0 0 (u p 24 4)) s)
    else ok [] (cores.foldl (loadSlot (imageOfLoad p) n) s)

def execTrestleKernelLoad (ring : Nat) (dma : List Byte) (s : State) : Host.Outcome State Fault Refusal :=
  .next (runMessage 0x0B01 ring dma kernelLoadBody s)

/-- Rounded up to a multiple of 64. -/
def a64 (n : Nat) : Nat := (n + 63) / 64 * 64

/-- The slot prepared for a run (R251): region, registers. -/
def prepareRun (n : Nat) (img : TImage) (input : List Byte) (params : List Word) (k : Core) : Core :=
  let base := (dataRange n).1
  let at_ := base + a64 img.data.length
  let clean := tclear k.dmem base (base + 0x8000)
  let r : TRegs := {
    d := (List.range 8).foldl (fun t j => tset 0 t j (params.getD j 0)) [],
    p := tset 0 (tset 0 (tset 0 [] 0 (BitVec.ofNat 32 base)) 1 (BitVec.ofNat 32 at_)) 2 (BitVec.ofNat 32 (base + 0x7000)),
    be := 15, pc := codeBase n + img.entry }
  setRegs n r { k with dmem := tsetList 0 (tsetList 0 clean base img.data) at_ input }

/-- Field checks of `trestle.kernel_start` (Table 10-10). -/
def startChecks (p : List Byte) (s : State) : List (Nat × Bool) :=
  let img := (tslotOf (coreOf s (u p 1 1)) (u p 2 1)).image
  let o := u p 8 4
  let n := u p 12 4
  [inRange p 0 1 1 2, inRange p 1 1 0 7, inRange p 2 1 0 1, isZero p 3 1,
   (4, decide ((1 ≤ u p 4 4 ∧ u p 4 4 ≤ 1200000000) ∨ u p 4 4 = 0xFFFFFFFF)),
   (8, decide (o ≤ 1048572 ∧ o % 4 = 0 ∧ o + n ≤ 1048576)),
   (12, decide (n ≤ 28672 ∧ n % 4 = 0 ∧ a64 img.data.length + n ≤ 28672)), isZero p 48 16]

/-- `trestle.kernel_start` (R250). -/
def kernelStartBody (_a : Asker) (p : List Byte) (s : State) : Reply :=
  withLength [64] p s <|
  withFields (startChecks p s) s <|
  let c := u p 1 1
  let n := u p 2 1
  let k := coreOf s c
  let t := tslotOf k n
  if t.state = 0 ∨ !s.pwr.ready.getLsbD 9 then err stState 0 s
  else if u p 0 1 = 1 then
    (if hasWork k n then err stBusy 0 s
    else
      let input := tgetList 0 s.lin.capMem (0x300000 + u p 8 4) (u p 12 4)
      let params := (List.range 8).map fun j => BitVec.ofNat 32 (u p (16 + 4 * j) 4)
      let run := (t.run + 1) % 2 ^ 32
      let t1 := { t with state := 2, cause := 0, run := run, cycles := 0, trapPc := 0, poisoned := false, ovf := 0, sat := false,
                         budget := if u p 4 4 = 0xFFFFFFFF then t.image.budget else u p 4 4, abortHeld := false }
      let read := (List.range ((u p 12 4 + u p 8 4 % 8 + 7) / 8)).map fun w => (0x300000 + u p 8 4) / 8 + w
      ok (leBytes 4 run ++ zeros 4) (cleanWords 6 (localWord c ((dataRange n).1 / 8)) 4096
        (setCore c (setTslot n t1 (prepareRun n t.image input params k)) (readWords 5 read s))))
  else if t.state = 2 then ok [] (setCore c (setTslot n { t with state := 1 } k) s)
  else if t.state = 3 then
    (if k.cur = n ∧ (regsOf k n).rpt.isSome then ok [] (setCore c (setTslot n { t with abortHeld := true } k) s)
    else ok [] (abortRun c n s))
  else ok [] s

def execTrestleKernelStart (ring : Nat) (dma : List Byte) (s : State) : Host.Outcome State Fault Refusal :=
  .next (runMessage 0x0B02 ring dma kernelStartBody s)

/-- Table 10-11. -/
def trestleReport (s : State) (c n : Nat) : List Byte :=
  let k := coreOf s c
  let t := tslotOf k n
  leBytes 1 c ++ leBytes 1 n ++ leBytes 1 t.state ++ leBytes 1 t.cause ++ leBytes 4 t.image.kernelId ++ leBytes 4 t.image.version ++
    leBytes 4 t.run ++ leBytes 4 (if t.state = 3 then (regsOf k n).cyc else t.cycles) ++ leBytes 4 t.trapPc ++
    leBytes 1 (b2n t.poisoned) ++ leBytes 1 t.ovf.toNat ++ leBytes 1 (b2n t.sat) ++ [0] ++ leBytes 4 t.result.length ++ zeros 32 ++
    t.result

/-- `trestle.status` (R253). -/
def trestleStatusBody (_a : Asker) (p : List Byte) (s : State) : Reply :=
  withLength [4] p s <|
  withFields [inRange p 0 1 0 7, inRange p 1 1 0 1, isZero p 2 2] s <| ok (trestleReport s (u p 0 1) (u p 1 1)) s

def execTrestleStatus (ring : Nat) (dma : List Byte) (s : State) : Host.Outcome State Fault Refusal :=
  .next (runMessage 0x0B03 ring dma trestleStatusBody s)

end Sys2Proof.Machine
end

