-- ==== Sys2Proof/Machine/Kernel.lean ====
section
/-! DEFINITION. The Trestle instructions (Table 10-4, R235 to R243), one meaning each over `issue`. -/

namespace Sys2Proof.Machine

/-! ### Class 1: load and store -/

/-- LD. -/
def execLd (core : Nat) (dst : Fin 16) (a : TAddr) (s : State) : Host.Outcome State Fault Refusal :=
  .next (issue core true (loadAccess 4 a fun m r e => tick1 (setD dst.val (memWord e.mem m) r) e) s)

/-- ST. -/
def execSt (core : Nat) (src : Fin 16) (a : TAddr) (s : State) : Host.Outcome State Fault Refusal :=
  .next (issue core true (loadAccess 4 a fun m r e => tick1 r { e with mem := setWord m (dReg e.regs src.val) e.mem }) s)

/-- LDQ. -/
def execLdq (core : Nat) (dst : Fin 4) (a : TAddr) (s : State) : Host.Outcome State Fault Refusal :=
  .next (issue core true (loadAccess 16 a fun m r e => tick1 (loadQuad dst.val e.mem m r) e) s)

/-- STQ. -/
def execStq (core : Nat) (src : Fin 4) (a : TAddr) (s : State) : Host.Outcome State Fault Refusal :=
  .next (issue core true (access 16 a fun m r e => tick1 r { e with
    mem := (List.range 4).foldl (fun t j => setWord (m + 4 * j) (dReg e.regs (4 * src.val + j)) t) e.mem,
    cleaned := e.cleaned ++ (badAmong (wordsOf 16 m) e).map fun b => b.1 }) s)

/-! ### Class 2: integer -/

/-- MOV. With a loop register it is an instruction of class 9: RPT may not repeat it, and a customer kernel traps (Table 10-6, cause 2). -/
def execMov (core : Nat) (dst src : TReg) (s : State) : Host.Outcome State Fault Refusal :=
  .next (issue core (!(isLoopReg dst || isLoopReg src)) (fun e =>
    if e.ctx ≠ vendor ∧ (isLoopReg dst || isLoopReg src) then .trap 2
    else match writeReg (readReg e.regs src) e.regs dst with
      | some r => tick1 (trestleZN (readReg e.regs src) r) e
      | none => .trap 8) s)

/-- MOVI. -/
def execMovi (core : Nat) (dst : Fin 16) (v : BitVec 16) (s : State) : Host.Outcome State Fault Refusal :=
  .next (issue core true (fun e =>
    let w := srcVal e.regs (.imm v)
    tick1 (trestleZN w (setD dst.val w e.regs)) e) s)

/-- MOVHI: the high half; the low half stays. -/
def execMovhi (core : Nat) (dst : Fin 16) (v : BitVec 16) (s : State) : Host.Outcome State Fault Refusal :=
  .next (issue core true (fun e =>
    let w := BitVec.ofNat 32 (v.toNat * 65536 + (dReg e.regs dst.val).toNat % 65536)
    tick1 (trestleZN w (setD dst.val w e.regs)) e) s)

/-- ADD: wraps; Z, N, C, V. -/
def execAdd (core : Nat) (dst a : Fin 16) (b : TSrc) (s : State) : Host.Outcome State Fault Refusal :=
  .next (issue core true (intOp dst a b (· + ·) trestleAddFlags) s)

/-- SUB: wraps; Z, N, C, V. -/
def execSub (core : Nat) (dst a : Fin 16) (b : TSrc) (s : State) : Host.Outcome State Fault Refusal :=
  .next (issue core true (intOp dst a b (· - ·) trestleSubFlags) s)

/-- AND. -/
def execAnd (core : Nat) (dst a : Fin 16) (b : TSrc) (s : State) : Host.Outcome State Fault Refusal :=
  .next (issue core true (intOp dst a b (· &&& ·) (znOf (· &&& ·))) s)

/-- OR. -/
def execOr (core : Nat) (dst a : Fin 16) (b : TSrc) (s : State) : Host.Outcome State Fault Refusal :=
  .next (issue core true (intOp dst a b (· ||| ·) (znOf (· ||| ·))) s)

/-- XOR. -/
def execXor (core : Nat) (dst a : Fin 16) (b : TSrc) (s : State) : Host.Outcome State Fault Refusal :=
  .next (issue core true (intOp dst a b (· ^^^ ·) (znOf (· ^^^ ·))) s)

/-- NOT. -/
def execNot (core : Nat) (dst a : Fin 16) (s : State) : Host.Outcome State Fault Refusal :=
  .next (issue core true (intOp dst a (.reg a) (fun x _ => ~~~x) (znOf fun x _ => ~~~x)) s)

/-- LSL. -/
def execLsl (core : Nat) (dst a : Fin 16) (b : TSrc) (s : State) : Host.Outcome State Fault Refusal :=
  .next (issue core true (shiftOp dst a b (fun x k => x <<< k)) s)

/-- LSR. -/
def execLsr (core : Nat) (dst a : Fin 16) (b : TSrc) (s : State) : Host.Outcome State Fault Refusal :=
  .next (issue core true (shiftOp dst a b (fun x k => x >>> k)) s)

/-- ASR. -/
def execAsr (core : Nat) (dst a : Fin 16) (b : TSrc) (s : State) : Host.Outcome State Fault Refusal :=
  .next (issue core true (shiftOp dst a b (fun x k => x.sshiftRight k)) s)

/-- CMP: the flags of a − b. -/
def execCmp (core : Nat) (a : Fin 16) (b : TSrc) (s : State) : Host.Outcome State Fault Refusal :=
  .next (issue core true (fun e => tick1 (trestleSubFlags (dReg e.regs a.val) (srcVal e.regs b) e.regs) e) s)

/-- MIN of two signed values. -/
def execMin (core : Nat) (dst a : Fin 16) (b : TSrc) (s : State) : Host.Outcome State Fault Refusal :=
  .next (issue core true (intOp dst a b (fun x y => if x.toInt ≤ y.toInt then x else y) (znOf fun x y => if x.toInt ≤ y.toInt then x else y)) s)

/-- MAX of two signed values. -/
def execMax (core : Nat) (dst a : Fin 16) (b : TSrc) (s : State) : Host.Outcome State Fault Refusal :=
  .next (issue core true (intOp dst a b (fun x y => if x.toInt ≤ y.toInt then y else x) (znOf fun x y => if x.toInt ≤ y.toInt then y else x)) s)

/-! ### Class 3: packed complex -/

/-- CADD. -/
def execCadd (core : Nat) (dst a b : TPack) (s : State) : Host.Outcome State Fault Refusal :=
  .next (issue core true (packedOp dst a (some b) fun x y r => satPacked (addIQ x y) r) s)

/-- CSUB. -/
def execCsub (core : Nat) (dst a b : TPack) (s : State) : Host.Outcome State Fault Refusal :=
  .next (issue core true (packedOp dst a (some b) fun x y r => satPacked (subIQ x y) r) s)

/-- CNEG. -/
def execCneg (core : Nat) (dst a : TPack) (s : State) : Host.Outcome State Fault Refusal :=
  .next (issue core true (packedOp dst a none fun x _ r => satPacked (subIQ (0, 0) x) r) s)

/-- CONJ. -/
def execConj (core : Nat) (dst a : TPack) (s : State) : Host.Outcome State Fault Refusal :=
  .next (issue core true (fun e =>
    packedOp dst a none (fun x _ r => (conjWord (Config.freeValue e.fresh) x, r)) { e with fresh := e.fresh + 1 }) s)

/-- CSHR: convergent rounding (R240). -/
def execCshr (core : Nat) (dst a : TPack) (sh : Nat) (s : State) : Host.Outcome State Fault Refusal :=
  .next (issue core true (packedOp dst a none fun x _ r => (pack (rheIQ x (2 ^ sh)), r)) s)

/-- SWAPH. -/
def execSwaph (core : Nat) (dst a : TPack) (s : State) : Host.Outcome State Fault Refusal :=
  .next (issue core true (packedOp dst a none fun x _ r => (pack (x.2, x.1), r)) s)

/-- UNPKO. -/
def execUnpko (core : Nat) (dst a : TPack) (s : State) : Host.Outcome State Fault Refusal :=
  .next (issue core true (packedOp dst a none fun x _ r => (unpkoWord (pack x), r)) s)

/-! ### Class 4: complex MAC (R238) -/

/-- CMUL4 replaces the accumulators. -/
def execCmul4 (core : Nat) (h : Fin 2) (a b : Fin 4) (s : State) : Host.Outcome State Fault Refusal :=
  .next (issue core true (macOp h a b fun _ x y => mulIQ x y) s)

/-- CMAC4 adds. -/
def execCmac4 (core : Nat) (h : Fin 2) (a b : Fin 4) (s : State) : Host.Outcome State Fault Refusal :=
  .next (issue core true (macOp h a b fun c x y => addIQ c (mulIQ x y)) s)

/-- CMSU4 subtracts. -/
def execCmsu4 (core : Nat) (h : Fin 2) (a b : Fin 4) (s : State) : Host.Outcome State Fault Refusal :=
  .next (issue core true (macOp h a b fun c x y => subIQ c (mulIQ x y)) s)

/-- CMACJ4 adds x × conj(y). -/
def execCmacj4 (core : Nat) (h : Fin 2) (a b : Fin 4) (s : State) : Host.Outcome State Fault Refusal :=
  .next (issue core true (macOp h a b fun c x y => addIQ c (mulIQ x (conjIQ y))) s)

/-- CMAC4L: CMAC4, and a quad loaded in the same cycle; the operands are those before the load. -/
def execCmac4l (core : Nat) (h : Fin 2) (a b dst : Fin 4) (addr : TAddr) (s : State) : Host.Outcome State Fault Refusal :=
  .next (issue core true (loadAccess 16 addr fun m r e =>
    let e1 := macLanes h a b (fun c x y => addIQ c (mulIQ x y)) e
    .ok { e1 with regs := loadQuad dst.val e.mem m { e1.regs with p := r.p }, cycles := e1.cycles + 1 }) s)

/-- CLRA: the accumulator quad is zero; ACC_OVF stays (R239). -/
def execClra (core : Nat) (h : Fin 2) (s : State) : Host.Outcome State Fault Refusal :=
  .next (issue core true (fun e => tick1 { e.regs with a := tsetList (0, 0) e.regs.a (4 * h.val) (List.replicate 4 (0, 0)) } e) s)

/-! ### Class 5: accumulator (R239, R240) -/

/-- AADD. -/
def execAadd (core : Nat) (dst src : Fin 8) (s : State) : Host.Outcome State Fault Refusal :=
  .next (issue core true (accOp dst fun r => addIQ (aReg r dst.val) (aReg r src.val)) s)

/-- ASHR: convergent rounding. -/
def execAshr (core : Nat) (a : Fin 8) (sh : Nat) (s : State) : Host.Outcome State Fault Refusal :=
  .next (issue core true (accOp a fun r => rheIQ (aReg r a.val) (2 ^ sh)) s)

/-- ASHL: saturates at 40 bits. -/
def execAshl (core : Nat) (a : Fin 8) (sh : Nat) (s : State) : Host.Outcome State Fault Refusal :=
  .next (issue core true (accOp a fun r => ((aReg r a.val).1 * (2 ^ sh : Nat), (aReg r a.val).2 * (2 ^ sh : Nat))) s)

/-- MOVA: a D pair, sign-extended. -/
def execMova (core : Nat) (a : Fin 8) (d : Fin 8) (s : State) : Host.Outcome State Fault Refusal :=
  .next (issue core true (accOp a fun r => ((dReg r (2 * d.val)).toInt, (dReg r (2 * d.val + 1)).toInt)) s)

/-- STR (R240): scale with convergent rounding, saturate to w bits, place. Z tells a zero result, N a negative one; which component N
follows where one alone is negative is not stated. -/
def execStr (core : Nat) (d : Fin 16) (a : Fin 8) (sh : Int) (w : Nat) (s : State) : Host.Outcome State Fault Refusal :=
  .next (issue core true (fun e =>
    if sh < -8 ∨ 31 < sh ∨ w ∉ [16, 18, 32] ∨ (w ≠ 16 ∧ d.val % 2 ≠ 0) then .trap 8
    else
      let x : IQ := (scaleBy (aReg e.regs a.val).1 sh, scaleBy (aReg e.regs a.val).2 sh)
      let y := satIQ w x
      let r := if w = 16 then setD d.val (pack y) e.regs
        else setD (d.val + 1) (BitVec.ofInt 32 y.2) (setD d.val (BitVec.ofInt 32 y.1) e.regs)
      tick1 { r with
        sat := r.sat || overBits w x.1 || overBits w x.2, z := decide (y = (0, 0)),
        n := decide (y.1 < 0 ∧ y.2 < 0) || (decide (y.1 < 0 ∨ y.2 < 0) && (Config.freeValue e.fresh).testBit 0) } { e with fresh := e.fresh + 1 }) s)

/-! ### Class 6: normalise (R241) -/

/-- EXP. -/
def execExp (core : Nat) (d s_ : Fin 16) (s : State) : Host.Outcome State Fault Refusal :=
  .next (issue core true (fun e =>
    let v := dReg e.regs s_.val
    tick1 { setD d.val (BitVec.ofNat 32 (signBits 32 v.toInt)) e.regs with z := decide (v = 0), n := false } e) s)

/-- NORM. -/
def execNorm (core : Nat) (d s_ x : Fin 16) (s : State) : Host.Outcome State Fault Refusal :=
  .next (issue core true (fun e =>
    let v := dReg e.regs s_.val
    let k := signBits 32 v.toInt
    tick1 { setD x.val (BitVec.ofNat 32 k) (setD d.val (v <<< k) e.regs) with z := decide (v = 0), n := (v <<< k).getLsbD 31 } e) s)

/-- EXPC. -/
def execExpc (core : Nat) (d s_ : Fin 16) (s : State) : Host.Outcome State Fault Refusal :=
  .next (issue core true (fun e =>
    let v := dReg e.regs s_.val
    tick1 { setD d.val (BitVec.ofNat 32 (expcOf (unpack v))) e.regs with z := decide (v = 0), n := false } e) s)

/-- EXPA. -/
def execExpa (core : Nat) (d : Fin 16) (a : Fin 8) (s : State) : Host.Outcome State Fault Refusal :=
  .next (issue core true (fun e =>
    let c := aReg e.regs a.val
    let v : Int := (Nat.min (signBits 40 c.1) (signBits 40 c.2) : Nat) - 8
    tick1 { setD d.val (BitVec.ofInt 32 v) e.regs with z := decide (c = (0, 0)), n := decide (v < 0) } e) s)

/-- BEXP [Pm]+16. -/
def execBexp (core : Nat) (m : Fin 8) (s : State) : Host.Outcome State Fault Refusal :=
  .next (issue core true (loadAccess 16 (.post m 16) fun a r e =>
    tick1 (bexpRegs ((List.range 4).map fun j => memWord e.mem (a + 4 * j)) r) e) s)

/-- BEXPQ. -/
def execBexpq (core : Nat) (q : Fin 4) (s : State) : Host.Outcome State Fault Refusal :=
  .next (issue core true (fun e => tick1 (bexpRegs ((List.range 4).map fun j => dReg e.regs (4 * q.val + j)) e.regs) e) s)

/-- BECLR. -/
def execBeclr (core : Nat) (s : State) : Host.Outcome State Fault Refusal :=
  .next (issue core true (fun e => tick1 { e.regs with be := 15 } e) s)

/-! ### Class 7: control -/

/-- BR: 3 cycles (R232). -/
def execBr (core : Nat) (target : BitVec 16) (s : State) : Host.Outcome State Fault Refusal :=
  .next (issue core false (fun e => .ok { e with jump := some target.toNat, cycles := e.cycles + 3 }) s)

/-- Bcc: taken under the flag patterns of its condition. -/
def execBcc (core : Nat) (cond : TCond) (target : BitVec 16) (s : State) : Host.Outcome State Fault Refusal :=
  .next (issue core false (fun e =>
    if cond.getLsbD (8 * b2n e.regs.v + 4 * b2n e.regs.c + 2 * b2n e.regs.n + b2n e.regs.z) then
      .ok { e with jump := some target.toNat, cycles := e.cycles + 3 }
    else tick1 e.regs e) s)

/-- CALL: depth 8, 4 for a customer kernel. -/
def execCall (core : Nat) (target : BitVec 16) (s : State) : Host.Outcome State Fault Refusal :=
  .next (issue core false (fun e =>
    if (if e.ctx = vendor then 8 else 4) ≤ e.regs.stack.length then .trap 11
    else .ok { e with
      regs := { e.regs with stack := (e.regs.pc + 4) % 65536 :: e.regs.stack }, jump := some target.toNat, cycles := e.cycles + 3 }) s)

/-- RET goes on behind its CALL; where that was the last instruction of a block repeat's body, the repeat goes on (R243). -/
def execRet (core : Nat) (s : State) : Host.Outcome State Fault Refusal :=
  .next (issue core false (fun e =>
    match e.regs.stack with
    | [] => .trap 11
    | a :: as => .ok { e with regs := { e.regs with stack := as }, fall := some a, cycles := e.cycles + 3 }) s)

/-- RPT (R242): with a count of 0 one cycle and the next instruction skipped, else it issues together with the first iteration. -/
def execRpt (core : Nat) (n : TCount) (s : State) : Host.Outcome State Fault Refusal :=
  .next (issue core false (fun e =>
    let k := match n with | .imm k => k | .reg d => (dReg e.regs d.val).toNat
    if 4096 < k then .trap (match n with | .imm _ => 8 | .reg _ => 3)
    else if k = 0 then .ok { e with fall := some (e.regs.pc + 8), cycles := e.cycles + 1 }
    else .ok { e with regs := { e.regs with rpt := some k, inRpt := true } }) s)

/-- END (R252). -/
def execEnd (core : Nat) (s : State) : Host.Outcome State Fault Refusal :=
  if !canIssue s core then .next s
  else match fetchTrap (coreOf s core) with
    | some f => .next (trapRun core f s)
    | none =>
      if wordError s 6 (fetchWord s core) = some true then .next (trapRun core 10 (readWord 6 (fetchWord s core) s))
      else if (regsOf (coreOf s core) (coreOf s core).cur).rpt.isSome then .next (trapRun core 4 (readWord 6 (fetchWord s core) s))
      else .next (endRun core (readWord 6 (fetchWord s core) s))

/-- NOP. -/
def execNop (core : Nat) (s : State) : Host.Outcome State Fault Refusal :=
  .next (issue core false (fun e => tick1 e.regs e) s)

/-- SETF: writes the W1C fields (Table 10-3). -/
def execSetf (core : Nat) (v : Word) (s : State) : Host.Outcome State Fault Refusal :=
  .next (issue core false (fun e => tick1 { e.regs with
    sat := e.regs.sat && !v.getLsbD 4, ovf := e.regs.ovf &&& ~~~(v.extractLsb' 8 8) } e) s)

/-- CLROVF. -/
def execClrovf (core : Nat) (s : State) : Host.Outcome State Fault Refusal :=
  .next (issue core false (fun e => tick1 { e.regs with ovf := 0 } e) s)

/-! ### Classes 8 and 9 -/

/-- BLK (R243): cause 1 in a customer kernel, cause 13 at a fifth level. -/
def execBlk (core : Nat) (count : Nat) (last : BitVec 16) (s : State) : Host.Outcome State Fault Refusal :=
  .next (issue core false (fun e =>
    if e.ctx ≠ vendor then .trap 1
    else if 65535 < count then .trap 8
    else if count = 0 then .ok { e with fall := some (last.toNat + 4), cycles := e.cycles + 1 }
    else if 4 ≤ e.regs.depth then .trap 13
    else
      let l := e.regs.depth
      .ok { e with jump := some (e.regs.pc + 4), cycles := e.cycles + 1, regs := { e.regs with
        lc := tset 0 e.regs.lc l count, ls := tset 0 e.regs.ls l ((e.regs.pc + 4) % 65536), le := tset 0 e.regs.le l last.toNat,
        depth := l + 1 } }) s)

/-- DMA: privileged (R237): a customer kernel traps with cause 2. In a vendor kernel it is an instruction of one cycle; what the
firmware service moves is not stated, so the vendor part of the core's data memory then holds free bytes (DESIGN CHOICE, log 28). The
slots' regions stay: they change at a start alone (R244, R251). -/
def execDma (core : Nat) (s : State) : Host.Outcome State Fault Refusal :=
  .next (issue core false (fun e =>
    if e.ctx ≠ vendor then .trap 2
    else tick1 e.regs { e with mem := tsetList 0 (tclear e.mem 0 0x30000) 0 (fitBytes 0x30000 (Config.dmaData e.fresh)), fresh := e.fresh + 1 }) s)

end Sys2Proof.Machine
end

