-- ==== Sys2Proof/Machine/Dispatch.lean ====
section
/-! DEFINITION. One arm per command: its meaning, or its rejection by name. -/

namespace Sys2Proof.Machine

open Sys2Proof

/-- The effect of a command on everything but the queue. -/
def exec (i : Instr) (s : State) : Host.Outcome State Fault Refusal :=
  match i with
  | .sysHello x1 x2 => Sys2Proof.Machine.execSysHello x1 x2 s
  | .sysInfo x1 x2 => Sys2Proof.Machine.execSysInfo x1 x2 s
  | .sysReset x1 x2 => Sys2Proof.Machine.execSysReset x1 x2 s
  | .sysFwImage x1 x2 => Sys2Proof.Machine.execSysFwImage x1 x2 s
  | .fwImageComplete x1 => Sys2Proof.Machine.execFwImageComplete x1 s
  | .sysReady => Sys2Proof.Machine.execSysReady s
  | .eventConfig x1 x2 => Sys2Proof.Machine.execEventConfig x1 x2 s
  | .eventDrain x1 x2 => Sys2Proof.Machine.execEventDrain x1 x2 s
  | .badOpcode x1 x2 => Sys2Proof.Machine.execBadOpcode x1 x2 s
  | .framingLost x1 x2 => Sys2Proof.Machine.execFramingLost x1 x2 s
  | .cfgStage x1 x2 => Sys2Proof.Machine.execCfgStage x1 x2 s
  | .cfgCommit x1 x2 => Sys2Proof.Machine.execCfgCommit x1 x2 s
  | .commitArmed => Sys2Proof.Machine.execCommitArmed s
  | .commitArmTimeout => Sys2Proof.Machine.execCommitArmTimeout s
  | .commitBoundary => Sys2Proof.Machine.execCommitBoundary s
  | .cfgDiscard x1 x2 => Sys2Proof.Machine.execCfgDiscard x1 x2 s
  | .cfgRead x1 x2 => Sys2Proof.Machine.execCfgRead x1 x2 s
  | .beamCatalogueWrite x1 x2 => Sys2Proof.Machine.execBeamCatalogueWrite x1 x2 s
  | .cabinetWriteComplete => Sys2Proof.Machine.execCabinetWriteComplete s
  | .cabinetBoundary => Sys2Proof.Machine.execCabinetBoundary s
  | .beamCataloguePersist x1 x2 => Sys2Proof.Machine.execBeamCataloguePersist x1 x2 s
  | .cataloguePersistComplete x1 => Sys2Proof.Machine.execCataloguePersistComplete x1 s
  | .beamElementMap x1 x2 => Sys2Proof.Machine.execBeamElementMap x1 x2 s
  | .dpdConfigure x1 x2 => Sys2Proof.Machine.execDpdConfigure x1 x2 s
  | .dpdBankWrite x1 x2 => Sys2Proof.Machine.execDpdBankWrite x1 x2 s
  | .bankCommit => Sys2Proof.Machine.execBankCommit s
  | .dpdClassSwitch x1 => Sys2Proof.Machine.execDpdClassSwitch x1 s
  | .dpdAdaptControl x1 x2 => Sys2Proof.Machine.execDpdAdaptControl x1 x2 s
  | .adaptationSolution x1 x2 x3 x4 x5 => Sys2Proof.Machine.execAdaptationSolution x1 x2 x3 x4 x5 s
  | .dpdBankPersist x1 x2 => Sys2Proof.Machine.execDpdBankPersist x1 x2 s
  | .bankPersistComplete x1 => Sys2Proof.Machine.execBankPersistComplete x1 s
  | .cfrConfigure x1 x2 => Sys2Proof.Machine.execCfrConfigure x1 x2 s
  | .capturePlan x1 x2 => Sys2Proof.Machine.execCapturePlan x1 x2 s
  | .captureOccurrence x1 x2 x3 => Sys2Proof.Machine.execCaptureOccurrence x1 x2 x3 s
  | .captureComplete x1 x2 => Sys2Proof.Machine.execCaptureComplete x1 x2 s
  | .calRun x1 x2 => Sys2Proof.Machine.execCalRun x1 x2 s
  | .calComplete x1 x2 => Sys2Proof.Machine.execCalComplete x1 x2 s
  | .calStatus x1 x2 => Sys2Proof.Machine.execCalStatus x1 x2 s
  | .pwrRequest x1 x2 => Sys2Proof.Machine.execPwrRequest x1 x2 s
  | .pwrStatus x1 x2 => Sys2Proof.Machine.execPwrStatus x1 x2 s
  | .pwrRefusals x1 x2 => Sys2Proof.Machine.execPwrRefusals x1 x2 s
  | .padRelease x1 => Sys2Proof.Machine.execPadRelease x1 s
  | .timeServo x1 x2 => Sys2Proof.Machine.execTimeServo x1 x2 s
  | .timeSetOffset x1 x2 => Sys2Proof.Machine.execTimeSetOffset x1 x2 s
  | .timeStatus x1 x2 => Sys2Proof.Machine.execTimeStatus x1 x2 s
  | .clkMeasure x1 x2 => Sys2Proof.Machine.execClkMeasure x1 x2 s
  | .clkMeasureDone x1 x2 => Sys2Proof.Machine.execClkMeasureDone x1 x2 s
  | .clkSources x1 x2 => Sys2Proof.Machine.execClkSources x1 x2 s
  | .biasSet x1 x2 => Sys2Proof.Machine.execBiasSet x1 x2 s
  | .biasSpan x1 x2 => Sys2Proof.Machine.execBiasSpan x1 x2 s
  | .biasRelease x1 x2 x3 x4 => Sys2Proof.Machine.execBiasRelease x1 x2 x3 x4 s
  | .biasSlewUpdate => Sys2Proof.Machine.execBiasSlewUpdate s
  | .biasParked x1 => Sys2Proof.Machine.execBiasParked x1 s
  | .paClearN => Sys2Proof.Machine.execPaClearN s
  | .hkConfigure x1 x2 => Sys2Proof.Machine.execHkConfigure x1 x2 s
  | .hkWindow x1 x2 => Sys2Proof.Machine.execHkWindow x1 x2 s
  | .hkRead x1 x2 x3 => Sys2Proof.Machine.execHkRead x1 x2 x3 s
  | .hkTrigger x1 => Sys2Proof.Machine.execHkTrigger x1 s
  | .hkSlotQueued x1 => Sys2Proof.Machine.execHkSlotQueued x1 s
  | .hkConversionComplete x1 x2 x3 => Sys2Proof.Machine.execHkConversionComplete x1 x2 x3 s
  | .hkPowerDown x1 => Sys2Proof.Machine.execHkPowerDown x1 s
  | .testRun x1 x2 => Sys2Proof.Machine.execTestRun x1 x2 s
  | .testComplete x1 => Sys2Proof.Machine.execTestComplete x1 s
  | .testStatus x1 x2 => Sys2Proof.Machine.execTestStatus x1 x2 s
  | .rockerSet x1 x2 => Sys2Proof.Machine.execRockerSet x1 x2 s
  | .digestStart => Sys2Proof.Machine.execDigestStart s
  | .digestComplete => Sys2Proof.Machine.execDigestComplete s
  | .nvmRead x1 x2 => Sys2Proof.Machine.execNvmRead x1 x2 s
  | .nvmWriteRecord x1 x2 => Sys2Proof.Machine.execNvmWriteRecord x1 x2 s
  | .nvmStatus x1 x2 => Sys2Proof.Machine.execNvmStatus x1 x2 s
  | .nvmWriteStep => Sys2Proof.Machine.execNvmWriteStep s
  | .trestleKernelLoad x1 x2 => Sys2Proof.Machine.execTrestleKernelLoad x1 x2 s
  | .trestleKernelStart x1 x2 => Sys2Proof.Machine.execTrestleKernelStart x1 x2 s
  | .trestleStatus x1 x2 => Sys2Proof.Machine.execTrestleStatus x1 x2 s
  | .quantumEnd x1 => Sys2Proof.Machine.execQuantumEnd x1 s
  | .cycleBudgetExhausted x1 => Sys2Proof.Machine.execCycleBudgetExhausted x1 s
  | .ld x1 x2 x3 => Sys2Proof.Machine.execLd x1 x2 x3 s
  | .st x1 x2 x3 => Sys2Proof.Machine.execSt x1 x2 x3 s
  | .ldq x1 x2 x3 => Sys2Proof.Machine.execLdq x1 x2 x3 s
  | .stq x1 x2 x3 => Sys2Proof.Machine.execStq x1 x2 x3 s
  | .mov x1 x2 x3 => Sys2Proof.Machine.execMov x1 x2 x3 s
  | .movi x1 x2 x3 => Sys2Proof.Machine.execMovi x1 x2 x3 s
  | .movhi x1 x2 x3 => Sys2Proof.Machine.execMovhi x1 x2 x3 s
  | .add x1 x2 x3 x4 => Sys2Proof.Machine.execAdd x1 x2 x3 x4 s
  | .sub x1 x2 x3 x4 => Sys2Proof.Machine.execSub x1 x2 x3 x4 s
  | .and x1 x2 x3 x4 => Sys2Proof.Machine.execAnd x1 x2 x3 x4 s
  | .or x1 x2 x3 x4 => Sys2Proof.Machine.execOr x1 x2 x3 x4 s
  | .xor x1 x2 x3 x4 => Sys2Proof.Machine.execXor x1 x2 x3 x4 s
  | .not x1 x2 x3 => Sys2Proof.Machine.execNot x1 x2 x3 s
  | .lsl x1 x2 x3 x4 => Sys2Proof.Machine.execLsl x1 x2 x3 x4 s
  | .lsr x1 x2 x3 x4 => Sys2Proof.Machine.execLsr x1 x2 x3 x4 s
  | .asr x1 x2 x3 x4 => Sys2Proof.Machine.execAsr x1 x2 x3 x4 s
  | .cmp x1 x2 x3 => Sys2Proof.Machine.execCmp x1 x2 x3 s
  | .min x1 x2 x3 x4 => Sys2Proof.Machine.execMin x1 x2 x3 x4 s
  | .max x1 x2 x3 x4 => Sys2Proof.Machine.execMax x1 x2 x3 x4 s
  | .cadd x1 x2 x3 x4 => Sys2Proof.Machine.execCadd x1 x2 x3 x4 s
  | .csub x1 x2 x3 x4 => Sys2Proof.Machine.execCsub x1 x2 x3 x4 s
  | .cneg x1 x2 x3 => Sys2Proof.Machine.execCneg x1 x2 x3 s
  | .conj x1 x2 x3 => Sys2Proof.Machine.execConj x1 x2 x3 s
  | .cshr x1 x2 x3 x4 => Sys2Proof.Machine.execCshr x1 x2 x3 x4 s
  | .swaph x1 x2 x3 => Sys2Proof.Machine.execSwaph x1 x2 x3 s
  | .unpko x1 x2 x3 => Sys2Proof.Machine.execUnpko x1 x2 x3 s
  | .cmul4 x1 x2 x3 x4 => Sys2Proof.Machine.execCmul4 x1 x2 x3 x4 s
  | .cmac4 x1 x2 x3 x4 => Sys2Proof.Machine.execCmac4 x1 x2 x3 x4 s
  | .cmsu4 x1 x2 x3 x4 => Sys2Proof.Machine.execCmsu4 x1 x2 x3 x4 s
  | .cmacj4 x1 x2 x3 x4 => Sys2Proof.Machine.execCmacj4 x1 x2 x3 x4 s
  | .cmac4l x1 x2 x3 x4 x5 x6 => Sys2Proof.Machine.execCmac4l x1 x2 x3 x4 x5 x6 s
  | .clra x1 x2 => Sys2Proof.Machine.execClra x1 x2 s
  | .aadd x1 x2 x3 => Sys2Proof.Machine.execAadd x1 x2 x3 s
  | .ashr x1 x2 x3 => Sys2Proof.Machine.execAshr x1 x2 x3 s
  | .ashl x1 x2 x3 => Sys2Proof.Machine.execAshl x1 x2 x3 s
  | .mova x1 x2 x3 => Sys2Proof.Machine.execMova x1 x2 x3 s
  | .str x1 x2 x3 x4 x5 => Sys2Proof.Machine.execStr x1 x2 x3 x4 x5 s
  | .exp x1 x2 x3 => Sys2Proof.Machine.execExp x1 x2 x3 s
  | .norm x1 x2 x3 x4 => Sys2Proof.Machine.execNorm x1 x2 x3 x4 s
  | .expc x1 x2 x3 => Sys2Proof.Machine.execExpc x1 x2 x3 s
  | .expa x1 x2 x3 => Sys2Proof.Machine.execExpa x1 x2 x3 s
  | .bexp x1 x2 => Sys2Proof.Machine.execBexp x1 x2 s
  | .bexpq x1 x2 => Sys2Proof.Machine.execBexpq x1 x2 s
  | .beclr x1 => Sys2Proof.Machine.execBeclr x1 s
  | .br x1 x2 => Sys2Proof.Machine.execBr x1 x2 s
  | .bcc x1 x2 x3 => Sys2Proof.Machine.execBcc x1 x2 x3 s
  | .call x1 x2 => Sys2Proof.Machine.execCall x1 x2 s
  | .ret x1 => Sys2Proof.Machine.execRet x1 s
  | .rpt x1 x2 => Sys2Proof.Machine.execRpt x1 x2 s
  | .end_ x1 => Sys2Proof.Machine.execEnd x1 s
  | .nop x1 => Sys2Proof.Machine.execNop x1 s
  | .setf x1 x2 => Sys2Proof.Machine.execSetf x1 x2 s
  | .clrovf x1 => Sys2Proof.Machine.execClrovf x1 s
  | .blk x1 x2 x3 => Sys2Proof.Machine.execBlk x1 x2 x3 s
  | .dma x1 => Sys2Proof.Machine.execDma x1 s
  | .linkConfigure x1 x2 => Sys2Proof.Machine.execLinkConfigure x1 x2 s
  | .linkStatus x1 x2 => Sys2Proof.Machine.execLinkStatus x1 x2 s
  | .linkCounters x1 x2 => Sys2Proof.Machine.execLinkCounters x1 x2 s
  | .logRead x1 x2 => Sys2Proof.Machine.execLogRead x1 x2 s
  | .leaseStatus x1 x2 => Sys2Proof.Machine.execLeaseStatus x1 x2 s
  | .thermalConfigure x1 x2 => Sys2Proof.Machine.execThermalConfigure x1 x2 s
  | .thermalRead x1 x2 x3 => Sys2Proof.Machine.execThermalRead x1 x2 x3 s
  | .phDoorbell x1 x2 => Sys2Proof.Machine.execPhDoorbell x1 x2 s
  | .phHead x1 x2 => Sys2Proof.Machine.execPhHead x1 x2 s
  | .ringDisable x1 => Sys2Proof.Machine.execRingDisable x1 s
  | .ringDisabled x1 => Sys2Proof.Machine.execRingDisabled x1 s
  | .ringEnable x1 => Sys2Proof.Machine.execRingEnable x1 s
  | .phDmaErr x1 x2 x3 x4 => Sys2Proof.Machine.execPhDmaErr x1 x2 x3 x4 s
  | .pcieLinkDown => Sys2Proof.Machine.execPcieLinkDown s
  | .pcieLinkUp => Sys2Proof.Machine.execPcieLinkUp s
  | .muteAll x1 => Sys2Proof.Machine.execMuteAll x1 s
  | .parkAll x1 => Sys2Proof.Machine.execParkAll x1 s
  | .safeHoldReq x1 => Sys2Proof.Machine.execSafeHoldReq x1 s
  | .muteEnd => Sys2Proof.Machine.execMuteEnd s
  | .timeCapture x1 => Sys2Proof.Machine.execTimeCapture x1 s
  | .thDemand x1 => Sys2Proof.Machine.execThDemand x1 s
  | .rockerRegisterWrite x1 x2 => Sys2Proof.Machine.execRockerRegisterWrite x1 x2 s
  | .registerWrite x1 x2 x3 => Sys2Proof.Machine.execRegisterWrite x1 x2 x3 s
  | .w2Read x1 => Sys2Proof.Machine.execW2Read x1 s
  | .w0Read x1 => Sys2Proof.Machine.execW0Read x1 s
  | .w0Write x1 => Sys2Proof.Machine.execW0Write x1 s
  | .slotWrite x1 => Sys2Proof.Machine.execSlotWrite x1 s
  | .slotRead x1 => Sys2Proof.Machine.execSlotRead x1 s
  | .frameReceived x1 x2 x3 => Sys2Proof.Machine.execFrameReceived x1 x2 x3 s
  | .sectionParse x1 => Sys2Proof.Machine.execSectionParse x1 s
  | .sectionUsable x1 x2 x3 => Sys2Proof.Machine.execSectionUsable x1 x2 x3 s
  | .type5ResponseTimeout x1 => Sys2Proof.Machine.execType5ResponseTimeout x1 s
  | .linkDown x1 x2 => Sys2Proof.Machine.execLinkDown x1 x2 s
  | .linkUp x1 => Sys2Proof.Machine.execLinkUp x1 s
  | .dlSymbolRelease x1 x2 => Sys2Proof.Machine.execDlSymbolRelease x1 x2 s
  | .dlPlayout x1 x2 x3 x4 x5 => Sys2Proof.Machine.execDlPlayout x1 x2 x3 x4 x5 s
  | .ulExport x1 x2 => Sys2Proof.Machine.execUlExport x1 x2 s
  | .prachExport x1 x2 x3 x4 => Sys2Proof.Machine.execPrachExport x1 x2 x3 x4 s
  | .prachOccasion x1 x2 => Sys2Proof.Machine.execPrachOccasion x1 x2 s
  | .agcStep x1 x2 => Sys2Proof.Machine.execAgcStep x1 x2 s
  | .protectionStep x1 x2 => Sys2Proof.Machine.execProtectionStep x1 x2 s
  | .protectionReturn x1 => Sys2Proof.Machine.execProtectionReturn x1 s
  | .weightClaim x1 x2 x3 x4 => Sys2Proof.Machine.execWeightClaim x1 x2 x3 x4 s
  | .serviceStart => Sys2Proof.Machine.execServiceStart s
  | .serviceEnd => Sys2Proof.Machine.execServiceEnd s
  | .tddEvent x1 => Sys2Proof.Machine.execTddEvent x1 s
  | .rffeProgram x1 x2 => Sys2Proof.Machine.execRffeProgram x1 x2 s
  | .loQualified x1 => Sys2Proof.Machine.execLoQualified x1 s
  | .loQualifyTimeout x1 => Sys2Proof.Machine.execLoQualifyTimeout x1 s
  | .loUnlock x1 => Sys2Proof.Machine.execLoUnlock x1 s
  | .loRelockTimeout x1 => Sys2Proof.Machine.execLoRelockTimeout x1 s
  | .pllUnlock x1 => Sys2Proof.Machine.execPllUnlock x1 s
  | .oscQualified x1 => Sys2Proof.Machine.execOscQualified x1 s
  | .oscQualifyTimeout x1 => Sys2Proof.Machine.execOscQualifyTimeout x1 s
  | .oscRetry => Sys2Proof.Machine.execOscRetry s
  | .refMonitorTrip x1 x2 x3 => Sys2Proof.Machine.execRefMonitorTrip x1 x2 x3 s
  | .frcMonitorTrip => Sys2Proof.Machine.execFrcMonitorTrip s
  | .xtalARevert => Sys2Proof.Machine.execXtalARevert s
  | .compensationUpdate => Sys2Proof.Machine.execCompensationUpdate s
  | .esmcTimeout => Sys2Proof.Machine.execEsmcTimeout s
  | .synceRequalify => Sys2Proof.Machine.execSynceRequalify s
  | .ptpSyncExchange x1 x2 x3 x4 x5 x6 => Sys2Proof.Machine.execPtpSyncExchange x1 x2 x3 x4 x5 x6 s
  | .ptpMasterChange x1 => Sys2Proof.Machine.execPtpMasterChange x1 s
  | .ppsInEdge => Sys2Proof.Machine.execPpsInEdge s
  | .ppsEdgeTimeout => Sys2Proof.Machine.execPpsEdgeTimeout s
  | .holdoverTimeout => Sys2Proof.Machine.execHoldoverTimeout s
  | .ppsOut => Sys2Proof.Machine.execPpsOut s
  | .modeEntered => Sys2Proof.Machine.execModeEntered s
  | .quiesceTimeout x1 => Sys2Proof.Machine.execQuiesceTimeout x1 s
  | .pgGood x1 => Sys2Proof.Machine.execPgGood x1 s
  | .pgTimeout x1 => Sys2Proof.Machine.execPgTimeout x1 s
  | .pgLoss x1 => Sys2Proof.Machine.execPgLoss x1 s
  | .wakeSenseTrip x1 => Sys2Proof.Machine.execWakeSenseTrip x1 s
  | .rxEnergyWake x1 x2 => Sys2Proof.Machine.execRxEnergyWake x1 x2 s
  | .wakeTimer => Sys2Proof.Machine.execWakeTimer s
  | .pcieWake => Sys2Proof.Machine.execPcieWake s
  | .wakeRetry => Sys2Proof.Machine.execWakeRetry s
  | .domainReady x1 => Sys2Proof.Machine.execDomainReady x1 s
  | .wakeStallTimeout x1 x2 => Sys2Proof.Machine.execWakeStallTimeout x1 x2 s
  | .domainIdleOff x1 => Sys2Proof.Machine.execDomainIdleOff x1 s
  | .thermalScheduledDemand => Sys2Proof.Machine.execThermalScheduledDemand s
  | .thermalResult x1 x2 => Sys2Proof.Machine.execThermalResult x1 x2 s
  | .leaseExpiry x1 => Sys2Proof.Machine.execLeaseExpiry x1 s
  | .leaseRelease x1 => Sys2Proof.Machine.execLeaseRelease x1 s
  | .watchdogExpiry => Sys2Proof.Machine.execWatchdogExpiry s
  | .scrub x1 => Sys2Proof.Machine.execScrub x1 s
  | .powerOnReset x1 => Sys2Proof.Machine.execPowerOnReset x1 s
  | .resetN => Sys2Proof.Machine.execResetN s
  | .pg0Retry => Sys2Proof.Machine.execPg0Retry s
  | .bootRom x1 x2 => Sys2Proof.Machine.execBootRom x1 x2 s
  | .powerCycle => Sys2Proof.Machine.execPowerCycle s
  | .advance x1 => Sys2Proof.Machine.execAdvance x1 s
  | .provision x1 => Sys2Proof.Machine.execProvision x1 s
  | .deploy x1 => Sys2Proof.Machine.execDeploy x1 s
  | .return_ x1 => Sys2Proof.Machine.execReturn x1 s
  | .scrap x1 => Sys2Proof.Machine.execScrap x1 s
  | .debugOff x1 => Sys2Proof.Machine.execDebugOff x1 s
  | .paClearNRelease => Sys2Proof.Machine.execPaClearNRelease s
  | .wakeSenseRearm x1 => Sys2Proof.Machine.execWakeSenseRearm x1 s
  | .pllQualified x1 => Sys2Proof.Machine.execPllQualified x1 s
  | .pllQualifyTimeout x1 => Sys2Proof.Machine.execPllQualifyTimeout x1 s
  | .synceMonitorTrip x1 => Sys2Proof.Machine.execSynceMonitorTrip x1 s
  | .monitorWindowEnd x1 x2 => Sys2Proof.Machine.execMonitorWindowEnd x1 x2 s
  | .resetNRelease x1 => Sys2Proof.Machine.execResetNRelease x1 s
  | .vddAoDip => Sys2Proof.Machine.execVddAoDip s

end Sys2Proof.Machine
end

