-- ==== Sys2Proof/Safety.lean ====
section
/-! DEFINITION. Terms that claims use: when a message is delivered to its execution, what consuming and answering it leaves, and
what a step may never lose. -/

namespace Sys2Proof.Machine

/-- The Bureau takes next, from host ring `ring`, a message of opcode `op` with header `h` and payload `p` that passes every
check of R44 up to the message's own: framed, its CRC holding, not a replay, in sequence, flags and status in order, its epoch
unconditional or live, and for a long operation the long flag with room among those running (R48); no word of it in Bureau memory holds an error
(R26). -/
structure Delivered (op ring : Nat) (dma : List Byte) (s : State) (h : Hdr) (p : List Byte) : Prop where
  picked : pickRing s = some ring
  front : frontOf ring dma s = .msg h p
  opcode : h.opcode = op
  known : badOpcode ring op = none
  notReplay : (ringOf s ring).window.find? (fun r => decide (r.seq = h.seq)) = none
  inOrder : (ringOf s ring).expect = none ∨ (ringOf s ring).expect = some h.seq ∨ op = 0x0101
  flags : h.flags < 4
  status : h.status = 0
  epoch : h.epoch = 0 ∨ h.epoch = s.cfg.epoch
  long : op ∈ longOpcodes → h.flags.testBit 1 = true ∧ s.ph.long.length < 8
  sound : frontWords ring (32 + h.length) s = []

/-- The slots of a framed message are consumed and the turn has moved on; the expected sequence is as it was (R37, R48). -/
def slotsTaken (ring : Nat) (h : Hdr) (s : State) : State :=
  let g := ringOf s ring
  setRing ring { g with head := (g.head + slotCount (32 + h.length)) % 2 ^ 32 }
    (fetchSlots g g.head (slotCount (32 + h.length)) { s with ph := { s.ph with turn := if ring = 0 then s.ph.turn else ring % 7 + 1 } })

/-- The state in which a delivered message's own checks and effect run: its slots consumed, the turn moved on and the expected
sequence one past the message's (R37, R46, R48). -/
def consumed (ring : Nat) (h : Hdr) (s : State) : State :=
  let g := ringOf s ring
  setRing ring { g with head := (g.head + slotCount (32 + h.length)) % 2 ^ 32, expect := some ((h.seq + 1) % 2 ^ 32) } (slotsTaken ring h s)

/-- Who is answered: the ring and header, with the live epoch of the execution (R43). -/
def askerOf (ring : Nat) (h : Hdr) (s : State) : Asker := { ring := ring, hdr := { h with epoch := s.cfg.epoch } }

/-- A final response with a code and payload: noted in the replay window, and sent if it is an error or was requested (R43, R47). -/
def answeredWith (a : Asker) (code detail : Nat) (payload : List Byte) (t : State) : State :=
  let m := response a code detail true payload
  sendResponse a (isError code) m (remember a m (isError code) t)

/-- The final response OK. -/
def answered (a : Asker) (payload : List Byte) (t : State) : State := answeredWith a 0 0 payload t

/-- A long operation has started: it joins those running, and ACCEPTED is noted and sent if requested (R48). -/
def acceptedLong (k : LongKind) (a : Asker) (t : State) : State :=
  let m := response a stAccepted 0 false []
  sendResponse a false m (remember a m false { t with ph := { t.ph with long := t.ph.long ++ [(k, a)] } })

/-- The answer of a message is deferred: its ring is busy until it comes (R48). -/
def deferredTo (a : Asker) (t : State) : State :=
  let s1 := remember a [] false t
  setRing a.ring { ringOf s1 a.ring with busy := true } s1

/-- A PCIe access to offset `o` of W0 reaches its register, in state `w` (R32, R35, R336, R401). -/
structure HostReaches (o : Nat) (s w : State) : Prop where
  mode : s.pwr.mode ≠ .reset
  link : s.ph.pcieUp = true
  domain : accessDomain (w0Domain o) s = some w
  stage : stageNow w ≠ .scrapped

/-- A whole SPI frame of command `cmd` that verifies: its request, in a mode and stage in which the target serves it (R33, R401). -/
structure SpiArrives (cmd : Nat) (frame : List Byte) (s : State) (r : SpiReq) : Prop where
  command : spiIs frame cmd = true
  serves : spiServes cmd s = true
  request : spiRequest frame = some (some r)

/-! ### Trestle -/

/-- Registers of the context that core c executes. -/
def nowRegs (c : Nat) (s : State) : TRegs := regsOf (coreOf s c) (coreOf s c).cur

/-- Core c issues its next instruction, which no fetch check stops, and its local memory holds no struck word (R26); whatever repeats
the instruction is left open (R233, R245). -/
structure Fetches (c : Nat) (s : State) : Prop where
  can : canIssue s c = true
  fetch : fetchTrap (coreOf s c) = none
  code : wordError s 6 (fetchWord s c) = none
  data : (envOf s c).bad = []

/-- Core c issues its next instruction once, outside an RPT. -/
structure Issues (c : Nat) (s : State) : Prop extends Fetches c s where
  single : (nowRegs c s).rpt = none

/-- What a core's instruction leaves alone: the other cores, the other contexts of its core, the instruction memory, the
allocation of quanta, every slot but for the accumulators that overflowed, and the rest of the device. -/
structure CoreFrame (c : Nat) (s t : State) : Prop where
  others : ∀ j, j ≠ c → coreOf t j = coreOf s j
  contexts : ∀ x, x ≠ (coreOf s c).cur → regsOf (coreOf t c) x = regsOf (coreOf s c) x
  slots : ∀ x, tslotOf (coreOf t c) x = { tslotOf (coreOf s c) x with ovf := (tslotOf (coreOf t c) x).ovf }
  core : coreOf t c = { coreOf s c with
    regs := (coreOf t c).regs, slot := (coreOf t c).slot, dmem := (coreOf t c).dmem, qcyc := (coreOf t c).qcyc }
  device : t = { s with core := t.core, fresh := t.fresh }

/-- Instruction `i` of core c completes in n cycles and leaves registers `r` and data memory `m`; the PC goes on at the next
word, or where an open block repeat leads, whose counters follow (R232, R243). -/
def Completes (c : Nat) (i : Instr) (s : State) (r : TRegs) (m : Tbl Byte) (n : Nat) : Prop :=
  ∃ t, exec i s = .next t ∧ CoreFrame c s t ∧
    nowRegs c t = { r with pc := (nowRegs c t).pc, lc := (nowRegs c t).lc, depth := (nowRegs c t).depth,
                           cyc := (r.cyc + n) % 2 ^ 32 } ∧
    (r.depth = 0 → (nowRegs c t).pc = (r.pc + 4) % 65536 ∧ (nowRegs c t).lc = r.lc ∧ (nowRegs c t).depth = 0) ∧
    (coreOf t c).dmem = m ∧ (coreOf t c).qcyc = (coreOf s c).qcyc + n

/-- Instruction `i` of core c completes in n cycles, leaves registers `r` and the program goes on at `pc`. -/
def Jumps (c : Nat) (i : Instr) (s : State) (r : TRegs) (pc n : Nat) : Prop :=
  ∃ t, exec i s = .next t ∧ CoreFrame c s t ∧ nowRegs c t = { r with pc := pc % 65536, cyc := (r.cyc + n) % 2 ^ 32 } ∧
    (coreOf t c).dmem = (coreOf s c).dmem ∧ (coreOf t c).qcyc = (coreOf s c).qcyc + n

/-- Instruction `i` of core c completes in n cycles, leaves registers `r` and the program falls through to `next`, where an open block
repeat may end (R243). -/
def Falls (c : Nat) (i : Instr) (s : State) (r : TRegs) (next n : Nat) : Prop :=
  ∃ t, exec i s = .next t ∧ CoreFrame c s t ∧
    nowRegs c t = { (loopBack 4 r next).1 with pc := (loopBack 4 r next).2 % 65536, cyc := (r.cyc + n) % 2 ^ 32 } ∧
    (coreOf t c).dmem = (coreOf s c).dmem ∧ (coreOf t c).qcyc = (coreOf s c).qcyc + n

/-- Registers in which data register n has taken a value that also sets Z and N. -/
def withZN (n : Nat) (v : Word) (r : TRegs) : TRegs := { r with d := tset 0 r.d n v, z := decide (v = 0), n := v.getLsbD 31 }

/-- A component pair does not fit in w bits. -/
def exceeds (w : Nat) (x : IQ) : Bool := overBits w x.1 || overBits w x.2

/-- Accumulator n of `r` holds `v` saturated to 40 bits, with ACC_OVF[n] set if it did not fit, as of registers `r0` (R239). -/
def AccTakes (n : Nat) (v : IQ) (r0 r : TRegs) : Prop :=
  aReg r n = satIQ 40 v ∧ r.ovf.getLsbD n = (r0.ovf.getLsbD n || exceeds 40 v)

/-- Accumulator n and its ACC_OVF bit are as they were. -/
def AccKept (n : Nat) (r0 r : TRegs) : Prop := aReg r n = aReg r0 n ∧ r.ovf.getLsbD n = r0.ovf.getLsbD n

/-- The step gave a next state. -/
def Steps (s t : State) : Prop := step s = .next t

end Sys2Proof.Machine
end

