-- ==== Sys2Proof/Certificates/Slice0/Obligations.lean ====
section
/-! DEFINITION. The statements for the provers. Throughout, `consumed ring h s` is the state in which a delivered message runs,
`askerOf ring h s` who is answered, and `answered` its final OK response. -/

open Sys2Proof Sys2Proof.Machine

/-! ### The machine as a whole -/

/-- A step takes the command at the front of the queue and runs it with the queue's rest; on an empty queue the raw counter of
R316 moves on (the model's choice, log 6). -/
def Obligations.StepRunsFrontCommand : Prop :=
  (∀ (c : Instr) (cs : List Instr) (s : State), s.pending = c :: cs → step s = exec c { s with pending := cs }) ∧
  ∀ s : State, s.pending = [] → step s = .next (advanceRaw 1 s)

/-- What reset leaves, register by register of W0 as Tables 2-10 to 2-18 state it, with the stage as shipped (R2): read through W0, so that
the pigeonholes with their status, the events with masks, routes and counts, emergency and pad hold, latched time, refusal counts and
records, Rocker registers, leases and thermal readings are all covered. Nothing waits. -/
def Obligations.ResetLeavesStatedValues : Prop :=
  let w := w0Read State.reset
  (w 0x00 = 0x6464B002 ∧ w 0x04 = 0 ∧ w 0x14 = 1 ∧ w 0x18 = 1 ∧ stageNow State.reset = .manufacture) ∧
  (∀ n < 16, (w (0x1000 + 64 * n) = 0 ∧ w (0x1004 + 64 * n) = 0 ∧ w (0x1008 + 64 * n) = 3 ∧ w (0x1010 + 64 * n) = 0 ∧
    w (0x1014 + 64 * n) = 0 ∧ w (0x1018 + 64 * n) = 0x82 ∧ w (0x101C + 64 * n) = 0)) ∧ w 0x1400 = 0 ∧
  ((∀ k < 25, w (0x2000 + 4 * k) = 0) ∧ (∀ b < 16, w (0x2080 + 4 * b) = b % 4 + 256 * b + 0x4000) ∧ ∀ j < 128, w (0x2100 + 4 * j) = 0) ∧
  (w 0x3004 = 0 ∧ w 0x4000 = 0 ∧ w 0x4008 = 0 ∧ ∀ k < 8, w (0x5004 + 4 * k) = 0) ∧
  ((∀ r < 32, ∀ k < 4, w (0x6000 + 16 * r + 4 * k) = 0) ∧ (∀ m < 12, w (0x6200 + 4 * m) = 0) ∧ w 0x6240 = 0) ∧
  (w 0x7000 % 2 = 0 ∧ ∀ k < 7, k ≠ 0 → w (0x7000 + 4 * k) = 0) ∧
  (∀ e < 24, w (0x8000 + 8 * e) = 0 ∧ w (0x8004 + 8 * e) = 0) ∧ (∀ k < 33, w (0x9000 + 4 * k) = 0) ∧
  State.reset.tm.raw = 0 ∧ State.reset.tm.offset = 0 ∧ State.reset.tm.rate = 0 ∧ State.reset.pending = []

/-! ### Tier 3: what every step keeps -/

/-- Every command completes in every state, and none changes the queue: `exec` acts on everything but it.
A row that the state rules out leaves the state (log 10). -/
def Obligations.EveryCommandCompletes : Prop :=
  ∀ (c : Instr) (s : State), ∃ t, exec c s = .next t ∧ t.pending = s.pending

/-- The stage cells are one-time-programmable (R402): no step clears one, so the stage of the device never goes back. -/
def Obligations.StageNeverGoesBack : Prop :=
  ∀ s t : State, Steps s t → s.life.cells &&& t.life.cells = s.life.cells ∧ stageCode (stageNow s) ≤ stageCode (stageNow t)

/-- The epochs (R67): after reset the live image is the reset image, whose bytes the subject chapters define and which enables no
carrier and no flow, and LIVE_EPOCH is 1; each commit makes it the next number, after 0xFFFF_FFFF 1 again; and every step keeps
it a 32-bit number other than 0. -/
def Obligations.LiveEpochStaysLegal : Prop :=
  ((∀ sec o, imgByte State.reset.cfg.live sec o = resetByte sec o) ∧ (∀ ul c, ccEnabled State.reset.cfg.live ul c = false) ∧
    (∀ r, (flowAt State.reset.cfg.live r).kind = 0) ∧ governingFlows State.reset.cfg.live = [] ∧ State.reset.cfg.epoch = 1) ∧
  (∀ (s : State) (im : Image) (b : Boundary), s.cfg.armed = some (im, b) → ∃ t, exec .commitBoundary s = .next t ∧ t.cfg.live = im ∧
    t.cfg.epoch = (if s.cfg.epoch = 0xFFFFFFFF then 1 else s.cfg.epoch + 1)) ∧
  ∀ s t : State, 1 ≤ s.cfg.epoch → s.cfg.epoch ≤ 0xFFFFFFFF → Steps s t → 1 ≤ t.cfg.epoch ∧ t.cfg.epoch ≤ 0xFFFFFFFF

/-- The reset state has a legal LIVE_EPOCH. -/
def Obligations.ResetEpochLegal : Prop := 1 ≤ State.reset.cfg.epoch ∧ State.reset.cfg.epoch ≤ 0xFFFFFFFF

/-! ### System and event messages -/

/-- `sys.hello`, `sys.info`, `sys.reset`, `event.config` and `event.drain`, delivered and well formed, answer OK with the
contents of Table 2-8 and have their effect. An answer changes nothing but the pigeonholes, the events and what leaves the
device; among the host rings only the asker's replay window. -/
def Obligations.SystemMessagesAnswer : Prop :=
  (∀ (ring : Nat) (dma : List Byte) (s : State) (h : Hdr) (p : List Byte),
     let a := askerOf ring h s
     let t := consumed ring h s
     (Delivered 0x0101 ring dma s h p → p.length = 4 → u p 0 4 = 1 →
       exec (.sysHello ring dma) s = .next (answered a (leBytes 4 1 ++ leBytes 4 t.sys.idFw ++ leBytes 4 t.cfg.epoch ++
         leBytes 1 (modeCode t.pwr.mode) ++ leBytes 1 (stageCode (stageNow t)) ++ leBytes 1 t.sys.bootCause ++ [0]) t)) ∧
     (Delivered 0x0102 ring dma s h p → p = [] →
       exec (.sysInfo ring dma) s = .next (answered a (leBytes 4 0x6464B002 ++ leBytes 8 Config.uid.toNat ++ leBytes 4 t.sys.idFw ++
         leBytes 4 t.sys.bootCount ++ leBytes 4 t.sys.restarts ++ leBytes 4 (Nat.min 0xFFFFFFFF (t.tm.raw / 1474560000))) t)) ∧
     (Delivered 0x0103 ring dma s h p → p = [1, 0, 0, 0] →
       exec (.sysReset ring dma) s = .next (resetNow 2 (answered a [] t))) ∧
     (Delivered 0x0103 ring dma s h p → p = [0, 0, 0, 0] →
       exec (.sysReset ring dma) s = .next (resetScope 0 (answered a [] t)) ∧
       (resetScope 0 (answered a [] t)).sys.bootCause = 2) ∧
     (Delivered 0x0D01 ring dma s h p → p = [] →
       exec (.eventConfig ring dma) s = .next (answered a (eventConfigBytes t) t)) ∧
     (Delivered 0x0D01 ring dma s h p → p.length = 96 →
       (∀ b < 16, u p (32 + 4 * b) 4 &&& routeMask = u p (32 + 4 * b) 4) →
       let w := setMask (BitVec.ofNat 256 (u p 0 32)) ((List.range 16).foldl (fun q b => setRoute b (u p (32 + 4 * b) 4) q) t)
       exec (.eventConfig ring dma) s = .next (answered a (eventConfigBytes w) w)) ∧
     (Delivered 0x0D02 ring dma s h p → p.length = 8 → u p 0 2 ≤ 255 → u p 0 2 + u p 2 2 ≤ 256 → u p 4 1 ≤ 1 →
       slice p 5 3 = zeros 3 →
       exec (.eventDrain ring dma) s = .next (answered a (leBytes 2 (u p 0 2) ++ leBytes 2 (u p 2 2) ++
           (tgetList 0 t.ev.count (u p 0 2) (u p 2 2)).flatMap (leBytes 2))
         (if u p 4 1 = 1 then clearEvents (u p 0 2) (u p 2 2) t else t)))) ∧
  (∀ (a : Asker) (code detail : Nat) (payload : List Byte) (s : State), a.ring < 8 →
     let t := answeredWith a code detail payload s
     t = { s with ph := t.ph, ev := t.ev, out := t.out } ∧ t.ph.long = s.ph.long ∧ t.ph.turn = s.ph.turn ∧
     t.ph.ignored = s.ph.ignored ∧ t.ph.pcieUp = s.ph.pcieUp ∧ t.ev.mask = s.ev.mask ∧ t.ev.route = s.ev.route ∧
     (∀ n < 8, n ≠ a.ring → ringOf t n = ringOf s n) ∧
     (∀ n, n ≠ a.ring → n ≠ respRing a.ring → n ≠ 15 → ringOf t n = ringOf s n))

/-- A replay: a message whose sequence number is in its ring's window is not executed again by any message row; its slots are
consumed, the kept response is sent again, and a `sys.hello` or a first message sets the expected sequence all the same (R46). A
number out of sequence is answered BAD_FIELD with detail 4. BAD_OPCODE and
FRAMING_LOST: a message whose opcode is unknown or not of its ring is answered BAD_OPCODE; a length beyond 16,352 or beyond the
slots posted, and a CRC that fails, discard every posted slot and are answered BAD_LENGTH or INTEGRITY, and a word of the message in Bureau
memory that reads with a double-bit error fails it as its CRC does (R26). Words with an error are met as the message is read. -/
def Obligations.MessagesNotExecuted : Prop :=
  (∀ (op ring : Nat) (dma : List Byte) (body : Asker → List Byte → State → Reply) (s : State) (h : Hdr) (p : List Byte) (r : Replay),
     pickRing s = some ring → frontOf ring dma s = .msg h p → h.opcode = op → badOpcode ring op = none →
     (ringOf s ring).window.find? (fun e => decide (e.seq = h.seq)) = some r →
     runMessage op ring dma body s =
       sendResponse { ring := ring, hdr := h } r.isErr r.resp
         (if (ringOf s ring).expect = none ∨ op = 0x0101 then consumed ring h (meetFront ring (32 + h.length) s)
          else slotsTaken ring h (meetFront ring (32 + h.length) s))) ∧
  (∀ (op ring : Nat) (dma : List Byte) (body : Asker → List Byte → State → Reply) (s : State) (h : Hdr) (p : List Byte) (e : Nat),
     pickRing s = some ring → frontOf ring dma s = .msg h p → h.opcode = op → op ≠ 0x0101 →
     (ringOf s ring).window.find? (fun e => decide (e.seq = h.seq)) = none → (ringOf s ring).expect = some e → e ≠ h.seq →
     runMessage op ring dma body s =
       sendResponse { ring := ring, hdr := h } true (response (askerOf ring h s) 0x12 4 true [])
         (slotsTaken ring h (meetFront ring (32 + h.length) s))) ∧
  (∀ (ring : Nat) (dma : List Byte) (s : State) (h : Hdr) (p : List Byte) (d : Nat), pickRing s = some ring →
     (frontOf ring dma s = .msg h p → badOpcode ring h.opcode = some d → h.flags < 4 → h.status = 0 →
       (ringOf s ring).window.find? (fun r => decide (r.seq = h.seq)) = none →
       ((ringOf s ring).expect = none ∨ (ringOf s ring).expect = some h.seq) →
       exec (.badOpcode ring dma) s =
         .next (answeredWith (askerOf ring h s) 0x10 d [] (consumed ring h (meetFront ring (32 + h.length) s)))) ∧
     (frontOf ring dma s = .badLength h →
       ∃ t, exec (.framingLost ring dma) s = .next t ∧ t = loseFraming ring 0x11 8 h (meetFront ring 32 s)) ∧
     (frontOf ring dma s = .badCrc h ∨ (h = parseHdr (msgBytes ring dma 32 s) ∧ h.length ≤ 16352 ∧
         slotCount (32 + h.length) ≤ ringUsed (ringOf s ring) ∧ ∃ x ∈ frontWords ring (32 + h.length) s, x.double = true) →
       exec (.framingLost ring dma) s =
         .next (loseFraming ring 0x18 0 h (raise 5 (detH ring 0 h.opcode h.seq) (meetFront ring (32 + h.length) s)))))

/-! ### Resets, boot and firmware -/

/-- RESET_N, its release, POWER_ON_RESET, POWER_CYCLE, VDD_AO_DIP, FRC_MONITOR_TRIP and PG0_RETRY (R420, R308, R363): RESET is
entered with AO alone powered, the raw counter and the latch kept or lost as the manual says; it is held while RESET_N is low or a supply
is not good, and the release, at t0, raises PWR_EN[0] and returns to THERMAL-LATCH where the latch is set.
The latch at the release is deduced (log 32). -/
def Obligations.ResetsEnterAndLeaveReset : Prop :=
  ∀ (s : State) (straps : BitVec 8),
    (s.boot.supplyBad = false → ∃ t, exec .resetN s = .next t ∧ t.pwr.mode = .reset ∧ t.pwr.on = 1 ∧ t.pwr.en = 0 ∧
      t.boot.inReset = true ∧ t.boot.resetLow = true ∧ t.sys.bootCause = 1 ∧ t.tm.raw = s.tm.raw ∧ t.th.latch = s.th.latch ∧ t.cfg.epoch = 1 ∧
      t.life.cells = s.life.cells ∧ t.nvm.copy = s.nvm.copy) ∧
    (s.boot.supplyBad = true → exec .resetN s = .next { s with boot := { s.boot with resetLow := true } } ∧
      exec (.resetNRelease straps) s = .next { s with boot := { s.boot with resetLow := false } }) ∧
    (s.boot.inReset = true → s.boot.supplyBad = false → s.th.latch = false →
      exec (.resetNRelease straps) s = .next { s with
        bias := { s.bias with straps := straps }, boot := { s.boot with inReset := false, resetLow := false, t0 := s.tm.raw },
        pwr := { s.pwr with en := s.pwr.en ||| 1, since := s.tm.raw } }) ∧
    (s.boot.inReset = true → s.boot.supplyBad = false → s.th.latch = true → ∃ t, exec (.resetNRelease straps) s = .next t ∧
      t.pwr.mode = .thermalLatch ∧ t.boot.inReset = false ∧ t.pwr.en = s.pwr.en ||| 1 ∧ t.th.latch = true) ∧
    (s.boot.supplyBad = true → s.boot.resetLow = true →
      exec (.powerOnReset straps) s = .next { s with boot := { s.boot with supplyBad := false } }) ∧
    (s.boot.supplyBad = true → s.boot.resetLow = false → s.th.latch = false →
      exec (.powerOnReset straps) s = .next { s with
        bias := { s.bias with straps := straps }, boot := { s.boot with inReset := false, supplyBad := false, t0 := s.tm.raw },
        pwr := { s.pwr with en := s.pwr.en ||| 1, since := s.tm.raw } }) ∧
    (∃ t, exec .powerCycle s = .next t ∧ t.pwr.mode = .reset ∧ t.pwr.on = 1 ∧ t.tm.raw = 0 ∧ t.th.latch = false ∧
      t.boot.supplyBad = true ∧ t.boot.inReset = true ∧ t.pwr.refs = [] ∧ t.stat = [] ∧ t.life.cells = s.life.cells) ∧
    (∃ t, exec .vddAoDip s = .next t ∧ t.pwr.mode = .reset ∧ t.pwr.on = 1 ∧ t.tm.raw = 0 ∧ t.th.latch = s.th.latch ∧
      t.boot.supplyBad = true ∧ t.boot.inReset = true ∧ t.life.cells = s.life.cells) ∧
    (s.boot.inReset = false → s.pwr.mode ≠ .reset → s.th.latch = false → ∃ t, exec .frcMonitorTrip s = .next t ∧ t.pwr.mode = .reset ∧
      t.sys.bootCause = 3 ∧ t.boot.inReset = false ∧ t.pwr.en = 1) ∧
    (s.pwr.mode = .reset → s.boot.inReset = false → s.pwr.en = 0 → exec .pg0Retry s =
      let w := advanceSince s.pwr.since (100 * 1474560) s
      .next { w with pwr := { w.pwr with en := 1, since := w.tm.raw } })

/-- BOOT_ROM (R422, R423): the domains and regulators of BOOT follow the power map, the flash is opened, and the lowest slot whose image
passes the checks of R408 starts Aethiq; where neither does, Aethiq does not start, the xSPI pins are released and the ROM has run. SYS_READY
(R424, R426): READY is set and `sys.ready` posted, at a boot once the domains of the mode to come are powered, with the entry into STANDBY or
BRING-UP; WATCHDOG_EXPIRY (R393): the Bureau halts, the restart is counted and READY is lost.
The verdict on an image is opaque (log 2). -/
def Obligations.BootReadyAndWatchdog : Prop :=
  (∀ (s : State) (a : BootFlash) (b : FwHeader), s.pwr.mode = .boot → s.boot.romDone = false → s.life.zero = false → stageNow s ≠ .scrapped →
     let w := openFlash a.octal (bootDomains s)
     (imageOk a.slot0 w = true → exec (.bootRom a b) s = .next (startAethiq a.slot0 none w)) ∧
     (imageOk a.slot0 w = false → imageOk b w = true → ∃ f d, exec (.bootRom a b) s = .next (startAethiq b (some f) (sigFailBit d w))) ∧
     (imageOk a.slot0 w = false → imageOk b w = false → ∃ t,
       exec (.bootRom a b) s = .next t ∧ t.boot.romDone = true ∧ t.boot.started = s.boot.started ∧ t.boot.xspi = .released ∧
       t.ev.status.getLsbD 227 = true)) ∧
  (∀ s : State,
     (s.boot.started = true → s.sys.ready = false → s.pwr.ready.getLsbD 1 = true → s.pwr.mode ≠ .boot → s.boot.booted = true →
       exec .sysReady s = .next (readPorts (announce (readRecords s)))) ∧
     (∀ m, s.boot.started = true → s.sys.ready = false → s.pwr.ready.getLsbD 1 = true → s.pwr.mode = .boot →
       s.pwr.trans = none → settledMode s = some m →
       (modeDomains s m &&& ~~~(s.pwr.on ||| s.pwr.heldOff) ≠ 0 → exec .sysReady s = .next (powerMode s)) ∧
       (modeDomains s m &&& ~~~(s.pwr.on ||| s.pwr.heldOff) = 0 → ∃ w,
         exec .sysReady s = .next (bootNotices (announce w)) ∧ w.pwr.mode = m ∧ w.boot.booted = true ∧ (m = .standby ∨ m = .bringUp))) ∧
     (∀ w : State, (announce w).sys.ready = true ∧ (announce w).sys.halted = false) ∧
     (s.boot.started = true → s.pwr.ready.getLsbD 1 = true → s.pwr.mode ≠ .reset → s.sys.halted = false →
       ∃ t, exec .watchdogExpiry s = .next t ∧ t.sys.ready = false ∧ t.sys.halted = true ∧ t.sys.bootCause = 3 ∧
         t.sys.restarts = Nat.min 0xFFFFFFFF (s.sys.restarts + 1) ∧ t.ph.long = [] ∧ t.cfg.epoch = s.cfg.epoch))

/-- `sys.fw_image` and FW_IMAGE_COMPLETE (R425): accepted as a long operation; a write stores its bytes in the patch region and
leaves no valid patch, an erase empties it, a commit that verifies makes it valid and answers its versions; a revoked lease or a
cut leaves the region without a valid patch.
The verdict is opaque (log 2), and what a cut leaves is deduced (log 67). -/
def Obligations.FirmwareImageOperations : Prop :=
  (∀ (ring : Nat) (dma : List Byte) (s : State) (h : Hdr) (p : List Byte) (w : State), Delivered 0x0104 ring dma s h p →
    p.length = 16 + u p 8 4 → firstBad (fwChecks p) = none → longRunning .fwImage s = false →
    accessDomain 2 (consumed ring h s) = some w → w.ph.long = s.ph.long →
    exec (.sysFwImage ring dma) s =
      .next (acceptedLong .fwImage (askerOf ring h s) { w with nvm := { w.nvm with fwOp := some (u p 0 1, u p 4 4, p.drop 16) } })) ∧
  (∀ (s : State) (off : Nat) (data : List Byte), ∃ x, patchWrite off data s = { s with
    nvm := { s.nvm with patch := tsetList 0 (if s.nvm.patchFresh then [] else s.nvm.patch) off data, patchFresh := false, patchValid := false },
    ls := { s.ls with bad := x } }) ∧
  ∀ (s : State) (off : Nat) (data : List Byte),
    let w : State := { s with nvm := { s.nvm with fwOp := none } }
    (s.nvm.fwOp = some (1, off, data) → exec (.fwImageComplete .done) s = .next (finishLong .fwImage 0 0 [] (patchWrite off data w))) ∧
    (∀ h base, s.nvm.fwOp = some (2, off, data) → goodPatch w = some (h, base) →
      exec (.fwImageComplete .done) s = .next (finishLong .fwImage 0 0
        (leBytes 4 h.version ++ leBytes 4 h.securityVersion ++ leBytes 4 base)
        (readPatch { w with nvm := { w.nvm with patchFresh := true, patchValid := true } }))) ∧
    (s.nvm.fwOp = some (2, off, data) → goodPatch w = none → exec (.fwImageComplete .done) s = .next (finishLong .fwImage 0x18 0 []
      (readPatch { w with nvm := { w.nvm with patchFresh := true, patchValid := false } }))) ∧
    (s.nvm.fwOp = some (3, off, data) → ∃ x, exec (.fwImageComplete .done) s = .next (finishLong .fwImage 0 0 [] { w with
      nvm := { w.nvm with patch := [], patchFresh := true, patchValid := false }, ls := { s.ls with bad := x } })) ∧
    (∀ op, s.nvm.fwOp = some (op, off, data) → exec (.fwImageComplete .cutShort) s =
      .next (finishLong .fwImage 0x19 0 [] { w with nvm := { w.nvm with patchValid := false } })) ∧
    (∀ op, s.nvm.fwOp = some (op, off, data) → s.nvm.jobs = [] → (leaseOf s 0).free = none → ∃ t,
      exec (.fwImageComplete .leaseRevoked) s = .next t ∧ t.nvm.fwOp = none ∧ t.nvm.patchValid = false ∧ t.ev.status.getLsbD 208 = true)

/-! ### Leases, the scrubber, the Rocker registers and the digest -/

/-- `lease.status`, LEASE_EXPIRY and LEASE_RELEASE (R391, R392, R396, R399): a release frees the resource and grants it to the next
waiting request, at once or, where the Rocker stretches it, later; an expiry waits for the maximum hold and revokes: counted, raised,
recorded. SCRUB (R387): each bad word of the Cabinet (memory 4) and of Bureau memory (memory 7) is counted and raised, EV_SRAM_DED for a
double-bit error and EV_SRAM_SEC for a corrected one, which has no error any more; a struck word of the memories 3, 5 and 6, which are not
scrubbed, holds its error for the read that meets it (R26).
One scrub is one pass over the words that are struck, which the command names (logs 23, 82). -/
def Obligations.LeasesAndScrub : Prop :=
  ((∀ (ring : Nat) (dma : List Byte) (s : State) (h : Hdr) (p : List Byte), Delivered 0x0D04 ring dma s h p → p.length = 4 →
     slice p 1 3 = zeros 3 →
     (u p 0 1 ≤ 23 → exec (.leaseStatus ring dma) s =
       .next (answered (askerOf ring h s) (leaseRecord (consumed ring h s) (u p 0 1)) (consumed ring h s))) ∧
     (u p 0 1 = 255 → exec (.leaseStatus ring dma) s =
       .next (answered (askerOf ring h s) ((List.range 24).flatMap (leaseRecord (consumed ring h s))) (consumed ring h s)))) ∧
   ∀ (e : Nat) (s : State), e < 24 → (leaseNow s e).holder ≠ 0 → (leaseNow s e).free = none →
     (∃ t, exec (.leaseRelease e) s = .next t ∧ (∀ f, f ≠ e → leaseOf t f = leaseOf s f) ∧
       ((stretched e s).1 = none → t = { s with ls := t.ls, rk := t.rk } ∧
         ((leaseNow s e).wait = [] → (leaseNow t e).holder = 0) ∧
         (∀ x xs, (leaseNow s e).wait = x :: xs → leaseNow t e = { leaseNow s e with holder := x, granted := s.tm.raw, wait := xs })) ∧
       (∀ r, (stretched e s).1 = some r → s.tm.raw < r ∧ leaseNow t e = { leaseNow s e with free := some r })) ∧
     ((leaseOf s e).free = none → (e = 0 → s.nvm.jobs = [] ∧ s.nvm.fwOp = none ∧ s.ph.long = []) → ∃ t, exec (.leaseExpiry e) s = .next t ∧
       (leaseOf t e).revokes = Nat.min 0xFFFFFFFF ((leaseNow s e).revokes + 1) ∧
       t.ls.revoked.head? = some (e, (leaseNow s e).holder, 1) ∧ t.ev.status.getLsbD 208 = true)) ∧
  (∀ (s : State) (m a : Nat), s.pwr.mode ≠ .reset → (m = 4 ∨ m = 7) → (∀ h ∈ s.ls.bad, scrubbed h = true → h.met = false) →
     (∃ t, exec (.scrub [⟨m, a, false, true⟩]) s = .next t ∧ tget 0 t.ls.sec m = tget 0 s.ls.sec m + 1 ∧ t.ls.ded = s.ls.ded ∧
       wordError t m a = none ∧ t.ev.status.getLsbD 210 = true ∧ t = { s with ls := t.ls, ev := t.ev, ph := t.ph, out := t.out }) ∧
     (∃ t, exec (.scrub [⟨m, a, true, true⟩]) s = .next t ∧ tget 0 t.ls.ded m = tget 0 s.ls.ded m + 1 ∧ t.ls.sec = s.ls.sec ∧
       t.ev.status.getLsbD 209 = true ∧ (m = 4 → wordError t m a = some true) ∧
       t = { s with ls := t.ls, ev := t.ev, ph := t.ph, out := t.out })) ∧
  (∀ (s : State) (m a : Nat) (d met : Bool), s.pwr.mode ≠ .reset → m ∈ [3, 5, 6] → (∀ h ∈ s.ls.bad, scrubbed h = true → h.met = false) →
     ∃ t, exec (.scrub [⟨m, a, d, met⟩]) s = .next t ∧
     wordError t m a = some d ∧ (∀ n b, (n, b) ≠ (m, a) → wordError t n b = wordError s n b) ∧
     (t.ls.sec, t.ls.ded) = (s.ls.sec, s.ls.ded) ∧ t = { s with ls := t.ls })

/-- The Rocker registers (R63, R396, R398): in the stages that admit them a write stores the field held to its maximum, and
ENABLE rising loads the LFSR from SEED; in other stages nothing is written. `rocker.set` without payload reports. DIGEST_START
and DIGEST_COMPLETE (R390, R398): the CRC registers of the paths and ports start at all ones; at the end of the span every tick before
it has entered its path's register, zeros where nothing plays, and a digest is its register inverted.
Of the Rocker's delays the stretched release of a lease alone is modelled (log 65). -/
def Obligations.RockerAndDigest : Prop :=
  ((∀ (ring : Nat) (dma : List Byte) (s : State) (h : Hdr) (p : List Byte), Delivered 0x0903 ring dma s h p → p = [] →
     exec (.rockerSet ring dma) s = .next (answered (askerOf ring h s) (rockerReport 0 (consumed ring h s)).payload
       (rockerReport 0 (consumed ring h s)).st)) ∧
   (∀ (ring : Nat) (dma : List Byte) (s : State) (h : Hdr) (p : List Byte), Delivered 0x0903 ring dma s h p → p.length = 64 →
     firstBad (rockerChecks p) = none → u p 28 1 = 0 → rockerOpen (consumed ring h s) = true →
     let w := (List.range 7).foldl (fun t k => rockerWrite k (u p (4 * k) 4) t) (consumed ring h s)
     exec (.rockerSet ring dma) s = .next (answered (askerOf ring h s) (rockerReport 0 w).payload (rockerReport 0 w).st)) ∧
   (∀ (s : State) (k v : Nat), rockerOpen s = true → k < 7 →
     tget 0 (rockerWrite k v s).rk.reg k = rockerClamp k v ∧
     (k = 0 → tget 0 s.rk.reg 0 = 0 → v % 2 = 1 → (rockerWrite k v s).rk.lfsr = tget 0 s.rk.reg 6) ∧
     (∀ j, j ≠ k → tget 0 (rockerWrite k v s).rk.reg j = tget 0 s.rk.reg j)) ∧
   (∀ (s : State) (k v : Nat), rockerOpen s = false → rockerWrite k v s = s) ∧
   (∀ (s w : State) (k : Nat) (v : Word), k < 7 → HostReaches (0x7000 + 4 * k) s w →
     exec (.rockerRegisterWrite (0x7000 + 4 * k) v) s = .next (wakeBy 7 (rockerWrite k v.toNat w)))) ∧
  (∀ s : State,
     (s.rk.digest = 1 → ∃ t, exec .digestStart s = .next t ∧ t.rk.digest = 2 ∧
       (∀ n < 72, tget 0 t.rk.crc n = 0xFFFFFFFF) ∧ (∀ n < 64, tget 0 t.rk.next n = tickOf ((s.rk.start : Int) * frameU)) ∧
       t = { s with rk := t.rk, tm := t.tm } ∧ t.rk.reg = s.rk.reg) ∧
     (s.rk.digest = 2 → ∃ t, exec .digestComplete s = .next t ∧ t.rk.digest = 3 ∧
       (∀ n < 8, tget 0 t.rk.crc (64 + n) = Nat.xor (tget 0 s.rk.crc (64 + n)) 0xFFFFFFFF) ∧
       (∀ n < 64, tget none s.dl.playing n = none →
         tget 0 t.rk.crc n = Nat.xor (tget 0 (digestZeros n (tickOf (digestEnd s)) s).rk.crc n) 0xFFFFFFFF) ∧
       t = { s with rk := t.rk, tm := t.tm, dl := t.dl, out := t.out, stat := t.stat, ev := t.ev, ph := t.ph } ∧
       t.dl = { s.dl with playing := t.dl.playing } ∧ t.rk.reg = s.rk.reg ∧ t.rk.lfsr = s.rk.lfsr))

/-! ### Self-test and lifecycle -/

/-- `test.run`, `test.status` and TEST_COMPLETE (R411, R412, R415, R416): a reachable request in STANDBY is accepted as a long operation, its
slices' domains isolated; at its end the result block is stored and no run is left; a run in SELF-TEST starts the way back to STANDBY. A
slice's verdict keeps its order, FAIL, INCOMPLETE, PASS, and no slice completes more windows than its count and budget let it. -/
def Obligations.SelfTestRuns : Prop :=
  (∀ (ring : Nat) (dma : List Byte) (s : State) (h : Hdr) (p : List Byte), Delivered 0x0901 ring dma s h p →
    40 ≤ p.length → p.length = 40 + 4 * u p 6 2 → firstBad (testChecks p) = none → u p 0 1 = 1 → u p 1 1 = 0 →
    s.test.run = none → s.cal.run = none → testReachable p s = true →
    let t := consumed ring h s
    exec (.testRun ring dma) s =
      .next (acceptedLong .testRun (askerOf ring h s) (startSlices { t with test := { t.test with run := some p, start := t.tm.raw } }))) ∧
  (∀ (ring : Nat) (dma : List Byte) (s : State) (h : Hdr), Delivered 0x0902 ring dma s h [] →
    exec (.testStatus ring dma) s = .next (answered (askerOf ring h s)
      (leBytes 1 (b2n s.test.run.isSome) ++ [0, 0, 0] ++ fitBytes 1084 s.test.block) (consumed ring h s))) ∧
  (∀ (s : State) (req : List Byte) (r : TestResult), s.test.run = some req →
    (u req 1 1 = 0 → ∃ t, exec (.testComplete r) s = .next t ∧ t.test.run = none ∧ t.test.block = testBlock false req r s ∧
      t = { s with ph := t.ph, ev := t.ev, out := t.out, test := t.test, pwr := { s.pwr with ready := t.pwr.ready } }) ∧
    (u req 1 1 ≠ 0 → s.pwr.mode = .selfTest → s.pwr.trans = none → s.pwr.from_ = .standby → ∃ t tr, exec (.testComplete r) s = .next t ∧
      t.test.run = none ∧ t.test.block = testBlock false req r (testLoss s) ∧ t.pwr.trans = some tr ∧ tr.target = .standby ∧ tr.cause = 5)) ∧
  (∀ (req : List Byte) (e : Nat × Nat × Nat) (x : SliceResult),
    (sliceOutcome req e x).completed ≤ e.2.2 ∧ (sliceOutcome req e x).completed ≤ budgetWindows req ∧
    (∀ f, (sliceOutcome req e x).firstFailing = some f → e.2.1 ≤ f ∧ f < e.2.1 + (sliceOutcome req e x).completed) ∧
    (sliceVerdict e.2.2 (sliceOutcome req e x) = 1 ↔ (sliceOutcome req e x).firstFailing = none ∧ (sliceOutcome req e x).completed = e.2.2))

/-- ADVANCE, PROVISION, DEPLOY, RETURN, SCRAP and DEBUG_OFF (R402 to R406): an accepted block sets the stage cells of the stage
it leads to, clears none, and resets the device; a refused one leaves the result of Table 18-4. A programming cut short clears no cell and
leaves the stage at its old value unless every stage cell that it needs has been programmed (R402).
The verdict of RETURN is opaque (log 2). -/
def Obligations.LifecycleCommands : Prop :=
  ∀ (s : State) (blk : LcBlock), blk.bytes.length = 224 → s.boot.inReset = false →
    let b := blk.bytes
    ∀ (row : Instr) (cmd : Nat),
      ((row = .advance blk ∧ cmd = 1) ∨ (row = .provision blk ∧ cmd = 2) ∨ (row = .deploy blk ∧ cmd = 3) ∨ (row = .return_ blk ∧ cmd = 4) ∨
        (row = .scrap blk ∧ cmd = 5) ∨ (row = .debugOff blk ∧ cmd = 6)) → u b 0 1 = cmd → blockClean cmd b = true →
      (∀ g, stageChange cmd s = some g → blockResult cmd 0 b s = 0 → ∃ t, exec row s = .next t ∧
        s.life.cells &&& t.life.cells = s.life.cells ∧ t.pwr.mode = (if blk.cut = none ∧ s.th.latch = true then .thermalLatch else .reset) ∧
        (blk.cut = none → stageRead t.life.cells = stageRead s.life.cells ||| stageBits g ∧ t.sys.bootCause = 2 ∧ t.life.result = 0 ∧
          t.life.event = some (stageCode (stageNow s), stageCode g, cmd) ∧
          (cmd = 6 → t.life.debugDisable = true) ∧ (cmd = 2 → (keyInForce t).isSome = true)) ∧
        (blk.cut ≠ none → stageNow t = stageNow s ∨ stageRead t.life.cells &&& stageBits g = stageBits g)) ∧
      (∀ r, blockResult cmd 0 b s = r → r ≠ 0 → exec row s = .next { s with
        life := { s.life with ir := 0xC1, lcCmd := b, result := r, nonce := if cmd = 4 then s.life.nonce + 1 else s.life.nonce } })

/-! ### Calibration, records and the log -/

/-- `cal.run`, `cal.status` and CAL_COMPLETE (R373, R376, R377): a run that its checks admit in STANDBY is accepted and leads into CALIBRATE;
when every type of its order is decided, no run is left and the device starts back to the mode CALIBRATE was entered from. A path's result is
the mean of the two runs of its first attempt that is accepted: one whose runs agree within every tolerance and lie within range. -/
def Obligations.CalibrationRuns : Prop :=
  (∀ (ring : Nat) (dma : List Byte) (s : State) (h : Hdr) (p : List Byte), Delivered 0x0501 ring dma s h p → p.length = 24 →
    firstBad (calFields p) = none → stageNow s ≠ .scrapped →
    ((u p 0 2).testBit 10 = true ∨ (u p 0 2).testBit 11 = true → factoryStage (stageNow s) = true) →
    ((u p 0 2).testBit 6 = true → ∀ c < 64, (u p 8 8).testBit c = true → (chanOf s c).state = 2 ∨ (chanOf s c).state = 3) →
    longRunning .calRun s = false → longRunning .testRun s = false → s.pwr.trans = none → s.pwr.mode = .standby →
    let t := startTrans .calibrate 5 0 {} (consumed ring h s)
    exec (.calRun ring dma) s = .next (acceptedLong .calRun (askerOf ring h s) { t with cal := { t.cal with
      run := some { mask := u p 0 2, tx := u p 8 8, rx := u p 16 8, left := calOrder (u p 0 2) } } })) ∧
  (∀ (ring : Nat) (dma : List Byte) (s : State) (h : Hdr), Delivered 0x0502 ring dma s h [] →
    exec (.calStatus ring dma) s = .next (answered (askerOf ring h s) (calStatusBytes (consumed ring h s)) (consumed ring h s))) ∧
  (∀ (s : State) (c : CalRun) (rs : List CalResult), s.cal.run = some c → s.pwr.mode = .calibrate → s.pwr.trans = none →
    rs.map (fun r => r.typ) = c.left → (∀ r ∈ rs, calDecided (calPaths c.tx c.rx r.typ) r = true) →
    ∃ t tr, exec (.calComplete rs .done) s = .next t ∧ t.cal.run = none ∧ t.pwr.trans = some tr ∧ tr.target = s.pwr.from_ ∧ tr.cause = 5) ∧
  (∀ (r : CalResult) (p k : Nat) (d : List Byte), calPath r p = some (k, d) → 1 ≤ k ∧ ∃ a, r.attempts[k - 1]? = some a ∧
    calAccepts r p a = true ∧ d = calMean (pathParts r.typ p) a ∧ ∀ j < k - 1, ∀ b, r.attempts[j]? = some b → calAccepts r p b = false)

/-- `nvm.read`, `nvm.write_record`, `nvm.status` and NVM_WRITE_STEP (R369, R370, R378 to R380): a read answers the copy asked
for, and counts the errors that the copy's words hold; a write waits for the lease; a step takes the lease, writes at most 1,024 words and
releases it, and with the check word the copy is whole, counted, and in force. A
record copy is in force by R369: a whole copy whose sequence is higher than the other's, modulo 2^32, is the one in force. -/
def Obligations.RecordsReadAndWritten : Prop :=
  ((∀ (ring : Nat) (dma : List Byte) (s : State) (h : Hdr) (p : List Byte) (w : State) (k : Nat) (c : NvmCopy),
     Delivered 0x0A01 ring dma s h p → p.length = 12 → u p 0 2 ∈ recordIds → u p 2 1 = 0 → slice p 3 1 = zeros 1 → u p 8 4 ≤ 16320 →
     accessDomain 2 (consumed ring h s) = some w → inForce w (u p 0 2) = some (k, c) →
     exec (.nvmRead ring dma) s = .next (answered (askerOf ring h s) (leBytes 1 1 ++ zeros 3 ++ leBytes 4 c.seq ++ leBytes 4 c.length ++
       zeros 4 ++ copyBytes c (u p 4 4) (u p 8 4)) (readRecord (u p 0 2) k w))) ∧
   (∀ (ring : Nat) (dma : List Byte) (s : State) (h : Hdr) (p : List Byte) (w : State),
     Delivered 0x0A02 ring dma s h p → p.length = 8 + u p 4 4 → 0x0210 ≤ u p 0 2 → u p 0 2 ≤ 0x021F → slice p 2 2 = zeros 2 →
     u p 4 4 ≤ 8168 → recordStage (stageNow s) = true → recordBusy (u p 0 2) s = false → accessDomain 2 (consumed ring h s) = some w →
     exec (.nvmWriteRecord ring dma) s = .next (deferredTo (askerOf ring h s) { w with nvm := { w.nvm with
       jobs := w.nvm.jobs ++ [⟨u p 0 2, (nextWrite w (u p 0 2)).1, (nextWrite w (u p 0 2)).2, p.drop 8, 0,
         some (askerOf ring h s), false⟩] } })) ∧
   (∀ (ring : Nat) (dma : List Byte) (s : State) (h : Hdr) (w : State), Delivered 0x0A03 ring dma s h [] →
     accessDomain 2 (consumed ring h s) = some w → ∃ b, exec (.nvmStatus ring dma) s = .next (answered (askerOf ring h s)
       (leBytes 4 w.nvm.sec ++ leBytes 4 w.nvm.ded ++ leBytes 4 w.nvm.logNext ++ zeros 4 ++ b) w) ∧ b.length = 26 * 20) ∧
   (∀ (s w : State) (j : NvmJob) (js : List NvmJob), s.nvm.jobs = j :: js → s.ph.long = [] → accessDomain 2 s = some w →
     (leaseNow w 0).holder = 0 → (leaseNow w 0).free = none →
     (recordWords j.data.length ≤ j.words + 1024 → w.ls.bad = [] → ∃ t, exec .nvmWriteStep s = .next t ∧ t.nvm.jobs = js ∧
       copyOf t j.id j.copy =
         { id := j.id, version := 1, seq := j.seq, length := j.data.length, data := j.data, chkSeq := j.seq, crcOk := true } ∧
       (∀ id k, 2 * id + k ≠ 2 * j.id + j.copy → copyOf t id k = copyOf w id k) ∧
       tget 0 t.nvm.writes (2 * j.id + j.copy) = tget 0 w.nvm.writes (2 * j.id + j.copy) + 1) ∧
     (j.words + 1024 < recordWords j.data.length → ∃ t, exec .nvmWriteStep s = .next t ∧
       t.nvm.jobs = { j with words := j.words + 1024 } :: js ∧ (copyOf t j.id j.copy).crcOk = false ∧
       (tget 0 w.rk.reg 0 = 0 → (leaseNow w 0).wait = [] → (leaseNow t 0).holder = 0) ∧
       t = { w with nvm := t.nvm, ls := t.ls, rk := t.rk }))) ∧
  (∀ (s : State) (id w sq : Nat) (data : List Byte), w ≤ 1 → 24 + data.length ≤ slotSize id → id ≠ 0 → sq < 2 ^ 32 →
     (copyState id (copyOf s id (1 - w)) = 1 → (copyOf s id (1 - w)).seq < 2 ^ 32 ∧ seqHigher sq (copyOf s id (1 - w)).seq = true) →
     recordData (setCopy id w { id := id, version := 1, seq := sq, length := data.length, data := data, chkSeq := sq, crcOk := true } s) id
       = some data)

/-- `log.read` (R381, R382): valid log entries by sequence, with the errors that the words read hold counted (R367), or statistics records, which
a read with clear zeroes. -/
def Obligations.LogReadAnswers : Prop :=
  ∀ (ring : Nat) (dma : List Byte) (s : State) (h : Hdr) (p : List Byte), Delivered 0x0D03 ring dma s h p → p.length = 8 →
    slice p 2 2 = zeros 2 →
    (∀ w, u p 0 1 = 1 → u p 1 1 = 0 → u p 6 2 ≤ 255 → accessDomain 2 (consumed ring h s) = some w →
      let v := (List.range (u p 6 2)).foldl (fun t k => readMram 0 0 (logWord (u p 4 2 + k)) 8 t) w
      exec (.logRead ring dma) s = .next (answered (askerOf ring h s)
        (leBytes 1 1 ++ [0] ++ leBytes 2 (logCount w) ++ leBytes 2 (u p 4 2) ++
          leBytes 2 (logEntries w (u p 4 2) (u p 6 2)).length ++ (logEntries w (u p 4 2) (u p 6 2)).flatten) v)) ∧
    (∀ r, u p 0 1 = 0x12 → u p 1 1 = 1 → u p 4 2 = r → r < 64 → u p 6 2 = 1 → ∃ t,
      exec (.logRead ring dma) s = .next (answered (askerOf ring h s)
        (leBytes 1 0x12 ++ [0] ++ leBytes 2 64 ++ leBytes 2 r ++ leBytes 2 1 ++ statBytes 0x12 r (consumed ring h s)) t) ∧
      (∀ w < 8, statGet 0x12 r w t = statGet 0x12 r w State.reset) ∧ t = { consumed ring h s with stat := t.stat })

/-! ### Thermal -/

/-- `thermal.configure`, `thermal.read`, the demand rows and THERMAL_RESULT (R358, R359, R364, R365): a scheduled demand comes when the period of
Table 15-2 that the last one's mode gave has passed, and demands the mode's sensors. A thermal result (R357) is converted by the factory trim, or
nominally without one: outside −60 °C to 175 °C it is stored with VALID 0 and counted as a sensor fault; else it is stored with VALID 1, and
without a scheduled demand no threshold acts. -/
def Obligations.ThermalRows : Prop :=
  ((∀ (ring : Nat) (dma : List Byte) (s : State) (h : Hdr), Delivered 0x0E01 ring dma s h [] →
     exec (.thermalConfigure ring dma) s = .next (answered (askerOf ring h s) s.th.cfg (consumed ring h s))) ∧
   (∀ (ring : Nat) (dma : List Byte) (s : State) (h : Hdr) (p : List Byte), Delivered 0x0E01 ring dma s h p → p.length = 64 →
     firstBad (thermalChecks p) = none → ∃ x, exec (.thermalConfigure ring dma) s = .next (answered (askerOf ring h s) p
       { consumed ring h s with th := { s.th with cfg := p, sensor := x } })) ∧
   (∀ (ring : Nat) (dma : List Byte) (s : State) (h : Hdr) (rd : List (Nat × Reading)), Delivered 0x0E02 ring dma s h [] →
     (∀ n < 32, measurable s n = true → ∃ e ∈ rd, e.1 = n) →
     ∃ w, exec (.thermalRead ring dma rd) s = .next (answered (askerOf ring h s) (thermalReport w) w)) ∧
   (∀ s : State, let w := advanceSince s.th.demandAt (usTicks s.th.period) s
     exec .thermalScheduledDemand s = .next ((scheduledSensors s.pwr.mode).foldl (demandSensor (arming s))
       { w with th := { s.th with demandAt := w.tm.raw, period := thermalPeriod s } })) ∧
   (∀ s : State, (s.pwr.mode = .reset → thermalPeriod s = 1000) ∧ (s.pwr.mode = .deepSleep ∨ s.pwr.mode = .thermalLatch → thermalPeriod s = 10000) ∧
     (s.pwr.mode = .boot ∨ s.pwr.mode = .calibrate ∨ s.pwr.mode = .selfTest ∨ recovering s = true → thermalPeriod s = 50) ∧
     (s.pwr.mode = .bringUp ∨ s.pwr.mode = .standby ∨ s.pwr.mode = .listen ∨ isOperate s.pwr.mode = true ∨
       (s.pwr.mode = .safeHold ∧ recovering s = false) → thermalPeriod s = 100)) ∧
   (∀ (s : State) (v : Word), exec (.thDemand v) s = .next (((List.range 32).filter fun n => v.toNat.testBit n).foldl (demandSensor 0) s)) ∧
   (∀ (s : State) (n arm : Nat), measurable s n = true → (sensorOf s n).counting = none →
     sensorOf (demandSensor arm s n) n = { sensorOf s n with counting := some (s.tm.raw, arm) }) ∧
   (∀ (s : State) (n : Nat) (m : Reading) (r a : Nat), (sensorOf s n).counting = some (r, a) →
     exec (.thermalResult n m) s = .next (judge n m (advanceSince r (usTicks 12) s)))) ∧
  (∀ (s : State) (n : Nat) (m : Reading) (r : Nat), (sensorOf s n).counting = some (r, 0) →
     let v := if (recordData s 0x0102).isSome then m.trimmed else m.nominal
     (v < -240 ∨ 700 < v → ∃ t, exec (.thermalResult n m) s = .next t ∧ (sensorOf t n).temp = v ∧ (sensorOf t n).valid = false ∧
       (sensorOf t n).counting = none ∧ t.th.faults = Nat.min 0xFFFFFFFF (s.th.faults + 1) ∧ t.ev.status.getLsbD 176 = true ∧
       (∀ m, m ≠ n → sensorOf t m = sensorOf s m)) ∧
     (-240 ≤ v → v < 500 → ∃ t, exec (.thermalResult n m) s = .next t ∧
       sensorOf t n = { sensorOf s n with temp := v, valid := true, counting := none, hot := 0 } ∧
       (∀ m, m ≠ n → sensorOf t m = sensorOf s m) ∧ t.th.latch = s.th.latch ∧ t.pwr = s.pwr ∧
       t = { s with th := t.th, tm := t.tm, clk := { s.clk with refTrim := t.clk.refTrim } }))

/-! ### Power, modes, regulators and wake -/

/-- `pwr.request`, `pwr.status` and `pwr.refusals` (R351 to R353): a request with no target does its actions; one that every
check of Table 14-4 passes starts its transition; SAFE-HOLD is entered at once; a refused one leaves a record and REFUSED with
its reason.
That the entry is in flight until MODE_ENTERED is deduced (log 31). -/
def Obligations.PowerMessages : Prop :=
  ∀ (ring : Nat) (dma : List Byte) (s : State) (h : Hdr) (p : List Byte),
    let a := askerOf ring h s
    let w := pwrActions (u p 1 1) (consumed ring h s)
    (Delivered 0x0601 ring dma s h p → p.length = 48 → firstBad (pwrChecks p) = none →
      (u p 0 1 = 255 → exec (.pwrRequest ring dma) s = .next (answered a (pwrDone 5 w).payload w)) ∧
      (u p 0 1 ≤ 7 → w.pwr.trans = none → modeOf (u p 0 1) ≠ w.pwr.mode → refusalOf (modeOf (u p 0 1)) w = none →
        let v := startTrans (modeOf (u p 0 1)) 1 0 (pwrParse p) w
        exec (.pwrRequest ring dma) s = .next (answered a (pwrDone 1 v).payload v)) ∧
      (u p 0 1 = 10 → w.pwr.mode ≠ .thermalLatch → w.pwr.mode ≠ .safeHold → protecting w = false →
        exec (.pwrRequest ring dma) s = .next (answered a (pwrDone 1 (protect 2 0 w)).payload (protect 2 0 w))) ∧
      (∀ n nm, u p 0 1 ≤ 7 → w.pwr.trans = none → modeOf (u p 0 1) ≠ w.pwr.mode → refusalOf (modeOf (u p 0 1)) w = some (n, nm) →
        exec (.pwrRequest ring dma) s = .next (answeredWith a 0x16 n (leBytes 2 w.pwr.refTotal ++ [0, 0])
          (recordRefusal (u p 0 1) n nm w)))) ∧
    (Delivered 0x0602 ring dma s h p → p = [] → ∃ b, exec (.pwrStatus ring dma) s = .next (answered a b (consumed ring h s)) ∧
      b.length = 40 ∧ b.take 1 = leBytes 1 (modeCode s.pwr.mode) ∧ slice b 8 8 = leBytes 4 s.pwr.on.toNat ++ leBytes 4 s.pwr.ready.toNat) ∧
    (Delivered 0x0603 ring dma s h p → ∀ c, (c = 0 ∨ c = 1) → p = [BitVec.ofNat 8 c, 0, 0, 0] →
      exec (.pwrRefusals ring dma) s = .next (answered a
        (((List.range 12).flatMap fun m => leBytes 4 (tget 0 s.pwr.refCount m)) ++ leBytes 4 (s.pwr.refIndex + 65536 * s.pwr.refTotal) ++
          (List.range 32).flatMap (refBytes s))
        (if c = 1 then { consumed ring h s with pwr := { s.pwr with refCount := [] } } else consumed ring h s)))

/-- Pads (R61, R349, R354): the message and the keyed register release the groups whose owning domain is powered, and note the
others refused; nothing else changes but the levels noted of the pins that are free again. -/
def Obligations.PadRelease : Prop :=
  (∀ (ring : Nat) (dma : List Byte) (s : State) (h : Hdr) (p : List Byte), Delivered 0x0604 ring dma s h p → p.length = 4 →
    u p 0 2 < 4096 → slice p 2 2 = zeros 2 →
    let w := notePins (releasePads (BitVec.ofNat 12 (u p 0 2)) (consumed ring h s))
    exec (.padRelease (.message ring dma)) s = .next (answered (askerOf ring h s) (leBytes 2 w.em.held.toNat ++ leBytes 2 w.em.refused.toNat) w)) ∧
  (∀ (s : State) (v : Word), v.toNat / 65536 = 0xA5C3 →
    exec (.padRelease (.register v)) s = .next (notePins (releasePads (BitVec.ofNat 12 (v.toNat % 4096)) s))) ∧
  (∀ (s : State) (v : Word), v.toNat / 65536 ≠ 0xA5C3 → ∃ t, exec (.padRelease (.register v)) s = .next t ∧ t.em.badKey = true ∧
    t.em.badKeyCount = Nat.min 0xFFFF (s.em.badKeyCount + 1) ∧ t.em.held = s.em.held ∧ t.ev.status.getLsbD 6 = true) ∧
  (∀ s : State, notePins s = { s with rf := { s.rf with level := (notePins s).rf.level, rise := (notePins s).rf.rise } } ∧
    ∀ n < 32, tget false (notePins s).rf.level n = pinLevel s n) ∧
  (∀ (s : State) (g : BitVec 12), releasePads g s = { s with em := (releasePads g s).em } ∧
    ∀ k < 12, (releasePads g s).em.held.getLsbD k = (s.em.held.getLsbD k && !(g.getLsbD k && s.pwr.on.getLsbD (padOwner k))) ∧
      (releasePads g s).em.refused.getLsbD k = (s.em.refused.getLsbD k || (g.getLsbD k && !s.pwr.on.getLsbD (padOwner k))))

/-- MODE_ENTERED (R337): the target becomes the mode and the transition is over. Entering a mode always makes it the mode.
SERVICE_START and SERVICE_END (R342): at S playout and export begin with class 0 and no UL symbol from before S, and the attenuation
is the one wanted (R258, R427); at E playout stops and the exports that remain end by E.
That a due row lets time reach its instant is the model's choice (log 6). -/
def Obligations.ModesEnteredAndServed : Prop :=
  ((∀ (t : Mode) (c src d : Nat) (s : State), (enterMode t c src d s).pwr.mode = t ∧ (enterMode t c src d s).pwr.trans = none ∧
     (enterMode t c src d s).pwr.since = s.tm.raw ∧ (enterMode t c src d s).ev.status.getLsbD 164 = true) ∧
   ∀ (s : State) (t : Trans), s.pwr.trans = some t → arrived s t = true → ∃ w, exec .modeEntered s = .next w ∧ w.pwr.mode = t.target) ∧
  (∀ s : State,
     (∀ b t, s.pwr.service = some (b, t) → isService s.pwr.mode = true → s.pwr.endAt = none → s.pwr.serving = false → ∃ w,
       exec .serviceStart s = .next w ∧ w.pwr.serving = true ∧ w.dl.cls = 0 ∧ w.ul.notBefore = t ∧ w.ul.notAfter = none ∧
       w.rf.backoff = decide (s.pwr.mode = .bringUp) ∧ w.pwr.mode = s.pwr.mode ∧
       (∀ p < 64, tget 40 w.rf.atten p = wantedAtten w p) ∧
       w = { s with pwr := w.pwr, dl := { s.dl with cls := 0, clsAir := t, clsFrom := t }, ul := w.ul, rf := w.rf, tm := w.tm }) ∧
     (∀ e, s.pwr.endAt = some e → ∃ w, exec .serviceEnd s = .next w ∧ w.pwr.serving = false ∧ w.pwr.endAt = none ∧ w.pwr.service = none ∧
       w.dl.released = [] ∧ w.dl.playing = [] ∧ w.ul.notAfter = some e ∧ w = { s with
         pwr := w.pwr, dl := w.dl, ul := w.ul, tm := w.tm, lin := { s.lin with caps := w.lin.caps }, rk := w.rk, out := w.out,
         stat := w.stat, ev := w.ev, ph := w.ph }))

/-- Protective entries (R343, R362): from every mode but RESET, THERMAL-LATCH and SAFE-HOLD a protection fault starts the entry
into SAFE-HOLD with its cause, and a latch decided while none is set starts the entry into THERMAL-LATCH; no request or
armed commit is left, service has ended, the configuration stays, and MODE_ENTERED ends the entry in its mode.
That the effects come at the decision is deduced (log 31). -/
def Obligations.ProtectionFaultHolds : Prop :=
  (∀ (cause reg : Nat) (s : State), s.pwr.mode ≠ .reset → s.pwr.mode ≠ .thermalLatch → s.pwr.mode ≠ .safeHold → protecting s = false →
    let t := protect cause reg s
    (∃ tr, t.pwr.trans = some tr ∧ tr.target = .safeHold ∧ tr.origin = s.pwr.mode ∧ tr.cause = 3) ∧ t.pwr.mode = s.pwr.mode ∧
    t.pwr.cause = cause ∧ t.pwr.queued = none ∧ t.pwr.further = 0 ∧ t.cfg.armed = none ∧
    (isService s.pwr.mode = true → t.pwr.serving = false ∧ t.dl.released = []) ∧ t.ev.status.getLsbD 163 = true ∧
    t.cfg.epoch = s.cfg.epoch ∧ t.cfg.live = s.cfg.live ∧
    ∃ w, exec .modeEntered t = .next w ∧ w.pwr.mode = .safeHold ∧ w.pwr.trans = none ∧ w.pwr.cause = cause) ∧
  (∀ (n : Nat) (v : Int) (s : State), s.th.latch = false →
    let t := thermalLatch n v s
    (∃ tr, t.pwr.trans = some tr ∧ tr.target = .thermalLatch ∧ tr.origin = s.pwr.mode ∧ tr.cause = 3) ∧ t.pwr.mode = s.pwr.mode ∧
    t.th.latch = true ∧ t.pwr.queued = none ∧ t.cfg.armed = none ∧ (isService s.pwr.mode = true → t.pwr.serving = false) ∧
    t.ev.status.getLsbD 179 = true ∧ ∃ w, exec .modeEntered t = .next w ∧ w.pwr.mode = .thermalLatch)

/-- Regulators (R344, R345, R422): PG[0] good in RESET enters BOOT, or THERMAL-LATCH where the latch is set; elsewhere the
power-good is noted. A timeout in RESET lowers the enables with reason 9; elsewhere the regulator's domains are held off. A lost
power-good that feeds a domain powered or On in the mode starts the entry into SAFE-HOLD with cause 8, and its domains go off.
Which domains count is deduced (log 46). -/
def Obligations.RegulatorRows : Prop :=
  ∀ (s : State) (k : Nat), k < 8 → s.pwr.en.getLsbD k = true →
    (s.pwr.pg.getLsbD k = false → s.boot.inReset = false → s.pwr.mode = .reset → k = 0 → ∃ t, exec (.pgGood k) s = .next t ∧
      t.pwr.mode = (if s.th.latch then .thermalLatch else .boot)) ∧
    (s.pwr.pg.getLsbD k = false → s.boot.inReset = false → s.pwr.mode ≠ .reset → ∃ t, exec (.pgGood k) s = .next t ∧
      t.pwr.pg = s.pwr.pg ||| BitVec.twoPow 8 k ∧ t.pwr.mode = s.pwr.mode) ∧
    (s.pwr.pg.getLsbD k = false → s.pwr.mode = .reset → k = 0 → exec (.pgTimeout k) s =
      .next (recordRefusal 1 9 (pmicName 0) { s with pwr := { s.pwr with en := 0, since := s.tm.raw } })) ∧
    (s.pwr.pg.getLsbD k = false → s.pwr.mode ≠ .reset → s.pwr.trans = none → ∃ t, exec (.pgTimeout k) s = .next t ∧
      t.pwr.heldOff = s.pwr.heldOff ||| BitVec.ofNat 20 (regMask s k) ∧ t = { s with pwr := t.pwr }) ∧
    (s.pwr.pg.getLsbD k = true → s.pwr.mode ≠ .reset → BitVec.ofNat 20 (regMask s k) &&& (s.pwr.on ||| heldDomains s) = 0 →
      exec (.pgLoss k) s = .next { s with pwr := { s.pwr with pg := s.pwr.pg &&& ~~~BitVec.twoPow 8 k } }) ∧
    (s.pwr.pg.getLsbD k = true → isOperate s.pwr.mode = true → s.pwr.trans = none → BitVec.ofNat 20 (regMask s k) &&& (s.pwr.on ||| heldDomains s) ≠ 0 →
      ∃ t tr, exec (.pgLoss k) s = .next t ∧ t.pwr.trans = some tr ∧ tr.target = .safeHold ∧ t.pwr.cause = 8 ∧ t.pwr.causeReg = k ∧
        BitVec.ofNat 20 (regMask s k) &&& t.pwr.on = 0)

/-- Wakes (R346 to R348, R424): in LISTEN, with the source armed and no transition in flight, each source starts the transition to
STANDBY with its number, or to BRING-UP without RF where no oscillator can qualify; a comparator whose input passes its threshold trips and
disarms, and its return beyond the hysteresis re-arms it; the timer trips once. Domains on demand and quiescing (R336, R340):
an access to a domain that is off wakes it where the mode does so, at once where its regulators are good; else it stalls, a message staying to
be taken, while they are raised; one that cannot wake it fails with TIMEOUT and EV_WAKE_STALL_TIMEOUT, as one that has stalled too long does; an
idle domain switches off; a domain that does not quiesce refuses the transition, stays on, or is closed by force and counted.
That a wake on demand succeeds at once is the model's choice (log 15). -/
def Obligations.WakesAndDomains : Prop :=
  (∀ s : State, s.pwr.mode = .listen → s.pwr.trans = none →
     (s.clk.active ≠ 3 →
       (∀ w : SenseLevel, w.comparator < 4 → s.pwr.senseArmed.getLsbD w.comparator = true → s.pwr.armed.getLsbD w.comparator = true →
         senseBeyond s w.comparator w.level = true → ∃ t tr, exec (.wakeSenseTrip w) s = .next t ∧
         t.pwr.trans = some tr ∧ tr.target = .standby ∧ tr.cause = 2 ∧ tr.source = w.comparator + 1 ∧
         t.pwr.senseArmed.getLsbD w.comparator = false) ∧
       (∀ p x, p < 64 → s.pwr.wake.energyMask.testBit p = true → s.pwr.wake.energy < x → s.pwr.ready.getLsbD (16 + p / 16) = true →
         s.pwr.armed.getLsbD 4 = true → ∃ t tr, exec (.rxEnergyWake p x) s = .next t ∧ t.pwr.trans = some tr ∧ tr.target = .standby ∧
         tr.source = 5) ∧
       (s.pwr.armed.getLsbD 5 = true → ∃ t tr, exec .wakeTimer s = .next t ∧ t.pwr.trans = some tr ∧ tr.target = .standby ∧ tr.source = 6 ∧
         t.pwr.armed.getLsbD 5 = false) ∧
       (s.pwr.armed.getLsbD 7 = true → ∃ t tr, exec .pcieWake s = .next t ∧ t.pwr.trans = some tr ∧ tr.target = .standby ∧ tr.source = 8) ∧
       (∀ r, s.pwr.retry = some r → ∃ t tr, exec .wakeRetry s = .next t ∧ t.pwr.trans = some tr ∧ tr.target = .standby ∧
         tr.source = s.pwr.lastSource ∧ t.pwr.retrying = true ∧ t.pwr.retry = none)) ∧
     (s.clk.active = 3 → oscOf s 0 ≠ 1 → oscOf s 1 ≠ 1 → liveFails23 s = false → s.pwr.armed.getLsbD 7 = true →
       ∃ t tr, exec .pcieWake s = .next t ∧ t.pwr.trans = some tr ∧ tr.target = .bringUp ∧ tr.source = 8) ∧
     (∀ w : SenseLevel, w.comparator < 4 →
       (senseArms s w.comparator w.level = true → exec (.wakeSenseRearm w) s = .next { s with pwr := { s.pwr with
         sense := tset 0 s.pwr.sense w.comparator w.level, senseArmed := s.pwr.senseArmed ||| BitVec.twoPow 4 w.comparator } }) ∧
       (senseArms s w.comparator w.level = false → exec (.wakeSenseRearm w) s = .next (senseInput w s)))) ∧
  (∀ (s : State) (d : Nat), d < 20 →
     (s.pwr.ready.getLsbD d = false → wakes d s = true → fed s d = true → s.test.run = none → ∃ x,
       exec (.domainReady d) s = .next { s with em := { s.em with powered := x }, pwr := { s.pwr with
         on := s.pwr.on ||| BitVec.twoPow 20 d, ready := s.pwr.ready ||| BitVec.twoPow 20 d,
         demand := tset 0 s.pwr.demand d (s.tm.raw + 1) } }) ∧
     (s.pwr.ready.getLsbD d = false → ∀ o dma, ∃ t, exec (.wakeStallTimeout d ⟨1, o, dma⟩) s = .next { t with out := t.out ++ [.pcie none] } ∧
       t = failAccess d 1 o s ∧ t.ev.status.getLsbD 162 = true) ∧
     (tget 0 s.pwr.demand d ≠ 0 → (heldDomains s ||| testDomains s).getLsbD d = false → leasedIn s d = false → ∃ t,
       exec (.domainIdleOff d) s = .next t ∧ t.pwr.on.getLsbD d = false ∧ t.pwr.ready.getLsbD d = false ∧ tget 0 t.pwr.demand d = 0 ∧
       t.pwr.mode = s.pwr.mode) ∧
     (∀ tr, s.pwr.trans = some tr → s.pwr.on.getLsbD d = true → (modeDomains s tr.target).getLsbD d = false → s.pwr.endAt = none →
       (tr.cause ≠ 3 → exec (.quiesceTimeout d) s = .next (refuseTrans 8 (domainName d) s)) ∧
       (tr.cause = 3 → ∃ t, exec (.quiesceTimeout d) s = .next t ∧ t.pwr.aborted = (s.pwr.aborted + 1) % 2 ^ 32 ∧
         t.pwr.trans = s.pwr.trans ∧ t.pwr.on = s.pwr.on)) ∧
     (s.pwr.trans = none → tget 0 s.pwr.demand d ≠ 0 → exec (.quiesceTimeout d) s =
       .next { s with pwr := { s.pwr with demand := tset 0 s.pwr.demand d (s.tm.raw + 1) } })) ∧
  (∀ (ring : Nat) (dma : List Byte) (s : State) (h : Hdr), Delivered 0x0A03 ring dma s h [] →
     let w := consumed ring h s
     accessDomain 2 w = none →
     (wakes 2 w = true → ∃ x y, exec (.nvmStatus ring dma) s =
       .next { s with pwr := { s.pwr with en := x, demand := tset 0 s.pwr.demand 2 y } }) ∧
     (wakes 2 w = false → exec (.nvmStatus ring dma) s =
       .next (answeredWith (askerOf ring h s) 0x17 2 [] (failAccess 2 3 h.opcode w))))

/-! ### Bias -/

/-- `bias.set` and `bias.span` (R291, R292): checked requests take effect on the named channels and answer the 80 channel
records. `bias.release` (R288): where every check passes, the parked and clearing channels named begin their release, PARKED
ends, and the answer waits for them; its checks convert VDD_HV and VSS_HV on HK-ADC [0] as urgent requests, which takes time. -/
def Obligations.BiasMessages : Prop :=
  (∀ (ring : Nat) (dma : List Byte) (s w : State) (h : Hdr) (p : List Byte), accessDomain 10 (consumed ring h s) = some w →
     p.length = 8 + 8 * u p 0 4 →
     (Delivered 0x0801 ring dma s h p → firstBad ((0, decide (1 ≤ u p 0 4) && decide (u p 0 4 ≤ 80)) :: isZero p 4 4 :: biasChecks true p (u p 0 4)) = none →
       (∀ r < u p 0 4, (chanOf s (u p (8 + 8 * r) 1)).state ≠ 4) →
       exec (.biasSet ring dma) s = .next (answered (askerOf ring h s) (chanRecords (biasSetAll p (u p 0 4) w)) (biasSetAll p (u p 0 4) w)) ∧
       (∀ c, (∀ r < u p 0 4, u p (8 + 8 * r) 1 ≠ c) → chanOf (biasSetAll p (u p 0 4) w) c = chanOf w c) ∧
       (∀ r < u p 0 4, chanOf (biasSetAll p (u p 0 4) w) (u p (8 + 8 * r) 1) =
         { chanOf w (u p (8 + 8 * r) 1) with target := u p (8 + 8 * r + 2) 2, slew := u p (8 + 8 * r + 4) 2 })) ∧
     (Delivered 0x0802 ring dma s h p → u p 0 4 = 1 → slice p 4 4 = zeros 4 → u p 8 1 ≤ 79 → u p 9 1 ≤ 3 → u p 10 2 ≤ 16383 → slice p 12 4 = zeros 4 →
       (chanOf s (u p 8 1)).state ≠ 4 →
       let v := setChan (u p 8 1) (spanChan (chanOf w (u p 8 1)) (u p 9 1) (u p 10 2)) w
       exec (.biasSpan ring dma) s = .next (answered (askerOf ring h s) (chanRecords v) v))) ∧
  (∀ (ring : Nat) (dma : List Byte) (s w : State) (h : Hdr) (p : List Byte) (hvP hvN : Nat), Delivered 0x0803 ring dma s h p →
     p.length = 16 → slice p 10 6 = zeros 6 → releaseMode s.pwr.mode = true → accessDomain 10 (consumed ring h s) = some w →
     w.bias.valid = true → 10240 ≤ hvP → hvN ≤ 3072 → w.em.held = 0 → w.bias.paClearLow = false →
     let cs := (List.range 80).filter fun c => (u p 0 10).testBit c && (decide ((chanOf w c).state = 0) || decide ((chanOf w c).state = 5))
     cs ≠ [] → ∃ v, exec (.biasRelease ring dma hvP hvN) s = .next (deferredTo (askerOf ring h s) v) ∧ v.em.parked = false ∧
       (∀ c ∈ cs, chanOf v c = startRelease (chanOf w c)) ∧ (∀ c, c ∉ cs → chanOf v c = chanOf w c) ∧
       v.bias.release = w.bias.release ++ [(askerOf ring h s, cs)] ∧
       v = { urgentRun 0 [(112, 0, 1), (113, 0, 1)] w with em := v.em, bias := v.bias, rf := v.rf } ∧
       urgentRun 0 [(112, 0, 1), (113, 0, 1)] w = { w with hk := v.hk, tm := v.tm, stat := v.stat })

/-- Clears and updates of the bias channels (R286 to R291): PA_CLEAR_N clears every channel of the mask at once and no other;
its rise releases nothing; an update is one of every channel; parking closes the switch. A clear (R289): a channel's target,
position and pin take the clear code of its span, from every state, whatever it was doing; before the power of the domain goes
every channel is parked. A parked channel's pin is on the rail that its strap selects, a driven one's on its driver (R283, R284). -/
def Obligations.BiasClearsAndUpdates : Prop :=
  (∀ s : State,
     (s.bias.paClearLow = false → ∃ t, exec .paClearN s = .next t ∧ t.bias.paClearLow = true ∧
       (∀ c < 80, chanOf t c = if clearMask s c then clearChan (chanOf s c) else chanOf s c) ∧ t.pwr = s.pwr ∧ t.em = s.em ∧
       t.ev.status.getLsbD 131 = true) ∧
     exec .paClearNRelease s = .next (notePins { s with bias := { s.bias with paClearLow := false } }) ∧
     (s.pwr.ready.getLsbD 10 = true → exec .biasSlewUpdate s =
       .next (settleReleases (notePins (refreshForced (updateChans s (s.bias.chan.map fun e => e.1)))))) ∧
     (∀ c, (chanOf s c).state = 5 → (chanOf s c).releaseAfter = false →
       exec (.biasParked c) s = .next (setChan c { chanOf s c with state := 0 } s)) ∧
     (∀ c, (chanOf s c).state = 5 → (chanOf s c).releaseAfter = true →
       exec (.biasParked c) s = .next (setChan c { chanOf s c with state := 1, timer := 201, releaseAfter := false } s))) ∧
  (∀ ch : Chan, (clearChan ch).target = clearCode ch ch.span ∧ (clearChan ch).pos = clearCode ch ch.span * 65536 ∧
     (clearChan ch).pin = clearCode ch ch.span ∧ ((clearChan ch).state = 0 ∨ (clearChan ch).state = 5) ∧
     ((clearChan ch).state = 5 ↔ ¬(ch.state = 0 ∨ ch.state = 1 ∨ (ch.state = 4 ∧ 3 ≤ ch.phase))) ∧
     (clearChan ch).span = ch.span ∧ (clearChan ch).clear = ch.clear ∧ (clearChan ch).mask = ch.mask ∧ (clearChan ch).releaseAfter = false) ∧
  (∀ (s : State) (c : Nat), c < 80 →
     (chanOf (clearBias 6 0 s) c).state = 0 ∧
     ((chanOf s c).state ≠ 0 → (chanOf (clearBias 6 0 s) c).pos = clearCode (chanOf s c) (chanOf s c).span * 65536) ∧
     (s.em.held.getLsbD (8 + chanTile c) = false →
       ((chanOf s c).state = 0 → biasPin s c = (some (parksOnB s c), none)) ∧
       ((chanOf s c).state = 2 ∨ (chanOf s c).state = 3 → biasPin s c = (none, some ((chanOf s c).span, (chanOf s c).pin)))))

/-- The slew limiter (R286): an update moves the position toward the target by at most one step, never past it, and reaches it
when it is nearer than a step. -/
def Obligations.SlewNeverPassesTarget : Prop :=
  ∀ (ch : Chan) (target : Nat),
    let c := slewChan ch target
    let step := slewStep ch.span ch.slew
    (ch.pos ≤ target * 65536 → ch.pos ≤ c.pos ∧ c.pos ≤ target * 65536 ∧ c.pos ≤ ch.pos + step) ∧
    (target * 65536 ≤ ch.pos → target * 65536 ≤ c.pos ∧ c.pos ≤ ch.pos ∧ ch.pos ≤ c.pos + step) ∧
    (target * 65536 ≤ ch.pos + step → ch.pos ≤ target * 65536 + step → c.pos = target * 65536) ∧
    c.target = ch.target ∧ c.span = ch.span ∧ c.state = ch.state

/-! ### Housekeeping -/

/-- `hk.configure`, `hk.window` and `hk.read` (R295, R300 to R302); a lease revoked in the middle of `hk.configure` leaves the
configuration as it was. Slots (R296 to R301): a trigger, judged by the levels of the pins and their
own rises, starts a slot's delay or counts an overrun; after the delay the slot joins
its converter's queue, which stays in order of instant and slot; a conversion that completes a one-sample slot stores four times its
code as a valid result; the result of a conversion that a new configuration left running is discarded; an idle converter powers
down. A confirmed overcurrent (R303): at or above the path's limit the path's channel is cleared, the path is noted and EV_PA_OC
raised; below it only the unconfirmed trip is counted.
The instants that the rows bring time to are the model's choice (log 103). -/
def Obligations.Housekeeping : Prop :=
  (∀ (ring : Nat) (dma : List Byte) (s w : State) (h : Hdr) (p : List Byte) (code : Nat), accessDomain 10 (consumed ring h s) = some w →
     (Delivered 0x0804 ring dma s h p → p.length = 1168 →
       firstBad ((isZero p 8 8 :: (List.range 64).flatMap (slotChecks p)) ++ (List.range 64).map fun n => inRange p (1040 + 2 * n) 2 1 16383) = none →
       exec (.hkConfigure ring ⟨dma, false⟩) s = .next (answered (askerOf ring h s) [] (hkApply p w)) ∧
       ((leaseOf w 11).free = none → ∃ v, exec (.hkConfigure ring ⟨dma, true⟩) s = .next (answeredWith (askerOf ring h s) 0x1A 0 [] v) ∧
         v.hk = { w.hk with conv := v.hk.conv } ∧ v.ev.status.getLsbD 208 = true)) ∧
     (Delivered 0x0805 ring dma s h p → p.length = 256 → firstBad ((List.range 32).flatMap (windowChecks p)) = none →
       ∃ v, exec (.hkWindow ring dma) s = .next (answered (askerOf ring h s) [] v) ∧
         (∀ n < 32, windowOf v n = ⟨decide (u p (8 * n) 1 = 1), u p (8 * n + 1) 1, u p (8 * n + 2) 2, u p (8 * n + 4) 2, true⟩) ∧
         v = { w with hk := { w.hk with window := v.hk.window } }) ∧
     (Delivered 0x0806 ring dma s h p → p = [1, 0, 0, 0, 0, 0, 0, 0] →
       exec (.hkRead ring dma code) s = .next (answered (askerOf ring h s) ((List.range 64).flatMap (slotRecord w)) w)) ∧
     (Delivered 0x0806 ring dma s h p → p.length = 8 → u p 0 1 = 2 → firstBad (hkReadChecks p) = none →
       exec (.hkRead ring dma code) s = .next (answered (askerOf ring h s) (urgent p code w).payload (urgent p code w).st))) ∧
  (∀ s : State, s.pwr.ready.getLsbD 10 = true →
     (∀ n < 64, let p := notePins s
       p = { s with rf := { s.rf with level := p.rf.level, rise := p.rf.rise } } ∧
       (triggerable p n = false → exec (.hkTrigger n) s = .next p) ∧
       (triggerable p n = true →
       let w := triggered n p
       (slotBusy w n = false → exec (.hkTrigger n) s = .next { w with hk := { w.hk with
         delayed := s.hk.delayed ++ [(n, nowU w + ((slotOf s n).delay * 10 * nsU : Nat))] } }) ∧
       (slotBusy w n = true → exec (.hkTrigger n) s = .next (statAdd 0x1C n 0 1 w)) ∧
       w = { p with tm := w.tm, hk := { s.hk with conv := w.hk.conv, pulse := w.hk.pulse } })) ∧
     (∀ n e, s.hk.delayed.find? (fun e => decide (e.1 = n)) = some e →
       let c := (slotOf s n).converter
       let w := settleConv c (advanceTo e.2 { s with hk := { s.hk with delayed := s.hk.delayed.erase e } })
       (slotBusy w n = true → exec (.hkSlotQueued n) s = .next (statAdd 0x1C n 0 1 w)) ∧
       (slotBusy w n = false → ∃ t, exec (.hkSlotQueued n) s = .next t ∧
         (convOf t c).queue = enqueueSlot (e.2, n) (convOf w c).queue ∧ (convOf t c).powered = true ∧
         t.hk.delayed = s.hk.delayed.erase e ∧ t = { w with hk := t.hk })) ∧
     (∀ c n code rck, c < 2 → (convOf s c).orphan = none → (convOf s c).running = some n → (convOf s c).sum = 0 →
       (convOf s c).taken = 0 → (convOf s c).spoiled = false → (convOf s c).invalidLeft = 0 → (slotOf s n).avg = 1 →
       n ∉ s.hk.fresh → (∀ k, (windowOf s k).enable = false) → s.hk.ocMask = 0 →
       let w := endConversion c s
       ∃ t, exec (.hkConversionComplete c code rck) s = .next t ∧
         resultOf t n = { value := 4 * (code % 16384), valid := true, count := ((resultOf s n).count + 1) % 2 ^ 32, time := nowU w } ∧
         (∀ m, m ≠ n → resultOf t m = resultOf s m) ∧ (convOf t c).running = none ∧
         (convOf t c).prev = some ((slotOf s n).channel, (slotOf s n).sub, (slotOf s n).gain) ∧
         t = { s with hk := t.hk, tm := w.tm }) ∧
     (∀ c o code rck, c < 2 → (convOf s c).orphan = some o → ∃ t, exec (.hkConversionComplete c code rck) s = .next t ∧
       (convOf t c).orphan = none ∧ t.hk.result = s.hk.result) ∧
     (∀ c, c < 2 → (convOf s c).powered = true → (convOf s c).running = none → (convOf s c).orphan = none → (convOf s c).queue = [] →
       exec (.hkPowerDown c) s =
         .next (setConv c { convOf s c with powered := false } (advanceTo ((convOf s c).since + (5 * usU : Nat)) s)))) ∧
  (∀ (e : Instant × Nat) (q : List (Instant × Nat)), (enqueueSlot e q).Perm (e :: q) ∧
     (q.Pairwise (fun a b => queueBefore b a = false) → (enqueueSlot e q).Pairwise (fun a b => queueBefore b a = false))) ∧
  (∀ (s : State) (c p gain code : Nat), p < 64 →
     (ocLimit s p gain ≤ code → (recheck c p gain code s).rf.ocPaths = s.rf.ocPaths ||| BitVec.twoPow 64 p ∧
       (recheck c p gain code s).ev.status.getLsbD 128 = true ∧ chanOf (recheck c p gain code s) p = clearChan (chanOf s p) ∧
       (∀ q, q ≠ p → chanOf (recheck c p gain code s) q = chanOf s q)) ∧
     (code < ocLimit s p gain →
       let w := advanceTo (nowU s + (250 * nsU : Nat)) s
       recheck c p gain code s = statAdd 0x1D p 1 1 (setConv c { convOf w c with since := nowU w } w)))

/-! ### The register window, SPI and PCIe -/

/-- Ring registers (R36, R40): a doorbell moves the producer count if it posts between the slots in use and 64, else
BAD_DOORBELL is set and nothing moves; a head write frees slots and posts what is held; ENABLE cleared zeroes the counts at
once, or when the message in execution has finished; ENABLE set lets the ring go on. The PCIe link (R35): down, it pauses; up,
each response ring posts what it holds. -/
def Obligations.RingRegistersAndPcieLink : Prop :=
  (∀ (s w : State) (n : Nat) (v : Word),
     let g := ringOf w n
     (n < 8 → HostReaches (0x1000 + 0x40 * n + 0x0C) s w → g.enable = true →
       (let used := (v.toNat + 2 ^ 32 - g.head) % 2 ^ 32
       (used ≤ 64 → ringUsed g ≤ used → exec (.phDoorbell n v) s = .next (wakeBy 7 (setRing n { g with tail := v.toNat } w))) ∧
       (64 < used ∨ used < ringUsed g → exec (.phDoorbell n v) s =
         .next (wakeBy 7 (raise 2 (det n 1 0 0 v.toNat) (setRing n { g with badDoorbell := true } w)))))) ∧
     (8 ≤ n → n < 16 → HostReaches (0x1000 + 0x40 * n + 0x10) s w → g.enable = true →
       (g.tail + 2 ^ 32 - v.toNat) % 2 ^ 32 ≤ ringUsed g →
       exec (.phHead n v) s = .next (wakeBy 7 (flushRing n (setRing n { g with head := v.toNat } w)))) ∧
     (n < 16 → HostReaches (0x1000 + 0x40 * n + 0x08) s w → g.enable = true →
       (g.busy = false → ∃ t, exec (.ringDisable n) s = .next (wakeBy 7 t) ∧
         ringOf t n = { g with enable := false, active := false, head := 0, tail := 0, expect := none }) ∧
       (g.busy = true → exec (.ringDisable n) s = .next (wakeBy 7 (setRing n { g with enable := false, active := true } w)))) ∧
     (g.active = true → g.busy = false → ∃ t, exec (.ringDisabled n) w = .next t ∧
       ringOf t n = { g with active := false, head := 0, tail := 0, expect := none } ∧ (∀ m, m ≠ n → ringOf t m = ringOf w m)) ∧
     (n < 16 → HostReaches (0x1000 + 0x40 * n + 0x08) s w → g.enable = false → g.held = [] → g.loc = (ringOf s n).loc → ∃ t,
       exec (.ringEnable n) s = .next (wakeBy 7 t) ∧ ringOf t n = { g with enable := true }) ∧
     (n < 16 → g.enable = true → g.loc = false → w.ph.pcieUp = true → g.busy = false → ∃ t,
       exec (.phDmaErr n (if n < 8 then 1 else 2) 1 0) w = .next t ∧ t.ev.status.getLsbD 3 = true)) ∧
  (∀ s : State, exec .pcieLinkDown s = .next { s with ph := { s.ph with pcieUp := false } } ∧
     exec .pcieLinkUp s = .next ((List.range 8).foldl (fun t k => flushRing (8 + k) t) { s with ph := { s.ph with pcieUp := true } }))

/-- Emergency writes and the latched time (R61, R62): with the key, the set bits act; with another, nothing but the count of bad
keys and EV_EMERG_BAD_KEY; TIME_CAPTURE latches corrected time and the raw counter of one tick. A mute (R152) silences the DAC of
every tile; MUTE_END ends the silence of a mute lifted by UNMUTE. -/
def Obligations.EmergencyAndTimeCapture : Prop :=
  (∀ s w : State, HostReaches 0x3000 s w →
     exec (.muteAll 0xA5C30001) s = .next (wakeBy 7 (Sys2Proof.Machine.muteAll w)) ∧
     exec (.parkAll 0xA5C30002) s = .next (wakeBy 7 (Sys2Proof.Machine.parkAll w)) ∧
     (w.pwr.mode ≠ .listen → w.pwr.mode ≠ .deepSleep → exec (.safeHoldReq 0xA5C30004) s = .next (wakeBy 7 (protect 1 0 w))) ∧
     (∀ v : Word, v.toNat / 65536 ≠ 0xA5C3 → ∃ t, exec (.muteAll v) s = .next (wakeBy 7 t) ∧ exec (.parkAll v) s = .next (wakeBy 7 t) ∧
       exec (.safeHoldReq v) s = .next (wakeBy 7 t) ∧ t.em = { w.em with badKey := true, badKeyCount := Nat.min 0xFFFF (w.em.badKeyCount + 1) } ∧
       t.ev.status.getLsbD 6 = true ∧ t.pwr = w.pwr ∧ t.bias = w.bias) ∧
     (HostReaches 0x5000 s w → exec (.timeCapture 1) s =
       .next (wakeBy 7 { w with tm := { w.tm with capValid := true, capC := nowC w, capRaw := w.tm.raw } }))) ∧
  (∀ s : State,
     (let t := Sys2Proof.Machine.muteAll s
     t.em = { s.em with muted := true, unmuteAt := none } ∧ (∀ q < 4, ∃ x ∈ t.dl.silence, x.isOpen true q = true) ∧
       (∀ x ∈ s.dl.silence, x ∈ t.dl.silence) ∧ t = { s with em := t.em, dl := { s.dl with silence := t.dl.silence } }) ∧
     ∀ t0 : Instant, s.em.unmuteAt = some t0 → ∃ t, exec .muteEnd s = .next t ∧ t.em.muted = false ∧ t.em.unmuteAt = none ∧
       (∀ q < 4, ∀ x ∈ t.dl.silence, x.isOpen true q = false) ∧
       t = { s with em := t.em, tm := t.tm, dl := { s.dl with silence := t.dl.silence } })

/-- Register writes (R32, R54, R55): EV_STATUS clears the bits written as 1 and no counter; an access of another width is
ignored and counted. Register reads (R32): an aligned 32-bit read gives the register, another is ignored and counted. BAR4 (R31): a write
stores a word of the MSI-X table, a read gives it, and from 0x1000 on the pending bits. Aperture W2
(R65): a PCIe read whose domains are reached returns the bytes of Table 2-19; the bytes of a word with a double-bit error read 0xFF
and EV_W2_ECC is raised.
What an ignored access leaves is deduced (log 68). -/
def Obligations.RegistersAndApertures : Prop :=
  (∀ (s w : State) (k v : Nat),
     (k < 8 → v < 2 ^ 32 → HostReaches (0x2000 + 4 * k) s w →
       exec (.registerWrite (0x2000 + 4 * k) 4 v) s = .next (wakeBy 7 (clearStatus (BitVec.ofNat 256 (v * 2 ^ (32 * k))) w))) ∧
     (∀ b : BitVec 256, (clearStatus b s).ev.status = s.ev.status &&& ~~~b ∧ (clearStatus b s).ev.count = s.ev.count) ∧
     (∀ o width, o < 0x10000 → HostReaches o s w → width ≠ 4 → width ≠ 8 →
       exec (.registerWrite o width v) s = .next (wakeBy 7 { w with ph := { w.ph with ignored := Nat.min 0xFFFF (w.ph.ignored + 1) } })) ∧
     (∀ o, o < 0x10000 → HostReaches o s w →
       (o % 4 = 0 → exec (.w0Read (.pcie o 4)) s =
         .next (wakeBy 7 { w with out := w.out ++ [.pcie (some (leBytes 4 (w0Read w o)))] })) ∧
       (∀ width, width ≠ 4 ∨ o % 4 ≠ 0 → ∃ b, exec (.w0Read (.pcie o width)) s = .next (wakeBy 7 { w with
         fresh := w.fresh + 1, ph := { w.ph with ignored := Nat.min 0xFFFF (w.ph.ignored + 1) },
         out := w.out ++ [.pcie (some b)] })))) ∧
  (∀ (s : State) (o v : Nat), o < 0x2000 → o % 4 = 0 → s.pwr.mode ≠ .reset → s.ph.pcieUp = true → s.pwr.ready.getLsbD 1 = true →
     (o < 512 → ∃ t : State, exec (.registerWrite (0x10000 + o) 4 v) s = .next (wakeBy 7 t) ∧ tget 0 t.ph.msix (o / 4) = v % 2 ^ 32 ∧
       (∀ k, k ≠ o / 4 → tget 0 t.ph.msix k = tget 0 s.ph.msix k)) ∧
     (512 ≤ o → exec (.registerWrite (0x10000 + o) 4 v) s = .next (wakeBy 7 s)) ∧
     exec (.w0Read (.pcie (0x10000 + o) 4)) s = .next (wakeBy 7 { s with out := s.out ++ [.pcie (some (leBytes 4
       (if o < 512 then tget 0 s.ph.msix (o / 4) else if o = 0x1000 then s.ph.pba.toNat else 0)))] })) ∧
  (∀ (s w : State) (a n : Nat), s.pwr.mode ≠ .reset → s.ph.pcieUp = true → stageNow s ≠ .scrapped → a + n ≤ 0x4000000 →
     reachAll s (w2Domains a n) = .inl w →
     (w.ls.bad = [] → (∀ k < n, w2Bad w (a + k) = false) → exec (.w2Read (.pcie a n)) s =
       .next (wakeBy 7 { w with out := w.out ++ [.pcie (some ((List.range n).map fun k => w2Byte w (a + k)))] })) ∧
     (∀ k < n, w2Bad w (a + k) = true → w2Byte w (a + k) = 0xFF ∧ ∃ t : State, exec (.w2Read (.pcie a n)) s =
       .next (wakeBy 7 { t with out := t.out ++ [.pcie (some ((List.range n).map fun j => w2Byte w (a + j)))] }) ∧
       t.ev.status.getLsbD 7 = true))

/-- SPI frames (R33): a frame that verifies is answered with status 0 and its data, a slot write stores the 512 bytes in a ring
of device memory; a frame whose CRC fails is answered with status 1, an unknown command with status 2, and neither has another effect.
The rest of a malformed frame is deduced (log 69). -/
def Obligations.SpiFrames : Prop :=
  ∀ (f : List Byte) (s w : State) (r : SpiReq),
    (SpiArrives 1 f s r → 4 ≤ r.len → r.len ≤ 256 → r.len % 4 = 0 → r.addr % 4 = 0 → r.addr + r.len ≤ 0x10000 → u f 0 1 = 1 →
      accessDomain (if touchesRings r.addr r.len then 1 else 0) s = some w →
      exec (.w0Read (.spi f)) s = .next (spiAnswer 0 ((List.range (r.len / 4)).flatMap fun k => leBytes 4 (w0Read w (r.addr + 4 * k))) w)) ∧
    (SpiArrives 2 f s r → r.len = 4 → r.addr % 4 = 0 → r.addr < 0x10000 → accessDomain (w0Domain r.addr) s = some w →
      exec (.w0Write f) s = .next (spiAnswer 0 [] (w0Write r.addr 4 (leNat r.data) w))) ∧
    (SpiArrives 3 f s r → r.addr < 512 → r.len = 512 → accessDomain 1 s = some w → (ringOf w (r.addr / 64)).loc = true →
      exec (.slotWrite f) s = .next (spiAnswer 0 [] (cleanWords 7 (64 * r.addr) 64
        { w with ph := { w.ph with slots := tsetList 0 w.ph.slots (r.addr * 512) r.data } }))) ∧
    (SpiArrives 4 f s r → 512 ≤ r.addr → r.addr < 1024 → r.len = 512 → accessDomain 1 s = some w → (ringOf w (r.addr / 64)).loc = true →
      exec (.slotRead f) s = .next (spiAnswer 0 (tgetList 0 w.ph.slots (r.addr * 512) 512) w)) ∧
    (∀ cmd, cmd = 2 ∨ cmd = 3 ∨ cmd = 4 → spiIs f cmd = true → spiServes cmd s = true → spiRequest f = some none →
      exec (if cmd = 2 then .w0Write f else if cmd = 3 then .slotWrite f else .slotRead f) s = .next (spiAnswer 1 [] s)) ∧
    (u f 0 1 = 0 ∨ 5 < u f 0 1 → f ≠ [] → spiServes (u f 0 1) s = true → spiRequest f = some (some r) →
      exec (.w0Read (.spi f)) s = .next (spiAnswer 2 [] s))

/-! ### RF and front end -/

/-- TDD_EVENT (R271): an event of the running pattern sets its target to the level that the pattern gives at its time; where its
control word fails parity three times (R16), it is not acted on and EV_BRIDGE_PARITY is raised. Synthesisers (R267 to R269): a
synthesiser that qualifies in time is qualified; a retune not qualified by B + 150 µs, whatever else is in flight, and a lost lock
are counted, raised and unlocked, and a lost LO-T in service silences its tile; not requalified 2 ms after the loss it starts the
entry into SAFE-HOLD with cause 5. RFFE_PROGRAM (R276, R278): the armed image's entries of a bus are issued in order, in time, each
write leaving the device, but for those whose control word was lost, and where the pads are held (R349); with its domain off, or too late, none is issued and each is
counted as skipped. In every case the program gives its lease up.
The model's choices here are logs 6, 59 and 96. -/
def Obligations.FrontEndRows : Prop :=
  (∀ (s : State) (k t target : Nat) (v l : Bool), (tddEvents s.cfg.live)[k]? = some (t, target, v) → s.rf.running = true →
     isService s.pwr.mode = true → isFdd s.cfg.live = false → levelAt (tddEvents s.cfg.live) target t = some l →
     (∀ fails < 3, ∃ w, exec (.tddEvent ⟨k, fails⟩) s = .next w ∧ w = { s with rf := w.rf, tm := w.tm } ∧
       (target < 32 → tget false w.rf.gpio target = l ∧ (∀ n, n ≠ target → tget false w.rf.gpio n = tget false s.rf.gpio n) ∧
         w.rf.txEnable = s.rf.txEnable ∧ w.rf.rxEnable = s.rf.rxEnable) ∧
       (target = 32 → w.rf.txEnable = l ∧ w.rf.gpio = s.rf.gpio ∧ w.rf.rxEnable = s.rf.rxEnable) ∧
       (target = 33 → w.rf.rxEnable = l ∧ w.rf.gpio = s.rf.gpio ∧ w.rf.txEnable = s.rf.txEnable)) ∧
     (∀ fails, 3 ≤ fails → ∃ w, exec (.tddEvent ⟨k, fails⟩) s = .next w ∧ w.ev.status.getLsbD 112 = true ∧
       w.rf = { s.rf with parity := w.rf.parity } ∧ w.pwr = s.pwr)) ∧
  (∀ (s : State) (k : Nat), k < 8 →
     ((loOf s k).state = 1 → loInTime s (loOf s k) = true → ∃ t, exec (.loQualified k) s = .next t ∧
       loOf t k = { loOf s k with state := 2, late := false, retune := false } ∧
       (∀ j, j ≠ k → (loOf s j).state ≠ 0 → loOf t j = loOf s j)) ∧
     ((loOf s k).state = 1 → s.pwr.trans = none ∨ (loOf s k).retune = true → ∃ t, exec (.loQualifyTimeout k) s = .next t ∧
       loOf t k = { loOf s k with state := 3, late := true, retune := false, expired := false, since := (loOf s k).since + usTicks 150 } ∧
       (∀ j, j ≠ k → loOf t j = loOf s j) ∧ t.ev.status.getLsbD 113 = true ∧ t.pwr = s.pwr) ∧
     ((loOf s k).state = 1 → (loOf s k).retune = false → (∃ tr, s.pwr.trans = some tr) →
       exec (.loQualifyTimeout k) s = .next (refuseTrans 11 (loName k) s)) ∧
     ((loOf s k).state = 2 → ∃ t, exec (.loUnlock k) s = .next t ∧ loOf t k = { loOf s k with state := 3, since := s.tm.raw, late := false, expired := false } ∧
       (∀ j, j ≠ k → loOf t j = loOf s j) ∧ t.ev.status.getLsbD 113 = true ∧
       (k % 2 = 0 → isService s.pwr.mode = true → ∃ x ∈ t.dl.silence, x.isOpen false (k / 2) = true)) ∧
     ((loOf s k).state = 3 → (loOf s k).expired = false → s.pwr.mode = .operateTdd → s.pwr.trans = none → ∃ t tr, exec (.loRelockTimeout k) s = .next t ∧
       t.pwr.trans = some tr ∧ tr.target = .safeHold ∧ t.pwr.cause = 5)) ∧
  (∀ (s : State) (im : Image) (b : Boundary) (bus : Nat) (run : RffeRun), s.cfg.armed = some (im, b) → bus ∈ s.rf.rffe →
     let s1 := rffeOver bus s
     let es := (rffeEntries im bus).filter fun e => !controlLost run.lost e.index
     (bus ∉ s1.rf.rffe ∧ ((leaseOf s (12 + bus)).wait = [] → (leaseOf s (12 + bus)).free = none → tget 0 s.rk.reg 0 = 0 → (leaseOf s1 (12 + bus)).holder = 0)) ∧
     (s.pwr.ready.getLsbD (12 + bus) = true → nowU s ≤ boundaryU b - 100 * (usU : Int) →
       run.reads.length = (es.filter fun e => e.verify).length →
       exec (.rffeProgram bus run) s = .next (rffeRun bus es run.reads (controlWords bus run.lost s1)) ∧
       (run.lost = [] → (∀ e ∈ rffeEntries im bus, e.verify = false) →
         (rffeRun bus es run.reads (controlWords bus run.lost s1)).out =
           if s.em.held.getLsbD (4 + bus) then s.out
           else s.out ++ (rffeEntries im bus).map fun e => Out.rffe bus e.usid e.command e.address e.data)) ∧
     (s.pwr.ready.getLsbD (12 + bus) = true → boundaryU b - 100 * (usU : Int) < nowU s →
       exec (.rffeProgram bus run) s = .next (rffeSkipAll bus 3 (rffeEntries im bus) s1)) ∧
     (s.pwr.ready.getLsbD (12 + bus) = false →
       exec (.rffeProgram bus run) s = .next (rffeSkipAll bus 5 (rffeEntries im bus) s1)))

/-! ### Clocks -/

/-- Loops (R306, R316): a lost loop is noted, counted and raised, CONV-PLL and SYS-PLL start the entry into SAFE-HOLD with cause 4, and
time is coarse without CONV-PLL; a loop that qualifies is qualified and time fine with CONV-PLL; a timeout refuses the
transition. Oscillators (R307 to R312): a counting oscillator qualifies, and in FRC-only operation becomes active; one that
times out is failed; a trip of the active oscillator switches to a qualified other; trips of both inside a microsecond are taken in
oscillator order and lead to FRC-only operation; failed ones start again; XTAL_A is reverted to. -/
def Obligations.LoopsAndOscillators : Prop :=
  (∀ s : State,
     (s.clk.plls.getLsbD 0 = true → ∃ t, exec (.pllUnlock 0) s = .next t ∧ t.clk.plls.getLsbD 0 = false ∧ t.clk.dpll = 3 ∧
       tget 0 t.clk.unlocks 0 = (tget 0 s.clk.unlocks 0 + 1) % 2 ^ 32 ∧ t.ev.status.getLsbD 148 = true ∧ t.pwr = s.pwr) ∧
     (∀ k, k = 1 ∨ k = 2 → s.clk.plls.getLsbD k = true → isOperate s.pwr.mode = true → s.pwr.trans = none →
       ∃ t tr, exec (.pllUnlock k) s = .next t ∧ t.pwr.trans = some tr ∧ tr.target = .safeHold ∧ t.pwr.cause = 4 ∧ t.clk.plls.getLsbD k = false ∧ (k = 1 → t.tm.fine = false)) ∧
     (pllsRun s = true → ∃ t, exec (.pllQualified 1) s = .next t ∧ t.clk.plls = s.clk.plls ||| 2 ∧ t.tm.fine = true ∧
       t = { s with clk := t.clk, tm := { s.tm with fine := true } }) ∧
     (pllsRun s = true → exec (.pllQualified 2) s = .next { s with clk := { s.clk with plls := s.clk.plls ||| 4 } }) ∧
     (∀ tr, s.clk.plls.getLsbD 1 = false → s.pwr.trans = some tr →
       exec (.pllQualifyTimeout 1) s = .next (refuseTrans 11 (name8 "CONV-PLL") s))) ∧
  (∀ s : State,
     (∀ k < 2, oscOf s k = 1 → s.clk.active = 3 → ∃ t, exec (.oscQualified k) s = .next t ∧ oscOf t k = 2 ∧ t.clk.active = k ∧
       t = { s with clk := t.clk }) ∧
     (∀ k < 2, oscOf s k = 1 → searchOn k s = none → s.clk.active = 1 - k → exec (.oscQualifyTimeout k) s = .next (setOsc k 3 s)) ∧
     (∀ k < 2, ∀ cause, cause = 1 ∨ cause = 2 → ∀ v, oscOf s k = 2 → oscOf s (1 - k) = 2 → s.clk.active = k →
       ∃ t, exec (.refMonitorTrip k cause ⟨v, none⟩) s = .next t ∧ oscOf t k = 3 ∧ t.clk.active = 1 - k ∧
         t.clk.switches = (s.clk.switches + 1) % 2 ^ 32 ∧ t.ev.status.getLsbD 144 = true ∧ t.ev.status.getLsbD 145 = true ∧ t.pwr = s.pwr) ∧
     (∀ k < 2, ∀ cause, cause = 1 ∨ cause = 2 → ∀ v, oscOf s k = 2 → oscOf s (1 - k) ≠ 1 → oscOf s (1 - k) ≠ 2 → s.clk.active = k →
       isOperate s.pwr.mode = true → s.pwr.trans = none → ∃ t tr, exec (.refMonitorTrip k cause ⟨v, none⟩) s = .next t ∧ t.clk.active = 3 ∧
         t.pwr.trans = some tr ∧ tr.target = .safeHold ∧ t.pwr.cause = 6 ∧ t.tm.fine = false) ∧
     (∀ k < 2, ∀ c d, (c = 1 ∨ c = 2) → (d = 1 ∨ d = 2) → ∀ v w, oscOf s 0 = 2 → oscOf s 1 = 2 → s.clk.active < 2 →
       isOperate s.pwr.mode = true → s.pwr.trans = none → ∃ t tr, exec (.refMonitorTrip k c ⟨v, some (d, w)⟩) s = .next t ∧
         oscOf t 0 = 3 ∧ oscOf t 1 = 3 ∧ t.clk.active = 3 ∧
         t.clk.switches = (if s.clk.active = 0 then (s.clk.switches + 1) % 2 ^ 32 else s.clk.switches) ∧
         t.pwr.trans = some tr ∧ tr.target = .safeHold ∧ t.pwr.cause = 6) ∧
     (oscOf s 0 = 3 → oscMode s 0 ≠ 0 → s.clk.active = 1 → oscOf s 1 = 2 → exec .oscRetry s = .next (setOsc 0 1 s)) ∧
     (s.clk.active = 1 → oscOf s 0 = 2 → u s.clk.sources 2 1 = 1 → ∃ t, exec .xtalARevert s = .next t ∧ t.clk.active = 0 ∧
       t.clk.switches = (s.clk.switches + 1) % 2 ^ 32 ∧ t.ev.status.getLsbD 145 = true) ∧
     (∀ k v, k < 2 → oscMode s k ≠ 0 → exec (.monitorWindowEnd k v) s = .next { s with clk := { s.clk with gross := tset 0 s.clk.gross k v } }) ∧
     (∀ v, oscOf s 0 = 2 → oscOf s 1 = 2 → exec (.monitorWindowEnd 2 v) s =
       .next { s with clk := { s.clk with comparison := some (v, s.tm.raw) } }))

/-- SyncE and compensation (R313, R315, R325): a SyncE input that fails sends the DPLL into holdover; after 10 s without a cause
it qualifies again and the DPLL pulls in; the crystal correction moves by at most 28,147 (its goal is a free value, log 7), and is 0
where it is not enabled or has no curve.
`clk.sources`, `clk.measure` and CLK_MEASURE_DONE (R326, R331): reads report; a start clears the last result; at the end of the
gate the ratio is edges × 2^32 over 2^gate, rounded half to even, where it fits; without a reference edge, or where it does not fit, the
state says so. -/
def Obligations.SyncEAndClockMessages : Prop :=
  (∀ s : State,
     (u s.clk.sources 3 1 = 1 → s.clk.ql ≠ 15 → s.clk.synceOk = true → ∃ t, exec .esmcTimeout s = .next t ∧ t.clk.ql = 15 ∧
       t.clk.synceOk = false ∧ t.clk.dpll = 3 ∧ t.ev.status.getLsbD 144 = true ∧ t.ev.status.getLsbD 146 = true) ∧
     (∀ v, u s.clk.sources 3 1 = 1 → s.clk.synceOk = true → ∃ t, exec (.synceMonitorTrip v) s = .next t ∧ t.clk.synceOk = false ∧
       t.clk.dpll = 3 ∧ t.clk.synceSince = s.tm.raw ∧ t.ev.status.getLsbD 144 = true) ∧
     (u s.clk.sources 3 1 = 1 → s.clk.synceOk = false → qlGood s s.clk.ql = true → portUp s (u s.clk.sources 16 1) = true →
       ∃ t, exec .synceRequalify s = .next t ∧ t.clk.synceOk = true ∧ t.clk.dpll = 1 ∧ t = { s with clk := t.clk, tm := t.tm }) ∧
     ((u s.clk.sources 19 1).testBit 0 = true → (s.clk.dpll = 0 ∨ s.clk.dpll = 3) → (recordData s 0x0103).isSome = true →
       ∃ t, exec .compensationUpdate s = .next t ∧ s.clk.comp - 28147 ≤ t.clk.comp ∧ t.clk.comp ≤ s.clk.comp + 28147 ∧
         t.clk.compCount = s.clk.compCount + 1 ∧ t = { s with clk := t.clk, fresh := s.fresh + 1 }) ∧
     ((u s.clk.sources 19 1).testBit 0 = false ∨ (recordData s 0x0103).isNone = true → ∃ t,
       exec .compensationUpdate s = .next t ∧ t.clk.comp = 0 ∧ t = { s with clk := { s.clk with comp := 0, word := t.clk.word } })) ∧
  ((∀ (ring : Nat) (dma : List Byte) (s : State) (h : Hdr), Delivered 0x0705 ring dma s h [] →
     exec (.clkSources ring dma) s = .next (answered (askerOf ring h s) (clkReport (consumed ring h s)) (consumed ring h s))) ∧
   (∀ (ring : Nat) (dma : List Byte) (s : State) (h : Hdr) (p : List Byte), Delivered 0x0705 ring dma s h p → p.length = 32 →
     firstBad (clkChecks p) = none → s.clk.active = 3 → ∃ v,
       exec (.clkSources ring dma) s = .next (answered (askerOf ring h s) (clkReport v) v) ∧ v.clk.sources = p ∧ v.pwr = s.pwr) ∧
   (∀ (ring : Nat) (dma : List Byte) (s : State) (h : Hdr) (p : List Byte), Delivered 0x0704 ring dma s h p → p.length = 8 →
     slice p 4 4 = zeros 4 →
     (u p 0 1 = 1 → u p 1 1 ≤ 31 → u p 2 1 ≤ 31 → u p 1 1 ≠ u p 2 1 → 10 ≤ u p 3 1 → u p 3 1 ≤ 30 → s.clk.mState ≠ 1 →
       let v := { consumed ring h s with clk := { s.clk with mState := 1, mTap := u p 1 1, mRef := u p 2 1, mGate := u p 3 1, mRatio := 0, mElapsed := 0 } }
       exec (.clkMeasure ring dma) s = .next (answered (askerOf ring h s) (measureReport v) v)) ∧
     (u p 0 1 = 2 → s.clk.mState ≠ 1 →
       exec (.clkMeasure ring dma) s = .next (answered (askerOf ring h s) (measureReport (consumed ring h s)) (consumed ring h s))) ∧
     (u p 0 1 = 2 → s.clk.mState = 1 → ∃ v, exec (.clkMeasure ring dma) s = .next (answered (askerOf ring h s) (measureReport v) v) ∧
       v.clk.mElapsed < 2 ^ s.clk.mGate ∧
       v = { consumed ring h s with clk := { s.clk with mElapsed := v.clk.mElapsed }, fresh := v.fresh }) ∧
     (u p 0 1 = 0 → exec (.clkMeasure ring dma) s =
       .next (answered (askerOf ring h s) [] { consumed ring h s with clk := { s.clk with mState := 0 } }))) ∧
   (∀ (s : State) (n : Nat), s.clk.mState = 1 →
     (∃ e, e < 2 ^ s.clk.mGate ∧ exec (.clkMeasureDone n false) s =
       .next { s with fresh := s.fresh + 1, clk := { s.clk with mState := 3, mElapsed := e } }) ∧
     (2 ^ 48 ≤ (rhe ((n * 2 ^ 32 : Nat) : Int) (2 ^ s.clk.mGate)).toNat → ∃ r, r < 2 ^ 48 ∧ exec (.clkMeasureDone n true) s =
       .next { s with fresh := s.fresh + 1, clk := { s.clk with mState := 4, mRatio := r, mElapsed := 2 ^ s.clk.mGate } }) ∧
     ((rhe ((n * 2 ^ 32 : Nat) : Int) (2 ^ s.clk.mGate)).toNat < 2 ^ 48 → exec (.clkMeasureDone n true) s = .next { s with clk := { s.clk with
       mState := 2, mRatio := (rhe ((n * 2 ^ 32 : Nat) : Int) (2 ^ s.clk.mGate)).toNat, mElapsed := 2 ^ s.clk.mGate } })))

/-! ### Time -/

/-- `time.servo`, `time.set_offset` and `time.status` (R324, R327, R329): settings are read and written whole; an offset write
that R324 permits is made and the change of corrected time answered; the status is that of Table 13-10. Phase sources (R321 to
R323, R328): a timeout holds an acquiring or locked servo, a change of master starts it anew, a missing edge is raised and
counted, an edge within a second's tolerance is measured, and 1PPS_OUT leaves at its instant. An acting measurement (R320) keeps
the rate and the integral within the limit of the settings.
The model's readings here are logs 29 and 55. -/
def Obligations.TimeAndPhaseSources : Prop :=
  ((∀ (ring : Nat) (dma : List Byte) (s : State) (h : Hdr), Delivered 0x0701 ring dma s h [] →
     exec (.timeServo ring dma) s = .next (answered (askerOf ring h s) s.tm.settings (consumed ring h s))) ∧
   (∀ (ring : Nat) (dma : List Byte) (s : State) (h : Hdr) (p : List Byte), Delivered 0x0701 ring dma s h p → p.length = 144 →
     firstBad (servoChecks p) = none →
     exec (.timeServo ring dma) s = .next (answered (askerOf ring h s) p (servoWrite p (consumed ring h s))) ∧
     (servoWrite p (consumed ring h s)).tm.settings = p) ∧
   (∀ (ring : Nat) (dma : List Byte) (s : State) (h : Hdr) (p : List Byte), Delivered 0x0702 ring dma s h p → p.length = 40 →
     u p 0 1 ≤ 1 → slice p 1 7 = zeros 7 → u p 16 4 ≤ 999999999 → slice p 22 2 = zeros 2 → (u p 0 1 = 0 → u p 24 10 = 0) →
     slice p 34 6 = zeros 6 → offsetBarred s.pwr.mode = false → offsetFits (newOffset p s) s = true → ∃ b,
       exec (.timeSetOffset ring dma) s = .next (answered (askerOf ring h s) b (writeOffset (newOffset p s) (consumed ring h s))) ∧
       (writeOffset (newOffset p s) (consumed ring h s)).tm.offset = newOffset p s ∧ b.length = 16) ∧
   (∀ (ring : Nat) (dma : List Byte) (s : State) (h : Hdr), Delivered 0x0703 ring dma s h [] → ∃ b,
     exec (.timeStatus ring dma) s = .next (answered (askerOf ring h s) b (consumed ring h s)) ∧ b.length = 72 ∧
       b.take 2 = leBytes 1 s.tm.servo ++ leBytes 1 (if s.tm.servo = 3 then s.tm.holdCause else 0))) ∧
  (∀ s : State,
     ((s.tm.servo = 1 ∨ s.tm.servo = 2) → ∃ t, exec .holdoverTimeout s = .next t ∧ t.tm.servo = 3 ∧ t.tm.holdCause = 1 ∧
       t.tm.rate = s.tm.rate ∧ t.tm.offset = s.tm.offset ∧ t.ev.status.getLsbD 146 = true) ∧
     (∀ m, svSource s = 1 → (∃ p, m.port = some p ∧ ((u s.tm.settings 3 1).testBit p = false ∨ portUp s p = false)) →
       exec (.ptpMasterChange m) s = .next s) ∧
     (∀ m, svSource s = 1 → (∀ p, m.port = some p → (u s.tm.settings 3 1).testBit p = true ∧ portUp s p = true) →
       sameMaster m s.tm.master = false → ∃ t, exec (.ptpMasterChange m) s = .next t ∧ t.tm.master = m ∧
       t.ev.status.getLsbD 147 = true ∧ t.tm.rate = s.tm.rate ∧ ((s.tm.servo = 1 ∨ s.tm.servo = 2) → t.tm.servo = 3)) ∧
     (∀ m, svSource s = 1 → (∀ p, m.port = some p → (u s.tm.settings 3 1).testBit p = true ∧ portUp s p = true) →
       sameMaster m s.tm.master = true →
       exec (.ptpMasterChange m) s = .next { s with tm := { s.tm with master := m } }) ∧
     (svSource s = 2 → ∃ t, exec .ppsEdgeTimeout s = .next t ∧ t.tm.ppsMissed = s.tm.ppsMissed + 1 ∧ t.ev.status.getLsbD 149 = true) ∧
     (svSource s = 2 → s.pwr.armed = 0 → s.pwr.mode ≠ .deepSleep → s.pwr.ready.getLsbD 4 = true → s.tm.lastPps = none →
       exec .ppsInEdge s = .next { s with tm := { s.tm with lastPps := some s.tm.raw, ppsMissed := 0 } }) ∧
     (∀ r, svSource s = 2 → s.pwr.armed = 0 → s.pwr.mode ≠ .deepSleep → s.pwr.ready.getLsbD 4 = true → s.tm.lastPps = some r →
       1327104000 ≤ s.tm.raw - r → s.tm.raw - r ≤ 1622016000 → ∃ e, exec .ppsInEdge s =
         .next (servoMeasure e { s with tm := { s.tm with lastPps := some s.tm.raw, ppsMissed := 0 } })) ∧
     (svPpsOut s = 2 → s.tm.fine = true → s.tm.ppsOut = none → ∃ t k, exec .ppsOut s = .next t ∧ t.out = s.out ++ [.pps] ∧
       t.tm.ppsOut = some (k, t.tm.raw) ∧ (1 ≤ svWidth s → ppsOutLevel t = true) ∧ t = { s with tm := t.tm, out := t.out })) ∧
  (∀ (e : Int) (s : State), -65536000000 ≤ e → e ≤ 65536000000 →
     (servoAct e s).tm.rate ≤ svMaxRate s ∧ -svMaxRate s ≤ (servoAct e s).tm.rate ∧
     (servoAct e s).tm.integ ≤ svMaxRate s ∧ -svMaxRate s ≤ (servoAct e s).tm.integ)

/-- A change of rate (R318): at one raw value Rc the rate becomes r and the offset the one that the rule gives; corrected time is
continuous there, moves only in rate afterwards, and nothing else changes. -/
def Obligations.RateChangeKeepsTime : Prop :=
  ∀ (r : Int) (s : State), setRate r s = { s with tm := { s.tm with rate := r, offset := (setRate r s).tm.offset } } ∧
    (setRate r s).tm.offset = s.tm.offset + rhe ((s.tm.raw * 400000 : Nat) * ((2 ^ 48 : Nat) + s.tm.rate)) (9 * 2 ^ 48) -
      rhe ((s.tm.raw * 400000 : Nat) * ((2 ^ 48 : Nat) + r)) (9 * 2 ^ 48) ∧
    nowC (setRate r s) = nowC s ∧
    ∀ n, nowC (advanceRaw n (setRate r s)) - nowC s =
      rhe (((advanceRaw n s).tm.raw * 400000 : Nat) * ((2 ^ 48 : Nat) + r)) (9 * 2 ^ 48) -
      rhe ((s.tm.raw * 400000 : Nat) * ((2 ^ 48 : Nat) + r)) (9 * 2 ^ 48)

/-! ### Trestle cores -/

/-- Class 2 (R235, Table 10-4): each integer instruction of a core writes its result and sets Z and N from it; ADD, SUB and CMP
also set C and V; nothing else changes but PC and CYC. SUB's C and immediates rest on log 9 and 25; a shift by 32 or more writes
a free value. Class 3 (R236, R240, Table 10-4): each packed instruction works on one data register or one quad, all operands
read first; CADD, CSUB and CNEG saturate and set SAT; CSHR rounds half to even. -/
def Obligations.TrestleIntegerAndPacked : Prop :=
  (∀ (c : Nat) (s : State), Issues c s →
     let r := nowRegs c s
     let m := (coreOf s c).dmem
     (∀ (d a : Fin 16) (b : TSrc),
       let x := dReg r a.val
       let y := srcVal r b
       Completes c (.add c d a b) s { withZN d.val (x + y) r with
         c := decide (2 ^ 32 ≤ x.toNat + y.toNat), v := decide ((x + y).toInt ≠ x.toInt + y.toInt) } m 1 ∧
       Completes c (.sub c d a b) s { withZN d.val (x - y) r with
         c := decide (y.toNat ≤ x.toNat), v := decide ((x - y).toInt ≠ x.toInt - y.toInt) } m 1 ∧
       Completes c (.cmp c a b) s { r with
         z := decide (x = y), n := (x - y).getLsbD 31,
         c := decide (y.toNat ≤ x.toNat), v := decide ((x - y).toInt ≠ x.toInt - y.toInt) } m 1 ∧
       Completes c (.and c d a b) s (withZN d.val (x &&& y) r) m 1 ∧
       Completes c (.or c d a b) s (withZN d.val (x ||| y) r) m 1 ∧
       Completes c (.xor c d a b) s (withZN d.val (x ^^^ y) r) m 1 ∧
       Completes c (.not c d a) s (withZN d.val (~~~x) r) m 1 ∧
       Completes c (.min c d a b) s (withZN d.val (if x.toInt ≤ y.toInt then x else y) r) m 1 ∧
       Completes c (.max c d a b) s (withZN d.val (if x.toInt ≤ y.toInt then y else x) r) m 1 ∧
       (y.toNat < 32 → Completes c (.lsl c d a b) s (withZN d.val (x <<< y.toNat) r) m 1 ∧
         Completes c (.lsr c d a b) s (withZN d.val (x >>> y.toNat) r) m 1 ∧
         Completes c (.asr c d a b) s (withZN d.val (x.sshiftRight y.toNat) r) m 1) ∧
       (32 ≤ y.toNat → ∃ v, Completes c (.lsl c d a b) s (withZN d.val v r) m 1 ∧
         Completes c (.lsr c d a b) s (withZN d.val v r) m 1 ∧ Completes c (.asr c d a b) s (withZN d.val v r) m 1)) ∧
     (∀ (d : Fin 16) (v : BitVec 16), Completes c (.movi c d v) s (withZN d.val (srcVal r (.imm v)) r) m 1 ∧
       Completes c (.movhi c d v) s (withZN d.val (BitVec.ofNat 32 (v.toNat * 65536 + (dReg r d.val).toNat % 65536)) r) m 1) ∧
     (∀ (dst src : TReg) (w : TRegs), ((coreOf s c).cur = 2 ∨ (isLoopReg dst = false ∧ isLoopReg src = false)) →
       writeReg (readReg r src) r dst = some w →
       Completes c (.mov c dst src) s { w with z := decide (readReg r src = 0), n := (readReg r src).getLsbD 31 } m 1) ∧
     (∀ (d e : Fin 16), writeReg (readReg r (.d e)) r (.d d) = some { r with d := tset 0 r.d d.val (tget 0 r.d e.val) })) ∧
  (∀ (c : Nat) (s : State) (dst a b : TPack), Issues c s → (packRegs a).length = (packRegs dst).length →
     (packRegs b).length = (packRegs dst).length →
     let r := nowRegs c s
     let m := (coreOf s c).dmem
     let x (k : Nat) : IQ := unpack (dReg r ((packRegs a).getD k 0))
     let y (k : Nat) : IQ := unpack (dReg r ((packRegs b).getD k 0))
     let gives (i : Instr) (f : Nat → Word) (sat : Nat → Bool) : Prop :=
       ∃ w, Completes c i s w m 1 ∧ w = { r with d := w.d, sat := w.sat } ∧
         w.sat = (r.sat || (List.range (packRegs dst).length).any sat) ∧
         (∀ k < (packRegs dst).length, dReg w ((packRegs dst).getD k 0) = f k) ∧ ∀ n, n ∉ packRegs dst → dReg w n = dReg r n
     gives (.cadd c dst a b) (fun k => pack (satIQ 16 (addIQ (x k) (y k)))) (fun k => exceeds 16 (addIQ (x k) (y k))) ∧
     gives (.csub c dst a b) (fun k => pack (satIQ 16 (subIQ (x k) (y k)))) (fun k => exceeds 16 (subIQ (x k) (y k))) ∧
     gives (.cneg c dst a) (fun k => pack (satIQ 16 (-(x k).1, -(x k).2))) (fun k => exceeds 16 (-(x k).1, -(x k).2)) ∧
     (∀ sh, gives (.cshr c dst a sh) (fun k => pack (rheIQ (x k) (2 ^ sh))) (fun _ => false)) ∧
     gives (.swaph c dst a) (fun k => pack ((x k).2, (x k).1)) (fun _ => false) ∧
     gives (.unpko c dst a) (fun k => unpkoWord (pack (x k))) (fun _ => false) ∧
     (∃ g, gives (.conj c dst a) (fun k => conjWord g (x k)) (fun _ => false)) ∧
     (∀ g z, z.2 ≠ -32768 → conjWord g z = pack (z.1, -z.2)))

/-- Class 1 (R233, Table 10-4): an access inside the context's data and aligned loads or stores its bytes and advances a
post-incremented pointer; one outside traps with cause 5, a misaligned one with cause 7, and has no effect.
The order of the two traps is deduced (log 61). -/
def Obligations.TrestleLoadsAndStores : Prop :=
  ∀ (c : Nat) (s : State) (a : TAddr), Issues c s →
    let r := nowRegs c s
    let k := coreOf s c
    let x := (address r a).1
    let q := (address r a).2.1
    (address r a).2.2 = true →
    (∀ n d e, (n = 4 ∧ (∃ f : Fin 16, d = Instr.ld c f a ∧ e = Instr.st c f a)) ∨ (n = 16 ∧ (∃ f : Fin 4, d = Instr.ldq c f a ∧ e = Instr.stq c f a)) →
      ((x < (dataRange k.cur).1 ∨ (dataRange k.cur).1 + (dataRange k.cur).2 < x + n) →
        exec d s = .next (trapRun c 5 s) ∧ exec e s = .next (trapRun c 5 s)) ∧
      ((dataRange k.cur).1 ≤ x → x + n ≤ (dataRange k.cur).1 + (dataRange k.cur).2 → x % n ≠ 0 →
        exec d s = .next (trapRun c 7 s) ∧ exec e s = .next (trapRun c 7 s))) ∧
    (∀ f : Fin 16, accessTrap k.cur x 4 = none →
      Completes c (.ld c f a) s { q with d := tset 0 q.d f.val (memWord k.dmem x) } k.dmem 1 ∧
      ∃ m, Completes c (.st c f a) s q m 1 ∧ memWord m x = dReg r f.val ∧ ∀ o, (o < x ∨ x + 4 ≤ o) → tget 0 m o = tget 0 k.dmem o) ∧
    (∀ f : Fin 4, accessTrap k.cur x 16 = none →
      (∃ w, Completes c (.ldq c f a) s w k.dmem 1 ∧ w = { q with d := w.d } ∧
        (∀ j < 4, dReg w (4 * f.val + j) = memWord k.dmem (x + 4 * j)) ∧
        ∀ n, (n < 4 * f.val ∨ 4 * f.val + 4 ≤ n) → dReg w n = dReg r n) ∧
      ∃ m, Completes c (.stq c f a) s q m 1 ∧ (∀ j < 4, memWord m (x + 4 * j) = dReg r (4 * f.val + j)) ∧
        ∀ o, (o < x ∨ x + 16 ≤ o) → tget 0 m o = tget 0 k.dmem o) ∧
    (∀ m o, a = .off m o → q = r ∧ x = (pReg r m.val + BitVec.ofInt 32 o).toNat) ∧
    (∀ m o, a = .post m o → q = { r with p := tset 0 r.p m.val (pReg r m.val + BitVec.ofInt 32 o) } ∧ x = (pReg r m.val).toNat)

/-- R238, R239: each lane of a complex multiply meets its accumulator with the exact product; a component beyond 40 bits takes
the nearer limit, ACC_OVF of the accumulator and POISON are set, and nothing else changes. CLRA zeroes a quad and clears
neither. Class 5 (R239, R240): AADD, ASHL, ASHR and MOVA leave one accumulator, saturated to 40 bits; STR scales with convergent
rounding, saturates to w bits and places the result; the accumulator keeps its value. The N flag of STR is a free value where one
component of the result alone is negative. -/
def Obligations.TrestleAccumulators : Prop :=
  (∀ (c : Nat) (s : State) (h : Fin 2) (a b : Fin 4), Issues c s →
     let r := nowRegs c s
     let k := coreOf s c
     let x (j : Nat) : IQ := unpack (dReg r (4 * a.val + j))
     let y (j : Nat) : IQ := unpack (dReg r (4 * b.val + j))
     let z (j : Nat) : IQ := aReg r (4 * h.val + j)
     let lanes (v : Nat → IQ) (w : TRegs) : Prop :=
       (∀ j < 4, AccTakes (4 * h.val + j) (v j) r w) ∧ (∀ n < 8, n / 4 ≠ h.val → AccKept n r w) ∧
       w.poison = (r.poison || exceeds 40 (v 0) || exceeds 40 (v 1) || exceeds 40 (v 2) || exceeds 40 (v 3))
     let gives (i : Instr) (v : Nat → IQ) : Prop :=
       ∃ w, Completes c i s w k.dmem 1 ∧ w = { r with a := w.a, ovf := w.ovf, poison := w.poison } ∧ lanes v w
     gives (.cmul4 c h a b) (fun j => mulIQ (x j) (y j)) ∧
     gives (.cmac4 c h a b) (fun j => addIQ (z j) (mulIQ (x j) (y j))) ∧
     gives (.cmsu4 c h a b) (fun j => subIQ (z j) (mulIQ (x j) (y j))) ∧
     gives (.cmacj4 c h a b) (fun j => addIQ (z j) (mulIQ (x j) ((y j).1, -(y j).2))) ∧
     (∀ (d : Fin 4) (ad : TAddr), (address r ad).2.2 = true → accessTrap k.cur (address r ad).1 16 = none →
       ∃ w, Completes c (.cmac4l c h a b d ad) s w k.dmem 1 ∧
         w = { r with a := w.a, ovf := w.ovf, poison := w.poison, d := w.d, p := (address r ad).2.1.p } ∧
         lanes (fun j => addIQ (z j) (mulIQ (x j) (y j))) w ∧
         (∀ j < 4, dReg w (4 * d.val + j) = memWord k.dmem ((address r ad).1 + 4 * j)) ∧
         ∀ n, (n < 4 * d.val ∨ 4 * d.val + 4 ≤ n) → dReg w n = dReg r n) ∧
     (∃ w, Completes c (.clra c h) s w k.dmem 1 ∧ w = { r with a := w.a } ∧ (∀ j < 4, aReg w (4 * h.val + j) = (0, 0)) ∧
       ∀ n < 8, n / 4 ≠ h.val → aReg w n = aReg r n)) ∧
  (∀ (c : Nat) (s : State) (a b : Fin 8), Issues c s →
     let r := nowRegs c s
     let m := (coreOf s c).dmem
     let z := aReg r a.val
     let gives (i : Instr) (v : IQ) : Prop :=
       ∃ w, Completes c i s w m 1 ∧ w = { r with a := w.a, ovf := w.ovf, poison := w.poison } ∧ AccTakes a.val v r w ∧
         (∀ n < 8, n ≠ a.val → AccKept n r w) ∧ w.poison = (r.poison || exceeds 40 v)
     gives (.aadd c a b) (addIQ z (aReg r b.val)) ∧
     (∀ sh, gives (.ashr c a sh) (rheIQ z (2 ^ sh))) ∧
     (∀ sh : Nat, gives (.ashl c a sh) (z.1 * 2 ^ sh, z.2 * 2 ^ sh)) ∧
     (∀ d : Fin 8, gives (.mova c a d) ((dReg r (2 * d.val)).toInt, (dReg r (2 * d.val + 1)).toInt)) ∧
     (∀ (d : Fin 16) (sh : Int) (w : Nat), -8 ≤ sh → sh ≤ 31 → w ∈ [16, 18, 32] → (w = 16 ∨ d.val % 2 = 0) →
       let v : IQ := if 0 ≤ sh then rheIQ z (2 ^ sh.toNat) else (z.1 * 2 ^ (-sh).toNat, z.2 * 2 ^ (-sh).toNat)
       ∃ n, ((satIQ w v).1 < 0 → (satIQ w v).2 < 0 → n = true) ∧ (0 ≤ (satIQ w v).1 → 0 ≤ (satIQ w v).2 → n = false) ∧
         Completes c (.str c d a sh w) s { r with
         d := if w = 16 then tset 0 r.d d.val (pack (satIQ 16 v))
           else tset 0 (tset 0 r.d d.val (BitVec.ofInt 32 (satIQ w v).1)) (d.val + 1) (BitVec.ofInt 32 (satIQ w v).2),
         sat := r.sat || exceeds w v, z := decide (satIQ w v = (0, 0)), n := n } m 1))

/-- R241: the normalise instructions write the counts of redundant sign bits, NORM also the value shifted, and the block
exponent takes the smallest; Z tells a zero input, and Table 10-5's edge values hold.
That the counts clear N is deduced (log 61). -/
def Obligations.TrestleNormaliseResults : Prop :=
  (∀ (c : Nat) (s : State), Issues c s →
    let r := nowRegs c s
    let k := coreOf s c
    (∀ d e : Fin 16, let v := dReg r e.val
      Completes c (.exp c d e) s { r with d := tset 0 r.d d.val (BitVec.ofNat 32 (signBits 32 v.toInt)), z := decide (v = 0), n := false } k.dmem 1 ∧
      Completes c (.expc c d e) s { r with
        d := tset 0 r.d d.val (BitVec.ofNat 32 (Nat.min (signBits 16 (unpack v).1) (signBits 16 (unpack v).2))),
        z := decide (v = 0), n := false } k.dmem 1 ∧
      ∀ f : Fin 16, Completes c (.norm c d e f) s { r with
        d := tset 0 (tset 0 r.d d.val (v <<< signBits 32 v.toInt)) f.val (BitVec.ofNat 32 (signBits 32 v.toInt)),
        z := decide (v = 0), n := (v <<< signBits 32 v.toInt).getLsbD 31 } k.dmem 1) ∧
    (∀ (d : Fin 16) (a : Fin 8), let z := aReg r a.val
      let v : Int := (Nat.min (signBits 40 z.1) (signBits 40 z.2) : Nat) - 8
      Completes c (.expa c d a) s { r with d := tset 0 r.d d.val (BitVec.ofInt 32 v), z := decide (z = (0, 0)), n := decide (v < 0) } k.dmem 1) ∧
    (∀ q : Fin 4, let e (j : Nat) : Nat := expcOf (unpack (dReg r (4 * q.val + j)))
      Completes c (.bexpq c q) s { r with
        be := Nat.min (Nat.min (Nat.min (Nat.min r.be (e 0)) (e 1)) (e 2)) (e 3),
        z := (List.range 4).all (fun j => decide (dReg r (4 * q.val + j) = 0)), n := false } k.dmem 1) ∧
    (∀ m : Fin 8, accessTrap k.cur (pReg r m.val).toNat 16 = none →
      let w (j : Nat) : Word := memWord k.dmem ((pReg r m.val).toNat + 4 * j)
      Completes c (.bexp c m) s { r with
        p := tset 0 r.p m.val (pReg r m.val + 16),
        be := Nat.min (Nat.min (Nat.min (Nat.min r.be (expcOf (unpack (w 0)))) (expcOf (unpack (w 1)))) (expcOf (unpack (w 2)))) (expcOf (unpack (w 3))),
        z := (List.range 4).all (fun j => decide (w j = 0)), n := false } k.dmem 1) ∧
    Completes c (.beclr c) s { r with be := 15 } k.dmem 1) ∧
  ([0, 1, -1, -2147483648, 2147483647, 12288].map (signBits 32) = [31, 30, 31, 0, 0, 17] ∧
    [0, 1, -1, -32768, 32767, 12288].map (signBits 16) = [15, 14, 15, 0, 0, 1] ∧
    [0, 1, -1, -549755813888, 549755813887, 12288].map (fun v => (signBits 40 v : Int) - 8) = [31, 30, 31, -8, -8, 17] ∧
    ((1 : Word) <<< 30 = 0x40000000 ∧ (0xFFFFFFFF : Word) <<< 31 = 0x80000000 ∧ (12288 : Word) <<< 17 = 0x60000000) ∧
    expcOf (unpack 0) = 15 ∧ expcOf (unpack 0xFFFFFFFF) = 15) ∧
  (∀ (w : Nat) (v : Int), 1 ≤ w → -(2 ^ (w - 1)) ≤ v → v < 2 ^ (w - 1) → signBits w v < w ∧
    -(2 ^ (w - 1 - signBits w v)) ≤ v ∧ v < 2 ^ (w - 1 - signBits w v) ∧
    (signBits w v + 1 < w → ¬(-(2 ^ (w - 2 - signBits w v)) ≤ v ∧ v < 2 ^ (w - 2 - signBits w v))))

/-- Class 7 to 9 (R232, R237, R242, R243): branches take 3 cycles, calls stack the next word's address, a return goes on there as a
fall-through does, so that a call may end a block repeat's body, RPT with a count of 0
skips the next instruction in 1 cycle, SETF clears what it names, BLK opens a block repeat; DMA of a vendor kernel takes 1 cycle
and leaves the vendor part of data memory free, the slots' regions as they were (log 28). Past the end of an open block the program
goes back to its start, or leaves the block and meets the end of the one around it (R243). -/
def Obligations.TrestleControlResults : Prop :=
  (∀ (r : TRegs) (next l : Nat), r.depth = l + 1 → l < 4 →
    (next % 65536 ≠ (tget 0 r.le l + 4) % 65536 → loopBack 4 r next = (r, next)) ∧
    (next % 65536 = (tget 0 r.le l + 4) % 65536 → 1 < tget 0 r.lc l →
      loopBack 4 r next = ({ r with lc := tset 0 r.lc l (tget 0 r.lc l - 1) }, tget 0 r.ls l)) ∧
    (next % 65536 = (tget 0 r.le l + 4) % 65536 → tget 0 r.lc l ≤ 1 →
      loopBack 4 r next = loopBack 4 { r with lc := tset 0 r.lc l 0, depth := l } next)) ∧
  ∀ (c : Nat) (s : State), Issues c s →
    let r := nowRegs c s
    let k := coreOf s c
    let m := k.dmem
    (∀ t, Jumps c (.br c t) s r t.toNat 3) ∧
    (∀ (cond : TCond) t, (cond.getLsbD (8 * b2n r.v + 4 * b2n r.c + 2 * b2n r.n + b2n r.z) = true → Jumps c (.bcc c cond t) s r t.toNat 3) ∧
      (cond.getLsbD (8 * b2n r.v + 4 * b2n r.c + 2 * b2n r.n + b2n r.z) = false → Completes c (.bcc c cond t) s r m 1)) ∧
    (∀ t, r.stack.length < (if k.cur = 2 then 8 else 4) →
      Jumps c (.call c t) s { r with stack := (r.pc + 4) % 65536 :: r.stack } t.toNat 3) ∧
    (∀ x xs, r.stack = x :: xs → Falls c (.ret c) s { r with stack := xs } x 3) ∧
    (∀ n, 1 ≤ n → n ≤ 4096 → ∃ t, exec (.rpt c (.imm n)) s = .next t ∧ CoreFrame c s t ∧ (nowRegs c t).rpt = some n ∧
      (nowRegs c t).inRpt = true ∧ (nowRegs c t).cyc = r.cyc % 2 ^ 32 ∧ (coreOf t c).dmem = m) ∧
    Falls c (.rpt c (.imm 0)) s r (r.pc + 8) 1 ∧
    (∀ n, 4096 < n → exec (.rpt c (.imm n)) s = .next (trapRun c 8 s)) ∧
    (∀ d : Fin 16, 4096 < (dReg r d.val).toNat → exec (.rpt c (.reg d)) s = .next (trapRun c 3 s)) ∧
    (∀ d : Fin 16, dReg r d.val = 0 → Falls c (.rpt c (.reg d)) s r (r.pc + 8) 1) ∧
    Completes c (.nop c) s r m 1 ∧
    (∀ v : Word, Completes c (.setf c v) s { r with
      sat := r.sat && !v.getLsbD 4, ovf := r.ovf &&& ~~~BitVec.ofNat 8 (v.toNat / 256) } m 1) ∧
    Completes c (.clrovf c) s { r with ovf := 0 } m 1 ∧
    (∀ n (e : BitVec 16), k.cur = 2 → 1 ≤ n → n ≤ 65535 → r.depth < 4 → Jumps c (.blk c n e) s { r with
      lc := tset 0 r.lc r.depth n, ls := tset 0 r.ls r.depth ((r.pc + 4) % 65536), le := tset 0 r.le r.depth e.toNat,
      depth := r.depth + 1 } (r.pc + 4) 1) ∧
    (∀ e : BitVec 16, k.cur = 2 → Falls c (.blk c 0 e) s r (e.toNat + 4) 1) ∧
    (k.cur = 2 → ∃ f, Completes c (.dma c) s r f 1 ∧ ∀ a, 0x30000 ≤ a → tget 0 f a = tget 0 m a)

/-- END (R252): a customer run is done, its result copied from the result area, its slot's figures noted, and the rest of the
quantum is the vendor's; a result length above 4,096 traps with cause 12; a poisoned result raises EV_ACC_OVF, and a vendor's is
noted for its solution. QUANTUM_END and
CYCLE_BUDGET_EXHAUSTED (R245, R246, R250): at the boundary the next quantum begins, every seventh of eight going to a slot with
work; registers and memory stay; an exhausted budget traps with cause 9.
The end of a vendor quantum is the model's choice (log 27). -/
def Obligations.TrestleRunsAndQuanta : Prop :=
  (∀ (c : Nat) (s : State), Issues c s →
     let r := nowRegs c s
     let k := coreOf s c
     (k.cur ≠ 2 → (dReg r 0).toNat ≤ 4096 → ∃ t, exec (.end_ c) s = .next t ∧ (coreOf t c).cur = 2 ∧
       tslotOf (coreOf t c) k.cur = { tslotOf k k.cur with
         state := 4, cause := 0, cycles := (r.cyc + 1) % 2 ^ 32, trapPc := 0, poisoned := r.poison, sat := r.sat,
         result := tgetList 0 k.dmem ((dataRange k.cur).1 + 0x7000) (dReg r 0).toNat, abortHeld := false } ∧
       (coreOf t c).dmem = k.dmem ∧ (∀ j, j ≠ c → coreOf t j = coreOf s j) ∧ (r.poison = true → t.ev.status.getLsbD 98 = true) ∧
       (r.poison = false → t.ev = s.ev)) ∧
     (k.cur ≠ 2 → 4096 < (dReg r 0).toNat → exec (.end_ c) s = .next (trapRun c 12 s)) ∧
     (k.cur = 2 → ∃ t, exec (.end_ c) s = .next t ∧ (coreOf t c).cur = 2 ∧ (coreOf t c).dmem = k.dmem ∧
       (coreOf t c).slot = k.slot ∧ (coreOf t c).vendorEnd = (if r.poison then some (false, r.ovf) else k.vendorEnd) ∧
       t = { s with core := t.core })) ∧
  (∀ (c : Nat) (s : State), c < 8 → s.pwr.ready.getLsbD 9 = true → (nowRegs c s).rpt = none →
     let k := coreOf s c
     (k.cur = 2 ∨ (12000 ≤ k.qcyc ∧ (nowRegs c s).cyc < (tslotOf k k.cur).budget) →
       ∃ t, exec (.quantumEnd c) s = .next t ∧ (coreOf t c).quantum = k.quantum + 1 ∧ (coreOf t c).qcyc = 0 ∧
         (coreOf t c).regs = k.regs ∧ (coreOf t c).dmem = k.dmem ∧ (coreOf t c).imem = k.imem ∧ t = { s with core := t.core } ∧
         (∀ j, j ≠ c → coreOf t j = coreOf s j) ∧
         ((k.quantum + 1) % 8 ≠ 7 → (coreOf t c).cur = 2) ∧
         ((k.quantum + 1) % 8 = 7 → hasWork k 0 = false → hasWork k 1 = false → (coreOf t c).cur = 2) ∧
         (∀ n, n < 2 → (k.quantum + 1) % 8 = 7 → hasWork k n = true → hasWork k (1 - n) = false →
           (coreOf t c).cur = n ∧ (tslotOf (coreOf t c) n).state = 3) ∧
         ((k.quantum + 1) % 8 = 7 → hasWork k 0 = true → hasWork k 1 = true → (coreOf t c).cur = k.turn % 2 ∧
           (coreOf t c).turn = 1 - k.turn % 2)) ∧
     (k.cur ≠ 2 → (tslotOf k k.cur).state = 3 → (tslotOf k k.cur).budget ≤ (nowRegs c s).cyc →
       exec (.cycleBudgetExhausted c) s = .next (trapRun c 9 s)))

/-- R244 and Table 10-6: a trap of a customer run leaves its slot trapped with the cause and the PC as an offset from the slot's
code, keeps data memory and raises EV_TRESTLE_TRAP; a trap of a vendor run leaves its solution poisoned; the causes of the
instructions that a customer kernel may not use; and a code word with a double-bit error, as a data word that a load reads or a store covers
in part, traps with cause 10.
The order of causes and the offset of a PC below the slot's code are deduced (log 61). -/
def Obligations.TrestleTraps : Prop :=
  (∀ (c cause : Nat) (s : State), (coreOf s c).cur ≠ 2 →
    let k := coreOf s c
    let t := trapRun c cause s
    tslotOf (coreOf t c) k.cur = { tslotOf k k.cur with
      state := 5, cause := cause, cycles := (nowRegs c s).cyc, trapPc := wrapN 32 ((nowRegs c s).pc - codeBase k.cur : Int), abortHeld := false } ∧
    (coreOf t c).dmem = k.dmem ∧ (coreOf t c).cur = 2 ∧ t.ev.status.getLsbD 96 = true ∧
    (∀ j, j ≠ c → coreOf t j = coreOf s j) ∧ t = { s with core := t.core, ev := t.ev, ph := t.ph, out := t.out }) ∧
  (∀ (c cause : Nat) (s : State), (coreOf s c).cur = 2 →
    let t := trapRun c cause s
    (coreOf t c).vendorEnd = some (true, (nowRegs c s).ovf) ∧ (coreOf t c).cur = 2 ∧ (coreOf t c).slot = (coreOf s c).slot ∧
    (coreOf t c).dmem = (coreOf s c).dmem ∧ t.ev.status.getLsbD 96 = true ∧ (∀ j, j ≠ c → coreOf t j = coreOf s j)) ∧
  (∀ (c : Nat) (s : State), canIssue s c = true →
    (∀ f, fetchTrap (coreOf s c) = some f → exec (.nop c) s = .next (trapRun c f s)) ∧
    (fetchTrap (coreOf s c) = none → wordError s 6 (fetchWord s c) = some true → ∃ w, exec (.nop c) s = .next (trapRun c 10 w) ∧
      w.ev.status.getLsbD 209 = true ∧ tget 0 w.ls.ded 6 = tget 0 s.ls.ded 6 + 1 ∧ w.core = s.core) ∧
    ((coreOf s c).cur ≠ 2 → ((nowRegs c s).pc < codeBase (coreOf s c).cur ∨ codeBase (coreOf s c).cur + 0x2000 ≤ (nowRegs c s).pc) →
      fetchTrap (coreOf s c) = some 6) ∧
    (∀ (f : Fin 16) (m : Fin 8) (o : Int), fetchTrap (coreOf s c) = none → wordError s 6 (fetchWord s c) = none → (nowRegs c s).rpt = none →
      let x := (pReg (nowRegs c s) m.val + BitVec.ofInt 32 o).toNat
      accessTrap (coreOf s c).cur x 4 = none → (x / 8, true) ∈ (envOf s c).bad →
      exec (.ld c f (.off m o)) s = .next (dedRun c (x / 8) s) ∧ exec (.st c f (.off m o)) s = .next (dedRun c (x / 8) s))) ∧
  (∀ (c : Nat) (s : State), Issues c s → (coreOf s c).cur ≠ 2 →
    (∀ n e, exec (.blk c n e) s = .next (trapRun c 1 s)) ∧ exec (.dma c) s = .next (trapRun c 2 s) ∧
    (∀ n x, exec (.mov c (.loop n) x) s = .next (trapRun c 2 s) ∧ exec (.mov c x (.loop n)) s = .next (trapRun c 2 s)) ∧
    (∀ x, 4 ≤ (nowRegs c s).stack.length → exec (.call c x) s = .next (trapRun c 11 s)) ∧
    ((nowRegs c s).stack = [] → exec (.ret c) s = .next (trapRun c 11 s))) ∧
  (∀ (c : Nat) (s : State) (n : Nat), Fetches c s → (nowRegs c s).rpt = some n →
    ∀ i ∈ [Instr.br c 0, .ret c, .rpt c (.imm n), .end_ c, .nop c, .setf c 0, .clrovf c, .blk c n 0, .dma c, .mov c (.loop 0) (.d 0)],
      exec i s = .next (trapRun c 4 s))

/-- R242: an RPT of n repeats the next instruction n times without an interruption and in exactly n cycles; a post-incremented
pointer advances on every iteration. Shown on LD, and on a MOV of CYC, which each iteration reads as it stands before it (R234). -/
def Obligations.RepeatRunsEveryIteration : Prop :=
  (∀ (c n : Nat) (s : State) (f : Fin 16) (m : Fin 8) (inc : Int), Fetches c s → (nowRegs c s).rpt = some n →
    (tslotOf (coreOf s c) (coreOf s c).cur).abortHeld = false → -512 ≤ inc → inc ≤ 508 → inc % 4 = 0 →
    (∀ j < n, accessTrap (coreOf s c).cur (pReg (nowRegs c s) m.val + BitVec.ofInt 32 (inc * j)).toNat 4 = none) →
    ∃ w, Completes c (.ld c f (.post m inc)) s w (coreOf s c).dmem n ∧ w.rpt = none ∧ w.inRpt = false ∧
      pReg w m.val = pReg (nowRegs c s) m.val + BitVec.ofInt 32 (inc * n) ∧
      (∀ j, n = j + 1 → dReg w f.val = memWord (coreOf s c).dmem (pReg (nowRegs c s) m.val + BitVec.ofInt 32 (inc * j)).toNat) ∧
      (∀ x, x ≠ f.val → dReg w x = dReg (nowRegs c s) x)) ∧
  ∀ (c n : Nat) (s : State) (f : Fin 16), Fetches c s → (nowRegs c s).rpt = some (n + 1) →
    (tslotOf (coreOf s c) (coreOf s c).cur).abortHeld = false →
    ∃ w, Completes c (.mov c (.d f) .cyc) s w (coreOf s c).dmem (n + 1) ∧
      dReg w f.val = BitVec.ofNat 32 ((nowRegs c s).cyc + n) ∧ ∀ x, x ≠ f.val → dReg w x = dReg (nowRegs c s) x

/-- `trestle.kernel_load`, `trestle.kernel_start` and `trestle.status` (R249, R250, R253): a verified image is in the slot of
every named core; a start queues a run under the next run number; an abort of a queued run unqueues it and of a running one
outside an RPT ends it with cause 1.
The verdict on an image is opaque (log 2). -/
def Obligations.TrestleMessages : Prop :=
  ∀ (ring : Nat) (dma : List Byte) (s : State) (h : Hdr) (p : List Byte),
    let a := askerOf ring h s
    let w := consumed ring h s
    (∀ key, Delivered 0x0B01 ring dma s h p → p.length = 80 + u p 36 4 + u p 40 4 + 96 → firstBad (loadChecks p) = none →
      stageNow s ∈ [.provisioned, .field, .return_] → keyInForce s = some key → s.pwr.ready.getLsbD 9 = true →
      (∀ c < 8, (u p 0 1).testBit c = true → hasWork (coreOf s c) (u p 1 1) = false) → u p 32 4 ≤ s.sys.idFw →
      Config.signatureOk key (slice p 16 (64 + u p 36 4 + u p 40 4)) (slice p (80 + u p 36 4 + u p 40 4) 96) = true →
      ∃ t, exec (.trestleKernelLoad ring dma) s = .next (answered a [] t) ∧ t = { w with core := t.core, ls := { w.ls with bad := t.ls.bad } } ∧
        ∀ c, coreOf t c = if c < 8 ∧ (u p 0 1).testBit c = true then
          setTslot (u p 1 1) { state := 1, image := imageOfLoad p }
            { coreOf s c with imem := tsetList 0 (coreOf s c).imem (codeBase (u p 1 1)) (slice p 80 (u p 36 4)) }
          else coreOf s c) ∧
    (Delivered 0x0B02 ring dma s h p → p.length = 64 → firstBad (startChecks p w) = none → s.pwr.ready.getLsbD 9 = true →
      (tslotOf (coreOf s (u p 1 1)) (u p 2 1)).state ≠ 0 →
      let k := coreOf s (u p 1 1)
      let q := tslotOf k (u p 2 1)
      (u p 0 1 = 1 → hasWork k (u p 2 1) = false → ∃ t, t = { w with core := t.core, ls := t.ls, ev := t.ev, ph := t.ph, out := t.out } ∧
        exec (.trestleKernelStart ring dma) s = .next (answered a (leBytes 4 ((q.run + 1) % 2 ^ 32) ++ zeros 4) t) ∧
        (tslotOf (coreOf t (u p 1 1)) (u p 2 1)).state = 2 ∧ (tslotOf (coreOf t (u p 1 1)) (u p 2 1)).run = (q.run + 1) % 2 ^ 32 ∧
        (tslotOf (coreOf t (u p 1 1)) (u p 2 1)).budget = (if u p 4 4 = 0xFFFFFFFF then q.image.budget else u p 4 4) ∧
        (∀ c, c ≠ u p 1 1 → coreOf t c = coreOf s c)) ∧
      (u p 0 1 = 2 → q.state = 2 →
        exec (.trestleKernelStart ring dma) s = .next (answered a [] (setCore (u p 1 1) (setTslot (u p 2 1) { q with state := 1 } k) w))) ∧
      (u p 0 1 = 2 → q.state = 3 → (regsOf k (u p 2 1)).rpt = none →
        exec (.trestleKernelStart ring dma) s = .next (answered a [] (abortRun (u p 1 1) (u p 2 1) w)) ∧
        (tslotOf (coreOf (abortRun (u p 1 1) (u p 2 1) w) (u p 1 1)) (u p 2 1)).state = 6 ∧
        (tslotOf (coreOf (abortRun (u p 1 1) (u p 2 1) w) (u p 1 1)) (u p 2 1)).cause = 1)) ∧
    (Delivered 0x0B03 ring dma s h p → p.length = 4 → u p 0 1 ≤ 7 → u p 1 1 ≤ 1 → slice p 2 2 = zeros 2 →
      exec (.trestleStatus ring dma) s = .next (answered a (trestleReport s (u p 0 1) (u p 1 1)) w))

/-! ### Configuration and epochs -/

/-- `cfg.stage`, the four subject messages and `cfg.discard`, `cfg.read` (R68 to R70, R78, R79, R103, R185, R205, R214): an
accepted write goes into the staged image and counts; a discard makes the staged image the live one, or the armed one, or
cancels the armed commit; a read answers 36 bytes of report and the bytes asked for. -/
def Obligations.ConfigurationMessages : Prop :=
  ∀ (ring : Nat) (dma : List Byte) (s : State) (h : Hdr) (p : List Byte),
    let a := askerOf ring h s
    let w := consumed ring h s
    let count := (s.cfg.count + 1) % 2 ^ 32
    (Delivered 0x0201 ring dma s h p → p.length = 12 + u p 8 4 → sectionSize (u p 0 2) ≠ 0 → slice p 2 2 = zeros 2 →
      u p 4 4 < sectionSize (u p 0 2) → u p 4 4 + u p 8 4 ≤ sectionSize (u p 0 2) → u p 8 4 ≤ 16340 →
      stageVerdict (u p 0 2) (u p 4 4) (p.drop 12) s.cfg.staged = none →
      exec (.cfgStage ring dma) s = .next (answered a (leBytes 4 count) { w with cfg := { s.cfg with
        staged := if u p 8 4 = 0 then s.cfg.staged else imgWrite s.cfg.staged (u p 0 2) (u p 4 4) (p.drop 12), count := count } })) ∧
    (∀ op sec row, (op, sec, row) ∈ [(0x0C01, 3, Instr.linkConfigure ring dma), (0x0303, 6, .beamElementMap ring dma),
        (0x0401, 7, .dpdConfigure ring dma), (0x0405, 8, .cfrConfigure ring dma)] →
      Delivered op ring dma s h p → p.length = sectionSize sec → stageVerdict sec 0 p s.cfg.staged = none →
      exec row s = .next (answered a (leBytes 4 count) { w with cfg := { s.cfg with
        staged := imgWrite s.cfg.staged sec 0 p, count := count } })) ∧
    (Delivered 0x0203 ring dma s h p → p.length = 4 → u p 0 1 ≤ 1 → slice p 1 3 = zeros 3 →
      (s.cfg.armed = none → exec (.cfgDiscard ring dma) s =
        .next (answered a [] { w with cfg := { s.cfg with staged := s.cfg.live, count := 0 } })) ∧
      (∀ im b, s.cfg.armed = some (im, b) →
        (u p 0 1 = 0 → exec (.cfgDiscard ring dma) s =
          .next (answered a [] { w with cfg := { s.cfg with staged := im, count := 0 } })) ∧
        (u p 0 1 = 1 → nowU s + (msU : Int) ≤ boundaryU b → exec (.cfgDiscard ring dma) s = .next (answered a [] (cancelArmed 4 w)) ∧
          (cancelArmed 4 w).cfg.armed = none ∧ (cancelArmed 4 w).cfg.staged = s.cfg.live ∧ (cancelArmed 4 w).cfg.count = 0 ∧
          (cancelArmed 4 w).cfg.live = s.cfg.live))) ∧
    (Delivered 0x0204 ring dma s h p → p.length = 12 → slice p 1 1 = zeros 1 → u p 4 4 < sectionSize (u p 2 2) →
      u p 8 4 ≤ 16316 → u p 4 4 + u p 8 4 ≤ sectionSize (u p 2 2) →
      ∀ im, ((u p 0 1 = 0 ∧ im = s.cfg.live) ∨ (u p 0 1 = 1 ∧ im = s.cfg.staged) ∨ (u p 0 1 = 2 ∧ ∃ b, s.cfg.armed = some (im, b))) →
      ∃ b, exec (.cfgRead ring dma) s = .next (answered a (b ++ imgBytes im (u p 2 2) (u p 4 4) (u p 8 4)) w) ∧ b.length = 36 ∧
        b.take 8 = leBytes 4 s.cfg.epoch ++ leBytes 4 s.cfg.count)

/-- `cfg.commit` and its boundary (R67, R73 to R75, R276): a commit that passes its checks begins to arm; when arming completes, the
image that was checked is the armed and the staged one, and each enabled bus of a changed RFFE part whose domain is ready has its
program to run; at the boundary it is live under the next epoch number; a timeout changes no image.
That a later staging does not reach the armed image is the model's choice (log 97). -/
def Obligations.CommitArmsAndGoesLive : Prop :=
  (∀ (ring : Nat) (dma : List Byte) (s : State) (h : Hdr) (p : List Byte) (b : Boundary), Delivered 0x0202 ring dma s h p → p.length = 24 →
    u p 0 1 ≤ 1 → slice p 1 3 = zeros 3 → slice p 17 7 = zeros 7 → (u p 0 1 = 0 → u p 16 1 ≤ 39) → commitMode s.pwr.mode = true →
    s.cfg.armed = none → s.cfg.arming = none → (u p 4 4 = 0xFFFFFFFF ∨ u p 4 4 = s.cfg.count) →
    (u p 0 1 = 1 → b = earliestBoundary s.cfg.live s.cfg.staged (nowU s + 2 * (msU : Int))) →
    (u p 0 1 = 0 → b = ⟨u p 8 8, u p 16 1⟩ ∧ nowU s + 2 * (msU : Int) ≤ boundaryU b ∧ boundaryU b ≤ nowU s + 60 * (secU : Int) ∧
      check22 s.cfg.live s.cfg.staged b.quarter = none) →
    firstCheck (checks2to21 s.cfg.live s.cfg.staged (boundaryU b % frameU / tickU).toNat
      (s.rf.txEnable && isService s.pwr.mode && !protectiveEntry s) s.rf.rxEnable) = none →
    (s.pwr.mode = .bringUp → check23 s.cfg.staged = none) →
    exec (.cfgCommit ring dma) s = .next (deferredTo (askerOf ring h s) { consumed ring h s with
      cfg := { s.cfg with arming := some ⟨askerOf ring h s, b, s.tm.raw, s.cfg.staged⟩ } })) ∧
  (∀ (s : State) (a : Asker) (b : Boundary) (r : Nat) (im : Image), s.cfg.arming = some ⟨a, b, r, im⟩ →
    (nowU s ≤ armLimit b → ∃ t, exec .commitArmed s = .next t ∧
      t.cfg = { s.cfg with armed := some (im, b), staged := im, count := 0, arming := none } ∧
      t.rf.rffe = (rffeBuses s.cfg.live im).filter (fun q => s.pwr.ready.getLsbD (12 + q)) ∧
      t = { s with cfg := t.cfg, rf := t.rf, ls := t.ls, ph := t.ph, ev := t.ev, stat := t.stat, out := t.out }) ∧
    (∃ t, exec .commitArmTimeout s = .next t ∧ t.cfg = { s.cfg with arming := none, outcome := 3, lastCheck := 0 } ∧
      t = { s with cfg := t.cfg, tm := t.tm, ph := t.ph, ev := t.ev, out := t.out })) ∧
  (∀ (s : State) (im : Image) (b : Boundary), s.cfg.armed = some (im, b) → ∃ t, exec .commitBoundary s = .next t ∧
    t.cfg.live = im ∧ t.cfg.armed = none ∧ t.cfg.epoch = (if s.cfg.epoch = 0xFFFFFFFF then 1 else s.cfg.epoch + 1) ∧
    t.cfg.outcome = 1 ∧ t.cfg.prev = some (s.cfg.live, b) ∧ t.cfg.staged = s.cfg.staged)

/-! ### Fronthaul ports -/

/-- Link state and messages (R87, R99, R100, R104, R105, R321): an aligned port comes up and is counted, a lost one goes down with
EV_LINK_DOWN, and transmits remote fault while it receives local fault; `link.counters` reports 24 counters and clears them on demand; a
type 5 timeout ends the measurement; a Sync exchange gives its offset to the servo, with the receive timestamp of its Sync where the port has
brought that, or is lost; its Delay_Req takes the line of an idle port, and finds a full timestamp FIFO, which is counted.
FRAME_RECEIVED (R89, Table 4-4): codewords are counted; a frame that fails FEC or FCS, or has a wrong length, is counted and
raised under its own counter and event and goes no further; a port that is not up delivers none.
The state of a fallen port and what its queue held are the model's choice (logs 35, 100). -/
def Obligations.FronthaulPorts : Prop :=
  ((∀ (ring : Nat) (dma : List Byte) (s : State) (h : Hdr) (p : List Byte), Delivered 0x0C02 ring dma s h p → p.length = 4 → u p 0 1 ≤ 7 →
     slice p 1 3 = zeros 3 → ∃ b, exec (.linkStatus ring dma) s = .next (answered (askerOf ring h s) b (consumed ring h s)) ∧ b.length = 48 ∧
       b.take 2 = leBytes 1 (u p 0 1) ++ leBytes 1 (if portExists s (u p 0 1) then (portOf s (u p 0 1)).state else 1)) ∧
   (∀ (ring : Nat) (dma : List Byte) (s : State) (h : Hdr) (p : List Byte), Delivered 0x0C03 ring dma s h p → p.length = 4 → u p 0 1 ≤ 7 →
     slice p 2 2 = zeros 2 → u p 1 1 ≤ 1 → let w := drainPort (u p 0 1) (consumed ring h s)
     ∃ t, exec (.linkCounters ring dma) s = .next (answered (askerOf ring h s)
       (p ++ zeros 4 ++ (List.range 24).flatMap fun k => leBytes 8 (linkCount w (u p 0 1) k)) t) ∧
       ((portOf s (u p 0 1)).queue = [] → (portOf s (u p 0 1)).line = none → w = consumed ring h s) ∧ (u p 1 1 = 0 → t = w) ∧
       (u p 1 1 = 1 → (∀ k < 32, linkCount t (u p 0 1) k = 0) ∧ (∀ n k, n ≠ u p 0 1 → k < 32 → linkCount t n k = linkCount s n k) ∧
         t = { w with fh := { w.fh with count := t.fh.count } })) ∧
   (∀ (s : State) (n : Nat), portExists s n = true → s.pwr.ready.getLsbD 3 = true → (portOf s n).state ≠ 6 →
     s.clk.plls.getLsbD (3 + portHalf s n) = true → ∃ t, exec (.linkUp n) s = .next t ∧
       portOf t n = { portOf s n with
         state := 6, aligned := 2 ^ (lanesOf (portMode s.cfg.live) n).length - 1, remoteFault := false, upCount := ((portOf s n).upCount + 1) % 2 ^ 32,
         changed := nowU s } ∧
       (∀ j, j ≠ n → portOf t j = portOf s j) ∧ t = { s with fh := t.fh, clk := { s.clk with synceSince := t.clk.synceSince } }) ∧
   (∀ (s : State) (n cause : Nat), n < 8 → portUp s n = true → cause ∈ [1, 2, 3, 5] → ∃ t, exec (.linkDown n cause) s = .next t ∧
     (portOf t n).state = (if cause = 1 then 3 else if cause = 2 then 5 else if cause = 3 then 4 else 2) ∧
     (portOf t n).remoteFault = decide (cause = 1 ∨ cause = 3) ∧ (portOf t n).changed = nowU s ∧ (portOf t n).queue = [] ∧
     (portOf t n).upCount = (portOf s n).upCount ∧ t.ev.status.getLsbD (16 + n) = true ∧ (∀ j, j ≠ n → portOf t j = portOf s j)) ∧
   (∀ (s : State) (n : Nat), let w := drainPort n s
     ((portOf w n).meas.isSome = true → exec (.type5ResponseTimeout n) s = .next (setPort n { portOf w n with meas := none } w)) ∧
     ((portOf w n).meas = none → exec (.type5ResponseTimeout n) s = .next w)) ∧
   (∀ (s : State) (n : Nat) (t1 t2 t3 t4 : Instant), svSource s = 1 → s.tm.master.port = some n → (u s.tm.settings 3 1).testBit n = true →
     portUp s n = true →
     let v := drainPort n s
     let r2 := (portOf v n).ptpRx.getD t2
     (∀ lost, lost = true ∨ 64 ≤ (portOf v n).txStamps.length → ∃ t, exec (.ptpSyncExchange n t1 t2 t3 t4 lost) s = .next t ∧
       t.tm = s.tm ∧ (portOf t n).ptpRx = none) ∧
     ((portOf v n).txStamps.length < 64 → ∃ w : State, exec (.ptpSyncExchange n t1 t2 t3 t4 false) s =
       .next (servoMeasure (ptpOffset s n t1 r2 t3 t4).1 { w with tm := { s.tm with meanDelay := (ptpOffset s n t1 r2 t3 t4).2 } }) ∧
       (portOf w n).ptpRx = none ∧ (∀ j, j ≠ n → portOf w j = portOf s j) ∧ linkCount w n 22 = (linkCount s n 22 + 1) % 2 ^ 64 ∧
       w.dl = s.dl ∧ w.pwr = s.pwr ∧ w.cfg = s.cfg ∧ w.clk = s.clk ∧ w.rf = s.rf) ∧
     (let start := max (portOf s n).busy (min t3 (nowU s))
      let f := formed (imageAt s start) n (delayReqFrame s n (min t3 (nowU s)))
      (portOf s n).queue = [] → (portOf s n).kept = [] → (portOf s n).line = none → start ≤ nowU s →
      nowU s < start + lineU s (f.length + 12) → ∀ lost, ∃ t, exec (.ptpSyncExchange n t1 t2 t3 t4 lost) s = .next t ∧
        (portOf t n).line = some ⟨noFlow, f, start + lineU s (f.length + 12)⟩ ∧
        (64 ≤ (portOf s n).txStamps.length → linkCount t n 23 = (linkCount s n 23 + 1) % 2 ^ 64 ∧ t.ev.status.getLsbD 28 = true)))) ∧
  (∀ (s : State) (n : Nat) (f : List Byte) (x : RxCheck), n < 8 → portExists s n = true → s.pwr.ready.getLsbD 3 = true →
     let w := countLink n 4 x.uncorrectable (countLink n 3 x.corrected s)
     ((portOf s n).state ≠ 6 → exec (.frameReceived n f x) s = .next w) ∧
     (∀ k c, k < 32 → linkCount (countLink n k c s) n k = (linkCount s n k + c) % 2 ^ 64 ∧
       ∀ m j, j < 32 → (m, j) ≠ (n, k) → linkCount (countLink n k c s) m j = linkCount s m j) ∧
     ((portOf s n).state = 6 → x.fecOk = false → ∃ t, exec (.frameReceived n f x) s = .next t ∧ t.fh = w.fh ∧
       t.ev.status.getLsbD 24 = true ∧ t.dl = s.dl ∧ t.tm = s.tm) ∧
     ((portOf s n).state = 6 → x.fecOk = true → x.fcsOk = false → ∃ t, exec (.frameReceived n f x) s = .next t ∧
       t.fh = (countLink n 2 1 w).fh ∧ t.ev.status.getLsbD 25 = true ∧ t.dl = s.dl ∧ t.tm = s.tm) ∧
     ((portOf s n).state = 6 → x.fecOk = true → x.fcsOk = true → f.length < 64 → ∃ t, exec (.frameReceived n f x) s = .next t ∧
       t.fh = (countLink n 7 1 w).fh ∧ t.ev.status.getLsbD 24 = true ∧ t.dl = s.dl ∧ t.tm = s.tm) ∧
     ((portOf s n).state = 6 → x.fecOk = true → x.fcsOk = true → exec (.frameReceived n f x) s = .next (classify n f w)))

/-! ### Linearisation -/

/-- Banks (R217, R219, R221, R222): a bank write fills shadow banks alone and may request their commit; at the boundary the
shadow banks of the commit become live, no other; a persist is a long operation whose end writes record 0x0401, which keeps its copy in force where the write is cut short or its lease revoked. -/
def Obligations.BanksWrittenAndCommitted : Prop :=
  (∀ (ring : Nat) (dma : List Byte) (s : State) (h : Hdr) (p : List Byte) (w : State), Delivered 0x0402 ring dma s h p →
    p.length = 16 + 392 * u p 0 2 → u p 0 2 ≤ 41 → u p 2 1 = 0 → u p 3 1 ≤ 1 → slice p 4 12 = zeros 12 →
    firstBad ((List.range (u p 0 2)).flatMap (bankRecChecks p)) = none → bankMode s.pwr.mode = true →
    (∀ r < u p 0 2, (tget {} s.lin.adapt (bankRecKey p r)).state ≠ 1 ∧ frozen s (bankRecKey p r) = false) →
    accessDomain 8 (consumed ring h s) = some w → ∃ t b, exec (.dpdBankWrite ring dma) s =
      .next (answered (askerOf ring h s) (leBytes 2 (u p 0 2) ++ b) t) ∧ b.length = 22 ∧
      (∀ r < u p 0 2, tget [] t.lin.shadow (bankRecKey p r) = bankRec p r) ∧
      (∀ k, (∀ r < u p 0 2, bankRecKey p r ≠ k) → tget [] t.lin.shadow k = tget [] s.lin.shadow k) ∧
      t = { w with lin := { w.lin with shadow := t.lin.shadow, commits := t.lin.commits } } ∧
      (u p 3 1 = 0 → t.lin.commits = w.lin.commits) ∧
      (u p 3 1 = 1 → u p 0 2 ≠ 0 → ∃ at_, t.lin.commits = w.lin.commits ++ [⟨(List.range (u p 0 2)).map (bankRecKey p), at_, true⟩])) ∧
  (∀ (s : State) (c : BankCommit), firstCommit s.lin.commits = some c → ∃ t, exec .bankCommit s = .next t ∧
    (∀ k ∈ c.pairs, tget [] t.lin.live k = tget [] s.lin.shadow k) ∧ (∀ k, k ∉ c.pairs → tget [] t.lin.live k = tget [] s.lin.live k) ∧
    t.lin.shadow = s.lin.shadow ∧ t.lin.commits = s.lin.commits.erase c ∧ t.ev.status.getLsbD 84 = true ∧ t.cfg = s.cfg ∧ t.pwr = s.pwr) ∧
  (∀ (ring : Nat) (dma : List Byte) (s : State) (h : Hdr) (p : List Byte), Delivered 0x0404 ring dma s h p → p.length = 4 →
    slice p 0 4 = zeros 4 → longRunning .bankPersist s = false → recordBusy 0x0401 s = false → ∀ w,
    accessDomain 2 (consumed ring h s) = some w →
    exec (.dpdBankPersist ring dma) s = .next (acceptedLong .bankPersist (askerOf ring h s) w)) ∧
  (∀ s : State, longRunning .bankPersist s = true → longRunning .cataloguePersist s = false → s.lin.commits = [] → s.nvm.jobs = [] →
    s.nvm.ended = [] → s.ls.bad = [] →
    (∃ v, exec (.bankPersistComplete .done) s = .next (finishLong .bankPersist 0 0 (leBytes 4 (nextWrite s 0x0401).2 ++ zeros 4) v) ∧
      (bankRecordBytes s).length = 298048 ∧ recordData v 0x0401 = some (bankRecordBytes s) ∧
      (∀ id, id ≠ 0x0401 → inForce v id = inForce s id) ∧ v.lin = s.lin ∧ v.nvm.jobs = []) ∧
    (∃ v, exec (.bankPersistComplete .cutShort) s = .next (finishLong .bankPersist 0x19 0 [] v) ∧
      inForce v 0x0401 = inForce s 0x0401 ∧ v.lin = s.lin ∧ v.nvm.jobs = []) ∧
    ((leaseOf s 0).free = none → ∃ v, exec (.bankPersistComplete .leaseRevoked) s = .next (finishLong .bankPersist 0x1A 0 [] v) ∧
      inForce v 0x0401 = inForce s 0x0401 ∧ v.lin = s.lin ∧ v.nvm.jobs = [] ∧ v.ev.status.getLsbD 208 = true))

/-- `dpd.adapt_control` and ADAPTATION_SOLUTION (R227 to R229, R239, R254): a start or stop sets the state of every named pair, no other;
a solution in range from the samples of a capture fills the shadow bank and requests its commit; one out of range faults with cause 2; a poisoned one is retried
once and then faults with cause 1; the run that ended poisoned on the path's core poisons the next solution of a path of that core.
That a solution moves the live bank by the damping is the model's choice (log 41). -/
def Obligations.AdaptationRows : Prop :=
  (∀ (ring : Nat) (dma : List Byte) (s : State) (h : Hdr) (p : List Byte), Delivered 0x0403 ring dma s h p → p.length = 16 →
    1 ≤ u p 1 1 → 1024 ≤ u p 2 2 → u p 2 2 ≤ 16384 → u p 2 2 % 1024 = 0 → u p 6 1 ≤ 30 → slice p 7 1 = zeros 1 →
    let keys := maskPairs (u p 8 8) (u p 4 2)
    (u p 0 1 ≤ 1 → (u p 0 1 = 1 → isOperate s.pwr.mode = true) → ∃ t, exec (.dpdAdaptControl ring dma) s =
      .next (answered (askerOf ring h s) [] t) ∧ t = { consumed ring h s with lin := { s.lin with adapt := t.lin.adapt } } ∧
      (∀ k ∈ keys, (tget {} t.lin.adapt k).state = u p 0 1 ∧ (tget {} t.lin.adapt k).cause = 0 ∧
        (tget {} t.lin.adapt k).commits = (tget {} s.lin.adapt k).commits ∧
        (u p 0 1 = 1 → (tget {} t.lin.adapt k).damping = u p 1 1 ∧ (tget {} t.lin.adapt k).length = u p 2 2 ∧
          (tget {} t.lin.adapt k).atten = u p 6 1)) ∧
      (∀ k, k ∉ keys → tget {} t.lin.adapt k = tget {} s.lin.adapt k)) ∧
    (u p 0 1 = 2 → keys = [] → exec (.dpdAdaptControl ring dma) s = .next (answered (askerOf ring h s) [] (consumed ring h s))) ∧
    (∀ k ks w, u p 0 1 = 2 → keys = k :: ks → accessDomain 8 (consumed ring h s) = some w →
      exec (.dpdAdaptControl ring dma) s = .next (answered (askerOf ring h s) (adaptReport w k) w))) ∧
  (∀ (s : State) (path cls ovf : Nat) (cs : List IQ), path < 64 → cls < 16 → bureauRuns s = true →
    let key := bankKey path cls
    let a := tget {} s.lin.adapt key
    let end_ := (tget {} s.core (path / 8)).vendorEnd
    a.state = 1 → a.paused = false → a.inputs ≠ [] →
    (end_ = none → (∀ c ∈ cs, -131072 ≤ c.1 ∧ c.1 ≤ 131071 ∧ -131072 ≤ c.2 ∧ c.2 ≤ 131071) → frozen s key = false → ∃ t,
      exec (.adaptationSolution path cls false ovf cs) s = .next t ∧ tget [] t.lin.shadow key = dampedBank a.damping (tget [] s.lin.live key) cs ∧ frozen t key = true ∧
      t.lin.live = s.lin.live ∧ (∀ k, k ≠ key → tget [] t.lin.shadow k = tget [] s.lin.shadow k) ∧
      (∀ j, tget {} t.core j = tget {} s.core j) ∧ t = { s with lin := t.lin, core := t.core }) ∧
    (∀ trapped o, end_ = some (trapped, o) → a.retried = false → ∃ t, exec (.adaptationSolution path cls false ovf cs) s = .next t ∧
      tget {} t.lin.adapt key = { a with retried := true } ∧ (tget {} t.core (path / 8)).vendorEnd = none ∧
      t.lin.shadow = s.lin.shadow ∧ (trapped = false → t.ev.status.getLsbD 98 = true)) ∧
    (end_ = none → (∃ c ∈ cs, c.1 < -131072 ∨ 131071 < c.1 ∨ c.2 < -131072 ∨ 131071 < c.2) → ∃ t, exec (.adaptationSolution path cls false ovf cs) s = .next t ∧
      (tget {} t.lin.adapt key).state = 2 ∧ (tget {} t.lin.adapt key).cause = 2 ∧ t.lin.shadow = s.lin.shadow ∧ t.ev.status.getLsbD 80 = true) ∧
    (a.retried = false → ∃ t, exec (.adaptationSolution path cls true ovf cs) s = .next t ∧ tget {} t.lin.adapt key = { a with retried := true } ∧
      t.lin.shadow = s.lin.shadow ∧ t.ev.status.getLsbD 98 = true) ∧
    (a.retried = true → ∃ t, exec (.adaptationSolution path cls true ovf cs) s = .next t ∧ (tget {} t.lin.adapt key).state = 2 ∧
      (tget {} t.lin.adapt key).cause = 1 ∧ t.lin.shadow = s.lin.shadow ∧ t.ev.status.getLsbD 98 = true ∧ t.ev.status.getLsbD 80 = true))

/-- Captures (R14, R223 to R226, R254, R261): a plan replaces the one before; an occurrence that no condition of Table 9-8 stops starts its
capture, its record in state 1, its ORx at the path's selector input and the entry's attenuation; a complete one leaves its record in
capture memory, each sample the path's DPD input and the ORx word, which is zero where it failed parity, and touches no other byte; one of an
adaptation leaves its solution every k-th sample, at most 4,096.
Precedence and the adaptation's region are logs 19 and 41. -/
def Obligations.CapturesRunAndStore : Prop :=
  (∀ (ring : Nat) (dma : List Byte) (s : State) (h : Hdr) (p : List Byte), Delivered 0x0406 ring dma s h p →
    p.length = 16 + 48 * u p 0 2 → u p 0 2 ≤ 64 → slice p 2 14 = zeros 14 →
    firstBad ((List.range (u p 0 2)).flatMap (planChecks s.cfg.live p)) = none →
    (∀ e < u p 0 2, ∀ d < e, regionsMeet (planEntry p d) (planEntry p e) = false) →
    exec (.capturePlan ring dma) s = .next (answered (askerOf ring h s) [] { consumed ring h s with
      lin := { s.lin with plan := (List.range (u p 0 2)).map (planEntry p), planFrom := nowU s + (msU : Int), taken := [] } })) ∧
  (∀ (s : State) (n : Nat) (e : PlanEntry) (sym : SymName), s.lin.plan[n]? = some e → occursIn e sym.frame = true →
    e.subframe = sym.subframe → e.slot = sym.slot → e.symbol = sym.symbol → s.lin.caps = [] → isService s.pwr.mode = true →
    let im := classImage s sym
    let start := airOf (classMu im) sym + tk e.tick
    let w := advanceTo start s
    s.lin.planFrom ≤ start → (classCarrier (imageAt s start)).isSome = true → (e.clsFilter = 0xFF ∨ e.clsFilter = classAt w start) →
    s.pwr.ready.getLsbD (12 + orxOf e.path / 2) = true → txHeld w (orxOf e.path / 2) = false →
    lowerConflict w im n (orxOf e.path) start e.length sym.frame = false → e.length ≠ 0 →
    ∃ t c, exec (.captureOccurrence (.host n) sym e.tick) s = .next t ∧ t.lin.caps = [c] ∧ c.src = .host n ∧ c.path = e.path ∧
      c.start = start ∧ c.length = e.length ∧ c.cls = classAt w start ∧ c.taken = (tget 0 s.lin.taken n + 1) % 2 ^ 32 ∧
      tget 0 t.lin.orx (orxOf e.path) = selOf e.path * 32 + e.atten ∧ tget 0 t.lin.capMem (0x300000 + e.region) = 1 ∧
      (∀ o, (o < 0x300000 + e.region ∨ 0x300000 + e.region + 60 ≤ o) → tget 0 t.lin.capMem o = tget 0 s.lin.capMem o) ∧
      t = { s with lin := t.lin, ls := t.ls, tm := t.tm }) ∧
  (∀ (s : State) (p k tick : Nat) (sym : SymName), p < 64 → k < 16 → (tget {} s.lin.adapt (bankKey p k)).state = 1 →
    (tget {} s.lin.adapt (bankKey p k)).paused = false → (∀ d ∈ s.lin.caps, d.src ≠ .adapt p k) →
    ∃ t, exec (.captureOccurrence (.adapt p k) sym tick) s = .next t ∧ t.lin.plan = s.lin.plan ∧ t.lin.live = s.lin.live ∧
      t.lin.shadow = s.lin.shadow) ∧
  (∀ (s : State) (src : CaptureSrc) (c : Capturing) (run : OrxRun), s.lin.caps.find? (fun d => decide (d.src = src)) = some c →
    let w := advanceTo (c.start + tk c.length) s
    ∃ t, exec (.captureComplete src run) s = .next t ∧ t.lin.caps = s.lin.caps.filter (fun d => decide (d ≠ c)) ∧
      tget 0 t.lin.capMem c.region = 2 ∧
      tgetList 0 t.lin.capMem (c.region + 64) (8 * c.length) = capBytes c (capInput w c (tickOf c.start + c.length)) run ∧
      (∀ o, (o < c.region ∨ c.region + 64 + 8 * c.length ≤ o) → tget 0 t.lin.capMem o = tget 0 s.lin.capMem o) ∧
      (∀ p k, src = .adapt p k → (tget {} t.lin.adapt (bankKey p k)).inputs =
        solutionInputs c (capInput w c (tickOf c.start + c.length)) run) ∧
      t.lin.plan = s.lin.plan ∧ t.lin.live = s.lin.live ∧ t.lin.shadow = s.lin.shadow) ∧
  (∀ (c : Capturing) (input : List IQ) (run : OrxRun), (solutionInputs c input run).length ≤ 4096 ∧ ∀ n, n * solutionStep c.length < c.length →
    (solutionInputs c input run)[n]? = some (input.getD (n * solutionStep c.length) (0, 0),
      if n * solutionStep c.length ∈ run.parity then (0, 0) else run.codes.getD (n * solutionStep c.length) (0, 0))) ∧
  (∀ (c : Capturing) (input : List IQ) (run : OrxRun), (capBytes c input run).length = 8 * c.length ∧ ∀ k < c.length,
    u (capBytes c input run) (8 * k + 4) 4 = if k ∈ run.parity then 0 else orxWord (selOf c.path) (run.codes.getD k (0, 0)))

/-- The predistorter and the stages before it (R209, R212, R214): with a bank of zeros a path's output is its own input, whatever the
basis and its neighbours; a bypassed path has no basis and passes its input; CFR without stages and clip passes what fits 16 bits, and
what CFR gives always fits. A sample word (R14) holds the 14-bit code left-justified, the two low bits of each half zero. -/
def Obligations.ZeroBankPassesTheInput : Prop :=
  (∀ (depth n : Nat) (terms : List (Nat × Nat × Nat × Nat)) (own : Nat → IQ) (nb : Nat → Nat → Option IQ),
    dpdSum depth terms (List.replicate n (0, 0)) own nb [] = own 0) ∧
  (∀ (s : State) (p : Nat) (t : Instant) (v : DpdView) (ws : List (Nat × Array IQ)) (a n : Int), bankAt s p (classAt s t) t = [] →
    dpdView s p t = some v → dpdAt (some v) ws a p [] n = sampleOf ws a p n) ∧
  (∀ (s : State) (p : Nat) (t : Instant), 3 < basisSet (imageAt s t) p → dpdView s p t = none ∧
    ∀ ws a err n, dpdAt none ws a p err n = sampleOf ws a p n) ∧
  (∀ (plan : Int → CfrPlan) (a : Int) (xs : List IQ), (∀ t, plan t = ⟨[], none, #[]⟩) → (∀ x ∈ xs, satIQ 16 x = x) →
    (cfrRun plan a xs).out = xs ∧ (cfrRun plan a xs).peaks = []) ∧
  (∀ (plan : Int → CfrPlan) (a : Int) (xs : List IQ), ∀ y ∈ (cfrRun plan a xs).out,
    (-32768 ≤ y.1 ∧ y.1 ≤ 32767) ∧ (-32768 ≤ y.2 ∧ y.2 ≤ 32767)) ∧
  (∀ c : IQ, wordCode (sampleWord (satIQ 14 c)) = satIQ 14 c ∧
    ∀ k ∈ [0, 1, 16, 17], (sampleWord (satIQ 14 c)).getLsbD k = false)

/-! ### Beamforming -/

/-- The Cabinet (R193 to R195): an accepted catalogue write waits for the port; its entries wait for the boundary and become
live at it together, every other entry unchanged; a persist is a long operation whose end writes record 0x0301. WEIGHT_CLAIM
(R197): the region of the carrier in the slot's bank is claimed for the slot and empty, where no delivery waits; every other
vector is unchanged. A delivery (R198, R125) fills an empty vector of the claim, makes a filled one invalid, and touches no other.
The instant of the answer is deduced (log 36). -/
def Obligations.CabinetAndClaim : Prop :=
  ((∀ (ring : Nat) (dma : List Byte) (s : State) (h : Hdr) (p : List Byte), Delivered 0x0301 ring dma s h p →
     p.length = 16 + 296 * u p 0 2 → u p 0 2 ≤ 55 → slice p 2 14 = zeros 14 →
     cabFirst p (consumed ring h s) (List.range (u p 0 2)) = none → longRunning .cataloguePersist s = false →
     (u p 0 2 = 0 → exec (.beamCatalogueWrite ring dma) s = .next (answered (askerOf ring h s) (zeros 24) (consumed ring h s))) ∧
     (∀ w, u p 0 2 ≠ 0 → accessDomain 5 (consumed ring h s) = some w → ∃ t, exec (.beamCatalogueWrite ring dma) s =
       .next (deferredTo (askerOf ring h s) t) ∧
       t.bf = { w.bf with writes := w.bf.writes ++ [⟨askerOf ring h s, (List.range (u p 0 2)).map (cabRecord p)⟩] } ∧
       t = { w with bf := t.bf, ls := t.ls })) ∧
   (∀ (s : State) (q : CabWrite) (qs : List CabWrite), s.bf.writes = q :: qs → ∃ t, exec .cabinetWriteComplete s = .next t ∧
     t.bf.writes = qs ∧ t.bf.cabinet = s.bf.cabinet ∧ t.bf.waiting.length ≤ Nat.max 512 s.bf.waiting.length ∧
     (s.bf.waiting.length + q.records.length ≤ 512 → ∀ r ∈ q.records, ∃ x ∈ t.bf.waiting, x.2.1 = r.1)) ∧
   (∀ (s : State) (b : Boundary), firstWaiting s = some b → ∃ t, exec .cabinetBoundary s = .next t ∧
     t.bf.waiting = s.bf.waiting.filter (fun x => decide (x.1 ≠ b)) ∧ t.bf.liveAt = b ∧
     (∀ x ∈ s.bf.waiting, x.1 = b → ∃ y ∈ s.bf.waiting, y.1 = b ∧ y.2.1 = x.2.1 ∧ cabOf t x.2.1 = y.2.2) ∧
     (∀ e, (∀ x ∈ s.bf.waiting, x.1 = b → x.2.1 ≠ e) → cabOf t e = cabOf s e) ∧
     t = { s with bf := t.bf, tm := t.tm, ls := { s.ls with bad := t.ls.bad } } ∧ ∀ h ∈ t.ls.bad, h ∈ s.ls.bad) ∧
   (∀ (ring : Nat) (dma : List Byte) (s : State) (h : Hdr) (p : List Byte), Delivered 0x0302 ring dma s h p → p.length = 4 →
     slice p 0 4 = zeros 4 → longRunning .cataloguePersist s = false → recordBusy 0x0301 s = false → ∀ w,
     accessDomain 2 (consumed ring h s) = some w →
     exec (.beamCataloguePersist ring dma) s = .next (acceptedLong .cataloguePersist (askerOf ring h s) w)) ∧
   (∀ s : State, longRunning .cataloguePersist s = true → longRunning .bankPersist s = false → s.bf.waiting = [] → s.bf.writes = [] →
     s.nvm.jobs = [] → s.nvm.ended = [] → s.ls.bad = [] →
     (∃ b v, exec (.cataloguePersistComplete .done) s = .next (finishLong .cataloguePersist 0 0 (leBytes 4 (nextWrite s 0x0301).2 ++ b) v) ∧
       b.length = 20 ∧ recordData v 0x0301 = some (cabinetRecord s) ∧ (∀ id, id ≠ 0x0301 → inForce v id = inForce s id) ∧
       v.bf = s.bf ∧ v.nvm.jobs = []) ∧
     (∃ v, exec (.cataloguePersistComplete .cutShort) s = .next (finishLong .cataloguePersist 0x19 0 [] v) ∧
       inForce v 0x0301 = inForce s 0x0301 ∧ v.bf = s.bf ∧ v.nvm.jobs = []))) ∧
  (∀ (s : State) (ul : Bool) (c frame slot : Nat) (im : Image), claimImage s ul c frame slot = some im → s.pwr.ready.getLsbD 5 = true →
     s.dl.buffer = [] →
     let m := slotCountOf (ccMu im ul c) frame slot
     let reg := regionOf im ul c
     ∃ t, exec (.weightClaim ul c frame slot) s = .next t ∧
       (∀ k < reg.2, tget {} t.bf.vec (vecKey ul (m % 2) (reg.1 + k)) =
         { claim := some (c, m), ends := slotStart (ccMu im ul c) (m + 1), state := 0, data := [],
           past := (tget {} t.bf.vec (vecKey ul (m % 2) (reg.1 + k))).past }) ∧
       (∀ key, (∀ k < reg.2, vecKey ul (m % 2) (reg.1 + k) ≠ key) → tget {} t.bf.vec key = tget {} s.bf.vec key) ∧
       t = { s with bf := { s.bf with vec := t.bf.vec, claimed := t.bf.claimed }, stat := t.stat, tm := t.tm }) ∧
  (∀ (s : State) (ul : Bool) (c m : Nat) (x : Section) (reg : Nat × Nat) (k : Nat),
     let v := u x.head 0 2 + k
     let key := vecKey ul (m % 2) v
     let w := tget {} s.bf.vec key
     let t := applyVector ul c m x reg s k
     (∀ j, j ≠ key → tget {} t.bf.vec j = tget {} s.bf.vec j) ∧
     (reg.1 ≤ v → v < reg.1 + reg.2 → w.claim = some (c, m) →
       (w.state = 0 → (⟨3, ul, c, 0, x.sym.frame, m % slotsPerFrame (ccMu (imageAt s x.air) ul c), 0, v⟩ : Item) ∉ s.dl.invalid →
         tget {} t.bf.vec key = { w with state := 1, data := slice x.payload (256 * k) 256, past := pastOf s w }) ∧
       (w.state = 1 → tget {} t.bf.vec key = { w with state := 2, data := [], past := pastOf s w }) ∧ (w.state = 2 → t = s)) ∧
     (v < reg.1 ∨ reg.1 + reg.2 ≤ v ∨ w.claim ≠ some (c, m) → tget {} t.bf.vec key = w))

/-! ### Sections, downlink and uplink -/

/-- Frame IDs (R110): an ID resolves to the frame with that number modulo 65,536 from 32,768 frames before to 32,767 after the
arrival's frame, and no other frame does; a section that the device sends carries its frame modulo 65,536. -/
def Obligations.FrameIdsResolve : Prop :=
  (∀ (id : Nat) (t : Instant),
    (resolveFrame id t % 65536 = (id : Int) % 65536 ∧ frameOf t - 32768 ≤ resolveFrame id t ∧ resolveFrame id t ≤ frameOf t + 32767) ∧
    ∀ f : Int, f % 65536 = (id : Int) % 65536 → frameOf t - 32768 ≤ f → f ≤ frameOf t + 32767 → f = resolveFrame id t) ∧
  (∀ (t : Instant), frameOf t * (frameU : Int) ≤ t ∧ t < (frameOf t + 1) * (frameU : Int)) ∧
  ∀ (f : Flow) (h : UlHead) (payload : List Byte) (n m k : Nat), u (fragmentMessage f h payload n m k) 2 2 = h.sym.frame % 65536

/-- SECTION_PARSE and SECTION_USABLE (R21, R26, R92, R94, R131, R139): the parser takes the oldest message of a port; one without a
governing flow is dropped and counted; a section inside its window is stored, a late one is counted and raised; a read-back that
holds makes it usable, one that fails makes it fail as a whole, with EV_SECTION_CRC. A single-bit error is counted with EV_SRAM_SEC and the section goes on; a
double-bit error is counted with EV_SRAM_DED; a data
section whose header is sound keeps what the words struck do not hold, any other fails. -/
def Obligations.SectionsParsedAndUsable : Prop :=
  (∀ (s : State) (n : Nat) (q : Ingress) (qs : List Ingress), n < 8 → s.pwr.ready.getLsbD 3 = true → (portOf s n).fifo = q :: qs →
    ∃ t, exec (.sectionParse n) s = .next t ∧ portOf t n = { portOf s n with fifo := qs } ∧ (∀ j, j ≠ n → portOf t j = portOf s j) ∧
      t.cfg = s.cfg ∧ t.bf = s.bf ∧
      (governingFlow s q.pcId (fitBytes 8 q.bytes) q.arrival = none → linkCount t n 10 = (linkCount s n 10 + 1) % 2 ^ 64 ∧
        t.ev.status.getLsbD 24 = true)) ∧
  (∀ (s : State) (im : Image) (f : Flow) (n typ : Nat) (name : SymName) (air arr : Instant) (hd pl : List Byte), fieldError im f typ name hd = none →
    let win := imageAt s air
    let t := parseSection im f n typ name air arr hd pl s
    (air - winClose win n * (usU : Int) ≤ arr → air - winOpen win n * (usU : Int) ≤ arr → t.dl = s.dl ∧ t.ev.status.getLsbD 32 = true ∧
      statGet 0x10 f.idx 2 t = satAdd 0xFFFFFFFF (statGet 0x10 f.idx 2 s) 1) ∧
    (air - winOpen win n * (usU : Int) ≤ arr → arr < air - winClose win n * (usU : Int) → s.dl.buffer = [] →
      hd.length + pl.length ≤ 16777216 → ∃ x, t.dl = { s.dl with buffer := [x], nextId := s.dl.nextId + 1 } ∧ x.id = s.dl.nextId ∧
        x.flow = f.idx ∧ x.sym = name ∧ x.air = air ∧ x.head = hd ∧ x.payload = pl ∧ x.usable = false)) ∧
  (∀ (s : State) (id : Nat) (x : Section), s.dl.buffer.find? (fun y => decide (y.id = id) && !y.failed) = some x →
    let put (y : Section) : List Section := s.dl.buffer.map fun z => if z.id = id then y else z
    let gone (y : Section) : Section := { y with usable := false, failed := true, payload := [] }
    (∀ ok ws, ws ≠ [] → ∃ t, exec (.sectionUsable id ok (ws.map fun w => (w, true))) s = .next t ∧ t.ev.status.getLsbD 209 = true ∧
      (x.struck = [] → t.ev.status.getLsbD 33 = true) ∧
      ((x.stype ≠ 1 ∨ ∃ w ∈ ws, 8 * w < x.head.length) → t.dl.buffer = put (gone { x with struck := x.struck ++ ws })) ∧
      (x.stype = 1 → (∀ w ∈ ws, x.head.length ≤ 8 * w) → ok = true → x.usable = true →
        t.dl.buffer = put { x with struck := x.struck ++ ws })) ∧
    (∀ a, x.usable = true → ∃ t, exec (.sectionUsable id true [(a, false)]) s = .next t ∧ t.dl = s.dl ∧ t.ev.status.getLsbD 210 = true) ∧
    (∃ t, exec (.sectionUsable id false []) s = .next t ∧ t.dl.buffer = put (gone x) ∧ (x.struck = [] → t.ev.status.getLsbD 33 = true)) ∧
    (x.usable = false → ∃ t, exec (.sectionUsable id true []) s = .next t ∧ (∃ y ∈ t.dl.buffer, y.id = id ∧ y.usable = true) ∧
      (x.stype ≠ 3 → t.dl.buffer = put { x with usable := true })))

/-- DL_SYMBOL_RELEASE, DL_PLAYOUT and DPD_CLASS_SWITCH (R20, R136, R137, R151, R152, R213, R218, R258, R268, R342): a played symbol is
released once, its data sections leave the buffer; from its start a path plays it with the ticks that underflow or fail on the bridge and
the errors put into its products and sums, each counted and raised, beside those that symbols of other carriers left unsent; what a path sends are the words of its ticks, zero in a silence, where no sample
was there, and where parity failed. The class of the symbol takes over at its air time, and the attenuations decided since with it.
The instants at which samples are handed over are the model's choice (log 20), and reports come at release and playout (log 73). -/
def Obligations.DownlinkRows : Prop :=
  (∀ (s : State) (sym : SymName) (f : DlFaults) (im : Image), releaseImage s sym = some im → s.pwr.ready.getLsbD 3 = true →
    let air := airOf (ccMu im false sym.carrier) sym
    let w := advanceTo (air - tk pipeTicks) s
    (playsSymbol w air = false → exec (.dlSymbolRelease sym f) s = .next (dropData sym air w)) ∧
    (playsSymbol w air = true → ∃ t, exec (.dlSymbolRelease sym f) s = .next t ∧
      (∃ r, t.dl.released.getLast? = some r ∧ r.sym = sym ∧ r.air = air ∧ r.played = [] ∧ r.zeros = f.parity) ∧
      (∀ x ∈ t.dl.buffer, ¬(x.stype = 1 ∧ x.sym = sym ∧ x.air = air)) ∧ t.pwr = s.pwr ∧ t.cfg = s.cfg)) ∧
  (∀ (s : State) (path : Nat) (sym : SymName) (r : Released) (gaps lost : List Nat) (errs : List DpdFault),
    s.dl.released.find? (fun x => decide (x.sym = sym) && decide (path ∉ x.played)) = some r → path < 64 → isService s.pwr.mode = true →
    let w := sendUpTo path (tickOf r.air) (advanceTo (r.air - delayU s (imageAt s r.air) false path - tk 768) s)
    ∃ t, exec (.dlPlayout path sym gaps lost errs) s = .next t ∧ (∀ x ∈ t.dl.released, x.sym = sym → x.air = r.air → path ∈ x.played) ∧
      tget none t.dl.playing path = some (playFrom (tickOf r.air) gaps lost errs (tget none w.dl.playing path)) ∧
      (gaps ≠ [] → (∀ x ∈ s.dl.silence, x.mute = true) → t.ev.status.getLsbD 115 = true) ∧
      (lost ≠ [] → t.ev.status.getLsbD 112 = true) ∧
      ((∃ e ∈ errs, e.received = true ∨ struckValue (0, 0) e.err = true) → t.ev.status.getLsbD 81 = true ∧
        ∀ x ∈ t.dl.released, x.sym = sym → x.air = r.air → path ∈ x.marked) ∧
      t.dl.buffer = s.dl.buffer ∧ t.pwr = s.pwr ∧ t.cfg = s.cfg) ∧
  (∀ (a : Int) (gaps lost : List Nat) (errs : List DpdFault) (g : Option Playing),
    let x := playFrom a gaps lost errs g
    (∀ k ∈ gaps, a + k ∈ x.gaps) ∧ (∀ k ∈ lost, a + k ∈ x.lost) ∧ (∀ e ∈ errs, (a + e.tick, e) ∈ x.errs) ∧
      ∀ y, g = some y → y.upTo ≤ x.upTo ∧ (∀ t ∈ y.gaps, y.upTo ≤ t → t ∈ x.gaps) ∧ (∀ t ∈ y.lost, y.upTo ≤ t → t ∈ x.lost) ∧
        ∀ e ∈ y.errs, y.upTo ≤ e.1 → e ∈ x.errs) ∧
  (∀ (s : State) (path : Nat) (t : Int) (g : Playing) (a b : Int), tget none s.dl.playing path = some g → heldFrom s = some a →
    heldTo s = some b → max g.upTo a < min t b → ∃ rest, (sendUpTo path t s).out = s.out ++
      [.dac path (max g.upTo a) (playedOver s path g (max g.upTo a) (min t b - max g.upTo a).toNat).words] ++ rest) ∧
  (∀ (s : State) (path : Nat) (g : Playing) (a : Int) (n k : Nat), k < n →
    (a + k ∈ g.gaps ∨ a + k ∈ g.lost ∨ ∃ x ∈ s.dl.silence, x.holds path (delayU s (imageAt s (a * tickU)) false path) (a + k) = true) →
    (playedOver s path g a n).words[k]? = some 0) ∧
  (∀ (s : State) (sym : SymName) (im : Image), switchImage s sym = some im → classCarrier im = some sym.carrier →
    let air := airOf (ccMu im false sym.carrier) sym
    let w := applyAtten { advanceTo air s with dl := { s.dl with switched := some air } }
    (∀ p < 64, tget 40 w.rf.atten p = wantedAtten s p) ∧
    (playsSymbol s air = false → exec (.dpdClassSwitch sym) s = .next w) ∧
    (∀ r, playsSymbol s air = true → s.dl.released.find? (fun x => decide (x.sym = sym)) = some r →
      ∃ t, exec (.dpdClassSwitch sym) s = .next t ∧ t.dl.cls = r.cls ∧ t.rf = { w.rf with resume := 0, level := t.rf.level, rise := t.rf.rise } ∧
        t = { w with dl := { w.dl with cls := t.dl.cls, clsAir := t.dl.clsAir, silence := t.dl.silence }, rf := t.rf }))

/-- UL_EXPORT, PRACH_OCCASION and PRACH_EXPORT (R75, R96, R97, R130, R157, R160, R173 to R175): an exported symbol's marks are served; a
fragment takes the line of an up port at once where it is free, under the flow's next SEQ_ID, and has left when the line is done with it;
it is dropped and counted where the port is down; an occasion begins its runs or, beyond 32, none of them; an exported repetition moves its run on or ends it.
That SEQ_ID counts sent messages only is deduced (log 77); the converter samples come with the command (log 75). -/
def Obligations.UplinkExports : Prop :=
  (∀ (s : State) (sym : SymName) (o : UlObs) (im : Image), exportImage s sym = some im →
    let mu := ccMu im true sym.carrier
    let air := airOf mu sym
    ulRuns s air (air + tk (symTicks mu (symIndex mu sym))) = true →
    ∃ t, exec (.ulExport sym o) s = .next t ∧ (∀ m ∈ t.ul.marks, m.carrier = sym.carrier → air < m.air) ∧ t.ul.prach = s.ul.prach ∧
      t.dl = s.dl ∧ t.pwr = s.pwr ∧ t.cfg = s.cfg) ∧
  (∀ (f : Flow) (h : UlHead) (m : List Byte) (s : State),
    let t := sendFragment f h m s
    let k := seqKey s f
    let q := tget 0 s.ul.seq k
    (portUp s f.port = true → tget 0 t.ul.seq k = (q + 1) % 256 ∧ (∀ j, j ≠ k → tget 0 t.ul.seq j = tget 0 s.ul.seq j) ∧
      ((portOf s f.port).queue = [] → (portOf s f.port).kept = [] → (portOf s f.port).line = none → (portOf s f.port).busy ≤ nowU s →
        let b := formed (imageAt s (nowU s)) f.port (ulFrame f h.typ q m (nowU s))
        (portOf t f.port).line = some ⟨f.idx, b, nowU s + lineU s (b.length + 12)⟩ ∧ (portOf t f.port).queue = [] ∧ t.out = s.out)) ∧
    (portUp s f.port = false → t.ul = s.ul ∧ linkCount t f.port 21 = (linkCount s f.port 21 + 1) % 2 ^ 64 ∧
      t.ev.status.getLsbD 51 = true)) ∧
  (∀ (s : State) (n : Nat) (x : Sending), (portOf s n).line = some x → x.ends ≤ nowU s →
    ∃ rest, (drainPort n s).out = s.out ++ [.egress n x.flow x.bytes] ++ rest) ∧
  (∀ (s : State) (n frame : Nat) (im : Image), occasionImage s n frame = some im →
    let e := prachAt im n
    let at_ := occasionStart e frame
    let w := serve (1024 + n) at_ (advanceTo at_ s)
    let flows := ((governingFlows im).filter fun f => decide (f.cc = e.cc) && decide (f.kind = 4 ∨ f.kind = 5)).filterMap fun f =>
      (prachControl w im f e.occ (occasionSym im e frame)).map fun x => (f, x)
    prachIn e frame = true → ccEnabled im true e.cc = true → prachCollides im e frame = false →
    ulRuns s at_ at_ = true → ∃ t, exec (.prachOccasion n frame) s = .next t ∧ s.ul.prach <+: t.ul.prach ∧
      (flows = [] → t = w) ∧ (s.ul.prach.length + flows.length ≤ 32 → t.ul.prach.length ≤ 32) ∧
      (32 < s.ul.prach.length + flows.length → flows ≠ [] → t.ul.prach = s.ul.prach ∧ t.ev.status.getLsbD 52 = true)) ∧
  (∀ (s : State) (flow occ rep : Nat) (o : UlObs) (r : PrachRun),
    s.ul.prach.find? (fun q => decide (q.flow = flow) && decide (q.occasion = occ) && decide (q.done = rep)) = some r →
    ∃ t, exec (.prachExport flow occ rep o) s = .next t ∧ r ∉ t.ul.prach ∧ (∀ q ∈ s.ul.prach, q ≠ r → q ∈ t.ul.prach) ∧
      t.dl = s.dl ∧ t.pwr = s.pwr ∧ t.cfg = s.cfg)

/-- Gain steps (R165 to R168): a planned step moves the planned gain of its path within 0 to 30 dB; enough rail samples within 64 ticks
add the reduction, are marked and raised, and fewer do nothing; the return takes the reduction back to 0. No other path's gain moves. -/
def Obligations.GainSteps : Prop :=
  (∀ (s : State) (p : Nat) (sym : SymName) (im : Image), stepImage s p sym = some im →
    let step := if cf im 11 0 1 = 1 ∧ sym.carrier = timingCarrier im then entrySteps im p sym
      else if cf im 11 0 1 = 2 then sectionStep s im p sym else 0
    p < 64 → isService s.pwr.mode = true → step ≠ 0 → ∃ t, exec (.agcStep p sym) s = .next t ∧
      (plannedGain t p : Int) = clampI 0 30 (plannedGain s p + step) ∧ (∀ q, q ≠ p → plannedGain t q = plannedGain s q) ∧
      t.ul.reduction = s.ul.reduction ∧ t.pwr = s.pwr ∧ t.cfg = s.cfg) ∧
  (∀ (s : State) (p : Nat) (win : RailWindow), p < 64 → cf (imageAt s win.air) 11 3 1 = 1 → isService s.pwr.mode = true →
    let im := imageAt s win.air
    let rails := railTimes { win with words := win.words.drop (win.words.length - 64) }
    (rails.length < cf im 11 5 1 → exec (.protectionStep p win) s = .next s) ∧
    (cf im 11 5 1 ≤ rails.length → ∃ t, exec (.protectionStep p win) s = .next t ∧
      (∀ a ∈ rails, (⟨noCarrier, a, p, 5, 0⟩ : UlMark) ∈ t.ul.marks) ∧ tget 0 t.ul.trigger p = win.air ∧
      tget 0 t.ul.reduction p = tget 0 s.ul.reduction p + (if appliedGain s p = 0 then 0 else cf im 11 4 1) ∧
      (∀ q, q ≠ p → tget 0 t.ul.reduction q = tget 0 s.ul.reduction q) ∧ t.ul.planned = s.ul.planned ∧
      (appliedGain s p ≠ 0 → t.ev.status.getLsbD 48 = true))) ∧
  (∀ (s : State) (p : Nat), p < 64 → tget 0 s.ul.reduction p ≠ 0 → ∃ t, exec (.protectionReturn p) s = .next t ∧
    tget 0 t.ul.reduction p = 0 ∧ (∀ q, q ≠ p → tget 0 t.ul.reduction q = tget 0 s.ul.reduction q) ∧ t.ul.planned = s.ul.planned ∧
    t.pwr = s.pwr ∧ t.cfg = s.cfg)
end

