-- ==== Sys2Proof/Laws/Tables.lean ====
section
/-! SUPPORT. Laws of the sparse tables: a read after a write gives the value written, a write leaves every other index alone,
and every operation keeps the canonical form. -/

namespace Sys2Proof.Machine

variable {α : Type}

/-! ### Reads after writes -/

/-- A dropped index reads as the default, every other index as before. -/
theorem tget_tdrop (d : α) (t : Tbl α) (k j : Nat) : tget d (tdrop t k) j = if j = k then d else tget d t j := by
  induction t with
  | nil => simp [tdrop, tget]
  | cons e t ih =>
    obtain ⟨k', w⟩ := e
    simp only [tdrop]
    split
    · subst_vars
      rw [ih]
      split
      · rfl
      · simp [tget, Ne.symm ‹¬_›]
    · simp only [tget, ih]
      split
      · subst_vars
        simp [‹¬_›]
      · rfl

/-- The keys of a table. -/
theorem tget_of_not_mem (d : α) (t : Tbl α) (k : Nat) (h : ∀ e ∈ t, e.1 ≠ k) : tget d t k = d := by
  induction t with
  | nil => rfl
  | cons e t ih =>
    obtain ⟨k', w⟩ := e
    simp only [tget]
    rw [if_neg (h _ List.mem_cons_self)]
    exact ih fun e he => h e (List.mem_cons_of_mem _ he)

/-- A drop leaves no entry of its index. -/
theorem tdrop_not_mem (t : Tbl α) (k : Nat) : ∀ e ∈ tdrop t k, e.1 ≠ k := by
  induction t with
  | nil => simp [tdrop]
  | cons e t ih =>
    obtain ⟨k', w⟩ := e
    simp only [tdrop]
    split
    · exact ih
    · intro e he
      rcases List.mem_cons.mp he with rfl | he
      · assumption
      · exact ih e he

/-- An inserted index reads as the value, every other index as before. -/
theorem tget_tput (d : α) (t : Tbl α) (k j : Nat) (v : α) (h : ∀ e ∈ t, e.1 ≠ k) :
    tget d (tput k v t) j = if j = k then v else tget d t j := by
  induction t with
  | nil => simp [tput, tget, eq_comm]
  | cons e t ih =>
    obtain ⟨k', w⟩ := e
    have hk : k' ≠ k := h _ List.mem_cons_self
    have ih := ih fun e he => h e (List.mem_cons_of_mem _ he)
    simp only [tput]
    split
    · by_cases hj : j = k
      · subst hj; simp [tget]
      · simp [tget, hj, Ne.symm hj]
    · by_cases hj : j = k
      · subst hj; simp [tget, hk, ih]
      · simp [tget, ih, hj]

/-- A read after a write. -/
theorem tget_tset [DecidableEq α] (d : α) (t : Tbl α) (k j : Nat) (v : α) :
    tget d (tset d t k v) j = if j = k then v else tget d t j := by
  unfold tset
  split
  · subst_vars; exact tget_tdrop _ t k j
  · rw [tget_tput _ _ _ _ _ (tdrop_not_mem t k), tget_tdrop]
    split <;> simp_all

@[simp] theorem tget_tset_self [DecidableEq α] (d : α) (t : Tbl α) (k : Nat) (v : α) : tget d (tset d t k v) k = v := by
  simp [tget_tset]

theorem tget_tset_ne [DecidableEq α] (d : α) (t : Tbl α) {k j : Nat} (v : α) (h : j ≠ k) :
    tget d (tset d t k v) j = tget d t j := by simp [tget_tset, h]

/-- A read after a write of consecutive indices. -/
theorem tget_tsetList [DecidableEq α] (d : α) (t : Tbl α) (k j : Nat) (vs : List α) :
    tget d (tsetList d t k vs) j = if k ≤ j ∧ j < k + vs.length then vs.getD (j - k) d else tget d t j := by
  induction vs generalizing t k with
  | nil => rw [if_neg (by simp only [List.length_nil]; omega)]; rfl
  | cons v vs ih =>
    simp only [tsetList, ih, List.length_cons, tget_tset]
    by_cases h : j = k
    · subst h; simp
    · by_cases h2 : k + 1 ≤ j ∧ j < k + 1 + vs.length
      · rw [if_pos h2, if_pos (by omega)]
        obtain ⟨m, rfl⟩ : ∃ m, j = k + 1 + m := ⟨j - (k + 1), by omega⟩
        simp [show k + 1 + m - k = m + 1 by omega]
      · rw [if_neg h2, if_neg h, if_neg (by omega)]

/-- Consecutive indices one by one. -/
theorem tgetList_length (d : α) (t : Tbl α) (k n : Nat) : (tgetList d t k n).length = n := by
  induction n generalizing k with
  | zero => rfl
  | succ n ih => simp [tgetList, ih]

theorem tgetList_getD (d e : α) (t : Tbl α) (k n j : Nat) (h : j < n) : (tgetList d t k n).getD j e = tget d t (k + j) := by
  induction n generalizing k j with
  | zero => omega
  | succ n ih =>
    cases j with
    | zero => rfl
    | succ j => simpa [tgetList, Nat.add_assoc, Nat.add_comm 1 j] using ih (k + 1) j (by omega)

/-- Writing consecutive indices and reading them gives what was written. -/
theorem tgetList_tsetList [DecidableEq α] (d : α) (t : Tbl α) (k : Nat) (vs : List α) :
    tgetList d (tsetList d t k vs) k vs.length = vs := by
  apply List.ext_getElem (tgetList_length ..)
  intro j h1 h2
  rw [tgetList_length] at h1
  have := tgetList_getD d d (tsetList d t k vs) k vs.length j h1
  rw [tget_tsetList, if_pos (by omega), Nat.add_sub_cancel_left] at this
  rwa [List.getD_eq_getElem _ _ h2, List.getD_eq_getElem _ _ (by rw [tgetList_length]; exact h1)] at this

/-- A cleared range reads as the default, every other index as before. -/
theorem tget_tclear (d : α) (t : Tbl α) (lo hi j : Nat) :
    tget d (tclear t lo hi) j = if lo ≤ j ∧ j < hi then d else tget d t j := by
  induction t with
  | nil => simp [tclear, tget]
  | cons e t ih =>
    obtain ⟨k, w⟩ := e
    simp only [tclear] at ih ⊢
    rw [List.filter_cons]
    by_cases h : lo ≤ k ∧ k < hi
    · simp only [h, decide_true, Bool.and_self, Bool.not_true, Bool.false_eq_true, if_false, ih, tget]
      split
      · rfl
      · rw [if_neg (by rintro rfl; exact absurd h ‹_›)]
    · have : (!(decide (lo ≤ k) && decide (k < hi))) = true := by simp; omega
      rw [if_pos this]
      simp only [tget, ih]
      split
      · subst_vars; rw [if_neg h]
      · rfl

/-! ### Canonical form -/

/-- Canonical form, spelled as a chain of rising keys with no default among the values. -/
theorem Tbl.wf_iff [DecidableEq α] (d : α) (t : Tbl α) :
    Tbl.wf d t = true ↔ t.Pairwise (fun a b => a.1 < b.1) ∧ ∀ e ∈ t, e.2 ≠ d := by
  induction t with
  | nil => simp [Tbl.wf]
  | cons e t ih =>
    obtain ⟨k, v⟩ := e
    cases t with
    | nil => simp [Tbl.wf]
    | cons e' t =>
      obtain ⟨k', w⟩ := e'
      simp only [Tbl.wf, Bool.and_eq_true, decide_eq_true_eq, ih]
      constructor
      · rintro ⟨⟨hv, hk⟩, hp, hd⟩
        refine ⟨List.pairwise_cons.mpr ⟨fun e he => ?_, hp⟩, ?_⟩
        · rcases List.mem_cons.mp he with rfl | he
          · exact hk
          · exact Nat.lt_trans hk ((List.pairwise_cons.mp hp).1 e he)
        · intro e he
          rcases List.mem_cons.mp he with rfl | he
          · exact hv
          · exact hd e he
      · rintro ⟨hp, hd⟩
        obtain ⟨h1, h2⟩ := List.pairwise_cons.mp hp
        exact ⟨⟨hd _ List.mem_cons_self, h1 _ List.mem_cons_self⟩, h2, fun e he => hd e (List.mem_cons_of_mem _ he)⟩

/-- A drop takes a sublist. -/
theorem tdrop_sublist (t : Tbl α) (k : Nat) : (tdrop t k).Sublist t := by
  induction t with
  | nil => exact List.Sublist.slnil
  | cons e t ih =>
    obtain ⟨k', w⟩ := e
    simp only [tdrop]
    split
    · exact ih.cons _
    · exact ih.cons_cons _

theorem tdrop_wf [DecidableEq α] (d : α) (t : Tbl α) (k : Nat) (h : Tbl.wf d t = true) : Tbl.wf d (tdrop t k) = true := by
  rw [Tbl.wf_iff] at h ⊢
  exact ⟨h.1.sublist (tdrop_sublist t k), fun e he => h.2 e ((tdrop_sublist t k).subset he)⟩

theorem mem_tput (k : Nat) (v : α) (t : Tbl α) (e : Nat × α) : e ∈ tput k v t ↔ e = (k, v) ∨ e ∈ t := by
  induction t with
  | nil => simp [tput]
  | cons a t ih =>
    obtain ⟨k', w⟩ := a
    simp only [tput]
    split
    · simp
    · simp only [List.mem_cons, ih]; tauto

theorem tput_wf [DecidableEq α] (d : α) (t : Tbl α) (k : Nat) (v : α) (h : Tbl.wf d t = true) (hk : ∀ e ∈ t, e.1 ≠ k)
    (hv : v ≠ d) : Tbl.wf d (tput k v t) = true := by
  rw [Tbl.wf_iff] at h ⊢
  refine ⟨?_, fun e he => ?_⟩
  · have hp := h.1
    clear h
    induction t with
    | nil => simp [tput]
    | cons a t ih =>
      obtain ⟨k', w⟩ := a
      obtain ⟨h1, h2⟩ := List.pairwise_cons.mp hp
      simp only [tput]
      split
      · refine List.pairwise_cons.mpr ⟨fun e he => ?_, hp⟩
        rcases List.mem_cons.mp he with rfl | he
        · assumption
        · exact Nat.lt_trans ‹k < k'› (h1 e he)
      · refine List.pairwise_cons.mpr ⟨fun e he => ?_, ih (fun e he => hk e (List.mem_cons_of_mem _ he)) h2⟩
        rcases (mem_tput k v t e).mp he with rfl | he
        · have := hk _ List.mem_cons_self
          show k' < k
          omega
        · exact h1 e he
  · rcases (mem_tput k v t e).mp he with rfl | he
    · exact hv
    · exact h.2 e he

/-- A write keeps the canonical form. -/
theorem tset_wf [DecidableEq α] (d : α) (t : Tbl α) (k : Nat) (v : α) (h : Tbl.wf d t = true) : Tbl.wf d (tset d t k v) = true := by
  unfold tset
  split
  · exact tdrop_wf d t k h
  · exact tput_wf d _ k v (tdrop_wf d t k h) (tdrop_not_mem t k) ‹_›

theorem tsetList_wf [DecidableEq α] (d : α) (t : Tbl α) (k : Nat) (vs : List α) (h : Tbl.wf d t = true) :
    Tbl.wf d (tsetList d t k vs) = true := by
  induction vs generalizing t k with
  | nil => exact h
  | cons v vs ih => exact ih _ _ (tset_wf d t k v h)

theorem tclear_wf [DecidableEq α] (d : α) (t : Tbl α) (lo hi : Nat) (h : Tbl.wf d t = true) : Tbl.wf d (tclear t lo hi) = true := by
  rw [Tbl.wf_iff] at h ⊢
  exact ⟨h.1.sublist List.filter_sublist, fun e he => h.2 e (List.mem_of_mem_filter he)⟩

end Sys2Proof.Machine
end

