-- ==== Sys2Proof/Laws/State.lean ====
section
/-! SUPPORT. Reading a part of State after that part has been written: one lemma per named setter. -/

namespace Sys2Proof.Machine

/-! ### Rings, ports, channels and the other numbered parts -/

@[simp] theorem ringOf_setRing (s : State) (n m : Nat) (g : Ring) :
    ringOf (setRing n g s) m = if m = n then g else ringOf s m := tget_tset ..

@[simp] theorem portOf_setPort (s : State) (n m : Nat) (p : Port) :
    portOf (setPort n p s) m = if m = n then p else portOf s m := tget_tset ..

@[simp] theorem chanOf_setChan (s : State) (n m : Nat) (c : Chan) :
    chanOf (setChan n c s) m = if m = n then c else chanOf s m := tget_tset ..

@[simp] theorem leaseOf_setLease (s : State) (n m : Nat) (l : Lease) :
    leaseOf (setLease n l s) m = if m = n then l else leaseOf s m := tget_tset ..

@[simp] theorem loOf_setLo (s : State) (n m : Nat) (l : Lo) :
    loOf (setLo n l s) m = if m = n then l else loOf s m := tget_tset ..

@[simp] theorem oscOf_setOsc (s : State) (n m v : Nat) : oscOf (setOsc n v s) m = if m = n then v else oscOf s m := tget_tset ..

@[simp] theorem convOf_setConv (s : State) (n m : Nat) (v : Conv) :
    convOf (setConv n v s) m = if m = n then v else convOf s m := tget_tset ..

@[simp] theorem sensorOf_setSensor (s : State) (n m : Nat) (x : Sensor) :
    sensorOf (setSensor n x s) m = if m = n then x else sensorOf s m := tget_tset ..

@[simp] theorem coreOf_setCore (s : State) (n m : Nat) (k : Core) :
    coreOf (setCore n k s) m = if m = n then k else coreOf s m := tget_tset ..

@[simp] theorem tslotOf_setTslot (k : Core) (n m : Nat) (t : TSlot) :
    tslotOf (setTslot n t k) m = if m = n then t else tslotOf k m := tget_tset ..

@[simp] theorem regsOf_setRegs (k : Core) (n m : Nat) (r : TRegs) :
    regsOf (setRegs n r k) m = if m = n then r else regsOf k m := tget_tset ..

@[simp] theorem copyOf_setCopy (s : State) (id w id' w' : Nat) (c : NvmCopy) :
    copyOf (setCopy id w c s) id' w' = if 2 * id' + w' = 2 * id + w then c else copyOf s id' w' := tget_tset ..

@[simp] theorem linkCount_countLink (s : State) (n k d m j : Nat) :
    linkCount (countLink n k d s) m j = if m * 32 + j = n * 32 + k then (linkCount s n k + d) % 2 ^ 64 else linkCount s m j :=
  tget_tset ..


@[simp] theorem setTslot_regs (k : Core) (n : Nat) (t : TSlot) : (setTslot n t k).regs = k.regs := rfl
@[simp] theorem setTslot_dmem (k : Core) (n : Nat) (t : TSlot) : (setTslot n t k).dmem = k.dmem := rfl
@[simp] theorem setTslot_imem (k : Core) (n : Nat) (t : TSlot) : (setTslot n t k).imem = k.imem := rfl
@[simp] theorem setTslot_cur (k : Core) (n : Nat) (t : TSlot) : (setTslot n t k).cur = k.cur := rfl
@[simp] theorem setTslot_qcyc (k : Core) (n : Nat) (t : TSlot) : (setTslot n t k).qcyc = k.qcyc := rfl
@[simp] theorem setTslot_quantum (k : Core) (n : Nat) (t : TSlot) : (setTslot n t k).quantum = k.quantum := rfl
@[simp] theorem setTslot_turn (k : Core) (n : Nat) (t : TSlot) : (setTslot n t k).turn = k.turn := rfl
@[simp] theorem setRegs_slot (k : Core) (n : Nat) (r : TRegs) : (setRegs n r k).slot = k.slot := rfl
@[simp] theorem setRegs_dmem (k : Core) (n : Nat) (r : TRegs) : (setRegs n r k).dmem = k.dmem := rfl
@[simp] theorem setRegs_imem (k : Core) (n : Nat) (r : TRegs) : (setRegs n r k).imem = k.imem := rfl
@[simp] theorem setRegs_cur (k : Core) (n : Nat) (r : TRegs) : (setRegs n r k).cur = k.cur := rfl
@[simp] theorem setRegs_qcyc (k : Core) (n : Nat) (r : TRegs) : (setRegs n r k).qcyc = k.qcyc := rfl
@[simp] theorem setRegs_quantum (k : Core) (n : Nat) (r : TRegs) : (setRegs n r k).quantum = k.quantum := rfl
@[simp] theorem setRegs_turn (k : Core) (n : Nat) (r : TRegs) : (setRegs n r k).turn = k.turn := rfl

/-! ### The memories after reset (their canonical form) -/

/-- The addressed memories of the reset state are in canonical form. -/
theorem reset_memories_wf : Tbl.wf 0 State.reset.ph.slots = true ∧ Tbl.wf 0 State.reset.lin.capMem = true ∧
    (∀ c, Tbl.wf 0 (coreOf State.reset c).dmem = true) ∧ Tbl.wf 0 State.reset.nvm.patch = true :=
  ⟨rfl, rfl, fun _ => rfl, rfl⟩

end Sys2Proof.Machine
end

