-- ==== Sys2Proof/Laws/Events.lean ====
section
/-! SUPPORT. What raising an event and sending a message may change beside their own ring: of the events the counters, status
and occurrences, of the pigeonholes the rings that the device posts on. -/

namespace Sys2Proof.Machine

/-- What posting and raising leave alone: the settings of the events and of the pigeonholes, every host ring, and every
device ring but those named. Status bits are set, never cleared. -/
structure Posts (rings : Nat → Prop) (s t : State) : Prop where
  mask : t.ev.mask = s.ev.mask
  route : t.ev.route = s.ev.route
  long : t.ph.long = s.ph.long
  turn : t.ph.turn = s.ph.turn
  ignored : t.ph.ignored = s.ph.ignored
  pcieUp : t.ph.pcieUp = s.ph.pcieUp
  status : ∀ e, s.ev.status.getLsbD e = true → t.ev.status.getLsbD e = true
  ring : ∀ n, ¬rings n → ringOf t n = ringOf s n

theorem Posts.refl (p : Nat → Prop) (s : State) : Posts p s s := ⟨rfl, rfl, rfl, rfl, rfl, rfl, fun _ h => h, fun _ _ => rfl⟩

theorem Posts.trans {p : Nat → Prop} {r s t : State} (h : Posts p r s) (k : Posts p s t) : Posts p r t :=
  ⟨k.mask.trans h.mask, k.route.trans h.route, k.long.trans h.long, k.turn.trans h.turn, k.ignored.trans h.ignored,
    k.pcieUp.trans h.pcieUp, fun e x => k.status e (h.status e x), fun n x => (k.ring n x).trans (h.ring n x)⟩

theorem Posts.mono {p q : Nat → Prop} {s t : State} (h : Posts p s t) (hpq : ∀ n, p n → q n) : Posts q s t :=
  ⟨h.mask, h.route, h.long, h.turn, h.ignored, h.pcieUp, h.status, fun n x => h.ring n fun y => x (hpq n y)⟩

/-- A write of one ring. -/
theorem setRing_posts (n : Nat) (g : Ring) (s : State) : Posts (· = n) s (setRing n g s) :=
  ⟨rfl, rfl, rfl, rfl, rfl, rfl, fun _ h => h, fun m h => by simp [show m ≠ n from h]⟩

theorem placeMsg_posts (n : Nat) (m : List Byte) (s : State) : Posts (· = n) s (placeMsg n m s) := by
  have h : ∀ g t, t.ev = s.ev → t.ph = { s.ph with slots := t.ph.slots } → Posts (· = n) s (setRing n g t) := fun g t he hp =>
    Posts.trans ⟨by rw [he], by rw [he], by rw [hp], by rw [hp], by rw [hp], by rw [hp], by rw [he]; exact fun _ x => x,
      fun k _ => by simp only [ringOf]; rw [hp]⟩ (setRing_posts n g t)
  unfold placeMsg
  dsimp only
  split <;> exact h _ _ rfl rfl

theorem markEvent_posts (e : Nat) (d : List Byte) (s : State) : Posts (fun _ => False) s (markEvent e d s) := by
  unfold markEvent sendMsix
  dsimp only
  split
  · exact ⟨rfl, rfl, rfl, rfl, rfl, rfl, fun _ h => h, fun _ _ => rfl⟩
  · exact ⟨rfl, rfl, rfl, rfl, rfl, rfl, fun j h => by simp only [BitVec.getLsbD_or, h, Bool.true_or], fun _ _ => rfl⟩

/-- The event marked is set. -/
theorem markEvent_status (e : Nat) (d : List Byte) (s : State) (h : e < 256) : (markEvent e d s).ev.status.getLsbD e = true := by
  unfold markEvent sendMsix
  dsimp only
  split
  · assumption
  · simp [h]

theorem postNotify_posts (e : Nat) (s : State) : Posts (· = 15) s (postNotify e s) := by
  unfold postNotify
  dsimp only
  split
  · exact ((setRing_posts 15 _ s).trans (placeMsg_posts 15 _ _)).trans ((markEvent_posts ..).mono fun _ => False.elim)
  · exact setRing_posts 15 _ s

/-- Raising an event posts on ring 15 alone. -/
theorem raise_posts (e : Nat) (d : List Byte) (s : State) : Posts (· = 15) s (raise e d s) := by
  unfold raise
  dsimp only
  split
  · exact ((markEvent_posts ..).mono fun _ => False.elim).trans (postNotify_posts ..)
  · exact (markEvent_posts ..).mono fun _ => False.elim

/-- The event raised is set. -/
@[simp] theorem raise_status (e : Nat) (d : List Byte) (s : State) (h : e < 256) : (raise e d s).ev.status.getLsbD e = true := by
  unfold raise
  dsimp only
  split
  · exact (postNotify_posts ..).status e (markEvent_status e d s h)
  · exact markEvent_status e d s h

/-- Sending a message posts on its ring and on ring 15. -/
theorem sendMsg_posts (n : Nat) (m : List Byte) (s : State) : Posts (fun k => k = n ∨ k = 15) s (sendMsg n m s) := by
  unfold sendMsg postMsg
  dsimp only
  split
  · exact ((placeMsg_posts n m s).mono fun _ => Or.inl).trans ((raise_posts ..).mono fun _ => Or.inr)
  · split
    · exact ((setRing_posts n _ s).mono fun _ => Or.inl).trans ((raise_posts ..).mono fun _ => Or.inr)
    · exact (setRing_posts n _ s).mono fun _ => Or.inl

theorem sendResponse_posts (a : Asker) (b : Bool) (m : List Byte) (s : State) :
    Posts (fun k => k = respRing a.ring ∨ k = 15) s (sendResponse a b m s) := by
  unfold sendResponse
  split
  · exact sendMsg_posts ..
  · exact Posts.refl ..

/-- A final answer, and the end of a deferred or long execution, touch the asker's ring, its response ring and ring 15. -/
theorem answeredRings (a : Asker) (code detail : Nat) (p : List Byte) (s : State) :
    Posts (fun k => k = a.ring ∨ k = respRing a.ring ∨ k = 15) s
      (sendResponse a (isError code) (response a code detail true p) (remember a (response a code detail true p) (isError code) s)) :=
  ((setRing_posts ..).mono fun _ => Or.inl).trans ((sendResponse_posts ..).mono fun _ => Or.inr)

theorem finish_posts (a : Asker) (code detail : Nat) (p : List Byte) (s : State) :
    Posts (fun k => k = a.ring ∨ k = respRing a.ring ∨ k = 15) s (finish a code detail p s) :=
  ((setRing_posts ..).mono fun _ => Or.inl).trans ((sendResponse_posts ..).mono fun _ => Or.inr)

end Sys2Proof.Machine
end

