-- ==== Sys2Proof/Laws/Frames.lean ====
section
/-! SUPPORT. What each shared operation leaves alone: for every function from states to states one lemma that lists the parts
of State it does not write. They are the frames that every later proof cites instead of unfolding the operation. -/

namespace Sys2Proof.Machine

set_option linter.unusedSimpArgs false
set_option linter.unusedTactic false
set_option linter.unreachableTactic false

/-! ### Folds and case distinctions -/

@[simp] theorem foldl_ph {α : Type} (g : State → α → State) (h : ∀ t x, (g t x).ph = t.ph) (l : List α) (s : State) : (l.foldl g s).ph = s.ph := by
  induction l generalizing s with
  | nil => rfl
  | cons a l ih => simp [List.foldl, ih, h]
@[simp] theorem ite_ph (c : Prop) [Decidable c] (a b : State) : (if c then a else b).ph = if c then a.ph else b.ph := by split <;> rfl
@[simp] theorem foldl_ev {α : Type} (g : State → α → State) (h : ∀ t x, (g t x).ev = t.ev) (l : List α) (s : State) : (l.foldl g s).ev = s.ev := by
  induction l generalizing s with
  | nil => rfl
  | cons a l ih => simp [List.foldl, ih, h]
@[simp] theorem ite_ev (c : Prop) [Decidable c] (a b : State) : (if c then a else b).ev = if c then a.ev else b.ev := by split <;> rfl
@[simp] theorem foldl_sys {α : Type} (g : State → α → State) (h : ∀ t x, (g t x).sys = t.sys) (l : List α) (s : State) : (l.foldl g s).sys = s.sys := by
  induction l generalizing s with
  | nil => rfl
  | cons a l ih => simp [List.foldl, ih, h]
@[simp] theorem ite_sys (c : Prop) [Decidable c] (a b : State) : (if c then a else b).sys = if c then a.sys else b.sys := by split <;> rfl
@[simp] theorem foldl_em {α : Type} (g : State → α → State) (h : ∀ t x, (g t x).em = t.em) (l : List α) (s : State) : (l.foldl g s).em = s.em := by
  induction l generalizing s with
  | nil => rfl
  | cons a l ih => simp [List.foldl, ih, h]
@[simp] theorem ite_em (c : Prop) [Decidable c] (a b : State) : (if c then a else b).em = if c then a.em else b.em := by split <;> rfl
@[simp] theorem foldl_tm {α : Type} (g : State → α → State) (h : ∀ t x, (g t x).tm = t.tm) (l : List α) (s : State) : (l.foldl g s).tm = s.tm := by
  induction l generalizing s with
  | nil => rfl
  | cons a l ih => simp [List.foldl, ih, h]
@[simp] theorem ite_tm (c : Prop) [Decidable c] (a b : State) : (if c then a else b).tm = if c then a.tm else b.tm := by split <;> rfl
@[simp] theorem foldl_clk {α : Type} (g : State → α → State) (h : ∀ t x, (g t x).clk = t.clk) (l : List α) (s : State) : (l.foldl g s).clk = s.clk := by
  induction l generalizing s with
  | nil => rfl
  | cons a l ih => simp [List.foldl, ih, h]
@[simp] theorem ite_clk (c : Prop) [Decidable c] (a b : State) : (if c then a else b).clk = if c then a.clk else b.clk := by split <;> rfl
@[simp] theorem foldl_cfg {α : Type} (g : State → α → State) (h : ∀ t x, (g t x).cfg = t.cfg) (l : List α) (s : State) : (l.foldl g s).cfg = s.cfg := by
  induction l generalizing s with
  | nil => rfl
  | cons a l ih => simp [List.foldl, ih, h]
@[simp] theorem ite_cfg (c : Prop) [Decidable c] (a b : State) : (if c then a else b).cfg = if c then a.cfg else b.cfg := by split <;> rfl
@[simp] theorem foldl_fh {α : Type} (g : State → α → State) (h : ∀ t x, (g t x).fh = t.fh) (l : List α) (s : State) : (l.foldl g s).fh = s.fh := by
  induction l generalizing s with
  | nil => rfl
  | cons a l ih => simp [List.foldl, ih, h]
@[simp] theorem ite_fh (c : Prop) [Decidable c] (a b : State) : (if c then a else b).fh = if c then a.fh else b.fh := by split <;> rfl
@[simp] theorem foldl_dl {α : Type} (g : State → α → State) (h : ∀ t x, (g t x).dl = t.dl) (l : List α) (s : State) : (l.foldl g s).dl = s.dl := by
  induction l generalizing s with
  | nil => rfl
  | cons a l ih => simp [List.foldl, ih, h]
@[simp] theorem ite_dl (c : Prop) [Decidable c] (a b : State) : (if c then a else b).dl = if c then a.dl else b.dl := by split <;> rfl
@[simp] theorem foldl_ul {α : Type} (g : State → α → State) (h : ∀ t x, (g t x).ul = t.ul) (l : List α) (s : State) : (l.foldl g s).ul = s.ul := by
  induction l generalizing s with
  | nil => rfl
  | cons a l ih => simp [List.foldl, ih, h]
@[simp] theorem ite_ul (c : Prop) [Decidable c] (a b : State) : (if c then a else b).ul = if c then a.ul else b.ul := by split <;> rfl
@[simp] theorem foldl_bf {α : Type} (g : State → α → State) (h : ∀ t x, (g t x).bf = t.bf) (l : List α) (s : State) : (l.foldl g s).bf = s.bf := by
  induction l generalizing s with
  | nil => rfl
  | cons a l ih => simp [List.foldl, ih, h]
@[simp] theorem ite_bf (c : Prop) [Decidable c] (a b : State) : (if c then a else b).bf = if c then a.bf else b.bf := by split <;> rfl
@[simp] theorem foldl_lin {α : Type} (g : State → α → State) (h : ∀ t x, (g t x).lin = t.lin) (l : List α) (s : State) : (l.foldl g s).lin = s.lin := by
  induction l generalizing s with
  | nil => rfl
  | cons a l ih => simp [List.foldl, ih, h]
@[simp] theorem ite_lin (c : Prop) [Decidable c] (a b : State) : (if c then a else b).lin = if c then a.lin else b.lin := by split <;> rfl
@[simp] theorem foldl_core {α : Type} (g : State → α → State) (h : ∀ t x, (g t x).core = t.core) (l : List α) (s : State) : (l.foldl g s).core = s.core := by
  induction l generalizing s with
  | nil => rfl
  | cons a l ih => simp [List.foldl, ih, h]
@[simp] theorem ite_core (c : Prop) [Decidable c] (a b : State) : (if c then a else b).core = if c then a.core else b.core := by split <;> rfl
@[simp] theorem foldl_rf {α : Type} (g : State → α → State) (h : ∀ t x, (g t x).rf = t.rf) (l : List α) (s : State) : (l.foldl g s).rf = s.rf := by
  induction l generalizing s with
  | nil => rfl
  | cons a l ih => simp [List.foldl, ih, h]
@[simp] theorem ite_rf (c : Prop) [Decidable c] (a b : State) : (if c then a else b).rf = if c then a.rf else b.rf := by split <;> rfl
@[simp] theorem foldl_bias {α : Type} (g : State → α → State) (h : ∀ t x, (g t x).bias = t.bias) (l : List α) (s : State) : (l.foldl g s).bias = s.bias := by
  induction l generalizing s with
  | nil => rfl
  | cons a l ih => simp [List.foldl, ih, h]
@[simp] theorem ite_bias (c : Prop) [Decidable c] (a b : State) : (if c then a else b).bias = if c then a.bias else b.bias := by split <;> rfl
@[simp] theorem foldl_hk {α : Type} (g : State → α → State) (h : ∀ t x, (g t x).hk = t.hk) (l : List α) (s : State) : (l.foldl g s).hk = s.hk := by
  induction l generalizing s with
  | nil => rfl
  | cons a l ih => simp [List.foldl, ih, h]
@[simp] theorem ite_hk (c : Prop) [Decidable c] (a b : State) : (if c then a else b).hk = if c then a.hk else b.hk := by split <;> rfl
@[simp] theorem foldl_pwr {α : Type} (g : State → α → State) (h : ∀ t x, (g t x).pwr = t.pwr) (l : List α) (s : State) : (l.foldl g s).pwr = s.pwr := by
  induction l generalizing s with
  | nil => rfl
  | cons a l ih => simp [List.foldl, ih, h]
@[simp] theorem ite_pwr (c : Prop) [Decidable c] (a b : State) : (if c then a else b).pwr = if c then a.pwr else b.pwr := by split <;> rfl
@[simp] theorem foldl_th {α : Type} (g : State → α → State) (h : ∀ t x, (g t x).th = t.th) (l : List α) (s : State) : (l.foldl g s).th = s.th := by
  induction l generalizing s with
  | nil => rfl
  | cons a l ih => simp [List.foldl, ih, h]
@[simp] theorem ite_th (c : Prop) [Decidable c] (a b : State) : (if c then a else b).th = if c then a.th else b.th := by split <;> rfl
@[simp] theorem foldl_nvm {α : Type} (g : State → α → State) (h : ∀ t x, (g t x).nvm = t.nvm) (l : List α) (s : State) : (l.foldl g s).nvm = s.nvm := by
  induction l generalizing s with
  | nil => rfl
  | cons a l ih => simp [List.foldl, ih, h]
@[simp] theorem ite_nvm (c : Prop) [Decidable c] (a b : State) : (if c then a else b).nvm = if c then a.nvm else b.nvm := by split <;> rfl
@[simp] theorem foldl_cal {α : Type} (g : State → α → State) (h : ∀ t x, (g t x).cal = t.cal) (l : List α) (s : State) : (l.foldl g s).cal = s.cal := by
  induction l generalizing s with
  | nil => rfl
  | cons a l ih => simp [List.foldl, ih, h]
@[simp] theorem ite_cal (c : Prop) [Decidable c] (a b : State) : (if c then a else b).cal = if c then a.cal else b.cal := by split <;> rfl
@[simp] theorem foldl_ls {α : Type} (g : State → α → State) (h : ∀ t x, (g t x).ls = t.ls) (l : List α) (s : State) : (l.foldl g s).ls = s.ls := by
  induction l generalizing s with
  | nil => rfl
  | cons a l ih => simp [List.foldl, ih, h]
@[simp] theorem ite_ls (c : Prop) [Decidable c] (a b : State) : (if c then a else b).ls = if c then a.ls else b.ls := by split <;> rfl
@[simp] theorem foldl_rk {α : Type} (g : State → α → State) (h : ∀ t x, (g t x).rk = t.rk) (l : List α) (s : State) : (l.foldl g s).rk = s.rk := by
  induction l generalizing s with
  | nil => rfl
  | cons a l ih => simp [List.foldl, ih, h]
@[simp] theorem ite_rk (c : Prop) [Decidable c] (a b : State) : (if c then a else b).rk = if c then a.rk else b.rk := by split <;> rfl
@[simp] theorem foldl_test {α : Type} (g : State → α → State) (h : ∀ t x, (g t x).test = t.test) (l : List α) (s : State) : (l.foldl g s).test = s.test := by
  induction l generalizing s with
  | nil => rfl
  | cons a l ih => simp [List.foldl, ih, h]
@[simp] theorem ite_test (c : Prop) [Decidable c] (a b : State) : (if c then a else b).test = if c then a.test else b.test := by split <;> rfl
@[simp] theorem foldl_life {α : Type} (g : State → α → State) (h : ∀ t x, (g t x).life = t.life) (l : List α) (s : State) : (l.foldl g s).life = s.life := by
  induction l generalizing s with
  | nil => rfl
  | cons a l ih => simp [List.foldl, ih, h]
@[simp] theorem ite_life (c : Prop) [Decidable c] (a b : State) : (if c then a else b).life = if c then a.life else b.life := by split <;> rfl
@[simp] theorem foldl_boot {α : Type} (g : State → α → State) (h : ∀ t x, (g t x).boot = t.boot) (l : List α) (s : State) : (l.foldl g s).boot = s.boot := by
  induction l generalizing s with
  | nil => rfl
  | cons a l ih => simp [List.foldl, ih, h]
@[simp] theorem ite_boot (c : Prop) [Decidable c] (a b : State) : (if c then a else b).boot = if c then a.boot else b.boot := by split <;> rfl
@[simp] theorem foldl_stat {α : Type} (g : State → α → State) (h : ∀ t x, (g t x).stat = t.stat) (l : List α) (s : State) : (l.foldl g s).stat = s.stat := by
  induction l generalizing s with
  | nil => rfl
  | cons a l ih => simp [List.foldl, ih, h]
@[simp] theorem ite_stat (c : Prop) [Decidable c] (a b : State) : (if c then a else b).stat = if c then a.stat else b.stat := by split <;> rfl
@[simp] theorem foldl_out {α : Type} (g : State → α → State) (h : ∀ t x, (g t x).out = t.out) (l : List α) (s : State) : (l.foldl g s).out = s.out := by
  induction l generalizing s with
  | nil => rfl
  | cons a l ih => simp [List.foldl, ih, h]
@[simp] theorem ite_out (c : Prop) [Decidable c] (a b : State) : (if c then a else b).out = if c then a.out else b.out := by split <;> rfl
@[simp] theorem foldl_fresh {α : Type} (g : State → α → State) (h : ∀ t x, (g t x).fresh = t.fresh) (l : List α) (s : State) : (l.foldl g s).fresh = s.fresh := by
  induction l generalizing s with
  | nil => rfl
  | cons a l ih => simp [List.foldl, ih, h]
@[simp] theorem ite_fresh (c : Prop) [Decidable c] (a b : State) : (if c then a else b).fresh = if c then a.fresh else b.fresh := by split <;> rfl
@[simp] theorem foldl_pending {α : Type} (g : State → α → State) (h : ∀ t x, (g t x).pending = t.pending) (l : List α) (s : State) : (l.foldl g s).pending = s.pending := by
  induction l generalizing s with
  | nil => rfl
  | cons a l ih => simp [List.foldl, ih, h]
@[simp] theorem ite_pending (c : Prop) [Decidable c] (a b : State) : (if c then a else b).pending = if c then a.pending else b.pending := by split <;> rfl
/-! ### Operations -/

@[simp] theorem advanceRaw_frame (x0 : Nat) (s : State) :
    (advanceRaw x0 s).ph = s.ph ∧ (advanceRaw x0 s).ev = s.ev ∧ (advanceRaw x0 s).sys = s.sys ∧ (advanceRaw x0 s).em = s.em ∧
    (advanceRaw x0 s).clk = s.clk ∧ (advanceRaw x0 s).cfg = s.cfg ∧ (advanceRaw x0 s).fh = s.fh ∧
    (advanceRaw x0 s).dl = s.dl ∧ (advanceRaw x0 s).ul = s.ul ∧ (advanceRaw x0 s).bf = s.bf ∧ (advanceRaw x0 s).lin = s.lin ∧
    (advanceRaw x0 s).core = s.core ∧ (advanceRaw x0 s).rf = s.rf ∧ (advanceRaw x0 s).bias = s.bias ∧
    (advanceRaw x0 s).hk = s.hk ∧ (advanceRaw x0 s).pwr = s.pwr ∧ (advanceRaw x0 s).th = s.th ∧
    (advanceRaw x0 s).nvm = s.nvm ∧ (advanceRaw x0 s).cal = s.cal ∧ (advanceRaw x0 s).ls = s.ls ∧
    (advanceRaw x0 s).rk = s.rk ∧ (advanceRaw x0 s).test = s.test ∧ (advanceRaw x0 s).life = s.life ∧
    (advanceRaw x0 s).boot = s.boot ∧ (advanceRaw x0 s).stat = s.stat ∧ (advanceRaw x0 s).out = s.out ∧
    (advanceRaw x0 s).fresh = s.fresh ∧ (advanceRaw x0 s).pending = s.pending := by
  unfold advanceRaw
  simp

@[simp] theorem advanceTo_frame (x0 : Instant) (s : State) :
    (advanceTo x0 s).ph = s.ph ∧ (advanceTo x0 s).ev = s.ev ∧ (advanceTo x0 s).sys = s.sys ∧ (advanceTo x0 s).em = s.em ∧
    (advanceTo x0 s).clk = s.clk ∧ (advanceTo x0 s).cfg = s.cfg ∧ (advanceTo x0 s).fh = s.fh ∧ (advanceTo x0 s).dl = s.dl ∧
    (advanceTo x0 s).ul = s.ul ∧ (advanceTo x0 s).bf = s.bf ∧ (advanceTo x0 s).lin = s.lin ∧ (advanceTo x0 s).core = s.core ∧
    (advanceTo x0 s).rf = s.rf ∧ (advanceTo x0 s).bias = s.bias ∧ (advanceTo x0 s).hk = s.hk ∧ (advanceTo x0 s).pwr = s.pwr ∧
    (advanceTo x0 s).th = s.th ∧ (advanceTo x0 s).nvm = s.nvm ∧ (advanceTo x0 s).cal = s.cal ∧ (advanceTo x0 s).ls = s.ls ∧
    (advanceTo x0 s).rk = s.rk ∧ (advanceTo x0 s).test = s.test ∧ (advanceTo x0 s).life = s.life ∧
    (advanceTo x0 s).boot = s.boot ∧ (advanceTo x0 s).stat = s.stat ∧ (advanceTo x0 s).out = s.out ∧
    (advanceTo x0 s).fresh = s.fresh ∧ (advanceTo x0 s).pending = s.pending := by
  unfold advanceTo
  simp

@[simp] theorem advanceSince_frame (x0 : Nat) (x1 : Nat) (s : State) :
    (advanceSince x0 x1 s).ph = s.ph ∧ (advanceSince x0 x1 s).ev = s.ev ∧ (advanceSince x0 x1 s).sys = s.sys ∧
    (advanceSince x0 x1 s).em = s.em ∧ (advanceSince x0 x1 s).clk = s.clk ∧ (advanceSince x0 x1 s).cfg = s.cfg ∧
    (advanceSince x0 x1 s).fh = s.fh ∧ (advanceSince x0 x1 s).dl = s.dl ∧ (advanceSince x0 x1 s).ul = s.ul ∧
    (advanceSince x0 x1 s).bf = s.bf ∧ (advanceSince x0 x1 s).lin = s.lin ∧ (advanceSince x0 x1 s).core = s.core ∧
    (advanceSince x0 x1 s).rf = s.rf ∧ (advanceSince x0 x1 s).bias = s.bias ∧ (advanceSince x0 x1 s).hk = s.hk ∧
    (advanceSince x0 x1 s).pwr = s.pwr ∧ (advanceSince x0 x1 s).th = s.th ∧ (advanceSince x0 x1 s).nvm = s.nvm ∧
    (advanceSince x0 x1 s).cal = s.cal ∧ (advanceSince x0 x1 s).ls = s.ls ∧ (advanceSince x0 x1 s).rk = s.rk ∧
    (advanceSince x0 x1 s).test = s.test ∧ (advanceSince x0 x1 s).life = s.life ∧ (advanceSince x0 x1 s).boot = s.boot ∧
    (advanceSince x0 x1 s).stat = s.stat ∧ (advanceSince x0 x1 s).out = s.out ∧ (advanceSince x0 x1 s).fresh = s.fresh ∧
    (advanceSince x0 x1 s).pending = s.pending := by
  unfold advanceSince
  simp

@[simp] theorem takeFree_frame (s : State) :
    (takeFree s).2.ph = s.ph ∧ (takeFree s).2.ev = s.ev ∧ (takeFree s).2.sys = s.sys ∧ (takeFree s).2.em = s.em ∧
    (takeFree s).2.tm = s.tm ∧ (takeFree s).2.clk = s.clk ∧ (takeFree s).2.cfg = s.cfg ∧ (takeFree s).2.fh = s.fh ∧
    (takeFree s).2.dl = s.dl ∧ (takeFree s).2.ul = s.ul ∧ (takeFree s).2.bf = s.bf ∧ (takeFree s).2.lin = s.lin ∧
    (takeFree s).2.core = s.core ∧ (takeFree s).2.rf = s.rf ∧ (takeFree s).2.bias = s.bias ∧ (takeFree s).2.hk = s.hk ∧
    (takeFree s).2.pwr = s.pwr ∧ (takeFree s).2.th = s.th ∧ (takeFree s).2.nvm = s.nvm ∧ (takeFree s).2.cal = s.cal ∧
    (takeFree s).2.ls = s.ls ∧ (takeFree s).2.rk = s.rk ∧ (takeFree s).2.test = s.test ∧ (takeFree s).2.life = s.life ∧
    (takeFree s).2.boot = s.boot ∧ (takeFree s).2.stat = s.stat ∧ (takeFree s).2.out = s.out ∧
    (takeFree s).2.pending = s.pending := by
  unfold takeFree
  simp

@[simp] theorem setRing_frame (x0 : Nat) (x1 : Ring) (s : State) :
    (setRing x0 x1 s).ev = s.ev ∧ (setRing x0 x1 s).sys = s.sys ∧ (setRing x0 x1 s).em = s.em ∧ (setRing x0 x1 s).tm = s.tm ∧
    (setRing x0 x1 s).clk = s.clk ∧ (setRing x0 x1 s).cfg = s.cfg ∧ (setRing x0 x1 s).fh = s.fh ∧
    (setRing x0 x1 s).dl = s.dl ∧ (setRing x0 x1 s).ul = s.ul ∧ (setRing x0 x1 s).bf = s.bf ∧ (setRing x0 x1 s).lin = s.lin ∧
    (setRing x0 x1 s).core = s.core ∧ (setRing x0 x1 s).rf = s.rf ∧ (setRing x0 x1 s).bias = s.bias ∧
    (setRing x0 x1 s).hk = s.hk ∧ (setRing x0 x1 s).pwr = s.pwr ∧ (setRing x0 x1 s).th = s.th ∧
    (setRing x0 x1 s).nvm = s.nvm ∧ (setRing x0 x1 s).cal = s.cal ∧ (setRing x0 x1 s).ls = s.ls ∧
    (setRing x0 x1 s).rk = s.rk ∧ (setRing x0 x1 s).test = s.test ∧ (setRing x0 x1 s).life = s.life ∧
    (setRing x0 x1 s).boot = s.boot ∧ (setRing x0 x1 s).stat = s.stat ∧ (setRing x0 x1 s).out = s.out ∧
    (setRing x0 x1 s).fresh = s.fresh ∧ (setRing x0 x1 s).pending = s.pending := by
  unfold setRing
  simp

@[simp] theorem fetchSlots_frame (x0 : Ring) (x1 : Nat) (x2 : Nat) (s : State) :
    (fetchSlots x0 x1 x2 s).ph = s.ph ∧ (fetchSlots x0 x1 x2 s).ev = s.ev ∧ (fetchSlots x0 x1 x2 s).sys = s.sys ∧
    (fetchSlots x0 x1 x2 s).em = s.em ∧ (fetchSlots x0 x1 x2 s).tm = s.tm ∧ (fetchSlots x0 x1 x2 s).clk = s.clk ∧
    (fetchSlots x0 x1 x2 s).cfg = s.cfg ∧ (fetchSlots x0 x1 x2 s).fh = s.fh ∧ (fetchSlots x0 x1 x2 s).dl = s.dl ∧
    (fetchSlots x0 x1 x2 s).ul = s.ul ∧ (fetchSlots x0 x1 x2 s).bf = s.bf ∧ (fetchSlots x0 x1 x2 s).lin = s.lin ∧
    (fetchSlots x0 x1 x2 s).core = s.core ∧ (fetchSlots x0 x1 x2 s).rf = s.rf ∧ (fetchSlots x0 x1 x2 s).bias = s.bias ∧
    (fetchSlots x0 x1 x2 s).hk = s.hk ∧ (fetchSlots x0 x1 x2 s).pwr = s.pwr ∧ (fetchSlots x0 x1 x2 s).th = s.th ∧
    (fetchSlots x0 x1 x2 s).nvm = s.nvm ∧ (fetchSlots x0 x1 x2 s).cal = s.cal ∧ (fetchSlots x0 x1 x2 s).ls = s.ls ∧
    (fetchSlots x0 x1 x2 s).rk = s.rk ∧ (fetchSlots x0 x1 x2 s).test = s.test ∧ (fetchSlots x0 x1 x2 s).life = s.life ∧
    (fetchSlots x0 x1 x2 s).boot = s.boot ∧ (fetchSlots x0 x1 x2 s).stat = s.stat ∧ (fetchSlots x0 x1 x2 s).fresh = s.fresh ∧
    (fetchSlots x0 x1 x2 s).pending = s.pending := by
  unfold fetchSlots
  simp

@[simp] theorem placeMsg_frame (x0 : Nat) (x1 : List Byte) (s : State) :
    (placeMsg x0 x1 s).ev = s.ev ∧ (placeMsg x0 x1 s).sys = s.sys ∧ (placeMsg x0 x1 s).em = s.em ∧
    (placeMsg x0 x1 s).tm = s.tm ∧ (placeMsg x0 x1 s).clk = s.clk ∧ (placeMsg x0 x1 s).cfg = s.cfg ∧
    (placeMsg x0 x1 s).fh = s.fh ∧ (placeMsg x0 x1 s).dl = s.dl ∧ (placeMsg x0 x1 s).ul = s.ul ∧
    (placeMsg x0 x1 s).bf = s.bf ∧ (placeMsg x0 x1 s).lin = s.lin ∧ (placeMsg x0 x1 s).core = s.core ∧
    (placeMsg x0 x1 s).rf = s.rf ∧ (placeMsg x0 x1 s).bias = s.bias ∧ (placeMsg x0 x1 s).hk = s.hk ∧
    (placeMsg x0 x1 s).pwr = s.pwr ∧ (placeMsg x0 x1 s).th = s.th ∧ (placeMsg x0 x1 s).nvm = s.nvm ∧
    (placeMsg x0 x1 s).cal = s.cal ∧ (placeMsg x0 x1 s).ls = s.ls ∧ (placeMsg x0 x1 s).rk = s.rk ∧
    (placeMsg x0 x1 s).test = s.test ∧ (placeMsg x0 x1 s).life = s.life ∧ (placeMsg x0 x1 s).boot = s.boot ∧
    (placeMsg x0 x1 s).stat = s.stat ∧ (placeMsg x0 x1 s).fresh = s.fresh ∧ (placeMsg x0 x1 s).pending = s.pending := by
  unfold placeMsg
  simp

@[simp] theorem sendMsix_frame (x0 : State) (s : State) :
    (sendMsix x0 s).ev = s.ev ∧ (sendMsix x0 s).sys = s.sys ∧ (sendMsix x0 s).em = s.em ∧ (sendMsix x0 s).tm = s.tm ∧
    (sendMsix x0 s).clk = s.clk ∧ (sendMsix x0 s).cfg = s.cfg ∧ (sendMsix x0 s).fh = s.fh ∧ (sendMsix x0 s).dl = s.dl ∧
    (sendMsix x0 s).ul = s.ul ∧ (sendMsix x0 s).bf = s.bf ∧ (sendMsix x0 s).lin = s.lin ∧ (sendMsix x0 s).core = s.core ∧
    (sendMsix x0 s).rf = s.rf ∧ (sendMsix x0 s).bias = s.bias ∧ (sendMsix x0 s).hk = s.hk ∧ (sendMsix x0 s).pwr = s.pwr ∧
    (sendMsix x0 s).th = s.th ∧ (sendMsix x0 s).nvm = s.nvm ∧ (sendMsix x0 s).cal = s.cal ∧ (sendMsix x0 s).ls = s.ls ∧
    (sendMsix x0 s).rk = s.rk ∧ (sendMsix x0 s).test = s.test ∧ (sendMsix x0 s).life = s.life ∧
    (sendMsix x0 s).boot = s.boot ∧ (sendMsix x0 s).stat = s.stat ∧ (sendMsix x0 s).fresh = s.fresh ∧
    (sendMsix x0 s).pending = s.pending := by
  unfold sendMsix
  simp

@[simp] theorem markEvent_frame (x0 : Nat) (x1 : List Byte) (s : State) :
    (markEvent x0 x1 s).sys = s.sys ∧ (markEvent x0 x1 s).em = s.em ∧ (markEvent x0 x1 s).tm = s.tm ∧
    (markEvent x0 x1 s).clk = s.clk ∧ (markEvent x0 x1 s).cfg = s.cfg ∧ (markEvent x0 x1 s).fh = s.fh ∧
    (markEvent x0 x1 s).dl = s.dl ∧ (markEvent x0 x1 s).ul = s.ul ∧ (markEvent x0 x1 s).bf = s.bf ∧
    (markEvent x0 x1 s).lin = s.lin ∧ (markEvent x0 x1 s).core = s.core ∧ (markEvent x0 x1 s).rf = s.rf ∧
    (markEvent x0 x1 s).bias = s.bias ∧ (markEvent x0 x1 s).hk = s.hk ∧ (markEvent x0 x1 s).pwr = s.pwr ∧
    (markEvent x0 x1 s).th = s.th ∧ (markEvent x0 x1 s).nvm = s.nvm ∧ (markEvent x0 x1 s).cal = s.cal ∧
    (markEvent x0 x1 s).ls = s.ls ∧ (markEvent x0 x1 s).rk = s.rk ∧ (markEvent x0 x1 s).test = s.test ∧
    (markEvent x0 x1 s).life = s.life ∧ (markEvent x0 x1 s).boot = s.boot ∧ (markEvent x0 x1 s).stat = s.stat ∧
    (markEvent x0 x1 s).fresh = s.fresh ∧ (markEvent x0 x1 s).pending = s.pending := by
  unfold markEvent
  simp

@[simp] theorem postNotify_frame (x0 : Nat) (s : State) :
    (postNotify x0 s).sys = s.sys ∧ (postNotify x0 s).em = s.em ∧ (postNotify x0 s).tm = s.tm ∧
    (postNotify x0 s).clk = s.clk ∧ (postNotify x0 s).cfg = s.cfg ∧ (postNotify x0 s).fh = s.fh ∧
    (postNotify x0 s).dl = s.dl ∧ (postNotify x0 s).ul = s.ul ∧ (postNotify x0 s).bf = s.bf ∧ (postNotify x0 s).lin = s.lin ∧
    (postNotify x0 s).core = s.core ∧ (postNotify x0 s).rf = s.rf ∧ (postNotify x0 s).bias = s.bias ∧
    (postNotify x0 s).hk = s.hk ∧ (postNotify x0 s).pwr = s.pwr ∧ (postNotify x0 s).th = s.th ∧
    (postNotify x0 s).nvm = s.nvm ∧ (postNotify x0 s).cal = s.cal ∧ (postNotify x0 s).ls = s.ls ∧
    (postNotify x0 s).rk = s.rk ∧ (postNotify x0 s).test = s.test ∧ (postNotify x0 s).life = s.life ∧
    (postNotify x0 s).boot = s.boot ∧ (postNotify x0 s).stat = s.stat ∧ (postNotify x0 s).fresh = s.fresh ∧
    (postNotify x0 s).pending = s.pending := by
  unfold postNotify
  simp

@[simp] theorem raise_frame (x0 : Nat) (x1 : List Byte) (s : State) :
    (raise x0 x1 s).sys = s.sys ∧ (raise x0 x1 s).em = s.em ∧ (raise x0 x1 s).tm = s.tm ∧ (raise x0 x1 s).clk = s.clk ∧
    (raise x0 x1 s).cfg = s.cfg ∧ (raise x0 x1 s).fh = s.fh ∧ (raise x0 x1 s).dl = s.dl ∧ (raise x0 x1 s).ul = s.ul ∧
    (raise x0 x1 s).bf = s.bf ∧ (raise x0 x1 s).lin = s.lin ∧ (raise x0 x1 s).core = s.core ∧ (raise x0 x1 s).rf = s.rf ∧
    (raise x0 x1 s).bias = s.bias ∧ (raise x0 x1 s).hk = s.hk ∧ (raise x0 x1 s).pwr = s.pwr ∧ (raise x0 x1 s).th = s.th ∧
    (raise x0 x1 s).nvm = s.nvm ∧ (raise x0 x1 s).cal = s.cal ∧ (raise x0 x1 s).ls = s.ls ∧ (raise x0 x1 s).rk = s.rk ∧
    (raise x0 x1 s).test = s.test ∧ (raise x0 x1 s).life = s.life ∧ (raise x0 x1 s).boot = s.boot ∧
    (raise x0 x1 s).stat = s.stat ∧ (raise x0 x1 s).fresh = s.fresh ∧ (raise x0 x1 s).pending = s.pending := by
  unfold raise
  simp

@[simp] theorem notifyAll_frame (l : List Nat) (s : State) :
    (notifyAll s l).sys = s.sys ∧ (notifyAll s l).em = s.em ∧ (notifyAll s l).tm = s.tm ∧ (notifyAll s l).clk = s.clk ∧
    (notifyAll s l).cfg = s.cfg ∧ (notifyAll s l).fh = s.fh ∧ (notifyAll s l).dl = s.dl ∧ (notifyAll s l).ul = s.ul ∧
    (notifyAll s l).bf = s.bf ∧ (notifyAll s l).lin = s.lin ∧ (notifyAll s l).core = s.core ∧ (notifyAll s l).rf = s.rf ∧
    (notifyAll s l).bias = s.bias ∧ (notifyAll s l).hk = s.hk ∧ (notifyAll s l).pwr = s.pwr ∧ (notifyAll s l).th = s.th ∧
    (notifyAll s l).nvm = s.nvm ∧ (notifyAll s l).cal = s.cal ∧ (notifyAll s l).ls = s.ls ∧ (notifyAll s l).rk = s.rk ∧
    (notifyAll s l).test = s.test ∧ (notifyAll s l).life = s.life ∧ (notifyAll s l).boot = s.boot ∧
    (notifyAll s l).stat = s.stat ∧ (notifyAll s l).fresh = s.fresh ∧ (notifyAll s l).pending = s.pending := by
  induction l generalizing s <;> simp only [notifyAll] <;> (repeat' split) <;> simp_all

@[simp] theorem setMask_frame (x0 : BitVec 256) (s : State) :
    (setMask x0 s).sys = s.sys ∧ (setMask x0 s).em = s.em ∧ (setMask x0 s).tm = s.tm ∧ (setMask x0 s).clk = s.clk ∧
    (setMask x0 s).cfg = s.cfg ∧ (setMask x0 s).fh = s.fh ∧ (setMask x0 s).dl = s.dl ∧ (setMask x0 s).ul = s.ul ∧
    (setMask x0 s).bf = s.bf ∧ (setMask x0 s).lin = s.lin ∧ (setMask x0 s).core = s.core ∧ (setMask x0 s).rf = s.rf ∧
    (setMask x0 s).bias = s.bias ∧ (setMask x0 s).hk = s.hk ∧ (setMask x0 s).pwr = s.pwr ∧ (setMask x0 s).th = s.th ∧
    (setMask x0 s).nvm = s.nvm ∧ (setMask x0 s).cal = s.cal ∧ (setMask x0 s).ls = s.ls ∧ (setMask x0 s).rk = s.rk ∧
    (setMask x0 s).test = s.test ∧ (setMask x0 s).life = s.life ∧ (setMask x0 s).boot = s.boot ∧
    (setMask x0 s).stat = s.stat ∧ (setMask x0 s).fresh = s.fresh ∧ (setMask x0 s).pending = s.pending := by
  unfold setMask
  simp

@[simp] theorem clearStatus_frame (x0 : BitVec 256) (s : State) :
    (clearStatus x0 s).ph = s.ph ∧ (clearStatus x0 s).sys = s.sys ∧ (clearStatus x0 s).em = s.em ∧
    (clearStatus x0 s).tm = s.tm ∧ (clearStatus x0 s).clk = s.clk ∧ (clearStatus x0 s).cfg = s.cfg ∧
    (clearStatus x0 s).fh = s.fh ∧ (clearStatus x0 s).dl = s.dl ∧ (clearStatus x0 s).ul = s.ul ∧
    (clearStatus x0 s).bf = s.bf ∧ (clearStatus x0 s).lin = s.lin ∧ (clearStatus x0 s).core = s.core ∧
    (clearStatus x0 s).rf = s.rf ∧ (clearStatus x0 s).bias = s.bias ∧ (clearStatus x0 s).hk = s.hk ∧
    (clearStatus x0 s).pwr = s.pwr ∧ (clearStatus x0 s).th = s.th ∧ (clearStatus x0 s).nvm = s.nvm ∧
    (clearStatus x0 s).cal = s.cal ∧ (clearStatus x0 s).ls = s.ls ∧ (clearStatus x0 s).rk = s.rk ∧
    (clearStatus x0 s).test = s.test ∧ (clearStatus x0 s).life = s.life ∧ (clearStatus x0 s).boot = s.boot ∧
    (clearStatus x0 s).stat = s.stat ∧ (clearStatus x0 s).out = s.out ∧ (clearStatus x0 s).fresh = s.fresh ∧
    (clearStatus x0 s).pending = s.pending := by
  unfold clearStatus
  simp

@[simp] theorem postMsg_frame (x0 : Nat) (x1 : List Byte) (s : State) :
    (postMsg x0 x1 s).sys = s.sys ∧ (postMsg x0 x1 s).em = s.em ∧ (postMsg x0 x1 s).tm = s.tm ∧
    (postMsg x0 x1 s).clk = s.clk ∧ (postMsg x0 x1 s).cfg = s.cfg ∧ (postMsg x0 x1 s).fh = s.fh ∧
    (postMsg x0 x1 s).dl = s.dl ∧ (postMsg x0 x1 s).ul = s.ul ∧ (postMsg x0 x1 s).bf = s.bf ∧ (postMsg x0 x1 s).lin = s.lin ∧
    (postMsg x0 x1 s).core = s.core ∧ (postMsg x0 x1 s).rf = s.rf ∧ (postMsg x0 x1 s).bias = s.bias ∧
    (postMsg x0 x1 s).hk = s.hk ∧ (postMsg x0 x1 s).pwr = s.pwr ∧ (postMsg x0 x1 s).th = s.th ∧
    (postMsg x0 x1 s).nvm = s.nvm ∧ (postMsg x0 x1 s).cal = s.cal ∧ (postMsg x0 x1 s).ls = s.ls ∧
    (postMsg x0 x1 s).rk = s.rk ∧ (postMsg x0 x1 s).test = s.test ∧ (postMsg x0 x1 s).life = s.life ∧
    (postMsg x0 x1 s).boot = s.boot ∧ (postMsg x0 x1 s).stat = s.stat ∧ (postMsg x0 x1 s).fresh = s.fresh ∧
    (postMsg x0 x1 s).pending = s.pending := by
  unfold postMsg
  simp

@[simp] theorem sendMsg_frame (x0 : Nat) (x1 : List Byte) (s : State) :
    (sendMsg x0 x1 s).sys = s.sys ∧ (sendMsg x0 x1 s).em = s.em ∧ (sendMsg x0 x1 s).tm = s.tm ∧
    (sendMsg x0 x1 s).clk = s.clk ∧ (sendMsg x0 x1 s).cfg = s.cfg ∧ (sendMsg x0 x1 s).fh = s.fh ∧
    (sendMsg x0 x1 s).dl = s.dl ∧ (sendMsg x0 x1 s).ul = s.ul ∧ (sendMsg x0 x1 s).bf = s.bf ∧ (sendMsg x0 x1 s).lin = s.lin ∧
    (sendMsg x0 x1 s).core = s.core ∧ (sendMsg x0 x1 s).rf = s.rf ∧ (sendMsg x0 x1 s).bias = s.bias ∧
    (sendMsg x0 x1 s).hk = s.hk ∧ (sendMsg x0 x1 s).pwr = s.pwr ∧ (sendMsg x0 x1 s).th = s.th ∧
    (sendMsg x0 x1 s).nvm = s.nvm ∧ (sendMsg x0 x1 s).cal = s.cal ∧ (sendMsg x0 x1 s).ls = s.ls ∧
    (sendMsg x0 x1 s).rk = s.rk ∧ (sendMsg x0 x1 s).test = s.test ∧ (sendMsg x0 x1 s).life = s.life ∧
    (sendMsg x0 x1 s).boot = s.boot ∧ (sendMsg x0 x1 s).stat = s.stat ∧ (sendMsg x0 x1 s).fresh = s.fresh ∧
    (sendMsg x0 x1 s).pending = s.pending := by
  unfold sendMsg
  simp

@[simp] theorem flushHeld_frame (n : Nat) (l : List (List Byte)) (s : State) :
    (flushHeld n l s).sys = s.sys ∧ (flushHeld n l s).em = s.em ∧ (flushHeld n l s).tm = s.tm ∧
    (flushHeld n l s).clk = s.clk ∧ (flushHeld n l s).cfg = s.cfg ∧ (flushHeld n l s).fh = s.fh ∧
    (flushHeld n l s).dl = s.dl ∧ (flushHeld n l s).ul = s.ul ∧ (flushHeld n l s).bf = s.bf ∧ (flushHeld n l s).lin = s.lin ∧
    (flushHeld n l s).core = s.core ∧ (flushHeld n l s).rf = s.rf ∧ (flushHeld n l s).bias = s.bias ∧
    (flushHeld n l s).hk = s.hk ∧ (flushHeld n l s).pwr = s.pwr ∧ (flushHeld n l s).th = s.th ∧
    (flushHeld n l s).nvm = s.nvm ∧ (flushHeld n l s).cal = s.cal ∧ (flushHeld n l s).ls = s.ls ∧
    (flushHeld n l s).rk = s.rk ∧ (flushHeld n l s).test = s.test ∧ (flushHeld n l s).life = s.life ∧
    (flushHeld n l s).boot = s.boot ∧ (flushHeld n l s).stat = s.stat ∧ (flushHeld n l s).fresh = s.fresh ∧
    (flushHeld n l s).pending = s.pending := by
  induction l generalizing s <;> simp only [flushHeld] <;> (repeat' split) <;> simp_all

@[simp] theorem flushRing_frame (x0 : Nat) (s : State) :
    (flushRing x0 s).sys = s.sys ∧ (flushRing x0 s).em = s.em ∧ (flushRing x0 s).tm = s.tm ∧ (flushRing x0 s).clk = s.clk ∧
    (flushRing x0 s).cfg = s.cfg ∧ (flushRing x0 s).fh = s.fh ∧ (flushRing x0 s).dl = s.dl ∧ (flushRing x0 s).ul = s.ul ∧
    (flushRing x0 s).bf = s.bf ∧ (flushRing x0 s).lin = s.lin ∧ (flushRing x0 s).core = s.core ∧ (flushRing x0 s).rf = s.rf ∧
    (flushRing x0 s).bias = s.bias ∧ (flushRing x0 s).hk = s.hk ∧ (flushRing x0 s).pwr = s.pwr ∧ (flushRing x0 s).th = s.th ∧
    (flushRing x0 s).nvm = s.nvm ∧ (flushRing x0 s).cal = s.cal ∧ (flushRing x0 s).ls = s.ls ∧ (flushRing x0 s).rk = s.rk ∧
    (flushRing x0 s).test = s.test ∧ (flushRing x0 s).life = s.life ∧ (flushRing x0 s).boot = s.boot ∧
    (flushRing x0 s).stat = s.stat ∧ (flushRing x0 s).fresh = s.fresh ∧ (flushRing x0 s).pending = s.pending := by
  unfold flushRing
  simp

@[simp] theorem sendDevice_frame (x0 : Nat) (x1 : Nat) (x2 : List Byte) (s : State) :
    (sendDevice x0 x1 x2 s).sys = s.sys ∧ (sendDevice x0 x1 x2 s).em = s.em ∧ (sendDevice x0 x1 x2 s).tm = s.tm ∧
    (sendDevice x0 x1 x2 s).clk = s.clk ∧ (sendDevice x0 x1 x2 s).cfg = s.cfg ∧ (sendDevice x0 x1 x2 s).fh = s.fh ∧
    (sendDevice x0 x1 x2 s).dl = s.dl ∧ (sendDevice x0 x1 x2 s).ul = s.ul ∧ (sendDevice x0 x1 x2 s).bf = s.bf ∧
    (sendDevice x0 x1 x2 s).lin = s.lin ∧ (sendDevice x0 x1 x2 s).core = s.core ∧ (sendDevice x0 x1 x2 s).rf = s.rf ∧
    (sendDevice x0 x1 x2 s).bias = s.bias ∧ (sendDevice x0 x1 x2 s).hk = s.hk ∧ (sendDevice x0 x1 x2 s).pwr = s.pwr ∧
    (sendDevice x0 x1 x2 s).th = s.th ∧ (sendDevice x0 x1 x2 s).nvm = s.nvm ∧ (sendDevice x0 x1 x2 s).cal = s.cal ∧
    (sendDevice x0 x1 x2 s).ls = s.ls ∧ (sendDevice x0 x1 x2 s).rk = s.rk ∧ (sendDevice x0 x1 x2 s).test = s.test ∧
    (sendDevice x0 x1 x2 s).life = s.life ∧ (sendDevice x0 x1 x2 s).boot = s.boot ∧ (sendDevice x0 x1 x2 s).stat = s.stat ∧
    (sendDevice x0 x1 x2 s).fresh = s.fresh ∧ (sendDevice x0 x1 x2 s).pending = s.pending := by
  unfold sendDevice
  simp

@[simp] theorem sramCount_frame (x0 : Bool) (x1 : Nat) (s : State) :
    (sramCount x0 x1 s).ph = s.ph ∧ (sramCount x0 x1 s).ev = s.ev ∧ (sramCount x0 x1 s).sys = s.sys ∧
    (sramCount x0 x1 s).em = s.em ∧ (sramCount x0 x1 s).tm = s.tm ∧ (sramCount x0 x1 s).clk = s.clk ∧
    (sramCount x0 x1 s).cfg = s.cfg ∧ (sramCount x0 x1 s).fh = s.fh ∧ (sramCount x0 x1 s).dl = s.dl ∧
    (sramCount x0 x1 s).ul = s.ul ∧ (sramCount x0 x1 s).bf = s.bf ∧ (sramCount x0 x1 s).lin = s.lin ∧
    (sramCount x0 x1 s).core = s.core ∧ (sramCount x0 x1 s).rf = s.rf ∧ (sramCount x0 x1 s).bias = s.bias ∧
    (sramCount x0 x1 s).hk = s.hk ∧ (sramCount x0 x1 s).pwr = s.pwr ∧ (sramCount x0 x1 s).th = s.th ∧
    (sramCount x0 x1 s).nvm = s.nvm ∧ (sramCount x0 x1 s).cal = s.cal ∧ (sramCount x0 x1 s).rk = s.rk ∧
    (sramCount x0 x1 s).test = s.test ∧ (sramCount x0 x1 s).life = s.life ∧ (sramCount x0 x1 s).boot = s.boot ∧
    (sramCount x0 x1 s).stat = s.stat ∧ (sramCount x0 x1 s).out = s.out ∧ (sramCount x0 x1 s).fresh = s.fresh ∧
    (sramCount x0 x1 s).pending = s.pending := by
  unfold sramCount
  simp

@[simp] theorem sramError_frame (x0 : Bool) (x1 : Nat) (x2 : Nat) (x3 : Nat) (s : State) :
    (sramError x0 x1 x2 x3 s).sys = s.sys ∧ (sramError x0 x1 x2 x3 s).em = s.em ∧ (sramError x0 x1 x2 x3 s).tm = s.tm ∧
    (sramError x0 x1 x2 x3 s).clk = s.clk ∧ (sramError x0 x1 x2 x3 s).cfg = s.cfg ∧ (sramError x0 x1 x2 x3 s).fh = s.fh ∧
    (sramError x0 x1 x2 x3 s).dl = s.dl ∧ (sramError x0 x1 x2 x3 s).ul = s.ul ∧ (sramError x0 x1 x2 x3 s).bf = s.bf ∧
    (sramError x0 x1 x2 x3 s).lin = s.lin ∧ (sramError x0 x1 x2 x3 s).core = s.core ∧ (sramError x0 x1 x2 x3 s).rf = s.rf ∧
    (sramError x0 x1 x2 x3 s).bias = s.bias ∧ (sramError x0 x1 x2 x3 s).hk = s.hk ∧ (sramError x0 x1 x2 x3 s).pwr = s.pwr ∧
    (sramError x0 x1 x2 x3 s).th = s.th ∧ (sramError x0 x1 x2 x3 s).nvm = s.nvm ∧ (sramError x0 x1 x2 x3 s).cal = s.cal ∧
    (sramError x0 x1 x2 x3 s).rk = s.rk ∧ (sramError x0 x1 x2 x3 s).test = s.test ∧ (sramError x0 x1 x2 x3 s).life = s.life ∧
    (sramError x0 x1 x2 x3 s).boot = s.boot ∧ (sramError x0 x1 x2 x3 s).stat = s.stat ∧
    (sramError x0 x1 x2 x3 s).fresh = s.fresh ∧ (sramError x0 x1 x2 x3 s).pending = s.pending := by
  unfold sramError
  simp

@[simp] theorem readWord_frame (x0 : Nat) (x1 : Nat) (s : State) :
    (readWord x0 x1 s).sys = s.sys ∧ (readWord x0 x1 s).em = s.em ∧ (readWord x0 x1 s).tm = s.tm ∧
    (readWord x0 x1 s).clk = s.clk ∧ (readWord x0 x1 s).cfg = s.cfg ∧ (readWord x0 x1 s).fh = s.fh ∧
    (readWord x0 x1 s).dl = s.dl ∧ (readWord x0 x1 s).ul = s.ul ∧ (readWord x0 x1 s).bf = s.bf ∧
    (readWord x0 x1 s).lin = s.lin ∧ (readWord x0 x1 s).core = s.core ∧ (readWord x0 x1 s).rf = s.rf ∧
    (readWord x0 x1 s).bias = s.bias ∧ (readWord x0 x1 s).hk = s.hk ∧ (readWord x0 x1 s).pwr = s.pwr ∧
    (readWord x0 x1 s).th = s.th ∧ (readWord x0 x1 s).nvm = s.nvm ∧ (readWord x0 x1 s).cal = s.cal ∧
    (readWord x0 x1 s).rk = s.rk ∧ (readWord x0 x1 s).test = s.test ∧ (readWord x0 x1 s).life = s.life ∧
    (readWord x0 x1 s).boot = s.boot ∧ (readWord x0 x1 s).stat = s.stat ∧ (readWord x0 x1 s).fresh = s.fresh ∧
    (readWord x0 x1 s).pending = s.pending := by
  unfold readWord
  repeat' (first | (simp; done) | (simp only [takeFree]) | split | (dsimp only))

@[simp] theorem readWords_frame (x0 : Nat) (x1 : List Nat) (s : State) :
    (readWords x0 x1 s).sys = s.sys ∧ (readWords x0 x1 s).em = s.em ∧ (readWords x0 x1 s).tm = s.tm ∧
    (readWords x0 x1 s).clk = s.clk ∧ (readWords x0 x1 s).cfg = s.cfg ∧ (readWords x0 x1 s).fh = s.fh ∧
    (readWords x0 x1 s).dl = s.dl ∧ (readWords x0 x1 s).ul = s.ul ∧ (readWords x0 x1 s).bf = s.bf ∧
    (readWords x0 x1 s).lin = s.lin ∧ (readWords x0 x1 s).core = s.core ∧ (readWords x0 x1 s).rf = s.rf ∧
    (readWords x0 x1 s).bias = s.bias ∧ (readWords x0 x1 s).hk = s.hk ∧ (readWords x0 x1 s).pwr = s.pwr ∧
    (readWords x0 x1 s).th = s.th ∧ (readWords x0 x1 s).nvm = s.nvm ∧ (readWords x0 x1 s).cal = s.cal ∧
    (readWords x0 x1 s).rk = s.rk ∧ (readWords x0 x1 s).test = s.test ∧ (readWords x0 x1 s).life = s.life ∧
    (readWords x0 x1 s).boot = s.boot ∧ (readWords x0 x1 s).stat = s.stat ∧ (readWords x0 x1 s).fresh = s.fresh ∧
    (readWords x0 x1 s).pending = s.pending := by
  unfold readWords
  simp

@[simp] theorem cleanWords_frame (x0 : Nat) (x1 : Nat) (x2 : Nat) (s : State) :
    (cleanWords x0 x1 x2 s).ph = s.ph ∧ (cleanWords x0 x1 x2 s).ev = s.ev ∧ (cleanWords x0 x1 x2 s).sys = s.sys ∧
    (cleanWords x0 x1 x2 s).em = s.em ∧ (cleanWords x0 x1 x2 s).tm = s.tm ∧ (cleanWords x0 x1 x2 s).clk = s.clk ∧
    (cleanWords x0 x1 x2 s).cfg = s.cfg ∧ (cleanWords x0 x1 x2 s).fh = s.fh ∧ (cleanWords x0 x1 x2 s).dl = s.dl ∧
    (cleanWords x0 x1 x2 s).ul = s.ul ∧ (cleanWords x0 x1 x2 s).bf = s.bf ∧ (cleanWords x0 x1 x2 s).lin = s.lin ∧
    (cleanWords x0 x1 x2 s).core = s.core ∧ (cleanWords x0 x1 x2 s).rf = s.rf ∧ (cleanWords x0 x1 x2 s).bias = s.bias ∧
    (cleanWords x0 x1 x2 s).hk = s.hk ∧ (cleanWords x0 x1 x2 s).pwr = s.pwr ∧ (cleanWords x0 x1 x2 s).th = s.th ∧
    (cleanWords x0 x1 x2 s).nvm = s.nvm ∧ (cleanWords x0 x1 x2 s).cal = s.cal ∧ (cleanWords x0 x1 x2 s).rk = s.rk ∧
    (cleanWords x0 x1 x2 s).test = s.test ∧ (cleanWords x0 x1 x2 s).life = s.life ∧ (cleanWords x0 x1 x2 s).boot = s.boot ∧
    (cleanWords x0 x1 x2 s).stat = s.stat ∧ (cleanWords x0 x1 x2 s).out = s.out ∧ (cleanWords x0 x1 x2 s).fresh = s.fresh ∧
    (cleanWords x0 x1 x2 s).pending = s.pending := by
  unfold cleanWords
  simp

@[simp] theorem meetFront_frame (x0 : Nat) (x1 : Nat) (s : State) :
    (meetFront x0 x1 s).sys = s.sys ∧ (meetFront x0 x1 s).em = s.em ∧ (meetFront x0 x1 s).tm = s.tm ∧
    (meetFront x0 x1 s).clk = s.clk ∧ (meetFront x0 x1 s).cfg = s.cfg ∧ (meetFront x0 x1 s).fh = s.fh ∧
    (meetFront x0 x1 s).dl = s.dl ∧ (meetFront x0 x1 s).ul = s.ul ∧ (meetFront x0 x1 s).bf = s.bf ∧
    (meetFront x0 x1 s).lin = s.lin ∧ (meetFront x0 x1 s).core = s.core ∧ (meetFront x0 x1 s).rf = s.rf ∧
    (meetFront x0 x1 s).bias = s.bias ∧ (meetFront x0 x1 s).hk = s.hk ∧ (meetFront x0 x1 s).pwr = s.pwr ∧
    (meetFront x0 x1 s).th = s.th ∧ (meetFront x0 x1 s).nvm = s.nvm ∧ (meetFront x0 x1 s).cal = s.cal ∧
    (meetFront x0 x1 s).rk = s.rk ∧ (meetFront x0 x1 s).test = s.test ∧ (meetFront x0 x1 s).life = s.life ∧
    (meetFront x0 x1 s).boot = s.boot ∧ (meetFront x0 x1 s).stat = s.stat ∧ (meetFront x0 x1 s).fresh = s.fresh ∧
    (meetFront x0 x1 s).pending = s.pending := by
  unfold meetFront
  simp

@[simp] theorem sendResponse_frame (x0 : Asker) (x1 : Bool) (x2 : List Byte) (s : State) :
    (sendResponse x0 x1 x2 s).sys = s.sys ∧ (sendResponse x0 x1 x2 s).em = s.em ∧ (sendResponse x0 x1 x2 s).tm = s.tm ∧
    (sendResponse x0 x1 x2 s).clk = s.clk ∧ (sendResponse x0 x1 x2 s).cfg = s.cfg ∧ (sendResponse x0 x1 x2 s).fh = s.fh ∧
    (sendResponse x0 x1 x2 s).dl = s.dl ∧ (sendResponse x0 x1 x2 s).ul = s.ul ∧ (sendResponse x0 x1 x2 s).bf = s.bf ∧
    (sendResponse x0 x1 x2 s).lin = s.lin ∧ (sendResponse x0 x1 x2 s).core = s.core ∧ (sendResponse x0 x1 x2 s).rf = s.rf ∧
    (sendResponse x0 x1 x2 s).bias = s.bias ∧ (sendResponse x0 x1 x2 s).hk = s.hk ∧ (sendResponse x0 x1 x2 s).pwr = s.pwr ∧
    (sendResponse x0 x1 x2 s).th = s.th ∧ (sendResponse x0 x1 x2 s).nvm = s.nvm ∧ (sendResponse x0 x1 x2 s).cal = s.cal ∧
    (sendResponse x0 x1 x2 s).ls = s.ls ∧ (sendResponse x0 x1 x2 s).rk = s.rk ∧ (sendResponse x0 x1 x2 s).test = s.test ∧
    (sendResponse x0 x1 x2 s).life = s.life ∧ (sendResponse x0 x1 x2 s).boot = s.boot ∧
    (sendResponse x0 x1 x2 s).stat = s.stat ∧ (sendResponse x0 x1 x2 s).fresh = s.fresh ∧
    (sendResponse x0 x1 x2 s).pending = s.pending := by
  unfold sendResponse
  simp

@[simp] theorem remember_frame (x0 : Asker) (x1 : List Byte) (x2 : Bool) (s : State) :
    (remember x0 x1 x2 s).ev = s.ev ∧ (remember x0 x1 x2 s).sys = s.sys ∧ (remember x0 x1 x2 s).em = s.em ∧
    (remember x0 x1 x2 s).tm = s.tm ∧ (remember x0 x1 x2 s).clk = s.clk ∧ (remember x0 x1 x2 s).cfg = s.cfg ∧
    (remember x0 x1 x2 s).fh = s.fh ∧ (remember x0 x1 x2 s).dl = s.dl ∧ (remember x0 x1 x2 s).ul = s.ul ∧
    (remember x0 x1 x2 s).bf = s.bf ∧ (remember x0 x1 x2 s).lin = s.lin ∧ (remember x0 x1 x2 s).core = s.core ∧
    (remember x0 x1 x2 s).rf = s.rf ∧ (remember x0 x1 x2 s).bias = s.bias ∧ (remember x0 x1 x2 s).hk = s.hk ∧
    (remember x0 x1 x2 s).pwr = s.pwr ∧ (remember x0 x1 x2 s).th = s.th ∧ (remember x0 x1 x2 s).nvm = s.nvm ∧
    (remember x0 x1 x2 s).cal = s.cal ∧ (remember x0 x1 x2 s).ls = s.ls ∧ (remember x0 x1 x2 s).rk = s.rk ∧
    (remember x0 x1 x2 s).test = s.test ∧ (remember x0 x1 x2 s).life = s.life ∧ (remember x0 x1 x2 s).boot = s.boot ∧
    (remember x0 x1 x2 s).stat = s.stat ∧ (remember x0 x1 x2 s).out = s.out ∧ (remember x0 x1 x2 s).fresh = s.fresh ∧
    (remember x0 x1 x2 s).pending = s.pending := by
  unfold remember
  simp

@[simp] theorem updateReplay_frame (x0 : Asker) (x1 : List Byte) (x2 : Bool) (s : State) :
    (updateReplay x0 x1 x2 s).ev = s.ev ∧ (updateReplay x0 x1 x2 s).sys = s.sys ∧ (updateReplay x0 x1 x2 s).em = s.em ∧
    (updateReplay x0 x1 x2 s).tm = s.tm ∧ (updateReplay x0 x1 x2 s).clk = s.clk ∧ (updateReplay x0 x1 x2 s).cfg = s.cfg ∧
    (updateReplay x0 x1 x2 s).fh = s.fh ∧ (updateReplay x0 x1 x2 s).dl = s.dl ∧ (updateReplay x0 x1 x2 s).ul = s.ul ∧
    (updateReplay x0 x1 x2 s).bf = s.bf ∧ (updateReplay x0 x1 x2 s).lin = s.lin ∧ (updateReplay x0 x1 x2 s).core = s.core ∧
    (updateReplay x0 x1 x2 s).rf = s.rf ∧ (updateReplay x0 x1 x2 s).bias = s.bias ∧ (updateReplay x0 x1 x2 s).hk = s.hk ∧
    (updateReplay x0 x1 x2 s).pwr = s.pwr ∧ (updateReplay x0 x1 x2 s).th = s.th ∧ (updateReplay x0 x1 x2 s).nvm = s.nvm ∧
    (updateReplay x0 x1 x2 s).cal = s.cal ∧ (updateReplay x0 x1 x2 s).ls = s.ls ∧ (updateReplay x0 x1 x2 s).rk = s.rk ∧
    (updateReplay x0 x1 x2 s).test = s.test ∧ (updateReplay x0 x1 x2 s).life = s.life ∧
    (updateReplay x0 x1 x2 s).boot = s.boot ∧ (updateReplay x0 x1 x2 s).stat = s.stat ∧
    (updateReplay x0 x1 x2 s).out = s.out ∧ (updateReplay x0 x1 x2 s).fresh = s.fresh ∧
    (updateReplay x0 x1 x2 s).pending = s.pending := by
  unfold updateReplay
  simp

@[simp] theorem clearRing_frame (x0 : Nat) (s : State) :
    (clearRing x0 s).ev = s.ev ∧ (clearRing x0 s).sys = s.sys ∧ (clearRing x0 s).em = s.em ∧ (clearRing x0 s).tm = s.tm ∧
    (clearRing x0 s).clk = s.clk ∧ (clearRing x0 s).cfg = s.cfg ∧ (clearRing x0 s).fh = s.fh ∧ (clearRing x0 s).dl = s.dl ∧
    (clearRing x0 s).ul = s.ul ∧ (clearRing x0 s).bf = s.bf ∧ (clearRing x0 s).lin = s.lin ∧ (clearRing x0 s).core = s.core ∧
    (clearRing x0 s).rf = s.rf ∧ (clearRing x0 s).bias = s.bias ∧ (clearRing x0 s).hk = s.hk ∧ (clearRing x0 s).pwr = s.pwr ∧
    (clearRing x0 s).th = s.th ∧ (clearRing x0 s).nvm = s.nvm ∧ (clearRing x0 s).cal = s.cal ∧ (clearRing x0 s).ls = s.ls ∧
    (clearRing x0 s).rk = s.rk ∧ (clearRing x0 s).test = s.test ∧ (clearRing x0 s).life = s.life ∧
    (clearRing x0 s).boot = s.boot ∧ (clearRing x0 s).stat = s.stat ∧ (clearRing x0 s).out = s.out ∧
    (clearRing x0 s).fresh = s.fresh ∧ (clearRing x0 s).pending = s.pending := by
  unfold clearRing
  simp

@[simp] theorem finish_frame (x0 : Asker) (x1 : Nat) (x2 : Nat) (x3 : List Byte) (s : State) :
    (finish x0 x1 x2 x3 s).sys = s.sys ∧ (finish x0 x1 x2 x3 s).em = s.em ∧ (finish x0 x1 x2 x3 s).tm = s.tm ∧
    (finish x0 x1 x2 x3 s).clk = s.clk ∧ (finish x0 x1 x2 x3 s).cfg = s.cfg ∧ (finish x0 x1 x2 x3 s).fh = s.fh ∧
    (finish x0 x1 x2 x3 s).dl = s.dl ∧ (finish x0 x1 x2 x3 s).ul = s.ul ∧ (finish x0 x1 x2 x3 s).bf = s.bf ∧
    (finish x0 x1 x2 x3 s).lin = s.lin ∧ (finish x0 x1 x2 x3 s).core = s.core ∧ (finish x0 x1 x2 x3 s).rf = s.rf ∧
    (finish x0 x1 x2 x3 s).bias = s.bias ∧ (finish x0 x1 x2 x3 s).hk = s.hk ∧ (finish x0 x1 x2 x3 s).pwr = s.pwr ∧
    (finish x0 x1 x2 x3 s).th = s.th ∧ (finish x0 x1 x2 x3 s).nvm = s.nvm ∧ (finish x0 x1 x2 x3 s).cal = s.cal ∧
    (finish x0 x1 x2 x3 s).ls = s.ls ∧ (finish x0 x1 x2 x3 s).rk = s.rk ∧ (finish x0 x1 x2 x3 s).test = s.test ∧
    (finish x0 x1 x2 x3 s).life = s.life ∧ (finish x0 x1 x2 x3 s).boot = s.boot ∧ (finish x0 x1 x2 x3 s).stat = s.stat ∧
    (finish x0 x1 x2 x3 s).fresh = s.fresh ∧ (finish x0 x1 x2 x3 s).pending = s.pending := by
  unfold finish
  simp

@[simp] theorem finishDeferred_frame (x0 : Asker) (x1 : Nat) (x2 : Nat) (x3 : List Byte) (s : State) :
    (finishDeferred x0 x1 x2 x3 s).sys = s.sys ∧ (finishDeferred x0 x1 x2 x3 s).em = s.em ∧
    (finishDeferred x0 x1 x2 x3 s).tm = s.tm ∧ (finishDeferred x0 x1 x2 x3 s).clk = s.clk ∧
    (finishDeferred x0 x1 x2 x3 s).cfg = s.cfg ∧ (finishDeferred x0 x1 x2 x3 s).fh = s.fh ∧
    (finishDeferred x0 x1 x2 x3 s).dl = s.dl ∧ (finishDeferred x0 x1 x2 x3 s).ul = s.ul ∧
    (finishDeferred x0 x1 x2 x3 s).bf = s.bf ∧ (finishDeferred x0 x1 x2 x3 s).lin = s.lin ∧
    (finishDeferred x0 x1 x2 x3 s).core = s.core ∧ (finishDeferred x0 x1 x2 x3 s).rf = s.rf ∧
    (finishDeferred x0 x1 x2 x3 s).bias = s.bias ∧ (finishDeferred x0 x1 x2 x3 s).hk = s.hk ∧
    (finishDeferred x0 x1 x2 x3 s).pwr = s.pwr ∧ (finishDeferred x0 x1 x2 x3 s).th = s.th ∧
    (finishDeferred x0 x1 x2 x3 s).nvm = s.nvm ∧ (finishDeferred x0 x1 x2 x3 s).cal = s.cal ∧
    (finishDeferred x0 x1 x2 x3 s).ls = s.ls ∧ (finishDeferred x0 x1 x2 x3 s).rk = s.rk ∧
    (finishDeferred x0 x1 x2 x3 s).test = s.test ∧ (finishDeferred x0 x1 x2 x3 s).life = s.life ∧
    (finishDeferred x0 x1 x2 x3 s).boot = s.boot ∧ (finishDeferred x0 x1 x2 x3 s).stat = s.stat ∧
    (finishDeferred x0 x1 x2 x3 s).fresh = s.fresh ∧ (finishDeferred x0 x1 x2 x3 s).pending = s.pending := by
  unfold finishDeferred
  simp

@[simp] theorem finishLong_frame (x0 : LongKind) (x1 : Nat) (x2 : Nat) (x3 : List Byte) (s : State) :
    (finishLong x0 x1 x2 x3 s).sys = s.sys ∧ (finishLong x0 x1 x2 x3 s).em = s.em ∧ (finishLong x0 x1 x2 x3 s).tm = s.tm ∧
    (finishLong x0 x1 x2 x3 s).clk = s.clk ∧ (finishLong x0 x1 x2 x3 s).cfg = s.cfg ∧ (finishLong x0 x1 x2 x3 s).fh = s.fh ∧
    (finishLong x0 x1 x2 x3 s).dl = s.dl ∧ (finishLong x0 x1 x2 x3 s).ul = s.ul ∧ (finishLong x0 x1 x2 x3 s).bf = s.bf ∧
    (finishLong x0 x1 x2 x3 s).lin = s.lin ∧ (finishLong x0 x1 x2 x3 s).core = s.core ∧ (finishLong x0 x1 x2 x3 s).rf = s.rf ∧
    (finishLong x0 x1 x2 x3 s).bias = s.bias ∧ (finishLong x0 x1 x2 x3 s).hk = s.hk ∧ (finishLong x0 x1 x2 x3 s).pwr = s.pwr ∧
    (finishLong x0 x1 x2 x3 s).th = s.th ∧ (finishLong x0 x1 x2 x3 s).nvm = s.nvm ∧ (finishLong x0 x1 x2 x3 s).cal = s.cal ∧
    (finishLong x0 x1 x2 x3 s).ls = s.ls ∧ (finishLong x0 x1 x2 x3 s).rk = s.rk ∧ (finishLong x0 x1 x2 x3 s).test = s.test ∧
    (finishLong x0 x1 x2 x3 s).life = s.life ∧ (finishLong x0 x1 x2 x3 s).boot = s.boot ∧
    (finishLong x0 x1 x2 x3 s).stat = s.stat ∧ (finishLong x0 x1 x2 x3 s).fresh = s.fresh ∧
    (finishLong x0 x1 x2 x3 s).pending = s.pending := by
  unfold finishLong
  repeat' (first | (simp; done) | (simp only [takeFree]) | split | (dsimp only))

@[simp] theorem spiAnswer_frame (x0 : Nat) (x1 : List Byte) (s : State) :
    (spiAnswer x0 x1 s).ph = s.ph ∧ (spiAnswer x0 x1 s).ev = s.ev ∧ (spiAnswer x0 x1 s).sys = s.sys ∧
    (spiAnswer x0 x1 s).em = s.em ∧ (spiAnswer x0 x1 s).tm = s.tm ∧ (spiAnswer x0 x1 s).clk = s.clk ∧
    (spiAnswer x0 x1 s).cfg = s.cfg ∧ (spiAnswer x0 x1 s).fh = s.fh ∧ (spiAnswer x0 x1 s).dl = s.dl ∧
    (spiAnswer x0 x1 s).ul = s.ul ∧ (spiAnswer x0 x1 s).bf = s.bf ∧ (spiAnswer x0 x1 s).lin = s.lin ∧
    (spiAnswer x0 x1 s).core = s.core ∧ (spiAnswer x0 x1 s).rf = s.rf ∧ (spiAnswer x0 x1 s).bias = s.bias ∧
    (spiAnswer x0 x1 s).hk = s.hk ∧ (spiAnswer x0 x1 s).pwr = s.pwr ∧ (spiAnswer x0 x1 s).th = s.th ∧
    (spiAnswer x0 x1 s).nvm = s.nvm ∧ (spiAnswer x0 x1 s).cal = s.cal ∧ (spiAnswer x0 x1 s).ls = s.ls ∧
    (spiAnswer x0 x1 s).rk = s.rk ∧ (spiAnswer x0 x1 s).test = s.test ∧ (spiAnswer x0 x1 s).life = s.life ∧
    (spiAnswer x0 x1 s).boot = s.boot ∧ (spiAnswer x0 x1 s).stat = s.stat ∧ (spiAnswer x0 x1 s).fresh = s.fresh ∧
    (spiAnswer x0 x1 s).pending = s.pending := by
  unfold spiAnswer
  simp

@[simp] theorem statPut_frame (x0 : Nat) (x1 : Nat) (x2 : Nat) (x3 : Nat) (s : State) :
    (statPut x0 x1 x2 x3 s).ph = s.ph ∧ (statPut x0 x1 x2 x3 s).ev = s.ev ∧ (statPut x0 x1 x2 x3 s).sys = s.sys ∧
    (statPut x0 x1 x2 x3 s).em = s.em ∧ (statPut x0 x1 x2 x3 s).tm = s.tm ∧ (statPut x0 x1 x2 x3 s).clk = s.clk ∧
    (statPut x0 x1 x2 x3 s).cfg = s.cfg ∧ (statPut x0 x1 x2 x3 s).fh = s.fh ∧ (statPut x0 x1 x2 x3 s).dl = s.dl ∧
    (statPut x0 x1 x2 x3 s).ul = s.ul ∧ (statPut x0 x1 x2 x3 s).bf = s.bf ∧ (statPut x0 x1 x2 x3 s).lin = s.lin ∧
    (statPut x0 x1 x2 x3 s).core = s.core ∧ (statPut x0 x1 x2 x3 s).rf = s.rf ∧ (statPut x0 x1 x2 x3 s).bias = s.bias ∧
    (statPut x0 x1 x2 x3 s).hk = s.hk ∧ (statPut x0 x1 x2 x3 s).pwr = s.pwr ∧ (statPut x0 x1 x2 x3 s).th = s.th ∧
    (statPut x0 x1 x2 x3 s).nvm = s.nvm ∧ (statPut x0 x1 x2 x3 s).cal = s.cal ∧ (statPut x0 x1 x2 x3 s).ls = s.ls ∧
    (statPut x0 x1 x2 x3 s).rk = s.rk ∧ (statPut x0 x1 x2 x3 s).test = s.test ∧ (statPut x0 x1 x2 x3 s).life = s.life ∧
    (statPut x0 x1 x2 x3 s).boot = s.boot ∧ (statPut x0 x1 x2 x3 s).out = s.out ∧ (statPut x0 x1 x2 x3 s).fresh = s.fresh ∧
    (statPut x0 x1 x2 x3 s).pending = s.pending := by
  unfold statPut
  simp

@[simp] theorem statAdd_frame (x0 : Nat) (x1 : Nat) (x2 : Nat) (x3 : Nat) (s : State) :
    (statAdd x0 x1 x2 x3 s).ph = s.ph ∧ (statAdd x0 x1 x2 x3 s).ev = s.ev ∧ (statAdd x0 x1 x2 x3 s).sys = s.sys ∧
    (statAdd x0 x1 x2 x3 s).em = s.em ∧ (statAdd x0 x1 x2 x3 s).tm = s.tm ∧ (statAdd x0 x1 x2 x3 s).clk = s.clk ∧
    (statAdd x0 x1 x2 x3 s).cfg = s.cfg ∧ (statAdd x0 x1 x2 x3 s).fh = s.fh ∧ (statAdd x0 x1 x2 x3 s).dl = s.dl ∧
    (statAdd x0 x1 x2 x3 s).ul = s.ul ∧ (statAdd x0 x1 x2 x3 s).bf = s.bf ∧ (statAdd x0 x1 x2 x3 s).lin = s.lin ∧
    (statAdd x0 x1 x2 x3 s).core = s.core ∧ (statAdd x0 x1 x2 x3 s).rf = s.rf ∧ (statAdd x0 x1 x2 x3 s).bias = s.bias ∧
    (statAdd x0 x1 x2 x3 s).hk = s.hk ∧ (statAdd x0 x1 x2 x3 s).pwr = s.pwr ∧ (statAdd x0 x1 x2 x3 s).th = s.th ∧
    (statAdd x0 x1 x2 x3 s).nvm = s.nvm ∧ (statAdd x0 x1 x2 x3 s).cal = s.cal ∧ (statAdd x0 x1 x2 x3 s).ls = s.ls ∧
    (statAdd x0 x1 x2 x3 s).rk = s.rk ∧ (statAdd x0 x1 x2 x3 s).test = s.test ∧ (statAdd x0 x1 x2 x3 s).life = s.life ∧
    (statAdd x0 x1 x2 x3 s).boot = s.boot ∧ (statAdd x0 x1 x2 x3 s).out = s.out ∧ (statAdd x0 x1 x2 x3 s).fresh = s.fresh ∧
    (statAdd x0 x1 x2 x3 s).pending = s.pending := by
  unfold statAdd
  simp

@[simp] theorem raiseNext_frame (x0 : BitVec 8) (s : State) :
    (raiseNext x0 s).ph = s.ph ∧ (raiseNext x0 s).ev = s.ev ∧ (raiseNext x0 s).sys = s.sys ∧ (raiseNext x0 s).em = s.em ∧
    (raiseNext x0 s).tm = s.tm ∧ (raiseNext x0 s).clk = s.clk ∧ (raiseNext x0 s).cfg = s.cfg ∧ (raiseNext x0 s).fh = s.fh ∧
    (raiseNext x0 s).dl = s.dl ∧ (raiseNext x0 s).ul = s.ul ∧ (raiseNext x0 s).bf = s.bf ∧ (raiseNext x0 s).lin = s.lin ∧
    (raiseNext x0 s).core = s.core ∧ (raiseNext x0 s).rf = s.rf ∧ (raiseNext x0 s).bias = s.bias ∧
    (raiseNext x0 s).hk = s.hk ∧ (raiseNext x0 s).th = s.th ∧ (raiseNext x0 s).nvm = s.nvm ∧ (raiseNext x0 s).cal = s.cal ∧
    (raiseNext x0 s).ls = s.ls ∧ (raiseNext x0 s).rk = s.rk ∧ (raiseNext x0 s).test = s.test ∧
    (raiseNext x0 s).life = s.life ∧ (raiseNext x0 s).boot = s.boot ∧ (raiseNext x0 s).stat = s.stat ∧
    (raiseNext x0 s).out = s.out ∧ (raiseNext x0 s).fresh = s.fresh ∧ (raiseNext x0 s).pending = s.pending := by
  unfold raiseNext
  repeat' (first | (simp; done) | (simp only [takeFree]) | split | (dsimp only))

@[simp] theorem recordRefusal_frame (x0 : Nat) (x1 : Nat) (x2 : List Byte) (s : State) :
    (recordRefusal x0 x1 x2 s).sys = s.sys ∧ (recordRefusal x0 x1 x2 s).em = s.em ∧ (recordRefusal x0 x1 x2 s).tm = s.tm ∧
    (recordRefusal x0 x1 x2 s).clk = s.clk ∧ (recordRefusal x0 x1 x2 s).cfg = s.cfg ∧ (recordRefusal x0 x1 x2 s).fh = s.fh ∧
    (recordRefusal x0 x1 x2 s).dl = s.dl ∧ (recordRefusal x0 x1 x2 s).ul = s.ul ∧ (recordRefusal x0 x1 x2 s).bf = s.bf ∧
    (recordRefusal x0 x1 x2 s).lin = s.lin ∧ (recordRefusal x0 x1 x2 s).core = s.core ∧ (recordRefusal x0 x1 x2 s).rf = s.rf ∧
    (recordRefusal x0 x1 x2 s).bias = s.bias ∧ (recordRefusal x0 x1 x2 s).hk = s.hk ∧ (recordRefusal x0 x1 x2 s).th = s.th ∧
    (recordRefusal x0 x1 x2 s).nvm = s.nvm ∧ (recordRefusal x0 x1 x2 s).cal = s.cal ∧ (recordRefusal x0 x1 x2 s).ls = s.ls ∧
    (recordRefusal x0 x1 x2 s).rk = s.rk ∧ (recordRefusal x0 x1 x2 s).test = s.test ∧
    (recordRefusal x0 x1 x2 s).life = s.life ∧ (recordRefusal x0 x1 x2 s).boot = s.boot ∧
    (recordRefusal x0 x1 x2 s).stat = s.stat ∧ (recordRefusal x0 x1 x2 s).fresh = s.fresh ∧
    (recordRefusal x0 x1 x2 s).pending = s.pending := by
  unfold recordRefusal
  simp

@[simp] theorem releasePads_frame (x0 : BitVec 12) (s : State) :
    (releasePads x0 s).ph = s.ph ∧ (releasePads x0 s).ev = s.ev ∧ (releasePads x0 s).sys = s.sys ∧
    (releasePads x0 s).tm = s.tm ∧ (releasePads x0 s).clk = s.clk ∧ (releasePads x0 s).cfg = s.cfg ∧
    (releasePads x0 s).fh = s.fh ∧ (releasePads x0 s).dl = s.dl ∧ (releasePads x0 s).ul = s.ul ∧
    (releasePads x0 s).bf = s.bf ∧ (releasePads x0 s).lin = s.lin ∧ (releasePads x0 s).core = s.core ∧
    (releasePads x0 s).rf = s.rf ∧ (releasePads x0 s).bias = s.bias ∧ (releasePads x0 s).hk = s.hk ∧
    (releasePads x0 s).pwr = s.pwr ∧ (releasePads x0 s).th = s.th ∧ (releasePads x0 s).nvm = s.nvm ∧
    (releasePads x0 s).cal = s.cal ∧ (releasePads x0 s).ls = s.ls ∧ (releasePads x0 s).rk = s.rk ∧
    (releasePads x0 s).test = s.test ∧ (releasePads x0 s).life = s.life ∧ (releasePads x0 s).boot = s.boot ∧
    (releasePads x0 s).stat = s.stat ∧ (releasePads x0 s).out = s.out ∧ (releasePads x0 s).fresh = s.fresh ∧
    (releasePads x0 s).pending = s.pending := by
  unfold releasePads
  simp

@[simp] theorem comeOn_frame (x0 : BitVec 20) (s : State) :
    (comeOn x0 s).ph = s.ph ∧ (comeOn x0 s).ev = s.ev ∧ (comeOn x0 s).sys = s.sys ∧ (comeOn x0 s).tm = s.tm ∧
    (comeOn x0 s).clk = s.clk ∧ (comeOn x0 s).cfg = s.cfg ∧ (comeOn x0 s).fh = s.fh ∧ (comeOn x0 s).dl = s.dl ∧
    (comeOn x0 s).ul = s.ul ∧ (comeOn x0 s).bf = s.bf ∧ (comeOn x0 s).lin = s.lin ∧ (comeOn x0 s).core = s.core ∧
    (comeOn x0 s).rf = s.rf ∧ (comeOn x0 s).bias = s.bias ∧ (comeOn x0 s).hk = s.hk ∧ (comeOn x0 s).th = s.th ∧
    (comeOn x0 s).nvm = s.nvm ∧ (comeOn x0 s).cal = s.cal ∧ (comeOn x0 s).ls = s.ls ∧ (comeOn x0 s).rk = s.rk ∧
    (comeOn x0 s).test = s.test ∧ (comeOn x0 s).life = s.life ∧ (comeOn x0 s).boot = s.boot ∧ (comeOn x0 s).stat = s.stat ∧
    (comeOn x0 s).out = s.out ∧ (comeOn x0 s).fresh = s.fresh ∧ (comeOn x0 s).pending = s.pending := by
  unfold comeOn
  simp

@[simp] theorem endTest_frame (x0 : Bool) (x1 : Bool) (x2 : TestResult) (s : State) :
    (endTest x0 x1 x2 s).sys = s.sys ∧ (endTest x0 x1 x2 s).em = s.em ∧ (endTest x0 x1 x2 s).tm = s.tm ∧
    (endTest x0 x1 x2 s).clk = s.clk ∧ (endTest x0 x1 x2 s).cfg = s.cfg ∧ (endTest x0 x1 x2 s).fh = s.fh ∧
    (endTest x0 x1 x2 s).dl = s.dl ∧ (endTest x0 x1 x2 s).ul = s.ul ∧ (endTest x0 x1 x2 s).bf = s.bf ∧
    (endTest x0 x1 x2 s).lin = s.lin ∧ (endTest x0 x1 x2 s).core = s.core ∧ (endTest x0 x1 x2 s).rf = s.rf ∧
    (endTest x0 x1 x2 s).bias = s.bias ∧ (endTest x0 x1 x2 s).hk = s.hk ∧ (endTest x0 x1 x2 s).th = s.th ∧
    (endTest x0 x1 x2 s).nvm = s.nvm ∧ (endTest x0 x1 x2 s).cal = s.cal ∧ (endTest x0 x1 x2 s).ls = s.ls ∧
    (endTest x0 x1 x2 s).rk = s.rk ∧ (endTest x0 x1 x2 s).life = s.life ∧ (endTest x0 x1 x2 s).boot = s.boot ∧
    (endTest x0 x1 x2 s).stat = s.stat ∧ (endTest x0 x1 x2 s).fresh = s.fresh ∧ (endTest x0 x1 x2 s).pending = s.pending := by
  unfold endTest
  repeat' (first | (simp; done) | (simp only [takeFree]) | split | (dsimp only))

@[simp] theorem runningSlice_frame (x0 : List Byte) (s : State) :
    (runningSlice x0 s).2.ph = s.ph ∧ (runningSlice x0 s).2.ev = s.ev ∧ (runningSlice x0 s).2.sys = s.sys ∧
    (runningSlice x0 s).2.em = s.em ∧ (runningSlice x0 s).2.tm = s.tm ∧ (runningSlice x0 s).2.clk = s.clk ∧
    (runningSlice x0 s).2.cfg = s.cfg ∧ (runningSlice x0 s).2.fh = s.fh ∧ (runningSlice x0 s).2.dl = s.dl ∧
    (runningSlice x0 s).2.ul = s.ul ∧ (runningSlice x0 s).2.bf = s.bf ∧ (runningSlice x0 s).2.lin = s.lin ∧
    (runningSlice x0 s).2.core = s.core ∧ (runningSlice x0 s).2.rf = s.rf ∧ (runningSlice x0 s).2.bias = s.bias ∧
    (runningSlice x0 s).2.hk = s.hk ∧ (runningSlice x0 s).2.pwr = s.pwr ∧ (runningSlice x0 s).2.th = s.th ∧
    (runningSlice x0 s).2.nvm = s.nvm ∧ (runningSlice x0 s).2.cal = s.cal ∧ (runningSlice x0 s).2.ls = s.ls ∧
    (runningSlice x0 s).2.rk = s.rk ∧ (runningSlice x0 s).2.test = s.test ∧ (runningSlice x0 s).2.life = s.life ∧
    (runningSlice x0 s).2.boot = s.boot ∧ (runningSlice x0 s).2.stat = s.stat ∧ (runningSlice x0 s).2.out = s.out ∧
    (runningSlice x0 s).2.pending = s.pending := by
  unfold runningSlice
  simp

@[simp] theorem stopTestAt_frame (x0 : Bool) (x1 : List Byte) (x2 : Nat) (s : State) :
    (stopTestAt x0 x1 x2 s).sys = s.sys ∧ (stopTestAt x0 x1 x2 s).em = s.em ∧ (stopTestAt x0 x1 x2 s).tm = s.tm ∧
    (stopTestAt x0 x1 x2 s).clk = s.clk ∧ (stopTestAt x0 x1 x2 s).cfg = s.cfg ∧ (stopTestAt x0 x1 x2 s).fh = s.fh ∧
    (stopTestAt x0 x1 x2 s).dl = s.dl ∧ (stopTestAt x0 x1 x2 s).ul = s.ul ∧ (stopTestAt x0 x1 x2 s).bf = s.bf ∧
    (stopTestAt x0 x1 x2 s).lin = s.lin ∧ (stopTestAt x0 x1 x2 s).core = s.core ∧ (stopTestAt x0 x1 x2 s).rf = s.rf ∧
    (stopTestAt x0 x1 x2 s).bias = s.bias ∧ (stopTestAt x0 x1 x2 s).hk = s.hk ∧ (stopTestAt x0 x1 x2 s).th = s.th ∧
    (stopTestAt x0 x1 x2 s).nvm = s.nvm ∧ (stopTestAt x0 x1 x2 s).cal = s.cal ∧ (stopTestAt x0 x1 x2 s).ls = s.ls ∧
    (stopTestAt x0 x1 x2 s).rk = s.rk ∧ (stopTestAt x0 x1 x2 s).life = s.life ∧ (stopTestAt x0 x1 x2 s).boot = s.boot ∧
    (stopTestAt x0 x1 x2 s).stat = s.stat ∧ (stopTestAt x0 x1 x2 s).pending = s.pending := by
  unfold stopTestAt
  simp

@[simp] theorem stopTest_frame (x0 : Bool) (s : State) :
    (stopTest x0 s).sys = s.sys ∧ (stopTest x0 s).em = s.em ∧ (stopTest x0 s).tm = s.tm ∧ (stopTest x0 s).clk = s.clk ∧
    (stopTest x0 s).cfg = s.cfg ∧ (stopTest x0 s).fh = s.fh ∧ (stopTest x0 s).dl = s.dl ∧ (stopTest x0 s).ul = s.ul ∧
    (stopTest x0 s).bf = s.bf ∧ (stopTest x0 s).lin = s.lin ∧ (stopTest x0 s).core = s.core ∧ (stopTest x0 s).rf = s.rf ∧
    (stopTest x0 s).bias = s.bias ∧ (stopTest x0 s).hk = s.hk ∧ (stopTest x0 s).th = s.th ∧ (stopTest x0 s).nvm = s.nvm ∧
    (stopTest x0 s).cal = s.cal ∧ (stopTest x0 s).ls = s.ls ∧ (stopTest x0 s).rk = s.rk ∧ (stopTest x0 s).life = s.life ∧
    (stopTest x0 s).boot = s.boot ∧ (stopTest x0 s).stat = s.stat ∧ (stopTest x0 s).pending = s.pending := by
  unfold stopTest
  repeat' (first | (simp; done) | (simp only [takeFree]) | split | (dsimp only))

@[simp] theorem stopTestOn_frame (x0 : Nat) (s : State) :
    (stopTestOn x0 s).sys = s.sys ∧ (stopTestOn x0 s).em = s.em ∧ (stopTestOn x0 s).tm = s.tm ∧
    (stopTestOn x0 s).clk = s.clk ∧ (stopTestOn x0 s).cfg = s.cfg ∧ (stopTestOn x0 s).fh = s.fh ∧
    (stopTestOn x0 s).dl = s.dl ∧ (stopTestOn x0 s).ul = s.ul ∧ (stopTestOn x0 s).bf = s.bf ∧ (stopTestOn x0 s).lin = s.lin ∧
    (stopTestOn x0 s).core = s.core ∧ (stopTestOn x0 s).rf = s.rf ∧ (stopTestOn x0 s).bias = s.bias ∧
    (stopTestOn x0 s).hk = s.hk ∧ (stopTestOn x0 s).th = s.th ∧ (stopTestOn x0 s).nvm = s.nvm ∧
    (stopTestOn x0 s).cal = s.cal ∧ (stopTestOn x0 s).ls = s.ls ∧ (stopTestOn x0 s).rk = s.rk ∧
    (stopTestOn x0 s).life = s.life ∧ (stopTestOn x0 s).boot = s.boot ∧ (stopTestOn x0 s).stat = s.stat ∧
    (stopTestOn x0 s).pending = s.pending := by
  unfold stopTestOn
  repeat' (first | (simp; done) | (simp only [takeFree]) | split | (dsimp only))

@[simp] theorem wakeDomain_frame (x0 : Nat) (s : State) :
    (wakeDomain x0 s).ph = s.ph ∧ (wakeDomain x0 s).ev = s.ev ∧ (wakeDomain x0 s).sys = s.sys ∧ (wakeDomain x0 s).em = s.em ∧
    (wakeDomain x0 s).tm = s.tm ∧ (wakeDomain x0 s).clk = s.clk ∧ (wakeDomain x0 s).cfg = s.cfg ∧
    (wakeDomain x0 s).fh = s.fh ∧ (wakeDomain x0 s).dl = s.dl ∧ (wakeDomain x0 s).ul = s.ul ∧ (wakeDomain x0 s).bf = s.bf ∧
    (wakeDomain x0 s).lin = s.lin ∧ (wakeDomain x0 s).core = s.core ∧ (wakeDomain x0 s).rf = s.rf ∧
    (wakeDomain x0 s).bias = s.bias ∧ (wakeDomain x0 s).hk = s.hk ∧ (wakeDomain x0 s).th = s.th ∧
    (wakeDomain x0 s).nvm = s.nvm ∧ (wakeDomain x0 s).cal = s.cal ∧ (wakeDomain x0 s).ls = s.ls ∧
    (wakeDomain x0 s).rk = s.rk ∧ (wakeDomain x0 s).test = s.test ∧ (wakeDomain x0 s).life = s.life ∧
    (wakeDomain x0 s).boot = s.boot ∧ (wakeDomain x0 s).stat = s.stat ∧ (wakeDomain x0 s).out = s.out ∧
    (wakeDomain x0 s).fresh = s.fresh ∧ (wakeDomain x0 s).pending = s.pending := by
  unfold wakeDomain
  simp

@[simp] theorem failAccess_frame (x0 : Nat) (x1 : Nat) (x2 : Nat) (s : State) :
    (failAccess x0 x1 x2 s).sys = s.sys ∧ (failAccess x0 x1 x2 s).em = s.em ∧ (failAccess x0 x1 x2 s).tm = s.tm ∧
    (failAccess x0 x1 x2 s).clk = s.clk ∧ (failAccess x0 x1 x2 s).cfg = s.cfg ∧ (failAccess x0 x1 x2 s).fh = s.fh ∧
    (failAccess x0 x1 x2 s).dl = s.dl ∧ (failAccess x0 x1 x2 s).ul = s.ul ∧ (failAccess x0 x1 x2 s).bf = s.bf ∧
    (failAccess x0 x1 x2 s).lin = s.lin ∧ (failAccess x0 x1 x2 s).core = s.core ∧ (failAccess x0 x1 x2 s).rf = s.rf ∧
    (failAccess x0 x1 x2 s).bias = s.bias ∧ (failAccess x0 x1 x2 s).hk = s.hk ∧ (failAccess x0 x1 x2 s).th = s.th ∧
    (failAccess x0 x1 x2 s).nvm = s.nvm ∧ (failAccess x0 x1 x2 s).cal = s.cal ∧ (failAccess x0 x1 x2 s).ls = s.ls ∧
    (failAccess x0 x1 x2 s).rk = s.rk ∧ (failAccess x0 x1 x2 s).test = s.test ∧ (failAccess x0 x1 x2 s).life = s.life ∧
    (failAccess x0 x1 x2 s).boot = s.boot ∧ (failAccess x0 x1 x2 s).stat = s.stat ∧ (failAccess x0 x1 x2 s).fresh = s.fresh ∧
    (failAccess x0 x1 x2 s).pending = s.pending := by
  unfold failAccess
  simp

@[simp] theorem setLease_frame (x0 : Nat) (x1 : Lease) (s : State) :
    (setLease x0 x1 s).ph = s.ph ∧ (setLease x0 x1 s).ev = s.ev ∧ (setLease x0 x1 s).sys = s.sys ∧
    (setLease x0 x1 s).em = s.em ∧ (setLease x0 x1 s).tm = s.tm ∧ (setLease x0 x1 s).clk = s.clk ∧
    (setLease x0 x1 s).cfg = s.cfg ∧ (setLease x0 x1 s).fh = s.fh ∧ (setLease x0 x1 s).dl = s.dl ∧
    (setLease x0 x1 s).ul = s.ul ∧ (setLease x0 x1 s).bf = s.bf ∧ (setLease x0 x1 s).lin = s.lin ∧
    (setLease x0 x1 s).core = s.core ∧ (setLease x0 x1 s).rf = s.rf ∧ (setLease x0 x1 s).bias = s.bias ∧
    (setLease x0 x1 s).hk = s.hk ∧ (setLease x0 x1 s).pwr = s.pwr ∧ (setLease x0 x1 s).th = s.th ∧
    (setLease x0 x1 s).nvm = s.nvm ∧ (setLease x0 x1 s).cal = s.cal ∧ (setLease x0 x1 s).rk = s.rk ∧
    (setLease x0 x1 s).test = s.test ∧ (setLease x0 x1 s).life = s.life ∧ (setLease x0 x1 s).boot = s.boot ∧
    (setLease x0 x1 s).stat = s.stat ∧ (setLease x0 x1 s).out = s.out ∧ (setLease x0 x1 s).fresh = s.fresh ∧
    (setLease x0 x1 s).pending = s.pending := by
  unfold setLease
  simp

@[simp] theorem requestLease_frame (x0 : Nat) (x1 : Nat) (s : State) :
    (requestLease x0 x1 s).ph = s.ph ∧ (requestLease x0 x1 s).ev = s.ev ∧ (requestLease x0 x1 s).sys = s.sys ∧
    (requestLease x0 x1 s).em = s.em ∧ (requestLease x0 x1 s).tm = s.tm ∧ (requestLease x0 x1 s).clk = s.clk ∧
    (requestLease x0 x1 s).cfg = s.cfg ∧ (requestLease x0 x1 s).fh = s.fh ∧ (requestLease x0 x1 s).dl = s.dl ∧
    (requestLease x0 x1 s).ul = s.ul ∧ (requestLease x0 x1 s).bf = s.bf ∧ (requestLease x0 x1 s).lin = s.lin ∧
    (requestLease x0 x1 s).core = s.core ∧ (requestLease x0 x1 s).rf = s.rf ∧ (requestLease x0 x1 s).bias = s.bias ∧
    (requestLease x0 x1 s).hk = s.hk ∧ (requestLease x0 x1 s).pwr = s.pwr ∧ (requestLease x0 x1 s).th = s.th ∧
    (requestLease x0 x1 s).nvm = s.nvm ∧ (requestLease x0 x1 s).cal = s.cal ∧ (requestLease x0 x1 s).rk = s.rk ∧
    (requestLease x0 x1 s).test = s.test ∧ (requestLease x0 x1 s).life = s.life ∧ (requestLease x0 x1 s).boot = s.boot ∧
    (requestLease x0 x1 s).stat = s.stat ∧ (requestLease x0 x1 s).out = s.out ∧ (requestLease x0 x1 s).fresh = s.fresh ∧
    (requestLease x0 x1 s).pending = s.pending := by
  unfold requestLease
  simp

@[simp] theorem rockerDraw_frame (x0 : Nat) (s : State) :
    (rockerDraw x0 s).2.ph = s.ph ∧ (rockerDraw x0 s).2.ev = s.ev ∧ (rockerDraw x0 s).2.sys = s.sys ∧
    (rockerDraw x0 s).2.em = s.em ∧ (rockerDraw x0 s).2.tm = s.tm ∧ (rockerDraw x0 s).2.clk = s.clk ∧
    (rockerDraw x0 s).2.cfg = s.cfg ∧ (rockerDraw x0 s).2.fh = s.fh ∧ (rockerDraw x0 s).2.dl = s.dl ∧
    (rockerDraw x0 s).2.ul = s.ul ∧ (rockerDraw x0 s).2.bf = s.bf ∧ (rockerDraw x0 s).2.lin = s.lin ∧
    (rockerDraw x0 s).2.core = s.core ∧ (rockerDraw x0 s).2.rf = s.rf ∧ (rockerDraw x0 s).2.bias = s.bias ∧
    (rockerDraw x0 s).2.hk = s.hk ∧ (rockerDraw x0 s).2.pwr = s.pwr ∧ (rockerDraw x0 s).2.th = s.th ∧
    (rockerDraw x0 s).2.nvm = s.nvm ∧ (rockerDraw x0 s).2.cal = s.cal ∧ (rockerDraw x0 s).2.ls = s.ls ∧
    (rockerDraw x0 s).2.test = s.test ∧ (rockerDraw x0 s).2.life = s.life ∧ (rockerDraw x0 s).2.boot = s.boot ∧
    (rockerDraw x0 s).2.stat = s.stat ∧ (rockerDraw x0 s).2.out = s.out ∧ (rockerDraw x0 s).2.fresh = s.fresh ∧
    (rockerDraw x0 s).2.pending = s.pending := by
  unfold rockerDraw
  repeat' (first | (simp; done) | (simp only [takeFree]) | split | (dsimp only))

@[simp] theorem stretched_frame (x0 : Nat) (s : State) :
    (stretched x0 s).2.ph = s.ph ∧ (stretched x0 s).2.ev = s.ev ∧ (stretched x0 s).2.sys = s.sys ∧
    (stretched x0 s).2.em = s.em ∧ (stretched x0 s).2.tm = s.tm ∧ (stretched x0 s).2.clk = s.clk ∧
    (stretched x0 s).2.cfg = s.cfg ∧ (stretched x0 s).2.fh = s.fh ∧ (stretched x0 s).2.dl = s.dl ∧
    (stretched x0 s).2.ul = s.ul ∧ (stretched x0 s).2.bf = s.bf ∧ (stretched x0 s).2.lin = s.lin ∧
    (stretched x0 s).2.core = s.core ∧ (stretched x0 s).2.rf = s.rf ∧ (stretched x0 s).2.bias = s.bias ∧
    (stretched x0 s).2.hk = s.hk ∧ (stretched x0 s).2.pwr = s.pwr ∧ (stretched x0 s).2.th = s.th ∧
    (stretched x0 s).2.nvm = s.nvm ∧ (stretched x0 s).2.cal = s.cal ∧ (stretched x0 s).2.ls = s.ls ∧
    (stretched x0 s).2.test = s.test ∧ (stretched x0 s).2.life = s.life ∧ (stretched x0 s).2.boot = s.boot ∧
    (stretched x0 s).2.stat = s.stat ∧ (stretched x0 s).2.out = s.out ∧ (stretched x0 s).2.fresh = s.fresh ∧
    (stretched x0 s).2.pending = s.pending := by
  unfold stretched
  repeat' (first | (simp; done) | (simp only [takeFree]) | split | (dsimp only))

@[simp] theorem releaseLease_frame (x0 : Nat) (s : State) :
    (releaseLease x0 s).ph = s.ph ∧ (releaseLease x0 s).ev = s.ev ∧ (releaseLease x0 s).sys = s.sys ∧
    (releaseLease x0 s).em = s.em ∧ (releaseLease x0 s).tm = s.tm ∧ (releaseLease x0 s).clk = s.clk ∧
    (releaseLease x0 s).cfg = s.cfg ∧ (releaseLease x0 s).fh = s.fh ∧ (releaseLease x0 s).dl = s.dl ∧
    (releaseLease x0 s).ul = s.ul ∧ (releaseLease x0 s).bf = s.bf ∧ (releaseLease x0 s).lin = s.lin ∧
    (releaseLease x0 s).core = s.core ∧ (releaseLease x0 s).rf = s.rf ∧ (releaseLease x0 s).bias = s.bias ∧
    (releaseLease x0 s).hk = s.hk ∧ (releaseLease x0 s).pwr = s.pwr ∧ (releaseLease x0 s).th = s.th ∧
    (releaseLease x0 s).nvm = s.nvm ∧ (releaseLease x0 s).cal = s.cal ∧ (releaseLease x0 s).test = s.test ∧
    (releaseLease x0 s).life = s.life ∧ (releaseLease x0 s).boot = s.boot ∧ (releaseLease x0 s).stat = s.stat ∧
    (releaseLease x0 s).out = s.out ∧ (releaseLease x0 s).fresh = s.fresh ∧ (releaseLease x0 s).pending = s.pending := by
  have h := stretched_frame x0 s
  unfold releaseLease
  dsimp only
  split
  · simp
  · split <;> rename_i h1 <;> rw [h1] at h <;> simp_all

@[simp] theorem cancelArmed_frame (x0 : Nat) (s : State) :
    (cancelArmed x0 s).ph = s.ph ∧ (cancelArmed x0 s).ev = s.ev ∧ (cancelArmed x0 s).sys = s.sys ∧
    (cancelArmed x0 s).em = s.em ∧ (cancelArmed x0 s).tm = s.tm ∧ (cancelArmed x0 s).clk = s.clk ∧
    (cancelArmed x0 s).fh = s.fh ∧ (cancelArmed x0 s).dl = s.dl ∧ (cancelArmed x0 s).ul = s.ul ∧
    (cancelArmed x0 s).bf = s.bf ∧ (cancelArmed x0 s).core = s.core ∧ (cancelArmed x0 s).bias = s.bias ∧
    (cancelArmed x0 s).hk = s.hk ∧ (cancelArmed x0 s).pwr = s.pwr ∧ (cancelArmed x0 s).th = s.th ∧
    (cancelArmed x0 s).nvm = s.nvm ∧ (cancelArmed x0 s).cal = s.cal ∧ (cancelArmed x0 s).test = s.test ∧
    (cancelArmed x0 s).life = s.life ∧ (cancelArmed x0 s).boot = s.boot ∧ (cancelArmed x0 s).stat = s.stat ∧
    (cancelArmed x0 s).out = s.out ∧ (cancelArmed x0 s).fresh = s.fresh ∧ (cancelArmed x0 s).pending = s.pending := by
  unfold cancelArmed
  repeat' (first | (simp; done) | (simp only [takeFree]) | split | (dsimp only))

@[simp] theorem bridgeCount_frame (x0 : Bool) (x1 : Nat) (s : State) :
    (bridgeCount x0 x1 s).ph = s.ph ∧ (bridgeCount x0 x1 s).ev = s.ev ∧ (bridgeCount x0 x1 s).sys = s.sys ∧
    (bridgeCount x0 x1 s).em = s.em ∧ (bridgeCount x0 x1 s).tm = s.tm ∧ (bridgeCount x0 x1 s).clk = s.clk ∧
    (bridgeCount x0 x1 s).cfg = s.cfg ∧ (bridgeCount x0 x1 s).fh = s.fh ∧ (bridgeCount x0 x1 s).dl = s.dl ∧
    (bridgeCount x0 x1 s).ul = s.ul ∧ (bridgeCount x0 x1 s).bf = s.bf ∧ (bridgeCount x0 x1 s).lin = s.lin ∧
    (bridgeCount x0 x1 s).core = s.core ∧ (bridgeCount x0 x1 s).bias = s.bias ∧ (bridgeCount x0 x1 s).hk = s.hk ∧
    (bridgeCount x0 x1 s).pwr = s.pwr ∧ (bridgeCount x0 x1 s).th = s.th ∧ (bridgeCount x0 x1 s).nvm = s.nvm ∧
    (bridgeCount x0 x1 s).cal = s.cal ∧ (bridgeCount x0 x1 s).ls = s.ls ∧ (bridgeCount x0 x1 s).rk = s.rk ∧
    (bridgeCount x0 x1 s).test = s.test ∧ (bridgeCount x0 x1 s).life = s.life ∧ (bridgeCount x0 x1 s).boot = s.boot ∧
    (bridgeCount x0 x1 s).stat = s.stat ∧ (bridgeCount x0 x1 s).out = s.out ∧ (bridgeCount x0 x1 s).fresh = s.fresh ∧
    (bridgeCount x0 x1 s).pending = s.pending := by
  unfold bridgeCount
  simp

@[simp] theorem bridgeEvent_frame (x0 : Bool) (x1 : Nat) (x2 : Nat) (s : State) :
    (bridgeEvent x0 x1 x2 s).sys = s.sys ∧ (bridgeEvent x0 x1 x2 s).em = s.em ∧ (bridgeEvent x0 x1 x2 s).tm = s.tm ∧
    (bridgeEvent x0 x1 x2 s).clk = s.clk ∧ (bridgeEvent x0 x1 x2 s).cfg = s.cfg ∧ (bridgeEvent x0 x1 x2 s).fh = s.fh ∧
    (bridgeEvent x0 x1 x2 s).dl = s.dl ∧ (bridgeEvent x0 x1 x2 s).ul = s.ul ∧ (bridgeEvent x0 x1 x2 s).bf = s.bf ∧
    (bridgeEvent x0 x1 x2 s).lin = s.lin ∧ (bridgeEvent x0 x1 x2 s).core = s.core ∧ (bridgeEvent x0 x1 x2 s).rf = s.rf ∧
    (bridgeEvent x0 x1 x2 s).bias = s.bias ∧ (bridgeEvent x0 x1 x2 s).hk = s.hk ∧ (bridgeEvent x0 x1 x2 s).pwr = s.pwr ∧
    (bridgeEvent x0 x1 x2 s).th = s.th ∧ (bridgeEvent x0 x1 x2 s).nvm = s.nvm ∧ (bridgeEvent x0 x1 x2 s).cal = s.cal ∧
    (bridgeEvent x0 x1 x2 s).ls = s.ls ∧ (bridgeEvent x0 x1 x2 s).rk = s.rk ∧ (bridgeEvent x0 x1 x2 s).test = s.test ∧
    (bridgeEvent x0 x1 x2 s).life = s.life ∧ (bridgeEvent x0 x1 x2 s).boot = s.boot ∧ (bridgeEvent x0 x1 x2 s).stat = s.stat ∧
    (bridgeEvent x0 x1 x2 s).fresh = s.fresh ∧ (bridgeEvent x0 x1 x2 s).pending = s.pending := by
  unfold bridgeEvent
  simp

@[simp] theorem bridgeFail_frame (x0 : Bool) (x1 : Nat) (s : State) :
    (bridgeFail x0 x1 s).sys = s.sys ∧ (bridgeFail x0 x1 s).em = s.em ∧ (bridgeFail x0 x1 s).tm = s.tm ∧
    (bridgeFail x0 x1 s).clk = s.clk ∧ (bridgeFail x0 x1 s).cfg = s.cfg ∧ (bridgeFail x0 x1 s).fh = s.fh ∧
    (bridgeFail x0 x1 s).dl = s.dl ∧ (bridgeFail x0 x1 s).ul = s.ul ∧ (bridgeFail x0 x1 s).bf = s.bf ∧
    (bridgeFail x0 x1 s).lin = s.lin ∧ (bridgeFail x0 x1 s).core = s.core ∧ (bridgeFail x0 x1 s).bias = s.bias ∧
    (bridgeFail x0 x1 s).hk = s.hk ∧ (bridgeFail x0 x1 s).pwr = s.pwr ∧ (bridgeFail x0 x1 s).th = s.th ∧
    (bridgeFail x0 x1 s).nvm = s.nvm ∧ (bridgeFail x0 x1 s).cal = s.cal ∧ (bridgeFail x0 x1 s).ls = s.ls ∧
    (bridgeFail x0 x1 s).rk = s.rk ∧ (bridgeFail x0 x1 s).test = s.test ∧ (bridgeFail x0 x1 s).life = s.life ∧
    (bridgeFail x0 x1 s).boot = s.boot ∧ (bridgeFail x0 x1 s).fresh = s.fresh ∧ (bridgeFail x0 x1 s).pending = s.pending := by
  unfold bridgeFail
  simp

@[simp] theorem orxFail_frame (x0 : Nat) (s : State) :
    (orxFail x0 s).sys = s.sys ∧ (orxFail x0 s).em = s.em ∧ (orxFail x0 s).tm = s.tm ∧ (orxFail x0 s).clk = s.clk ∧
    (orxFail x0 s).cfg = s.cfg ∧ (orxFail x0 s).fh = s.fh ∧ (orxFail x0 s).dl = s.dl ∧ (orxFail x0 s).ul = s.ul ∧
    (orxFail x0 s).bf = s.bf ∧ (orxFail x0 s).lin = s.lin ∧ (orxFail x0 s).core = s.core ∧ (orxFail x0 s).bias = s.bias ∧
    (orxFail x0 s).hk = s.hk ∧ (orxFail x0 s).pwr = s.pwr ∧ (orxFail x0 s).th = s.th ∧ (orxFail x0 s).nvm = s.nvm ∧
    (orxFail x0 s).cal = s.cal ∧ (orxFail x0 s).ls = s.ls ∧ (orxFail x0 s).rk = s.rk ∧ (orxFail x0 s).test = s.test ∧
    (orxFail x0 s).life = s.life ∧ (orxFail x0 s).boot = s.boot ∧ (orxFail x0 s).stat = s.stat ∧
    (orxFail x0 s).fresh = s.fresh ∧ (orxFail x0 s).pending = s.pending := by
  unfold orxFail
  simp

@[simp] theorem controlFails_frame (x0 : Nat) (x1 : Nat) (s : State) :
    (controlFails x0 x1 s).sys = s.sys ∧ (controlFails x0 x1 s).em = s.em ∧ (controlFails x0 x1 s).tm = s.tm ∧
    (controlFails x0 x1 s).clk = s.clk ∧ (controlFails x0 x1 s).cfg = s.cfg ∧ (controlFails x0 x1 s).fh = s.fh ∧
    (controlFails x0 x1 s).dl = s.dl ∧ (controlFails x0 x1 s).ul = s.ul ∧ (controlFails x0 x1 s).bf = s.bf ∧
    (controlFails x0 x1 s).lin = s.lin ∧ (controlFails x0 x1 s).core = s.core ∧ (controlFails x0 x1 s).bias = s.bias ∧
    (controlFails x0 x1 s).hk = s.hk ∧ (controlFails x0 x1 s).pwr = s.pwr ∧ (controlFails x0 x1 s).th = s.th ∧
    (controlFails x0 x1 s).nvm = s.nvm ∧ (controlFails x0 x1 s).cal = s.cal ∧ (controlFails x0 x1 s).ls = s.ls ∧
    (controlFails x0 x1 s).rk = s.rk ∧ (controlFails x0 x1 s).test = s.test ∧ (controlFails x0 x1 s).life = s.life ∧
    (controlFails x0 x1 s).boot = s.boot ∧ (controlFails x0 x1 s).stat = s.stat ∧ (controlFails x0 x1 s).fresh = s.fresh ∧
    (controlFails x0 x1 s).pending = s.pending := by
  unfold controlFails
  simp

@[simp] theorem rffeError_frame (x0 : Nat) (x1 : Nat) (x2 : RffeEntry) (x3 : Nat) (s : State) :
    (rffeError x0 x1 x2 x3 s).sys = s.sys ∧ (rffeError x0 x1 x2 x3 s).em = s.em ∧ (rffeError x0 x1 x2 x3 s).tm = s.tm ∧
    (rffeError x0 x1 x2 x3 s).clk = s.clk ∧ (rffeError x0 x1 x2 x3 s).cfg = s.cfg ∧ (rffeError x0 x1 x2 x3 s).fh = s.fh ∧
    (rffeError x0 x1 x2 x3 s).dl = s.dl ∧ (rffeError x0 x1 x2 x3 s).ul = s.ul ∧ (rffeError x0 x1 x2 x3 s).bf = s.bf ∧
    (rffeError x0 x1 x2 x3 s).lin = s.lin ∧ (rffeError x0 x1 x2 x3 s).core = s.core ∧ (rffeError x0 x1 x2 x3 s).rf = s.rf ∧
    (rffeError x0 x1 x2 x3 s).bias = s.bias ∧ (rffeError x0 x1 x2 x3 s).hk = s.hk ∧ (rffeError x0 x1 x2 x3 s).pwr = s.pwr ∧
    (rffeError x0 x1 x2 x3 s).th = s.th ∧ (rffeError x0 x1 x2 x3 s).nvm = s.nvm ∧ (rffeError x0 x1 x2 x3 s).cal = s.cal ∧
    (rffeError x0 x1 x2 x3 s).ls = s.ls ∧ (rffeError x0 x1 x2 x3 s).rk = s.rk ∧ (rffeError x0 x1 x2 x3 s).test = s.test ∧
    (rffeError x0 x1 x2 x3 s).life = s.life ∧ (rffeError x0 x1 x2 x3 s).boot = s.boot ∧
    (rffeError x0 x1 x2 x3 s).stat = s.stat ∧ (rffeError x0 x1 x2 x3 s).fresh = s.fresh ∧
    (rffeError x0 x1 x2 x3 s).pending = s.pending := by
  unfold rffeError
  simp

@[simp] theorem rffeSkipAll_frame (x0 : Nat) (x1 : Nat) (x2 : List RffeEntry) (s : State) :
    (rffeSkipAll x0 x1 x2 s).sys = s.sys ∧ (rffeSkipAll x0 x1 x2 s).em = s.em ∧ (rffeSkipAll x0 x1 x2 s).tm = s.tm ∧
    (rffeSkipAll x0 x1 x2 s).clk = s.clk ∧ (rffeSkipAll x0 x1 x2 s).cfg = s.cfg ∧ (rffeSkipAll x0 x1 x2 s).fh = s.fh ∧
    (rffeSkipAll x0 x1 x2 s).dl = s.dl ∧ (rffeSkipAll x0 x1 x2 s).ul = s.ul ∧ (rffeSkipAll x0 x1 x2 s).bf = s.bf ∧
    (rffeSkipAll x0 x1 x2 s).lin = s.lin ∧ (rffeSkipAll x0 x1 x2 s).core = s.core ∧ (rffeSkipAll x0 x1 x2 s).rf = s.rf ∧
    (rffeSkipAll x0 x1 x2 s).bias = s.bias ∧ (rffeSkipAll x0 x1 x2 s).hk = s.hk ∧ (rffeSkipAll x0 x1 x2 s).pwr = s.pwr ∧
    (rffeSkipAll x0 x1 x2 s).th = s.th ∧ (rffeSkipAll x0 x1 x2 s).nvm = s.nvm ∧ (rffeSkipAll x0 x1 x2 s).cal = s.cal ∧
    (rffeSkipAll x0 x1 x2 s).ls = s.ls ∧ (rffeSkipAll x0 x1 x2 s).rk = s.rk ∧ (rffeSkipAll x0 x1 x2 s).test = s.test ∧
    (rffeSkipAll x0 x1 x2 s).life = s.life ∧ (rffeSkipAll x0 x1 x2 s).boot = s.boot ∧
    (rffeSkipAll x0 x1 x2 s).fresh = s.fresh ∧ (rffeSkipAll x0 x1 x2 s).pending = s.pending := by
  unfold rffeSkipAll
  repeat' (first | (simp; done) | (simp only [takeFree]) | split | (dsimp only))

@[simp] theorem rffeRevoked_frame (x0 : Nat) (s : State) :
    (rffeRevoked x0 s).sys = s.sys ∧ (rffeRevoked x0 s).em = s.em ∧ (rffeRevoked x0 s).tm = s.tm ∧
    (rffeRevoked x0 s).clk = s.clk ∧ (rffeRevoked x0 s).cfg = s.cfg ∧ (rffeRevoked x0 s).fh = s.fh ∧
    (rffeRevoked x0 s).dl = s.dl ∧ (rffeRevoked x0 s).ul = s.ul ∧ (rffeRevoked x0 s).bf = s.bf ∧
    (rffeRevoked x0 s).lin = s.lin ∧ (rffeRevoked x0 s).core = s.core ∧ (rffeRevoked x0 s).bias = s.bias ∧
    (rffeRevoked x0 s).hk = s.hk ∧ (rffeRevoked x0 s).pwr = s.pwr ∧ (rffeRevoked x0 s).th = s.th ∧
    (rffeRevoked x0 s).nvm = s.nvm ∧ (rffeRevoked x0 s).cal = s.cal ∧ (rffeRevoked x0 s).ls = s.ls ∧
    (rffeRevoked x0 s).rk = s.rk ∧ (rffeRevoked x0 s).test = s.test ∧ (rffeRevoked x0 s).life = s.life ∧
    (rffeRevoked x0 s).boot = s.boot ∧ (rffeRevoked x0 s).fresh = s.fresh ∧ (rffeRevoked x0 s).pending = s.pending := by
  unfold rffeRevoked
  repeat' (first | (simp; done) | (simp only [takeFree]) | split | (dsimp only))

@[simp] theorem setConv_frame (x0 : Nat) (x1 : Conv) (s : State) :
    (setConv x0 x1 s).ph = s.ph ∧ (setConv x0 x1 s).ev = s.ev ∧ (setConv x0 x1 s).sys = s.sys ∧ (setConv x0 x1 s).em = s.em ∧
    (setConv x0 x1 s).tm = s.tm ∧ (setConv x0 x1 s).clk = s.clk ∧ (setConv x0 x1 s).cfg = s.cfg ∧
    (setConv x0 x1 s).fh = s.fh ∧ (setConv x0 x1 s).dl = s.dl ∧ (setConv x0 x1 s).ul = s.ul ∧ (setConv x0 x1 s).bf = s.bf ∧
    (setConv x0 x1 s).lin = s.lin ∧ (setConv x0 x1 s).core = s.core ∧ (setConv x0 x1 s).rf = s.rf ∧
    (setConv x0 x1 s).bias = s.bias ∧ (setConv x0 x1 s).pwr = s.pwr ∧ (setConv x0 x1 s).th = s.th ∧
    (setConv x0 x1 s).nvm = s.nvm ∧ (setConv x0 x1 s).cal = s.cal ∧ (setConv x0 x1 s).ls = s.ls ∧
    (setConv x0 x1 s).rk = s.rk ∧ (setConv x0 x1 s).test = s.test ∧ (setConv x0 x1 s).life = s.life ∧
    (setConv x0 x1 s).boot = s.boot ∧ (setConv x0 x1 s).stat = s.stat ∧ (setConv x0 x1 s).out = s.out ∧
    (setConv x0 x1 s).fresh = s.fresh ∧ (setConv x0 x1 s).pending = s.pending := by
  unfold setConv
  simp

@[simp] theorem settleConv_frame (x0 : Nat) (s : State) :
    (settleConv x0 s).ph = s.ph ∧ (settleConv x0 s).ev = s.ev ∧ (settleConv x0 s).sys = s.sys ∧ (settleConv x0 s).em = s.em ∧
    (settleConv x0 s).tm = s.tm ∧ (settleConv x0 s).clk = s.clk ∧ (settleConv x0 s).cfg = s.cfg ∧
    (settleConv x0 s).fh = s.fh ∧ (settleConv x0 s).dl = s.dl ∧ (settleConv x0 s).ul = s.ul ∧ (settleConv x0 s).bf = s.bf ∧
    (settleConv x0 s).lin = s.lin ∧ (settleConv x0 s).core = s.core ∧ (settleConv x0 s).rf = s.rf ∧
    (settleConv x0 s).bias = s.bias ∧ (settleConv x0 s).pwr = s.pwr ∧ (settleConv x0 s).th = s.th ∧
    (settleConv x0 s).nvm = s.nvm ∧ (settleConv x0 s).cal = s.cal ∧ (settleConv x0 s).ls = s.ls ∧
    (settleConv x0 s).rk = s.rk ∧ (settleConv x0 s).test = s.test ∧ (settleConv x0 s).life = s.life ∧
    (settleConv x0 s).boot = s.boot ∧ (settleConv x0 s).stat = s.stat ∧ (settleConv x0 s).out = s.out ∧
    (settleConv x0 s).fresh = s.fresh ∧ (settleConv x0 s).pending = s.pending := by
  unfold settleConv
  repeat' (first | (simp; done) | (simp only [takeFree]) | split | (dsimp only))

@[simp] theorem abortRunning_frame (x0 : Nat) (x1 : Nat × Nat × Nat) (s : State) :
    (abortRunning x0 x1 s).ph = s.ph ∧ (abortRunning x0 x1 s).ev = s.ev ∧ (abortRunning x0 x1 s).sys = s.sys ∧
    (abortRunning x0 x1 s).em = s.em ∧ (abortRunning x0 x1 s).tm = s.tm ∧ (abortRunning x0 x1 s).clk = s.clk ∧
    (abortRunning x0 x1 s).cfg = s.cfg ∧ (abortRunning x0 x1 s).fh = s.fh ∧ (abortRunning x0 x1 s).dl = s.dl ∧
    (abortRunning x0 x1 s).ul = s.ul ∧ (abortRunning x0 x1 s).bf = s.bf ∧ (abortRunning x0 x1 s).lin = s.lin ∧
    (abortRunning x0 x1 s).core = s.core ∧ (abortRunning x0 x1 s).rf = s.rf ∧ (abortRunning x0 x1 s).bias = s.bias ∧
    (abortRunning x0 x1 s).pwr = s.pwr ∧ (abortRunning x0 x1 s).th = s.th ∧ (abortRunning x0 x1 s).nvm = s.nvm ∧
    (abortRunning x0 x1 s).cal = s.cal ∧ (abortRunning x0 x1 s).ls = s.ls ∧ (abortRunning x0 x1 s).rk = s.rk ∧
    (abortRunning x0 x1 s).test = s.test ∧ (abortRunning x0 x1 s).life = s.life ∧ (abortRunning x0 x1 s).boot = s.boot ∧
    (abortRunning x0 x1 s).out = s.out ∧ (abortRunning x0 x1 s).fresh = s.fresh ∧
    (abortRunning x0 x1 s).pending = s.pending := by
  unfold abortRunning
  repeat' (first | (simp; done) | (simp only [takeFree]) | split | (dsimp only))

@[simp] theorem urgentRun_frame (x0 : Nat) (x1 : List (Nat × Nat × Nat)) (s : State) :
    (urgentRun x0 x1 s).ph = s.ph ∧ (urgentRun x0 x1 s).ev = s.ev ∧ (urgentRun x0 x1 s).sys = s.sys ∧
    (urgentRun x0 x1 s).em = s.em ∧ (urgentRun x0 x1 s).clk = s.clk ∧ (urgentRun x0 x1 s).cfg = s.cfg ∧
    (urgentRun x0 x1 s).fh = s.fh ∧ (urgentRun x0 x1 s).dl = s.dl ∧ (urgentRun x0 x1 s).ul = s.ul ∧
    (urgentRun x0 x1 s).bf = s.bf ∧ (urgentRun x0 x1 s).lin = s.lin ∧ (urgentRun x0 x1 s).core = s.core ∧
    (urgentRun x0 x1 s).rf = s.rf ∧ (urgentRun x0 x1 s).bias = s.bias ∧ (urgentRun x0 x1 s).pwr = s.pwr ∧
    (urgentRun x0 x1 s).th = s.th ∧ (urgentRun x0 x1 s).nvm = s.nvm ∧ (urgentRun x0 x1 s).cal = s.cal ∧
    (urgentRun x0 x1 s).ls = s.ls ∧ (urgentRun x0 x1 s).rk = s.rk ∧ (urgentRun x0 x1 s).test = s.test ∧
    (urgentRun x0 x1 s).life = s.life ∧ (urgentRun x0 x1 s).boot = s.boot ∧ (urgentRun x0 x1 s).out = s.out ∧
    (urgentRun x0 x1 s).fresh = s.fresh ∧ (urgentRun x0 x1 s).pending = s.pending := by
  unfold urgentRun
  repeat' (first | (simp; done) | (simp only [takeFree]) | split | (dsimp only))

@[simp] theorem setChan_frame (x0 : Nat) (x1 : Chan) (s : State) :
    (setChan x0 x1 s).ph = s.ph ∧ (setChan x0 x1 s).ev = s.ev ∧ (setChan x0 x1 s).sys = s.sys ∧ (setChan x0 x1 s).em = s.em ∧
    (setChan x0 x1 s).tm = s.tm ∧ (setChan x0 x1 s).clk = s.clk ∧ (setChan x0 x1 s).cfg = s.cfg ∧
    (setChan x0 x1 s).fh = s.fh ∧ (setChan x0 x1 s).dl = s.dl ∧ (setChan x0 x1 s).ul = s.ul ∧ (setChan x0 x1 s).bf = s.bf ∧
    (setChan x0 x1 s).lin = s.lin ∧ (setChan x0 x1 s).core = s.core ∧ (setChan x0 x1 s).rf = s.rf ∧
    (setChan x0 x1 s).hk = s.hk ∧ (setChan x0 x1 s).pwr = s.pwr ∧ (setChan x0 x1 s).th = s.th ∧
    (setChan x0 x1 s).nvm = s.nvm ∧ (setChan x0 x1 s).cal = s.cal ∧ (setChan x0 x1 s).ls = s.ls ∧
    (setChan x0 x1 s).rk = s.rk ∧ (setChan x0 x1 s).test = s.test ∧ (setChan x0 x1 s).life = s.life ∧
    (setChan x0 x1 s).boot = s.boot ∧ (setChan x0 x1 s).stat = s.stat ∧ (setChan x0 x1 s).out = s.out ∧
    (setChan x0 x1 s).fresh = s.fresh ∧ (setChan x0 x1 s).pending = s.pending := by
  unfold setChan
  simp

@[simp] theorem notePin_frame (s : State) (x1 : Nat) :
    (notePin s x1).ph = s.ph ∧ (notePin s x1).ev = s.ev ∧ (notePin s x1).sys = s.sys ∧ (notePin s x1).em = s.em ∧
    (notePin s x1).tm = s.tm ∧ (notePin s x1).clk = s.clk ∧ (notePin s x1).cfg = s.cfg ∧ (notePin s x1).fh = s.fh ∧
    (notePin s x1).dl = s.dl ∧ (notePin s x1).ul = s.ul ∧ (notePin s x1).bf = s.bf ∧ (notePin s x1).lin = s.lin ∧
    (notePin s x1).core = s.core ∧ (notePin s x1).bias = s.bias ∧ (notePin s x1).hk = s.hk ∧ (notePin s x1).pwr = s.pwr ∧
    (notePin s x1).th = s.th ∧ (notePin s x1).nvm = s.nvm ∧ (notePin s x1).cal = s.cal ∧ (notePin s x1).ls = s.ls ∧
    (notePin s x1).rk = s.rk ∧ (notePin s x1).test = s.test ∧ (notePin s x1).life = s.life ∧ (notePin s x1).boot = s.boot ∧
    (notePin s x1).stat = s.stat ∧ (notePin s x1).out = s.out ∧ (notePin s x1).fresh = s.fresh ∧
    (notePin s x1).pending = s.pending := by
  unfold notePin
  simp

@[simp] theorem notePins_frame (s : State) :
    (notePins s).ph = s.ph ∧ (notePins s).ev = s.ev ∧ (notePins s).sys = s.sys ∧ (notePins s).em = s.em ∧
    (notePins s).tm = s.tm ∧ (notePins s).clk = s.clk ∧ (notePins s).cfg = s.cfg ∧ (notePins s).fh = s.fh ∧
    (notePins s).dl = s.dl ∧ (notePins s).ul = s.ul ∧ (notePins s).bf = s.bf ∧ (notePins s).lin = s.lin ∧
    (notePins s).core = s.core ∧ (notePins s).bias = s.bias ∧ (notePins s).hk = s.hk ∧ (notePins s).pwr = s.pwr ∧
    (notePins s).th = s.th ∧ (notePins s).nvm = s.nvm ∧ (notePins s).cal = s.cal ∧ (notePins s).ls = s.ls ∧
    (notePins s).rk = s.rk ∧ (notePins s).test = s.test ∧ (notePins s).life = s.life ∧ (notePins s).boot = s.boot ∧
    (notePins s).stat = s.stat ∧ (notePins s).out = s.out ∧ (notePins s).fresh = s.fresh ∧
    (notePins s).pending = s.pending := by
  unfold notePins
  simp

@[simp] theorem refreshForced_frame (s : State) :
    (refreshForced s).ph = s.ph ∧ (refreshForced s).ev = s.ev ∧ (refreshForced s).sys = s.sys ∧ (refreshForced s).em = s.em ∧
    (refreshForced s).tm = s.tm ∧ (refreshForced s).clk = s.clk ∧ (refreshForced s).cfg = s.cfg ∧
    (refreshForced s).fh = s.fh ∧ (refreshForced s).dl = s.dl ∧ (refreshForced s).ul = s.ul ∧ (refreshForced s).bf = s.bf ∧
    (refreshForced s).lin = s.lin ∧ (refreshForced s).core = s.core ∧ (refreshForced s).bias = s.bias ∧
    (refreshForced s).hk = s.hk ∧ (refreshForced s).pwr = s.pwr ∧ (refreshForced s).th = s.th ∧
    (refreshForced s).nvm = s.nvm ∧ (refreshForced s).cal = s.cal ∧ (refreshForced s).ls = s.ls ∧
    (refreshForced s).rk = s.rk ∧ (refreshForced s).test = s.test ∧ (refreshForced s).life = s.life ∧
    (refreshForced s).boot = s.boot ∧ (refreshForced s).stat = s.stat ∧ (refreshForced s).out = s.out ∧
    (refreshForced s).fresh = s.fresh ∧ (refreshForced s).pending = s.pending := by
  unfold refreshForced
  simp

@[simp] theorem settleReleases_frame (s : State) :
    (settleReleases s).sys = s.sys ∧ (settleReleases s).em = s.em ∧ (settleReleases s).tm = s.tm ∧
    (settleReleases s).clk = s.clk ∧ (settleReleases s).cfg = s.cfg ∧ (settleReleases s).fh = s.fh ∧
    (settleReleases s).dl = s.dl ∧ (settleReleases s).ul = s.ul ∧ (settleReleases s).bf = s.bf ∧
    (settleReleases s).lin = s.lin ∧ (settleReleases s).core = s.core ∧ (settleReleases s).rf = s.rf ∧
    (settleReleases s).hk = s.hk ∧ (settleReleases s).pwr = s.pwr ∧ (settleReleases s).th = s.th ∧
    (settleReleases s).nvm = s.nvm ∧ (settleReleases s).cal = s.cal ∧ (settleReleases s).ls = s.ls ∧
    (settleReleases s).rk = s.rk ∧ (settleReleases s).test = s.test ∧ (settleReleases s).life = s.life ∧
    (settleReleases s).boot = s.boot ∧ (settleReleases s).stat = s.stat ∧ (settleReleases s).fresh = s.fresh ∧
    (settleReleases s).pending = s.pending := by
  unfold settleReleases
  simp

@[simp] theorem clearChans_frame (l : List Nat) (s : State) :
    (clearChans s l).ph = s.ph ∧ (clearChans s l).ev = s.ev ∧ (clearChans s l).sys = s.sys ∧ (clearChans s l).em = s.em ∧
    (clearChans s l).tm = s.tm ∧ (clearChans s l).clk = s.clk ∧ (clearChans s l).cfg = s.cfg ∧ (clearChans s l).fh = s.fh ∧
    (clearChans s l).dl = s.dl ∧ (clearChans s l).ul = s.ul ∧ (clearChans s l).bf = s.bf ∧ (clearChans s l).lin = s.lin ∧
    (clearChans s l).core = s.core ∧ (clearChans s l).rf = s.rf ∧ (clearChans s l).hk = s.hk ∧ (clearChans s l).pwr = s.pwr ∧
    (clearChans s l).th = s.th ∧ (clearChans s l).nvm = s.nvm ∧ (clearChans s l).cal = s.cal ∧ (clearChans s l).ls = s.ls ∧
    (clearChans s l).rk = s.rk ∧ (clearChans s l).test = s.test ∧ (clearChans s l).life = s.life ∧
    (clearChans s l).boot = s.boot ∧ (clearChans s l).stat = s.stat ∧ (clearChans s l).out = s.out ∧
    (clearChans s l).fresh = s.fresh ∧ (clearChans s l).pending = s.pending := by
  induction l generalizing s <;> simp only [clearChans] <;> (repeat' split) <;> simp_all

@[simp] theorem parkChans_frame (l : List Nat) (s : State) :
    (parkChans s l).ph = s.ph ∧ (parkChans s l).ev = s.ev ∧ (parkChans s l).sys = s.sys ∧ (parkChans s l).em = s.em ∧
    (parkChans s l).tm = s.tm ∧ (parkChans s l).clk = s.clk ∧ (parkChans s l).cfg = s.cfg ∧ (parkChans s l).fh = s.fh ∧
    (parkChans s l).dl = s.dl ∧ (parkChans s l).ul = s.ul ∧ (parkChans s l).bf = s.bf ∧ (parkChans s l).lin = s.lin ∧
    (parkChans s l).core = s.core ∧ (parkChans s l).rf = s.rf ∧ (parkChans s l).hk = s.hk ∧ (parkChans s l).pwr = s.pwr ∧
    (parkChans s l).th = s.th ∧ (parkChans s l).nvm = s.nvm ∧ (parkChans s l).cal = s.cal ∧ (parkChans s l).ls = s.ls ∧
    (parkChans s l).rk = s.rk ∧ (parkChans s l).test = s.test ∧ (parkChans s l).life = s.life ∧
    (parkChans s l).boot = s.boot ∧ (parkChans s l).stat = s.stat ∧ (parkChans s l).out = s.out ∧
    (parkChans s l).fresh = s.fresh ∧ (parkChans s l).pending = s.pending := by
  induction l generalizing s <;> simp only [parkChans] <;> (repeat' split) <;> simp_all

@[simp] theorem clearBias_frame (x0 : Nat) (x1 : Nat) (s : State) :
    (clearBias x0 x1 s).sys = s.sys ∧ (clearBias x0 x1 s).em = s.em ∧ (clearBias x0 x1 s).tm = s.tm ∧
    (clearBias x0 x1 s).clk = s.clk ∧ (clearBias x0 x1 s).cfg = s.cfg ∧ (clearBias x0 x1 s).fh = s.fh ∧
    (clearBias x0 x1 s).dl = s.dl ∧ (clearBias x0 x1 s).ul = s.ul ∧ (clearBias x0 x1 s).bf = s.bf ∧
    (clearBias x0 x1 s).lin = s.lin ∧ (clearBias x0 x1 s).core = s.core ∧ (clearBias x0 x1 s).hk = s.hk ∧
    (clearBias x0 x1 s).pwr = s.pwr ∧ (clearBias x0 x1 s).th = s.th ∧ (clearBias x0 x1 s).nvm = s.nvm ∧
    (clearBias x0 x1 s).cal = s.cal ∧ (clearBias x0 x1 s).ls = s.ls ∧ (clearBias x0 x1 s).rk = s.rk ∧
    (clearBias x0 x1 s).test = s.test ∧ (clearBias x0 x1 s).life = s.life ∧ (clearBias x0 x1 s).boot = s.boot ∧
    (clearBias x0 x1 s).stat = s.stat ∧ (clearBias x0 x1 s).fresh = s.fresh ∧ (clearBias x0 x1 s).pending = s.pending := by
  unfold clearBias
  repeat' (first | (simp; done) | (simp only [takeFree]) | split | (dsimp only))

@[simp] theorem parkAll_frame (s : State) :
    (parkAll s).sys = s.sys ∧ (parkAll s).tm = s.tm ∧ (parkAll s).clk = s.clk ∧ (parkAll s).cfg = s.cfg ∧
    (parkAll s).fh = s.fh ∧ (parkAll s).dl = s.dl ∧ (parkAll s).ul = s.ul ∧ (parkAll s).bf = s.bf ∧ (parkAll s).lin = s.lin ∧
    (parkAll s).core = s.core ∧ (parkAll s).hk = s.hk ∧ (parkAll s).pwr = s.pwr ∧ (parkAll s).th = s.th ∧
    (parkAll s).nvm = s.nvm ∧ (parkAll s).cal = s.cal ∧ (parkAll s).ls = s.ls ∧ (parkAll s).rk = s.rk ∧
    (parkAll s).test = s.test ∧ (parkAll s).life = s.life ∧ (parkAll s).boot = s.boot ∧ (parkAll s).stat = s.stat ∧
    (parkAll s).fresh = s.fresh ∧ (parkAll s).pending = s.pending := by
  unfold parkAll
  simp

@[simp] theorem updateChans_frame (l : List Nat) (s : State) :
    (updateChans s l).ph = s.ph ∧ (updateChans s l).ev = s.ev ∧ (updateChans s l).sys = s.sys ∧ (updateChans s l).em = s.em ∧
    (updateChans s l).tm = s.tm ∧ (updateChans s l).clk = s.clk ∧ (updateChans s l).cfg = s.cfg ∧
    (updateChans s l).fh = s.fh ∧ (updateChans s l).dl = s.dl ∧ (updateChans s l).ul = s.ul ∧ (updateChans s l).bf = s.bf ∧
    (updateChans s l).lin = s.lin ∧ (updateChans s l).core = s.core ∧ (updateChans s l).rf = s.rf ∧
    (updateChans s l).hk = s.hk ∧ (updateChans s l).pwr = s.pwr ∧ (updateChans s l).th = s.th ∧
    (updateChans s l).nvm = s.nvm ∧ (updateChans s l).cal = s.cal ∧ (updateChans s l).ls = s.ls ∧
    (updateChans s l).rk = s.rk ∧ (updateChans s l).test = s.test ∧ (updateChans s l).life = s.life ∧
    (updateChans s l).boot = s.boot ∧ (updateChans s l).stat = s.stat ∧ (updateChans s l).out = s.out ∧
    (updateChans s l).fresh = s.fresh ∧ (updateChans s l).pending = s.pending := by
  induction l generalizing s <;> simp only [updateChans] <;> (repeat' split) <;> simp_all

@[simp] theorem biasSetAll_frame (x0 : List Byte) (x1 : Nat) (s : State) :
    (biasSetAll x0 x1 s).ph = s.ph ∧ (biasSetAll x0 x1 s).ev = s.ev ∧ (biasSetAll x0 x1 s).sys = s.sys ∧
    (biasSetAll x0 x1 s).em = s.em ∧ (biasSetAll x0 x1 s).tm = s.tm ∧ (biasSetAll x0 x1 s).clk = s.clk ∧
    (biasSetAll x0 x1 s).cfg = s.cfg ∧ (biasSetAll x0 x1 s).fh = s.fh ∧ (biasSetAll x0 x1 s).dl = s.dl ∧
    (biasSetAll x0 x1 s).ul = s.ul ∧ (biasSetAll x0 x1 s).bf = s.bf ∧ (biasSetAll x0 x1 s).lin = s.lin ∧
    (biasSetAll x0 x1 s).core = s.core ∧ (biasSetAll x0 x1 s).rf = s.rf ∧ (biasSetAll x0 x1 s).hk = s.hk ∧
    (biasSetAll x0 x1 s).pwr = s.pwr ∧ (biasSetAll x0 x1 s).th = s.th ∧ (biasSetAll x0 x1 s).nvm = s.nvm ∧
    (biasSetAll x0 x1 s).cal = s.cal ∧ (biasSetAll x0 x1 s).ls = s.ls ∧ (biasSetAll x0 x1 s).rk = s.rk ∧
    (biasSetAll x0 x1 s).test = s.test ∧ (biasSetAll x0 x1 s).life = s.life ∧ (biasSetAll x0 x1 s).boot = s.boot ∧
    (biasSetAll x0 x1 s).stat = s.stat ∧ (biasSetAll x0 x1 s).out = s.out ∧ (biasSetAll x0 x1 s).fresh = s.fresh ∧
    (biasSetAll x0 x1 s).pending = s.pending := by
  unfold biasSetAll
  simp

@[simp] theorem applyDefaults_frame (x0 : List Byte) (x1 : Bool) (s : State) :
    (applyDefaults x0 x1 s).ph = s.ph ∧ (applyDefaults x0 x1 s).ev = s.ev ∧ (applyDefaults x0 x1 s).sys = s.sys ∧
    (applyDefaults x0 x1 s).em = s.em ∧ (applyDefaults x0 x1 s).tm = s.tm ∧ (applyDefaults x0 x1 s).clk = s.clk ∧
    (applyDefaults x0 x1 s).cfg = s.cfg ∧ (applyDefaults x0 x1 s).fh = s.fh ∧ (applyDefaults x0 x1 s).dl = s.dl ∧
    (applyDefaults x0 x1 s).ul = s.ul ∧ (applyDefaults x0 x1 s).bf = s.bf ∧ (applyDefaults x0 x1 s).lin = s.lin ∧
    (applyDefaults x0 x1 s).core = s.core ∧ (applyDefaults x0 x1 s).rf = s.rf ∧ (applyDefaults x0 x1 s).hk = s.hk ∧
    (applyDefaults x0 x1 s).pwr = s.pwr ∧ (applyDefaults x0 x1 s).th = s.th ∧ (applyDefaults x0 x1 s).nvm = s.nvm ∧
    (applyDefaults x0 x1 s).cal = s.cal ∧ (applyDefaults x0 x1 s).ls = s.ls ∧ (applyDefaults x0 x1 s).rk = s.rk ∧
    (applyDefaults x0 x1 s).test = s.test ∧ (applyDefaults x0 x1 s).life = s.life ∧ (applyDefaults x0 x1 s).boot = s.boot ∧
    (applyDefaults x0 x1 s).stat = s.stat ∧ (applyDefaults x0 x1 s).out = s.out ∧ (applyDefaults x0 x1 s).fresh = s.fresh ∧
    (applyDefaults x0 x1 s).pending = s.pending := by
  unfold applyDefaults
  simp

@[simp] theorem writeLog_frame (x0 : Nat) (x1 : List Byte) (s : State) :
    (writeLog x0 x1 s).ph = s.ph ∧ (writeLog x0 x1 s).ev = s.ev ∧ (writeLog x0 x1 s).sys = s.sys ∧
    (writeLog x0 x1 s).em = s.em ∧ (writeLog x0 x1 s).tm = s.tm ∧ (writeLog x0 x1 s).clk = s.clk ∧
    (writeLog x0 x1 s).cfg = s.cfg ∧ (writeLog x0 x1 s).fh = s.fh ∧ (writeLog x0 x1 s).dl = s.dl ∧
    (writeLog x0 x1 s).ul = s.ul ∧ (writeLog x0 x1 s).bf = s.bf ∧ (writeLog x0 x1 s).lin = s.lin ∧
    (writeLog x0 x1 s).core = s.core ∧ (writeLog x0 x1 s).rf = s.rf ∧ (writeLog x0 x1 s).bias = s.bias ∧
    (writeLog x0 x1 s).hk = s.hk ∧ (writeLog x0 x1 s).pwr = s.pwr ∧ (writeLog x0 x1 s).th = s.th ∧
    (writeLog x0 x1 s).cal = s.cal ∧ (writeLog x0 x1 s).rk = s.rk ∧ (writeLog x0 x1 s).test = s.test ∧
    (writeLog x0 x1 s).life = s.life ∧ (writeLog x0 x1 s).boot = s.boot ∧ (writeLog x0 x1 s).stat = s.stat ∧
    (writeLog x0 x1 s).out = s.out ∧ (writeLog x0 x1 s).fresh = s.fresh ∧ (writeLog x0 x1 s).pending = s.pending := by
  unfold writeLog
  simp

@[simp] theorem revokeEntry_frame (x0 : Nat) (x1 : Nat) (s : State) :
    (revokeEntry x0 x1 s).sys = s.sys ∧ (revokeEntry x0 x1 s).em = s.em ∧ (revokeEntry x0 x1 s).tm = s.tm ∧
    (revokeEntry x0 x1 s).clk = s.clk ∧ (revokeEntry x0 x1 s).cfg = s.cfg ∧ (revokeEntry x0 x1 s).fh = s.fh ∧
    (revokeEntry x0 x1 s).dl = s.dl ∧ (revokeEntry x0 x1 s).ul = s.ul ∧ (revokeEntry x0 x1 s).bf = s.bf ∧
    (revokeEntry x0 x1 s).lin = s.lin ∧ (revokeEntry x0 x1 s).core = s.core ∧ (revokeEntry x0 x1 s).rf = s.rf ∧
    (revokeEntry x0 x1 s).bias = s.bias ∧ (revokeEntry x0 x1 s).hk = s.hk ∧ (revokeEntry x0 x1 s).pwr = s.pwr ∧
    (revokeEntry x0 x1 s).th = s.th ∧ (revokeEntry x0 x1 s).cal = s.cal ∧ (revokeEntry x0 x1 s).rk = s.rk ∧
    (revokeEntry x0 x1 s).test = s.test ∧ (revokeEntry x0 x1 s).life = s.life ∧ (revokeEntry x0 x1 s).boot = s.boot ∧
    (revokeEntry x0 x1 s).stat = s.stat ∧ (revokeEntry x0 x1 s).fresh = s.fresh ∧
    (revokeEntry x0 x1 s).pending = s.pending := by
  unfold revokeEntry
  simp

@[simp] theorem setCopy_frame (x0 : Nat) (x1 : Nat) (x2 : NvmCopy) (s : State) :
    (setCopy x0 x1 x2 s).ph = s.ph ∧ (setCopy x0 x1 x2 s).ev = s.ev ∧ (setCopy x0 x1 x2 s).sys = s.sys ∧
    (setCopy x0 x1 x2 s).em = s.em ∧ (setCopy x0 x1 x2 s).tm = s.tm ∧ (setCopy x0 x1 x2 s).clk = s.clk ∧
    (setCopy x0 x1 x2 s).cfg = s.cfg ∧ (setCopy x0 x1 x2 s).fh = s.fh ∧ (setCopy x0 x1 x2 s).dl = s.dl ∧
    (setCopy x0 x1 x2 s).ul = s.ul ∧ (setCopy x0 x1 x2 s).bf = s.bf ∧ (setCopy x0 x1 x2 s).lin = s.lin ∧
    (setCopy x0 x1 x2 s).core = s.core ∧ (setCopy x0 x1 x2 s).rf = s.rf ∧ (setCopy x0 x1 x2 s).bias = s.bias ∧
    (setCopy x0 x1 x2 s).hk = s.hk ∧ (setCopy x0 x1 x2 s).pwr = s.pwr ∧ (setCopy x0 x1 x2 s).th = s.th ∧
    (setCopy x0 x1 x2 s).cal = s.cal ∧ (setCopy x0 x1 x2 s).ls = s.ls ∧ (setCopy x0 x1 x2 s).rk = s.rk ∧
    (setCopy x0 x1 x2 s).test = s.test ∧ (setCopy x0 x1 x2 s).life = s.life ∧ (setCopy x0 x1 x2 s).boot = s.boot ∧
    (setCopy x0 x1 x2 s).stat = s.stat ∧ (setCopy x0 x1 x2 s).out = s.out ∧ (setCopy x0 x1 x2 s).fresh = s.fresh ∧
    (setCopy x0 x1 x2 s).pending = s.pending := by
  unfold setCopy
  simp

@[simp] theorem strikeMram_frame (x0 : Nat) (s : State) :
    (strikeMram x0 s).ph = s.ph ∧ (strikeMram x0 s).ev = s.ev ∧ (strikeMram x0 s).sys = s.sys ∧ (strikeMram x0 s).em = s.em ∧
    (strikeMram x0 s).tm = s.tm ∧ (strikeMram x0 s).clk = s.clk ∧ (strikeMram x0 s).cfg = s.cfg ∧
    (strikeMram x0 s).fh = s.fh ∧ (strikeMram x0 s).dl = s.dl ∧ (strikeMram x0 s).ul = s.ul ∧ (strikeMram x0 s).bf = s.bf ∧
    (strikeMram x0 s).lin = s.lin ∧ (strikeMram x0 s).core = s.core ∧ (strikeMram x0 s).rf = s.rf ∧
    (strikeMram x0 s).bias = s.bias ∧ (strikeMram x0 s).hk = s.hk ∧ (strikeMram x0 s).pwr = s.pwr ∧
    (strikeMram x0 s).th = s.th ∧ (strikeMram x0 s).cal = s.cal ∧ (strikeMram x0 s).ls = s.ls ∧ (strikeMram x0 s).rk = s.rk ∧
    (strikeMram x0 s).test = s.test ∧ (strikeMram x0 s).life = s.life ∧ (strikeMram x0 s).boot = s.boot ∧
    (strikeMram x0 s).stat = s.stat ∧ (strikeMram x0 s).out = s.out ∧ (strikeMram x0 s).fresh = s.fresh ∧
    (strikeMram x0 s).pending = s.pending := by
  unfold strikeMram
  simp

@[simp] theorem readMram_frame (x0 : Nat) (x1 : Nat) (x2 : Nat) (x3 : Nat) (s : State) :
    (readMram x0 x1 x2 x3 s).sys = s.sys ∧ (readMram x0 x1 x2 x3 s).em = s.em ∧ (readMram x0 x1 x2 x3 s).tm = s.tm ∧
    (readMram x0 x1 x2 x3 s).clk = s.clk ∧ (readMram x0 x1 x2 x3 s).cfg = s.cfg ∧ (readMram x0 x1 x2 x3 s).fh = s.fh ∧
    (readMram x0 x1 x2 x3 s).dl = s.dl ∧ (readMram x0 x1 x2 x3 s).ul = s.ul ∧ (readMram x0 x1 x2 x3 s).bf = s.bf ∧
    (readMram x0 x1 x2 x3 s).lin = s.lin ∧ (readMram x0 x1 x2 x3 s).core = s.core ∧ (readMram x0 x1 x2 x3 s).rf = s.rf ∧
    (readMram x0 x1 x2 x3 s).bias = s.bias ∧ (readMram x0 x1 x2 x3 s).hk = s.hk ∧ (readMram x0 x1 x2 x3 s).pwr = s.pwr ∧
    (readMram x0 x1 x2 x3 s).th = s.th ∧ (readMram x0 x1 x2 x3 s).cal = s.cal ∧ (readMram x0 x1 x2 x3 s).ls = s.ls ∧
    (readMram x0 x1 x2 x3 s).rk = s.rk ∧ (readMram x0 x1 x2 x3 s).test = s.test ∧ (readMram x0 x1 x2 x3 s).life = s.life ∧
    (readMram x0 x1 x2 x3 s).boot = s.boot ∧ (readMram x0 x1 x2 x3 s).stat = s.stat ∧
    (readMram x0 x1 x2 x3 s).fresh = s.fresh ∧ (readMram x0 x1 x2 x3 s).pending = s.pending := by
  unfold readMram
  simp

@[simp] theorem readCopy_frame (x0 : Nat) (x1 : Nat) (s : State) :
    (readCopy x0 x1 s).sys = s.sys ∧ (readCopy x0 x1 s).em = s.em ∧ (readCopy x0 x1 s).tm = s.tm ∧
    (readCopy x0 x1 s).clk = s.clk ∧ (readCopy x0 x1 s).cfg = s.cfg ∧ (readCopy x0 x1 s).fh = s.fh ∧
    (readCopy x0 x1 s).dl = s.dl ∧ (readCopy x0 x1 s).ul = s.ul ∧ (readCopy x0 x1 s).bf = s.bf ∧
    (readCopy x0 x1 s).lin = s.lin ∧ (readCopy x0 x1 s).core = s.core ∧ (readCopy x0 x1 s).rf = s.rf ∧
    (readCopy x0 x1 s).bias = s.bias ∧ (readCopy x0 x1 s).hk = s.hk ∧ (readCopy x0 x1 s).pwr = s.pwr ∧
    (readCopy x0 x1 s).th = s.th ∧ (readCopy x0 x1 s).cal = s.cal ∧ (readCopy x0 x1 s).ls = s.ls ∧
    (readCopy x0 x1 s).rk = s.rk ∧ (readCopy x0 x1 s).test = s.test ∧ (readCopy x0 x1 s).life = s.life ∧
    (readCopy x0 x1 s).boot = s.boot ∧ (readCopy x0 x1 s).stat = s.stat ∧ (readCopy x0 x1 s).fresh = s.fresh ∧
    (readCopy x0 x1 s).pending = s.pending := by
  unfold readCopy
  simp

@[simp] theorem recordInvalid_frame (x0 : Nat) (x1 : Nat) (x2 : Nat) (s : State) :
    (recordInvalid x0 x1 x2 s).sys = s.sys ∧ (recordInvalid x0 x1 x2 s).em = s.em ∧ (recordInvalid x0 x1 x2 s).tm = s.tm ∧
    (recordInvalid x0 x1 x2 s).clk = s.clk ∧ (recordInvalid x0 x1 x2 s).cfg = s.cfg ∧ (recordInvalid x0 x1 x2 s).fh = s.fh ∧
    (recordInvalid x0 x1 x2 s).dl = s.dl ∧ (recordInvalid x0 x1 x2 s).ul = s.ul ∧ (recordInvalid x0 x1 x2 s).bf = s.bf ∧
    (recordInvalid x0 x1 x2 s).lin = s.lin ∧ (recordInvalid x0 x1 x2 s).core = s.core ∧ (recordInvalid x0 x1 x2 s).rf = s.rf ∧
    (recordInvalid x0 x1 x2 s).bias = s.bias ∧ (recordInvalid x0 x1 x2 s).hk = s.hk ∧ (recordInvalid x0 x1 x2 s).pwr = s.pwr ∧
    (recordInvalid x0 x1 x2 s).th = s.th ∧ (recordInvalid x0 x1 x2 s).nvm = s.nvm ∧ (recordInvalid x0 x1 x2 s).cal = s.cal ∧
    (recordInvalid x0 x1 x2 s).ls = s.ls ∧ (recordInvalid x0 x1 x2 s).rk = s.rk ∧ (recordInvalid x0 x1 x2 s).test = s.test ∧
    (recordInvalid x0 x1 x2 s).life = s.life ∧ (recordInvalid x0 x1 x2 s).boot = s.boot ∧
    (recordInvalid x0 x1 x2 s).stat = s.stat ∧ (recordInvalid x0 x1 x2 s).fresh = s.fresh ∧
    (recordInvalid x0 x1 x2 s).pending = s.pending := by
  unfold recordInvalid
  simp

@[simp] theorem readRecord_frame (x0 : Nat) (x1 : Nat) (s : State) :
    (readRecord x0 x1 s).sys = s.sys ∧ (readRecord x0 x1 s).em = s.em ∧ (readRecord x0 x1 s).tm = s.tm ∧
    (readRecord x0 x1 s).clk = s.clk ∧ (readRecord x0 x1 s).cfg = s.cfg ∧ (readRecord x0 x1 s).fh = s.fh ∧
    (readRecord x0 x1 s).dl = s.dl ∧ (readRecord x0 x1 s).ul = s.ul ∧ (readRecord x0 x1 s).bf = s.bf ∧
    (readRecord x0 x1 s).lin = s.lin ∧ (readRecord x0 x1 s).core = s.core ∧ (readRecord x0 x1 s).rf = s.rf ∧
    (readRecord x0 x1 s).bias = s.bias ∧ (readRecord x0 x1 s).hk = s.hk ∧ (readRecord x0 x1 s).pwr = s.pwr ∧
    (readRecord x0 x1 s).th = s.th ∧ (readRecord x0 x1 s).cal = s.cal ∧ (readRecord x0 x1 s).ls = s.ls ∧
    (readRecord x0 x1 s).rk = s.rk ∧ (readRecord x0 x1 s).test = s.test ∧ (readRecord x0 x1 s).life = s.life ∧
    (readRecord x0 x1 s).boot = s.boot ∧ (readRecord x0 x1 s).stat = s.stat ∧ (readRecord x0 x1 s).fresh = s.fresh ∧
    (readRecord x0 x1 s).pending = s.pending := by
  unfold readRecord
  simp

@[simp] theorem cleanCopy_frame (x0 : Nat) (x1 : Nat) (x2 : Nat) (x3 : Nat) (s : State) :
    (cleanCopy x0 x1 x2 x3 s).ph = s.ph ∧ (cleanCopy x0 x1 x2 x3 s).ev = s.ev ∧ (cleanCopy x0 x1 x2 x3 s).sys = s.sys ∧
    (cleanCopy x0 x1 x2 x3 s).em = s.em ∧ (cleanCopy x0 x1 x2 x3 s).tm = s.tm ∧ (cleanCopy x0 x1 x2 x3 s).clk = s.clk ∧
    (cleanCopy x0 x1 x2 x3 s).cfg = s.cfg ∧ (cleanCopy x0 x1 x2 x3 s).fh = s.fh ∧ (cleanCopy x0 x1 x2 x3 s).dl = s.dl ∧
    (cleanCopy x0 x1 x2 x3 s).ul = s.ul ∧ (cleanCopy x0 x1 x2 x3 s).bf = s.bf ∧ (cleanCopy x0 x1 x2 x3 s).lin = s.lin ∧
    (cleanCopy x0 x1 x2 x3 s).core = s.core ∧ (cleanCopy x0 x1 x2 x3 s).rf = s.rf ∧ (cleanCopy x0 x1 x2 x3 s).bias = s.bias ∧
    (cleanCopy x0 x1 x2 x3 s).hk = s.hk ∧ (cleanCopy x0 x1 x2 x3 s).pwr = s.pwr ∧ (cleanCopy x0 x1 x2 x3 s).th = s.th ∧
    (cleanCopy x0 x1 x2 x3 s).nvm = s.nvm ∧ (cleanCopy x0 x1 x2 x3 s).cal = s.cal ∧ (cleanCopy x0 x1 x2 x3 s).rk = s.rk ∧
    (cleanCopy x0 x1 x2 x3 s).test = s.test ∧ (cleanCopy x0 x1 x2 x3 s).life = s.life ∧
    (cleanCopy x0 x1 x2 x3 s).boot = s.boot ∧ (cleanCopy x0 x1 x2 x3 s).stat = s.stat ∧
    (cleanCopy x0 x1 x2 x3 s).out = s.out ∧ (cleanCopy x0 x1 x2 x3 s).fresh = s.fresh ∧
    (cleanCopy x0 x1 x2 x3 s).pending = s.pending := by
  unfold cleanCopy
  simp

@[simp] theorem countWrite_frame (x0 : Nat) (x1 : Nat) (s : State) :
    (countWrite x0 x1 s).sys = s.sys ∧ (countWrite x0 x1 s).em = s.em ∧ (countWrite x0 x1 s).tm = s.tm ∧
    (countWrite x0 x1 s).clk = s.clk ∧ (countWrite x0 x1 s).cfg = s.cfg ∧ (countWrite x0 x1 s).fh = s.fh ∧
    (countWrite x0 x1 s).dl = s.dl ∧ (countWrite x0 x1 s).ul = s.ul ∧ (countWrite x0 x1 s).bf = s.bf ∧
    (countWrite x0 x1 s).lin = s.lin ∧ (countWrite x0 x1 s).core = s.core ∧ (countWrite x0 x1 s).rf = s.rf ∧
    (countWrite x0 x1 s).bias = s.bias ∧ (countWrite x0 x1 s).hk = s.hk ∧ (countWrite x0 x1 s).pwr = s.pwr ∧
    (countWrite x0 x1 s).th = s.th ∧ (countWrite x0 x1 s).cal = s.cal ∧ (countWrite x0 x1 s).ls = s.ls ∧
    (countWrite x0 x1 s).rk = s.rk ∧ (countWrite x0 x1 s).test = s.test ∧ (countWrite x0 x1 s).life = s.life ∧
    (countWrite x0 x1 s).boot = s.boot ∧ (countWrite x0 x1 s).stat = s.stat ∧ (countWrite x0 x1 s).fresh = s.fresh ∧
    (countWrite x0 x1 s).pending = s.pending := by
  unfold countWrite
  simp

@[simp] theorem nvmTorn_frame (s : State) :
    (nvmTorn s).ph = s.ph ∧ (nvmTorn s).ev = s.ev ∧ (nvmTorn s).sys = s.sys ∧ (nvmTorn s).em = s.em ∧ (nvmTorn s).tm = s.tm ∧
    (nvmTorn s).clk = s.clk ∧ (nvmTorn s).cfg = s.cfg ∧ (nvmTorn s).fh = s.fh ∧ (nvmTorn s).dl = s.dl ∧
    (nvmTorn s).ul = s.ul ∧ (nvmTorn s).bf = s.bf ∧ (nvmTorn s).lin = s.lin ∧ (nvmTorn s).core = s.core ∧
    (nvmTorn s).rf = s.rf ∧ (nvmTorn s).bias = s.bias ∧ (nvmTorn s).hk = s.hk ∧ (nvmTorn s).pwr = s.pwr ∧
    (nvmTorn s).th = s.th ∧ (nvmTorn s).cal = s.cal ∧ (nvmTorn s).ls = s.ls ∧ (nvmTorn s).rk = s.rk ∧
    (nvmTorn s).test = s.test ∧ (nvmTorn s).life = s.life ∧ (nvmTorn s).boot = s.boot ∧ (nvmTorn s).stat = s.stat ∧
    (nvmTorn s).out = s.out ∧ (nvmTorn s).fresh = s.fresh ∧ (nvmTorn s).pending = s.pending := by
  unfold nvmTorn
  repeat' (first | (simp; done) | (simp only [takeFree]) | split | (dsimp only))

@[simp] theorem dropJob_frame (x0 : Nat) (s : State) :
    (dropJob x0 s).ph = s.ph ∧ (dropJob x0 s).ev = s.ev ∧ (dropJob x0 s).sys = s.sys ∧ (dropJob x0 s).em = s.em ∧
    (dropJob x0 s).tm = s.tm ∧ (dropJob x0 s).clk = s.clk ∧ (dropJob x0 s).cfg = s.cfg ∧ (dropJob x0 s).fh = s.fh ∧
    (dropJob x0 s).dl = s.dl ∧ (dropJob x0 s).ul = s.ul ∧ (dropJob x0 s).bf = s.bf ∧ (dropJob x0 s).lin = s.lin ∧
    (dropJob x0 s).core = s.core ∧ (dropJob x0 s).rf = s.rf ∧ (dropJob x0 s).bias = s.bias ∧ (dropJob x0 s).hk = s.hk ∧
    (dropJob x0 s).pwr = s.pwr ∧ (dropJob x0 s).th = s.th ∧ (dropJob x0 s).cal = s.cal ∧ (dropJob x0 s).ls = s.ls ∧
    (dropJob x0 s).rk = s.rk ∧ (dropJob x0 s).test = s.test ∧ (dropJob x0 s).life = s.life ∧ (dropJob x0 s).boot = s.boot ∧
    (dropJob x0 s).stat = s.stat ∧ (dropJob x0 s).out = s.out ∧ (dropJob x0 s).fresh = s.fresh ∧
    (dropJob x0 s).pending = s.pending := by
  unfold dropJob
  repeat' (first | (simp; done) | (simp only [takeFree]) | split | (dsimp only))

@[simp] theorem cleanEntry_frame (x0 : Nat) (s : State) :
    (cleanEntry x0 s).ph = s.ph ∧ (cleanEntry x0 s).ev = s.ev ∧ (cleanEntry x0 s).sys = s.sys ∧ (cleanEntry x0 s).em = s.em ∧
    (cleanEntry x0 s).tm = s.tm ∧ (cleanEntry x0 s).clk = s.clk ∧ (cleanEntry x0 s).cfg = s.cfg ∧
    (cleanEntry x0 s).fh = s.fh ∧ (cleanEntry x0 s).dl = s.dl ∧ (cleanEntry x0 s).ul = s.ul ∧ (cleanEntry x0 s).bf = s.bf ∧
    (cleanEntry x0 s).lin = s.lin ∧ (cleanEntry x0 s).core = s.core ∧ (cleanEntry x0 s).rf = s.rf ∧
    (cleanEntry x0 s).bias = s.bias ∧ (cleanEntry x0 s).hk = s.hk ∧ (cleanEntry x0 s).pwr = s.pwr ∧
    (cleanEntry x0 s).th = s.th ∧ (cleanEntry x0 s).nvm = s.nvm ∧ (cleanEntry x0 s).cal = s.cal ∧
    (cleanEntry x0 s).rk = s.rk ∧ (cleanEntry x0 s).test = s.test ∧ (cleanEntry x0 s).life = s.life ∧
    (cleanEntry x0 s).boot = s.boot ∧ (cleanEntry x0 s).stat = s.stat ∧ (cleanEntry x0 s).out = s.out ∧
    (cleanEntry x0 s).fresh = s.fresh ∧ (cleanEntry x0 s).pending = s.pending := by
  unfold cleanEntry
  simp

@[simp] theorem cabinetLive_frame (x0 : Boundary) (s : State) :
    (cabinetLive x0 s).ph = s.ph ∧ (cabinetLive x0 s).ev = s.ev ∧ (cabinetLive x0 s).sys = s.sys ∧
    (cabinetLive x0 s).em = s.em ∧ (cabinetLive x0 s).tm = s.tm ∧ (cabinetLive x0 s).clk = s.clk ∧
    (cabinetLive x0 s).cfg = s.cfg ∧ (cabinetLive x0 s).fh = s.fh ∧ (cabinetLive x0 s).dl = s.dl ∧
    (cabinetLive x0 s).ul = s.ul ∧ (cabinetLive x0 s).lin = s.lin ∧ (cabinetLive x0 s).core = s.core ∧
    (cabinetLive x0 s).rf = s.rf ∧ (cabinetLive x0 s).bias = s.bias ∧ (cabinetLive x0 s).hk = s.hk ∧
    (cabinetLive x0 s).pwr = s.pwr ∧ (cabinetLive x0 s).th = s.th ∧ (cabinetLive x0 s).nvm = s.nvm ∧
    (cabinetLive x0 s).cal = s.cal ∧ (cabinetLive x0 s).rk = s.rk ∧ (cabinetLive x0 s).test = s.test ∧
    (cabinetLive x0 s).life = s.life ∧ (cabinetLive x0 s).boot = s.boot ∧ (cabinetLive x0 s).stat = s.stat ∧
    (cabinetLive x0 s).out = s.out ∧ (cabinetLive x0 s).fresh = s.fresh ∧ (cabinetLive x0 s).pending = s.pending := by
  unfold cabinetLive
  simp

@[simp] theorem cabinetPassed_frame (t : Instant) (n : Nat) (s : State) :
    (cabinetPassed t n s).ph = s.ph ∧ (cabinetPassed t n s).ev = s.ev ∧ (cabinetPassed t n s).sys = s.sys ∧
    (cabinetPassed t n s).em = s.em ∧ (cabinetPassed t n s).tm = s.tm ∧ (cabinetPassed t n s).clk = s.clk ∧
    (cabinetPassed t n s).cfg = s.cfg ∧ (cabinetPassed t n s).fh = s.fh ∧ (cabinetPassed t n s).dl = s.dl ∧
    (cabinetPassed t n s).ul = s.ul ∧ (cabinetPassed t n s).lin = s.lin ∧ (cabinetPassed t n s).core = s.core ∧
    (cabinetPassed t n s).rf = s.rf ∧ (cabinetPassed t n s).bias = s.bias ∧ (cabinetPassed t n s).hk = s.hk ∧
    (cabinetPassed t n s).pwr = s.pwr ∧ (cabinetPassed t n s).th = s.th ∧ (cabinetPassed t n s).nvm = s.nvm ∧
    (cabinetPassed t n s).cal = s.cal ∧ (cabinetPassed t n s).rk = s.rk ∧ (cabinetPassed t n s).test = s.test ∧
    (cabinetPassed t n s).life = s.life ∧ (cabinetPassed t n s).boot = s.boot ∧ (cabinetPassed t n s).stat = s.stat ∧
    (cabinetPassed t n s).out = s.out ∧ (cabinetPassed t n s).fresh = s.fresh ∧
    (cabinetPassed t n s).pending = s.pending := by
  induction n generalizing s <;> simp only [cabinetPassed] <;> (repeat' split) <;> simp_all

@[simp] theorem setVec_frame (x0 : Nat) (x1 : WeightVec) (s : State) :
    (setVec x0 x1 s).ph = s.ph ∧ (setVec x0 x1 s).ev = s.ev ∧ (setVec x0 x1 s).sys = s.sys ∧ (setVec x0 x1 s).em = s.em ∧
    (setVec x0 x1 s).tm = s.tm ∧ (setVec x0 x1 s).clk = s.clk ∧ (setVec x0 x1 s).cfg = s.cfg ∧ (setVec x0 x1 s).fh = s.fh ∧
    (setVec x0 x1 s).dl = s.dl ∧ (setVec x0 x1 s).ul = s.ul ∧ (setVec x0 x1 s).lin = s.lin ∧ (setVec x0 x1 s).core = s.core ∧
    (setVec x0 x1 s).rf = s.rf ∧ (setVec x0 x1 s).bias = s.bias ∧ (setVec x0 x1 s).hk = s.hk ∧ (setVec x0 x1 s).pwr = s.pwr ∧
    (setVec x0 x1 s).th = s.th ∧ (setVec x0 x1 s).nvm = s.nvm ∧ (setVec x0 x1 s).cal = s.cal ∧ (setVec x0 x1 s).rk = s.rk ∧
    (setVec x0 x1 s).test = s.test ∧ (setVec x0 x1 s).life = s.life ∧ (setVec x0 x1 s).boot = s.boot ∧
    (setVec x0 x1 s).stat = s.stat ∧ (setVec x0 x1 s).out = s.out ∧ (setVec x0 x1 s).fresh = s.fresh ∧
    (setVec x0 x1 s).pending = s.pending := by
  unfold setVec
  simp

@[simp] theorem applyVector_frame (x0 : Bool) (x1 : Nat) (x2 : Nat) (x3 : Section) (x4 : Nat × Nat) (s : State) (x6 : Nat) :
    (applyVector x0 x1 x2 x3 x4 s x6).ph = s.ph ∧ (applyVector x0 x1 x2 x3 x4 s x6).ev = s.ev ∧
    (applyVector x0 x1 x2 x3 x4 s x6).sys = s.sys ∧ (applyVector x0 x1 x2 x3 x4 s x6).em = s.em ∧
    (applyVector x0 x1 x2 x3 x4 s x6).tm = s.tm ∧ (applyVector x0 x1 x2 x3 x4 s x6).clk = s.clk ∧
    (applyVector x0 x1 x2 x3 x4 s x6).cfg = s.cfg ∧ (applyVector x0 x1 x2 x3 x4 s x6).fh = s.fh ∧
    (applyVector x0 x1 x2 x3 x4 s x6).dl = s.dl ∧ (applyVector x0 x1 x2 x3 x4 s x6).ul = s.ul ∧
    (applyVector x0 x1 x2 x3 x4 s x6).lin = s.lin ∧ (applyVector x0 x1 x2 x3 x4 s x6).core = s.core ∧
    (applyVector x0 x1 x2 x3 x4 s x6).rf = s.rf ∧ (applyVector x0 x1 x2 x3 x4 s x6).bias = s.bias ∧
    (applyVector x0 x1 x2 x3 x4 s x6).hk = s.hk ∧ (applyVector x0 x1 x2 x3 x4 s x6).pwr = s.pwr ∧
    (applyVector x0 x1 x2 x3 x4 s x6).th = s.th ∧ (applyVector x0 x1 x2 x3 x4 s x6).nvm = s.nvm ∧
    (applyVector x0 x1 x2 x3 x4 s x6).cal = s.cal ∧ (applyVector x0 x1 x2 x3 x4 s x6).rk = s.rk ∧
    (applyVector x0 x1 x2 x3 x4 s x6).test = s.test ∧ (applyVector x0 x1 x2 x3 x4 s x6).life = s.life ∧
    (applyVector x0 x1 x2 x3 x4 s x6).boot = s.boot ∧ (applyVector x0 x1 x2 x3 x4 s x6).out = s.out ∧
    (applyVector x0 x1 x2 x3 x4 s x6).fresh = s.fresh ∧ (applyVector x0 x1 x2 x3 x4 s x6).pending = s.pending := by
  unfold applyVector
  simp

@[simp] theorem applyDelivery_frame (x0 : Bool) (x1 : Nat) (x2 : Nat) (x3 : Section) (s : State) :
    (applyDelivery x0 x1 x2 x3 s).ph = s.ph ∧ (applyDelivery x0 x1 x2 x3 s).ev = s.ev ∧
    (applyDelivery x0 x1 x2 x3 s).sys = s.sys ∧ (applyDelivery x0 x1 x2 x3 s).em = s.em ∧
    (applyDelivery x0 x1 x2 x3 s).tm = s.tm ∧ (applyDelivery x0 x1 x2 x3 s).clk = s.clk ∧
    (applyDelivery x0 x1 x2 x3 s).cfg = s.cfg ∧ (applyDelivery x0 x1 x2 x3 s).fh = s.fh ∧
    (applyDelivery x0 x1 x2 x3 s).dl = s.dl ∧ (applyDelivery x0 x1 x2 x3 s).ul = s.ul ∧
    (applyDelivery x0 x1 x2 x3 s).lin = s.lin ∧ (applyDelivery x0 x1 x2 x3 s).core = s.core ∧
    (applyDelivery x0 x1 x2 x3 s).rf = s.rf ∧ (applyDelivery x0 x1 x2 x3 s).bias = s.bias ∧
    (applyDelivery x0 x1 x2 x3 s).hk = s.hk ∧ (applyDelivery x0 x1 x2 x3 s).pwr = s.pwr ∧
    (applyDelivery x0 x1 x2 x3 s).th = s.th ∧ (applyDelivery x0 x1 x2 x3 s).nvm = s.nvm ∧
    (applyDelivery x0 x1 x2 x3 s).cal = s.cal ∧ (applyDelivery x0 x1 x2 x3 s).rk = s.rk ∧
    (applyDelivery x0 x1 x2 x3 s).test = s.test ∧ (applyDelivery x0 x1 x2 x3 s).life = s.life ∧
    (applyDelivery x0 x1 x2 x3 s).boot = s.boot ∧ (applyDelivery x0 x1 x2 x3 s).out = s.out ∧
    (applyDelivery x0 x1 x2 x3 s).fresh = s.fresh ∧ (applyDelivery x0 x1 x2 x3 s).pending = s.pending := by
  unfold applyDelivery
  simp

@[simp] theorem claimSlot_frame (x0 : Image) (x1 : Bool) (x2 : Nat) (x3 : Nat) (s : State) :
    (claimSlot x0 x1 x2 x3 s).ph = s.ph ∧ (claimSlot x0 x1 x2 x3 s).ev = s.ev ∧ (claimSlot x0 x1 x2 x3 s).sys = s.sys ∧
    (claimSlot x0 x1 x2 x3 s).em = s.em ∧ (claimSlot x0 x1 x2 x3 s).tm = s.tm ∧ (claimSlot x0 x1 x2 x3 s).clk = s.clk ∧
    (claimSlot x0 x1 x2 x3 s).cfg = s.cfg ∧ (claimSlot x0 x1 x2 x3 s).fh = s.fh ∧ (claimSlot x0 x1 x2 x3 s).ul = s.ul ∧
    (claimSlot x0 x1 x2 x3 s).lin = s.lin ∧ (claimSlot x0 x1 x2 x3 s).core = s.core ∧ (claimSlot x0 x1 x2 x3 s).rf = s.rf ∧
    (claimSlot x0 x1 x2 x3 s).bias = s.bias ∧ (claimSlot x0 x1 x2 x3 s).hk = s.hk ∧ (claimSlot x0 x1 x2 x3 s).pwr = s.pwr ∧
    (claimSlot x0 x1 x2 x3 s).th = s.th ∧ (claimSlot x0 x1 x2 x3 s).nvm = s.nvm ∧ (claimSlot x0 x1 x2 x3 s).cal = s.cal ∧
    (claimSlot x0 x1 x2 x3 s).rk = s.rk ∧ (claimSlot x0 x1 x2 x3 s).test = s.test ∧ (claimSlot x0 x1 x2 x3 s).life = s.life ∧
    (claimSlot x0 x1 x2 x3 s).boot = s.boot ∧ (claimSlot x0 x1 x2 x3 s).out = s.out ∧
    (claimSlot x0 x1 x2 x3 s).fresh = s.fresh ∧ (claimSlot x0 x1 x2 x3 s).pending = s.pending := by
  unfold claimSlot
  simp

@[simp] theorem claimsPassed_frame (x0 : Instant) (x1 : Instant) (s : State) :
    (claimsPassed x0 x1 s).ph = s.ph ∧ (claimsPassed x0 x1 s).ev = s.ev ∧ (claimsPassed x0 x1 s).sys = s.sys ∧
    (claimsPassed x0 x1 s).em = s.em ∧ (claimsPassed x0 x1 s).tm = s.tm ∧ (claimsPassed x0 x1 s).clk = s.clk ∧
    (claimsPassed x0 x1 s).cfg = s.cfg ∧ (claimsPassed x0 x1 s).fh = s.fh ∧ (claimsPassed x0 x1 s).ul = s.ul ∧
    (claimsPassed x0 x1 s).lin = s.lin ∧ (claimsPassed x0 x1 s).core = s.core ∧ (claimsPassed x0 x1 s).rf = s.rf ∧
    (claimsPassed x0 x1 s).bias = s.bias ∧ (claimsPassed x0 x1 s).hk = s.hk ∧ (claimsPassed x0 x1 s).pwr = s.pwr ∧
    (claimsPassed x0 x1 s).th = s.th ∧ (claimsPassed x0 x1 s).nvm = s.nvm ∧ (claimsPassed x0 x1 s).cal = s.cal ∧
    (claimsPassed x0 x1 s).rk = s.rk ∧ (claimsPassed x0 x1 s).test = s.test ∧ (claimsPassed x0 x1 s).life = s.life ∧
    (claimsPassed x0 x1 s).boot = s.boot ∧ (claimsPassed x0 x1 s).out = s.out ∧ (claimsPassed x0 x1 s).fresh = s.fresh ∧
    (claimsPassed x0 x1 s).pending = s.pending := by
  unfold claimsPassed
  simp

@[simp] theorem loadEntry_frame (x0 : List Byte) (s : State) (x2 : Nat) :
    (loadEntry x0 s x2).sys = s.sys ∧ (loadEntry x0 s x2).em = s.em ∧ (loadEntry x0 s x2).tm = s.tm ∧
    (loadEntry x0 s x2).clk = s.clk ∧ (loadEntry x0 s x2).cfg = s.cfg ∧ (loadEntry x0 s x2).fh = s.fh ∧
    (loadEntry x0 s x2).dl = s.dl ∧ (loadEntry x0 s x2).ul = s.ul ∧ (loadEntry x0 s x2).lin = s.lin ∧
    (loadEntry x0 s x2).core = s.core ∧ (loadEntry x0 s x2).rf = s.rf ∧ (loadEntry x0 s x2).bias = s.bias ∧
    (loadEntry x0 s x2).hk = s.hk ∧ (loadEntry x0 s x2).pwr = s.pwr ∧ (loadEntry x0 s x2).th = s.th ∧
    (loadEntry x0 s x2).nvm = s.nvm ∧ (loadEntry x0 s x2).cal = s.cal ∧ (loadEntry x0 s x2).ls = s.ls ∧
    (loadEntry x0 s x2).rk = s.rk ∧ (loadEntry x0 s x2).test = s.test ∧ (loadEntry x0 s x2).life = s.life ∧
    (loadEntry x0 s x2).boot = s.boot ∧ (loadEntry x0 s x2).fresh = s.fresh ∧ (loadEntry x0 s x2).pending = s.pending := by
  unfold loadEntry
  repeat' (first | (simp; done) | (simp only [takeFree]) | split | (dsimp only))

@[simp] theorem loadCabinet_frame (s : State) :
    (loadCabinet s).sys = s.sys ∧ (loadCabinet s).em = s.em ∧ (loadCabinet s).tm = s.tm ∧ (loadCabinet s).clk = s.clk ∧
    (loadCabinet s).cfg = s.cfg ∧ (loadCabinet s).fh = s.fh ∧ (loadCabinet s).dl = s.dl ∧ (loadCabinet s).ul = s.ul ∧
    (loadCabinet s).lin = s.lin ∧ (loadCabinet s).core = s.core ∧ (loadCabinet s).rf = s.rf ∧ (loadCabinet s).bias = s.bias ∧
    (loadCabinet s).hk = s.hk ∧ (loadCabinet s).pwr = s.pwr ∧ (loadCabinet s).th = s.th ∧ (loadCabinet s).nvm = s.nvm ∧
    (loadCabinet s).cal = s.cal ∧ (loadCabinet s).ls = s.ls ∧ (loadCabinet s).rk = s.rk ∧ (loadCabinet s).test = s.test ∧
    (loadCabinet s).life = s.life ∧ (loadCabinet s).boot = s.boot ∧ (loadCabinet s).fresh = s.fresh ∧
    (loadCabinet s).pending = s.pending := by
  unfold loadCabinet
  repeat' (first | (simp; done) | (simp only [takeFree]) | split | (dsimp only))

@[simp] theorem raiseTimes_frame (x0 : Nat) (x1 : Nat) (x2 : List Byte) (s : State) :
    (raiseTimes x0 x1 x2 s).sys = s.sys ∧ (raiseTimes x0 x1 x2 s).em = s.em ∧ (raiseTimes x0 x1 x2 s).tm = s.tm ∧
    (raiseTimes x0 x1 x2 s).clk = s.clk ∧ (raiseTimes x0 x1 x2 s).cfg = s.cfg ∧ (raiseTimes x0 x1 x2 s).fh = s.fh ∧
    (raiseTimes x0 x1 x2 s).dl = s.dl ∧ (raiseTimes x0 x1 x2 s).ul = s.ul ∧ (raiseTimes x0 x1 x2 s).bf = s.bf ∧
    (raiseTimes x0 x1 x2 s).lin = s.lin ∧ (raiseTimes x0 x1 x2 s).core = s.core ∧ (raiseTimes x0 x1 x2 s).rf = s.rf ∧
    (raiseTimes x0 x1 x2 s).bias = s.bias ∧ (raiseTimes x0 x1 x2 s).hk = s.hk ∧ (raiseTimes x0 x1 x2 s).pwr = s.pwr ∧
    (raiseTimes x0 x1 x2 s).th = s.th ∧ (raiseTimes x0 x1 x2 s).nvm = s.nvm ∧ (raiseTimes x0 x1 x2 s).cal = s.cal ∧
    (raiseTimes x0 x1 x2 s).ls = s.ls ∧ (raiseTimes x0 x1 x2 s).rk = s.rk ∧ (raiseTimes x0 x1 x2 s).test = s.test ∧
    (raiseTimes x0 x1 x2 s).life = s.life ∧ (raiseTimes x0 x1 x2 s).boot = s.boot ∧ (raiseTimes x0 x1 x2 s).stat = s.stat ∧
    (raiseTimes x0 x1 x2 s).fresh = s.fresh ∧ (raiseTimes x0 x1 x2 s).pending = s.pending := by
  unfold raiseTimes
  simp

@[simp] theorem countSat_frame (x0 : Nat) (x1 : Nat) (x2 : Nat) (x3 : Nat) (x4 : Nat) (x5 : List Byte) (s : State) :
    (countSat x0 x1 x2 x3 x4 x5 s).sys = s.sys ∧ (countSat x0 x1 x2 x3 x4 x5 s).em = s.em ∧
    (countSat x0 x1 x2 x3 x4 x5 s).tm = s.tm ∧ (countSat x0 x1 x2 x3 x4 x5 s).clk = s.clk ∧
    (countSat x0 x1 x2 x3 x4 x5 s).cfg = s.cfg ∧ (countSat x0 x1 x2 x3 x4 x5 s).fh = s.fh ∧
    (countSat x0 x1 x2 x3 x4 x5 s).dl = s.dl ∧ (countSat x0 x1 x2 x3 x4 x5 s).ul = s.ul ∧
    (countSat x0 x1 x2 x3 x4 x5 s).bf = s.bf ∧ (countSat x0 x1 x2 x3 x4 x5 s).lin = s.lin ∧
    (countSat x0 x1 x2 x3 x4 x5 s).core = s.core ∧ (countSat x0 x1 x2 x3 x4 x5 s).rf = s.rf ∧
    (countSat x0 x1 x2 x3 x4 x5 s).bias = s.bias ∧ (countSat x0 x1 x2 x3 x4 x5 s).hk = s.hk ∧
    (countSat x0 x1 x2 x3 x4 x5 s).pwr = s.pwr ∧ (countSat x0 x1 x2 x3 x4 x5 s).th = s.th ∧
    (countSat x0 x1 x2 x3 x4 x5 s).nvm = s.nvm ∧ (countSat x0 x1 x2 x3 x4 x5 s).cal = s.cal ∧
    (countSat x0 x1 x2 x3 x4 x5 s).ls = s.ls ∧ (countSat x0 x1 x2 x3 x4 x5 s).rk = s.rk ∧
    (countSat x0 x1 x2 x3 x4 x5 s).test = s.test ∧ (countSat x0 x1 x2 x3 x4 x5 s).life = s.life ∧
    (countSat x0 x1 x2 x3 x4 x5 s).boot = s.boot ∧ (countSat x0 x1 x2 x3 x4 x5 s).fresh = s.fresh ∧
    (countSat x0 x1 x2 x3 x4 x5 s).pending = s.pending := by
  unfold countSat
  simp

@[simp] theorem replaceBanks_frame (s : State) (x1 : Image) (x2 : List Nat) :
    (replaceBanks s x1 x2).ph = s.ph ∧ (replaceBanks s x1 x2).ev = s.ev ∧ (replaceBanks s x1 x2).sys = s.sys ∧
    (replaceBanks s x1 x2).em = s.em ∧ (replaceBanks s x1 x2).tm = s.tm ∧ (replaceBanks s x1 x2).clk = s.clk ∧
    (replaceBanks s x1 x2).cfg = s.cfg ∧ (replaceBanks s x1 x2).fh = s.fh ∧ (replaceBanks s x1 x2).dl = s.dl ∧
    (replaceBanks s x1 x2).ul = s.ul ∧ (replaceBanks s x1 x2).bf = s.bf ∧ (replaceBanks s x1 x2).core = s.core ∧
    (replaceBanks s x1 x2).rf = s.rf ∧ (replaceBanks s x1 x2).bias = s.bias ∧ (replaceBanks s x1 x2).hk = s.hk ∧
    (replaceBanks s x1 x2).pwr = s.pwr ∧ (replaceBanks s x1 x2).th = s.th ∧ (replaceBanks s x1 x2).nvm = s.nvm ∧
    (replaceBanks s x1 x2).cal = s.cal ∧ (replaceBanks s x1 x2).ls = s.ls ∧ (replaceBanks s x1 x2).rk = s.rk ∧
    (replaceBanks s x1 x2).test = s.test ∧ (replaceBanks s x1 x2).life = s.life ∧ (replaceBanks s x1 x2).boot = s.boot ∧
    (replaceBanks s x1 x2).stat = s.stat ∧ (replaceBanks s x1 x2).out = s.out ∧ (replaceBanks s x1 x2).fresh = s.fresh ∧
    (replaceBanks s x1 x2).pending = s.pending := by
  unfold replaceBanks
  simp

@[simp] theorem loadBanks_frame (s : State) :
    (loadBanks s).ph = s.ph ∧ (loadBanks s).ev = s.ev ∧ (loadBanks s).sys = s.sys ∧ (loadBanks s).em = s.em ∧
    (loadBanks s).tm = s.tm ∧ (loadBanks s).clk = s.clk ∧ (loadBanks s).cfg = s.cfg ∧ (loadBanks s).fh = s.fh ∧
    (loadBanks s).dl = s.dl ∧ (loadBanks s).ul = s.ul ∧ (loadBanks s).bf = s.bf ∧ (loadBanks s).core = s.core ∧
    (loadBanks s).rf = s.rf ∧ (loadBanks s).bias = s.bias ∧ (loadBanks s).hk = s.hk ∧ (loadBanks s).pwr = s.pwr ∧
    (loadBanks s).th = s.th ∧ (loadBanks s).nvm = s.nvm ∧ (loadBanks s).cal = s.cal ∧ (loadBanks s).ls = s.ls ∧
    (loadBanks s).rk = s.rk ∧ (loadBanks s).test = s.test ∧ (loadBanks s).life = s.life ∧ (loadBanks s).boot = s.boot ∧
    (loadBanks s).stat = s.stat ∧ (loadBanks s).out = s.out ∧ (loadBanks s).fresh = s.fresh ∧
    (loadBanks s).pending = s.pending := by
  unfold loadBanks
  simp

@[simp] theorem requestCommit_frame (x0 : List Nat) (x1 : Bool) (x2 : Instant) (s : State) :
    (requestCommit x0 x1 x2 s).2.ph = s.ph ∧ (requestCommit x0 x1 x2 s).2.ev = s.ev ∧
    (requestCommit x0 x1 x2 s).2.sys = s.sys ∧ (requestCommit x0 x1 x2 s).2.em = s.em ∧
    (requestCommit x0 x1 x2 s).2.tm = s.tm ∧ (requestCommit x0 x1 x2 s).2.clk = s.clk ∧
    (requestCommit x0 x1 x2 s).2.cfg = s.cfg ∧ (requestCommit x0 x1 x2 s).2.fh = s.fh ∧
    (requestCommit x0 x1 x2 s).2.dl = s.dl ∧ (requestCommit x0 x1 x2 s).2.ul = s.ul ∧ (requestCommit x0 x1 x2 s).2.bf = s.bf ∧
    (requestCommit x0 x1 x2 s).2.core = s.core ∧ (requestCommit x0 x1 x2 s).2.rf = s.rf ∧
    (requestCommit x0 x1 x2 s).2.bias = s.bias ∧ (requestCommit x0 x1 x2 s).2.hk = s.hk ∧
    (requestCommit x0 x1 x2 s).2.pwr = s.pwr ∧ (requestCommit x0 x1 x2 s).2.th = s.th ∧
    (requestCommit x0 x1 x2 s).2.nvm = s.nvm ∧ (requestCommit x0 x1 x2 s).2.cal = s.cal ∧
    (requestCommit x0 x1 x2 s).2.ls = s.ls ∧ (requestCommit x0 x1 x2 s).2.rk = s.rk ∧
    (requestCommit x0 x1 x2 s).2.test = s.test ∧ (requestCommit x0 x1 x2 s).2.life = s.life ∧
    (requestCommit x0 x1 x2 s).2.boot = s.boot ∧ (requestCommit x0 x1 x2 s).2.stat = s.stat ∧
    (requestCommit x0 x1 x2 s).2.out = s.out ∧ (requestCommit x0 x1 x2 s).2.fresh = s.fresh ∧
    (requestCommit x0 x1 x2 s).2.pending = s.pending := by
  unfold requestCommit
  simp

@[simp] theorem runCommit_frame (x0 : BankCommit) (s : State) :
    (runCommit x0 s).sys = s.sys ∧ (runCommit x0 s).em = s.em ∧ (runCommit x0 s).tm = s.tm ∧ (runCommit x0 s).clk = s.clk ∧
    (runCommit x0 s).cfg = s.cfg ∧ (runCommit x0 s).fh = s.fh ∧ (runCommit x0 s).dl = s.dl ∧ (runCommit x0 s).ul = s.ul ∧
    (runCommit x0 s).bf = s.bf ∧ (runCommit x0 s).core = s.core ∧ (runCommit x0 s).rf = s.rf ∧
    (runCommit x0 s).bias = s.bias ∧ (runCommit x0 s).hk = s.hk ∧ (runCommit x0 s).pwr = s.pwr ∧ (runCommit x0 s).th = s.th ∧
    (runCommit x0 s).nvm = s.nvm ∧ (runCommit x0 s).cal = s.cal ∧ (runCommit x0 s).ls = s.ls ∧ (runCommit x0 s).rk = s.rk ∧
    (runCommit x0 s).test = s.test ∧ (runCommit x0 s).life = s.life ∧ (runCommit x0 s).boot = s.boot ∧
    (runCommit x0 s).fresh = s.fresh ∧ (runCommit x0 s).pending = s.pending := by
  unfold runCommit
  simp

@[simp] theorem runPassed_frame (t : Instant) (n : Nat) (s : State) :
    (runPassed t n s).sys = s.sys ∧ (runPassed t n s).em = s.em ∧ (runPassed t n s).tm = s.tm ∧
    (runPassed t n s).clk = s.clk ∧ (runPassed t n s).cfg = s.cfg ∧ (runPassed t n s).fh = s.fh ∧
    (runPassed t n s).dl = s.dl ∧ (runPassed t n s).ul = s.ul ∧ (runPassed t n s).bf = s.bf ∧
    (runPassed t n s).core = s.core ∧ (runPassed t n s).rf = s.rf ∧ (runPassed t n s).bias = s.bias ∧
    (runPassed t n s).hk = s.hk ∧ (runPassed t n s).pwr = s.pwr ∧ (runPassed t n s).th = s.th ∧
    (runPassed t n s).nvm = s.nvm ∧ (runPassed t n s).cal = s.cal ∧ (runPassed t n s).ls = s.ls ∧
    (runPassed t n s).rk = s.rk ∧ (runPassed t n s).test = s.test ∧ (runPassed t n s).life = s.life ∧
    (runPassed t n s).boot = s.boot ∧ (runPassed t n s).fresh = s.fresh ∧ (runPassed t n s).pending = s.pending := by
  induction n generalizing s <;> simp only [runPassed] <;> (repeat' split) <;> simp_all

@[simp] theorem capWrite_frame (x0 : Nat) (x1 : List Byte) (s : State) :
    (capWrite x0 x1 s).ph = s.ph ∧ (capWrite x0 x1 s).ev = s.ev ∧ (capWrite x0 x1 s).sys = s.sys ∧
    (capWrite x0 x1 s).em = s.em ∧ (capWrite x0 x1 s).tm = s.tm ∧ (capWrite x0 x1 s).clk = s.clk ∧
    (capWrite x0 x1 s).cfg = s.cfg ∧ (capWrite x0 x1 s).fh = s.fh ∧ (capWrite x0 x1 s).dl = s.dl ∧
    (capWrite x0 x1 s).ul = s.ul ∧ (capWrite x0 x1 s).bf = s.bf ∧ (capWrite x0 x1 s).core = s.core ∧
    (capWrite x0 x1 s).rf = s.rf ∧ (capWrite x0 x1 s).bias = s.bias ∧ (capWrite x0 x1 s).hk = s.hk ∧
    (capWrite x0 x1 s).pwr = s.pwr ∧ (capWrite x0 x1 s).th = s.th ∧ (capWrite x0 x1 s).nvm = s.nvm ∧
    (capWrite x0 x1 s).cal = s.cal ∧ (capWrite x0 x1 s).rk = s.rk ∧ (capWrite x0 x1 s).test = s.test ∧
    (capWrite x0 x1 s).life = s.life ∧ (capWrite x0 x1 s).boot = s.boot ∧ (capWrite x0 x1 s).stat = s.stat ∧
    (capWrite x0 x1 s).out = s.out ∧ (capWrite x0 x1 s).fresh = s.fresh ∧ (capWrite x0 x1 s).pending = s.pending := by
  unfold capWrite
  simp

@[simp] theorem adaptFault_frame (x0 : Nat) (x1 : Nat) (s : State) :
    (adaptFault x0 x1 s).sys = s.sys ∧ (adaptFault x0 x1 s).em = s.em ∧ (adaptFault x0 x1 s).tm = s.tm ∧
    (adaptFault x0 x1 s).clk = s.clk ∧ (adaptFault x0 x1 s).cfg = s.cfg ∧ (adaptFault x0 x1 s).fh = s.fh ∧
    (adaptFault x0 x1 s).dl = s.dl ∧ (adaptFault x0 x1 s).ul = s.ul ∧ (adaptFault x0 x1 s).bf = s.bf ∧
    (adaptFault x0 x1 s).core = s.core ∧ (adaptFault x0 x1 s).rf = s.rf ∧ (adaptFault x0 x1 s).bias = s.bias ∧
    (adaptFault x0 x1 s).hk = s.hk ∧ (adaptFault x0 x1 s).pwr = s.pwr ∧ (adaptFault x0 x1 s).th = s.th ∧
    (adaptFault x0 x1 s).nvm = s.nvm ∧ (adaptFault x0 x1 s).cal = s.cal ∧ (adaptFault x0 x1 s).ls = s.ls ∧
    (adaptFault x0 x1 s).rk = s.rk ∧ (adaptFault x0 x1 s).test = s.test ∧ (adaptFault x0 x1 s).life = s.life ∧
    (adaptFault x0 x1 s).boot = s.boot ∧ (adaptFault x0 x1 s).fresh = s.fresh ∧ (adaptFault x0 x1 s).pending = s.pending := by
  unfold adaptFault
  simp

@[simp] theorem missCapture_frame (x0 : Capturing) (x1 : Nat) (s : State) :
    (missCapture x0 x1 s).sys = s.sys ∧ (missCapture x0 x1 s).em = s.em ∧ (missCapture x0 x1 s).tm = s.tm ∧
    (missCapture x0 x1 s).clk = s.clk ∧ (missCapture x0 x1 s).cfg = s.cfg ∧ (missCapture x0 x1 s).fh = s.fh ∧
    (missCapture x0 x1 s).dl = s.dl ∧ (missCapture x0 x1 s).ul = s.ul ∧ (missCapture x0 x1 s).bf = s.bf ∧
    (missCapture x0 x1 s).core = s.core ∧ (missCapture x0 x1 s).rf = s.rf ∧ (missCapture x0 x1 s).bias = s.bias ∧
    (missCapture x0 x1 s).hk = s.hk ∧ (missCapture x0 x1 s).pwr = s.pwr ∧ (missCapture x0 x1 s).th = s.th ∧
    (missCapture x0 x1 s).nvm = s.nvm ∧ (missCapture x0 x1 s).cal = s.cal ∧ (missCapture x0 x1 s).rk = s.rk ∧
    (missCapture x0 x1 s).test = s.test ∧ (missCapture x0 x1 s).life = s.life ∧ (missCapture x0 x1 s).boot = s.boot ∧
    (missCapture x0 x1 s).fresh = s.fresh ∧ (missCapture x0 x1 s).pending = s.pending := by
  unfold missCapture
  repeat' (first | (simp; done) | (simp only [takeFree]) | split | (dsimp only))

@[simp] theorem releaseCaptureLeases_frame (x0 : Nat) (s : State) :
    (releaseCaptureLeases x0 s).ph = s.ph ∧ (releaseCaptureLeases x0 s).ev = s.ev ∧ (releaseCaptureLeases x0 s).sys = s.sys ∧
    (releaseCaptureLeases x0 s).em = s.em ∧ (releaseCaptureLeases x0 s).tm = s.tm ∧ (releaseCaptureLeases x0 s).clk = s.clk ∧
    (releaseCaptureLeases x0 s).cfg = s.cfg ∧ (releaseCaptureLeases x0 s).fh = s.fh ∧ (releaseCaptureLeases x0 s).dl = s.dl ∧
    (releaseCaptureLeases x0 s).ul = s.ul ∧ (releaseCaptureLeases x0 s).bf = s.bf ∧ (releaseCaptureLeases x0 s).lin = s.lin ∧
    (releaseCaptureLeases x0 s).core = s.core ∧ (releaseCaptureLeases x0 s).rf = s.rf ∧
    (releaseCaptureLeases x0 s).bias = s.bias ∧ (releaseCaptureLeases x0 s).hk = s.hk ∧
    (releaseCaptureLeases x0 s).pwr = s.pwr ∧ (releaseCaptureLeases x0 s).th = s.th ∧
    (releaseCaptureLeases x0 s).nvm = s.nvm ∧ (releaseCaptureLeases x0 s).cal = s.cal ∧
    (releaseCaptureLeases x0 s).test = s.test ∧ (releaseCaptureLeases x0 s).life = s.life ∧
    (releaseCaptureLeases x0 s).boot = s.boot ∧ (releaseCaptureLeases x0 s).stat = s.stat ∧
    (releaseCaptureLeases x0 s).out = s.out ∧ (releaseCaptureLeases x0 s).fresh = s.fresh ∧
    (releaseCaptureLeases x0 s).pending = s.pending := by
  unfold releaseCaptureLeases
  simp

@[simp] theorem selectNext_frame (x0 : Nat) (x1 : Instant) (s : State) :
    (selectNext x0 x1 s).ph = s.ph ∧ (selectNext x0 x1 s).ev = s.ev ∧ (selectNext x0 x1 s).sys = s.sys ∧
    (selectNext x0 x1 s).em = s.em ∧ (selectNext x0 x1 s).tm = s.tm ∧ (selectNext x0 x1 s).clk = s.clk ∧
    (selectNext x0 x1 s).cfg = s.cfg ∧ (selectNext x0 x1 s).fh = s.fh ∧ (selectNext x0 x1 s).dl = s.dl ∧
    (selectNext x0 x1 s).ul = s.ul ∧ (selectNext x0 x1 s).bf = s.bf ∧ (selectNext x0 x1 s).core = s.core ∧
    (selectNext x0 x1 s).rf = s.rf ∧ (selectNext x0 x1 s).bias = s.bias ∧ (selectNext x0 x1 s).hk = s.hk ∧
    (selectNext x0 x1 s).pwr = s.pwr ∧ (selectNext x0 x1 s).th = s.th ∧ (selectNext x0 x1 s).nvm = s.nvm ∧
    (selectNext x0 x1 s).cal = s.cal ∧ (selectNext x0 x1 s).ls = s.ls ∧ (selectNext x0 x1 s).rk = s.rk ∧
    (selectNext x0 x1 s).test = s.test ∧ (selectNext x0 x1 s).life = s.life ∧ (selectNext x0 x1 s).boot = s.boot ∧
    (selectNext x0 x1 s).stat = s.stat ∧ (selectNext x0 x1 s).out = s.out ∧ (selectNext x0 x1 s).fresh = s.fresh ∧
    (selectNext x0 x1 s).pending = s.pending := by
  unfold selectNext
  repeat' (first | (simp; done) | (simp only [takeFree]) | split | (dsimp only))

@[simp] theorem stopCaptures_frame (x0 : Capturing → Bool) (x1 : Nat) (s : State) :
    (stopCaptures x0 x1 s).sys = s.sys ∧ (stopCaptures x0 x1 s).em = s.em ∧ (stopCaptures x0 x1 s).tm = s.tm ∧
    (stopCaptures x0 x1 s).clk = s.clk ∧ (stopCaptures x0 x1 s).cfg = s.cfg ∧ (stopCaptures x0 x1 s).fh = s.fh ∧
    (stopCaptures x0 x1 s).dl = s.dl ∧ (stopCaptures x0 x1 s).ul = s.ul ∧ (stopCaptures x0 x1 s).bf = s.bf ∧
    (stopCaptures x0 x1 s).core = s.core ∧ (stopCaptures x0 x1 s).rf = s.rf ∧ (stopCaptures x0 x1 s).bias = s.bias ∧
    (stopCaptures x0 x1 s).hk = s.hk ∧ (stopCaptures x0 x1 s).pwr = s.pwr ∧ (stopCaptures x0 x1 s).th = s.th ∧
    (stopCaptures x0 x1 s).nvm = s.nvm ∧ (stopCaptures x0 x1 s).cal = s.cal ∧ (stopCaptures x0 x1 s).test = s.test ∧
    (stopCaptures x0 x1 s).life = s.life ∧ (stopCaptures x0 x1 s).boot = s.boot ∧ (stopCaptures x0 x1 s).fresh = s.fresh ∧
    (stopCaptures x0 x1 s).pending = s.pending := by
  unfold stopCaptures
  simp

@[simp] theorem missTile_frame (x0 : Nat) (s : State) :
    (missTile x0 s).sys = s.sys ∧ (missTile x0 s).em = s.em ∧ (missTile x0 s).tm = s.tm ∧ (missTile x0 s).clk = s.clk ∧
    (missTile x0 s).cfg = s.cfg ∧ (missTile x0 s).fh = s.fh ∧ (missTile x0 s).dl = s.dl ∧ (missTile x0 s).ul = s.ul ∧
    (missTile x0 s).bf = s.bf ∧ (missTile x0 s).core = s.core ∧ (missTile x0 s).rf = s.rf ∧ (missTile x0 s).bias = s.bias ∧
    (missTile x0 s).hk = s.hk ∧ (missTile x0 s).pwr = s.pwr ∧ (missTile x0 s).th = s.th ∧ (missTile x0 s).nvm = s.nvm ∧
    (missTile x0 s).cal = s.cal ∧ (missTile x0 s).test = s.test ∧ (missTile x0 s).life = s.life ∧
    (missTile x0 s).boot = s.boot ∧ (missTile x0 s).fresh = s.fresh ∧ (missTile x0 s).pending = s.pending := by
  unfold missTile
  simp

@[simp] theorem pauseAdaptation_frame (x0 : Bool) (s : State) :
    (pauseAdaptation x0 s).sys = s.sys ∧ (pauseAdaptation x0 s).em = s.em ∧ (pauseAdaptation x0 s).tm = s.tm ∧
    (pauseAdaptation x0 s).clk = s.clk ∧ (pauseAdaptation x0 s).cfg = s.cfg ∧ (pauseAdaptation x0 s).fh = s.fh ∧
    (pauseAdaptation x0 s).dl = s.dl ∧ (pauseAdaptation x0 s).ul = s.ul ∧ (pauseAdaptation x0 s).bf = s.bf ∧
    (pauseAdaptation x0 s).core = s.core ∧ (pauseAdaptation x0 s).rf = s.rf ∧ (pauseAdaptation x0 s).bias = s.bias ∧
    (pauseAdaptation x0 s).hk = s.hk ∧ (pauseAdaptation x0 s).pwr = s.pwr ∧ (pauseAdaptation x0 s).th = s.th ∧
    (pauseAdaptation x0 s).nvm = s.nvm ∧ (pauseAdaptation x0 s).cal = s.cal ∧ (pauseAdaptation x0 s).ls = s.ls ∧
    (pauseAdaptation x0 s).rk = s.rk ∧ (pauseAdaptation x0 s).test = s.test ∧ (pauseAdaptation x0 s).life = s.life ∧
    (pauseAdaptation x0 s).boot = s.boot ∧ (pauseAdaptation x0 s).stat = s.stat ∧ (pauseAdaptation x0 s).fresh = s.fresh ∧
    (pauseAdaptation x0 s).pending = s.pending := by
  unfold pauseAdaptation
  simp

@[simp] theorem setTarget_frame (x0 : Nat) (x1 : Bool) (s : State) :
    (setTarget x0 x1 s).ph = s.ph ∧ (setTarget x0 x1 s).ev = s.ev ∧ (setTarget x0 x1 s).sys = s.sys ∧
    (setTarget x0 x1 s).em = s.em ∧ (setTarget x0 x1 s).tm = s.tm ∧ (setTarget x0 x1 s).clk = s.clk ∧
    (setTarget x0 x1 s).cfg = s.cfg ∧ (setTarget x0 x1 s).fh = s.fh ∧ (setTarget x0 x1 s).dl = s.dl ∧
    (setTarget x0 x1 s).ul = s.ul ∧ (setTarget x0 x1 s).bf = s.bf ∧ (setTarget x0 x1 s).lin = s.lin ∧
    (setTarget x0 x1 s).core = s.core ∧ (setTarget x0 x1 s).bias = s.bias ∧ (setTarget x0 x1 s).hk = s.hk ∧
    (setTarget x0 x1 s).pwr = s.pwr ∧ (setTarget x0 x1 s).th = s.th ∧ (setTarget x0 x1 s).nvm = s.nvm ∧
    (setTarget x0 x1 s).cal = s.cal ∧ (setTarget x0 x1 s).ls = s.ls ∧ (setTarget x0 x1 s).rk = s.rk ∧
    (setTarget x0 x1 s).test = s.test ∧ (setTarget x0 x1 s).life = s.life ∧ (setTarget x0 x1 s).boot = s.boot ∧
    (setTarget x0 x1 s).stat = s.stat ∧ (setTarget x0 x1 s).out = s.out ∧ (setTarget x0 x1 s).fresh = s.fresh ∧
    (setTarget x0 x1 s).pending = s.pending := by
  unfold setTarget
  simp

@[simp] theorem fddLevels_frame (x0 : Image) (s : State) :
    (fddLevels x0 s).ph = s.ph ∧ (fddLevels x0 s).ev = s.ev ∧ (fddLevels x0 s).sys = s.sys ∧ (fddLevels x0 s).em = s.em ∧
    (fddLevels x0 s).tm = s.tm ∧ (fddLevels x0 s).clk = s.clk ∧ (fddLevels x0 s).cfg = s.cfg ∧ (fddLevels x0 s).fh = s.fh ∧
    (fddLevels x0 s).dl = s.dl ∧ (fddLevels x0 s).ul = s.ul ∧ (fddLevels x0 s).bf = s.bf ∧ (fddLevels x0 s).lin = s.lin ∧
    (fddLevels x0 s).core = s.core ∧ (fddLevels x0 s).bias = s.bias ∧ (fddLevels x0 s).hk = s.hk ∧
    (fddLevels x0 s).pwr = s.pwr ∧ (fddLevels x0 s).th = s.th ∧ (fddLevels x0 s).nvm = s.nvm ∧ (fddLevels x0 s).cal = s.cal ∧
    (fddLevels x0 s).ls = s.ls ∧ (fddLevels x0 s).rk = s.rk ∧ (fddLevels x0 s).test = s.test ∧
    (fddLevels x0 s).life = s.life ∧ (fddLevels x0 s).boot = s.boot ∧ (fddLevels x0 s).stat = s.stat ∧
    (fddLevels x0 s).out = s.out ∧ (fddLevels x0 s).fresh = s.fresh ∧ (fddLevels x0 s).pending = s.pending := by
  unfold fddLevels
  simp

@[simp] theorem patternLevel_frame (x0 : Image) (x1 : Nat) (s : State) (x3 : Nat) :
    (patternLevel x0 x1 s x3).ph = s.ph ∧ (patternLevel x0 x1 s x3).ev = s.ev ∧ (patternLevel x0 x1 s x3).sys = s.sys ∧
    (patternLevel x0 x1 s x3).em = s.em ∧ (patternLevel x0 x1 s x3).tm = s.tm ∧ (patternLevel x0 x1 s x3).clk = s.clk ∧
    (patternLevel x0 x1 s x3).cfg = s.cfg ∧ (patternLevel x0 x1 s x3).fh = s.fh ∧ (patternLevel x0 x1 s x3).dl = s.dl ∧
    (patternLevel x0 x1 s x3).ul = s.ul ∧ (patternLevel x0 x1 s x3).bf = s.bf ∧ (patternLevel x0 x1 s x3).lin = s.lin ∧
    (patternLevel x0 x1 s x3).core = s.core ∧ (patternLevel x0 x1 s x3).bias = s.bias ∧ (patternLevel x0 x1 s x3).hk = s.hk ∧
    (patternLevel x0 x1 s x3).pwr = s.pwr ∧ (patternLevel x0 x1 s x3).th = s.th ∧ (patternLevel x0 x1 s x3).nvm = s.nvm ∧
    (patternLevel x0 x1 s x3).cal = s.cal ∧ (patternLevel x0 x1 s x3).ls = s.ls ∧ (patternLevel x0 x1 s x3).rk = s.rk ∧
    (patternLevel x0 x1 s x3).test = s.test ∧ (patternLevel x0 x1 s x3).life = s.life ∧
    (patternLevel x0 x1 s x3).boot = s.boot ∧ (patternLevel x0 x1 s x3).stat = s.stat ∧
    (patternLevel x0 x1 s x3).out = s.out ∧ (patternLevel x0 x1 s x3).fresh = s.fresh ∧
    (patternLevel x0 x1 s x3).pending = s.pending := by
  unfold patternLevel
  repeat' (first | (simp; done) | (simp only [takeFree]) | split | (dsimp only))

@[simp] theorem patternLevels_frame (x0 : Image) (x1 : Nat) (s : State) :
    (patternLevels x0 x1 s).ph = s.ph ∧ (patternLevels x0 x1 s).ev = s.ev ∧ (patternLevels x0 x1 s).sys = s.sys ∧
    (patternLevels x0 x1 s).em = s.em ∧ (patternLevels x0 x1 s).tm = s.tm ∧ (patternLevels x0 x1 s).clk = s.clk ∧
    (patternLevels x0 x1 s).cfg = s.cfg ∧ (patternLevels x0 x1 s).fh = s.fh ∧ (patternLevels x0 x1 s).dl = s.dl ∧
    (patternLevels x0 x1 s).ul = s.ul ∧ (patternLevels x0 x1 s).bf = s.bf ∧ (patternLevels x0 x1 s).lin = s.lin ∧
    (patternLevels x0 x1 s).core = s.core ∧ (patternLevels x0 x1 s).bias = s.bias ∧ (patternLevels x0 x1 s).hk = s.hk ∧
    (patternLevels x0 x1 s).pwr = s.pwr ∧ (patternLevels x0 x1 s).th = s.th ∧ (patternLevels x0 x1 s).nvm = s.nvm ∧
    (patternLevels x0 x1 s).cal = s.cal ∧ (patternLevels x0 x1 s).ls = s.ls ∧ (patternLevels x0 x1 s).rk = s.rk ∧
    (patternLevels x0 x1 s).test = s.test ∧ (patternLevels x0 x1 s).life = s.life ∧ (patternLevels x0 x1 s).boot = s.boot ∧
    (patternLevels x0 x1 s).stat = s.stat ∧ (patternLevels x0 x1 s).out = s.out ∧ (patternLevels x0 x1 s).fresh = s.fresh ∧
    (patternLevels x0 x1 s).pending = s.pending := by
  unfold patternLevels
  simp

@[simp] theorem patternEntry_frame (s : State) :
    (patternEntry s).ph = s.ph ∧ (patternEntry s).ev = s.ev ∧ (patternEntry s).sys = s.sys ∧ (patternEntry s).em = s.em ∧
    (patternEntry s).tm = s.tm ∧ (patternEntry s).clk = s.clk ∧ (patternEntry s).cfg = s.cfg ∧ (patternEntry s).fh = s.fh ∧
    (patternEntry s).dl = s.dl ∧ (patternEntry s).ul = s.ul ∧ (patternEntry s).bf = s.bf ∧ (patternEntry s).lin = s.lin ∧
    (patternEntry s).core = s.core ∧ (patternEntry s).bias = s.bias ∧ (patternEntry s).hk = s.hk ∧
    (patternEntry s).pwr = s.pwr ∧ (patternEntry s).th = s.th ∧ (patternEntry s).nvm = s.nvm ∧ (patternEntry s).cal = s.cal ∧
    (patternEntry s).ls = s.ls ∧ (patternEntry s).rk = s.rk ∧ (patternEntry s).test = s.test ∧
    (patternEntry s).life = s.life ∧ (patternEntry s).boot = s.boot ∧ (patternEntry s).stat = s.stat ∧
    (patternEntry s).out = s.out ∧ (patternEntry s).fresh = s.fresh ∧ (patternEntry s).pending = s.pending := by
  unfold patternEntry
  simp

@[simp] theorem applyAtten_frame (s : State) :
    (applyAtten s).ph = s.ph ∧ (applyAtten s).ev = s.ev ∧ (applyAtten s).sys = s.sys ∧ (applyAtten s).em = s.em ∧
    (applyAtten s).tm = s.tm ∧ (applyAtten s).clk = s.clk ∧ (applyAtten s).cfg = s.cfg ∧ (applyAtten s).fh = s.fh ∧
    (applyAtten s).dl = s.dl ∧ (applyAtten s).ul = s.ul ∧ (applyAtten s).bf = s.bf ∧ (applyAtten s).lin = s.lin ∧
    (applyAtten s).core = s.core ∧ (applyAtten s).bias = s.bias ∧ (applyAtten s).hk = s.hk ∧ (applyAtten s).pwr = s.pwr ∧
    (applyAtten s).th = s.th ∧ (applyAtten s).nvm = s.nvm ∧ (applyAtten s).cal = s.cal ∧ (applyAtten s).ls = s.ls ∧
    (applyAtten s).rk = s.rk ∧ (applyAtten s).test = s.test ∧ (applyAtten s).life = s.life ∧ (applyAtten s).boot = s.boot ∧
    (applyAtten s).stat = s.stat ∧ (applyAtten s).out = s.out ∧ (applyAtten s).fresh = s.fresh ∧
    (applyAtten s).pending = s.pending := by
  unfold applyAtten
  simp

@[simp] theorem updateAtten_frame (s : State) :
    (updateAtten s).ph = s.ph ∧ (updateAtten s).ev = s.ev ∧ (updateAtten s).sys = s.sys ∧ (updateAtten s).em = s.em ∧
    (updateAtten s).tm = s.tm ∧ (updateAtten s).clk = s.clk ∧ (updateAtten s).cfg = s.cfg ∧ (updateAtten s).fh = s.fh ∧
    (updateAtten s).dl = s.dl ∧ (updateAtten s).ul = s.ul ∧ (updateAtten s).bf = s.bf ∧ (updateAtten s).lin = s.lin ∧
    (updateAtten s).core = s.core ∧ (updateAtten s).bias = s.bias ∧ (updateAtten s).hk = s.hk ∧ (updateAtten s).pwr = s.pwr ∧
    (updateAtten s).th = s.th ∧ (updateAtten s).nvm = s.nvm ∧ (updateAtten s).cal = s.cal ∧ (updateAtten s).ls = s.ls ∧
    (updateAtten s).rk = s.rk ∧ (updateAtten s).test = s.test ∧ (updateAtten s).life = s.life ∧
    (updateAtten s).boot = s.boot ∧ (updateAtten s).stat = s.stat ∧ (updateAtten s).out = s.out ∧
    (updateAtten s).fresh = s.fresh ∧ (updateAtten s).pending = s.pending := by
  unfold updateAtten
  simp

@[simp] theorem setLo_frame (x0 : Nat) (x1 : Lo) (s : State) :
    (setLo x0 x1 s).ph = s.ph ∧ (setLo x0 x1 s).ev = s.ev ∧ (setLo x0 x1 s).sys = s.sys ∧ (setLo x0 x1 s).em = s.em ∧
    (setLo x0 x1 s).tm = s.tm ∧ (setLo x0 x1 s).clk = s.clk ∧ (setLo x0 x1 s).cfg = s.cfg ∧ (setLo x0 x1 s).fh = s.fh ∧
    (setLo x0 x1 s).dl = s.dl ∧ (setLo x0 x1 s).ul = s.ul ∧ (setLo x0 x1 s).bf = s.bf ∧ (setLo x0 x1 s).lin = s.lin ∧
    (setLo x0 x1 s).core = s.core ∧ (setLo x0 x1 s).bias = s.bias ∧ (setLo x0 x1 s).hk = s.hk ∧ (setLo x0 x1 s).pwr = s.pwr ∧
    (setLo x0 x1 s).th = s.th ∧ (setLo x0 x1 s).nvm = s.nvm ∧ (setLo x0 x1 s).cal = s.cal ∧ (setLo x0 x1 s).ls = s.ls ∧
    (setLo x0 x1 s).rk = s.rk ∧ (setLo x0 x1 s).test = s.test ∧ (setLo x0 x1 s).life = s.life ∧
    (setLo x0 x1 s).boot = s.boot ∧ (setLo x0 x1 s).stat = s.stat ∧ (setLo x0 x1 s).out = s.out ∧
    (setLo x0 x1 s).fresh = s.fresh ∧ (setLo x0 x1 s).pending = s.pending := by
  unfold setLo
  simp

@[simp] theorem startLo_frame (x0 : Bool) (s : State) (x2 : Nat) :
    (startLo x0 s x2).ph = s.ph ∧ (startLo x0 s x2).ev = s.ev ∧ (startLo x0 s x2).sys = s.sys ∧ (startLo x0 s x2).em = s.em ∧
    (startLo x0 s x2).tm = s.tm ∧ (startLo x0 s x2).clk = s.clk ∧ (startLo x0 s x2).cfg = s.cfg ∧
    (startLo x0 s x2).fh = s.fh ∧ (startLo x0 s x2).dl = s.dl ∧ (startLo x0 s x2).ul = s.ul ∧ (startLo x0 s x2).bf = s.bf ∧
    (startLo x0 s x2).lin = s.lin ∧ (startLo x0 s x2).core = s.core ∧ (startLo x0 s x2).bias = s.bias ∧
    (startLo x0 s x2).hk = s.hk ∧ (startLo x0 s x2).pwr = s.pwr ∧ (startLo x0 s x2).th = s.th ∧
    (startLo x0 s x2).nvm = s.nvm ∧ (startLo x0 s x2).cal = s.cal ∧ (startLo x0 s x2).ls = s.ls ∧
    (startLo x0 s x2).rk = s.rk ∧ (startLo x0 s x2).test = s.test ∧ (startLo x0 s x2).life = s.life ∧
    (startLo x0 s x2).boot = s.boot ∧ (startLo x0 s x2).out = s.out ∧ (startLo x0 s x2).fresh = s.fresh ∧
    (startLo x0 s x2).pending = s.pending := by
  unfold startLo
  simp

@[simp] theorem loEvent_frame (x0 : Nat) (x1 : Nat) (s : State) :
    (loEvent x0 x1 s).sys = s.sys ∧ (loEvent x0 x1 s).em = s.em ∧ (loEvent x0 x1 s).tm = s.tm ∧
    (loEvent x0 x1 s).clk = s.clk ∧ (loEvent x0 x1 s).cfg = s.cfg ∧ (loEvent x0 x1 s).fh = s.fh ∧
    (loEvent x0 x1 s).dl = s.dl ∧ (loEvent x0 x1 s).ul = s.ul ∧ (loEvent x0 x1 s).bf = s.bf ∧ (loEvent x0 x1 s).lin = s.lin ∧
    (loEvent x0 x1 s).core = s.core ∧ (loEvent x0 x1 s).rf = s.rf ∧ (loEvent x0 x1 s).bias = s.bias ∧
    (loEvent x0 x1 s).hk = s.hk ∧ (loEvent x0 x1 s).pwr = s.pwr ∧ (loEvent x0 x1 s).th = s.th ∧
    (loEvent x0 x1 s).nvm = s.nvm ∧ (loEvent x0 x1 s).cal = s.cal ∧ (loEvent x0 x1 s).ls = s.ls ∧
    (loEvent x0 x1 s).rk = s.rk ∧ (loEvent x0 x1 s).test = s.test ∧ (loEvent x0 x1 s).life = s.life ∧
    (loEvent x0 x1 s).boot = s.boot ∧ (loEvent x0 x1 s).stat = s.stat ∧ (loEvent x0 x1 s).fresh = s.fresh ∧
    (loEvent x0 x1 s).pending = s.pending := by
  unfold loEvent
  simp

@[simp] theorem silenceTiles_frame (x0 : List Nat) (x1 : Bool) (s : State) :
    (silenceTiles x0 x1 s).ph = s.ph ∧ (silenceTiles x0 x1 s).ev = s.ev ∧ (silenceTiles x0 x1 s).sys = s.sys ∧
    (silenceTiles x0 x1 s).em = s.em ∧ (silenceTiles x0 x1 s).tm = s.tm ∧ (silenceTiles x0 x1 s).clk = s.clk ∧
    (silenceTiles x0 x1 s).cfg = s.cfg ∧ (silenceTiles x0 x1 s).fh = s.fh ∧ (silenceTiles x0 x1 s).ul = s.ul ∧
    (silenceTiles x0 x1 s).bf = s.bf ∧ (silenceTiles x0 x1 s).lin = s.lin ∧ (silenceTiles x0 x1 s).core = s.core ∧
    (silenceTiles x0 x1 s).rf = s.rf ∧ (silenceTiles x0 x1 s).bias = s.bias ∧ (silenceTiles x0 x1 s).hk = s.hk ∧
    (silenceTiles x0 x1 s).pwr = s.pwr ∧ (silenceTiles x0 x1 s).th = s.th ∧ (silenceTiles x0 x1 s).nvm = s.nvm ∧
    (silenceTiles x0 x1 s).cal = s.cal ∧ (silenceTiles x0 x1 s).ls = s.ls ∧ (silenceTiles x0 x1 s).rk = s.rk ∧
    (silenceTiles x0 x1 s).test = s.test ∧ (silenceTiles x0 x1 s).life = s.life ∧ (silenceTiles x0 x1 s).boot = s.boot ∧
    (silenceTiles x0 x1 s).stat = s.stat ∧ (silenceTiles x0 x1 s).out = s.out ∧ (silenceTiles x0 x1 s).fresh = s.fresh ∧
    (silenceTiles x0 x1 s).pending = s.pending := by
  unfold silenceTiles
  simp

@[simp] theorem endSilence_frame (x0 : List Nat) (x1 : Bool) (x2 : Instant) (s : State) :
    (endSilence x0 x1 x2 s).ph = s.ph ∧ (endSilence x0 x1 x2 s).ev = s.ev ∧ (endSilence x0 x1 x2 s).sys = s.sys ∧
    (endSilence x0 x1 x2 s).em = s.em ∧ (endSilence x0 x1 x2 s).tm = s.tm ∧ (endSilence x0 x1 x2 s).clk = s.clk ∧
    (endSilence x0 x1 x2 s).cfg = s.cfg ∧ (endSilence x0 x1 x2 s).fh = s.fh ∧ (endSilence x0 x1 x2 s).ul = s.ul ∧
    (endSilence x0 x1 x2 s).bf = s.bf ∧ (endSilence x0 x1 x2 s).lin = s.lin ∧ (endSilence x0 x1 x2 s).core = s.core ∧
    (endSilence x0 x1 x2 s).rf = s.rf ∧ (endSilence x0 x1 x2 s).bias = s.bias ∧ (endSilence x0 x1 x2 s).hk = s.hk ∧
    (endSilence x0 x1 x2 s).pwr = s.pwr ∧ (endSilence x0 x1 x2 s).th = s.th ∧ (endSilence x0 x1 x2 s).nvm = s.nvm ∧
    (endSilence x0 x1 x2 s).cal = s.cal ∧ (endSilence x0 x1 x2 s).ls = s.ls ∧ (endSilence x0 x1 x2 s).rk = s.rk ∧
    (endSilence x0 x1 x2 s).test = s.test ∧ (endSilence x0 x1 x2 s).life = s.life ∧ (endSilence x0 x1 x2 s).boot = s.boot ∧
    (endSilence x0 x1 x2 s).stat = s.stat ∧ (endSilence x0 x1 x2 s).out = s.out ∧ (endSilence x0 x1 x2 s).fresh = s.fresh ∧
    (endSilence x0 x1 x2 s).pending = s.pending := by
  unfold endSilence
  simp

@[simp] theorem addMark_frame (x0 : Nat) (x1 : Instant) (x2 : Nat) (x3 : Nat) (x4 : Int) (s : State) :
    (addMark x0 x1 x2 x3 x4 s).ph = s.ph ∧ (addMark x0 x1 x2 x3 x4 s).ev = s.ev ∧ (addMark x0 x1 x2 x3 x4 s).sys = s.sys ∧
    (addMark x0 x1 x2 x3 x4 s).em = s.em ∧ (addMark x0 x1 x2 x3 x4 s).tm = s.tm ∧ (addMark x0 x1 x2 x3 x4 s).clk = s.clk ∧
    (addMark x0 x1 x2 x3 x4 s).cfg = s.cfg ∧ (addMark x0 x1 x2 x3 x4 s).fh = s.fh ∧ (addMark x0 x1 x2 x3 x4 s).dl = s.dl ∧
    (addMark x0 x1 x2 x3 x4 s).bf = s.bf ∧ (addMark x0 x1 x2 x3 x4 s).lin = s.lin ∧ (addMark x0 x1 x2 x3 x4 s).core = s.core ∧
    (addMark x0 x1 x2 x3 x4 s).rf = s.rf ∧ (addMark x0 x1 x2 x3 x4 s).bias = s.bias ∧ (addMark x0 x1 x2 x3 x4 s).hk = s.hk ∧
    (addMark x0 x1 x2 x3 x4 s).pwr = s.pwr ∧ (addMark x0 x1 x2 x3 x4 s).th = s.th ∧ (addMark x0 x1 x2 x3 x4 s).nvm = s.nvm ∧
    (addMark x0 x1 x2 x3 x4 s).cal = s.cal ∧ (addMark x0 x1 x2 x3 x4 s).ls = s.ls ∧ (addMark x0 x1 x2 x3 x4 s).rk = s.rk ∧
    (addMark x0 x1 x2 x3 x4 s).test = s.test ∧ (addMark x0 x1 x2 x3 x4 s).life = s.life ∧
    (addMark x0 x1 x2 x3 x4 s).boot = s.boot ∧ (addMark x0 x1 x2 x3 x4 s).stat = s.stat ∧
    (addMark x0 x1 x2 x3 x4 s).out = s.out ∧ (addMark x0 x1 x2 x3 x4 s).fresh = s.fresh ∧
    (addMark x0 x1 x2 x3 x4 s).pending = s.pending := by
  unfold addMark
  simp

@[simp] theorem markInterval_frame (x0 : List Nat) (x1 : Instant) (x2 : Instant) (x3 : Nat) (s : State) :
    (markInterval x0 x1 x2 x3 s).ph = s.ph ∧ (markInterval x0 x1 x2 x3 s).ev = s.ev ∧
    (markInterval x0 x1 x2 x3 s).sys = s.sys ∧ (markInterval x0 x1 x2 x3 s).em = s.em ∧
    (markInterval x0 x1 x2 x3 s).tm = s.tm ∧ (markInterval x0 x1 x2 x3 s).clk = s.clk ∧
    (markInterval x0 x1 x2 x3 s).cfg = s.cfg ∧ (markInterval x0 x1 x2 x3 s).fh = s.fh ∧
    (markInterval x0 x1 x2 x3 s).dl = s.dl ∧ (markInterval x0 x1 x2 x3 s).bf = s.bf ∧
    (markInterval x0 x1 x2 x3 s).lin = s.lin ∧ (markInterval x0 x1 x2 x3 s).core = s.core ∧
    (markInterval x0 x1 x2 x3 s).rf = s.rf ∧ (markInterval x0 x1 x2 x3 s).bias = s.bias ∧
    (markInterval x0 x1 x2 x3 s).hk = s.hk ∧ (markInterval x0 x1 x2 x3 s).pwr = s.pwr ∧
    (markInterval x0 x1 x2 x3 s).th = s.th ∧ (markInterval x0 x1 x2 x3 s).nvm = s.nvm ∧
    (markInterval x0 x1 x2 x3 s).cal = s.cal ∧ (markInterval x0 x1 x2 x3 s).ls = s.ls ∧
    (markInterval x0 x1 x2 x3 s).rk = s.rk ∧ (markInterval x0 x1 x2 x3 s).test = s.test ∧
    (markInterval x0 x1 x2 x3 s).life = s.life ∧ (markInterval x0 x1 x2 x3 s).boot = s.boot ∧
    (markInterval x0 x1 x2 x3 s).stat = s.stat ∧ (markInterval x0 x1 x2 x3 s).out = s.out ∧
    (markInterval x0 x1 x2 x3 s).fresh = s.fresh ∧ (markInterval x0 x1 x2 x3 s).pending = s.pending := by
  unfold markInterval
  simp

@[simp] theorem markPins_frame (x0 : List Nat) (x1 : Instant) (x2 : Instant) (x3 : Nat) (s : State) :
    (markPins x0 x1 x2 x3 s).ph = s.ph ∧ (markPins x0 x1 x2 x3 s).ev = s.ev ∧ (markPins x0 x1 x2 x3 s).sys = s.sys ∧
    (markPins x0 x1 x2 x3 s).em = s.em ∧ (markPins x0 x1 x2 x3 s).tm = s.tm ∧ (markPins x0 x1 x2 x3 s).clk = s.clk ∧
    (markPins x0 x1 x2 x3 s).cfg = s.cfg ∧ (markPins x0 x1 x2 x3 s).fh = s.fh ∧ (markPins x0 x1 x2 x3 s).dl = s.dl ∧
    (markPins x0 x1 x2 x3 s).bf = s.bf ∧ (markPins x0 x1 x2 x3 s).lin = s.lin ∧ (markPins x0 x1 x2 x3 s).core = s.core ∧
    (markPins x0 x1 x2 x3 s).rf = s.rf ∧ (markPins x0 x1 x2 x3 s).bias = s.bias ∧ (markPins x0 x1 x2 x3 s).hk = s.hk ∧
    (markPins x0 x1 x2 x3 s).pwr = s.pwr ∧ (markPins x0 x1 x2 x3 s).th = s.th ∧ (markPins x0 x1 x2 x3 s).nvm = s.nvm ∧
    (markPins x0 x1 x2 x3 s).cal = s.cal ∧ (markPins x0 x1 x2 x3 s).ls = s.ls ∧ (markPins x0 x1 x2 x3 s).rk = s.rk ∧
    (markPins x0 x1 x2 x3 s).test = s.test ∧ (markPins x0 x1 x2 x3 s).life = s.life ∧ (markPins x0 x1 x2 x3 s).boot = s.boot ∧
    (markPins x0 x1 x2 x3 s).stat = s.stat ∧ (markPins x0 x1 x2 x3 s).out = s.out ∧ (markPins x0 x1 x2 x3 s).fresh = s.fresh ∧
    (markPins x0 x1 x2 x3 s).pending = s.pending := by
  unfold markPins
  simp

@[simp] theorem noteGain_frame (x0 : Nat) (x1 : Instant) (x2 : Nat) (s : State) :
    (noteGain x0 x1 x2 s).ph = s.ph ∧ (noteGain x0 x1 x2 s).ev = s.ev ∧ (noteGain x0 x1 x2 s).sys = s.sys ∧
    (noteGain x0 x1 x2 s).em = s.em ∧ (noteGain x0 x1 x2 s).tm = s.tm ∧ (noteGain x0 x1 x2 s).clk = s.clk ∧
    (noteGain x0 x1 x2 s).cfg = s.cfg ∧ (noteGain x0 x1 x2 s).fh = s.fh ∧ (noteGain x0 x1 x2 s).dl = s.dl ∧
    (noteGain x0 x1 x2 s).bf = s.bf ∧ (noteGain x0 x1 x2 s).lin = s.lin ∧ (noteGain x0 x1 x2 s).core = s.core ∧
    (noteGain x0 x1 x2 s).rf = s.rf ∧ (noteGain x0 x1 x2 s).bias = s.bias ∧ (noteGain x0 x1 x2 s).hk = s.hk ∧
    (noteGain x0 x1 x2 s).pwr = s.pwr ∧ (noteGain x0 x1 x2 s).th = s.th ∧ (noteGain x0 x1 x2 s).nvm = s.nvm ∧
    (noteGain x0 x1 x2 s).cal = s.cal ∧ (noteGain x0 x1 x2 s).ls = s.ls ∧ (noteGain x0 x1 x2 s).rk = s.rk ∧
    (noteGain x0 x1 x2 s).test = s.test ∧ (noteGain x0 x1 x2 s).life = s.life ∧ (noteGain x0 x1 x2 s).boot = s.boot ∧
    (noteGain x0 x1 x2 s).stat = s.stat ∧ (noteGain x0 x1 x2 s).out = s.out ∧ (noteGain x0 x1 x2 s).fresh = s.fresh ∧
    (noteGain x0 x1 x2 s).pending = s.pending := by
  unfold noteGain
  simp

@[simp] theorem reportStep_frame (x0 : Image) (x1 : Nat) (x2 : Instant) (x3 : Nat) (s : State) :
    (reportStep x0 x1 x2 x3 s).ph = s.ph ∧ (reportStep x0 x1 x2 x3 s).ev = s.ev ∧ (reportStep x0 x1 x2 x3 s).sys = s.sys ∧
    (reportStep x0 x1 x2 x3 s).em = s.em ∧ (reportStep x0 x1 x2 x3 s).tm = s.tm ∧ (reportStep x0 x1 x2 x3 s).clk = s.clk ∧
    (reportStep x0 x1 x2 x3 s).cfg = s.cfg ∧ (reportStep x0 x1 x2 x3 s).fh = s.fh ∧ (reportStep x0 x1 x2 x3 s).dl = s.dl ∧
    (reportStep x0 x1 x2 x3 s).bf = s.bf ∧ (reportStep x0 x1 x2 x3 s).lin = s.lin ∧ (reportStep x0 x1 x2 x3 s).core = s.core ∧
    (reportStep x0 x1 x2 x3 s).rf = s.rf ∧ (reportStep x0 x1 x2 x3 s).bias = s.bias ∧ (reportStep x0 x1 x2 x3 s).hk = s.hk ∧
    (reportStep x0 x1 x2 x3 s).pwr = s.pwr ∧ (reportStep x0 x1 x2 x3 s).th = s.th ∧ (reportStep x0 x1 x2 x3 s).nvm = s.nvm ∧
    (reportStep x0 x1 x2 x3 s).cal = s.cal ∧ (reportStep x0 x1 x2 x3 s).ls = s.ls ∧ (reportStep x0 x1 x2 x3 s).rk = s.rk ∧
    (reportStep x0 x1 x2 x3 s).test = s.test ∧ (reportStep x0 x1 x2 x3 s).life = s.life ∧
    (reportStep x0 x1 x2 x3 s).boot = s.boot ∧ (reportStep x0 x1 x2 x3 s).out = s.out ∧
    (reportStep x0 x1 x2 x3 s).fresh = s.fresh ∧ (reportStep x0 x1 x2 x3 s).pending = s.pending := by
  unfold reportStep
  simp

@[simp] theorem plannedStep_frame (x0 : Image) (x1 : Instant) (x2 : Nat) (x3 : Int) (s : State) :
    (plannedStep x0 x1 x2 x3 s).ph = s.ph ∧ (plannedStep x0 x1 x2 x3 s).ev = s.ev ∧ (plannedStep x0 x1 x2 x3 s).sys = s.sys ∧
    (plannedStep x0 x1 x2 x3 s).em = s.em ∧ (plannedStep x0 x1 x2 x3 s).tm = s.tm ∧ (plannedStep x0 x1 x2 x3 s).clk = s.clk ∧
    (plannedStep x0 x1 x2 x3 s).cfg = s.cfg ∧ (plannedStep x0 x1 x2 x3 s).fh = s.fh ∧ (plannedStep x0 x1 x2 x3 s).dl = s.dl ∧
    (plannedStep x0 x1 x2 x3 s).bf = s.bf ∧ (plannedStep x0 x1 x2 x3 s).lin = s.lin ∧
    (plannedStep x0 x1 x2 x3 s).core = s.core ∧ (plannedStep x0 x1 x2 x3 s).rf = s.rf ∧
    (plannedStep x0 x1 x2 x3 s).bias = s.bias ∧ (plannedStep x0 x1 x2 x3 s).hk = s.hk ∧
    (plannedStep x0 x1 x2 x3 s).pwr = s.pwr ∧ (plannedStep x0 x1 x2 x3 s).th = s.th ∧
    (plannedStep x0 x1 x2 x3 s).nvm = s.nvm ∧ (plannedStep x0 x1 x2 x3 s).cal = s.cal ∧
    (plannedStep x0 x1 x2 x3 s).ls = s.ls ∧ (plannedStep x0 x1 x2 x3 s).rk = s.rk ∧
    (plannedStep x0 x1 x2 x3 s).test = s.test ∧ (plannedStep x0 x1 x2 x3 s).life = s.life ∧
    (plannedStep x0 x1 x2 x3 s).boot = s.boot ∧ (plannedStep x0 x1 x2 x3 s).out = s.out ∧
    (plannedStep x0 x1 x2 x3 s).fresh = s.fresh ∧ (plannedStep x0 x1 x2 x3 s).pending = s.pending := by
  unfold plannedStep
  simp

@[simp] theorem gainsAtCommit_frame (x0 : Image) (x1 : Instant) (s : State) :
    (gainsAtCommit x0 x1 s).ph = s.ph ∧ (gainsAtCommit x0 x1 s).ev = s.ev ∧ (gainsAtCommit x0 x1 s).sys = s.sys ∧
    (gainsAtCommit x0 x1 s).em = s.em ∧ (gainsAtCommit x0 x1 s).tm = s.tm ∧ (gainsAtCommit x0 x1 s).clk = s.clk ∧
    (gainsAtCommit x0 x1 s).cfg = s.cfg ∧ (gainsAtCommit x0 x1 s).fh = s.fh ∧ (gainsAtCommit x0 x1 s).dl = s.dl ∧
    (gainsAtCommit x0 x1 s).bf = s.bf ∧ (gainsAtCommit x0 x1 s).lin = s.lin ∧ (gainsAtCommit x0 x1 s).core = s.core ∧
    (gainsAtCommit x0 x1 s).rf = s.rf ∧ (gainsAtCommit x0 x1 s).bias = s.bias ∧ (gainsAtCommit x0 x1 s).hk = s.hk ∧
    (gainsAtCommit x0 x1 s).pwr = s.pwr ∧ (gainsAtCommit x0 x1 s).th = s.th ∧ (gainsAtCommit x0 x1 s).nvm = s.nvm ∧
    (gainsAtCommit x0 x1 s).cal = s.cal ∧ (gainsAtCommit x0 x1 s).ls = s.ls ∧ (gainsAtCommit x0 x1 s).rk = s.rk ∧
    (gainsAtCommit x0 x1 s).test = s.test ∧ (gainsAtCommit x0 x1 s).life = s.life ∧ (gainsAtCommit x0 x1 s).boot = s.boot ∧
    (gainsAtCommit x0 x1 s).out = s.out ∧ (gainsAtCommit x0 x1 s).fresh = s.fresh ∧
    (gainsAtCommit x0 x1 s).pending = s.pending := by
  unfold gainsAtCommit
  simp

@[simp] theorem digestZeros_frame (x0 : Nat) (x1 : Int) (s : State) :
    (digestZeros x0 x1 s).ph = s.ph ∧ (digestZeros x0 x1 s).ev = s.ev ∧ (digestZeros x0 x1 s).sys = s.sys ∧
    (digestZeros x0 x1 s).em = s.em ∧ (digestZeros x0 x1 s).tm = s.tm ∧ (digestZeros x0 x1 s).clk = s.clk ∧
    (digestZeros x0 x1 s).cfg = s.cfg ∧ (digestZeros x0 x1 s).fh = s.fh ∧ (digestZeros x0 x1 s).dl = s.dl ∧
    (digestZeros x0 x1 s).ul = s.ul ∧ (digestZeros x0 x1 s).bf = s.bf ∧ (digestZeros x0 x1 s).lin = s.lin ∧
    (digestZeros x0 x1 s).core = s.core ∧ (digestZeros x0 x1 s).rf = s.rf ∧ (digestZeros x0 x1 s).bias = s.bias ∧
    (digestZeros x0 x1 s).hk = s.hk ∧ (digestZeros x0 x1 s).pwr = s.pwr ∧ (digestZeros x0 x1 s).th = s.th ∧
    (digestZeros x0 x1 s).nvm = s.nvm ∧ (digestZeros x0 x1 s).cal = s.cal ∧ (digestZeros x0 x1 s).ls = s.ls ∧
    (digestZeros x0 x1 s).test = s.test ∧ (digestZeros x0 x1 s).life = s.life ∧ (digestZeros x0 x1 s).boot = s.boot ∧
    (digestZeros x0 x1 s).stat = s.stat ∧ (digestZeros x0 x1 s).out = s.out ∧ (digestZeros x0 x1 s).fresh = s.fresh ∧
    (digestZeros x0 x1 s).pending = s.pending := by
  unfold digestZeros
  simp

@[simp] theorem digestSamples_frame (x0 : Nat) (x1 : Int) (x2 : List Word) (s : State) :
    (digestSamples x0 x1 x2 s).ph = s.ph ∧ (digestSamples x0 x1 x2 s).ev = s.ev ∧ (digestSamples x0 x1 x2 s).sys = s.sys ∧
    (digestSamples x0 x1 x2 s).em = s.em ∧ (digestSamples x0 x1 x2 s).tm = s.tm ∧ (digestSamples x0 x1 x2 s).clk = s.clk ∧
    (digestSamples x0 x1 x2 s).cfg = s.cfg ∧ (digestSamples x0 x1 x2 s).fh = s.fh ∧ (digestSamples x0 x1 x2 s).dl = s.dl ∧
    (digestSamples x0 x1 x2 s).ul = s.ul ∧ (digestSamples x0 x1 x2 s).bf = s.bf ∧ (digestSamples x0 x1 x2 s).lin = s.lin ∧
    (digestSamples x0 x1 x2 s).core = s.core ∧ (digestSamples x0 x1 x2 s).rf = s.rf ∧
    (digestSamples x0 x1 x2 s).bias = s.bias ∧ (digestSamples x0 x1 x2 s).hk = s.hk ∧ (digestSamples x0 x1 x2 s).pwr = s.pwr ∧
    (digestSamples x0 x1 x2 s).th = s.th ∧ (digestSamples x0 x1 x2 s).nvm = s.nvm ∧ (digestSamples x0 x1 x2 s).cal = s.cal ∧
    (digestSamples x0 x1 x2 s).ls = s.ls ∧ (digestSamples x0 x1 x2 s).test = s.test ∧
    (digestSamples x0 x1 x2 s).life = s.life ∧ (digestSamples x0 x1 x2 s).boot = s.boot ∧
    (digestSamples x0 x1 x2 s).stat = s.stat ∧ (digestSamples x0 x1 x2 s).out = s.out ∧
    (digestSamples x0 x1 x2 s).fresh = s.fresh ∧ (digestSamples x0 x1 x2 s).pending = s.pending := by
  unfold digestSamples
  simp

@[simp] theorem countPlayed_frame (x0 : Nat) (x1 : Int) (x2 : Played) (s : State) (x4 : Released) :
    (countPlayed x0 x1 x2 s x4).sys = s.sys ∧ (countPlayed x0 x1 x2 s x4).em = s.em ∧ (countPlayed x0 x1 x2 s x4).tm = s.tm ∧
    (countPlayed x0 x1 x2 s x4).clk = s.clk ∧ (countPlayed x0 x1 x2 s x4).cfg = s.cfg ∧
    (countPlayed x0 x1 x2 s x4).fh = s.fh ∧ (countPlayed x0 x1 x2 s x4).dl = s.dl ∧ (countPlayed x0 x1 x2 s x4).ul = s.ul ∧
    (countPlayed x0 x1 x2 s x4).bf = s.bf ∧ (countPlayed x0 x1 x2 s x4).lin = s.lin ∧
    (countPlayed x0 x1 x2 s x4).core = s.core ∧ (countPlayed x0 x1 x2 s x4).rf = s.rf ∧
    (countPlayed x0 x1 x2 s x4).bias = s.bias ∧ (countPlayed x0 x1 x2 s x4).hk = s.hk ∧
    (countPlayed x0 x1 x2 s x4).pwr = s.pwr ∧ (countPlayed x0 x1 x2 s x4).th = s.th ∧
    (countPlayed x0 x1 x2 s x4).nvm = s.nvm ∧ (countPlayed x0 x1 x2 s x4).cal = s.cal ∧
    (countPlayed x0 x1 x2 s x4).ls = s.ls ∧ (countPlayed x0 x1 x2 s x4).rk = s.rk ∧
    (countPlayed x0 x1 x2 s x4).test = s.test ∧ (countPlayed x0 x1 x2 s x4).life = s.life ∧
    (countPlayed x0 x1 x2 s x4).boot = s.boot ∧ (countPlayed x0 x1 x2 s x4).fresh = s.fresh ∧
    (countPlayed x0 x1 x2 s x4).pending = s.pending := by
  unfold countPlayed
  simp

@[simp] theorem cfrBudget_frame (x0 : Nat) (s : State) (x2 : Released) :
    (cfrBudget x0 s x2).sys = s.sys ∧ (cfrBudget x0 s x2).em = s.em ∧ (cfrBudget x0 s x2).tm = s.tm ∧
    (cfrBudget x0 s x2).clk = s.clk ∧ (cfrBudget x0 s x2).cfg = s.cfg ∧ (cfrBudget x0 s x2).fh = s.fh ∧
    (cfrBudget x0 s x2).dl = s.dl ∧ (cfrBudget x0 s x2).ul = s.ul ∧ (cfrBudget x0 s x2).bf = s.bf ∧
    (cfrBudget x0 s x2).lin = s.lin ∧ (cfrBudget x0 s x2).core = s.core ∧ (cfrBudget x0 s x2).rf = s.rf ∧
    (cfrBudget x0 s x2).bias = s.bias ∧ (cfrBudget x0 s x2).hk = s.hk ∧ (cfrBudget x0 s x2).pwr = s.pwr ∧
    (cfrBudget x0 s x2).th = s.th ∧ (cfrBudget x0 s x2).nvm = s.nvm ∧ (cfrBudget x0 s x2).cal = s.cal ∧
    (cfrBudget x0 s x2).ls = s.ls ∧ (cfrBudget x0 s x2).rk = s.rk ∧ (cfrBudget x0 s x2).test = s.test ∧
    (cfrBudget x0 s x2).life = s.life ∧ (cfrBudget x0 s x2).boot = s.boot ∧ (cfrBudget x0 s x2).fresh = s.fresh ∧
    (cfrBudget x0 s x2).pending = s.pending := by
  unfold cfrBudget
  simp

@[simp] theorem sendTicks_frame (x0 : Nat) (x1 : Playing) (x2 : Int) (x3 : Int) (s : State) :
    (sendTicks x0 x1 x2 x3 s).sys = s.sys ∧ (sendTicks x0 x1 x2 x3 s).em = s.em ∧ (sendTicks x0 x1 x2 x3 s).tm = s.tm ∧
    (sendTicks x0 x1 x2 x3 s).clk = s.clk ∧ (sendTicks x0 x1 x2 x3 s).cfg = s.cfg ∧ (sendTicks x0 x1 x2 x3 s).fh = s.fh ∧
    (sendTicks x0 x1 x2 x3 s).dl = s.dl ∧ (sendTicks x0 x1 x2 x3 s).ul = s.ul ∧ (sendTicks x0 x1 x2 x3 s).bf = s.bf ∧
    (sendTicks x0 x1 x2 x3 s).lin = s.lin ∧ (sendTicks x0 x1 x2 x3 s).core = s.core ∧ (sendTicks x0 x1 x2 x3 s).rf = s.rf ∧
    (sendTicks x0 x1 x2 x3 s).bias = s.bias ∧ (sendTicks x0 x1 x2 x3 s).hk = s.hk ∧ (sendTicks x0 x1 x2 x3 s).pwr = s.pwr ∧
    (sendTicks x0 x1 x2 x3 s).th = s.th ∧ (sendTicks x0 x1 x2 x3 s).nvm = s.nvm ∧ (sendTicks x0 x1 x2 x3 s).cal = s.cal ∧
    (sendTicks x0 x1 x2 x3 s).ls = s.ls ∧ (sendTicks x0 x1 x2 x3 s).test = s.test ∧ (sendTicks x0 x1 x2 x3 s).life = s.life ∧
    (sendTicks x0 x1 x2 x3 s).boot = s.boot ∧ (sendTicks x0 x1 x2 x3 s).fresh = s.fresh ∧
    (sendTicks x0 x1 x2 x3 s).pending = s.pending := by
  unfold sendTicks
  simp

@[simp] theorem sendUpTo_frame (x0 : Nat) (x1 : Int) (s : State) :
    (sendUpTo x0 x1 s).sys = s.sys ∧ (sendUpTo x0 x1 s).em = s.em ∧ (sendUpTo x0 x1 s).tm = s.tm ∧
    (sendUpTo x0 x1 s).clk = s.clk ∧ (sendUpTo x0 x1 s).cfg = s.cfg ∧ (sendUpTo x0 x1 s).fh = s.fh ∧
    (sendUpTo x0 x1 s).ul = s.ul ∧ (sendUpTo x0 x1 s).bf = s.bf ∧ (sendUpTo x0 x1 s).lin = s.lin ∧
    (sendUpTo x0 x1 s).core = s.core ∧ (sendUpTo x0 x1 s).rf = s.rf ∧ (sendUpTo x0 x1 s).bias = s.bias ∧
    (sendUpTo x0 x1 s).hk = s.hk ∧ (sendUpTo x0 x1 s).pwr = s.pwr ∧ (sendUpTo x0 x1 s).th = s.th ∧
    (sendUpTo x0 x1 s).nvm = s.nvm ∧ (sendUpTo x0 x1 s).cal = s.cal ∧ (sendUpTo x0 x1 s).ls = s.ls ∧
    (sendUpTo x0 x1 s).test = s.test ∧ (sendUpTo x0 x1 s).life = s.life ∧ (sendUpTo x0 x1 s).boot = s.boot ∧
    (sendUpTo x0 x1 s).fresh = s.fresh ∧ (sendUpTo x0 x1 s).pending = s.pending := by
  unfold sendUpTo
  repeat' (first | (simp; done) | (simp only [takeFree]) | split | (dsimp only))

@[simp] theorem sendUntil_frame (x0 : Instant) (s : State) :
    (sendUntil x0 s).sys = s.sys ∧ (sendUntil x0 s).em = s.em ∧ (sendUntil x0 s).tm = s.tm ∧ (sendUntil x0 s).clk = s.clk ∧
    (sendUntil x0 s).cfg = s.cfg ∧ (sendUntil x0 s).fh = s.fh ∧ (sendUntil x0 s).ul = s.ul ∧ (sendUntil x0 s).bf = s.bf ∧
    (sendUntil x0 s).lin = s.lin ∧ (sendUntil x0 s).core = s.core ∧ (sendUntil x0 s).rf = s.rf ∧
    (sendUntil x0 s).bias = s.bias ∧ (sendUntil x0 s).hk = s.hk ∧ (sendUntil x0 s).pwr = s.pwr ∧ (sendUntil x0 s).th = s.th ∧
    (sendUntil x0 s).nvm = s.nvm ∧ (sendUntil x0 s).cal = s.cal ∧ (sendUntil x0 s).ls = s.ls ∧
    (sendUntil x0 s).test = s.test ∧ (sendUntil x0 s).life = s.life ∧ (sendUntil x0 s).boot = s.boot ∧
    (sendUntil x0 s).fresh = s.fresh ∧ (sendUntil x0 s).pending = s.pending := by
  unfold sendUntil
  simp

@[simp] theorem endPlayout_frame (x0 : Instant) (s : State) :
    (endPlayout x0 s).sys = s.sys ∧ (endPlayout x0 s).em = s.em ∧ (endPlayout x0 s).tm = s.tm ∧
    (endPlayout x0 s).clk = s.clk ∧ (endPlayout x0 s).cfg = s.cfg ∧ (endPlayout x0 s).fh = s.fh ∧
    (endPlayout x0 s).ul = s.ul ∧ (endPlayout x0 s).bf = s.bf ∧ (endPlayout x0 s).core = s.core ∧
    (endPlayout x0 s).rf = s.rf ∧ (endPlayout x0 s).bias = s.bias ∧ (endPlayout x0 s).hk = s.hk ∧
    (endPlayout x0 s).pwr = s.pwr ∧ (endPlayout x0 s).th = s.th ∧ (endPlayout x0 s).nvm = s.nvm ∧
    (endPlayout x0 s).cal = s.cal ∧ (endPlayout x0 s).ls = s.ls ∧ (endPlayout x0 s).test = s.test ∧
    (endPlayout x0 s).life = s.life ∧ (endPlayout x0 s).boot = s.boot ∧ (endPlayout x0 s).fresh = s.fresh ∧
    (endPlayout x0 s).pending = s.pending := by
  unfold endPlayout
  simp

@[simp] theorem meetBank_frame (x0 : List ScrubHit) (s : State) :
    (meetBank x0 s).sys = s.sys ∧ (meetBank x0 s).em = s.em ∧ (meetBank x0 s).tm = s.tm ∧ (meetBank x0 s).clk = s.clk ∧
    (meetBank x0 s).cfg = s.cfg ∧ (meetBank x0 s).fh = s.fh ∧ (meetBank x0 s).dl = s.dl ∧ (meetBank x0 s).ul = s.ul ∧
    (meetBank x0 s).bf = s.bf ∧ (meetBank x0 s).lin = s.lin ∧ (meetBank x0 s).core = s.core ∧ (meetBank x0 s).rf = s.rf ∧
    (meetBank x0 s).bias = s.bias ∧ (meetBank x0 s).hk = s.hk ∧ (meetBank x0 s).pwr = s.pwr ∧ (meetBank x0 s).th = s.th ∧
    (meetBank x0 s).nvm = s.nvm ∧ (meetBank x0 s).cal = s.cal ∧ (meetBank x0 s).rk = s.rk ∧ (meetBank x0 s).test = s.test ∧
    (meetBank x0 s).life = s.life ∧ (meetBank x0 s).boot = s.boot ∧ (meetBank x0 s).stat = s.stat ∧
    (meetBank x0 s).pending = s.pending := by
  unfold meetBank
  simp

@[simp] theorem dpdFailures_frame (x0 : Nat) (x1 : Released) (x2 : List Nat) (s : State) :
    (dpdFailures x0 x1 x2 s).sys = s.sys ∧ (dpdFailures x0 x1 x2 s).em = s.em ∧ (dpdFailures x0 x1 x2 s).tm = s.tm ∧
    (dpdFailures x0 x1 x2 s).clk = s.clk ∧ (dpdFailures x0 x1 x2 s).cfg = s.cfg ∧ (dpdFailures x0 x1 x2 s).fh = s.fh ∧
    (dpdFailures x0 x1 x2 s).dl = s.dl ∧ (dpdFailures x0 x1 x2 s).ul = s.ul ∧ (dpdFailures x0 x1 x2 s).bf = s.bf ∧
    (dpdFailures x0 x1 x2 s).lin = s.lin ∧ (dpdFailures x0 x1 x2 s).core = s.core ∧ (dpdFailures x0 x1 x2 s).rf = s.rf ∧
    (dpdFailures x0 x1 x2 s).bias = s.bias ∧ (dpdFailures x0 x1 x2 s).hk = s.hk ∧ (dpdFailures x0 x1 x2 s).pwr = s.pwr ∧
    (dpdFailures x0 x1 x2 s).th = s.th ∧ (dpdFailures x0 x1 x2 s).nvm = s.nvm ∧ (dpdFailures x0 x1 x2 s).cal = s.cal ∧
    (dpdFailures x0 x1 x2 s).ls = s.ls ∧ (dpdFailures x0 x1 x2 s).rk = s.rk ∧ (dpdFailures x0 x1 x2 s).test = s.test ∧
    (dpdFailures x0 x1 x2 s).life = s.life ∧ (dpdFailures x0 x1 x2 s).boot = s.boot ∧
    (dpdFailures x0 x1 x2 s).fresh = s.fresh ∧ (dpdFailures x0 x1 x2 s).pending = s.pending := by
  unfold dpdFailures
  simp

@[simp] theorem startSymbol_frame (x0 : Nat) (x1 : Released) (x2 : List Nat) (x3 : List Nat) (x4 : List DpdFault) (s : State) :
    (startSymbol x0 x1 x2 x3 x4 s).sys = s.sys ∧ (startSymbol x0 x1 x2 x3 x4 s).em = s.em ∧
    (startSymbol x0 x1 x2 x3 x4 s).tm = s.tm ∧ (startSymbol x0 x1 x2 x3 x4 s).clk = s.clk ∧
    (startSymbol x0 x1 x2 x3 x4 s).cfg = s.cfg ∧ (startSymbol x0 x1 x2 x3 x4 s).fh = s.fh ∧
    (startSymbol x0 x1 x2 x3 x4 s).ul = s.ul ∧ (startSymbol x0 x1 x2 x3 x4 s).bf = s.bf ∧
    (startSymbol x0 x1 x2 x3 x4 s).lin = s.lin ∧ (startSymbol x0 x1 x2 x3 x4 s).core = s.core ∧
    (startSymbol x0 x1 x2 x3 x4 s).bias = s.bias ∧ (startSymbol x0 x1 x2 x3 x4 s).hk = s.hk ∧
    (startSymbol x0 x1 x2 x3 x4 s).pwr = s.pwr ∧ (startSymbol x0 x1 x2 x3 x4 s).th = s.th ∧
    (startSymbol x0 x1 x2 x3 x4 s).nvm = s.nvm ∧ (startSymbol x0 x1 x2 x3 x4 s).cal = s.cal ∧
    (startSymbol x0 x1 x2 x3 x4 s).test = s.test ∧ (startSymbol x0 x1 x2 x3 x4 s).life = s.life ∧
    (startSymbol x0 x1 x2 x3 x4 s).boot = s.boot ∧ (startSymbol x0 x1 x2 x3 x4 s).pending = s.pending := by
  unfold startSymbol
  simp

@[simp] theorem setPort_frame (x0 : Nat) (x1 : Port) (s : State) :
    (setPort x0 x1 s).ph = s.ph ∧ (setPort x0 x1 s).ev = s.ev ∧ (setPort x0 x1 s).sys = s.sys ∧ (setPort x0 x1 s).em = s.em ∧
    (setPort x0 x1 s).tm = s.tm ∧ (setPort x0 x1 s).clk = s.clk ∧ (setPort x0 x1 s).cfg = s.cfg ∧
    (setPort x0 x1 s).dl = s.dl ∧ (setPort x0 x1 s).ul = s.ul ∧ (setPort x0 x1 s).bf = s.bf ∧ (setPort x0 x1 s).lin = s.lin ∧
    (setPort x0 x1 s).core = s.core ∧ (setPort x0 x1 s).rf = s.rf ∧ (setPort x0 x1 s).bias = s.bias ∧
    (setPort x0 x1 s).hk = s.hk ∧ (setPort x0 x1 s).pwr = s.pwr ∧ (setPort x0 x1 s).th = s.th ∧
    (setPort x0 x1 s).nvm = s.nvm ∧ (setPort x0 x1 s).cal = s.cal ∧ (setPort x0 x1 s).ls = s.ls ∧
    (setPort x0 x1 s).rk = s.rk ∧ (setPort x0 x1 s).test = s.test ∧ (setPort x0 x1 s).life = s.life ∧
    (setPort x0 x1 s).boot = s.boot ∧ (setPort x0 x1 s).stat = s.stat ∧ (setPort x0 x1 s).out = s.out ∧
    (setPort x0 x1 s).fresh = s.fresh ∧ (setPort x0 x1 s).pending = s.pending := by
  unfold setPort
  simp

@[simp] theorem countLink_frame (x0 : Nat) (x1 : Nat) (x2 : Nat) (s : State) :
    (countLink x0 x1 x2 s).ph = s.ph ∧ (countLink x0 x1 x2 s).ev = s.ev ∧ (countLink x0 x1 x2 s).sys = s.sys ∧
    (countLink x0 x1 x2 s).em = s.em ∧ (countLink x0 x1 x2 s).tm = s.tm ∧ (countLink x0 x1 x2 s).clk = s.clk ∧
    (countLink x0 x1 x2 s).cfg = s.cfg ∧ (countLink x0 x1 x2 s).dl = s.dl ∧ (countLink x0 x1 x2 s).ul = s.ul ∧
    (countLink x0 x1 x2 s).bf = s.bf ∧ (countLink x0 x1 x2 s).lin = s.lin ∧ (countLink x0 x1 x2 s).core = s.core ∧
    (countLink x0 x1 x2 s).rf = s.rf ∧ (countLink x0 x1 x2 s).bias = s.bias ∧ (countLink x0 x1 x2 s).hk = s.hk ∧
    (countLink x0 x1 x2 s).pwr = s.pwr ∧ (countLink x0 x1 x2 s).th = s.th ∧ (countLink x0 x1 x2 s).nvm = s.nvm ∧
    (countLink x0 x1 x2 s).cal = s.cal ∧ (countLink x0 x1 x2 s).ls = s.ls ∧ (countLink x0 x1 x2 s).rk = s.rk ∧
    (countLink x0 x1 x2 s).test = s.test ∧ (countLink x0 x1 x2 s).life = s.life ∧ (countLink x0 x1 x2 s).boot = s.boot ∧
    (countLink x0 x1 x2 s).stat = s.stat ∧ (countLink x0 x1 x2 s).out = s.out ∧ (countLink x0 x1 x2 s).fresh = s.fresh ∧
    (countLink x0 x1 x2 s).pending = s.pending := by
  unfold countLink
  simp

@[simp] theorem stampSent_frame (x0 : Nat) (x1 : Instant) (x2 : StampOf) (s : State) :
    (stampSent x0 x1 x2 s).sys = s.sys ∧ (stampSent x0 x1 x2 s).em = s.em ∧ (stampSent x0 x1 x2 s).tm = s.tm ∧
    (stampSent x0 x1 x2 s).clk = s.clk ∧ (stampSent x0 x1 x2 s).cfg = s.cfg ∧ (stampSent x0 x1 x2 s).dl = s.dl ∧
    (stampSent x0 x1 x2 s).ul = s.ul ∧ (stampSent x0 x1 x2 s).bf = s.bf ∧ (stampSent x0 x1 x2 s).lin = s.lin ∧
    (stampSent x0 x1 x2 s).core = s.core ∧ (stampSent x0 x1 x2 s).rf = s.rf ∧ (stampSent x0 x1 x2 s).bias = s.bias ∧
    (stampSent x0 x1 x2 s).hk = s.hk ∧ (stampSent x0 x1 x2 s).pwr = s.pwr ∧ (stampSent x0 x1 x2 s).th = s.th ∧
    (stampSent x0 x1 x2 s).nvm = s.nvm ∧ (stampSent x0 x1 x2 s).cal = s.cal ∧ (stampSent x0 x1 x2 s).ls = s.ls ∧
    (stampSent x0 x1 x2 s).rk = s.rk ∧ (stampSent x0 x1 x2 s).test = s.test ∧ (stampSent x0 x1 x2 s).life = s.life ∧
    (stampSent x0 x1 x2 s).boot = s.boot ∧ (stampSent x0 x1 x2 s).stat = s.stat ∧
    (stampSent x0 x1 x2 s).pending = s.pending := by
  unfold stampSent takeFree
  dsimp only
  split <;> simp

@[simp] theorem readStamps_frame (x0 : Nat) (x1 : Instant) (s : State) :
    (readStamps x0 x1 s).ph = s.ph ∧ (readStamps x0 x1 s).ev = s.ev ∧ (readStamps x0 x1 s).sys = s.sys ∧
    (readStamps x0 x1 s).em = s.em ∧ (readStamps x0 x1 s).tm = s.tm ∧ (readStamps x0 x1 s).clk = s.clk ∧
    (readStamps x0 x1 s).cfg = s.cfg ∧ (readStamps x0 x1 s).dl = s.dl ∧ (readStamps x0 x1 s).ul = s.ul ∧
    (readStamps x0 x1 s).bf = s.bf ∧ (readStamps x0 x1 s).lin = s.lin ∧ (readStamps x0 x1 s).core = s.core ∧
    (readStamps x0 x1 s).rf = s.rf ∧ (readStamps x0 x1 s).bias = s.bias ∧ (readStamps x0 x1 s).hk = s.hk ∧
    (readStamps x0 x1 s).pwr = s.pwr ∧ (readStamps x0 x1 s).th = s.th ∧ (readStamps x0 x1 s).nvm = s.nvm ∧
    (readStamps x0 x1 s).cal = s.cal ∧ (readStamps x0 x1 s).ls = s.ls ∧ (readStamps x0 x1 s).rk = s.rk ∧
    (readStamps x0 x1 s).test = s.test ∧ (readStamps x0 x1 s).life = s.life ∧ (readStamps x0 x1 s).boot = s.boot ∧
    (readStamps x0 x1 s).stat = s.stat ∧ (readStamps x0 x1 s).out = s.out ∧ (readStamps x0 x1 s).fresh = s.fresh ∧
    (readStamps x0 x1 s).pending = s.pending := by
  unfold readStamps
  split
  · simp
  refine ⟨(foldl_ph _ (fun t x => by dsimp only; split <;> simp) _ _).trans (by split <;> simp),
    (foldl_ev _ (fun t x => by dsimp only; split <;> simp) _ _).trans (by split <;> simp),
    (foldl_sys _ (fun t x => by dsimp only; split <;> simp) _ _).trans (by split <;> simp),
    (foldl_em _ (fun t x => by dsimp only; split <;> simp) _ _).trans (by split <;> simp),
    (foldl_tm _ (fun t x => by dsimp only; split <;> simp) _ _).trans (by split <;> simp),
    (foldl_clk _ (fun t x => by dsimp only; split <;> simp) _ _).trans (by split <;> simp),
    (foldl_cfg _ (fun t x => by dsimp only; split <;> simp) _ _).trans (by split <;> simp),
    (foldl_dl _ (fun t x => by dsimp only; split <;> simp) _ _).trans (by split <;> simp),
    (foldl_ul _ (fun t x => by dsimp only; split <;> simp) _ _).trans (by split <;> simp),
    (foldl_bf _ (fun t x => by dsimp only; split <;> simp) _ _).trans (by split <;> simp),
    (foldl_lin _ (fun t x => by dsimp only; split <;> simp) _ _).trans (by split <;> simp),
    (foldl_core _ (fun t x => by dsimp only; split <;> simp) _ _).trans (by split <;> simp),
    (foldl_rf _ (fun t x => by dsimp only; split <;> simp) _ _).trans (by split <;> simp),
    (foldl_bias _ (fun t x => by dsimp only; split <;> simp) _ _).trans (by split <;> simp),
    (foldl_hk _ (fun t x => by dsimp only; split <;> simp) _ _).trans (by split <;> simp),
    (foldl_pwr _ (fun t x => by dsimp only; split <;> simp) _ _).trans (by split <;> simp),
    (foldl_th _ (fun t x => by dsimp only; split <;> simp) _ _).trans (by split <;> simp),
    (foldl_nvm _ (fun t x => by dsimp only; split <;> simp) _ _).trans (by split <;> simp),
    (foldl_cal _ (fun t x => by dsimp only; split <;> simp) _ _).trans (by split <;> simp),
    (foldl_ls _ (fun t x => by dsimp only; split <;> simp) _ _).trans (by split <;> simp),
    (foldl_rk _ (fun t x => by dsimp only; split <;> simp) _ _).trans (by split <;> simp),
    (foldl_test _ (fun t x => by dsimp only; split <;> simp) _ _).trans (by split <;> simp),
    (foldl_life _ (fun t x => by dsimp only; split <;> simp) _ _).trans (by split <;> simp),
    (foldl_boot _ (fun t x => by dsimp only; split <;> simp) _ _).trans (by split <;> simp),
    (foldl_stat _ (fun t x => by dsimp only; split <;> simp) _ _).trans (by split <;> simp),
    (foldl_out _ (fun t x => by dsimp only; split <;> simp) _ _).trans (by split <;> simp),
    (foldl_fresh _ (fun t x => by dsimp only; split <;> simp) _ _).trans (by split <;> simp),
    (foldl_pending _ (fun t x => by dsimp only; split <;> simp) _ _).trans (by split <;> simp)⟩

@[simp] theorem startFrame_frame (x0 : Nat) (x1 : Instant) (x2 : EgressFrame) (s : State) :
    (startFrame x0 x1 x2 s).sys = s.sys ∧ (startFrame x0 x1 x2 s).em = s.em ∧ (startFrame x0 x1 x2 s).tm = s.tm ∧
    (startFrame x0 x1 x2 s).clk = s.clk ∧ (startFrame x0 x1 x2 s).cfg = s.cfg ∧ (startFrame x0 x1 x2 s).dl = s.dl ∧
    (startFrame x0 x1 x2 s).ul = s.ul ∧ (startFrame x0 x1 x2 s).bf = s.bf ∧ (startFrame x0 x1 x2 s).lin = s.lin ∧
    (startFrame x0 x1 x2 s).core = s.core ∧ (startFrame x0 x1 x2 s).rf = s.rf ∧ (startFrame x0 x1 x2 s).bias = s.bias ∧
    (startFrame x0 x1 x2 s).hk = s.hk ∧ (startFrame x0 x1 x2 s).pwr = s.pwr ∧ (startFrame x0 x1 x2 s).th = s.th ∧
    (startFrame x0 x1 x2 s).nvm = s.nvm ∧ (startFrame x0 x1 x2 s).cal = s.cal ∧ (startFrame x0 x1 x2 s).ls = s.ls ∧
    (startFrame x0 x1 x2 s).rk = s.rk ∧ (startFrame x0 x1 x2 s).test = s.test ∧ (startFrame x0 x1 x2 s).life = s.life ∧
    (startFrame x0 x1 x2 s).boot = s.boot ∧ (startFrame x0 x1 x2 s).stat = s.stat ∧
    (startFrame x0 x1 x2 s).pending = s.pending := by
  unfold startFrame
  repeat' (first | (simp; done) | (simp only [takeFree]) | split | (dsimp only))

@[simp] theorem endFrame_frame (x0 : Nat) (x1 : Sending) (s : State) :
    (endFrame x0 x1 s).ph = s.ph ∧ (endFrame x0 x1 s).ev = s.ev ∧ (endFrame x0 x1 s).sys = s.sys ∧
    (endFrame x0 x1 s).em = s.em ∧ (endFrame x0 x1 s).tm = s.tm ∧ (endFrame x0 x1 s).clk = s.clk ∧
    (endFrame x0 x1 s).cfg = s.cfg ∧ (endFrame x0 x1 s).dl = s.dl ∧ (endFrame x0 x1 s).ul = s.ul ∧
    (endFrame x0 x1 s).bf = s.bf ∧ (endFrame x0 x1 s).lin = s.lin ∧ (endFrame x0 x1 s).core = s.core ∧
    (endFrame x0 x1 s).rf = s.rf ∧ (endFrame x0 x1 s).bias = s.bias ∧ (endFrame x0 x1 s).hk = s.hk ∧
    (endFrame x0 x1 s).pwr = s.pwr ∧ (endFrame x0 x1 s).th = s.th ∧ (endFrame x0 x1 s).nvm = s.nvm ∧
    (endFrame x0 x1 s).cal = s.cal ∧ (endFrame x0 x1 s).ls = s.ls ∧ (endFrame x0 x1 s).rk = s.rk ∧
    (endFrame x0 x1 s).test = s.test ∧ (endFrame x0 x1 s).life = s.life ∧ (endFrame x0 x1 s).boot = s.boot ∧
    (endFrame x0 x1 s).stat = s.stat ∧ (endFrame x0 x1 s).fresh = s.fresh ∧ (endFrame x0 x1 s).pending = s.pending := by
  unfold endFrame
  simp

@[simp] theorem drainFrames_frame (n k : Nat) (s : State) :
    (drainFrames n k s).sys = s.sys ∧ (drainFrames n k s).em = s.em ∧ (drainFrames n k s).tm = s.tm ∧
    (drainFrames n k s).clk = s.clk ∧ (drainFrames n k s).cfg = s.cfg ∧ (drainFrames n k s).dl = s.dl ∧
    (drainFrames n k s).ul = s.ul ∧ (drainFrames n k s).bf = s.bf ∧ (drainFrames n k s).lin = s.lin ∧
    (drainFrames n k s).core = s.core ∧ (drainFrames n k s).rf = s.rf ∧ (drainFrames n k s).bias = s.bias ∧
    (drainFrames n k s).hk = s.hk ∧ (drainFrames n k s).pwr = s.pwr ∧ (drainFrames n k s).th = s.th ∧
    (drainFrames n k s).nvm = s.nvm ∧ (drainFrames n k s).cal = s.cal ∧ (drainFrames n k s).ls = s.ls ∧
    (drainFrames n k s).rk = s.rk ∧ (drainFrames n k s).test = s.test ∧ (drainFrames n k s).life = s.life ∧
    (drainFrames n k s).boot = s.boot ∧ (drainFrames n k s).stat = s.stat ∧ (drainFrames n k s).pending = s.pending := by
  induction k generalizing s <;> simp only [drainFrames] <;> (repeat' split) <;> simp_all

@[simp] theorem drainPort_frame (x0 : Nat) (s : State) :
    (drainPort x0 s).sys = s.sys ∧ (drainPort x0 s).em = s.em ∧ (drainPort x0 s).tm = s.tm ∧ (drainPort x0 s).clk = s.clk ∧
    (drainPort x0 s).cfg = s.cfg ∧ (drainPort x0 s).dl = s.dl ∧ (drainPort x0 s).ul = s.ul ∧ (drainPort x0 s).bf = s.bf ∧
    (drainPort x0 s).lin = s.lin ∧ (drainPort x0 s).core = s.core ∧ (drainPort x0 s).rf = s.rf ∧
    (drainPort x0 s).bias = s.bias ∧ (drainPort x0 s).hk = s.hk ∧ (drainPort x0 s).pwr = s.pwr ∧ (drainPort x0 s).th = s.th ∧
    (drainPort x0 s).nvm = s.nvm ∧ (drainPort x0 s).cal = s.cal ∧ (drainPort x0 s).ls = s.ls ∧ (drainPort x0 s).rk = s.rk ∧
    (drainPort x0 s).test = s.test ∧ (drainPort x0 s).life = s.life ∧ (drainPort x0 s).boot = s.boot ∧
    (drainPort x0 s).stat = s.stat ∧ (drainPort x0 s).pending = s.pending := by
  unfold drainPort
  simp

@[simp] theorem readPorts_frame (s : State) :
    (readPorts s).sys = s.sys ∧ (readPorts s).em = s.em ∧ (readPorts s).tm = s.tm ∧ (readPorts s).clk = s.clk ∧
    (readPorts s).cfg = s.cfg ∧ (readPorts s).dl = s.dl ∧ (readPorts s).ul = s.ul ∧ (readPorts s).bf = s.bf ∧
    (readPorts s).lin = s.lin ∧ (readPorts s).core = s.core ∧ (readPorts s).rf = s.rf ∧ (readPorts s).bias = s.bias ∧
    (readPorts s).hk = s.hk ∧ (readPorts s).pwr = s.pwr ∧ (readPorts s).th = s.th ∧ (readPorts s).nvm = s.nvm ∧
    (readPorts s).cal = s.cal ∧ (readPorts s).ls = s.ls ∧ (readPorts s).rk = s.rk ∧ (readPorts s).test = s.test ∧
    (readPorts s).life = s.life ∧ (readPorts s).boot = s.boot ∧ (readPorts s).stat = s.stat ∧
    (readPorts s).pending = s.pending := by
  unfold readPorts
  simp

@[simp] theorem drainPorts_frame (s : State) :
    (drainPorts s).sys = s.sys ∧ (drainPorts s).em = s.em ∧ (drainPorts s).tm = s.tm ∧ (drainPorts s).clk = s.clk ∧
    (drainPorts s).cfg = s.cfg ∧ (drainPorts s).dl = s.dl ∧ (drainPorts s).ul = s.ul ∧ (drainPorts s).bf = s.bf ∧
    (drainPorts s).lin = s.lin ∧ (drainPorts s).core = s.core ∧ (drainPorts s).rf = s.rf ∧ (drainPorts s).bias = s.bias ∧
    (drainPorts s).hk = s.hk ∧ (drainPorts s).pwr = s.pwr ∧ (drainPorts s).th = s.th ∧ (drainPorts s).nvm = s.nvm ∧
    (drainPorts s).cal = s.cal ∧ (drainPorts s).ls = s.ls ∧ (drainPorts s).rk = s.rk ∧ (drainPorts s).test = s.test ∧
    (drainPorts s).life = s.life ∧ (drainPorts s).boot = s.boot ∧ (drainPorts s).stat = s.stat ∧
    (drainPorts s).pending = s.pending := by
  unfold drainPorts
  simp

@[simp] theorem transmit_frame (x0 : Nat) (x1 : EgressFrame) (s : State) :
    (transmit x0 x1 s).sys = s.sys ∧ (transmit x0 x1 s).em = s.em ∧ (transmit x0 x1 s).tm = s.tm ∧
    (transmit x0 x1 s).clk = s.clk ∧ (transmit x0 x1 s).cfg = s.cfg ∧ (transmit x0 x1 s).dl = s.dl ∧
    (transmit x0 x1 s).ul = s.ul ∧ (transmit x0 x1 s).bf = s.bf ∧ (transmit x0 x1 s).lin = s.lin ∧
    (transmit x0 x1 s).core = s.core ∧ (transmit x0 x1 s).rf = s.rf ∧ (transmit x0 x1 s).bias = s.bias ∧
    (transmit x0 x1 s).hk = s.hk ∧ (transmit x0 x1 s).pwr = s.pwr ∧ (transmit x0 x1 s).th = s.th ∧
    (transmit x0 x1 s).nvm = s.nvm ∧ (transmit x0 x1 s).cal = s.cal ∧ (transmit x0 x1 s).ls = s.ls ∧
    (transmit x0 x1 s).rk = s.rk ∧ (transmit x0 x1 s).test = s.test ∧ (transmit x0 x1 s).life = s.life ∧
    (transmit x0 x1 s).boot = s.boot ∧ (transmit x0 x1 s).stat = s.stat ∧ (transmit x0 x1 s).pending = s.pending := by
  unfold transmit
  simp

@[simp] theorem stopEgress_frame (x0 : Nat) (x1 : Bool) (s : State) :
    (stopEgress x0 x1 s).sys = s.sys ∧ (stopEgress x0 x1 s).em = s.em ∧ (stopEgress x0 x1 s).tm = s.tm ∧
    (stopEgress x0 x1 s).clk = s.clk ∧ (stopEgress x0 x1 s).cfg = s.cfg ∧ (stopEgress x0 x1 s).dl = s.dl ∧
    (stopEgress x0 x1 s).ul = s.ul ∧ (stopEgress x0 x1 s).bf = s.bf ∧ (stopEgress x0 x1 s).lin = s.lin ∧
    (stopEgress x0 x1 s).core = s.core ∧ (stopEgress x0 x1 s).rf = s.rf ∧ (stopEgress x0 x1 s).bias = s.bias ∧
    (stopEgress x0 x1 s).hk = s.hk ∧ (stopEgress x0 x1 s).pwr = s.pwr ∧ (stopEgress x0 x1 s).th = s.th ∧
    (stopEgress x0 x1 s).nvm = s.nvm ∧ (stopEgress x0 x1 s).cal = s.cal ∧ (stopEgress x0 x1 s).ls = s.ls ∧
    (stopEgress x0 x1 s).rk = s.rk ∧ (stopEgress x0 x1 s).test = s.test ∧ (stopEgress x0 x1 s).life = s.life ∧
    (stopEgress x0 x1 s).boot = s.boot ∧ (stopEgress x0 x1 s).stat = s.stat ∧ (stopEgress x0 x1 s).pending = s.pending := by
  unfold stopEgress
  simp

@[simp] theorem setServo_frame (x0 : Nat) (s : State) :
    (setServo x0 s).ph = s.ph ∧ (setServo x0 s).ev = s.ev ∧ (setServo x0 s).sys = s.sys ∧ (setServo x0 s).em = s.em ∧
    (setServo x0 s).clk = s.clk ∧ (setServo x0 s).cfg = s.cfg ∧ (setServo x0 s).fh = s.fh ∧ (setServo x0 s).dl = s.dl ∧
    (setServo x0 s).ul = s.ul ∧ (setServo x0 s).bf = s.bf ∧ (setServo x0 s).lin = s.lin ∧ (setServo x0 s).core = s.core ∧
    (setServo x0 s).rf = s.rf ∧ (setServo x0 s).bias = s.bias ∧ (setServo x0 s).hk = s.hk ∧ (setServo x0 s).pwr = s.pwr ∧
    (setServo x0 s).th = s.th ∧ (setServo x0 s).nvm = s.nvm ∧ (setServo x0 s).cal = s.cal ∧ (setServo x0 s).ls = s.ls ∧
    (setServo x0 s).rk = s.rk ∧ (setServo x0 s).test = s.test ∧ (setServo x0 s).life = s.life ∧
    (setServo x0 s).boot = s.boot ∧ (setServo x0 s).stat = s.stat ∧ (setServo x0 s).out = s.out ∧
    (setServo x0 s).fresh = s.fresh ∧ (setServo x0 s).pending = s.pending := by
  unfold setServo
  simp

@[simp] theorem holdoverEvent_frame (x0 : Nat) (x1 : Nat) (s : State) :
    (holdoverEvent x0 x1 s).sys = s.sys ∧ (holdoverEvent x0 x1 s).em = s.em ∧ (holdoverEvent x0 x1 s).tm = s.tm ∧
    (holdoverEvent x0 x1 s).clk = s.clk ∧ (holdoverEvent x0 x1 s).cfg = s.cfg ∧ (holdoverEvent x0 x1 s).fh = s.fh ∧
    (holdoverEvent x0 x1 s).dl = s.dl ∧ (holdoverEvent x0 x1 s).ul = s.ul ∧ (holdoverEvent x0 x1 s).bf = s.bf ∧
    (holdoverEvent x0 x1 s).lin = s.lin ∧ (holdoverEvent x0 x1 s).core = s.core ∧ (holdoverEvent x0 x1 s).rf = s.rf ∧
    (holdoverEvent x0 x1 s).bias = s.bias ∧ (holdoverEvent x0 x1 s).hk = s.hk ∧ (holdoverEvent x0 x1 s).pwr = s.pwr ∧
    (holdoverEvent x0 x1 s).th = s.th ∧ (holdoverEvent x0 x1 s).nvm = s.nvm ∧ (holdoverEvent x0 x1 s).cal = s.cal ∧
    (holdoverEvent x0 x1 s).ls = s.ls ∧ (holdoverEvent x0 x1 s).rk = s.rk ∧ (holdoverEvent x0 x1 s).test = s.test ∧
    (holdoverEvent x0 x1 s).life = s.life ∧ (holdoverEvent x0 x1 s).boot = s.boot ∧ (holdoverEvent x0 x1 s).stat = s.stat ∧
    (holdoverEvent x0 x1 s).fresh = s.fresh ∧ (holdoverEvent x0 x1 s).pending = s.pending := by
  unfold holdoverEvent
  simp

@[simp] theorem setDpllWord_frame (s : State) :
    (setDpllWord s).ph = s.ph ∧ (setDpllWord s).ev = s.ev ∧ (setDpllWord s).sys = s.sys ∧ (setDpllWord s).em = s.em ∧
    (setDpllWord s).tm = s.tm ∧ (setDpllWord s).cfg = s.cfg ∧ (setDpllWord s).fh = s.fh ∧ (setDpllWord s).dl = s.dl ∧
    (setDpllWord s).ul = s.ul ∧ (setDpllWord s).bf = s.bf ∧ (setDpllWord s).lin = s.lin ∧ (setDpllWord s).core = s.core ∧
    (setDpllWord s).rf = s.rf ∧ (setDpllWord s).bias = s.bias ∧ (setDpllWord s).hk = s.hk ∧ (setDpllWord s).pwr = s.pwr ∧
    (setDpllWord s).th = s.th ∧ (setDpllWord s).nvm = s.nvm ∧ (setDpllWord s).cal = s.cal ∧ (setDpllWord s).ls = s.ls ∧
    (setDpllWord s).rk = s.rk ∧ (setDpllWord s).test = s.test ∧ (setDpllWord s).life = s.life ∧
    (setDpllWord s).boot = s.boot ∧ (setDpllWord s).stat = s.stat ∧ (setDpllWord s).out = s.out ∧
    (setDpllWord s).fresh = s.fresh ∧ (setDpllWord s).pending = s.pending := by
  unfold setDpllWord
  simp

@[simp] theorem dpllHold_frame (s : State) :
    (dpllHold s).ph = s.ph ∧ (dpllHold s).ev = s.ev ∧ (dpllHold s).sys = s.sys ∧ (dpllHold s).em = s.em ∧
    (dpllHold s).tm = s.tm ∧ (dpllHold s).cfg = s.cfg ∧ (dpllHold s).fh = s.fh ∧ (dpllHold s).dl = s.dl ∧
    (dpllHold s).ul = s.ul ∧ (dpllHold s).bf = s.bf ∧ (dpllHold s).lin = s.lin ∧ (dpllHold s).core = s.core ∧
    (dpllHold s).rf = s.rf ∧ (dpllHold s).bias = s.bias ∧ (dpllHold s).hk = s.hk ∧ (dpllHold s).pwr = s.pwr ∧
    (dpllHold s).th = s.th ∧ (dpllHold s).nvm = s.nvm ∧ (dpllHold s).cal = s.cal ∧ (dpllHold s).ls = s.ls ∧
    (dpllHold s).rk = s.rk ∧ (dpllHold s).test = s.test ∧ (dpllHold s).life = s.life ∧ (dpllHold s).boot = s.boot ∧
    (dpllHold s).stat = s.stat ∧ (dpllHold s).out = s.out ∧ (dpllHold s).pending = s.pending := by
  unfold dpllHold
  simp

@[simp] theorem dpllFollows_frame (x0 : Nat) (s : State) :
    (dpllFollows x0 s).sys = s.sys ∧ (dpllFollows x0 s).em = s.em ∧ (dpllFollows x0 s).tm = s.tm ∧
    (dpllFollows x0 s).cfg = s.cfg ∧ (dpllFollows x0 s).fh = s.fh ∧ (dpllFollows x0 s).dl = s.dl ∧
    (dpllFollows x0 s).ul = s.ul ∧ (dpllFollows x0 s).bf = s.bf ∧ (dpllFollows x0 s).lin = s.lin ∧
    (dpllFollows x0 s).core = s.core ∧ (dpllFollows x0 s).rf = s.rf ∧ (dpllFollows x0 s).bias = s.bias ∧
    (dpllFollows x0 s).hk = s.hk ∧ (dpllFollows x0 s).pwr = s.pwr ∧ (dpllFollows x0 s).th = s.th ∧
    (dpllFollows x0 s).nvm = s.nvm ∧ (dpllFollows x0 s).cal = s.cal ∧ (dpllFollows x0 s).ls = s.ls ∧
    (dpllFollows x0 s).rk = s.rk ∧ (dpllFollows x0 s).test = s.test ∧ (dpllFollows x0 s).life = s.life ∧
    (dpllFollows x0 s).boot = s.boot ∧ (dpllFollows x0 s).stat = s.stat ∧ (dpllFollows x0 s).pending = s.pending := by
  unfold dpllFollows
  simp

@[simp] theorem servoHold_frame (x0 : Nat) (s : State) :
    (servoHold x0 s).sys = s.sys ∧ (servoHold x0 s).em = s.em ∧ (servoHold x0 s).cfg = s.cfg ∧ (servoHold x0 s).fh = s.fh ∧
    (servoHold x0 s).dl = s.dl ∧ (servoHold x0 s).ul = s.ul ∧ (servoHold x0 s).bf = s.bf ∧ (servoHold x0 s).lin = s.lin ∧
    (servoHold x0 s).core = s.core ∧ (servoHold x0 s).rf = s.rf ∧ (servoHold x0 s).bias = s.bias ∧
    (servoHold x0 s).hk = s.hk ∧ (servoHold x0 s).pwr = s.pwr ∧ (servoHold x0 s).th = s.th ∧ (servoHold x0 s).nvm = s.nvm ∧
    (servoHold x0 s).cal = s.cal ∧ (servoHold x0 s).ls = s.ls ∧ (servoHold x0 s).rk = s.rk ∧ (servoHold x0 s).test = s.test ∧
    (servoHold x0 s).life = s.life ∧ (servoHold x0 s).boot = s.boot ∧ (servoHold x0 s).stat = s.stat ∧
    (servoHold x0 s).pending = s.pending := by
  unfold servoHold
  simp

@[simp] theorem servoLost_frame (x0 : Nat) (s : State) :
    (servoLost x0 s).sys = s.sys ∧ (servoLost x0 s).em = s.em ∧ (servoLost x0 s).cfg = s.cfg ∧ (servoLost x0 s).fh = s.fh ∧
    (servoLost x0 s).dl = s.dl ∧ (servoLost x0 s).ul = s.ul ∧ (servoLost x0 s).bf = s.bf ∧ (servoLost x0 s).lin = s.lin ∧
    (servoLost x0 s).core = s.core ∧ (servoLost x0 s).rf = s.rf ∧ (servoLost x0 s).bias = s.bias ∧
    (servoLost x0 s).hk = s.hk ∧ (servoLost x0 s).pwr = s.pwr ∧ (servoLost x0 s).th = s.th ∧ (servoLost x0 s).nvm = s.nvm ∧
    (servoLost x0 s).cal = s.cal ∧ (servoLost x0 s).ls = s.ls ∧ (servoLost x0 s).rk = s.rk ∧ (servoLost x0 s).test = s.test ∧
    (servoLost x0 s).life = s.life ∧ (servoLost x0 s).boot = s.boot ∧ (servoLost x0 s).stat = s.stat ∧
    (servoLost x0 s).pending = s.pending := by
  unfold servoLost
  simp

@[simp] theorem synceLost_frame (s : State) :
    (synceLost s).sys = s.sys ∧ (synceLost s).em = s.em ∧ (synceLost s).tm = s.tm ∧ (synceLost s).cfg = s.cfg ∧
    (synceLost s).fh = s.fh ∧ (synceLost s).dl = s.dl ∧ (synceLost s).ul = s.ul ∧ (synceLost s).bf = s.bf ∧
    (synceLost s).lin = s.lin ∧ (synceLost s).core = s.core ∧ (synceLost s).rf = s.rf ∧ (synceLost s).bias = s.bias ∧
    (synceLost s).hk = s.hk ∧ (synceLost s).pwr = s.pwr ∧ (synceLost s).th = s.th ∧ (synceLost s).nvm = s.nvm ∧
    (synceLost s).cal = s.cal ∧ (synceLost s).ls = s.ls ∧ (synceLost s).rk = s.rk ∧ (synceLost s).test = s.test ∧
    (synceLost s).life = s.life ∧ (synceLost s).boot = s.boot ∧ (synceLost s).stat = s.stat ∧
    (synceLost s).pending = s.pending := by
  unfold synceLost
  simp

@[simp] theorem linkFalls_frame (x0 : Nat) (x1 : Nat) (s : State) :
    (linkFalls x0 x1 s).sys = s.sys ∧ (linkFalls x0 x1 s).em = s.em ∧ (linkFalls x0 x1 s).cfg = s.cfg ∧
    (linkFalls x0 x1 s).dl = s.dl ∧ (linkFalls x0 x1 s).ul = s.ul ∧ (linkFalls x0 x1 s).bf = s.bf ∧
    (linkFalls x0 x1 s).lin = s.lin ∧ (linkFalls x0 x1 s).core = s.core ∧ (linkFalls x0 x1 s).rf = s.rf ∧
    (linkFalls x0 x1 s).bias = s.bias ∧ (linkFalls x0 x1 s).hk = s.hk ∧ (linkFalls x0 x1 s).pwr = s.pwr ∧
    (linkFalls x0 x1 s).th = s.th ∧ (linkFalls x0 x1 s).nvm = s.nvm ∧ (linkFalls x0 x1 s).cal = s.cal ∧
    (linkFalls x0 x1 s).ls = s.ls ∧ (linkFalls x0 x1 s).rk = s.rk ∧ (linkFalls x0 x1 s).test = s.test ∧
    (linkFalls x0 x1 s).life = s.life ∧ (linkFalls x0 x1 s).boot = s.boot ∧ (linkFalls x0 x1 s).stat = s.stat ∧
    (linkFalls x0 x1 s).pending = s.pending := by
  unfold linkFalls
  simp

@[simp] theorem disarmThermal_frame (s : State) :
    (disarmThermal s).ph = s.ph ∧ (disarmThermal s).ev = s.ev ∧ (disarmThermal s).sys = s.sys ∧ (disarmThermal s).em = s.em ∧
    (disarmThermal s).tm = s.tm ∧ (disarmThermal s).clk = s.clk ∧ (disarmThermal s).cfg = s.cfg ∧
    (disarmThermal s).fh = s.fh ∧ (disarmThermal s).dl = s.dl ∧ (disarmThermal s).ul = s.ul ∧ (disarmThermal s).bf = s.bf ∧
    (disarmThermal s).lin = s.lin ∧ (disarmThermal s).core = s.core ∧ (disarmThermal s).bias = s.bias ∧
    (disarmThermal s).hk = s.hk ∧ (disarmThermal s).pwr = s.pwr ∧ (disarmThermal s).nvm = s.nvm ∧
    (disarmThermal s).cal = s.cal ∧ (disarmThermal s).ls = s.ls ∧ (disarmThermal s).rk = s.rk ∧
    (disarmThermal s).test = s.test ∧ (disarmThermal s).life = s.life ∧ (disarmThermal s).boot = s.boot ∧
    (disarmThermal s).stat = s.stat ∧ (disarmThermal s).out = s.out ∧ (disarmThermal s).fresh = s.fresh ∧
    (disarmThermal s).pending = s.pending := by
  unfold disarmThermal
  simp

@[simp] theorem darkenSensors_frame (s : State) :
    (darkenSensors s).ph = s.ph ∧ (darkenSensors s).ev = s.ev ∧ (darkenSensors s).sys = s.sys ∧ (darkenSensors s).em = s.em ∧
    (darkenSensors s).tm = s.tm ∧ (darkenSensors s).clk = s.clk ∧ (darkenSensors s).cfg = s.cfg ∧
    (darkenSensors s).fh = s.fh ∧ (darkenSensors s).dl = s.dl ∧ (darkenSensors s).ul = s.ul ∧ (darkenSensors s).bf = s.bf ∧
    (darkenSensors s).lin = s.lin ∧ (darkenSensors s).core = s.core ∧ (darkenSensors s).rf = s.rf ∧
    (darkenSensors s).bias = s.bias ∧ (darkenSensors s).hk = s.hk ∧ (darkenSensors s).pwr = s.pwr ∧
    (darkenSensors s).nvm = s.nvm ∧ (darkenSensors s).cal = s.cal ∧ (darkenSensors s).ls = s.ls ∧
    (darkenSensors s).rk = s.rk ∧ (darkenSensors s).test = s.test ∧ (darkenSensors s).life = s.life ∧
    (darkenSensors s).boot = s.boot ∧ (darkenSensors s).stat = s.stat ∧ (darkenSensors s).out = s.out ∧
    (darkenSensors s).fresh = s.fresh ∧ (darkenSensors s).pending = s.pending := by
  unfold darkenSensors
  simp

@[simp] theorem holdPads_frame (x0 : BitVec 12) (s : State) :
    (holdPads x0 s).ph = s.ph ∧ (holdPads x0 s).ev = s.ev ∧ (holdPads x0 s).sys = s.sys ∧ (holdPads x0 s).tm = s.tm ∧
    (holdPads x0 s).clk = s.clk ∧ (holdPads x0 s).cfg = s.cfg ∧ (holdPads x0 s).fh = s.fh ∧ (holdPads x0 s).dl = s.dl ∧
    (holdPads x0 s).ul = s.ul ∧ (holdPads x0 s).bf = s.bf ∧ (holdPads x0 s).lin = s.lin ∧ (holdPads x0 s).core = s.core ∧
    (holdPads x0 s).bias = s.bias ∧ (holdPads x0 s).hk = s.hk ∧ (holdPads x0 s).pwr = s.pwr ∧ (holdPads x0 s).th = s.th ∧
    (holdPads x0 s).nvm = s.nvm ∧ (holdPads x0 s).cal = s.cal ∧ (holdPads x0 s).ls = s.ls ∧ (holdPads x0 s).rk = s.rk ∧
    (holdPads x0 s).test = s.test ∧ (holdPads x0 s).life = s.life ∧ (holdPads x0 s).boot = s.boot ∧
    (holdPads x0 s).stat = s.stat ∧ (holdPads x0 s).out = s.out ∧ (holdPads x0 s).fresh = s.fresh ∧
    (holdPads x0 s).pending = s.pending := by
  unfold holdPads
  simp

@[simp] theorem portsDark_frame (s : State) :
    (portsDark s).sys = s.sys ∧ (portsDark s).em = s.em ∧ (portsDark s).cfg = s.cfg ∧ (portsDark s).dl = s.dl ∧
    (portsDark s).ul = s.ul ∧ (portsDark s).bf = s.bf ∧ (portsDark s).lin = s.lin ∧ (portsDark s).core = s.core ∧
    (portsDark s).rf = s.rf ∧ (portsDark s).bias = s.bias ∧ (portsDark s).hk = s.hk ∧ (portsDark s).pwr = s.pwr ∧
    (portsDark s).th = s.th ∧ (portsDark s).nvm = s.nvm ∧ (portsDark s).cal = s.cal ∧ (portsDark s).ls = s.ls ∧
    (portsDark s).rk = s.rk ∧ (portsDark s).test = s.test ∧ (portsDark s).life = s.life ∧ (portsDark s).boot = s.boot ∧
    (portsDark s).stat = s.stat ∧ (portsDark s).pending = s.pending := by
  unfold portsDark
  simp

@[simp] theorem tearPatch_frame (s : State) :
    (tearPatch s).sys = s.sys ∧ (tearPatch s).em = s.em ∧ (tearPatch s).tm = s.tm ∧ (tearPatch s).clk = s.clk ∧
    (tearPatch s).cfg = s.cfg ∧ (tearPatch s).fh = s.fh ∧ (tearPatch s).dl = s.dl ∧ (tearPatch s).ul = s.ul ∧
    (tearPatch s).bf = s.bf ∧ (tearPatch s).lin = s.lin ∧ (tearPatch s).core = s.core ∧ (tearPatch s).rf = s.rf ∧
    (tearPatch s).bias = s.bias ∧ (tearPatch s).hk = s.hk ∧ (tearPatch s).pwr = s.pwr ∧ (tearPatch s).th = s.th ∧
    (tearPatch s).cal = s.cal ∧ (tearPatch s).ls = s.ls ∧ (tearPatch s).rk = s.rk ∧ (tearPatch s).test = s.test ∧
    (tearPatch s).life = s.life ∧ (tearPatch s).boot = s.boot ∧ (tearPatch s).stat = s.stat ∧ (tearPatch s).fresh = s.fresh ∧
    (tearPatch s).pending = s.pending := by
  unfold tearPatch
  simp

@[simp] theorem tearWrites_frame (s : State) :
    (tearWrites s).sys = s.sys ∧ (tearWrites s).em = s.em ∧ (tearWrites s).tm = s.tm ∧ (tearWrites s).clk = s.clk ∧
    (tearWrites s).cfg = s.cfg ∧ (tearWrites s).fh = s.fh ∧ (tearWrites s).dl = s.dl ∧ (tearWrites s).ul = s.ul ∧
    (tearWrites s).bf = s.bf ∧ (tearWrites s).lin = s.lin ∧ (tearWrites s).core = s.core ∧ (tearWrites s).rf = s.rf ∧
    (tearWrites s).bias = s.bias ∧ (tearWrites s).hk = s.hk ∧ (tearWrites s).pwr = s.pwr ∧ (tearWrites s).th = s.th ∧
    (tearWrites s).cal = s.cal ∧ (tearWrites s).ls = s.ls ∧ (tearWrites s).rk = s.rk ∧ (tearWrites s).test = s.test ∧
    (tearWrites s).life = s.life ∧ (tearWrites s).boot = s.boot ∧ (tearWrites s).stat = s.stat ∧
    (tearWrites s).fresh = s.fresh ∧ (tearWrites s).pending = s.pending := by
  unfold tearWrites
  repeat' (first | (simp; done) | (simp only [takeFree]) | split | (dsimp only))

@[simp] theorem forceRelease_frame (x0 : Nat) (s : State) :
    (forceRelease x0 s).sys = s.sys ∧ (forceRelease x0 s).em = s.em ∧ (forceRelease x0 s).tm = s.tm ∧
    (forceRelease x0 s).clk = s.clk ∧ (forceRelease x0 s).cfg = s.cfg ∧ (forceRelease x0 s).fh = s.fh ∧
    (forceRelease x0 s).dl = s.dl ∧ (forceRelease x0 s).ul = s.ul ∧ (forceRelease x0 s).core = s.core ∧
    (forceRelease x0 s).bias = s.bias ∧ (forceRelease x0 s).pwr = s.pwr ∧ (forceRelease x0 s).th = s.th ∧
    (forceRelease x0 s).cal = s.cal ∧ (forceRelease x0 s).rk = s.rk ∧ (forceRelease x0 s).test = s.test ∧
    (forceRelease x0 s).life = s.life ∧ (forceRelease x0 s).boot = s.boot ∧ (forceRelease x0 s).fresh = s.fresh ∧
    (forceRelease x0 s).pending = s.pending := by
  unfold forceRelease
  repeat' (first | (simp; done) | (simp only [takeFree]) | split | (dsimp only))

@[simp] theorem freeCaptures_frame (s : State) :
    (freeCaptures s).ph = s.ph ∧ (freeCaptures s).ev = s.ev ∧ (freeCaptures s).sys = s.sys ∧ (freeCaptures s).em = s.em ∧
    (freeCaptures s).tm = s.tm ∧ (freeCaptures s).clk = s.clk ∧ (freeCaptures s).cfg = s.cfg ∧ (freeCaptures s).fh = s.fh ∧
    (freeCaptures s).dl = s.dl ∧ (freeCaptures s).ul = s.ul ∧ (freeCaptures s).bf = s.bf ∧ (freeCaptures s).lin = s.lin ∧
    (freeCaptures s).core = s.core ∧ (freeCaptures s).rf = s.rf ∧ (freeCaptures s).bias = s.bias ∧
    (freeCaptures s).hk = s.hk ∧ (freeCaptures s).pwr = s.pwr ∧ (freeCaptures s).th = s.th ∧ (freeCaptures s).nvm = s.nvm ∧
    (freeCaptures s).cal = s.cal ∧ (freeCaptures s).test = s.test ∧ (freeCaptures s).life = s.life ∧
    (freeCaptures s).boot = s.boot ∧ (freeCaptures s).stat = s.stat ∧ (freeCaptures s).out = s.out ∧
    (freeCaptures s).fresh = s.fresh ∧ (freeCaptures s).pending = s.pending := by
  unfold freeCaptures
  simp

@[simp] theorem revokeLease_frame (x0 : Nat) (x1 : Nat) (s : State) :
    (revokeLease x0 x1 s).sys = s.sys ∧ (revokeLease x0 x1 s).em = s.em ∧ (revokeLease x0 x1 s).tm = s.tm ∧
    (revokeLease x0 x1 s).clk = s.clk ∧ (revokeLease x0 x1 s).cfg = s.cfg ∧ (revokeLease x0 x1 s).fh = s.fh ∧
    (revokeLease x0 x1 s).dl = s.dl ∧ (revokeLease x0 x1 s).ul = s.ul ∧ (revokeLease x0 x1 s).core = s.core ∧
    (revokeLease x0 x1 s).bias = s.bias ∧ (revokeLease x0 x1 s).pwr = s.pwr ∧ (revokeLease x0 x1 s).th = s.th ∧
    (revokeLease x0 x1 s).cal = s.cal ∧ (revokeLease x0 x1 s).test = s.test ∧ (revokeLease x0 x1 s).life = s.life ∧
    (revokeLease x0 x1 s).boot = s.boot ∧ (revokeLease x0 x1 s).fresh = s.fresh ∧
    (revokeLease x0 x1 s).pending = s.pending := by
  unfold revokeLease
  simp

@[simp] theorem revokeHolder_frame (x0 : Nat) (x1 : Nat) (s : State) :
    (revokeHolder x0 x1 s).sys = s.sys ∧ (revokeHolder x0 x1 s).em = s.em ∧ (revokeHolder x0 x1 s).tm = s.tm ∧
    (revokeHolder x0 x1 s).clk = s.clk ∧ (revokeHolder x0 x1 s).cfg = s.cfg ∧ (revokeHolder x0 x1 s).fh = s.fh ∧
    (revokeHolder x0 x1 s).dl = s.dl ∧ (revokeHolder x0 x1 s).ul = s.ul ∧ (revokeHolder x0 x1 s).core = s.core ∧
    (revokeHolder x0 x1 s).bias = s.bias ∧ (revokeHolder x0 x1 s).pwr = s.pwr ∧ (revokeHolder x0 x1 s).th = s.th ∧
    (revokeHolder x0 x1 s).cal = s.cal ∧ (revokeHolder x0 x1 s).rk = s.rk ∧ (revokeHolder x0 x1 s).test = s.test ∧
    (revokeHolder x0 x1 s).life = s.life ∧ (revokeHolder x0 x1 s).boot = s.boot ∧ (revokeHolder x0 x1 s).fresh = s.fresh ∧
    (revokeHolder x0 x1 s).pending = s.pending := by
  unfold revokeHolder
  simp

@[simp] theorem revokeWrites_frame (x0 : Nat) (s : State) :
    (revokeWrites x0 s).sys = s.sys ∧ (revokeWrites x0 s).em = s.em ∧ (revokeWrites x0 s).tm = s.tm ∧
    (revokeWrites x0 s).clk = s.clk ∧ (revokeWrites x0 s).cfg = s.cfg ∧ (revokeWrites x0 s).fh = s.fh ∧
    (revokeWrites x0 s).dl = s.dl ∧ (revokeWrites x0 s).ul = s.ul ∧ (revokeWrites x0 s).core = s.core ∧
    (revokeWrites x0 s).bias = s.bias ∧ (revokeWrites x0 s).pwr = s.pwr ∧ (revokeWrites x0 s).th = s.th ∧
    (revokeWrites x0 s).cal = s.cal ∧ (revokeWrites x0 s).test = s.test ∧ (revokeWrites x0 s).life = s.life ∧
    (revokeWrites x0 s).boot = s.boot ∧ (revokeWrites x0 s).fresh = s.fresh ∧ (revokeWrites x0 s).pending = s.pending := by
  unfold revokeWrites
  simp

@[simp] theorem forgetErrors_frame (x0 : List Nat) (s : State) :
    (forgetErrors x0 s).ph = s.ph ∧ (forgetErrors x0 s).ev = s.ev ∧ (forgetErrors x0 s).sys = s.sys ∧
    (forgetErrors x0 s).em = s.em ∧ (forgetErrors x0 s).tm = s.tm ∧ (forgetErrors x0 s).clk = s.clk ∧
    (forgetErrors x0 s).cfg = s.cfg ∧ (forgetErrors x0 s).fh = s.fh ∧ (forgetErrors x0 s).dl = s.dl ∧
    (forgetErrors x0 s).ul = s.ul ∧ (forgetErrors x0 s).bf = s.bf ∧ (forgetErrors x0 s).lin = s.lin ∧
    (forgetErrors x0 s).core = s.core ∧ (forgetErrors x0 s).rf = s.rf ∧ (forgetErrors x0 s).bias = s.bias ∧
    (forgetErrors x0 s).hk = s.hk ∧ (forgetErrors x0 s).pwr = s.pwr ∧ (forgetErrors x0 s).th = s.th ∧
    (forgetErrors x0 s).nvm = s.nvm ∧ (forgetErrors x0 s).cal = s.cal ∧ (forgetErrors x0 s).rk = s.rk ∧
    (forgetErrors x0 s).test = s.test ∧ (forgetErrors x0 s).life = s.life ∧ (forgetErrors x0 s).boot = s.boot ∧
    (forgetErrors x0 s).stat = s.stat ∧ (forgetErrors x0 s).out = s.out ∧ (forgetErrors x0 s).fresh = s.fresh ∧
    (forgetErrors x0 s).pending = s.pending := by
  unfold forgetErrors
  simp

@[simp] theorem losePigeonholes_frame (s : State) :
    (losePigeonholes s).ev = s.ev ∧ (losePigeonholes s).sys = s.sys ∧ (losePigeonholes s).em = s.em ∧
    (losePigeonholes s).tm = s.tm ∧ (losePigeonholes s).clk = s.clk ∧ (losePigeonholes s).cfg = s.cfg ∧
    (losePigeonholes s).fh = s.fh ∧ (losePigeonholes s).dl = s.dl ∧ (losePigeonholes s).ul = s.ul ∧
    (losePigeonholes s).bf = s.bf ∧ (losePigeonholes s).lin = s.lin ∧ (losePigeonholes s).core = s.core ∧
    (losePigeonholes s).rf = s.rf ∧ (losePigeonholes s).bias = s.bias ∧ (losePigeonholes s).hk = s.hk ∧
    (losePigeonholes s).pwr = s.pwr ∧ (losePigeonholes s).th = s.th ∧ (losePigeonholes s).nvm = s.nvm ∧
    (losePigeonholes s).cal = s.cal ∧ (losePigeonholes s).ls = s.ls ∧ (losePigeonholes s).rk = s.rk ∧
    (losePigeonholes s).test = s.test ∧ (losePigeonholes s).life = s.life ∧ (losePigeonholes s).boot = s.boot ∧
    (losePigeonholes s).stat = s.stat ∧ (losePigeonholes s).out = s.out ∧ (losePigeonholes s).fresh = s.fresh ∧
    (losePigeonholes s).pending = s.pending := by
  unfold losePigeonholes
  simp

@[simp] theorem loseTiming_frame (s : State) :
    (loseTiming s).ph = s.ph ∧ (loseTiming s).ev = s.ev ∧ (loseTiming s).sys = s.sys ∧ (loseTiming s).em = s.em ∧
    (loseTiming s).cfg = s.cfg ∧ (loseTiming s).fh = s.fh ∧ (loseTiming s).dl = s.dl ∧ (loseTiming s).ul = s.ul ∧
    (loseTiming s).bf = s.bf ∧ (loseTiming s).lin = s.lin ∧ (loseTiming s).core = s.core ∧ (loseTiming s).rf = s.rf ∧
    (loseTiming s).bias = s.bias ∧ (loseTiming s).hk = s.hk ∧ (loseTiming s).pwr = s.pwr ∧ (loseTiming s).th = s.th ∧
    (loseTiming s).nvm = s.nvm ∧ (loseTiming s).cal = s.cal ∧ (loseTiming s).ls = s.ls ∧ (loseTiming s).rk = s.rk ∧
    (loseTiming s).test = s.test ∧ (loseTiming s).life = s.life ∧ (loseTiming s).boot = s.boot ∧
    (loseTiming s).stat = s.stat ∧ (loseTiming s).out = s.out ∧ (loseTiming s).fresh = s.fresh ∧
    (loseTiming s).pending = s.pending := by
  unfold loseTiming
  simp

@[simp] theorem loseContents_frame (x0 : BitVec 20) (s : State) :
    (loseContents x0 s).sys = s.sys ∧ (loseContents x0 s).em = s.em ∧ (loseContents x0 s).cfg = s.cfg ∧
    (loseContents x0 s).ul = s.ul ∧ (loseContents x0 s).bias = s.bias ∧ (loseContents x0 s).pwr = s.pwr ∧
    (loseContents x0 s).th = s.th ∧ (loseContents x0 s).cal = s.cal ∧ (loseContents x0 s).test = s.test ∧
    (loseContents x0 s).life = s.life ∧ (loseContents x0 s).boot = s.boot ∧ (loseContents x0 s).pending = s.pending := by
  unfold loseContents
  simp

@[simp] theorem loseDomains_frame (x0 : BitVec 20) (s : State) :
    (loseDomains x0 s).sys = s.sys ∧ (loseDomains x0 s).cfg = s.cfg ∧ (loseDomains x0 s).ul = s.ul ∧
    (loseDomains x0 s).bias = s.bias ∧ (loseDomains x0 s).pwr = s.pwr ∧ (loseDomains x0 s).th = s.th ∧
    (loseDomains x0 s).cal = s.cal ∧ (loseDomains x0 s).test = s.test ∧ (loseDomains x0 s).life = s.life ∧
    (loseDomains x0 s).boot = s.boot ∧ (loseDomains x0 s).pending = s.pending := by
  unfold loseDomains
  simp

@[simp] theorem powerMode_frame (s : State) :
    (powerMode s).ph = s.ph ∧ (powerMode s).ev = s.ev ∧ (powerMode s).sys = s.sys ∧ (powerMode s).tm = s.tm ∧
    (powerMode s).clk = s.clk ∧ (powerMode s).cfg = s.cfg ∧ (powerMode s).fh = s.fh ∧ (powerMode s).dl = s.dl ∧
    (powerMode s).ul = s.ul ∧ (powerMode s).bf = s.bf ∧ (powerMode s).lin = s.lin ∧ (powerMode s).core = s.core ∧
    (powerMode s).rf = s.rf ∧ (powerMode s).bias = s.bias ∧ (powerMode s).hk = s.hk ∧ (powerMode s).th = s.th ∧
    (powerMode s).nvm = s.nvm ∧ (powerMode s).cal = s.cal ∧ (powerMode s).ls = s.ls ∧ (powerMode s).rk = s.rk ∧
    (powerMode s).test = s.test ∧ (powerMode s).life = s.life ∧ (powerMode s).boot = s.boot ∧ (powerMode s).stat = s.stat ∧
    (powerMode s).out = s.out ∧ (powerMode s).fresh = s.fresh ∧ (powerMode s).pending = s.pending := by
  unfold powerMode
  simp

@[simp] theorem setDomains_frame (x0 : Mode) (s : State) :
    (setDomains x0 s).sys = s.sys ∧ (setDomains x0 s).cfg = s.cfg ∧ (setDomains x0 s).ul = s.ul ∧
    (setDomains x0 s).cal = s.cal ∧ (setDomains x0 s).test = s.test ∧ (setDomains x0 s).life = s.life ∧
    (setDomains x0 s).boot = s.boot ∧ (setDomains x0 s).pending = s.pending := by
  unfold setDomains
  simp

@[simp] theorem abortDigest_frame (s : State) :
    (abortDigest s).ph = s.ph ∧ (abortDigest s).ev = s.ev ∧ (abortDigest s).sys = s.sys ∧ (abortDigest s).em = s.em ∧
    (abortDigest s).tm = s.tm ∧ (abortDigest s).clk = s.clk ∧ (abortDigest s).cfg = s.cfg ∧ (abortDigest s).fh = s.fh ∧
    (abortDigest s).dl = s.dl ∧ (abortDigest s).ul = s.ul ∧ (abortDigest s).bf = s.bf ∧ (abortDigest s).lin = s.lin ∧
    (abortDigest s).core = s.core ∧ (abortDigest s).rf = s.rf ∧ (abortDigest s).bias = s.bias ∧ (abortDigest s).hk = s.hk ∧
    (abortDigest s).pwr = s.pwr ∧ (abortDigest s).th = s.th ∧ (abortDigest s).nvm = s.nvm ∧ (abortDigest s).cal = s.cal ∧
    (abortDigest s).ls = s.ls ∧ (abortDigest s).test = s.test ∧ (abortDigest s).life = s.life ∧
    (abortDigest s).boot = s.boot ∧ (abortDigest s).stat = s.stat ∧ (abortDigest s).out = s.out ∧
    (abortDigest s).fresh = s.fresh ∧ (abortDigest s).pending = s.pending := by
  unfold abortDigest
  simp

@[simp] theorem stopService_frame (s : State) :
    (stopService s).sys = s.sys ∧ (stopService s).em = s.em ∧ (stopService s).tm = s.tm ∧ (stopService s).clk = s.clk ∧
    (stopService s).cfg = s.cfg ∧ (stopService s).fh = s.fh ∧ (stopService s).bf = s.bf ∧ (stopService s).core = s.core ∧
    (stopService s).bias = s.bias ∧ (stopService s).hk = s.hk ∧ (stopService s).th = s.th ∧ (stopService s).nvm = s.nvm ∧
    (stopService s).cal = s.cal ∧ (stopService s).ls = s.ls ∧ (stopService s).test = s.test ∧ (stopService s).life = s.life ∧
    (stopService s).boot = s.boot ∧ (stopService s).fresh = s.fresh ∧ (stopService s).pending = s.pending := by
  unfold stopService
  simp

@[simp] theorem planService_frame (s : State) :
    (planService s).ph = s.ph ∧ (planService s).ev = s.ev ∧ (planService s).sys = s.sys ∧ (planService s).em = s.em ∧
    (planService s).tm = s.tm ∧ (planService s).clk = s.clk ∧ (planService s).cfg = s.cfg ∧ (planService s).fh = s.fh ∧
    (planService s).dl = s.dl ∧ (planService s).ul = s.ul ∧ (planService s).bf = s.bf ∧ (planService s).lin = s.lin ∧
    (planService s).core = s.core ∧ (planService s).rf = s.rf ∧ (planService s).bias = s.bias ∧ (planService s).hk = s.hk ∧
    (planService s).th = s.th ∧ (planService s).nvm = s.nvm ∧ (planService s).cal = s.cal ∧ (planService s).ls = s.ls ∧
    (planService s).rk = s.rk ∧ (planService s).test = s.test ∧ (planService s).life = s.life ∧
    (planService s).boot = s.boot ∧ (planService s).stat = s.stat ∧ (planService s).out = s.out ∧
    (planService s).fresh = s.fresh ∧ (planService s).pending = s.pending := by
  unfold planService
  simp

@[simp] theorem enterMode_frame (x0 : Mode) (x1 : Nat) (x2 : Nat) (x3 : Nat) (s : State) :
    (enterMode x0 x1 x2 x3 s).sys = s.sys ∧ (enterMode x0 x1 x2 x3 s).cfg = s.cfg ∧ (enterMode x0 x1 x2 x3 s).cal = s.cal ∧
    (enterMode x0 x1 x2 x3 s).test = s.test ∧ (enterMode x0 x1 x2 x3 s).life = s.life ∧
    (enterMode x0 x1 x2 x3 s).boot = s.boot ∧ (enterMode x0 x1 x2 x3 s).pending = s.pending := by
  unfold enterMode
  simp

@[simp] theorem testLoss_frame (s : State) :
    (testLoss s).sys = s.sys ∧ (testLoss s).em = s.em ∧ (testLoss s).cfg = s.cfg ∧ (testLoss s).ul = s.ul ∧
    (testLoss s).bias = s.bias ∧ (testLoss s).pwr = s.pwr ∧ (testLoss s).th = s.th ∧ (testLoss s).cal = s.cal ∧
    (testLoss s).test = s.test ∧ (testLoss s).life = s.life ∧ (testLoss s).boot = s.boot ∧
    (testLoss s).pending = s.pending := by
  unfold testLoss
  repeat' (first | (simp; done) | (simp only [takeFree]) | split | (dsimp only))

@[simp] theorem refuseRun_frame (x0 : Mode) (x1 : Nat) (s : State) :
    (refuseRun x0 x1 s).sys = s.sys ∧ (refuseRun x0 x1 s).em = s.em ∧ (refuseRun x0 x1 s).tm = s.tm ∧
    (refuseRun x0 x1 s).clk = s.clk ∧ (refuseRun x0 x1 s).cfg = s.cfg ∧ (refuseRun x0 x1 s).fh = s.fh ∧
    (refuseRun x0 x1 s).dl = s.dl ∧ (refuseRun x0 x1 s).ul = s.ul ∧ (refuseRun x0 x1 s).bf = s.bf ∧
    (refuseRun x0 x1 s).lin = s.lin ∧ (refuseRun x0 x1 s).core = s.core ∧ (refuseRun x0 x1 s).rf = s.rf ∧
    (refuseRun x0 x1 s).bias = s.bias ∧ (refuseRun x0 x1 s).hk = s.hk ∧ (refuseRun x0 x1 s).pwr = s.pwr ∧
    (refuseRun x0 x1 s).th = s.th ∧ (refuseRun x0 x1 s).nvm = s.nvm ∧ (refuseRun x0 x1 s).ls = s.ls ∧
    (refuseRun x0 x1 s).rk = s.rk ∧ (refuseRun x0 x1 s).life = s.life ∧ (refuseRun x0 x1 s).boot = s.boot ∧
    (refuseRun x0 x1 s).stat = s.stat ∧ (refuseRun x0 x1 s).fresh = s.fresh ∧ (refuseRun x0 x1 s).pending = s.pending := by
  unfold refuseRun
  repeat' (first | (simp; done) | (simp only [takeFree]) | split | (dsimp only))

@[simp] theorem stopCal_frame (x0 : Bool) (s : State) :
    (stopCal x0 s).sys = s.sys ∧ (stopCal x0 s).em = s.em ∧ (stopCal x0 s).tm = s.tm ∧ (stopCal x0 s).clk = s.clk ∧
    (stopCal x0 s).cfg = s.cfg ∧ (stopCal x0 s).fh = s.fh ∧ (stopCal x0 s).dl = s.dl ∧ (stopCal x0 s).ul = s.ul ∧
    (stopCal x0 s).bf = s.bf ∧ (stopCal x0 s).lin = s.lin ∧ (stopCal x0 s).core = s.core ∧ (stopCal x0 s).rf = s.rf ∧
    (stopCal x0 s).bias = s.bias ∧ (stopCal x0 s).hk = s.hk ∧ (stopCal x0 s).pwr = s.pwr ∧ (stopCal x0 s).th = s.th ∧
    (stopCal x0 s).nvm = s.nvm ∧ (stopCal x0 s).ls = s.ls ∧ (stopCal x0 s).rk = s.rk ∧ (stopCal x0 s).life = s.life ∧
    (stopCal x0 s).boot = s.boot ∧ (stopCal x0 s).stat = s.stat ∧ (stopCal x0 s).fresh = s.fresh ∧
    (stopCal x0 s).pending = s.pending := by
  unfold stopCal
  repeat' (first | (simp; done) | (simp only [takeFree]) | split | (dsimp only))

@[simp] theorem dropTransitions_frame (x0 : Nat) (x1 : List Byte) (s : State) :
    (dropTransitions x0 x1 s).sys = s.sys ∧ (dropTransitions x0 x1 s).em = s.em ∧ (dropTransitions x0 x1 s).tm = s.tm ∧
    (dropTransitions x0 x1 s).clk = s.clk ∧ (dropTransitions x0 x1 s).cfg = s.cfg ∧ (dropTransitions x0 x1 s).fh = s.fh ∧
    (dropTransitions x0 x1 s).dl = s.dl ∧ (dropTransitions x0 x1 s).ul = s.ul ∧ (dropTransitions x0 x1 s).bf = s.bf ∧
    (dropTransitions x0 x1 s).lin = s.lin ∧ (dropTransitions x0 x1 s).core = s.core ∧ (dropTransitions x0 x1 s).rf = s.rf ∧
    (dropTransitions x0 x1 s).bias = s.bias ∧ (dropTransitions x0 x1 s).hk = s.hk ∧ (dropTransitions x0 x1 s).th = s.th ∧
    (dropTransitions x0 x1 s).nvm = s.nvm ∧ (dropTransitions x0 x1 s).cal = s.cal ∧ (dropTransitions x0 x1 s).ls = s.ls ∧
    (dropTransitions x0 x1 s).rk = s.rk ∧ (dropTransitions x0 x1 s).test = s.test ∧ (dropTransitions x0 x1 s).life = s.life ∧
    (dropTransitions x0 x1 s).boot = s.boot ∧ (dropTransitions x0 x1 s).stat = s.stat ∧
    (dropTransitions x0 x1 s).fresh = s.fresh ∧ (dropTransitions x0 x1 s).pending = s.pending := by
  unfold dropTransitions
  repeat' (first | (simp; done) | (simp only [takeFree]) | split | (dsimp only))

@[simp] theorem protectEnds_frame (x0 : Nat) (s : State) :
    (protectEnds x0 s).sys = s.sys ∧ (protectEnds x0 s).em = s.em ∧ (protectEnds x0 s).th = s.th ∧
    (protectEnds x0 s).life = s.life ∧ (protectEnds x0 s).boot = s.boot ∧ (protectEnds x0 s).pending = s.pending := by
  unfold protectEnds
  simp

@[simp] theorem protectEntry_frame (x0 : Mode) (s : State) :
    (protectEntry x0 s).ph = s.ph ∧ (protectEntry x0 s).ev = s.ev ∧ (protectEntry x0 s).sys = s.sys ∧
    (protectEntry x0 s).em = s.em ∧ (protectEntry x0 s).tm = s.tm ∧ (protectEntry x0 s).clk = s.clk ∧
    (protectEntry x0 s).cfg = s.cfg ∧ (protectEntry x0 s).fh = s.fh ∧ (protectEntry x0 s).dl = s.dl ∧
    (protectEntry x0 s).ul = s.ul ∧ (protectEntry x0 s).bf = s.bf ∧ (protectEntry x0 s).lin = s.lin ∧
    (protectEntry x0 s).core = s.core ∧ (protectEntry x0 s).bias = s.bias ∧ (protectEntry x0 s).hk = s.hk ∧
    (protectEntry x0 s).th = s.th ∧ (protectEntry x0 s).nvm = s.nvm ∧ (protectEntry x0 s).cal = s.cal ∧
    (protectEntry x0 s).ls = s.ls ∧ (protectEntry x0 s).rk = s.rk ∧ (protectEntry x0 s).test = s.test ∧
    (protectEntry x0 s).life = s.life ∧ (protectEntry x0 s).boot = s.boot ∧ (protectEntry x0 s).stat = s.stat ∧
    (protectEntry x0 s).out = s.out ∧ (protectEntry x0 s).fresh = s.fresh ∧ (protectEntry x0 s).pending = s.pending := by
  unfold protectEntry
  simp

@[simp] theorem protect_frame (x0 : Nat) (x1 : Nat) (s : State) :
    (protect x0 x1 s).sys = s.sys ∧ (protect x0 x1 s).life = s.life ∧ (protect x0 x1 s).boot = s.boot ∧
    (protect x0 x1 s).pending = s.pending := by
  unfold protect
  simp

@[simp] theorem thermalLatch_frame (x0 : Nat) (x1 : Int) (s : State) :
    (thermalLatch x0 x1 s).sys = s.sys ∧ (thermalLatch x0 x1 s).em = s.em ∧ (thermalLatch x0 x1 s).life = s.life ∧
    (thermalLatch x0 x1 s).boot = s.boot ∧ (thermalLatch x0 x1 s).pending = s.pending := by
  unfold thermalLatch
  simp

@[simp] theorem writeOffset_frame (x0 : Int) (s : State) :
    (writeOffset x0 s).sys = s.sys ∧ (writeOffset x0 s).em = s.em ∧ (writeOffset x0 s).clk = s.clk ∧
    (writeOffset x0 s).fh = s.fh ∧ (writeOffset x0 s).core = s.core ∧ (writeOffset x0 s).bias = s.bias ∧
    (writeOffset x0 s).hk = s.hk ∧ (writeOffset x0 s).pwr = s.pwr ∧ (writeOffset x0 s).th = s.th ∧
    (writeOffset x0 s).nvm = s.nvm ∧ (writeOffset x0 s).cal = s.cal ∧ (writeOffset x0 s).test = s.test ∧
    (writeOffset x0 s).life = s.life ∧ (writeOffset x0 s).boot = s.boot ∧ (writeOffset x0 s).fresh = s.fresh ∧
    (writeOffset x0 s).pending = s.pending := by
  unfold writeOffset
  simp

@[simp] theorem setSensor_frame (x0 : Nat) (x1 : Sensor) (s : State) :
    (setSensor x0 x1 s).ph = s.ph ∧ (setSensor x0 x1 s).ev = s.ev ∧ (setSensor x0 x1 s).sys = s.sys ∧
    (setSensor x0 x1 s).em = s.em ∧ (setSensor x0 x1 s).tm = s.tm ∧ (setSensor x0 x1 s).clk = s.clk ∧
    (setSensor x0 x1 s).cfg = s.cfg ∧ (setSensor x0 x1 s).fh = s.fh ∧ (setSensor x0 x1 s).dl = s.dl ∧
    (setSensor x0 x1 s).ul = s.ul ∧ (setSensor x0 x1 s).bf = s.bf ∧ (setSensor x0 x1 s).lin = s.lin ∧
    (setSensor x0 x1 s).core = s.core ∧ (setSensor x0 x1 s).rf = s.rf ∧ (setSensor x0 x1 s).bias = s.bias ∧
    (setSensor x0 x1 s).hk = s.hk ∧ (setSensor x0 x1 s).pwr = s.pwr ∧ (setSensor x0 x1 s).nvm = s.nvm ∧
    (setSensor x0 x1 s).cal = s.cal ∧ (setSensor x0 x1 s).ls = s.ls ∧ (setSensor x0 x1 s).rk = s.rk ∧
    (setSensor x0 x1 s).test = s.test ∧ (setSensor x0 x1 s).life = s.life ∧ (setSensor x0 x1 s).boot = s.boot ∧
    (setSensor x0 x1 s).stat = s.stat ∧ (setSensor x0 x1 s).out = s.out ∧ (setSensor x0 x1 s).fresh = s.fresh ∧
    (setSensor x0 x1 s).pending = s.pending := by
  unfold setSensor
  simp

@[simp] theorem demandSensor_frame (x0 : Nat) (s : State) (x2 : Nat) :
    (demandSensor x0 s x2).ph = s.ph ∧ (demandSensor x0 s x2).ev = s.ev ∧ (demandSensor x0 s x2).sys = s.sys ∧
    (demandSensor x0 s x2).em = s.em ∧ (demandSensor x0 s x2).tm = s.tm ∧ (demandSensor x0 s x2).clk = s.clk ∧
    (demandSensor x0 s x2).cfg = s.cfg ∧ (demandSensor x0 s x2).fh = s.fh ∧ (demandSensor x0 s x2).dl = s.dl ∧
    (demandSensor x0 s x2).ul = s.ul ∧ (demandSensor x0 s x2).bf = s.bf ∧ (demandSensor x0 s x2).lin = s.lin ∧
    (demandSensor x0 s x2).core = s.core ∧ (demandSensor x0 s x2).rf = s.rf ∧ (demandSensor x0 s x2).bias = s.bias ∧
    (demandSensor x0 s x2).hk = s.hk ∧ (demandSensor x0 s x2).pwr = s.pwr ∧ (demandSensor x0 s x2).nvm = s.nvm ∧
    (demandSensor x0 s x2).cal = s.cal ∧ (demandSensor x0 s x2).ls = s.ls ∧ (demandSensor x0 s x2).rk = s.rk ∧
    (demandSensor x0 s x2).test = s.test ∧ (demandSensor x0 s x2).life = s.life ∧ (demandSensor x0 s x2).boot = s.boot ∧
    (demandSensor x0 s x2).stat = s.stat ∧ (demandSensor x0 s x2).out = s.out ∧ (demandSensor x0 s x2).fresh = s.fresh ∧
    (demandSensor x0 s x2).pending = s.pending := by
  unfold demandSensor
  repeat' (first | (simp; done) | (simp only [takeFree]) | split | (dsimp only))

@[simp] theorem demandMany_frame (x0 : Nat) (s : State) :
    (demandMany x0 s).ph = s.ph ∧ (demandMany x0 s).ev = s.ev ∧ (demandMany x0 s).sys = s.sys ∧ (demandMany x0 s).em = s.em ∧
    (demandMany x0 s).tm = s.tm ∧ (demandMany x0 s).clk = s.clk ∧ (demandMany x0 s).cfg = s.cfg ∧
    (demandMany x0 s).fh = s.fh ∧ (demandMany x0 s).dl = s.dl ∧ (demandMany x0 s).ul = s.ul ∧ (demandMany x0 s).bf = s.bf ∧
    (demandMany x0 s).lin = s.lin ∧ (demandMany x0 s).core = s.core ∧ (demandMany x0 s).rf = s.rf ∧
    (demandMany x0 s).bias = s.bias ∧ (demandMany x0 s).hk = s.hk ∧ (demandMany x0 s).pwr = s.pwr ∧
    (demandMany x0 s).nvm = s.nvm ∧ (demandMany x0 s).cal = s.cal ∧ (demandMany x0 s).ls = s.ls ∧
    (demandMany x0 s).rk = s.rk ∧ (demandMany x0 s).test = s.test ∧ (demandMany x0 s).life = s.life ∧
    (demandMany x0 s).boot = s.boot ∧ (demandMany x0 s).stat = s.stat ∧ (demandMany x0 s).out = s.out ∧
    (demandMany x0 s).fresh = s.fresh ∧ (demandMany x0 s).pending = s.pending := by
  unfold demandMany
  simp

@[simp] theorem judgeWarn_frame (x0 : Nat) (x1 : Int) (s : State) :
    (judgeWarn x0 x1 s).sys = s.sys ∧ (judgeWarn x0 x1 s).em = s.em ∧ (judgeWarn x0 x1 s).tm = s.tm ∧
    (judgeWarn x0 x1 s).clk = s.clk ∧ (judgeWarn x0 x1 s).cfg = s.cfg ∧ (judgeWarn x0 x1 s).fh = s.fh ∧
    (judgeWarn x0 x1 s).dl = s.dl ∧ (judgeWarn x0 x1 s).ul = s.ul ∧ (judgeWarn x0 x1 s).bf = s.bf ∧
    (judgeWarn x0 x1 s).lin = s.lin ∧ (judgeWarn x0 x1 s).core = s.core ∧ (judgeWarn x0 x1 s).rf = s.rf ∧
    (judgeWarn x0 x1 s).bias = s.bias ∧ (judgeWarn x0 x1 s).hk = s.hk ∧ (judgeWarn x0 x1 s).pwr = s.pwr ∧
    (judgeWarn x0 x1 s).nvm = s.nvm ∧ (judgeWarn x0 x1 s).cal = s.cal ∧ (judgeWarn x0 x1 s).ls = s.ls ∧
    (judgeWarn x0 x1 s).rk = s.rk ∧ (judgeWarn x0 x1 s).test = s.test ∧ (judgeWarn x0 x1 s).life = s.life ∧
    (judgeWarn x0 x1 s).boot = s.boot ∧ (judgeWarn x0 x1 s).stat = s.stat ∧ (judgeWarn x0 x1 s).fresh = s.fresh ∧
    (judgeWarn x0 x1 s).pending = s.pending := by
  unfold judgeWarn
  simp

@[simp] theorem judgeDerate_frame (x0 : Nat) (x1 : Int) (s : State) :
    (judgeDerate x0 x1 s).sys = s.sys ∧ (judgeDerate x0 x1 s).em = s.em ∧ (judgeDerate x0 x1 s).tm = s.tm ∧
    (judgeDerate x0 x1 s).clk = s.clk ∧ (judgeDerate x0 x1 s).cfg = s.cfg ∧ (judgeDerate x0 x1 s).fh = s.fh ∧
    (judgeDerate x0 x1 s).dl = s.dl ∧ (judgeDerate x0 x1 s).ul = s.ul ∧ (judgeDerate x0 x1 s).bf = s.bf ∧
    (judgeDerate x0 x1 s).lin = s.lin ∧ (judgeDerate x0 x1 s).core = s.core ∧ (judgeDerate x0 x1 s).bias = s.bias ∧
    (judgeDerate x0 x1 s).hk = s.hk ∧ (judgeDerate x0 x1 s).pwr = s.pwr ∧ (judgeDerate x0 x1 s).nvm = s.nvm ∧
    (judgeDerate x0 x1 s).cal = s.cal ∧ (judgeDerate x0 x1 s).ls = s.ls ∧ (judgeDerate x0 x1 s).rk = s.rk ∧
    (judgeDerate x0 x1 s).test = s.test ∧ (judgeDerate x0 x1 s).life = s.life ∧ (judgeDerate x0 x1 s).boot = s.boot ∧
    (judgeDerate x0 x1 s).stat = s.stat ∧ (judgeDerate x0 x1 s).fresh = s.fresh ∧
    (judgeDerate x0 x1 s).pending = s.pending := by
  unfold judgeDerate
  simp

@[simp] theorem rateTrip_frame (x0 : Nat) (x1 : Nat) (x2 : Int) (x3 : Mode) (s : State) :
    (rateTrip x0 x1 x2 x3 s).sys = s.sys ∧ (rateTrip x0 x1 x2 x3 s).life = s.life ∧ (rateTrip x0 x1 x2 x3 s).boot = s.boot ∧
    (rateTrip x0 x1 x2 x3 s).pending = s.pending := by
  unfold rateTrip
  simp

@[simp] theorem judgeRate_frame (x0 : Nat) (x1 : Int) (x2 : Nat) (s : State) :
    (judgeRate x0 x1 x2 s).sys = s.sys ∧ (judgeRate x0 x1 x2 s).life = s.life ∧ (judgeRate x0 x1 x2 s).boot = s.boot ∧
    (judgeRate x0 x1 x2 s).pending = s.pending := by
  unfold judgeRate
  simp

@[simp] theorem sensorFault_frame (x0 : Nat) (x1 : Int) (x2 : Nat) (s : State) :
    (sensorFault x0 x1 x2 s).sys = s.sys ∧ (sensorFault x0 x1 x2 s).em = s.em ∧ (sensorFault x0 x1 x2 s).tm = s.tm ∧
    (sensorFault x0 x1 x2 s).clk = s.clk ∧ (sensorFault x0 x1 x2 s).cfg = s.cfg ∧ (sensorFault x0 x1 x2 s).fh = s.fh ∧
    (sensorFault x0 x1 x2 s).dl = s.dl ∧ (sensorFault x0 x1 x2 s).ul = s.ul ∧ (sensorFault x0 x1 x2 s).bf = s.bf ∧
    (sensorFault x0 x1 x2 s).lin = s.lin ∧ (sensorFault x0 x1 x2 s).core = s.core ∧ (sensorFault x0 x1 x2 s).rf = s.rf ∧
    (sensorFault x0 x1 x2 s).bias = s.bias ∧ (sensorFault x0 x1 x2 s).hk = s.hk ∧ (sensorFault x0 x1 x2 s).pwr = s.pwr ∧
    (sensorFault x0 x1 x2 s).nvm = s.nvm ∧ (sensorFault x0 x1 x2 s).cal = s.cal ∧ (sensorFault x0 x1 x2 s).ls = s.ls ∧
    (sensorFault x0 x1 x2 s).rk = s.rk ∧ (sensorFault x0 x1 x2 s).test = s.test ∧ (sensorFault x0 x1 x2 s).life = s.life ∧
    (sensorFault x0 x1 x2 s).boot = s.boot ∧ (sensorFault x0 x1 x2 s).stat = s.stat ∧
    (sensorFault x0 x1 x2 s).fresh = s.fresh ∧ (sensorFault x0 x1 x2 s).pending = s.pending := by
  unfold sensorFault
  simp

@[simp] theorem trimReference_frame (x0 : Nat) (x1 : Int) (s : State) :
    (trimReference x0 x1 s).ph = s.ph ∧ (trimReference x0 x1 s).ev = s.ev ∧ (trimReference x0 x1 s).sys = s.sys ∧
    (trimReference x0 x1 s).em = s.em ∧ (trimReference x0 x1 s).tm = s.tm ∧ (trimReference x0 x1 s).cfg = s.cfg ∧
    (trimReference x0 x1 s).fh = s.fh ∧ (trimReference x0 x1 s).dl = s.dl ∧ (trimReference x0 x1 s).ul = s.ul ∧
    (trimReference x0 x1 s).bf = s.bf ∧ (trimReference x0 x1 s).lin = s.lin ∧ (trimReference x0 x1 s).core = s.core ∧
    (trimReference x0 x1 s).rf = s.rf ∧ (trimReference x0 x1 s).bias = s.bias ∧ (trimReference x0 x1 s).hk = s.hk ∧
    (trimReference x0 x1 s).pwr = s.pwr ∧ (trimReference x0 x1 s).th = s.th ∧ (trimReference x0 x1 s).nvm = s.nvm ∧
    (trimReference x0 x1 s).cal = s.cal ∧ (trimReference x0 x1 s).ls = s.ls ∧ (trimReference x0 x1 s).rk = s.rk ∧
    (trimReference x0 x1 s).test = s.test ∧ (trimReference x0 x1 s).life = s.life ∧ (trimReference x0 x1 s).boot = s.boot ∧
    (trimReference x0 x1 s).stat = s.stat ∧ (trimReference x0 x1 s).out = s.out ∧ (trimReference x0 x1 s).fresh = s.fresh ∧
    (trimReference x0 x1 s).pending = s.pending := by
  unfold trimReference
  simp

@[simp] theorem judge_frame (x0 : Nat) (x1 : Reading) (s : State) :
    (judge x0 x1 s).sys = s.sys ∧ (judge x0 x1 s).life = s.life ∧ (judge x0 x1 s).boot = s.boot ∧
    (judge x0 x1 s).pending = s.pending := by
  unfold judge
  simp

@[simp] theorem powerSome_frame (x0 : BitVec 20) (x1 : Trans) (s : State) :
    (powerSome x0 x1 s).ph = s.ph ∧ (powerSome x0 x1 s).ev = s.ev ∧ (powerSome x0 x1 s).sys = s.sys ∧
    (powerSome x0 x1 s).tm = s.tm ∧ (powerSome x0 x1 s).clk = s.clk ∧ (powerSome x0 x1 s).cfg = s.cfg ∧
    (powerSome x0 x1 s).fh = s.fh ∧ (powerSome x0 x1 s).dl = s.dl ∧ (powerSome x0 x1 s).ul = s.ul ∧
    (powerSome x0 x1 s).bf = s.bf ∧ (powerSome x0 x1 s).lin = s.lin ∧ (powerSome x0 x1 s).core = s.core ∧
    (powerSome x0 x1 s).rf = s.rf ∧ (powerSome x0 x1 s).bias = s.bias ∧ (powerSome x0 x1 s).hk = s.hk ∧
    (powerSome x0 x1 s).th = s.th ∧ (powerSome x0 x1 s).nvm = s.nvm ∧ (powerSome x0 x1 s).cal = s.cal ∧
    (powerSome x0 x1 s).ls = s.ls ∧ (powerSome x0 x1 s).rk = s.rk ∧ (powerSome x0 x1 s).test = s.test ∧
    (powerSome x0 x1 s).life = s.life ∧ (powerSome x0 x1 s).boot = s.boot ∧ (powerSome x0 x1 s).stat = s.stat ∧
    (powerSome x0 x1 s).out = s.out ∧ (powerSome x0 x1 s).fresh = s.fresh ∧ (powerSome x0 x1 s).pending = s.pending := by
  unfold powerSome
  simp

@[simp] theorem powerFor_frame (x0 : Trans) (s : State) :
    (powerFor x0 s).ph = s.ph ∧ (powerFor x0 s).ev = s.ev ∧ (powerFor x0 s).sys = s.sys ∧ (powerFor x0 s).tm = s.tm ∧
    (powerFor x0 s).clk = s.clk ∧ (powerFor x0 s).cfg = s.cfg ∧ (powerFor x0 s).fh = s.fh ∧ (powerFor x0 s).dl = s.dl ∧
    (powerFor x0 s).ul = s.ul ∧ (powerFor x0 s).bf = s.bf ∧ (powerFor x0 s).lin = s.lin ∧ (powerFor x0 s).core = s.core ∧
    (powerFor x0 s).bias = s.bias ∧ (powerFor x0 s).hk = s.hk ∧ (powerFor x0 s).th = s.th ∧ (powerFor x0 s).nvm = s.nvm ∧
    (powerFor x0 s).cal = s.cal ∧ (powerFor x0 s).ls = s.ls ∧ (powerFor x0 s).rk = s.rk ∧ (powerFor x0 s).test = s.test ∧
    (powerFor x0 s).life = s.life ∧ (powerFor x0 s).boot = s.boot ∧ (powerFor x0 s).out = s.out ∧
    (powerFor x0 s).fresh = s.fresh ∧ (powerFor x0 s).pending = s.pending := by
  unfold powerFor
  repeat' (first | (simp; done) | (simp only [takeFree]) | split | (dsimp only))

@[simp] theorem progress_frame (s : State) :
    (progress s).ph = s.ph ∧ (progress s).ev = s.ev ∧ (progress s).sys = s.sys ∧ (progress s).tm = s.tm ∧
    (progress s).clk = s.clk ∧ (progress s).cfg = s.cfg ∧ (progress s).fh = s.fh ∧ (progress s).dl = s.dl ∧
    (progress s).ul = s.ul ∧ (progress s).bf = s.bf ∧ (progress s).lin = s.lin ∧ (progress s).core = s.core ∧
    (progress s).bias = s.bias ∧ (progress s).hk = s.hk ∧ (progress s).th = s.th ∧ (progress s).nvm = s.nvm ∧
    (progress s).cal = s.cal ∧ (progress s).ls = s.ls ∧ (progress s).rk = s.rk ∧ (progress s).test = s.test ∧
    (progress s).life = s.life ∧ (progress s).boot = s.boot ∧ (progress s).out = s.out ∧ (progress s).fresh = s.fresh ∧
    (progress s).pending = s.pending := by
  unfold progress
  repeat' (first | (simp; done) | (simp only [takeFree]) | split | (dsimp only))

@[simp] theorem startTrans_frame (x0 : Mode) (x1 : Nat) (x2 : Nat) (x3 : PwrReq) (s : State) :
    (startTrans x0 x1 x2 x3 s).sys = s.sys ∧ (startTrans x0 x1 x2 x3 s).tm = s.tm ∧ (startTrans x0 x1 x2 x3 s).clk = s.clk ∧
    (startTrans x0 x1 x2 x3 s).fh = s.fh ∧ (startTrans x0 x1 x2 x3 s).dl = s.dl ∧ (startTrans x0 x1 x2 x3 s).ul = s.ul ∧
    (startTrans x0 x1 x2 x3 s).bf = s.bf ∧ (startTrans x0 x1 x2 x3 s).core = s.core ∧
    (startTrans x0 x1 x2 x3 s).bias = s.bias ∧ (startTrans x0 x1 x2 x3 s).hk = s.hk ∧ (startTrans x0 x1 x2 x3 s).nvm = s.nvm ∧
    (startTrans x0 x1 x2 x3 s).cal = s.cal ∧ (startTrans x0 x1 x2 x3 s).life = s.life ∧
    (startTrans x0 x1 x2 x3 s).boot = s.boot ∧ (startTrans x0 x1 x2 x3 s).pending = s.pending := by
  unfold startTrans
  simp

@[simp] theorem runQueue_frame (s : State) :
    (runQueue s).sys = s.sys ∧ (runQueue s).tm = s.tm ∧ (runQueue s).clk = s.clk ∧ (runQueue s).fh = s.fh ∧
    (runQueue s).dl = s.dl ∧ (runQueue s).ul = s.ul ∧ (runQueue s).bf = s.bf ∧ (runQueue s).core = s.core ∧
    (runQueue s).bias = s.bias ∧ (runQueue s).hk = s.hk ∧ (runQueue s).nvm = s.nvm ∧ (runQueue s).life = s.life ∧
    (runQueue s).boot = s.boot ∧ (runQueue s).pending = s.pending := by
  unfold runQueue
  repeat' (first | (simp; done) | (simp only [takeFree]) | split | (dsimp only))

@[simp] theorem queueRequest_frame (x0 : PwrReq) (s : State) :
    (queueRequest x0 s).sys = s.sys ∧ (queueRequest x0 s).em = s.em ∧ (queueRequest x0 s).tm = s.tm ∧
    (queueRequest x0 s).clk = s.clk ∧ (queueRequest x0 s).cfg = s.cfg ∧ (queueRequest x0 s).fh = s.fh ∧
    (queueRequest x0 s).dl = s.dl ∧ (queueRequest x0 s).ul = s.ul ∧ (queueRequest x0 s).bf = s.bf ∧
    (queueRequest x0 s).lin = s.lin ∧ (queueRequest x0 s).core = s.core ∧ (queueRequest x0 s).rf = s.rf ∧
    (queueRequest x0 s).bias = s.bias ∧ (queueRequest x0 s).hk = s.hk ∧ (queueRequest x0 s).th = s.th ∧
    (queueRequest x0 s).nvm = s.nvm ∧ (queueRequest x0 s).ls = s.ls ∧ (queueRequest x0 s).rk = s.rk ∧
    (queueRequest x0 s).life = s.life ∧ (queueRequest x0 s).boot = s.boot ∧ (queueRequest x0 s).stat = s.stat ∧
    (queueRequest x0 s).fresh = s.fresh ∧ (queueRequest x0 s).pending = s.pending := by
  unfold queueRequest
  repeat' (first | (simp; done) | (simp only [takeFree]) | split | (dsimp only))

@[simp] theorem undoTrans_frame (x0 : Trans) (s : State) :
    (undoTrans x0 s).sys = s.sys ∧ (undoTrans x0 s).cfg = s.cfg ∧ (undoTrans x0 s).ul = s.ul ∧ (undoTrans x0 s).cal = s.cal ∧
    (undoTrans x0 s).test = s.test ∧ (undoTrans x0 s).life = s.life ∧ (undoTrans x0 s).boot = s.boot ∧
    (undoTrans x0 s).pending = s.pending := by
  unfold undoTrans
  simp

@[simp] theorem failWake_frame (x0 : Trans) (x1 : Nat) (x2 : List Byte) (s : State) :
    (failWake x0 x1 x2 s).sys = s.sys ∧ (failWake x0 x1 x2 s).life = s.life ∧ (failWake x0 x1 x2 s).boot = s.boot ∧
    (failWake x0 x1 x2 s).pending = s.pending := by
  unfold failWake
  repeat' (first | (simp; done) | (simp only [takeFree]) | split | (dsimp only))

@[simp] theorem refuseTrans_frame (x0 : Nat) (x1 : List Byte) (s : State) :
    (refuseTrans x0 x1 s).sys = s.sys ∧ (refuseTrans x0 x1 s).life = s.life ∧ (refuseTrans x0 x1 s).boot = s.boot ∧
    (refuseTrans x0 x1 s).pending = s.pending := by
  unfold refuseTrans
  repeat' (first | (simp; done) | (simp only [takeFree]) | split | (dsimp only))

@[simp] theorem wakeWithoutRf_frame (s : State) :
    (wakeWithoutRf s).ph = s.ph ∧ (wakeWithoutRf s).ev = s.ev ∧ (wakeWithoutRf s).sys = s.sys ∧ (wakeWithoutRf s).tm = s.tm ∧
    (wakeWithoutRf s).clk = s.clk ∧ (wakeWithoutRf s).cfg = s.cfg ∧ (wakeWithoutRf s).fh = s.fh ∧
    (wakeWithoutRf s).dl = s.dl ∧ (wakeWithoutRf s).ul = s.ul ∧ (wakeWithoutRf s).bf = s.bf ∧ (wakeWithoutRf s).lin = s.lin ∧
    (wakeWithoutRf s).core = s.core ∧ (wakeWithoutRf s).bias = s.bias ∧ (wakeWithoutRf s).hk = s.hk ∧
    (wakeWithoutRf s).th = s.th ∧ (wakeWithoutRf s).nvm = s.nvm ∧ (wakeWithoutRf s).cal = s.cal ∧
    (wakeWithoutRf s).ls = s.ls ∧ (wakeWithoutRf s).rk = s.rk ∧ (wakeWithoutRf s).test = s.test ∧
    (wakeWithoutRf s).life = s.life ∧ (wakeWithoutRf s).boot = s.boot ∧ (wakeWithoutRf s).out = s.out ∧
    (wakeWithoutRf s).fresh = s.fresh ∧ (wakeWithoutRf s).pending = s.pending := by
  unfold wakeWithoutRf
  repeat' (first | (simp; done) | (simp only [takeFree]) | split | (dsimp only))

@[simp] theorem startWake_frame (x0 : Nat) (x1 : Bool) (s : State) :
    (startWake x0 x1 s).sys = s.sys ∧ (startWake x0 x1 s).tm = s.tm ∧ (startWake x0 x1 s).clk = s.clk ∧
    (startWake x0 x1 s).fh = s.fh ∧ (startWake x0 x1 s).dl = s.dl ∧ (startWake x0 x1 s).ul = s.ul ∧
    (startWake x0 x1 s).bf = s.bf ∧ (startWake x0 x1 s).core = s.core ∧ (startWake x0 x1 s).bias = s.bias ∧
    (startWake x0 x1 s).hk = s.hk ∧ (startWake x0 x1 s).nvm = s.nvm ∧ (startWake x0 x1 s).cal = s.cal ∧
    (startWake x0 x1 s).life = s.life ∧ (startWake x0 x1 s).boot = s.boot ∧ (startWake x0 x1 s).pending = s.pending := by
  unfold startWake
  simp

@[simp] theorem wakeBy_frame (x0 : Nat) (s : State) :
    (wakeBy x0 s).sys = s.sys ∧ (wakeBy x0 s).tm = s.tm ∧ (wakeBy x0 s).clk = s.clk ∧ (wakeBy x0 s).fh = s.fh ∧
    (wakeBy x0 s).dl = s.dl ∧ (wakeBy x0 s).ul = s.ul ∧ (wakeBy x0 s).bf = s.bf ∧ (wakeBy x0 s).core = s.core ∧
    (wakeBy x0 s).bias = s.bias ∧ (wakeBy x0 s).hk = s.hk ∧ (wakeBy x0 s).nvm = s.nvm ∧ (wakeBy x0 s).cal = s.cal ∧
    (wakeBy x0 s).life = s.life ∧ (wakeBy x0 s).boot = s.boot ∧ (wakeBy x0 s).pending = s.pending := by
  unfold wakeBy
  simp

@[simp] theorem wakeOnce_frame (x0 : Nat) (s : State) :
    (wakeOnce x0 s).sys = s.sys ∧ (wakeOnce x0 s).tm = s.tm ∧ (wakeOnce x0 s).clk = s.clk ∧ (wakeOnce x0 s).fh = s.fh ∧
    (wakeOnce x0 s).dl = s.dl ∧ (wakeOnce x0 s).ul = s.ul ∧ (wakeOnce x0 s).bf = s.bf ∧ (wakeOnce x0 s).core = s.core ∧
    (wakeOnce x0 s).bias = s.bias ∧ (wakeOnce x0 s).hk = s.hk ∧ (wakeOnce x0 s).nvm = s.nvm ∧ (wakeOnce x0 s).cal = s.cal ∧
    (wakeOnce x0 s).life = s.life ∧ (wakeOnce x0 s).boot = s.boot ∧ (wakeOnce x0 s).pending = s.pending := by
  unfold wakeOnce
  simp

@[simp] theorem senseInput_frame (x0 : SenseLevel) (s : State) :
    (senseInput x0 s).ph = s.ph ∧ (senseInput x0 s).ev = s.ev ∧ (senseInput x0 s).sys = s.sys ∧ (senseInput x0 s).em = s.em ∧
    (senseInput x0 s).tm = s.tm ∧ (senseInput x0 s).clk = s.clk ∧ (senseInput x0 s).cfg = s.cfg ∧
    (senseInput x0 s).fh = s.fh ∧ (senseInput x0 s).dl = s.dl ∧ (senseInput x0 s).ul = s.ul ∧ (senseInput x0 s).bf = s.bf ∧
    (senseInput x0 s).lin = s.lin ∧ (senseInput x0 s).core = s.core ∧ (senseInput x0 s).rf = s.rf ∧
    (senseInput x0 s).bias = s.bias ∧ (senseInput x0 s).hk = s.hk ∧ (senseInput x0 s).th = s.th ∧
    (senseInput x0 s).nvm = s.nvm ∧ (senseInput x0 s).cal = s.cal ∧ (senseInput x0 s).ls = s.ls ∧
    (senseInput x0 s).rk = s.rk ∧ (senseInput x0 s).test = s.test ∧ (senseInput x0 s).life = s.life ∧
    (senseInput x0 s).boot = s.boot ∧ (senseInput x0 s).stat = s.stat ∧ (senseInput x0 s).out = s.out ∧
    (senseInput x0 s).fresh = s.fresh ∧ (senseInput x0 s).pending = s.pending := by
  unfold senseInput
  simp

@[simp] theorem armWake_frame (x0 : Trans) (s : State) :
    (armWake x0 s).ph = s.ph ∧ (armWake x0 s).ev = s.ev ∧ (armWake x0 s).sys = s.sys ∧ (armWake x0 s).em = s.em ∧
    (armWake x0 s).tm = s.tm ∧ (armWake x0 s).clk = s.clk ∧ (armWake x0 s).cfg = s.cfg ∧ (armWake x0 s).fh = s.fh ∧
    (armWake x0 s).dl = s.dl ∧ (armWake x0 s).ul = s.ul ∧ (armWake x0 s).bf = s.bf ∧ (armWake x0 s).lin = s.lin ∧
    (armWake x0 s).core = s.core ∧ (armWake x0 s).rf = s.rf ∧ (armWake x0 s).bias = s.bias ∧ (armWake x0 s).hk = s.hk ∧
    (armWake x0 s).th = s.th ∧ (armWake x0 s).nvm = s.nvm ∧ (armWake x0 s).cal = s.cal ∧ (armWake x0 s).ls = s.ls ∧
    (armWake x0 s).rk = s.rk ∧ (armWake x0 s).test = s.test ∧ (armWake x0 s).life = s.life ∧ (armWake x0 s).boot = s.boot ∧
    (armWake x0 s).stat = s.stat ∧ (armWake x0 s).out = s.out ∧ (armWake x0 s).fresh = s.fresh ∧
    (armWake x0 s).pending = s.pending := by
  unfold armWake
  simp

@[simp] theorem continueWake_frame (x0 : Trans) (s : State) :
    (continueWake x0 s).sys = s.sys ∧ (continueWake x0 s).tm = s.tm ∧ (continueWake x0 s).clk = s.clk ∧
    (continueWake x0 s).fh = s.fh ∧ (continueWake x0 s).dl = s.dl ∧ (continueWake x0 s).ul = s.ul ∧
    (continueWake x0 s).bf = s.bf ∧ (continueWake x0 s).core = s.core ∧ (continueWake x0 s).bias = s.bias ∧
    (continueWake x0 s).hk = s.hk ∧ (continueWake x0 s).nvm = s.nvm ∧ (continueWake x0 s).cal = s.cal ∧
    (continueWake x0 s).life = s.life ∧ (continueWake x0 s).boot = s.boot ∧ (continueWake x0 s).pending = s.pending := by
  unfold continueWake
  repeat' (first | (simp; done) | (simp only [takeFree]) | split | (dsimp only))

@[simp] theorem finishTrans_frame (x0 : Trans) (s : State) :
    (finishTrans x0 s).sys = s.sys ∧ (finishTrans x0 s).life = s.life ∧ (finishTrans x0 s).boot = s.boot ∧
    (finishTrans x0 s).pending = s.pending := by
  unfold finishTrans
  simp

@[simp] theorem dropHeld_frame (s : State) :
    (dropHeld s).sys = s.sys ∧ (dropHeld s).cfg = s.cfg ∧ (dropHeld s).ul = s.ul ∧ (dropHeld s).cal = s.cal ∧
    (dropHeld s).test = s.test ∧ (dropHeld s).life = s.life ∧ (dropHeld s).boot = s.boot ∧
    (dropHeld s).pending = s.pending := by
  unfold dropHeld
  simp

@[simp] theorem muteAll_frame (s : State) :
    (muteAll s).ph = s.ph ∧ (muteAll s).ev = s.ev ∧ (muteAll s).sys = s.sys ∧ (muteAll s).tm = s.tm ∧
    (muteAll s).clk = s.clk ∧ (muteAll s).cfg = s.cfg ∧ (muteAll s).fh = s.fh ∧ (muteAll s).ul = s.ul ∧
    (muteAll s).bf = s.bf ∧ (muteAll s).lin = s.lin ∧ (muteAll s).core = s.core ∧ (muteAll s).rf = s.rf ∧
    (muteAll s).bias = s.bias ∧ (muteAll s).hk = s.hk ∧ (muteAll s).pwr = s.pwr ∧ (muteAll s).th = s.th ∧
    (muteAll s).nvm = s.nvm ∧ (muteAll s).cal = s.cal ∧ (muteAll s).ls = s.ls ∧ (muteAll s).rk = s.rk ∧
    (muteAll s).test = s.test ∧ (muteAll s).life = s.life ∧ (muteAll s).boot = s.boot ∧ (muteAll s).stat = s.stat ∧
    (muteAll s).out = s.out ∧ (muteAll s).fresh = s.fresh ∧ (muteAll s).pending = s.pending := by
  unfold muteAll
  simp

@[simp] theorem unmute_frame (s : State) :
    (unmute s).ph = s.ph ∧ (unmute s).ev = s.ev ∧ (unmute s).sys = s.sys ∧ (unmute s).tm = s.tm ∧ (unmute s).clk = s.clk ∧
    (unmute s).cfg = s.cfg ∧ (unmute s).fh = s.fh ∧ (unmute s).dl = s.dl ∧ (unmute s).ul = s.ul ∧ (unmute s).bf = s.bf ∧
    (unmute s).lin = s.lin ∧ (unmute s).core = s.core ∧ (unmute s).rf = s.rf ∧ (unmute s).bias = s.bias ∧
    (unmute s).hk = s.hk ∧ (unmute s).pwr = s.pwr ∧ (unmute s).th = s.th ∧ (unmute s).nvm = s.nvm ∧ (unmute s).cal = s.cal ∧
    (unmute s).ls = s.ls ∧ (unmute s).rk = s.rk ∧ (unmute s).test = s.test ∧ (unmute s).life = s.life ∧
    (unmute s).boot = s.boot ∧ (unmute s).stat = s.stat ∧ (unmute s).out = s.out ∧ (unmute s).fresh = s.fresh ∧
    (unmute s).pending = s.pending := by
  unfold unmute
  simp

@[simp] theorem pwrActions_frame (x0 : Nat) (s : State) :
    (pwrActions x0 s).sys = s.sys ∧ (pwrActions x0 s).tm = s.tm ∧ (pwrActions x0 s).clk = s.clk ∧
    (pwrActions x0 s).cfg = s.cfg ∧ (pwrActions x0 s).fh = s.fh ∧ (pwrActions x0 s).ul = s.ul ∧ (pwrActions x0 s).bf = s.bf ∧
    (pwrActions x0 s).lin = s.lin ∧ (pwrActions x0 s).core = s.core ∧ (pwrActions x0 s).hk = s.hk ∧
    (pwrActions x0 s).pwr = s.pwr ∧ (pwrActions x0 s).th = s.th ∧ (pwrActions x0 s).nvm = s.nvm ∧
    (pwrActions x0 s).cal = s.cal ∧ (pwrActions x0 s).ls = s.ls ∧ (pwrActions x0 s).rk = s.rk ∧
    (pwrActions x0 s).test = s.test ∧ (pwrActions x0 s).life = s.life ∧ (pwrActions x0 s).boot = s.boot ∧
    (pwrActions x0 s).stat = s.stat ∧ (pwrActions x0 s).fresh = s.fresh ∧ (pwrActions x0 s).pending = s.pending := by
  unfold pwrActions
  simp

@[simp] theorem badKey_frame (x0 : Nat) (x1 : Nat) (s : State) :
    (badKey x0 x1 s).sys = s.sys ∧ (badKey x0 x1 s).tm = s.tm ∧ (badKey x0 x1 s).clk = s.clk ∧ (badKey x0 x1 s).cfg = s.cfg ∧
    (badKey x0 x1 s).fh = s.fh ∧ (badKey x0 x1 s).dl = s.dl ∧ (badKey x0 x1 s).ul = s.ul ∧ (badKey x0 x1 s).bf = s.bf ∧
    (badKey x0 x1 s).lin = s.lin ∧ (badKey x0 x1 s).core = s.core ∧ (badKey x0 x1 s).rf = s.rf ∧
    (badKey x0 x1 s).bias = s.bias ∧ (badKey x0 x1 s).hk = s.hk ∧ (badKey x0 x1 s).pwr = s.pwr ∧ (badKey x0 x1 s).th = s.th ∧
    (badKey x0 x1 s).nvm = s.nvm ∧ (badKey x0 x1 s).cal = s.cal ∧ (badKey x0 x1 s).ls = s.ls ∧ (badKey x0 x1 s).rk = s.rk ∧
    (badKey x0 x1 s).test = s.test ∧ (badKey x0 x1 s).life = s.life ∧ (badKey x0 x1 s).boot = s.boot ∧
    (badKey x0 x1 s).stat = s.stat ∧ (badKey x0 x1 s).fresh = s.fresh ∧ (badKey x0 x1 s).pending = s.pending := by
  unfold badKey
  simp

@[simp] theorem padReleaseWrite_frame (x0 : Word) (s : State) :
    (padReleaseWrite x0 s).sys = s.sys ∧ (padReleaseWrite x0 s).tm = s.tm ∧ (padReleaseWrite x0 s).clk = s.clk ∧
    (padReleaseWrite x0 s).cfg = s.cfg ∧ (padReleaseWrite x0 s).fh = s.fh ∧ (padReleaseWrite x0 s).dl = s.dl ∧
    (padReleaseWrite x0 s).ul = s.ul ∧ (padReleaseWrite x0 s).bf = s.bf ∧ (padReleaseWrite x0 s).lin = s.lin ∧
    (padReleaseWrite x0 s).core = s.core ∧ (padReleaseWrite x0 s).bias = s.bias ∧ (padReleaseWrite x0 s).hk = s.hk ∧
    (padReleaseWrite x0 s).pwr = s.pwr ∧ (padReleaseWrite x0 s).th = s.th ∧ (padReleaseWrite x0 s).nvm = s.nvm ∧
    (padReleaseWrite x0 s).cal = s.cal ∧ (padReleaseWrite x0 s).ls = s.ls ∧ (padReleaseWrite x0 s).rk = s.rk ∧
    (padReleaseWrite x0 s).test = s.test ∧ (padReleaseWrite x0 s).life = s.life ∧ (padReleaseWrite x0 s).boot = s.boot ∧
    (padReleaseWrite x0 s).stat = s.stat ∧ (padReleaseWrite x0 s).fresh = s.fresh ∧
    (padReleaseWrite x0 s).pending = s.pending := by
  unfold padReleaseWrite
  simp

@[simp] theorem setRate_frame (x0 : Int) (s : State) :
    (setRate x0 s).ph = s.ph ∧ (setRate x0 s).ev = s.ev ∧ (setRate x0 s).sys = s.sys ∧ (setRate x0 s).em = s.em ∧
    (setRate x0 s).clk = s.clk ∧ (setRate x0 s).cfg = s.cfg ∧ (setRate x0 s).fh = s.fh ∧ (setRate x0 s).dl = s.dl ∧
    (setRate x0 s).ul = s.ul ∧ (setRate x0 s).bf = s.bf ∧ (setRate x0 s).lin = s.lin ∧ (setRate x0 s).core = s.core ∧
    (setRate x0 s).rf = s.rf ∧ (setRate x0 s).bias = s.bias ∧ (setRate x0 s).hk = s.hk ∧ (setRate x0 s).pwr = s.pwr ∧
    (setRate x0 s).th = s.th ∧ (setRate x0 s).nvm = s.nvm ∧ (setRate x0 s).cal = s.cal ∧ (setRate x0 s).ls = s.ls ∧
    (setRate x0 s).rk = s.rk ∧ (setRate x0 s).test = s.test ∧ (setRate x0 s).life = s.life ∧ (setRate x0 s).boot = s.boot ∧
    (setRate x0 s).stat = s.stat ∧ (setRate x0 s).out = s.out ∧ (setRate x0 s).fresh = s.fresh ∧
    (setRate x0 s).pending = s.pending := by
  unfold setRate
  simp

@[simp] theorem servoLock_frame (x0 : Int) (s : State) :
    (servoLock x0 s).ph = s.ph ∧ (servoLock x0 s).ev = s.ev ∧ (servoLock x0 s).sys = s.sys ∧ (servoLock x0 s).em = s.em ∧
    (servoLock x0 s).clk = s.clk ∧ (servoLock x0 s).cfg = s.cfg ∧ (servoLock x0 s).fh = s.fh ∧ (servoLock x0 s).dl = s.dl ∧
    (servoLock x0 s).ul = s.ul ∧ (servoLock x0 s).bf = s.bf ∧ (servoLock x0 s).lin = s.lin ∧ (servoLock x0 s).core = s.core ∧
    (servoLock x0 s).rf = s.rf ∧ (servoLock x0 s).bias = s.bias ∧ (servoLock x0 s).hk = s.hk ∧ (servoLock x0 s).pwr = s.pwr ∧
    (servoLock x0 s).th = s.th ∧ (servoLock x0 s).nvm = s.nvm ∧ (servoLock x0 s).cal = s.cal ∧ (servoLock x0 s).ls = s.ls ∧
    (servoLock x0 s).rk = s.rk ∧ (servoLock x0 s).test = s.test ∧ (servoLock x0 s).life = s.life ∧
    (servoLock x0 s).boot = s.boot ∧ (servoLock x0 s).stat = s.stat ∧ (servoLock x0 s).out = s.out ∧
    (servoLock x0 s).fresh = s.fresh ∧ (servoLock x0 s).pending = s.pending := by
  unfold servoLock
  simp

@[simp] theorem dpllShare_frame (x0 : Int) (s : State) :
    (dpllShare x0 s).2.ph = s.ph ∧ (dpllShare x0 s).2.ev = s.ev ∧ (dpllShare x0 s).2.sys = s.sys ∧
    (dpllShare x0 s).2.em = s.em ∧ (dpllShare x0 s).2.tm = s.tm ∧ (dpllShare x0 s).2.clk = s.clk ∧
    (dpllShare x0 s).2.cfg = s.cfg ∧ (dpllShare x0 s).2.fh = s.fh ∧ (dpllShare x0 s).2.dl = s.dl ∧
    (dpllShare x0 s).2.ul = s.ul ∧ (dpllShare x0 s).2.bf = s.bf ∧ (dpllShare x0 s).2.lin = s.lin ∧
    (dpllShare x0 s).2.core = s.core ∧ (dpllShare x0 s).2.rf = s.rf ∧ (dpllShare x0 s).2.bias = s.bias ∧
    (dpllShare x0 s).2.hk = s.hk ∧ (dpllShare x0 s).2.pwr = s.pwr ∧ (dpllShare x0 s).2.th = s.th ∧
    (dpllShare x0 s).2.nvm = s.nvm ∧ (dpllShare x0 s).2.cal = s.cal ∧ (dpllShare x0 s).2.ls = s.ls ∧
    (dpllShare x0 s).2.rk = s.rk ∧ (dpllShare x0 s).2.test = s.test ∧ (dpllShare x0 s).2.life = s.life ∧
    (dpllShare x0 s).2.boot = s.boot ∧ (dpllShare x0 s).2.stat = s.stat ∧ (dpllShare x0 s).2.out = s.out ∧
    (dpllShare x0 s).2.pending = s.pending := by
  unfold dpllShare
  repeat' (first | (simp; done) | (simp only [takeFree]) | split | (dsimp only))

@[simp] theorem servoAct_frame (x0 : Int) (s : State) :
    (servoAct x0 s).sys = s.sys ∧ (servoAct x0 s).em = s.em ∧ (servoAct x0 s).fh = s.fh ∧ (servoAct x0 s).core = s.core ∧
    (servoAct x0 s).bias = s.bias ∧ (servoAct x0 s).hk = s.hk ∧ (servoAct x0 s).pwr = s.pwr ∧ (servoAct x0 s).th = s.th ∧
    (servoAct x0 s).nvm = s.nvm ∧ (servoAct x0 s).cal = s.cal ∧ (servoAct x0 s).test = s.test ∧
    (servoAct x0 s).life = s.life ∧ (servoAct x0 s).boot = s.boot ∧ (servoAct x0 s).pending = s.pending := by
  unfold servoAct
  simp

@[simp] theorem servoMeasure_frame (x0 : Int) (s : State) :
    (servoMeasure x0 s).sys = s.sys ∧ (servoMeasure x0 s).em = s.em ∧ (servoMeasure x0 s).fh = s.fh ∧
    (servoMeasure x0 s).core = s.core ∧ (servoMeasure x0 s).bias = s.bias ∧ (servoMeasure x0 s).hk = s.hk ∧
    (servoMeasure x0 s).pwr = s.pwr ∧ (servoMeasure x0 s).th = s.th ∧ (servoMeasure x0 s).nvm = s.nvm ∧
    (servoMeasure x0 s).cal = s.cal ∧ (servoMeasure x0 s).test = s.test ∧ (servoMeasure x0 s).life = s.life ∧
    (servoMeasure x0 s).boot = s.boot ∧ (servoMeasure x0 s).pending = s.pending := by
  unfold servoMeasure
  simp

@[simp] theorem servoWrite_frame (x0 : List Byte) (s : State) :
    (servoWrite x0 s).sys = s.sys ∧ (servoWrite x0 s).em = s.em ∧ (servoWrite x0 s).cfg = s.cfg ∧
    (servoWrite x0 s).fh = s.fh ∧ (servoWrite x0 s).dl = s.dl ∧ (servoWrite x0 s).ul = s.ul ∧ (servoWrite x0 s).bf = s.bf ∧
    (servoWrite x0 s).lin = s.lin ∧ (servoWrite x0 s).core = s.core ∧ (servoWrite x0 s).rf = s.rf ∧
    (servoWrite x0 s).bias = s.bias ∧ (servoWrite x0 s).hk = s.hk ∧ (servoWrite x0 s).pwr = s.pwr ∧
    (servoWrite x0 s).th = s.th ∧ (servoWrite x0 s).nvm = s.nvm ∧ (servoWrite x0 s).cal = s.cal ∧
    (servoWrite x0 s).ls = s.ls ∧ (servoWrite x0 s).rk = s.rk ∧ (servoWrite x0 s).test = s.test ∧
    (servoWrite x0 s).life = s.life ∧ (servoWrite x0 s).boot = s.boot ∧ (servoWrite x0 s).stat = s.stat ∧
    (servoWrite x0 s).pending = s.pending := by
  unfold servoWrite
  simp

@[simp] theorem captureTime_frame (s : State) :
    (captureTime s).ph = s.ph ∧ (captureTime s).ev = s.ev ∧ (captureTime s).sys = s.sys ∧ (captureTime s).em = s.em ∧
    (captureTime s).clk = s.clk ∧ (captureTime s).cfg = s.cfg ∧ (captureTime s).fh = s.fh ∧ (captureTime s).dl = s.dl ∧
    (captureTime s).ul = s.ul ∧ (captureTime s).bf = s.bf ∧ (captureTime s).lin = s.lin ∧ (captureTime s).core = s.core ∧
    (captureTime s).rf = s.rf ∧ (captureTime s).bias = s.bias ∧ (captureTime s).hk = s.hk ∧ (captureTime s).pwr = s.pwr ∧
    (captureTime s).th = s.th ∧ (captureTime s).nvm = s.nvm ∧ (captureTime s).cal = s.cal ∧ (captureTime s).ls = s.ls ∧
    (captureTime s).rk = s.rk ∧ (captureTime s).test = s.test ∧ (captureTime s).life = s.life ∧
    (captureTime s).boot = s.boot ∧ (captureTime s).stat = s.stat ∧ (captureTime s).out = s.out ∧
    (captureTime s).fresh = s.fresh ∧ (captureTime s).pending = s.pending := by
  unfold captureTime
  simp

@[simp] theorem synceTrip_frame (x0 : Nat) (x1 : Int) (s : State) :
    (synceTrip x0 x1 s).sys = s.sys ∧ (synceTrip x0 x1 s).em = s.em ∧ (synceTrip x0 x1 s).tm = s.tm ∧
    (synceTrip x0 x1 s).cfg = s.cfg ∧ (synceTrip x0 x1 s).fh = s.fh ∧ (synceTrip x0 x1 s).dl = s.dl ∧
    (synceTrip x0 x1 s).ul = s.ul ∧ (synceTrip x0 x1 s).bf = s.bf ∧ (synceTrip x0 x1 s).lin = s.lin ∧
    (synceTrip x0 x1 s).core = s.core ∧ (synceTrip x0 x1 s).rf = s.rf ∧ (synceTrip x0 x1 s).bias = s.bias ∧
    (synceTrip x0 x1 s).hk = s.hk ∧ (synceTrip x0 x1 s).pwr = s.pwr ∧ (synceTrip x0 x1 s).th = s.th ∧
    (synceTrip x0 x1 s).nvm = s.nvm ∧ (synceTrip x0 x1 s).cal = s.cal ∧ (synceTrip x0 x1 s).ls = s.ls ∧
    (synceTrip x0 x1 s).rk = s.rk ∧ (synceTrip x0 x1 s).test = s.test ∧ (synceTrip x0 x1 s).life = s.life ∧
    (synceTrip x0 x1 s).boot = s.boot ∧ (synceTrip x0 x1 s).stat = s.stat ∧ (synceTrip x0 x1 s).pending = s.pending := by
  unfold synceTrip
  simp

@[simp] theorem esmcCode_frame (x0 : Nat) (s : State) :
    (esmcCode x0 s).sys = s.sys ∧ (esmcCode x0 s).em = s.em ∧ (esmcCode x0 s).tm = s.tm ∧ (esmcCode x0 s).cfg = s.cfg ∧
    (esmcCode x0 s).fh = s.fh ∧ (esmcCode x0 s).dl = s.dl ∧ (esmcCode x0 s).ul = s.ul ∧ (esmcCode x0 s).bf = s.bf ∧
    (esmcCode x0 s).lin = s.lin ∧ (esmcCode x0 s).core = s.core ∧ (esmcCode x0 s).rf = s.rf ∧ (esmcCode x0 s).bias = s.bias ∧
    (esmcCode x0 s).hk = s.hk ∧ (esmcCode x0 s).pwr = s.pwr ∧ (esmcCode x0 s).th = s.th ∧ (esmcCode x0 s).nvm = s.nvm ∧
    (esmcCode x0 s).cal = s.cal ∧ (esmcCode x0 s).ls = s.ls ∧ (esmcCode x0 s).rk = s.rk ∧ (esmcCode x0 s).test = s.test ∧
    (esmcCode x0 s).life = s.life ∧ (esmcCode x0 s).boot = s.boot ∧ (esmcCode x0 s).stat = s.stat ∧
    (esmcCode x0 s).pending = s.pending := by
  unfold esmcCode
  simp

@[simp] theorem halfDown_frame (x0 : Nat) (s : State) :
    (halfDown x0 s).sys = s.sys ∧ (halfDown x0 s).em = s.em ∧ (halfDown x0 s).cfg = s.cfg ∧ (halfDown x0 s).dl = s.dl ∧
    (halfDown x0 s).ul = s.ul ∧ (halfDown x0 s).bf = s.bf ∧ (halfDown x0 s).lin = s.lin ∧ (halfDown x0 s).core = s.core ∧
    (halfDown x0 s).rf = s.rf ∧ (halfDown x0 s).bias = s.bias ∧ (halfDown x0 s).hk = s.hk ∧ (halfDown x0 s).pwr = s.pwr ∧
    (halfDown x0 s).th = s.th ∧ (halfDown x0 s).nvm = s.nvm ∧ (halfDown x0 s).cal = s.cal ∧ (halfDown x0 s).ls = s.ls ∧
    (halfDown x0 s).rk = s.rk ∧ (halfDown x0 s).test = s.test ∧ (halfDown x0 s).life = s.life ∧
    (halfDown x0 s).boot = s.boot ∧ (halfDown x0 s).stat = s.stat ∧ (halfDown x0 s).pending = s.pending := by
  unfold halfDown
  simp

@[simp] theorem noSignal_frame (x0 : Nat) (x1 : Bool) (s : State) :
    (noSignal x0 x1 s).ph = s.ph ∧ (noSignal x0 x1 s).ev = s.ev ∧ (noSignal x0 x1 s).sys = s.sys ∧
    (noSignal x0 x1 s).em = s.em ∧ (noSignal x0 x1 s).tm = s.tm ∧ (noSignal x0 x1 s).clk = s.clk ∧
    (noSignal x0 x1 s).cfg = s.cfg ∧ (noSignal x0 x1 s).dl = s.dl ∧ (noSignal x0 x1 s).ul = s.ul ∧
    (noSignal x0 x1 s).bf = s.bf ∧ (noSignal x0 x1 s).lin = s.lin ∧ (noSignal x0 x1 s).core = s.core ∧
    (noSignal x0 x1 s).rf = s.rf ∧ (noSignal x0 x1 s).bias = s.bias ∧ (noSignal x0 x1 s).hk = s.hk ∧
    (noSignal x0 x1 s).pwr = s.pwr ∧ (noSignal x0 x1 s).th = s.th ∧ (noSignal x0 x1 s).nvm = s.nvm ∧
    (noSignal x0 x1 s).cal = s.cal ∧ (noSignal x0 x1 s).ls = s.ls ∧ (noSignal x0 x1 s).rk = s.rk ∧
    (noSignal x0 x1 s).test = s.test ∧ (noSignal x0 x1 s).life = s.life ∧ (noSignal x0 x1 s).boot = s.boot ∧
    (noSignal x0 x1 s).stat = s.stat ∧ (noSignal x0 x1 s).out = s.out ∧ (noSignal x0 x1 s).fresh = s.fresh ∧
    (noSignal x0 x1 s).pending = s.pending := by
  unfold noSignal
  simp

@[simp] theorem restartPort_frame (x0 : Bool) (x1 : Bool) (x2 : Nat) (s : State) :
    (restartPort x0 x1 x2 s).sys = s.sys ∧ (restartPort x0 x1 x2 s).em = s.em ∧ (restartPort x0 x1 x2 s).cfg = s.cfg ∧
    (restartPort x0 x1 x2 s).dl = s.dl ∧ (restartPort x0 x1 x2 s).ul = s.ul ∧ (restartPort x0 x1 x2 s).bf = s.bf ∧
    (restartPort x0 x1 x2 s).lin = s.lin ∧ (restartPort x0 x1 x2 s).core = s.core ∧ (restartPort x0 x1 x2 s).rf = s.rf ∧
    (restartPort x0 x1 x2 s).bias = s.bias ∧ (restartPort x0 x1 x2 s).hk = s.hk ∧ (restartPort x0 x1 x2 s).pwr = s.pwr ∧
    (restartPort x0 x1 x2 s).th = s.th ∧ (restartPort x0 x1 x2 s).nvm = s.nvm ∧ (restartPort x0 x1 x2 s).cal = s.cal ∧
    (restartPort x0 x1 x2 s).ls = s.ls ∧ (restartPort x0 x1 x2 s).rk = s.rk ∧ (restartPort x0 x1 x2 s).test = s.test ∧
    (restartPort x0 x1 x2 s).life = s.life ∧ (restartPort x0 x1 x2 s).boot = s.boot ∧ (restartPort x0 x1 x2 s).stat = s.stat ∧
    (restartPort x0 x1 x2 s).pending = s.pending := by
  unfold restartPort
  simp

@[simp] theorem restartPorts_frame (x0 : Image) (x1 : Image) (s : State) :
    (restartPorts x0 x1 s).sys = s.sys ∧ (restartPorts x0 x1 s).em = s.em ∧ (restartPorts x0 x1 s).cfg = s.cfg ∧
    (restartPorts x0 x1 s).dl = s.dl ∧ (restartPorts x0 x1 s).ul = s.ul ∧ (restartPorts x0 x1 s).bf = s.bf ∧
    (restartPorts x0 x1 s).lin = s.lin ∧ (restartPorts x0 x1 s).core = s.core ∧ (restartPorts x0 x1 s).rf = s.rf ∧
    (restartPorts x0 x1 s).bias = s.bias ∧ (restartPorts x0 x1 s).hk = s.hk ∧ (restartPorts x0 x1 s).pwr = s.pwr ∧
    (restartPorts x0 x1 s).th = s.th ∧ (restartPorts x0 x1 s).nvm = s.nvm ∧ (restartPorts x0 x1 s).cal = s.cal ∧
    (restartPorts x0 x1 s).ls = s.ls ∧ (restartPorts x0 x1 s).rk = s.rk ∧ (restartPorts x0 x1 s).test = s.test ∧
    (restartPorts x0 x1 s).life = s.life ∧ (restartPorts x0 x1 s).boot = s.boot ∧ (restartPorts x0 x1 s).stat = s.stat ∧
    (restartPorts x0 x1 s).pending = s.pending := by
  unfold restartPorts
  simp

@[simp] theorem stampRx_frame (x0 : Nat) (s : State) :
    (stampRx x0 s).2.ph = s.ph ∧ (stampRx x0 s).2.ev = s.ev ∧ (stampRx x0 s).2.sys = s.sys ∧ (stampRx x0 s).2.em = s.em ∧
    (stampRx x0 s).2.tm = s.tm ∧ (stampRx x0 s).2.clk = s.clk ∧ (stampRx x0 s).2.cfg = s.cfg ∧ (stampRx x0 s).2.fh = s.fh ∧
    (stampRx x0 s).2.dl = s.dl ∧ (stampRx x0 s).2.ul = s.ul ∧ (stampRx x0 s).2.bf = s.bf ∧ (stampRx x0 s).2.lin = s.lin ∧
    (stampRx x0 s).2.core = s.core ∧ (stampRx x0 s).2.rf = s.rf ∧ (stampRx x0 s).2.bias = s.bias ∧
    (stampRx x0 s).2.hk = s.hk ∧ (stampRx x0 s).2.pwr = s.pwr ∧ (stampRx x0 s).2.th = s.th ∧ (stampRx x0 s).2.nvm = s.nvm ∧
    (stampRx x0 s).2.cal = s.cal ∧ (stampRx x0 s).2.ls = s.ls ∧ (stampRx x0 s).2.rk = s.rk ∧ (stampRx x0 s).2.test = s.test ∧
    (stampRx x0 s).2.life = s.life ∧ (stampRx x0 s).2.boot = s.boot ∧ (stampRx x0 s).2.stat = s.stat ∧
    (stampRx x0 s).2.out = s.out ∧ (stampRx x0 s).2.pending = s.pending := by
  unfold stampRx
  simp

@[simp] theorem type5_frame (x0 : Nat) (x1 : Nat) (x2 : List Byte) (x3 : List Byte) (s : State) :
    (type5 x0 x1 x2 x3 s).sys = s.sys ∧ (type5 x0 x1 x2 x3 s).em = s.em ∧ (type5 x0 x1 x2 x3 s).tm = s.tm ∧
    (type5 x0 x1 x2 x3 s).clk = s.clk ∧ (type5 x0 x1 x2 x3 s).cfg = s.cfg ∧ (type5 x0 x1 x2 x3 s).dl = s.dl ∧
    (type5 x0 x1 x2 x3 s).ul = s.ul ∧ (type5 x0 x1 x2 x3 s).bf = s.bf ∧ (type5 x0 x1 x2 x3 s).lin = s.lin ∧
    (type5 x0 x1 x2 x3 s).core = s.core ∧ (type5 x0 x1 x2 x3 s).rf = s.rf ∧ (type5 x0 x1 x2 x3 s).bias = s.bias ∧
    (type5 x0 x1 x2 x3 s).hk = s.hk ∧ (type5 x0 x1 x2 x3 s).pwr = s.pwr ∧ (type5 x0 x1 x2 x3 s).th = s.th ∧
    (type5 x0 x1 x2 x3 s).nvm = s.nvm ∧ (type5 x0 x1 x2 x3 s).cal = s.cal ∧ (type5 x0 x1 x2 x3 s).ls = s.ls ∧
    (type5 x0 x1 x2 x3 s).rk = s.rk ∧ (type5 x0 x1 x2 x3 s).test = s.test ∧ (type5 x0 x1 x2 x3 s).life = s.life ∧
    (type5 x0 x1 x2 x3 s).boot = s.boot ∧ (type5 x0 x1 x2 x3 s).stat = s.stat ∧
    (type5 x0 x1 x2 x3 s).pending = s.pending := by
  unfold type5
  repeat' (first | (simp; done) | (simp only [takeFree]) | split | (dsimp only))

@[simp] theorem ingressDrop_frame (x0 : Nat) (x1 : Nat) (x2 : Nat) (s : State) :
    (ingressDrop x0 x1 x2 s).sys = s.sys ∧ (ingressDrop x0 x1 x2 s).em = s.em ∧ (ingressDrop x0 x1 x2 s).tm = s.tm ∧
    (ingressDrop x0 x1 x2 s).clk = s.clk ∧ (ingressDrop x0 x1 x2 s).cfg = s.cfg ∧ (ingressDrop x0 x1 x2 s).dl = s.dl ∧
    (ingressDrop x0 x1 x2 s).ul = s.ul ∧ (ingressDrop x0 x1 x2 s).bf = s.bf ∧ (ingressDrop x0 x1 x2 s).lin = s.lin ∧
    (ingressDrop x0 x1 x2 s).core = s.core ∧ (ingressDrop x0 x1 x2 s).rf = s.rf ∧ (ingressDrop x0 x1 x2 s).bias = s.bias ∧
    (ingressDrop x0 x1 x2 s).hk = s.hk ∧ (ingressDrop x0 x1 x2 s).pwr = s.pwr ∧ (ingressDrop x0 x1 x2 s).th = s.th ∧
    (ingressDrop x0 x1 x2 s).nvm = s.nvm ∧ (ingressDrop x0 x1 x2 s).cal = s.cal ∧ (ingressDrop x0 x1 x2 s).ls = s.ls ∧
    (ingressDrop x0 x1 x2 s).rk = s.rk ∧ (ingressDrop x0 x1 x2 s).test = s.test ∧ (ingressDrop x0 x1 x2 s).life = s.life ∧
    (ingressDrop x0 x1 x2 s).boot = s.boot ∧ (ingressDrop x0 x1 x2 s).stat = s.stat ∧
    (ingressDrop x0 x1 x2 s).fresh = s.fresh ∧ (ingressDrop x0 x1 x2 s).pending = s.pending := by
  unfold ingressDrop
  simp

@[simp] theorem acceptFrame_frame (x0 : Nat) (x1 : List Byte) (s : State) :
    (acceptFrame x0 x1 s).ph = s.ph ∧ (acceptFrame x0 x1 s).ev = s.ev ∧ (acceptFrame x0 x1 s).sys = s.sys ∧
    (acceptFrame x0 x1 s).em = s.em ∧ (acceptFrame x0 x1 s).tm = s.tm ∧ (acceptFrame x0 x1 s).clk = s.clk ∧
    (acceptFrame x0 x1 s).cfg = s.cfg ∧ (acceptFrame x0 x1 s).dl = s.dl ∧ (acceptFrame x0 x1 s).ul = s.ul ∧
    (acceptFrame x0 x1 s).bf = s.bf ∧ (acceptFrame x0 x1 s).lin = s.lin ∧ (acceptFrame x0 x1 s).core = s.core ∧
    (acceptFrame x0 x1 s).rf = s.rf ∧ (acceptFrame x0 x1 s).bias = s.bias ∧ (acceptFrame x0 x1 s).hk = s.hk ∧
    (acceptFrame x0 x1 s).pwr = s.pwr ∧ (acceptFrame x0 x1 s).th = s.th ∧ (acceptFrame x0 x1 s).nvm = s.nvm ∧
    (acceptFrame x0 x1 s).cal = s.cal ∧ (acceptFrame x0 x1 s).ls = s.ls ∧ (acceptFrame x0 x1 s).rk = s.rk ∧
    (acceptFrame x0 x1 s).test = s.test ∧ (acceptFrame x0 x1 s).life = s.life ∧ (acceptFrame x0 x1 s).boot = s.boot ∧
    (acceptFrame x0 x1 s).stat = s.stat ∧ (acceptFrame x0 x1 s).out = s.out ∧ (acceptFrame x0 x1 s).fresh = s.fresh ∧
    (acceptFrame x0 x1 s).pending = s.pending := by
  unfold acceptFrame
  simp

@[simp] theorem arpAnswer_frame (x0 : Nat) (x1 : List Byte) (x2 : List Byte) (s : State) :
    (arpAnswer x0 x1 x2 s).sys = s.sys ∧ (arpAnswer x0 x1 x2 s).em = s.em ∧ (arpAnswer x0 x1 x2 s).tm = s.tm ∧
    (arpAnswer x0 x1 x2 s).clk = s.clk ∧ (arpAnswer x0 x1 x2 s).cfg = s.cfg ∧ (arpAnswer x0 x1 x2 s).dl = s.dl ∧
    (arpAnswer x0 x1 x2 s).ul = s.ul ∧ (arpAnswer x0 x1 x2 s).bf = s.bf ∧ (arpAnswer x0 x1 x2 s).lin = s.lin ∧
    (arpAnswer x0 x1 x2 s).core = s.core ∧ (arpAnswer x0 x1 x2 s).rf = s.rf ∧ (arpAnswer x0 x1 x2 s).bias = s.bias ∧
    (arpAnswer x0 x1 x2 s).hk = s.hk ∧ (arpAnswer x0 x1 x2 s).pwr = s.pwr ∧ (arpAnswer x0 x1 x2 s).th = s.th ∧
    (arpAnswer x0 x1 x2 s).nvm = s.nvm ∧ (arpAnswer x0 x1 x2 s).cal = s.cal ∧ (arpAnswer x0 x1 x2 s).ls = s.ls ∧
    (arpAnswer x0 x1 x2 s).rk = s.rk ∧ (arpAnswer x0 x1 x2 s).test = s.test ∧ (arpAnswer x0 x1 x2 s).life = s.life ∧
    (arpAnswer x0 x1 x2 s).boot = s.boot ∧ (arpAnswer x0 x1 x2 s).stat = s.stat ∧
    (arpAnswer x0 x1 x2 s).pending = s.pending := by
  unfold arpAnswer
  simp

@[simp] theorem ndAnswer_frame (x0 : Nat) (x1 : List Byte) (x2 : List Byte) (x3 : List Byte) (s : State) :
    (ndAnswer x0 x1 x2 x3 s).sys = s.sys ∧ (ndAnswer x0 x1 x2 x3 s).em = s.em ∧ (ndAnswer x0 x1 x2 x3 s).tm = s.tm ∧
    (ndAnswer x0 x1 x2 x3 s).clk = s.clk ∧ (ndAnswer x0 x1 x2 x3 s).cfg = s.cfg ∧ (ndAnswer x0 x1 x2 x3 s).dl = s.dl ∧
    (ndAnswer x0 x1 x2 x3 s).ul = s.ul ∧ (ndAnswer x0 x1 x2 x3 s).bf = s.bf ∧ (ndAnswer x0 x1 x2 x3 s).lin = s.lin ∧
    (ndAnswer x0 x1 x2 x3 s).core = s.core ∧ (ndAnswer x0 x1 x2 x3 s).rf = s.rf ∧ (ndAnswer x0 x1 x2 x3 s).bias = s.bias ∧
    (ndAnswer x0 x1 x2 x3 s).hk = s.hk ∧ (ndAnswer x0 x1 x2 x3 s).pwr = s.pwr ∧ (ndAnswer x0 x1 x2 x3 s).th = s.th ∧
    (ndAnswer x0 x1 x2 x3 s).nvm = s.nvm ∧ (ndAnswer x0 x1 x2 x3 s).cal = s.cal ∧ (ndAnswer x0 x1 x2 x3 s).ls = s.ls ∧
    (ndAnswer x0 x1 x2 x3 s).rk = s.rk ∧ (ndAnswer x0 x1 x2 x3 s).test = s.test ∧ (ndAnswer x0 x1 x2 x3 s).life = s.life ∧
    (ndAnswer x0 x1 x2 x3 s).boot = s.boot ∧ (ndAnswer x0 x1 x2 x3 s).stat = s.stat ∧
    (ndAnswer x0 x1 x2 x3 s).pending = s.pending := by
  unfold ndAnswer
  simp

@[simp] theorem checkSeq_frame (x0 : Nat) (x1 : Nat) (x2 : Nat) (x3 : Nat) (s : State) :
    (checkSeq x0 x1 x2 x3 s).ph = s.ph ∧ (checkSeq x0 x1 x2 x3 s).ev = s.ev ∧ (checkSeq x0 x1 x2 x3 s).sys = s.sys ∧
    (checkSeq x0 x1 x2 x3 s).em = s.em ∧ (checkSeq x0 x1 x2 x3 s).tm = s.tm ∧ (checkSeq x0 x1 x2 x3 s).clk = s.clk ∧
    (checkSeq x0 x1 x2 x3 s).cfg = s.cfg ∧ (checkSeq x0 x1 x2 x3 s).dl = s.dl ∧ (checkSeq x0 x1 x2 x3 s).ul = s.ul ∧
    (checkSeq x0 x1 x2 x3 s).bf = s.bf ∧ (checkSeq x0 x1 x2 x3 s).lin = s.lin ∧ (checkSeq x0 x1 x2 x3 s).core = s.core ∧
    (checkSeq x0 x1 x2 x3 s).rf = s.rf ∧ (checkSeq x0 x1 x2 x3 s).bias = s.bias ∧ (checkSeq x0 x1 x2 x3 s).hk = s.hk ∧
    (checkSeq x0 x1 x2 x3 s).pwr = s.pwr ∧ (checkSeq x0 x1 x2 x3 s).th = s.th ∧ (checkSeq x0 x1 x2 x3 s).nvm = s.nvm ∧
    (checkSeq x0 x1 x2 x3 s).cal = s.cal ∧ (checkSeq x0 x1 x2 x3 s).ls = s.ls ∧ (checkSeq x0 x1 x2 x3 s).rk = s.rk ∧
    (checkSeq x0 x1 x2 x3 s).test = s.test ∧ (checkSeq x0 x1 x2 x3 s).life = s.life ∧ (checkSeq x0 x1 x2 x3 s).boot = s.boot ∧
    (checkSeq x0 x1 x2 x3 s).stat = s.stat ∧ (checkSeq x0 x1 x2 x3 s).out = s.out ∧ (checkSeq x0 x1 x2 x3 s).fresh = s.fresh ∧
    (checkSeq x0 x1 x2 x3 s).pending = s.pending := by
  unfold checkSeq
  simp

@[simp] theorem ecpriRun_frame (n len : Nat) (src : List Byte) (t : Instant) (k : Nat) (p : List Byte) (s : State) :
    (ecpriRun n len src t k p s).sys = s.sys ∧ (ecpriRun n len src t k p s).em = s.em ∧
    (ecpriRun n len src t k p s).tm = s.tm ∧ (ecpriRun n len src t k p s).clk = s.clk ∧
    (ecpriRun n len src t k p s).cfg = s.cfg ∧ (ecpriRun n len src t k p s).dl = s.dl ∧
    (ecpriRun n len src t k p s).ul = s.ul ∧ (ecpriRun n len src t k p s).bf = s.bf ∧
    (ecpriRun n len src t k p s).lin = s.lin ∧ (ecpriRun n len src t k p s).core = s.core ∧
    (ecpriRun n len src t k p s).rf = s.rf ∧ (ecpriRun n len src t k p s).bias = s.bias ∧
    (ecpriRun n len src t k p s).hk = s.hk ∧ (ecpriRun n len src t k p s).pwr = s.pwr ∧
    (ecpriRun n len src t k p s).th = s.th ∧ (ecpriRun n len src t k p s).nvm = s.nvm ∧
    (ecpriRun n len src t k p s).cal = s.cal ∧ (ecpriRun n len src t k p s).ls = s.ls ∧
    (ecpriRun n len src t k p s).rk = s.rk ∧ (ecpriRun n len src t k p s).test = s.test ∧
    (ecpriRun n len src t k p s).life = s.life ∧ (ecpriRun n len src t k p s).boot = s.boot ∧
    (ecpriRun n len src t k p s).stat = s.stat ∧ (ecpriRun n len src t k p s).pending = s.pending := by
  induction k generalizing s p <;> simp only [ecpriRun] <;> (repeat' split) <;> simp_all

@[simp] theorem ptpFrame_frame (x0 : Nat) (x1 : Nat) (x2 : List Byte) (s : State) :
    (ptpFrame x0 x1 x2 s).ph = s.ph ∧ (ptpFrame x0 x1 x2 s).ev = s.ev ∧ (ptpFrame x0 x1 x2 s).sys = s.sys ∧
    (ptpFrame x0 x1 x2 s).em = s.em ∧ (ptpFrame x0 x1 x2 s).tm = s.tm ∧ (ptpFrame x0 x1 x2 s).clk = s.clk ∧
    (ptpFrame x0 x1 x2 s).cfg = s.cfg ∧ (ptpFrame x0 x1 x2 s).dl = s.dl ∧ (ptpFrame x0 x1 x2 s).ul = s.ul ∧
    (ptpFrame x0 x1 x2 s).bf = s.bf ∧ (ptpFrame x0 x1 x2 s).lin = s.lin ∧ (ptpFrame x0 x1 x2 s).core = s.core ∧
    (ptpFrame x0 x1 x2 s).rf = s.rf ∧ (ptpFrame x0 x1 x2 s).bias = s.bias ∧ (ptpFrame x0 x1 x2 s).hk = s.hk ∧
    (ptpFrame x0 x1 x2 s).pwr = s.pwr ∧ (ptpFrame x0 x1 x2 s).th = s.th ∧ (ptpFrame x0 x1 x2 s).nvm = s.nvm ∧
    (ptpFrame x0 x1 x2 s).cal = s.cal ∧ (ptpFrame x0 x1 x2 s).ls = s.ls ∧ (ptpFrame x0 x1 x2 s).rk = s.rk ∧
    (ptpFrame x0 x1 x2 s).test = s.test ∧ (ptpFrame x0 x1 x2 s).life = s.life ∧ (ptpFrame x0 x1 x2 s).boot = s.boot ∧
    (ptpFrame x0 x1 x2 s).stat = s.stat ∧ (ptpFrame x0 x1 x2 s).out = s.out ∧ (ptpFrame x0 x1 x2 s).pending = s.pending := by
  unfold ptpFrame
  simp

@[simp] theorem classify_frame (x0 : Nat) (x1 : List Byte) (s : State) :
    (classify x0 x1 s).sys = s.sys ∧ (classify x0 x1 s).em = s.em ∧ (classify x0 x1 s).tm = s.tm ∧
    (classify x0 x1 s).cfg = s.cfg ∧ (classify x0 x1 s).dl = s.dl ∧ (classify x0 x1 s).ul = s.ul ∧
    (classify x0 x1 s).bf = s.bf ∧ (classify x0 x1 s).lin = s.lin ∧ (classify x0 x1 s).core = s.core ∧
    (classify x0 x1 s).rf = s.rf ∧ (classify x0 x1 s).bias = s.bias ∧ (classify x0 x1 s).hk = s.hk ∧
    (classify x0 x1 s).pwr = s.pwr ∧ (classify x0 x1 s).th = s.th ∧ (classify x0 x1 s).nvm = s.nvm ∧
    (classify x0 x1 s).cal = s.cal ∧ (classify x0 x1 s).ls = s.ls ∧ (classify x0 x1 s).rk = s.rk ∧
    (classify x0 x1 s).test = s.test ∧ (classify x0 x1 s).life = s.life ∧ (classify x0 x1 s).boot = s.boot ∧
    (classify x0 x1 s).stat = s.stat ∧ (classify x0 x1 s).pending = s.pending := by
  unfold classify
  simp

@[simp] theorem setOsc_frame (x0 : Nat) (x1 : Nat) (s : State) :
    (setOsc x0 x1 s).ph = s.ph ∧ (setOsc x0 x1 s).ev = s.ev ∧ (setOsc x0 x1 s).sys = s.sys ∧ (setOsc x0 x1 s).em = s.em ∧
    (setOsc x0 x1 s).tm = s.tm ∧ (setOsc x0 x1 s).cfg = s.cfg ∧ (setOsc x0 x1 s).fh = s.fh ∧ (setOsc x0 x1 s).dl = s.dl ∧
    (setOsc x0 x1 s).ul = s.ul ∧ (setOsc x0 x1 s).bf = s.bf ∧ (setOsc x0 x1 s).lin = s.lin ∧ (setOsc x0 x1 s).core = s.core ∧
    (setOsc x0 x1 s).rf = s.rf ∧ (setOsc x0 x1 s).bias = s.bias ∧ (setOsc x0 x1 s).hk = s.hk ∧ (setOsc x0 x1 s).pwr = s.pwr ∧
    (setOsc x0 x1 s).th = s.th ∧ (setOsc x0 x1 s).nvm = s.nvm ∧ (setOsc x0 x1 s).cal = s.cal ∧ (setOsc x0 x1 s).ls = s.ls ∧
    (setOsc x0 x1 s).rk = s.rk ∧ (setOsc x0 x1 s).test = s.test ∧ (setOsc x0 x1 s).life = s.life ∧
    (setOsc x0 x1 s).boot = s.boot ∧ (setOsc x0 x1 s).stat = s.stat ∧ (setOsc x0 x1 s).out = s.out ∧
    (setOsc x0 x1 s).fresh = s.fresh ∧ (setOsc x0 x1 s).pending = s.pending := by
  unfold setOsc
  simp

@[simp] theorem switchEvent_frame (x0 : Nat) (x1 : Nat) (x2 : Nat) (s : State) :
    (switchEvent x0 x1 x2 s).sys = s.sys ∧ (switchEvent x0 x1 x2 s).em = s.em ∧ (switchEvent x0 x1 x2 s).tm = s.tm ∧
    (switchEvent x0 x1 x2 s).clk = s.clk ∧ (switchEvent x0 x1 x2 s).cfg = s.cfg ∧ (switchEvent x0 x1 x2 s).fh = s.fh ∧
    (switchEvent x0 x1 x2 s).dl = s.dl ∧ (switchEvent x0 x1 x2 s).ul = s.ul ∧ (switchEvent x0 x1 x2 s).bf = s.bf ∧
    (switchEvent x0 x1 x2 s).lin = s.lin ∧ (switchEvent x0 x1 x2 s).core = s.core ∧ (switchEvent x0 x1 x2 s).rf = s.rf ∧
    (switchEvent x0 x1 x2 s).bias = s.bias ∧ (switchEvent x0 x1 x2 s).hk = s.hk ∧ (switchEvent x0 x1 x2 s).pwr = s.pwr ∧
    (switchEvent x0 x1 x2 s).th = s.th ∧ (switchEvent x0 x1 x2 s).nvm = s.nvm ∧ (switchEvent x0 x1 x2 s).cal = s.cal ∧
    (switchEvent x0 x1 x2 s).ls = s.ls ∧ (switchEvent x0 x1 x2 s).rk = s.rk ∧ (switchEvent x0 x1 x2 s).test = s.test ∧
    (switchEvent x0 x1 x2 s).life = s.life ∧ (switchEvent x0 x1 x2 s).boot = s.boot ∧ (switchEvent x0 x1 x2 s).stat = s.stat ∧
    (switchEvent x0 x1 x2 s).fresh = s.fresh ∧ (switchEvent x0 x1 x2 s).pending = s.pending := by
  unfold switchEvent
  simp

@[simp] theorem switchTo_frame (x0 : Nat) (x1 : Nat) (s : State) :
    (switchTo x0 x1 s).sys = s.sys ∧ (switchTo x0 x1 s).em = s.em ∧ (switchTo x0 x1 s).tm = s.tm ∧
    (switchTo x0 x1 s).cfg = s.cfg ∧ (switchTo x0 x1 s).fh = s.fh ∧ (switchTo x0 x1 s).dl = s.dl ∧
    (switchTo x0 x1 s).ul = s.ul ∧ (switchTo x0 x1 s).bf = s.bf ∧ (switchTo x0 x1 s).lin = s.lin ∧
    (switchTo x0 x1 s).core = s.core ∧ (switchTo x0 x1 s).rf = s.rf ∧ (switchTo x0 x1 s).bias = s.bias ∧
    (switchTo x0 x1 s).hk = s.hk ∧ (switchTo x0 x1 s).pwr = s.pwr ∧ (switchTo x0 x1 s).th = s.th ∧
    (switchTo x0 x1 s).nvm = s.nvm ∧ (switchTo x0 x1 s).cal = s.cal ∧ (switchTo x0 x1 s).ls = s.ls ∧
    (switchTo x0 x1 s).rk = s.rk ∧ (switchTo x0 x1 s).test = s.test ∧ (switchTo x0 x1 s).life = s.life ∧
    (switchTo x0 x1 s).boot = s.boot ∧ (switchTo x0 x1 s).stat = s.stat ∧ (switchTo x0 x1 s).fresh = s.fresh ∧
    (switchTo x0 x1 s).pending = s.pending := by
  unfold switchTo
  simp

@[simp] theorem resumeTiles_frame (x0 : BitVec 4) (s : State) :
    (resumeTiles x0 s).ph = s.ph ∧ (resumeTiles x0 s).ev = s.ev ∧ (resumeTiles x0 s).sys = s.sys ∧
    (resumeTiles x0 s).em = s.em ∧ (resumeTiles x0 s).tm = s.tm ∧ (resumeTiles x0 s).clk = s.clk ∧
    (resumeTiles x0 s).cfg = s.cfg ∧ (resumeTiles x0 s).fh = s.fh ∧ (resumeTiles x0 s).ul = s.ul ∧
    (resumeTiles x0 s).bf = s.bf ∧ (resumeTiles x0 s).lin = s.lin ∧ (resumeTiles x0 s).core = s.core ∧
    (resumeTiles x0 s).bias = s.bias ∧ (resumeTiles x0 s).hk = s.hk ∧ (resumeTiles x0 s).pwr = s.pwr ∧
    (resumeTiles x0 s).th = s.th ∧ (resumeTiles x0 s).nvm = s.nvm ∧ (resumeTiles x0 s).cal = s.cal ∧
    (resumeTiles x0 s).ls = s.ls ∧ (resumeTiles x0 s).rk = s.rk ∧ (resumeTiles x0 s).test = s.test ∧
    (resumeTiles x0 s).life = s.life ∧ (resumeTiles x0 s).boot = s.boot ∧ (resumeTiles x0 s).stat = s.stat ∧
    (resumeTiles x0 s).out = s.out ∧ (resumeTiles x0 s).fresh = s.fresh ∧ (resumeTiles x0 s).pending = s.pending := by
  unfold resumeTiles
  simp

@[simp] theorem frcWord_frame (s : State) :
    (frcWord s).ph = s.ph ∧ (frcWord s).ev = s.ev ∧ (frcWord s).sys = s.sys ∧ (frcWord s).em = s.em ∧ (frcWord s).tm = s.tm ∧
    (frcWord s).cfg = s.cfg ∧ (frcWord s).fh = s.fh ∧ (frcWord s).dl = s.dl ∧ (frcWord s).ul = s.ul ∧ (frcWord s).bf = s.bf ∧
    (frcWord s).lin = s.lin ∧ (frcWord s).core = s.core ∧ (frcWord s).rf = s.rf ∧ (frcWord s).bias = s.bias ∧
    (frcWord s).hk = s.hk ∧ (frcWord s).pwr = s.pwr ∧ (frcWord s).th = s.th ∧ (frcWord s).nvm = s.nvm ∧
    (frcWord s).cal = s.cal ∧ (frcWord s).ls = s.ls ∧ (frcWord s).rk = s.rk ∧ (frcWord s).test = s.test ∧
    (frcWord s).life = s.life ∧ (frcWord s).boot = s.boot ∧ (frcWord s).stat = s.stat ∧ (frcWord s).out = s.out ∧
    (frcWord s).pending = s.pending := by
  unfold frcWord
  simp

@[simp] theorem startBridge_frame (s : State) :
    (startBridge s).sys = s.sys ∧ (startBridge s).em = s.em ∧ (startBridge s).tm = s.tm ∧ (startBridge s).cfg = s.cfg ∧
    (startBridge s).fh = s.fh ∧ (startBridge s).ul = s.ul ∧ (startBridge s).bf = s.bf ∧ (startBridge s).core = s.core ∧
    (startBridge s).bias = s.bias ∧ (startBridge s).hk = s.hk ∧ (startBridge s).pwr = s.pwr ∧ (startBridge s).th = s.th ∧
    (startBridge s).nvm = s.nvm ∧ (startBridge s).cal = s.cal ∧ (startBridge s).test = s.test ∧
    (startBridge s).life = s.life ∧ (startBridge s).boot = s.boot ∧ (startBridge s).pending = s.pending := by
  unfold startBridge
  simp

@[simp] theorem endBridge_frame (s : State) :
    (endBridge s).ph = s.ph ∧ (endBridge s).ev = s.ev ∧ (endBridge s).sys = s.sys ∧ (endBridge s).em = s.em ∧
    (endBridge s).tm = s.tm ∧ (endBridge s).clk = s.clk ∧ (endBridge s).cfg = s.cfg ∧ (endBridge s).fh = s.fh ∧
    (endBridge s).bf = s.bf ∧ (endBridge s).lin = s.lin ∧ (endBridge s).core = s.core ∧ (endBridge s).bias = s.bias ∧
    (endBridge s).hk = s.hk ∧ (endBridge s).pwr = s.pwr ∧ (endBridge s).th = s.th ∧ (endBridge s).nvm = s.nvm ∧
    (endBridge s).cal = s.cal ∧ (endBridge s).ls = s.ls ∧ (endBridge s).rk = s.rk ∧ (endBridge s).test = s.test ∧
    (endBridge s).life = s.life ∧ (endBridge s).boot = s.boot ∧ (endBridge s).stat = s.stat ∧ (endBridge s).out = s.out ∧
    (endBridge s).fresh = s.fresh ∧ (endBridge s).pending = s.pending := by
  unfold endBridge
  simp

@[simp] theorem frcOnly_frame (s : State) :
    (frcOnly s).sys = s.sys ∧ (frcOnly s).life = s.life ∧ (frcOnly s).boot = s.boot ∧ (frcOnly s).pending = s.pending := by
  unfold frcOnly
  simp

@[simp] theorem fallback_frame (x0 : Nat) (x1 : Nat) (x2 : Int) (s : State) :
    (fallback x0 x1 x2 s).sys = s.sys ∧ (fallback x0 x1 x2 s).life = s.life ∧ (fallback x0 x1 x2 s).boot = s.boot ∧
    (fallback x0 x1 x2 s).pending = s.pending := by
  unfold fallback
  simp

@[simp] theorem tripOsc_frame (x0 : Nat) (x1 : Nat) (x2 : Int) (s : State) :
    (tripOsc x0 x1 x2 s).sys = s.sys ∧ (tripOsc x0 x1 x2 s).life = s.life ∧ (tripOsc x0 x1 x2 s).boot = s.boot ∧
    (tripOsc x0 x1 x2 s).pending = s.pending := by
  unfold tripOsc
  simp

@[simp] theorem searchTry_frame (x0 : Nat) (x1 : Nat) (s : State) :
    (searchTry x0 x1 s).ph = s.ph ∧ (searchTry x0 x1 s).ev = s.ev ∧ (searchTry x0 x1 s).sys = s.sys ∧
    (searchTry x0 x1 s).em = s.em ∧ (searchTry x0 x1 s).tm = s.tm ∧ (searchTry x0 x1 s).cfg = s.cfg ∧
    (searchTry x0 x1 s).fh = s.fh ∧ (searchTry x0 x1 s).dl = s.dl ∧ (searchTry x0 x1 s).ul = s.ul ∧
    (searchTry x0 x1 s).bf = s.bf ∧ (searchTry x0 x1 s).lin = s.lin ∧ (searchTry x0 x1 s).core = s.core ∧
    (searchTry x0 x1 s).rf = s.rf ∧ (searchTry x0 x1 s).bias = s.bias ∧ (searchTry x0 x1 s).hk = s.hk ∧
    (searchTry x0 x1 s).pwr = s.pwr ∧ (searchTry x0 x1 s).th = s.th ∧ (searchTry x0 x1 s).nvm = s.nvm ∧
    (searchTry x0 x1 s).cal = s.cal ∧ (searchTry x0 x1 s).ls = s.ls ∧ (searchTry x0 x1 s).rk = s.rk ∧
    (searchTry x0 x1 s).test = s.test ∧ (searchTry x0 x1 s).life = s.life ∧ (searchTry x0 x1 s).boot = s.boot ∧
    (searchTry x0 x1 s).stat = s.stat ∧ (searchTry x0 x1 s).out = s.out ∧ (searchTry x0 x1 s).pending = s.pending := by
  unfold searchTry
  simp

@[simp] theorem oscWrite_frame (x0 : List Byte) (x1 : Nat) (s : State) :
    (oscWrite x0 x1 s).sys = s.sys ∧ (oscWrite x0 x1 s).em = s.em ∧ (oscWrite x0 x1 s).tm = s.tm ∧
    (oscWrite x0 x1 s).cfg = s.cfg ∧ (oscWrite x0 x1 s).fh = s.fh ∧ (oscWrite x0 x1 s).dl = s.dl ∧
    (oscWrite x0 x1 s).ul = s.ul ∧ (oscWrite x0 x1 s).bf = s.bf ∧ (oscWrite x0 x1 s).lin = s.lin ∧
    (oscWrite x0 x1 s).core = s.core ∧ (oscWrite x0 x1 s).rf = s.rf ∧ (oscWrite x0 x1 s).bias = s.bias ∧
    (oscWrite x0 x1 s).hk = s.hk ∧ (oscWrite x0 x1 s).pwr = s.pwr ∧ (oscWrite x0 x1 s).th = s.th ∧
    (oscWrite x0 x1 s).nvm = s.nvm ∧ (oscWrite x0 x1 s).cal = s.cal ∧ (oscWrite x0 x1 s).ls = s.ls ∧
    (oscWrite x0 x1 s).rk = s.rk ∧ (oscWrite x0 x1 s).test = s.test ∧ (oscWrite x0 x1 s).life = s.life ∧
    (oscWrite x0 x1 s).boot = s.boot ∧ (oscWrite x0 x1 s).stat = s.stat ∧ (oscWrite x0 x1 s).fresh = s.fresh ∧
    (oscWrite x0 x1 s).pending = s.pending := by
  unfold oscWrite
  simp

@[simp] theorem inputWrite_frame (x0 : List Byte) (s : State) :
    (inputWrite x0 s).sys = s.sys ∧ (inputWrite x0 s).em = s.em ∧ (inputWrite x0 s).tm = s.tm ∧
    (inputWrite x0 s).cfg = s.cfg ∧ (inputWrite x0 s).fh = s.fh ∧ (inputWrite x0 s).dl = s.dl ∧ (inputWrite x0 s).ul = s.ul ∧
    (inputWrite x0 s).bf = s.bf ∧ (inputWrite x0 s).lin = s.lin ∧ (inputWrite x0 s).core = s.core ∧
    (inputWrite x0 s).rf = s.rf ∧ (inputWrite x0 s).bias = s.bias ∧ (inputWrite x0 s).hk = s.hk ∧
    (inputWrite x0 s).pwr = s.pwr ∧ (inputWrite x0 s).th = s.th ∧ (inputWrite x0 s).nvm = s.nvm ∧
    (inputWrite x0 s).cal = s.cal ∧ (inputWrite x0 s).ls = s.ls ∧ (inputWrite x0 s).rk = s.rk ∧
    (inputWrite x0 s).test = s.test ∧ (inputWrite x0 s).life = s.life ∧ (inputWrite x0 s).boot = s.boot ∧
    (inputWrite x0 s).stat = s.stat ∧ (inputWrite x0 s).pending = s.pending := by
  unfold inputWrite
  simp

@[simp] theorem minimumQl_frame (x0 : State) (s : State) :
    (minimumQl x0 s).sys = s.sys ∧ (minimumQl x0 s).em = s.em ∧ (minimumQl x0 s).tm = s.tm ∧ (minimumQl x0 s).cfg = s.cfg ∧
    (minimumQl x0 s).fh = s.fh ∧ (minimumQl x0 s).dl = s.dl ∧ (minimumQl x0 s).ul = s.ul ∧ (minimumQl x0 s).bf = s.bf ∧
    (minimumQl x0 s).lin = s.lin ∧ (minimumQl x0 s).core = s.core ∧ (minimumQl x0 s).rf = s.rf ∧
    (minimumQl x0 s).bias = s.bias ∧ (minimumQl x0 s).hk = s.hk ∧ (minimumQl x0 s).pwr = s.pwr ∧ (minimumQl x0 s).th = s.th ∧
    (minimumQl x0 s).nvm = s.nvm ∧ (minimumQl x0 s).cal = s.cal ∧ (minimumQl x0 s).ls = s.ls ∧ (minimumQl x0 s).rk = s.rk ∧
    (minimumQl x0 s).test = s.test ∧ (minimumQl x0 s).life = s.life ∧ (minimumQl x0 s).boot = s.boot ∧
    (minimumQl x0 s).stat = s.stat ∧ (minimumQl x0 s).pending = s.pending := by
  unfold minimumQl
  simp

@[simp] theorem completeCapture_frame (x0 : Capturing) (x1 : OrxRun) (s : State) :
    (completeCapture x0 x1 s).sys = s.sys ∧ (completeCapture x0 x1 s).em = s.em ∧ (completeCapture x0 x1 s).tm = s.tm ∧
    (completeCapture x0 x1 s).clk = s.clk ∧ (completeCapture x0 x1 s).cfg = s.cfg ∧ (completeCapture x0 x1 s).fh = s.fh ∧
    (completeCapture x0 x1 s).dl = s.dl ∧ (completeCapture x0 x1 s).ul = s.ul ∧ (completeCapture x0 x1 s).bf = s.bf ∧
    (completeCapture x0 x1 s).core = s.core ∧ (completeCapture x0 x1 s).bias = s.bias ∧ (completeCapture x0 x1 s).hk = s.hk ∧
    (completeCapture x0 x1 s).pwr = s.pwr ∧ (completeCapture x0 x1 s).th = s.th ∧ (completeCapture x0 x1 s).nvm = s.nvm ∧
    (completeCapture x0 x1 s).cal = s.cal ∧ (completeCapture x0 x1 s).test = s.test ∧
    (completeCapture x0 x1 s).life = s.life ∧ (completeCapture x0 x1 s).boot = s.boot ∧
    (completeCapture x0 x1 s).fresh = s.fresh ∧ (completeCapture x0 x1 s).pending = s.pending := by
  unfold completeCapture
  repeat' (first | (simp; done) | (simp only [takeFree]) | split | (dsimp only))

@[simp] theorem skipCapture_frame (x0 : Capturing) (s : State) :
    (skipCapture x0 s).ph = s.ph ∧ (skipCapture x0 s).ev = s.ev ∧ (skipCapture x0 s).sys = s.sys ∧
    (skipCapture x0 s).em = s.em ∧ (skipCapture x0 s).tm = s.tm ∧ (skipCapture x0 s).clk = s.clk ∧
    (skipCapture x0 s).cfg = s.cfg ∧ (skipCapture x0 s).fh = s.fh ∧ (skipCapture x0 s).dl = s.dl ∧
    (skipCapture x0 s).ul = s.ul ∧ (skipCapture x0 s).bf = s.bf ∧ (skipCapture x0 s).core = s.core ∧
    (skipCapture x0 s).rf = s.rf ∧ (skipCapture x0 s).bias = s.bias ∧ (skipCapture x0 s).hk = s.hk ∧
    (skipCapture x0 s).pwr = s.pwr ∧ (skipCapture x0 s).th = s.th ∧ (skipCapture x0 s).nvm = s.nvm ∧
    (skipCapture x0 s).cal = s.cal ∧ (skipCapture x0 s).rk = s.rk ∧ (skipCapture x0 s).test = s.test ∧
    (skipCapture x0 s).life = s.life ∧ (skipCapture x0 s).boot = s.boot ∧ (skipCapture x0 s).out = s.out ∧
    (skipCapture x0 s).fresh = s.fresh ∧ (skipCapture x0 s).pending = s.pending := by
  unfold skipCapture
  simp

@[simp] theorem startCapture_frame (x0 : Capturing) (s : State) :
    (startCapture x0 s).sys = s.sys ∧ (startCapture x0 s).em = s.em ∧ (startCapture x0 s).tm = s.tm ∧
    (startCapture x0 s).clk = s.clk ∧ (startCapture x0 s).cfg = s.cfg ∧ (startCapture x0 s).fh = s.fh ∧
    (startCapture x0 s).dl = s.dl ∧ (startCapture x0 s).ul = s.ul ∧ (startCapture x0 s).bf = s.bf ∧
    (startCapture x0 s).core = s.core ∧ (startCapture x0 s).bias = s.bias ∧ (startCapture x0 s).hk = s.hk ∧
    (startCapture x0 s).pwr = s.pwr ∧ (startCapture x0 s).th = s.th ∧ (startCapture x0 s).nvm = s.nvm ∧
    (startCapture x0 s).cal = s.cal ∧ (startCapture x0 s).test = s.test ∧ (startCapture x0 s).life = s.life ∧
    (startCapture x0 s).boot = s.boot ∧ (startCapture x0 s).fresh = s.fresh ∧ (startCapture x0 s).pending = s.pending := by
  unfold startCapture
  simp

@[simp] theorem decideCapture_frame (x0 : Capturing) (x1 : Nat) (x2 : Bool) (s : State) :
    (decideCapture x0 x1 x2 s).sys = s.sys ∧ (decideCapture x0 x1 x2 s).em = s.em ∧ (decideCapture x0 x1 x2 s).tm = s.tm ∧
    (decideCapture x0 x1 x2 s).clk = s.clk ∧ (decideCapture x0 x1 x2 s).cfg = s.cfg ∧ (decideCapture x0 x1 x2 s).fh = s.fh ∧
    (decideCapture x0 x1 x2 s).dl = s.dl ∧ (decideCapture x0 x1 x2 s).ul = s.ul ∧ (decideCapture x0 x1 x2 s).bf = s.bf ∧
    (decideCapture x0 x1 x2 s).core = s.core ∧ (decideCapture x0 x1 x2 s).bias = s.bias ∧
    (decideCapture x0 x1 x2 s).hk = s.hk ∧ (decideCapture x0 x1 x2 s).pwr = s.pwr ∧ (decideCapture x0 x1 x2 s).th = s.th ∧
    (decideCapture x0 x1 x2 s).nvm = s.nvm ∧ (decideCapture x0 x1 x2 s).cal = s.cal ∧
    (decideCapture x0 x1 x2 s).test = s.test ∧ (decideCapture x0 x1 x2 s).life = s.life ∧
    (decideCapture x0 x1 x2 s).boot = s.boot ∧ (decideCapture x0 x1 x2 s).fresh = s.fresh ∧
    (decideCapture x0 x1 x2 s).pending = s.pending := by
  unfold decideCapture
  simp

@[simp] theorem queueRecord_frame (x0 : Nat) (x1 : List Byte) (x2 : Option Asker) (s : State) :
    (queueRecord x0 x1 x2 s).ph = s.ph ∧ (queueRecord x0 x1 x2 s).ev = s.ev ∧ (queueRecord x0 x1 x2 s).sys = s.sys ∧
    (queueRecord x0 x1 x2 s).em = s.em ∧ (queueRecord x0 x1 x2 s).tm = s.tm ∧ (queueRecord x0 x1 x2 s).clk = s.clk ∧
    (queueRecord x0 x1 x2 s).cfg = s.cfg ∧ (queueRecord x0 x1 x2 s).fh = s.fh ∧ (queueRecord x0 x1 x2 s).dl = s.dl ∧
    (queueRecord x0 x1 x2 s).ul = s.ul ∧ (queueRecord x0 x1 x2 s).bf = s.bf ∧ (queueRecord x0 x1 x2 s).lin = s.lin ∧
    (queueRecord x0 x1 x2 s).core = s.core ∧ (queueRecord x0 x1 x2 s).rf = s.rf ∧ (queueRecord x0 x1 x2 s).bias = s.bias ∧
    (queueRecord x0 x1 x2 s).hk = s.hk ∧ (queueRecord x0 x1 x2 s).pwr = s.pwr ∧ (queueRecord x0 x1 x2 s).th = s.th ∧
    (queueRecord x0 x1 x2 s).cal = s.cal ∧ (queueRecord x0 x1 x2 s).ls = s.ls ∧ (queueRecord x0 x1 x2 s).rk = s.rk ∧
    (queueRecord x0 x1 x2 s).test = s.test ∧ (queueRecord x0 x1 x2 s).life = s.life ∧ (queueRecord x0 x1 x2 s).boot = s.boot ∧
    (queueRecord x0 x1 x2 s).stat = s.stat ∧ (queueRecord x0 x1 x2 s).out = s.out ∧ (queueRecord x0 x1 x2 s).fresh = s.fresh ∧
    (queueRecord x0 x1 x2 s).pending = s.pending := by
  unfold queueRecord
  simp

@[simp] theorem recordEffect_frame (x0 : Nat) (x1 : List Byte) (s : State) :
    (recordEffect x0 x1 s).ph = s.ph ∧ (recordEffect x0 x1 s).ev = s.ev ∧ (recordEffect x0 x1 s).sys = s.sys ∧
    (recordEffect x0 x1 s).em = s.em ∧ (recordEffect x0 x1 s).tm = s.tm ∧ (recordEffect x0 x1 s).clk = s.clk ∧
    (recordEffect x0 x1 s).cfg = s.cfg ∧ (recordEffect x0 x1 s).fh = s.fh ∧ (recordEffect x0 x1 s).dl = s.dl ∧
    (recordEffect x0 x1 s).ul = s.ul ∧ (recordEffect x0 x1 s).bf = s.bf ∧ (recordEffect x0 x1 s).lin = s.lin ∧
    (recordEffect x0 x1 s).core = s.core ∧ (recordEffect x0 x1 s).rf = s.rf ∧ (recordEffect x0 x1 s).hk = s.hk ∧
    (recordEffect x0 x1 s).pwr = s.pwr ∧ (recordEffect x0 x1 s).th = s.th ∧ (recordEffect x0 x1 s).cal = s.cal ∧
    (recordEffect x0 x1 s).ls = s.ls ∧ (recordEffect x0 x1 s).rk = s.rk ∧ (recordEffect x0 x1 s).test = s.test ∧
    (recordEffect x0 x1 s).life = s.life ∧ (recordEffect x0 x1 s).boot = s.boot ∧ (recordEffect x0 x1 s).stat = s.stat ∧
    (recordEffect x0 x1 s).out = s.out ∧ (recordEffect x0 x1 s).fresh = s.fresh ∧
    (recordEffect x0 x1 s).pending = s.pending := by
  unfold recordEffect
  simp

@[simp] theorem answerJob_frame (x0 : NvmJob) (x1 : Nat) (x2 : List Byte) (s : State) :
    (answerJob x0 x1 x2 s).sys = s.sys ∧ (answerJob x0 x1 x2 s).em = s.em ∧ (answerJob x0 x1 x2 s).tm = s.tm ∧
    (answerJob x0 x1 x2 s).clk = s.clk ∧ (answerJob x0 x1 x2 s).cfg = s.cfg ∧ (answerJob x0 x1 x2 s).fh = s.fh ∧
    (answerJob x0 x1 x2 s).dl = s.dl ∧ (answerJob x0 x1 x2 s).ul = s.ul ∧ (answerJob x0 x1 x2 s).bf = s.bf ∧
    (answerJob x0 x1 x2 s).lin = s.lin ∧ (answerJob x0 x1 x2 s).core = s.core ∧ (answerJob x0 x1 x2 s).rf = s.rf ∧
    (answerJob x0 x1 x2 s).bias = s.bias ∧ (answerJob x0 x1 x2 s).hk = s.hk ∧ (answerJob x0 x1 x2 s).pwr = s.pwr ∧
    (answerJob x0 x1 x2 s).th = s.th ∧ (answerJob x0 x1 x2 s).cal = s.cal ∧ (answerJob x0 x1 x2 s).ls = s.ls ∧
    (answerJob x0 x1 x2 s).rk = s.rk ∧ (answerJob x0 x1 x2 s).test = s.test ∧ (answerJob x0 x1 x2 s).life = s.life ∧
    (answerJob x0 x1 x2 s).boot = s.boot ∧ (answerJob x0 x1 x2 s).stat = s.stat ∧ (answerJob x0 x1 x2 s).fresh = s.fresh ∧
    (answerJob x0 x1 x2 s).pending = s.pending := by
  unfold answerJob
  repeat' (first | (simp; done) | (simp only [takeFree]) | split | (dsimp only))

@[simp] theorem jobDone_frame (x0 : NvmJob) (x1 : List NvmJob) (s : State) :
    (jobDone x0 x1 s).sys = s.sys ∧ (jobDone x0 x1 s).em = s.em ∧ (jobDone x0 x1 s).tm = s.tm ∧
    (jobDone x0 x1 s).clk = s.clk ∧ (jobDone x0 x1 s).cfg = s.cfg ∧ (jobDone x0 x1 s).fh = s.fh ∧
    (jobDone x0 x1 s).dl = s.dl ∧ (jobDone x0 x1 s).ul = s.ul ∧ (jobDone x0 x1 s).bf = s.bf ∧ (jobDone x0 x1 s).lin = s.lin ∧
    (jobDone x0 x1 s).core = s.core ∧ (jobDone x0 x1 s).rf = s.rf ∧ (jobDone x0 x1 s).hk = s.hk ∧
    (jobDone x0 x1 s).pwr = s.pwr ∧ (jobDone x0 x1 s).th = s.th ∧ (jobDone x0 x1 s).cal = s.cal ∧
    (jobDone x0 x1 s).ls = s.ls ∧ (jobDone x0 x1 s).rk = s.rk ∧ (jobDone x0 x1 s).test = s.test ∧
    (jobDone x0 x1 s).life = s.life ∧ (jobDone x0 x1 s).boot = s.boot ∧ (jobDone x0 x1 s).stat = s.stat ∧
    (jobDone x0 x1 s).fresh = s.fresh ∧ (jobDone x0 x1 s).pending = s.pending := by
  unfold jobDone
  simp

@[simp] theorem writeWords_frame (x0 : NvmJob) (x1 : List NvmJob) (x2 : Nat) (s : State) :
    (writeWords x0 x1 x2 s).sys = s.sys ∧ (writeWords x0 x1 x2 s).em = s.em ∧ (writeWords x0 x1 x2 s).tm = s.tm ∧
    (writeWords x0 x1 x2 s).clk = s.clk ∧ (writeWords x0 x1 x2 s).cfg = s.cfg ∧ (writeWords x0 x1 x2 s).fh = s.fh ∧
    (writeWords x0 x1 x2 s).dl = s.dl ∧ (writeWords x0 x1 x2 s).ul = s.ul ∧ (writeWords x0 x1 x2 s).bf = s.bf ∧
    (writeWords x0 x1 x2 s).lin = s.lin ∧ (writeWords x0 x1 x2 s).core = s.core ∧ (writeWords x0 x1 x2 s).rf = s.rf ∧
    (writeWords x0 x1 x2 s).hk = s.hk ∧ (writeWords x0 x1 x2 s).pwr = s.pwr ∧ (writeWords x0 x1 x2 s).th = s.th ∧
    (writeWords x0 x1 x2 s).cal = s.cal ∧ (writeWords x0 x1 x2 s).rk = s.rk ∧ (writeWords x0 x1 x2 s).test = s.test ∧
    (writeWords x0 x1 x2 s).life = s.life ∧ (writeWords x0 x1 x2 s).boot = s.boot ∧ (writeWords x0 x1 x2 s).stat = s.stat ∧
    (writeWords x0 x1 x2 s).fresh = s.fresh ∧ (writeWords x0 x1 x2 s).pending = s.pending := by
  unfold writeWords
  simp

@[simp] theorem finishWrites_frame (id : Nat) (self : Bool) (l : List NvmJob) (s : State) :
    (finishWrites id self l s).sys = s.sys ∧ (finishWrites id self l s).em = s.em ∧ (finishWrites id self l s).tm = s.tm ∧
    (finishWrites id self l s).clk = s.clk ∧ (finishWrites id self l s).cfg = s.cfg ∧ (finishWrites id self l s).fh = s.fh ∧
    (finishWrites id self l s).dl = s.dl ∧ (finishWrites id self l s).ul = s.ul ∧ (finishWrites id self l s).bf = s.bf ∧
    (finishWrites id self l s).lin = s.lin ∧ (finishWrites id self l s).core = s.core ∧ (finishWrites id self l s).rf = s.rf ∧
    (finishWrites id self l s).hk = s.hk ∧ (finishWrites id self l s).pwr = s.pwr ∧ (finishWrites id self l s).th = s.th ∧
    (finishWrites id self l s).cal = s.cal ∧ (finishWrites id self l s).rk = s.rk ∧ (finishWrites id self l s).test = s.test ∧
    (finishWrites id self l s).life = s.life ∧ (finishWrites id self l s).boot = s.boot ∧
    (finishWrites id self l s).stat = s.stat ∧ (finishWrites id self l s).fresh = s.fresh ∧
    (finishWrites id self l s).pending = s.pending := by
  induction l generalizing s <;> simp only [finishWrites] <;> (repeat' split) <;> simp_all

@[simp] theorem patchWrite_frame (x0 : Nat) (x1 : List Byte) (s : State) :
    (patchWrite x0 x1 s).ph = s.ph ∧ (patchWrite x0 x1 s).ev = s.ev ∧ (patchWrite x0 x1 s).sys = s.sys ∧
    (patchWrite x0 x1 s).em = s.em ∧ (patchWrite x0 x1 s).tm = s.tm ∧ (patchWrite x0 x1 s).clk = s.clk ∧
    (patchWrite x0 x1 s).cfg = s.cfg ∧ (patchWrite x0 x1 s).fh = s.fh ∧ (patchWrite x0 x1 s).dl = s.dl ∧
    (patchWrite x0 x1 s).ul = s.ul ∧ (patchWrite x0 x1 s).bf = s.bf ∧ (patchWrite x0 x1 s).lin = s.lin ∧
    (patchWrite x0 x1 s).core = s.core ∧ (patchWrite x0 x1 s).rf = s.rf ∧ (patchWrite x0 x1 s).bias = s.bias ∧
    (patchWrite x0 x1 s).hk = s.hk ∧ (patchWrite x0 x1 s).pwr = s.pwr ∧ (patchWrite x0 x1 s).th = s.th ∧
    (patchWrite x0 x1 s).cal = s.cal ∧ (patchWrite x0 x1 s).rk = s.rk ∧ (patchWrite x0 x1 s).test = s.test ∧
    (patchWrite x0 x1 s).life = s.life ∧ (patchWrite x0 x1 s).boot = s.boot ∧ (patchWrite x0 x1 s).stat = s.stat ∧
    (patchWrite x0 x1 s).out = s.out ∧ (patchWrite x0 x1 s).fresh = s.fresh ∧ (patchWrite x0 x1 s).pending = s.pending := by
  unfold patchWrite
  repeat' (first | (simp; done) | (simp only [takeFree]) | split | (dsimp only))

@[simp] theorem queuePersists_frame (s : State) :
    (queuePersists s).ph = s.ph ∧ (queuePersists s).ev = s.ev ∧ (queuePersists s).sys = s.sys ∧ (queuePersists s).em = s.em ∧
    (queuePersists s).tm = s.tm ∧ (queuePersists s).clk = s.clk ∧ (queuePersists s).cfg = s.cfg ∧
    (queuePersists s).fh = s.fh ∧ (queuePersists s).dl = s.dl ∧ (queuePersists s).ul = s.ul ∧ (queuePersists s).bf = s.bf ∧
    (queuePersists s).lin = s.lin ∧ (queuePersists s).core = s.core ∧ (queuePersists s).rf = s.rf ∧
    (queuePersists s).bias = s.bias ∧ (queuePersists s).hk = s.hk ∧ (queuePersists s).pwr = s.pwr ∧
    (queuePersists s).th = s.th ∧ (queuePersists s).cal = s.cal ∧ (queuePersists s).ls = s.ls ∧ (queuePersists s).rk = s.rk ∧
    (queuePersists s).test = s.test ∧ (queuePersists s).life = s.life ∧ (queuePersists s).boot = s.boot ∧
    (queuePersists s).stat = s.stat ∧ (queuePersists s).out = s.out ∧ (queuePersists s).fresh = s.fresh ∧
    (queuePersists s).pending = s.pending := by
  unfold queuePersists
  simp

@[simp] theorem patchStep_frame (s : State) :
    (patchStep s).ph = s.ph ∧ (patchStep s).ev = s.ev ∧ (patchStep s).sys = s.sys ∧ (patchStep s).em = s.em ∧
    (patchStep s).tm = s.tm ∧ (patchStep s).clk = s.clk ∧ (patchStep s).cfg = s.cfg ∧ (patchStep s).fh = s.fh ∧
    (patchStep s).dl = s.dl ∧ (patchStep s).ul = s.ul ∧ (patchStep s).bf = s.bf ∧ (patchStep s).lin = s.lin ∧
    (patchStep s).core = s.core ∧ (patchStep s).rf = s.rf ∧ (patchStep s).bias = s.bias ∧ (patchStep s).hk = s.hk ∧
    (patchStep s).pwr = s.pwr ∧ (patchStep s).th = s.th ∧ (patchStep s).cal = s.cal ∧ (patchStep s).rk = s.rk ∧
    (patchStep s).test = s.test ∧ (patchStep s).life = s.life ∧ (patchStep s).boot = s.boot ∧ (patchStep s).stat = s.stat ∧
    (patchStep s).out = s.out ∧ (patchStep s).fresh = s.fresh ∧ (patchStep s).pending = s.pending := by
  unfold patchStep
  repeat' (first | (simp; done) | (simp only [takeFree]) | split | (dsimp only))

@[simp] theorem writeStep_frame (s : State) :
    (writeStep s).sys = s.sys ∧ (writeStep s).em = s.em ∧ (writeStep s).tm = s.tm ∧ (writeStep s).clk = s.clk ∧
    (writeStep s).cfg = s.cfg ∧ (writeStep s).fh = s.fh ∧ (writeStep s).dl = s.dl ∧ (writeStep s).ul = s.ul ∧
    (writeStep s).bf = s.bf ∧ (writeStep s).lin = s.lin ∧ (writeStep s).core = s.core ∧ (writeStep s).rf = s.rf ∧
    (writeStep s).hk = s.hk ∧ (writeStep s).pwr = s.pwr ∧ (writeStep s).th = s.th ∧ (writeStep s).cal = s.cal ∧
    (writeStep s).rk = s.rk ∧ (writeStep s).test = s.test ∧ (writeStep s).life = s.life ∧ (writeStep s).boot = s.boot ∧
    (writeStep s).stat = s.stat ∧ (writeStep s).fresh = s.fresh ∧ (writeStep s).pending = s.pending := by
  unfold writeStep
  repeat' (first | (simp; done) | (simp only [takeFree]) | split | (dsimp only))

@[simp] theorem revokeStep_frame (s : State) :
    (revokeStep s).sys = s.sys ∧ (revokeStep s).em = s.em ∧ (revokeStep s).clk = s.clk ∧ (revokeStep s).cfg = s.cfg ∧
    (revokeStep s).fh = s.fh ∧ (revokeStep s).dl = s.dl ∧ (revokeStep s).ul = s.ul ∧ (revokeStep s).core = s.core ∧
    (revokeStep s).bias = s.bias ∧ (revokeStep s).pwr = s.pwr ∧ (revokeStep s).th = s.th ∧ (revokeStep s).cal = s.cal ∧
    (revokeStep s).test = s.test ∧ (revokeStep s).life = s.life ∧ (revokeStep s).boot = s.boot ∧
    (revokeStep s).fresh = s.fresh ∧ (revokeStep s).pending = s.pending := by
  unfold revokeStep
  simp

@[simp] theorem calStore_frame (x0 : Nat) (x1 : Bool) (x2 : Bool) (s : State) :
    (calStore x0 x1 x2 s).sys = s.sys ∧ (calStore x0 x1 x2 s).em = s.em ∧ (calStore x0 x1 x2 s).tm = s.tm ∧
    (calStore x0 x1 x2 s).clk = s.clk ∧ (calStore x0 x1 x2 s).cfg = s.cfg ∧ (calStore x0 x1 x2 s).fh = s.fh ∧
    (calStore x0 x1 x2 s).dl = s.dl ∧ (calStore x0 x1 x2 s).ul = s.ul ∧ (calStore x0 x1 x2 s).bf = s.bf ∧
    (calStore x0 x1 x2 s).lin = s.lin ∧ (calStore x0 x1 x2 s).core = s.core ∧ (calStore x0 x1 x2 s).rf = s.rf ∧
    (calStore x0 x1 x2 s).hk = s.hk ∧ (calStore x0 x1 x2 s).pwr = s.pwr ∧ (calStore x0 x1 x2 s).th = s.th ∧
    (calStore x0 x1 x2 s).cal = s.cal ∧ (calStore x0 x1 x2 s).rk = s.rk ∧ (calStore x0 x1 x2 s).test = s.test ∧
    (calStore x0 x1 x2 s).life = s.life ∧ (calStore x0 x1 x2 s).boot = s.boot ∧ (calStore x0 x1 x2 s).stat = s.stat ∧
    (calStore x0 x1 x2 s).fresh = s.fresh ∧ (calStore x0 x1 x2 s).pending = s.pending := by
  unfold calStore
  repeat' (first | (simp; done) | (simp only [takeFree]) | split | (dsimp only))

@[simp] theorem calReject_frame (x0 : Nat) (x1 : Nat) (x2 : Nat) (x3 : Nat) (s : State) :
    (calReject x0 x1 x2 x3 s).sys = s.sys ∧ (calReject x0 x1 x2 x3 s).em = s.em ∧ (calReject x0 x1 x2 x3 s).tm = s.tm ∧
    (calReject x0 x1 x2 x3 s).clk = s.clk ∧ (calReject x0 x1 x2 x3 s).cfg = s.cfg ∧ (calReject x0 x1 x2 x3 s).fh = s.fh ∧
    (calReject x0 x1 x2 x3 s).dl = s.dl ∧ (calReject x0 x1 x2 x3 s).ul = s.ul ∧ (calReject x0 x1 x2 x3 s).bf = s.bf ∧
    (calReject x0 x1 x2 x3 s).lin = s.lin ∧ (calReject x0 x1 x2 x3 s).core = s.core ∧ (calReject x0 x1 x2 x3 s).rf = s.rf ∧
    (calReject x0 x1 x2 x3 s).bias = s.bias ∧ (calReject x0 x1 x2 x3 s).hk = s.hk ∧ (calReject x0 x1 x2 x3 s).pwr = s.pwr ∧
    (calReject x0 x1 x2 x3 s).th = s.th ∧ (calReject x0 x1 x2 x3 s).cal = s.cal ∧ (calReject x0 x1 x2 x3 s).rk = s.rk ∧
    (calReject x0 x1 x2 x3 s).test = s.test ∧ (calReject x0 x1 x2 x3 s).life = s.life ∧
    (calReject x0 x1 x2 x3 s).boot = s.boot ∧ (calReject x0 x1 x2 x3 s).stat = s.stat ∧
    (calReject x0 x1 x2 x3 s).fresh = s.fresh ∧ (calReject x0 x1 x2 x3 s).pending = s.pending := by
  unfold calReject
  simp

@[simp] theorem calTour_frame (x0 : Nat) (s : State) :
    (calTour x0 s).ph = s.ph ∧ (calTour x0 s).ev = s.ev ∧ (calTour x0 s).sys = s.sys ∧ (calTour x0 s).em = s.em ∧
    (calTour x0 s).tm = s.tm ∧ (calTour x0 s).clk = s.clk ∧ (calTour x0 s).cfg = s.cfg ∧ (calTour x0 s).fh = s.fh ∧
    (calTour x0 s).dl = s.dl ∧ (calTour x0 s).ul = s.ul ∧ (calTour x0 s).bf = s.bf ∧ (calTour x0 s).lin = s.lin ∧
    (calTour x0 s).core = s.core ∧ (calTour x0 s).rf = s.rf ∧ (calTour x0 s).bias = s.bias ∧ (calTour x0 s).hk = s.hk ∧
    (calTour x0 s).pwr = s.pwr ∧ (calTour x0 s).th = s.th ∧ (calTour x0 s).nvm = s.nvm ∧ (calTour x0 s).cal = s.cal ∧
    (calTour x0 s).ls = s.ls ∧ (calTour x0 s).rk = s.rk ∧ (calTour x0 s).test = s.test ∧ (calTour x0 s).life = s.life ∧
    (calTour x0 s).boot = s.boot ∧ (calTour x0 s).out = s.out ∧ (calTour x0 s).fresh = s.fresh ∧
    (calTour x0 s).pending = s.pending := by
  unfold calTour
  simp

@[simp] theorem calOne_frame (x0 : CalRun) (x1 : CalResult) (x2 : Bool) (s : State) :
    (calOne x0 x1 x2 s).sys = s.sys ∧ (calOne x0 x1 x2 s).em = s.em ∧ (calOne x0 x1 x2 s).tm = s.tm ∧
    (calOne x0 x1 x2 s).clk = s.clk ∧ (calOne x0 x1 x2 s).cfg = s.cfg ∧ (calOne x0 x1 x2 s).fh = s.fh ∧
    (calOne x0 x1 x2 s).dl = s.dl ∧ (calOne x0 x1 x2 s).ul = s.ul ∧ (calOne x0 x1 x2 s).bf = s.bf ∧
    (calOne x0 x1 x2 s).lin = s.lin ∧ (calOne x0 x1 x2 s).core = s.core ∧ (calOne x0 x1 x2 s).rf = s.rf ∧
    (calOne x0 x1 x2 s).hk = s.hk ∧ (calOne x0 x1 x2 s).pwr = s.pwr ∧ (calOne x0 x1 x2 s).th = s.th ∧
    (calOne x0 x1 x2 s).rk = s.rk ∧ (calOne x0 x1 x2 s).test = s.test ∧ (calOne x0 x1 x2 s).life = s.life ∧
    (calOne x0 x1 x2 s).boot = s.boot ∧ (calOne x0 x1 x2 s).fresh = s.fresh ∧ (calOne x0 x1 x2 s).pending = s.pending := by
  unfold calOne
  simp

@[simp] theorem calAll_frame (whole : Bool) (rs : List CalResult) (s : State) :
    (calAll whole rs s).sys = s.sys ∧ (calAll whole rs s).em = s.em ∧ (calAll whole rs s).tm = s.tm ∧
    (calAll whole rs s).clk = s.clk ∧ (calAll whole rs s).cfg = s.cfg ∧ (calAll whole rs s).fh = s.fh ∧
    (calAll whole rs s).dl = s.dl ∧ (calAll whole rs s).ul = s.ul ∧ (calAll whole rs s).bf = s.bf ∧
    (calAll whole rs s).lin = s.lin ∧ (calAll whole rs s).core = s.core ∧ (calAll whole rs s).rf = s.rf ∧
    (calAll whole rs s).hk = s.hk ∧ (calAll whole rs s).pwr = s.pwr ∧ (calAll whole rs s).th = s.th ∧
    (calAll whole rs s).rk = s.rk ∧ (calAll whole rs s).test = s.test ∧ (calAll whole rs s).life = s.life ∧
    (calAll whole rs s).boot = s.boot ∧ (calAll whole rs s).fresh = s.fresh ∧ (calAll whole rs s).pending = s.pending := by
  induction rs generalizing s <;> simp only [calAll] <;> (repeat' split) <;> simp_all

@[simp] theorem loadCal_frame (s : State) :
    (loadCal s).ph = s.ph ∧ (loadCal s).ev = s.ev ∧ (loadCal s).sys = s.sys ∧ (loadCal s).em = s.em ∧ (loadCal s).tm = s.tm ∧
    (loadCal s).clk = s.clk ∧ (loadCal s).cfg = s.cfg ∧ (loadCal s).fh = s.fh ∧ (loadCal s).dl = s.dl ∧
    (loadCal s).ul = s.ul ∧ (loadCal s).bf = s.bf ∧ (loadCal s).lin = s.lin ∧ (loadCal s).core = s.core ∧
    (loadCal s).rf = s.rf ∧ (loadCal s).bias = s.bias ∧ (loadCal s).hk = s.hk ∧ (loadCal s).pwr = s.pwr ∧
    (loadCal s).th = s.th ∧ (loadCal s).nvm = s.nvm ∧ (loadCal s).ls = s.ls ∧ (loadCal s).rk = s.rk ∧
    (loadCal s).test = s.test ∧ (loadCal s).life = s.life ∧ (loadCal s).boot = s.boot ∧ (loadCal s).stat = s.stat ∧
    (loadCal s).out = s.out ∧ (loadCal s).fresh = s.fresh ∧ (loadCal s).pending = s.pending := by
  unfold loadCal
  repeat' (first | (simp; done) | (simp only [takeFree]) | split | (dsimp only))

@[simp] theorem returnMode_frame (s : State) :
    (returnMode s).sys = s.sys ∧ (returnMode s).tm = s.tm ∧ (returnMode s).clk = s.clk ∧ (returnMode s).fh = s.fh ∧
    (returnMode s).dl = s.dl ∧ (returnMode s).ul = s.ul ∧ (returnMode s).bf = s.bf ∧ (returnMode s).core = s.core ∧
    (returnMode s).bias = s.bias ∧ (returnMode s).hk = s.hk ∧ (returnMode s).nvm = s.nvm ∧ (returnMode s).cal = s.cal ∧
    (returnMode s).life = s.life ∧ (returnMode s).boot = s.boot ∧ (returnMode s).pending = s.pending := by
  unfold returnMode
  simp

@[simp] theorem calEnd_frame (x0 : Nat) (x1 : Nat) (s : State) :
    (calEnd x0 x1 s).sys = s.sys ∧ (calEnd x0 x1 s).tm = s.tm ∧ (calEnd x0 x1 s).clk = s.clk ∧ (calEnd x0 x1 s).fh = s.fh ∧
    (calEnd x0 x1 s).dl = s.dl ∧ (calEnd x0 x1 s).ul = s.ul ∧ (calEnd x0 x1 s).bf = s.bf ∧ (calEnd x0 x1 s).core = s.core ∧
    (calEnd x0 x1 s).bias = s.bias ∧ (calEnd x0 x1 s).hk = s.hk ∧ (calEnd x0 x1 s).nvm = s.nvm ∧
    (calEnd x0 x1 s).life = s.life ∧ (calEnd x0 x1 s).boot = s.boot ∧ (calEnd x0 x1 s).pending = s.pending := by
  unfold calEnd
  simp

@[simp] theorem calLost_frame (s : State) :
    (calLost s).sys = s.sys ∧ (calLost s).tm = s.tm ∧ (calLost s).clk = s.clk ∧ (calLost s).fh = s.fh ∧
    (calLost s).dl = s.dl ∧ (calLost s).ul = s.ul ∧ (calLost s).bf = s.bf ∧ (calLost s).core = s.core ∧
    (calLost s).bias = s.bias ∧ (calLost s).hk = s.hk ∧ (calLost s).nvm = s.nvm ∧ (calLost s).life = s.life ∧
    (calLost s).boot = s.boot ∧ (calLost s).pending = s.pending := by
  unfold calLost
  repeat' (first | (simp; done) | (simp only [takeFree]) | split | (dsimp only))

@[simp] theorem finishCalJob_frame (s : State) :
    (finishCalJob s).sys = s.sys ∧ (finishCalJob s).em = s.em ∧ (finishCalJob s).tm = s.tm ∧ (finishCalJob s).clk = s.clk ∧
    (finishCalJob s).cfg = s.cfg ∧ (finishCalJob s).fh = s.fh ∧ (finishCalJob s).dl = s.dl ∧ (finishCalJob s).ul = s.ul ∧
    (finishCalJob s).bf = s.bf ∧ (finishCalJob s).lin = s.lin ∧ (finishCalJob s).core = s.core ∧ (finishCalJob s).rf = s.rf ∧
    (finishCalJob s).hk = s.hk ∧ (finishCalJob s).pwr = s.pwr ∧ (finishCalJob s).th = s.th ∧ (finishCalJob s).cal = s.cal ∧
    (finishCalJob s).rk = s.rk ∧ (finishCalJob s).test = s.test ∧ (finishCalJob s).life = s.life ∧
    (finishCalJob s).boot = s.boot ∧ (finishCalJob s).stat = s.stat ∧ (finishCalJob s).fresh = s.fresh ∧
    (finishCalJob s).pending = s.pending := by
  unfold finishCalJob
  repeat' (first | (simp; done) | (simp only [takeFree]) | split | (dsimp only))

@[simp] theorem loseCalJob_frame (s : State) :
    (loseCalJob s).sys = s.sys ∧ (loseCalJob s).clk = s.clk ∧ (loseCalJob s).fh = s.fh ∧ (loseCalJob s).dl = s.dl ∧
    (loseCalJob s).ul = s.ul ∧ (loseCalJob s).core = s.core ∧ (loseCalJob s).life = s.life ∧ (loseCalJob s).boot = s.boot ∧
    (loseCalJob s).pending = s.pending := by
  unfold loseCalJob
  repeat' (first | (simp; done) | (simp only [takeFree]) | split | (dsimp only))

@[simp] theorem statClear_frame (x0 : Nat) (x1 : Nat) (s : State) :
    (statClear x0 x1 s).ph = s.ph ∧ (statClear x0 x1 s).ev = s.ev ∧ (statClear x0 x1 s).sys = s.sys ∧
    (statClear x0 x1 s).em = s.em ∧ (statClear x0 x1 s).tm = s.tm ∧ (statClear x0 x1 s).clk = s.clk ∧
    (statClear x0 x1 s).cfg = s.cfg ∧ (statClear x0 x1 s).fh = s.fh ∧ (statClear x0 x1 s).dl = s.dl ∧
    (statClear x0 x1 s).ul = s.ul ∧ (statClear x0 x1 s).bf = s.bf ∧ (statClear x0 x1 s).lin = s.lin ∧
    (statClear x0 x1 s).core = s.core ∧ (statClear x0 x1 s).rf = s.rf ∧ (statClear x0 x1 s).bias = s.bias ∧
    (statClear x0 x1 s).hk = s.hk ∧ (statClear x0 x1 s).pwr = s.pwr ∧ (statClear x0 x1 s).th = s.th ∧
    (statClear x0 x1 s).nvm = s.nvm ∧ (statClear x0 x1 s).cal = s.cal ∧ (statClear x0 x1 s).ls = s.ls ∧
    (statClear x0 x1 s).rk = s.rk ∧ (statClear x0 x1 s).test = s.test ∧ (statClear x0 x1 s).life = s.life ∧
    (statClear x0 x1 s).boot = s.boot ∧ (statClear x0 x1 s).out = s.out ∧ (statClear x0 x1 s).fresh = s.fresh ∧
    (statClear x0 x1 s).pending = s.pending := by
  unfold statClear
  simp

@[simp] theorem stageWrite_frame (x0 : Nat) (x1 : Nat) (x2 : List Byte) (s : State) :
    (stageWrite x0 x1 x2 s).ph = s.ph ∧ (stageWrite x0 x1 x2 s).ev = s.ev ∧ (stageWrite x0 x1 x2 s).sys = s.sys ∧
    (stageWrite x0 x1 x2 s).em = s.em ∧ (stageWrite x0 x1 x2 s).tm = s.tm ∧ (stageWrite x0 x1 x2 s).clk = s.clk ∧
    (stageWrite x0 x1 x2 s).fh = s.fh ∧ (stageWrite x0 x1 x2 s).dl = s.dl ∧ (stageWrite x0 x1 x2 s).ul = s.ul ∧
    (stageWrite x0 x1 x2 s).bf = s.bf ∧ (stageWrite x0 x1 x2 s).lin = s.lin ∧ (stageWrite x0 x1 x2 s).core = s.core ∧
    (stageWrite x0 x1 x2 s).rf = s.rf ∧ (stageWrite x0 x1 x2 s).bias = s.bias ∧ (stageWrite x0 x1 x2 s).hk = s.hk ∧
    (stageWrite x0 x1 x2 s).pwr = s.pwr ∧ (stageWrite x0 x1 x2 s).th = s.th ∧ (stageWrite x0 x1 x2 s).nvm = s.nvm ∧
    (stageWrite x0 x1 x2 s).cal = s.cal ∧ (stageWrite x0 x1 x2 s).ls = s.ls ∧ (stageWrite x0 x1 x2 s).rk = s.rk ∧
    (stageWrite x0 x1 x2 s).test = s.test ∧ (stageWrite x0 x1 x2 s).life = s.life ∧ (stageWrite x0 x1 x2 s).boot = s.boot ∧
    (stageWrite x0 x1 x2 s).stat = s.stat ∧ (stageWrite x0 x1 x2 s).out = s.out ∧ (stageWrite x0 x1 x2 s).fresh = s.fresh ∧
    (stageWrite x0 x1 x2 s).pending = s.pending := by
  unfold stageWrite
  simp

@[simp] theorem rffeAtArming_frame (x0 : Image) (s : State) :
    (rffeAtArming x0 s).sys = s.sys ∧ (rffeAtArming x0 s).em = s.em ∧ (rffeAtArming x0 s).tm = s.tm ∧
    (rffeAtArming x0 s).clk = s.clk ∧ (rffeAtArming x0 s).cfg = s.cfg ∧ (rffeAtArming x0 s).fh = s.fh ∧
    (rffeAtArming x0 s).dl = s.dl ∧ (rffeAtArming x0 s).ul = s.ul ∧ (rffeAtArming x0 s).bf = s.bf ∧
    (rffeAtArming x0 s).lin = s.lin ∧ (rffeAtArming x0 s).core = s.core ∧ (rffeAtArming x0 s).bias = s.bias ∧
    (rffeAtArming x0 s).hk = s.hk ∧ (rffeAtArming x0 s).pwr = s.pwr ∧ (rffeAtArming x0 s).th = s.th ∧
    (rffeAtArming x0 s).nvm = s.nvm ∧ (rffeAtArming x0 s).cal = s.cal ∧ (rffeAtArming x0 s).rk = s.rk ∧
    (rffeAtArming x0 s).test = s.test ∧ (rffeAtArming x0 s).life = s.life ∧ (rffeAtArming x0 s).boot = s.boot ∧
    (rffeAtArming x0 s).fresh = s.fresh ∧ (rffeAtArming x0 s).pending = s.pending := by
  unfold rffeAtArming
  simp

@[simp] theorem armCommit_frame (x0 : Image) (x1 : Boundary) (s : State) :
    (armCommit x0 x1 s).sys = s.sys ∧ (armCommit x0 x1 s).em = s.em ∧ (armCommit x0 x1 s).tm = s.tm ∧
    (armCommit x0 x1 s).clk = s.clk ∧ (armCommit x0 x1 s).fh = s.fh ∧ (armCommit x0 x1 s).dl = s.dl ∧
    (armCommit x0 x1 s).ul = s.ul ∧ (armCommit x0 x1 s).bf = s.bf ∧ (armCommit x0 x1 s).lin = s.lin ∧
    (armCommit x0 x1 s).core = s.core ∧ (armCommit x0 x1 s).bias = s.bias ∧ (armCommit x0 x1 s).hk = s.hk ∧
    (armCommit x0 x1 s).pwr = s.pwr ∧ (armCommit x0 x1 s).th = s.th ∧ (armCommit x0 x1 s).nvm = s.nvm ∧
    (armCommit x0 x1 s).cal = s.cal ∧ (armCommit x0 x1 s).rk = s.rk ∧ (armCommit x0 x1 s).test = s.test ∧
    (armCommit x0 x1 s).life = s.life ∧ (armCommit x0 x1 s).boot = s.boot ∧ (armCommit x0 x1 s).fresh = s.fresh ∧
    (armCommit x0 x1 s).pending = s.pending := by
  unfold armCommit
  simp

@[simp] theorem patternAtCommit_frame (x0 : Image) (x1 : Image) (x2 : Instant) (s : State) :
    (patternAtCommit x0 x1 x2 s).sys = s.sys ∧ (patternAtCommit x0 x1 x2 s).em = s.em ∧
    (patternAtCommit x0 x1 x2 s).tm = s.tm ∧ (patternAtCommit x0 x1 x2 s).clk = s.clk ∧
    (patternAtCommit x0 x1 x2 s).cfg = s.cfg ∧ (patternAtCommit x0 x1 x2 s).fh = s.fh ∧
    (patternAtCommit x0 x1 x2 s).dl = s.dl ∧ (patternAtCommit x0 x1 x2 s).ul = s.ul ∧ (patternAtCommit x0 x1 x2 s).bf = s.bf ∧
    (patternAtCommit x0 x1 x2 s).lin = s.lin ∧ (patternAtCommit x0 x1 x2 s).core = s.core ∧
    (patternAtCommit x0 x1 x2 s).bias = s.bias ∧ (patternAtCommit x0 x1 x2 s).hk = s.hk ∧
    (patternAtCommit x0 x1 x2 s).pwr = s.pwr ∧ (patternAtCommit x0 x1 x2 s).th = s.th ∧
    (patternAtCommit x0 x1 x2 s).nvm = s.nvm ∧ (patternAtCommit x0 x1 x2 s).cal = s.cal ∧
    (patternAtCommit x0 x1 x2 s).ls = s.ls ∧ (patternAtCommit x0 x1 x2 s).rk = s.rk ∧
    (patternAtCommit x0 x1 x2 s).test = s.test ∧ (patternAtCommit x0 x1 x2 s).life = s.life ∧
    (patternAtCommit x0 x1 x2 s).boot = s.boot ∧ (patternAtCommit x0 x1 x2 s).stat = s.stat ∧
    (patternAtCommit x0 x1 x2 s).fresh = s.fresh ∧ (patternAtCommit x0 x1 x2 s).pending = s.pending := by
  unfold patternAtCommit
  repeat' (first | (simp; done) | (simp only [takeFree]) | split | (dsimp only))

@[simp] theorem loServiceLost_frame (x0 : Nat) (s : State) :
    (loServiceLost x0 s).sys = s.sys ∧ (loServiceLost x0 s).em = s.em ∧ (loServiceLost x0 s).tm = s.tm ∧
    (loServiceLost x0 s).clk = s.clk ∧ (loServiceLost x0 s).cfg = s.cfg ∧ (loServiceLost x0 s).fh = s.fh ∧
    (loServiceLost x0 s).ul = s.ul ∧ (loServiceLost x0 s).bf = s.bf ∧ (loServiceLost x0 s).core = s.core ∧
    (loServiceLost x0 s).bias = s.bias ∧ (loServiceLost x0 s).hk = s.hk ∧ (loServiceLost x0 s).pwr = s.pwr ∧
    (loServiceLost x0 s).th = s.th ∧ (loServiceLost x0 s).nvm = s.nvm ∧ (loServiceLost x0 s).cal = s.cal ∧
    (loServiceLost x0 s).test = s.test ∧ (loServiceLost x0 s).life = s.life ∧ (loServiceLost x0 s).boot = s.boot ∧
    (loServiceLost x0 s).fresh = s.fresh ∧ (loServiceLost x0 s).pending = s.pending := by
  unfold loServiceLost
  simp

@[simp] theorem loServiceBack_frame (x0 : Nat) (x1 : Nat) (s : State) :
    (loServiceBack x0 x1 s).ph = s.ph ∧ (loServiceBack x0 x1 s).ev = s.ev ∧ (loServiceBack x0 x1 s).sys = s.sys ∧
    (loServiceBack x0 x1 s).em = s.em ∧ (loServiceBack x0 x1 s).tm = s.tm ∧ (loServiceBack x0 x1 s).clk = s.clk ∧
    (loServiceBack x0 x1 s).cfg = s.cfg ∧ (loServiceBack x0 x1 s).fh = s.fh ∧ (loServiceBack x0 x1 s).bf = s.bf ∧
    (loServiceBack x0 x1 s).lin = s.lin ∧ (loServiceBack x0 x1 s).core = s.core ∧ (loServiceBack x0 x1 s).bias = s.bias ∧
    (loServiceBack x0 x1 s).hk = s.hk ∧ (loServiceBack x0 x1 s).pwr = s.pwr ∧ (loServiceBack x0 x1 s).th = s.th ∧
    (loServiceBack x0 x1 s).nvm = s.nvm ∧ (loServiceBack x0 x1 s).cal = s.cal ∧ (loServiceBack x0 x1 s).ls = s.ls ∧
    (loServiceBack x0 x1 s).rk = s.rk ∧ (loServiceBack x0 x1 s).test = s.test ∧ (loServiceBack x0 x1 s).life = s.life ∧
    (loServiceBack x0 x1 s).boot = s.boot ∧ (loServiceBack x0 x1 s).stat = s.stat ∧ (loServiceBack x0 x1 s).out = s.out ∧
    (loServiceBack x0 x1 s).fresh = s.fresh ∧ (loServiceBack x0 x1 s).pending = s.pending := by
  unfold loServiceBack
  simp

@[simp] theorem loAtCommit_frame (x0 : Image) (x1 : Image) (s : State) :
    (loAtCommit x0 x1 s).sys = s.sys ∧ (loAtCommit x0 x1 s).em = s.em ∧ (loAtCommit x0 x1 s).tm = s.tm ∧
    (loAtCommit x0 x1 s).clk = s.clk ∧ (loAtCommit x0 x1 s).cfg = s.cfg ∧ (loAtCommit x0 x1 s).fh = s.fh ∧
    (loAtCommit x0 x1 s).ul = s.ul ∧ (loAtCommit x0 x1 s).bf = s.bf ∧ (loAtCommit x0 x1 s).core = s.core ∧
    (loAtCommit x0 x1 s).bias = s.bias ∧ (loAtCommit x0 x1 s).hk = s.hk ∧ (loAtCommit x0 x1 s).pwr = s.pwr ∧
    (loAtCommit x0 x1 s).th = s.th ∧ (loAtCommit x0 x1 s).nvm = s.nvm ∧ (loAtCommit x0 x1 s).cal = s.cal ∧
    (loAtCommit x0 x1 s).test = s.test ∧ (loAtCommit x0 x1 s).life = s.life ∧ (loAtCommit x0 x1 s).boot = s.boot ∧
    (loAtCommit x0 x1 s).fresh = s.fresh ∧ (loAtCommit x0 x1 s).pending = s.pending := by
  unfold loAtCommit
  simp

@[simp] theorem rffeOut_frame (x0 : Nat) (x1 : Nat) (x2 : Nat) (x3 : Nat) (x4 : Nat) (s : State) :
    (rffeOut x0 x1 x2 x3 x4 s).ph = s.ph ∧ (rffeOut x0 x1 x2 x3 x4 s).ev = s.ev ∧ (rffeOut x0 x1 x2 x3 x4 s).sys = s.sys ∧
    (rffeOut x0 x1 x2 x3 x4 s).em = s.em ∧ (rffeOut x0 x1 x2 x3 x4 s).tm = s.tm ∧ (rffeOut x0 x1 x2 x3 x4 s).clk = s.clk ∧
    (rffeOut x0 x1 x2 x3 x4 s).cfg = s.cfg ∧ (rffeOut x0 x1 x2 x3 x4 s).fh = s.fh ∧ (rffeOut x0 x1 x2 x3 x4 s).dl = s.dl ∧
    (rffeOut x0 x1 x2 x3 x4 s).ul = s.ul ∧ (rffeOut x0 x1 x2 x3 x4 s).bf = s.bf ∧ (rffeOut x0 x1 x2 x3 x4 s).lin = s.lin ∧
    (rffeOut x0 x1 x2 x3 x4 s).core = s.core ∧ (rffeOut x0 x1 x2 x3 x4 s).rf = s.rf ∧
    (rffeOut x0 x1 x2 x3 x4 s).bias = s.bias ∧ (rffeOut x0 x1 x2 x3 x4 s).hk = s.hk ∧ (rffeOut x0 x1 x2 x3 x4 s).pwr = s.pwr ∧
    (rffeOut x0 x1 x2 x3 x4 s).th = s.th ∧ (rffeOut x0 x1 x2 x3 x4 s).nvm = s.nvm ∧ (rffeOut x0 x1 x2 x3 x4 s).cal = s.cal ∧
    (rffeOut x0 x1 x2 x3 x4 s).ls = s.ls ∧ (rffeOut x0 x1 x2 x3 x4 s).rk = s.rk ∧ (rffeOut x0 x1 x2 x3 x4 s).test = s.test ∧
    (rffeOut x0 x1 x2 x3 x4 s).life = s.life ∧ (rffeOut x0 x1 x2 x3 x4 s).boot = s.boot ∧
    (rffeOut x0 x1 x2 x3 x4 s).stat = s.stat ∧ (rffeOut x0 x1 x2 x3 x4 s).fresh = s.fresh ∧
    (rffeOut x0 x1 x2 x3 x4 s).pending = s.pending := by
  unfold rffeOut
  simp

@[simp] theorem rffeIssue_frame (x0 : Nat) (x1 : RffeEntry) (x2 : Option RffeRead) (s : State) :
    (rffeIssue x0 x1 x2 s).sys = s.sys ∧ (rffeIssue x0 x1 x2 s).em = s.em ∧ (rffeIssue x0 x1 x2 s).tm = s.tm ∧
    (rffeIssue x0 x1 x2 s).clk = s.clk ∧ (rffeIssue x0 x1 x2 s).cfg = s.cfg ∧ (rffeIssue x0 x1 x2 s).fh = s.fh ∧
    (rffeIssue x0 x1 x2 s).dl = s.dl ∧ (rffeIssue x0 x1 x2 s).ul = s.ul ∧ (rffeIssue x0 x1 x2 s).bf = s.bf ∧
    (rffeIssue x0 x1 x2 s).lin = s.lin ∧ (rffeIssue x0 x1 x2 s).core = s.core ∧ (rffeIssue x0 x1 x2 s).rf = s.rf ∧
    (rffeIssue x0 x1 x2 s).bias = s.bias ∧ (rffeIssue x0 x1 x2 s).hk = s.hk ∧ (rffeIssue x0 x1 x2 s).pwr = s.pwr ∧
    (rffeIssue x0 x1 x2 s).th = s.th ∧ (rffeIssue x0 x1 x2 s).nvm = s.nvm ∧ (rffeIssue x0 x1 x2 s).cal = s.cal ∧
    (rffeIssue x0 x1 x2 s).ls = s.ls ∧ (rffeIssue x0 x1 x2 s).rk = s.rk ∧ (rffeIssue x0 x1 x2 s).test = s.test ∧
    (rffeIssue x0 x1 x2 s).life = s.life ∧ (rffeIssue x0 x1 x2 s).boot = s.boot ∧ (rffeIssue x0 x1 x2 s).fresh = s.fresh ∧
    (rffeIssue x0 x1 x2 s).pending = s.pending := by
  unfold rffeIssue
  repeat' (first | (simp; done) | (simp only [takeFree]) | split | (dsimp only))

@[simp] theorem rffeRun_frame (bus : Nat) (es : List RffeEntry) (rs : List RffeRead) (s : State) :
    (rffeRun bus es rs s).sys = s.sys ∧ (rffeRun bus es rs s).em = s.em ∧ (rffeRun bus es rs s).tm = s.tm ∧
    (rffeRun bus es rs s).clk = s.clk ∧ (rffeRun bus es rs s).cfg = s.cfg ∧ (rffeRun bus es rs s).fh = s.fh ∧
    (rffeRun bus es rs s).dl = s.dl ∧ (rffeRun bus es rs s).ul = s.ul ∧ (rffeRun bus es rs s).bf = s.bf ∧
    (rffeRun bus es rs s).lin = s.lin ∧ (rffeRun bus es rs s).core = s.core ∧ (rffeRun bus es rs s).rf = s.rf ∧
    (rffeRun bus es rs s).bias = s.bias ∧ (rffeRun bus es rs s).hk = s.hk ∧ (rffeRun bus es rs s).pwr = s.pwr ∧
    (rffeRun bus es rs s).th = s.th ∧ (rffeRun bus es rs s).nvm = s.nvm ∧ (rffeRun bus es rs s).cal = s.cal ∧
    (rffeRun bus es rs s).ls = s.ls ∧ (rffeRun bus es rs s).rk = s.rk ∧ (rffeRun bus es rs s).test = s.test ∧
    (rffeRun bus es rs s).life = s.life ∧ (rffeRun bus es rs s).boot = s.boot ∧ (rffeRun bus es rs s).fresh = s.fresh ∧
    (rffeRun bus es rs s).pending = s.pending := by
  induction es generalizing s rs <;> simp only [rffeRun] <;> (repeat' split) <;> simp_all

@[simp] theorem controlWords_frame (x0 : Nat) (x1 : List (Nat × Nat)) (s : State) :
    (controlWords x0 x1 s).sys = s.sys ∧ (controlWords x0 x1 s).em = s.em ∧ (controlWords x0 x1 s).tm = s.tm ∧
    (controlWords x0 x1 s).clk = s.clk ∧ (controlWords x0 x1 s).cfg = s.cfg ∧ (controlWords x0 x1 s).fh = s.fh ∧
    (controlWords x0 x1 s).dl = s.dl ∧ (controlWords x0 x1 s).ul = s.ul ∧ (controlWords x0 x1 s).bf = s.bf ∧
    (controlWords x0 x1 s).lin = s.lin ∧ (controlWords x0 x1 s).core = s.core ∧ (controlWords x0 x1 s).bias = s.bias ∧
    (controlWords x0 x1 s).hk = s.hk ∧ (controlWords x0 x1 s).pwr = s.pwr ∧ (controlWords x0 x1 s).th = s.th ∧
    (controlWords x0 x1 s).nvm = s.nvm ∧ (controlWords x0 x1 s).cal = s.cal ∧ (controlWords x0 x1 s).ls = s.ls ∧
    (controlWords x0 x1 s).rk = s.rk ∧ (controlWords x0 x1 s).test = s.test ∧ (controlWords x0 x1 s).life = s.life ∧
    (controlWords x0 x1 s).boot = s.boot ∧ (controlWords x0 x1 s).stat = s.stat ∧ (controlWords x0 x1 s).fresh = s.fresh ∧
    (controlWords x0 x1 s).pending = s.pending := by
  unfold controlWords
  simp

@[simp] theorem rffeOver_frame (x0 : Nat) (s : State) :
    (rffeOver x0 s).ph = s.ph ∧ (rffeOver x0 s).ev = s.ev ∧ (rffeOver x0 s).sys = s.sys ∧ (rffeOver x0 s).em = s.em ∧
    (rffeOver x0 s).tm = s.tm ∧ (rffeOver x0 s).clk = s.clk ∧ (rffeOver x0 s).cfg = s.cfg ∧ (rffeOver x0 s).fh = s.fh ∧
    (rffeOver x0 s).dl = s.dl ∧ (rffeOver x0 s).ul = s.ul ∧ (rffeOver x0 s).bf = s.bf ∧ (rffeOver x0 s).lin = s.lin ∧
    (rffeOver x0 s).core = s.core ∧ (rffeOver x0 s).bias = s.bias ∧ (rffeOver x0 s).hk = s.hk ∧ (rffeOver x0 s).pwr = s.pwr ∧
    (rffeOver x0 s).th = s.th ∧ (rffeOver x0 s).nvm = s.nvm ∧ (rffeOver x0 s).cal = s.cal ∧ (rffeOver x0 s).test = s.test ∧
    (rffeOver x0 s).life = s.life ∧ (rffeOver x0 s).boot = s.boot ∧ (rffeOver x0 s).stat = s.stat ∧
    (rffeOver x0 s).out = s.out ∧ (rffeOver x0 s).fresh = s.fresh ∧ (rffeOver x0 s).pending = s.pending := by
  unfold rffeOver
  simp

@[simp] theorem rffeAtCommit_frame (x0 : Image) (x1 : Image) (s : State) :
    (rffeAtCommit x0 x1 s).sys = s.sys ∧ (rffeAtCommit x0 x1 s).em = s.em ∧ (rffeAtCommit x0 x1 s).tm = s.tm ∧
    (rffeAtCommit x0 x1 s).clk = s.clk ∧ (rffeAtCommit x0 x1 s).cfg = s.cfg ∧ (rffeAtCommit x0 x1 s).fh = s.fh ∧
    (rffeAtCommit x0 x1 s).dl = s.dl ∧ (rffeAtCommit x0 x1 s).ul = s.ul ∧ (rffeAtCommit x0 x1 s).bf = s.bf ∧
    (rffeAtCommit x0 x1 s).lin = s.lin ∧ (rffeAtCommit x0 x1 s).core = s.core ∧ (rffeAtCommit x0 x1 s).bias = s.bias ∧
    (rffeAtCommit x0 x1 s).hk = s.hk ∧ (rffeAtCommit x0 x1 s).pwr = s.pwr ∧ (rffeAtCommit x0 x1 s).th = s.th ∧
    (rffeAtCommit x0 x1 s).nvm = s.nvm ∧ (rffeAtCommit x0 x1 s).cal = s.cal ∧ (rffeAtCommit x0 x1 s).test = s.test ∧
    (rffeAtCommit x0 x1 s).life = s.life ∧ (rffeAtCommit x0 x1 s).boot = s.boot ∧ (rffeAtCommit x0 x1 s).fresh = s.fresh ∧
    (rffeAtCommit x0 x1 s).pending = s.pending := by
  unfold rffeAtCommit
  simp

@[simp] theorem hkApply_frame (x0 : List Byte) (s : State) :
    (hkApply x0 s).ph = s.ph ∧ (hkApply x0 s).ev = s.ev ∧ (hkApply x0 s).sys = s.sys ∧ (hkApply x0 s).em = s.em ∧
    (hkApply x0 s).tm = s.tm ∧ (hkApply x0 s).clk = s.clk ∧ (hkApply x0 s).cfg = s.cfg ∧ (hkApply x0 s).fh = s.fh ∧
    (hkApply x0 s).dl = s.dl ∧ (hkApply x0 s).ul = s.ul ∧ (hkApply x0 s).bf = s.bf ∧ (hkApply x0 s).lin = s.lin ∧
    (hkApply x0 s).core = s.core ∧ (hkApply x0 s).rf = s.rf ∧ (hkApply x0 s).bias = s.bias ∧ (hkApply x0 s).pwr = s.pwr ∧
    (hkApply x0 s).th = s.th ∧ (hkApply x0 s).nvm = s.nvm ∧ (hkApply x0 s).cal = s.cal ∧ (hkApply x0 s).ls = s.ls ∧
    (hkApply x0 s).rk = s.rk ∧ (hkApply x0 s).test = s.test ∧ (hkApply x0 s).life = s.life ∧ (hkApply x0 s).boot = s.boot ∧
    (hkApply x0 s).stat = s.stat ∧ (hkApply x0 s).out = s.out ∧ (hkApply x0 s).pending = s.pending := by
  unfold hkApply
  simp

@[simp] theorem hkRevoked_frame (s : State) :
    (hkRevoked s).sys = s.sys ∧ (hkRevoked s).em = s.em ∧ (hkRevoked s).clk = s.clk ∧ (hkRevoked s).cfg = s.cfg ∧
    (hkRevoked s).fh = s.fh ∧ (hkRevoked s).dl = s.dl ∧ (hkRevoked s).ul = s.ul ∧ (hkRevoked s).core = s.core ∧
    (hkRevoked s).bias = s.bias ∧ (hkRevoked s).pwr = s.pwr ∧ (hkRevoked s).th = s.th ∧ (hkRevoked s).cal = s.cal ∧
    (hkRevoked s).test = s.test ∧ (hkRevoked s).life = s.life ∧ (hkRevoked s).boot = s.boot ∧ (hkRevoked s).fresh = s.fresh ∧
    (hkRevoked s).pending = s.pending := by
  unfold hkRevoked
  simp

@[simp] theorem triggerTime_frame (x0 : Nat) (s : State) :
    (triggerTime x0 s).ph = s.ph ∧ (triggerTime x0 s).ev = s.ev ∧ (triggerTime x0 s).sys = s.sys ∧
    (triggerTime x0 s).em = s.em ∧ (triggerTime x0 s).clk = s.clk ∧ (triggerTime x0 s).cfg = s.cfg ∧
    (triggerTime x0 s).fh = s.fh ∧ (triggerTime x0 s).dl = s.dl ∧ (triggerTime x0 s).ul = s.ul ∧
    (triggerTime x0 s).bf = s.bf ∧ (triggerTime x0 s).lin = s.lin ∧ (triggerTime x0 s).core = s.core ∧
    (triggerTime x0 s).rf = s.rf ∧ (triggerTime x0 s).bias = s.bias ∧ (triggerTime x0 s).hk = s.hk ∧
    (triggerTime x0 s).pwr = s.pwr ∧ (triggerTime x0 s).th = s.th ∧ (triggerTime x0 s).nvm = s.nvm ∧
    (triggerTime x0 s).cal = s.cal ∧ (triggerTime x0 s).ls = s.ls ∧ (triggerTime x0 s).rk = s.rk ∧
    (triggerTime x0 s).test = s.test ∧ (triggerTime x0 s).life = s.life ∧ (triggerTime x0 s).boot = s.boot ∧
    (triggerTime x0 s).stat = s.stat ∧ (triggerTime x0 s).out = s.out ∧ (triggerTime x0 s).fresh = s.fresh ∧
    (triggerTime x0 s).pending = s.pending := by
  unfold triggerTime
  repeat' (first | (simp; done) | (simp only [takeFree]) | split | (dsimp only))

@[simp] theorem triggered_frame (x0 : Nat) (s : State) :
    (triggered x0 s).ph = s.ph ∧ (triggered x0 s).ev = s.ev ∧ (triggered x0 s).sys = s.sys ∧ (triggered x0 s).em = s.em ∧
    (triggered x0 s).clk = s.clk ∧ (triggered x0 s).cfg = s.cfg ∧ (triggered x0 s).fh = s.fh ∧ (triggered x0 s).dl = s.dl ∧
    (triggered x0 s).ul = s.ul ∧ (triggered x0 s).bf = s.bf ∧ (triggered x0 s).lin = s.lin ∧ (triggered x0 s).core = s.core ∧
    (triggered x0 s).rf = s.rf ∧ (triggered x0 s).bias = s.bias ∧ (triggered x0 s).pwr = s.pwr ∧ (triggered x0 s).th = s.th ∧
    (triggered x0 s).nvm = s.nvm ∧ (triggered x0 s).cal = s.cal ∧ (triggered x0 s).ls = s.ls ∧ (triggered x0 s).rk = s.rk ∧
    (triggered x0 s).test = s.test ∧ (triggered x0 s).life = s.life ∧ (triggered x0 s).boot = s.boot ∧
    (triggered x0 s).stat = s.stat ∧ (triggered x0 s).out = s.out ∧ (triggered x0 s).fresh = s.fresh ∧
    (triggered x0 s).pending = s.pending := by
  unfold triggered
  simp

@[simp] theorem endConversion_frame (x0 : Nat) (s : State) :
    (endConversion x0 s).ph = s.ph ∧ (endConversion x0 s).ev = s.ev ∧ (endConversion x0 s).sys = s.sys ∧
    (endConversion x0 s).em = s.em ∧ (endConversion x0 s).clk = s.clk ∧ (endConversion x0 s).cfg = s.cfg ∧
    (endConversion x0 s).fh = s.fh ∧ (endConversion x0 s).dl = s.dl ∧ (endConversion x0 s).ul = s.ul ∧
    (endConversion x0 s).bf = s.bf ∧ (endConversion x0 s).lin = s.lin ∧ (endConversion x0 s).core = s.core ∧
    (endConversion x0 s).rf = s.rf ∧ (endConversion x0 s).bias = s.bias ∧ (endConversion x0 s).hk = s.hk ∧
    (endConversion x0 s).pwr = s.pwr ∧ (endConversion x0 s).th = s.th ∧ (endConversion x0 s).nvm = s.nvm ∧
    (endConversion x0 s).cal = s.cal ∧ (endConversion x0 s).ls = s.ls ∧ (endConversion x0 s).rk = s.rk ∧
    (endConversion x0 s).test = s.test ∧ (endConversion x0 s).life = s.life ∧ (endConversion x0 s).boot = s.boot ∧
    (endConversion x0 s).stat = s.stat ∧ (endConversion x0 s).out = s.out ∧ (endConversion x0 s).fresh = s.fresh ∧
    (endConversion x0 s).pending = s.pending := by
  unfold endConversion
  simp

@[simp] theorem judgeWindow_frame (x0 : Nat) (x1 : Nat) (s : State) (x3 : Nat) :
    (judgeWindow x0 x1 s x3).sys = s.sys ∧ (judgeWindow x0 x1 s x3).em = s.em ∧ (judgeWindow x0 x1 s x3).tm = s.tm ∧
    (judgeWindow x0 x1 s x3).clk = s.clk ∧ (judgeWindow x0 x1 s x3).cfg = s.cfg ∧ (judgeWindow x0 x1 s x3).fh = s.fh ∧
    (judgeWindow x0 x1 s x3).dl = s.dl ∧ (judgeWindow x0 x1 s x3).ul = s.ul ∧ (judgeWindow x0 x1 s x3).bf = s.bf ∧
    (judgeWindow x0 x1 s x3).lin = s.lin ∧ (judgeWindow x0 x1 s x3).core = s.core ∧ (judgeWindow x0 x1 s x3).rf = s.rf ∧
    (judgeWindow x0 x1 s x3).bias = s.bias ∧ (judgeWindow x0 x1 s x3).pwr = s.pwr ∧ (judgeWindow x0 x1 s x3).th = s.th ∧
    (judgeWindow x0 x1 s x3).nvm = s.nvm ∧ (judgeWindow x0 x1 s x3).cal = s.cal ∧ (judgeWindow x0 x1 s x3).ls = s.ls ∧
    (judgeWindow x0 x1 s x3).rk = s.rk ∧ (judgeWindow x0 x1 s x3).test = s.test ∧ (judgeWindow x0 x1 s x3).life = s.life ∧
    (judgeWindow x0 x1 s x3).boot = s.boot ∧ (judgeWindow x0 x1 s x3).stat = s.stat ∧
    (judgeWindow x0 x1 s x3).fresh = s.fresh ∧ (judgeWindow x0 x1 s x3).pending = s.pending := by
  unfold judgeWindow
  simp

@[simp] theorem storeResult_frame (x0 : Nat) (x1 : Nat) (s : State) :
    (storeResult x0 x1 s).sys = s.sys ∧ (storeResult x0 x1 s).em = s.em ∧ (storeResult x0 x1 s).tm = s.tm ∧
    (storeResult x0 x1 s).clk = s.clk ∧ (storeResult x0 x1 s).cfg = s.cfg ∧ (storeResult x0 x1 s).fh = s.fh ∧
    (storeResult x0 x1 s).dl = s.dl ∧ (storeResult x0 x1 s).ul = s.ul ∧ (storeResult x0 x1 s).bf = s.bf ∧
    (storeResult x0 x1 s).lin = s.lin ∧ (storeResult x0 x1 s).core = s.core ∧ (storeResult x0 x1 s).rf = s.rf ∧
    (storeResult x0 x1 s).bias = s.bias ∧ (storeResult x0 x1 s).pwr = s.pwr ∧ (storeResult x0 x1 s).th = s.th ∧
    (storeResult x0 x1 s).nvm = s.nvm ∧ (storeResult x0 x1 s).cal = s.cal ∧ (storeResult x0 x1 s).ls = s.ls ∧
    (storeResult x0 x1 s).rk = s.rk ∧ (storeResult x0 x1 s).test = s.test ∧ (storeResult x0 x1 s).life = s.life ∧
    (storeResult x0 x1 s).boot = s.boot ∧ (storeResult x0 x1 s).pending = s.pending := by
  unfold storeResult
  simp

@[simp] theorem recheck_frame (x0 : Nat) (x1 : Nat) (x2 : Nat) (x3 : Nat) (s : State) :
    (recheck x0 x1 x2 x3 s).sys = s.sys ∧ (recheck x0 x1 x2 x3 s).em = s.em ∧ (recheck x0 x1 x2 x3 s).clk = s.clk ∧
    (recheck x0 x1 x2 x3 s).cfg = s.cfg ∧ (recheck x0 x1 x2 x3 s).fh = s.fh ∧ (recheck x0 x1 x2 x3 s).dl = s.dl ∧
    (recheck x0 x1 x2 x3 s).ul = s.ul ∧ (recheck x0 x1 x2 x3 s).bf = s.bf ∧ (recheck x0 x1 x2 x3 s).lin = s.lin ∧
    (recheck x0 x1 x2 x3 s).core = s.core ∧ (recheck x0 x1 x2 x3 s).pwr = s.pwr ∧ (recheck x0 x1 x2 x3 s).th = s.th ∧
    (recheck x0 x1 x2 x3 s).nvm = s.nvm ∧ (recheck x0 x1 x2 x3 s).cal = s.cal ∧ (recheck x0 x1 x2 x3 s).ls = s.ls ∧
    (recheck x0 x1 x2 x3 s).rk = s.rk ∧ (recheck x0 x1 x2 x3 s).test = s.test ∧ (recheck x0 x1 x2 x3 s).life = s.life ∧
    (recheck x0 x1 x2 x3 s).boot = s.boot ∧ (recheck x0 x1 x2 x3 s).fresh = s.fresh ∧
    (recheck x0 x1 x2 x3 s).pending = s.pending := by
  unfold recheck
  simp

@[simp] theorem endOrphan_frame (x0 : Nat) (x1 : Orphan) (x2 : Nat) (x3 : Nat) (s : State) :
    (endOrphan x0 x1 x2 x3 s).sys = s.sys ∧ (endOrphan x0 x1 x2 x3 s).em = s.em ∧ (endOrphan x0 x1 x2 x3 s).clk = s.clk ∧
    (endOrphan x0 x1 x2 x3 s).cfg = s.cfg ∧ (endOrphan x0 x1 x2 x3 s).fh = s.fh ∧ (endOrphan x0 x1 x2 x3 s).dl = s.dl ∧
    (endOrphan x0 x1 x2 x3 s).ul = s.ul ∧ (endOrphan x0 x1 x2 x3 s).bf = s.bf ∧ (endOrphan x0 x1 x2 x3 s).lin = s.lin ∧
    (endOrphan x0 x1 x2 x3 s).core = s.core ∧ (endOrphan x0 x1 x2 x3 s).pwr = s.pwr ∧ (endOrphan x0 x1 x2 x3 s).th = s.th ∧
    (endOrphan x0 x1 x2 x3 s).nvm = s.nvm ∧ (endOrphan x0 x1 x2 x3 s).cal = s.cal ∧ (endOrphan x0 x1 x2 x3 s).ls = s.ls ∧
    (endOrphan x0 x1 x2 x3 s).rk = s.rk ∧ (endOrphan x0 x1 x2 x3 s).test = s.test ∧ (endOrphan x0 x1 x2 x3 s).life = s.life ∧
    (endOrphan x0 x1 x2 x3 s).boot = s.boot ∧ (endOrphan x0 x1 x2 x3 s).fresh = s.fresh ∧
    (endOrphan x0 x1 x2 x3 s).pending = s.pending := by
  unfold endOrphan
  simp

@[simp] theorem expiring_frame (x0 : Nat) (s : State) :
    (expiring x0 s).ph = s.ph ∧ (expiring x0 s).ev = s.ev ∧ (expiring x0 s).sys = s.sys ∧ (expiring x0 s).em = s.em ∧
    (expiring x0 s).tm = s.tm ∧ (expiring x0 s).clk = s.clk ∧ (expiring x0 s).cfg = s.cfg ∧ (expiring x0 s).fh = s.fh ∧
    (expiring x0 s).dl = s.dl ∧ (expiring x0 s).ul = s.ul ∧ (expiring x0 s).bf = s.bf ∧ (expiring x0 s).lin = s.lin ∧
    (expiring x0 s).core = s.core ∧ (expiring x0 s).rf = s.rf ∧ (expiring x0 s).bias = s.bias ∧ (expiring x0 s).hk = s.hk ∧
    (expiring x0 s).pwr = s.pwr ∧ (expiring x0 s).th = s.th ∧ (expiring x0 s).cal = s.cal ∧ (expiring x0 s).rk = s.rk ∧
    (expiring x0 s).test = s.test ∧ (expiring x0 s).life = s.life ∧ (expiring x0 s).boot = s.boot ∧
    (expiring x0 s).stat = s.stat ∧ (expiring x0 s).out = s.out ∧ (expiring x0 s).fresh = s.fresh ∧
    (expiring x0 s).pending = s.pending := by
  unfold expiring
  simp

@[simp] theorem strikeWord_frame (s : State) (x1 : ScrubHit) :
    (strikeWord s x1).ph = s.ph ∧ (strikeWord s x1).ev = s.ev ∧ (strikeWord s x1).sys = s.sys ∧ (strikeWord s x1).em = s.em ∧
    (strikeWord s x1).tm = s.tm ∧ (strikeWord s x1).clk = s.clk ∧ (strikeWord s x1).cfg = s.cfg ∧
    (strikeWord s x1).fh = s.fh ∧ (strikeWord s x1).dl = s.dl ∧ (strikeWord s x1).ul = s.ul ∧ (strikeWord s x1).bf = s.bf ∧
    (strikeWord s x1).lin = s.lin ∧ (strikeWord s x1).core = s.core ∧ (strikeWord s x1).rf = s.rf ∧
    (strikeWord s x1).bias = s.bias ∧ (strikeWord s x1).hk = s.hk ∧ (strikeWord s x1).pwr = s.pwr ∧
    (strikeWord s x1).th = s.th ∧ (strikeWord s x1).cal = s.cal ∧ (strikeWord s x1).rk = s.rk ∧
    (strikeWord s x1).test = s.test ∧ (strikeWord s x1).life = s.life ∧ (strikeWord s x1).boot = s.boot ∧
    (strikeWord s x1).stat = s.stat ∧ (strikeWord s x1).out = s.out ∧ (strikeWord s x1).fresh = s.fresh ∧
    (strikeWord s x1).pending = s.pending := by
  unfold strikeWord
  simp

@[simp] theorem scrubMeet_frame (s : State) (x1 : ScrubHit) :
    (scrubMeet s x1).sys = s.sys ∧ (scrubMeet s x1).em = s.em ∧ (scrubMeet s x1).tm = s.tm ∧ (scrubMeet s x1).clk = s.clk ∧
    (scrubMeet s x1).cfg = s.cfg ∧ (scrubMeet s x1).fh = s.fh ∧ (scrubMeet s x1).dl = s.dl ∧ (scrubMeet s x1).ul = s.ul ∧
    (scrubMeet s x1).bf = s.bf ∧ (scrubMeet s x1).lin = s.lin ∧ (scrubMeet s x1).core = s.core ∧ (scrubMeet s x1).rf = s.rf ∧
    (scrubMeet s x1).bias = s.bias ∧ (scrubMeet s x1).hk = s.hk ∧ (scrubMeet s x1).pwr = s.pwr ∧ (scrubMeet s x1).th = s.th ∧
    (scrubMeet s x1).nvm = s.nvm ∧ (scrubMeet s x1).cal = s.cal ∧ (scrubMeet s x1).rk = s.rk ∧
    (scrubMeet s x1).test = s.test ∧ (scrubMeet s x1).life = s.life ∧ (scrubMeet s x1).boot = s.boot ∧
    (scrubMeet s x1).stat = s.stat ∧ (scrubMeet s x1).pending = s.pending := by
  by_cases h0 : x1.memory = 0 <;> simp [scrubMeet, takeFree, h0]

@[simp] theorem rockerWrite_frame (x0 : Nat) (x1 : Nat) (s : State) :
    (rockerWrite x0 x1 s).ph = s.ph ∧ (rockerWrite x0 x1 s).ev = s.ev ∧ (rockerWrite x0 x1 s).sys = s.sys ∧
    (rockerWrite x0 x1 s).em = s.em ∧ (rockerWrite x0 x1 s).tm = s.tm ∧ (rockerWrite x0 x1 s).clk = s.clk ∧
    (rockerWrite x0 x1 s).cfg = s.cfg ∧ (rockerWrite x0 x1 s).fh = s.fh ∧ (rockerWrite x0 x1 s).dl = s.dl ∧
    (rockerWrite x0 x1 s).ul = s.ul ∧ (rockerWrite x0 x1 s).bf = s.bf ∧ (rockerWrite x0 x1 s).lin = s.lin ∧
    (rockerWrite x0 x1 s).core = s.core ∧ (rockerWrite x0 x1 s).rf = s.rf ∧ (rockerWrite x0 x1 s).bias = s.bias ∧
    (rockerWrite x0 x1 s).hk = s.hk ∧ (rockerWrite x0 x1 s).pwr = s.pwr ∧ (rockerWrite x0 x1 s).th = s.th ∧
    (rockerWrite x0 x1 s).nvm = s.nvm ∧ (rockerWrite x0 x1 s).cal = s.cal ∧ (rockerWrite x0 x1 s).ls = s.ls ∧
    (rockerWrite x0 x1 s).test = s.test ∧ (rockerWrite x0 x1 s).life = s.life ∧ (rockerWrite x0 x1 s).boot = s.boot ∧
    (rockerWrite x0 x1 s).stat = s.stat ∧ (rockerWrite x0 x1 s).out = s.out ∧ (rockerWrite x0 x1 s).fresh = s.fresh ∧
    (rockerWrite x0 x1 s).pending = s.pending := by
  unfold rockerWrite
  simp

@[simp] theorem digestWords_frame (s : State) :
    (digestWords s).2.ph = s.ph ∧ (digestWords s).2.ev = s.ev ∧ (digestWords s).2.sys = s.sys ∧ (digestWords s).2.em = s.em ∧
    (digestWords s).2.tm = s.tm ∧ (digestWords s).2.clk = s.clk ∧ (digestWords s).2.cfg = s.cfg ∧
    (digestWords s).2.fh = s.fh ∧ (digestWords s).2.dl = s.dl ∧ (digestWords s).2.ul = s.ul ∧ (digestWords s).2.bf = s.bf ∧
    (digestWords s).2.lin = s.lin ∧ (digestWords s).2.core = s.core ∧ (digestWords s).2.rf = s.rf ∧
    (digestWords s).2.bias = s.bias ∧ (digestWords s).2.hk = s.hk ∧ (digestWords s).2.pwr = s.pwr ∧
    (digestWords s).2.th = s.th ∧ (digestWords s).2.nvm = s.nvm ∧ (digestWords s).2.cal = s.cal ∧
    (digestWords s).2.ls = s.ls ∧ (digestWords s).2.rk = s.rk ∧ (digestWords s).2.test = s.test ∧
    (digestWords s).2.life = s.life ∧ (digestWords s).2.boot = s.boot ∧ (digestWords s).2.stat = s.stat ∧
    (digestWords s).2.out = s.out ∧ (digestWords s).2.pending = s.pending := by
  unfold digestWords
  repeat' (first | (simp; done) | (simp only [takeFree]) | split | (dsimp only))

@[simp] theorem digestAct_frame (x0 : List Byte) (s : State) :
    (digestAct x0 s).ph = s.ph ∧ (digestAct x0 s).ev = s.ev ∧ (digestAct x0 s).sys = s.sys ∧ (digestAct x0 s).em = s.em ∧
    (digestAct x0 s).tm = s.tm ∧ (digestAct x0 s).clk = s.clk ∧ (digestAct x0 s).cfg = s.cfg ∧ (digestAct x0 s).fh = s.fh ∧
    (digestAct x0 s).dl = s.dl ∧ (digestAct x0 s).ul = s.ul ∧ (digestAct x0 s).bf = s.bf ∧ (digestAct x0 s).lin = s.lin ∧
    (digestAct x0 s).core = s.core ∧ (digestAct x0 s).rf = s.rf ∧ (digestAct x0 s).bias = s.bias ∧
    (digestAct x0 s).hk = s.hk ∧ (digestAct x0 s).pwr = s.pwr ∧ (digestAct x0 s).th = s.th ∧ (digestAct x0 s).nvm = s.nvm ∧
    (digestAct x0 s).cal = s.cal ∧ (digestAct x0 s).ls = s.ls ∧ (digestAct x0 s).test = s.test ∧
    (digestAct x0 s).life = s.life ∧ (digestAct x0 s).boot = s.boot ∧ (digestAct x0 s).stat = s.stat ∧
    (digestAct x0 s).out = s.out ∧ (digestAct x0 s).fresh = s.fresh ∧ (digestAct x0 s).pending = s.pending := by
  unfold digestAct
  repeat' (first | (simp; done) | (simp only [takeFree]) | split | (dsimp only))

@[simp] theorem digestMessage_frame (x0 : Nat) (x1 : Instant) (x2 : List Byte) (s : State) :
    (digestMessage x0 x1 x2 s).ph = s.ph ∧ (digestMessage x0 x1 x2 s).ev = s.ev ∧ (digestMessage x0 x1 x2 s).sys = s.sys ∧
    (digestMessage x0 x1 x2 s).em = s.em ∧ (digestMessage x0 x1 x2 s).tm = s.tm ∧ (digestMessage x0 x1 x2 s).clk = s.clk ∧
    (digestMessage x0 x1 x2 s).cfg = s.cfg ∧ (digestMessage x0 x1 x2 s).fh = s.fh ∧ (digestMessage x0 x1 x2 s).dl = s.dl ∧
    (digestMessage x0 x1 x2 s).ul = s.ul ∧ (digestMessage x0 x1 x2 s).bf = s.bf ∧ (digestMessage x0 x1 x2 s).lin = s.lin ∧
    (digestMessage x0 x1 x2 s).core = s.core ∧ (digestMessage x0 x1 x2 s).rf = s.rf ∧
    (digestMessage x0 x1 x2 s).bias = s.bias ∧ (digestMessage x0 x1 x2 s).hk = s.hk ∧ (digestMessage x0 x1 x2 s).pwr = s.pwr ∧
    (digestMessage x0 x1 x2 s).th = s.th ∧ (digestMessage x0 x1 x2 s).nvm = s.nvm ∧ (digestMessage x0 x1 x2 s).cal = s.cal ∧
    (digestMessage x0 x1 x2 s).ls = s.ls ∧ (digestMessage x0 x1 x2 s).test = s.test ∧
    (digestMessage x0 x1 x2 s).life = s.life ∧ (digestMessage x0 x1 x2 s).boot = s.boot ∧
    (digestMessage x0 x1 x2 s).stat = s.stat ∧ (digestMessage x0 x1 x2 s).out = s.out ∧
    (digestMessage x0 x1 x2 s).fresh = s.fresh ∧ (digestMessage x0 x1 x2 s).pending = s.pending := by
  unfold digestMessage
  simp

@[simp] theorem cutRaise_frame (s : State) :
    (cutRaise s).ph = s.ph ∧ (cutRaise s).ev = s.ev ∧ (cutRaise s).sys = s.sys ∧ (cutRaise s).em = s.em ∧
    (cutRaise s).tm = s.tm ∧ (cutRaise s).clk = s.clk ∧ (cutRaise s).cfg = s.cfg ∧ (cutRaise s).fh = s.fh ∧
    (cutRaise s).dl = s.dl ∧ (cutRaise s).ul = s.ul ∧ (cutRaise s).bf = s.bf ∧ (cutRaise s).lin = s.lin ∧
    (cutRaise s).core = s.core ∧ (cutRaise s).rf = s.rf ∧ (cutRaise s).bias = s.bias ∧ (cutRaise s).hk = s.hk ∧
    (cutRaise s).pwr = s.pwr ∧ (cutRaise s).th = s.th ∧ (cutRaise s).nvm = s.nvm ∧ (cutRaise s).cal = s.cal ∧
    (cutRaise s).ls = s.ls ∧ (cutRaise s).rk = s.rk ∧ (cutRaise s).test = s.test ∧ (cutRaise s).boot = s.boot ∧
    (cutRaise s).stat = s.stat ∧ (cutRaise s).out = s.out ∧ (cutRaise s).pending = s.pending := by
  unfold cutRaise
  repeat' (first | (simp; done) | (simp only [takeFree]) | split | (dsimp only))

@[simp] theorem dropWork_frame (s : State) :
    (dropWork s).ev = s.ev ∧ (dropWork s).sys = s.sys ∧ (dropWork s).em = s.em ∧ (dropWork s).tm = s.tm ∧
    (dropWork s).clk = s.clk ∧ (dropWork s).fh = s.fh ∧ (dropWork s).dl = s.dl ∧ (dropWork s).ul = s.ul ∧
    (dropWork s).lin = s.lin ∧ (dropWork s).core = s.core ∧ (dropWork s).rf = s.rf ∧ (dropWork s).hk = s.hk ∧
    (dropWork s).pwr = s.pwr ∧ (dropWork s).th = s.th ∧ (dropWork s).cal = s.cal ∧ (dropWork s).ls = s.ls ∧
    (dropWork s).rk = s.rk ∧ (dropWork s).test = s.test ∧ (dropWork s).boot = s.boot ∧ (dropWork s).stat = s.stat ∧
    (dropWork s).out = s.out ∧ (dropWork s).pending = s.pending := by
  unfold dropWork
  simp

@[simp] theorem dropKernels_frame (s : State) :
    (dropKernels s).ph = s.ph ∧ (dropKernels s).ev = s.ev ∧ (dropKernels s).sys = s.sys ∧ (dropKernels s).em = s.em ∧
    (dropKernels s).tm = s.tm ∧ (dropKernels s).clk = s.clk ∧ (dropKernels s).cfg = s.cfg ∧ (dropKernels s).fh = s.fh ∧
    (dropKernels s).dl = s.dl ∧ (dropKernels s).ul = s.ul ∧ (dropKernels s).bf = s.bf ∧ (dropKernels s).lin = s.lin ∧
    (dropKernels s).rf = s.rf ∧ (dropKernels s).bias = s.bias ∧ (dropKernels s).hk = s.hk ∧ (dropKernels s).pwr = s.pwr ∧
    (dropKernels s).th = s.th ∧ (dropKernels s).nvm = s.nvm ∧ (dropKernels s).cal = s.cal ∧ (dropKernels s).ls = s.ls ∧
    (dropKernels s).rk = s.rk ∧ (dropKernels s).test = s.test ∧ (dropKernels s).life = s.life ∧
    (dropKernels s).boot = s.boot ∧ (dropKernels s).stat = s.stat ∧ (dropKernels s).out = s.out ∧
    (dropKernels s).fresh = s.fresh ∧ (dropKernels s).pending = s.pending := by
  unfold dropKernels
  simp

@[simp] theorem unsetSequences_frame (s : State) :
    (unsetSequences s).ev = s.ev ∧ (unsetSequences s).sys = s.sys ∧ (unsetSequences s).em = s.em ∧
    (unsetSequences s).tm = s.tm ∧ (unsetSequences s).clk = s.clk ∧ (unsetSequences s).cfg = s.cfg ∧
    (unsetSequences s).fh = s.fh ∧ (unsetSequences s).dl = s.dl ∧ (unsetSequences s).ul = s.ul ∧
    (unsetSequences s).bf = s.bf ∧ (unsetSequences s).lin = s.lin ∧ (unsetSequences s).core = s.core ∧
    (unsetSequences s).rf = s.rf ∧ (unsetSequences s).bias = s.bias ∧ (unsetSequences s).hk = s.hk ∧
    (unsetSequences s).pwr = s.pwr ∧ (unsetSequences s).th = s.th ∧ (unsetSequences s).nvm = s.nvm ∧
    (unsetSequences s).cal = s.cal ∧ (unsetSequences s).ls = s.ls ∧ (unsetSequences s).rk = s.rk ∧
    (unsetSequences s).test = s.test ∧ (unsetSequences s).life = s.life ∧ (unsetSequences s).boot = s.boot ∧
    (unsetSequences s).stat = s.stat ∧ (unsetSequences s).out = s.out ∧ (unsetSequences s).fresh = s.fresh ∧
    (unsetSequences s).pending = s.pending := by
  unfold unsetSequences
  simp

@[simp] theorem restartFirmware_frame (s : State) :
    (restartFirmware s).ul = s.ul ∧ (restartFirmware s).boot = s.boot ∧ (restartFirmware s).pending = s.pending := by
  unfold restartFirmware
  simp

@[simp] theorem releaseReset_frame (x0 : BitVec 8) (s : State) :
    (releaseReset x0 s).sys = s.sys ∧ (releaseReset x0 s).cfg = s.cfg ∧ (releaseReset x0 s).cal = s.cal ∧
    (releaseReset x0 s).test = s.test ∧ (releaseReset x0 s).life = s.life ∧ (releaseReset x0 s).pending = s.pending := by
  unfold releaseReset
  simp

@[simp] theorem readPatch_frame (s : State) :
    (readPatch s).sys = s.sys ∧ (readPatch s).em = s.em ∧ (readPatch s).tm = s.tm ∧ (readPatch s).clk = s.clk ∧
    (readPatch s).cfg = s.cfg ∧ (readPatch s).fh = s.fh ∧ (readPatch s).dl = s.dl ∧ (readPatch s).ul = s.ul ∧
    (readPatch s).bf = s.bf ∧ (readPatch s).lin = s.lin ∧ (readPatch s).core = s.core ∧ (readPatch s).rf = s.rf ∧
    (readPatch s).bias = s.bias ∧ (readPatch s).hk = s.hk ∧ (readPatch s).pwr = s.pwr ∧ (readPatch s).th = s.th ∧
    (readPatch s).cal = s.cal ∧ (readPatch s).ls = s.ls ∧ (readPatch s).rk = s.rk ∧ (readPatch s).test = s.test ∧
    (readPatch s).life = s.life ∧ (readPatch s).boot = s.boot ∧ (readPatch s).stat = s.stat ∧ (readPatch s).fresh = s.fresh ∧
    (readPatch s).pending = s.pending := by
  unfold readPatch
  simp

@[simp] theorem sigFailBit_frame (x0 : List Byte) (s : State) :
    (sigFailBit x0 s).ph = s.ph ∧ (sigFailBit x0 s).sys = s.sys ∧ (sigFailBit x0 s).em = s.em ∧ (sigFailBit x0 s).tm = s.tm ∧
    (sigFailBit x0 s).clk = s.clk ∧ (sigFailBit x0 s).cfg = s.cfg ∧ (sigFailBit x0 s).fh = s.fh ∧
    (sigFailBit x0 s).dl = s.dl ∧ (sigFailBit x0 s).ul = s.ul ∧ (sigFailBit x0 s).bf = s.bf ∧ (sigFailBit x0 s).lin = s.lin ∧
    (sigFailBit x0 s).core = s.core ∧ (sigFailBit x0 s).rf = s.rf ∧ (sigFailBit x0 s).bias = s.bias ∧
    (sigFailBit x0 s).hk = s.hk ∧ (sigFailBit x0 s).pwr = s.pwr ∧ (sigFailBit x0 s).th = s.th ∧
    (sigFailBit x0 s).nvm = s.nvm ∧ (sigFailBit x0 s).cal = s.cal ∧ (sigFailBit x0 s).ls = s.ls ∧
    (sigFailBit x0 s).rk = s.rk ∧ (sigFailBit x0 s).test = s.test ∧ (sigFailBit x0 s).life = s.life ∧
    (sigFailBit x0 s).boot = s.boot ∧ (sigFailBit x0 s).stat = s.stat ∧ (sigFailBit x0 s).out = s.out ∧
    (sigFailBit x0 s).fresh = s.fresh ∧ (sigFailBit x0 s).pending = s.pending := by
  unfold sigFailBit
  simp

@[simp] theorem zeroRecords_frame (s : State) :
    (zeroRecords s).ph = s.ph ∧ (zeroRecords s).ev = s.ev ∧ (zeroRecords s).sys = s.sys ∧ (zeroRecords s).em = s.em ∧
    (zeroRecords s).tm = s.tm ∧ (zeroRecords s).clk = s.clk ∧ (zeroRecords s).cfg = s.cfg ∧ (zeroRecords s).fh = s.fh ∧
    (zeroRecords s).dl = s.dl ∧ (zeroRecords s).ul = s.ul ∧ (zeroRecords s).bf = s.bf ∧ (zeroRecords s).lin = s.lin ∧
    (zeroRecords s).core = s.core ∧ (zeroRecords s).rf = s.rf ∧ (zeroRecords s).bias = s.bias ∧ (zeroRecords s).hk = s.hk ∧
    (zeroRecords s).pwr = s.pwr ∧ (zeroRecords s).th = s.th ∧ (zeroRecords s).cal = s.cal ∧ (zeroRecords s).rk = s.rk ∧
    (zeroRecords s).test = s.test ∧ (zeroRecords s).boot = s.boot ∧ (zeroRecords s).stat = s.stat ∧
    (zeroRecords s).out = s.out ∧ (zeroRecords s).fresh = s.fresh ∧ (zeroRecords s).pending = s.pending := by
  unfold zeroRecords
  simp

@[simp] theorem bootDomains_frame (s : State) :
    (bootDomains s).ph = s.ph ∧ (bootDomains s).ev = s.ev ∧ (bootDomains s).sys = s.sys ∧ (bootDomains s).em = s.em ∧
    (bootDomains s).tm = s.tm ∧ (bootDomains s).clk = s.clk ∧ (bootDomains s).cfg = s.cfg ∧ (bootDomains s).fh = s.fh ∧
    (bootDomains s).dl = s.dl ∧ (bootDomains s).ul = s.ul ∧ (bootDomains s).bf = s.bf ∧ (bootDomains s).lin = s.lin ∧
    (bootDomains s).core = s.core ∧ (bootDomains s).rf = s.rf ∧ (bootDomains s).bias = s.bias ∧ (bootDomains s).hk = s.hk ∧
    (bootDomains s).th = s.th ∧ (bootDomains s).nvm = s.nvm ∧ (bootDomains s).cal = s.cal ∧ (bootDomains s).ls = s.ls ∧
    (bootDomains s).rk = s.rk ∧ (bootDomains s).test = s.test ∧ (bootDomains s).life = s.life ∧
    (bootDomains s).stat = s.stat ∧ (bootDomains s).out = s.out ∧ (bootDomains s).fresh = s.fresh ∧
    (bootDomains s).pending = s.pending := by
  unfold bootDomains
  simp

@[simp] theorem startAethiq_frame (x0 : FwHeader) (x1 : Option (Nat × Nat × Nat)) (s : State) :
    (startAethiq x0 x1 s).tm = s.tm ∧ (startAethiq x0 x1 s).cfg = s.cfg ∧ (startAethiq x0 x1 s).fh = s.fh ∧
    (startAethiq x0 x1 s).dl = s.dl ∧ (startAethiq x0 x1 s).ul = s.ul ∧ (startAethiq x0 x1 s).bf = s.bf ∧
    (startAethiq x0 x1 s).lin = s.lin ∧ (startAethiq x0 x1 s).core = s.core ∧ (startAethiq x0 x1 s).rf = s.rf ∧
    (startAethiq x0 x1 s).bias = s.bias ∧ (startAethiq x0 x1 s).hk = s.hk ∧ (startAethiq x0 x1 s).th = s.th ∧
    (startAethiq x0 x1 s).cal = s.cal ∧ (startAethiq x0 x1 s).ls = s.ls ∧ (startAethiq x0 x1 s).rk = s.rk ∧
    (startAethiq x0 x1 s).test = s.test ∧ (startAethiq x0 x1 s).life = s.life ∧ (startAethiq x0 x1 s).stat = s.stat ∧
    (startAethiq x0 x1 s).pending = s.pending := by
  unfold startAethiq
  repeat' (first | (simp; done) | (simp only [takeFree]) | split | (dsimp only))

@[simp] theorem openFlash_frame (x0 : Bool) (s : State) :
    (openFlash x0 s).ph = s.ph ∧ (openFlash x0 s).ev = s.ev ∧ (openFlash x0 s).sys = s.sys ∧ (openFlash x0 s).em = s.em ∧
    (openFlash x0 s).tm = s.tm ∧ (openFlash x0 s).clk = s.clk ∧ (openFlash x0 s).cfg = s.cfg ∧ (openFlash x0 s).fh = s.fh ∧
    (openFlash x0 s).dl = s.dl ∧ (openFlash x0 s).ul = s.ul ∧ (openFlash x0 s).bf = s.bf ∧ (openFlash x0 s).lin = s.lin ∧
    (openFlash x0 s).core = s.core ∧ (openFlash x0 s).rf = s.rf ∧ (openFlash x0 s).bias = s.bias ∧
    (openFlash x0 s).hk = s.hk ∧ (openFlash x0 s).pwr = s.pwr ∧ (openFlash x0 s).th = s.th ∧ (openFlash x0 s).nvm = s.nvm ∧
    (openFlash x0 s).cal = s.cal ∧ (openFlash x0 s).ls = s.ls ∧ (openFlash x0 s).rk = s.rk ∧ (openFlash x0 s).test = s.test ∧
    (openFlash x0 s).life = s.life ∧ (openFlash x0 s).stat = s.stat ∧ (openFlash x0 s).fresh = s.fresh ∧
    (openFlash x0 s).pending = s.pending := by
  unfold openFlash
  simp

@[simp] theorem readRecords_frame (s : State) :
    (readRecords s).sys = s.sys ∧ (readRecords s).em = s.em ∧ (readRecords s).tm = s.tm ∧ (readRecords s).clk = s.clk ∧
    (readRecords s).cfg = s.cfg ∧ (readRecords s).fh = s.fh ∧ (readRecords s).dl = s.dl ∧ (readRecords s).ul = s.ul ∧
    (readRecords s).bf = s.bf ∧ (readRecords s).lin = s.lin ∧ (readRecords s).core = s.core ∧ (readRecords s).rf = s.rf ∧
    (readRecords s).bias = s.bias ∧ (readRecords s).hk = s.hk ∧ (readRecords s).pwr = s.pwr ∧ (readRecords s).th = s.th ∧
    (readRecords s).cal = s.cal ∧ (readRecords s).rk = s.rk ∧ (readRecords s).test = s.test ∧ (readRecords s).life = s.life ∧
    (readRecords s).boot = s.boot ∧ (readRecords s).stat = s.stat ∧ (readRecords s).fresh = s.fresh ∧
    (readRecords s).pending = s.pending := by
  unfold readRecords
  simp

@[simp] theorem loadAtBoot_frame (s : State) :
    (loadAtBoot s).sys = s.sys ∧ (loadAtBoot s).em = s.em ∧ (loadAtBoot s).tm = s.tm ∧ (loadAtBoot s).clk = s.clk ∧
    (loadAtBoot s).cfg = s.cfg ∧ (loadAtBoot s).fh = s.fh ∧ (loadAtBoot s).dl = s.dl ∧ (loadAtBoot s).ul = s.ul ∧
    (loadAtBoot s).core = s.core ∧ (loadAtBoot s).rf = s.rf ∧ (loadAtBoot s).hk = s.hk ∧ (loadAtBoot s).pwr = s.pwr ∧
    (loadAtBoot s).th = s.th ∧ (loadAtBoot s).ls = s.ls ∧ (loadAtBoot s).rk = s.rk ∧ (loadAtBoot s).test = s.test ∧
    (loadAtBoot s).life = s.life ∧ (loadAtBoot s).boot = s.boot ∧ (loadAtBoot s).fresh = s.fresh ∧
    (loadAtBoot s).pending = s.pending := by
  unfold loadAtBoot
  repeat' (first | (simp; done) | (simp only [takeFree]) | split | (dsimp only))

@[simp] theorem notice_frame (x0 : Nat) (x1 : Nat) (s : State) :
    (notice x0 x1 s).sys = s.sys ∧ (notice x0 x1 s).em = s.em ∧ (notice x0 x1 s).tm = s.tm ∧ (notice x0 x1 s).clk = s.clk ∧
    (notice x0 x1 s).cfg = s.cfg ∧ (notice x0 x1 s).fh = s.fh ∧ (notice x0 x1 s).dl = s.dl ∧ (notice x0 x1 s).ul = s.ul ∧
    (notice x0 x1 s).bf = s.bf ∧ (notice x0 x1 s).lin = s.lin ∧ (notice x0 x1 s).core = s.core ∧ (notice x0 x1 s).rf = s.rf ∧
    (notice x0 x1 s).bias = s.bias ∧ (notice x0 x1 s).hk = s.hk ∧ (notice x0 x1 s).pwr = s.pwr ∧ (notice x0 x1 s).th = s.th ∧
    (notice x0 x1 s).nvm = s.nvm ∧ (notice x0 x1 s).cal = s.cal ∧ (notice x0 x1 s).ls = s.ls ∧ (notice x0 x1 s).rk = s.rk ∧
    (notice x0 x1 s).test = s.test ∧ (notice x0 x1 s).life = s.life ∧ (notice x0 x1 s).boot = s.boot ∧
    (notice x0 x1 s).stat = s.stat ∧ (notice x0 x1 s).fresh = s.fresh ∧ (notice x0 x1 s).pending = s.pending := by
  unfold notice
  simp

@[simp] theorem bootNotices_frame (s : State) :
    (bootNotices s).sys = s.sys ∧ (bootNotices s).em = s.em ∧ (bootNotices s).tm = s.tm ∧ (bootNotices s).clk = s.clk ∧
    (bootNotices s).cfg = s.cfg ∧ (bootNotices s).fh = s.fh ∧ (bootNotices s).dl = s.dl ∧ (bootNotices s).ul = s.ul ∧
    (bootNotices s).bf = s.bf ∧ (bootNotices s).lin = s.lin ∧ (bootNotices s).core = s.core ∧ (bootNotices s).rf = s.rf ∧
    (bootNotices s).bias = s.bias ∧ (bootNotices s).hk = s.hk ∧ (bootNotices s).pwr = s.pwr ∧ (bootNotices s).th = s.th ∧
    (bootNotices s).nvm = s.nvm ∧ (bootNotices s).cal = s.cal ∧ (bootNotices s).ls = s.ls ∧ (bootNotices s).rk = s.rk ∧
    (bootNotices s).test = s.test ∧ (bootNotices s).stat = s.stat ∧ (bootNotices s).fresh = s.fresh ∧
    (bootNotices s).pending = s.pending := by
  unfold bootNotices
  repeat' (first | (simp; done) | (simp only [takeFree]) | split | (dsimp only))

@[simp] theorem announce_frame (s : State) :
    (announce s).em = s.em ∧ (announce s).tm = s.tm ∧ (announce s).clk = s.clk ∧ (announce s).cfg = s.cfg ∧
    (announce s).fh = s.fh ∧ (announce s).dl = s.dl ∧ (announce s).ul = s.ul ∧ (announce s).bf = s.bf ∧
    (announce s).lin = s.lin ∧ (announce s).core = s.core ∧ (announce s).rf = s.rf ∧ (announce s).bias = s.bias ∧
    (announce s).hk = s.hk ∧ (announce s).pwr = s.pwr ∧ (announce s).th = s.th ∧ (announce s).nvm = s.nvm ∧
    (announce s).cal = s.cal ∧ (announce s).ls = s.ls ∧ (announce s).rk = s.rk ∧ (announce s).test = s.test ∧
    (announce s).life = s.life ∧ (announce s).boot = s.boot ∧ (announce s).stat = s.stat ∧ (announce s).fresh = s.fresh ∧
    (announce s).pending = s.pending := by
  unfold announce
  simp

@[simp] theorem endBoot_frame (s : State) :
    (endBoot s).em = s.em ∧ (endBoot s).tm = s.tm ∧ (endBoot s).clk = s.clk ∧ (endBoot s).cfg = s.cfg ∧
    (endBoot s).fh = s.fh ∧ (endBoot s).dl = s.dl ∧ (endBoot s).ul = s.ul ∧ (endBoot s).bf = s.bf ∧ (endBoot s).lin = s.lin ∧
    (endBoot s).core = s.core ∧ (endBoot s).rf = s.rf ∧ (endBoot s).bias = s.bias ∧ (endBoot s).hk = s.hk ∧
    (endBoot s).pwr = s.pwr ∧ (endBoot s).th = s.th ∧ (endBoot s).cal = s.cal ∧ (endBoot s).rk = s.rk ∧
    (endBoot s).test = s.test ∧ (endBoot s).stat = s.stat ∧ (endBoot s).fresh = s.fresh ∧
    (endBoot s).pending = s.pending := by
  unfold endBoot
  simp

@[simp] theorem fwDone_frame (x0 : Nat) (x1 : Nat) (x2 : List Byte) (s : State) :
    (fwDone x0 x1 x2 s).sys = s.sys ∧ (fwDone x0 x1 x2 s).em = s.em ∧ (fwDone x0 x1 x2 s).tm = s.tm ∧
    (fwDone x0 x1 x2 s).clk = s.clk ∧ (fwDone x0 x1 x2 s).cfg = s.cfg ∧ (fwDone x0 x1 x2 s).fh = s.fh ∧
    (fwDone x0 x1 x2 s).dl = s.dl ∧ (fwDone x0 x1 x2 s).ul = s.ul ∧ (fwDone x0 x1 x2 s).bf = s.bf ∧
    (fwDone x0 x1 x2 s).lin = s.lin ∧ (fwDone x0 x1 x2 s).core = s.core ∧ (fwDone x0 x1 x2 s).rf = s.rf ∧
    (fwDone x0 x1 x2 s).bias = s.bias ∧ (fwDone x0 x1 x2 s).hk = s.hk ∧ (fwDone x0 x1 x2 s).pwr = s.pwr ∧
    (fwDone x0 x1 x2 s).th = s.th ∧ (fwDone x0 x1 x2 s).cal = s.cal ∧ (fwDone x0 x1 x2 s).rk = s.rk ∧
    (fwDone x0 x1 x2 s).test = s.test ∧ (fwDone x0 x1 x2 s).life = s.life ∧ (fwDone x0 x1 x2 s).boot = s.boot ∧
    (fwDone x0 x1 x2 s).stat = s.stat ∧ (fwDone x0 x1 x2 s).fresh = s.fresh ∧ (fwDone x0 x1 x2 s).pending = s.pending := by
  unfold fwDone
  repeat' (first | (simp; done) | (simp only [takeFree]) | split | (dsimp only))

@[simp] theorem unqueue_frame (x0 : Mode) (s : State) :
    (unqueue x0 s).ph = s.ph ∧ (unqueue x0 s).ev = s.ev ∧ (unqueue x0 s).sys = s.sys ∧ (unqueue x0 s).em = s.em ∧
    (unqueue x0 s).tm = s.tm ∧ (unqueue x0 s).clk = s.clk ∧ (unqueue x0 s).cfg = s.cfg ∧ (unqueue x0 s).fh = s.fh ∧
    (unqueue x0 s).dl = s.dl ∧ (unqueue x0 s).ul = s.ul ∧ (unqueue x0 s).bf = s.bf ∧ (unqueue x0 s).lin = s.lin ∧
    (unqueue x0 s).core = s.core ∧ (unqueue x0 s).rf = s.rf ∧ (unqueue x0 s).bias = s.bias ∧ (unqueue x0 s).hk = s.hk ∧
    (unqueue x0 s).th = s.th ∧ (unqueue x0 s).nvm = s.nvm ∧ (unqueue x0 s).cal = s.cal ∧ (unqueue x0 s).ls = s.ls ∧
    (unqueue x0 s).rk = s.rk ∧ (unqueue x0 s).test = s.test ∧ (unqueue x0 s).life = s.life ∧ (unqueue x0 s).boot = s.boot ∧
    (unqueue x0 s).stat = s.stat ∧ (unqueue x0 s).out = s.out ∧ (unqueue x0 s).fresh = s.fresh ∧
    (unqueue x0 s).pending = s.pending := by
  unfold unqueue
  repeat' (first | (simp; done) | (simp only [takeFree]) | split | (dsimp only))

@[simp] theorem leaveTest_frame (s : State) :
    (leaveTest s).sys = s.sys ∧ (leaveTest s).ul = s.ul ∧ (leaveTest s).life = s.life ∧ (leaveTest s).boot = s.boot ∧
    (leaveTest s).pending = s.pending := by
  unfold leaveTest
  repeat' (first | (simp; done) | (simp only [takeFree]) | split | (dsimp only))

@[simp] theorem startSlices_frame (s : State) :
    (startSlices s).sys = s.sys ∧ (startSlices s).cfg = s.cfg ∧ (startSlices s).ul = s.ul ∧ (startSlices s).bias = s.bias ∧
    (startSlices s).th = s.th ∧ (startSlices s).cal = s.cal ∧ (startSlices s).test = s.test ∧ (startSlices s).life = s.life ∧
    (startSlices s).boot = s.boot ∧ (startSlices s).pending = s.pending := by
  unfold startSlices
  simp

@[simp] theorem programKey_frame (x0 : Nat) (x1 : List Byte) (s : State) :
    (programKey x0 x1 s).ph = s.ph ∧ (programKey x0 x1 s).ev = s.ev ∧ (programKey x0 x1 s).sys = s.sys ∧
    (programKey x0 x1 s).em = s.em ∧ (programKey x0 x1 s).tm = s.tm ∧ (programKey x0 x1 s).clk = s.clk ∧
    (programKey x0 x1 s).cfg = s.cfg ∧ (programKey x0 x1 s).fh = s.fh ∧ (programKey x0 x1 s).dl = s.dl ∧
    (programKey x0 x1 s).ul = s.ul ∧ (programKey x0 x1 s).bf = s.bf ∧ (programKey x0 x1 s).lin = s.lin ∧
    (programKey x0 x1 s).core = s.core ∧ (programKey x0 x1 s).rf = s.rf ∧ (programKey x0 x1 s).bias = s.bias ∧
    (programKey x0 x1 s).hk = s.hk ∧ (programKey x0 x1 s).pwr = s.pwr ∧ (programKey x0 x1 s).th = s.th ∧
    (programKey x0 x1 s).nvm = s.nvm ∧ (programKey x0 x1 s).cal = s.cal ∧ (programKey x0 x1 s).ls = s.ls ∧
    (programKey x0 x1 s).rk = s.rk ∧ (programKey x0 x1 s).test = s.test ∧ (programKey x0 x1 s).boot = s.boot ∧
    (programKey x0 x1 s).stat = s.stat ∧ (programKey x0 x1 s).out = s.out ∧ (programKey x0 x1 s).fresh = s.fresh ∧
    (programKey x0 x1 s).pending = s.pending := by
  unfold programKey
  simp

@[simp] theorem programCell_frame (s : State) (x1 : Nat) :
    (programCell s x1).ph = s.ph ∧ (programCell s x1).ev = s.ev ∧ (programCell s x1).sys = s.sys ∧
    (programCell s x1).em = s.em ∧ (programCell s x1).tm = s.tm ∧ (programCell s x1).clk = s.clk ∧
    (programCell s x1).cfg = s.cfg ∧ (programCell s x1).fh = s.fh ∧ (programCell s x1).dl = s.dl ∧
    (programCell s x1).ul = s.ul ∧ (programCell s x1).bf = s.bf ∧ (programCell s x1).lin = s.lin ∧
    (programCell s x1).core = s.core ∧ (programCell s x1).rf = s.rf ∧ (programCell s x1).bias = s.bias ∧
    (programCell s x1).hk = s.hk ∧ (programCell s x1).pwr = s.pwr ∧ (programCell s x1).th = s.th ∧
    (programCell s x1).nvm = s.nvm ∧ (programCell s x1).cal = s.cal ∧ (programCell s x1).ls = s.ls ∧
    (programCell s x1).rk = s.rk ∧ (programCell s x1).test = s.test ∧ (programCell s x1).boot = s.boot ∧
    (programCell s x1).stat = s.stat ∧ (programCell s x1).out = s.out ∧ (programCell s x1).fresh = s.fresh ∧
    (programCell s x1).pending = s.pending := by
  unfold programCell
  simp

@[simp] theorem programCells_frame (x0 : Nat) (x1 : Stage) (x2 : List Byte) (x3 : Option Nat) (s : State) :
    (programCells x0 x1 x2 x3 s).ph = s.ph ∧ (programCells x0 x1 x2 x3 s).ev = s.ev ∧
    (programCells x0 x1 x2 x3 s).sys = s.sys ∧ (programCells x0 x1 x2 x3 s).em = s.em ∧
    (programCells x0 x1 x2 x3 s).tm = s.tm ∧ (programCells x0 x1 x2 x3 s).clk = s.clk ∧
    (programCells x0 x1 x2 x3 s).cfg = s.cfg ∧ (programCells x0 x1 x2 x3 s).fh = s.fh ∧
    (programCells x0 x1 x2 x3 s).dl = s.dl ∧ (programCells x0 x1 x2 x3 s).ul = s.ul ∧ (programCells x0 x1 x2 x3 s).bf = s.bf ∧
    (programCells x0 x1 x2 x3 s).lin = s.lin ∧ (programCells x0 x1 x2 x3 s).core = s.core ∧
    (programCells x0 x1 x2 x3 s).rf = s.rf ∧ (programCells x0 x1 x2 x3 s).bias = s.bias ∧
    (programCells x0 x1 x2 x3 s).hk = s.hk ∧ (programCells x0 x1 x2 x3 s).pwr = s.pwr ∧
    (programCells x0 x1 x2 x3 s).th = s.th ∧ (programCells x0 x1 x2 x3 s).nvm = s.nvm ∧
    (programCells x0 x1 x2 x3 s).cal = s.cal ∧ (programCells x0 x1 x2 x3 s).ls = s.ls ∧
    (programCells x0 x1 x2 x3 s).rk = s.rk ∧ (programCells x0 x1 x2 x3 s).test = s.test ∧
    (programCells x0 x1 x2 x3 s).boot = s.boot ∧ (programCells x0 x1 x2 x3 s).stat = s.stat ∧
    (programCells x0 x1 x2 x3 s).out = s.out ∧ (programCells x0 x1 x2 x3 s).fresh = s.fresh ∧
    (programCells x0 x1 x2 x3 s).pending = s.pending := by
  unfold programCells
  simp

@[simp] theorem setRoute_frame (x0 : Nat) (x1 : Nat) (s : State) :
    (setRoute x0 x1 s).ph = s.ph ∧ (setRoute x0 x1 s).sys = s.sys ∧ (setRoute x0 x1 s).em = s.em ∧
    (setRoute x0 x1 s).tm = s.tm ∧ (setRoute x0 x1 s).clk = s.clk ∧ (setRoute x0 x1 s).cfg = s.cfg ∧
    (setRoute x0 x1 s).fh = s.fh ∧ (setRoute x0 x1 s).dl = s.dl ∧ (setRoute x0 x1 s).ul = s.ul ∧
    (setRoute x0 x1 s).bf = s.bf ∧ (setRoute x0 x1 s).lin = s.lin ∧ (setRoute x0 x1 s).core = s.core ∧
    (setRoute x0 x1 s).rf = s.rf ∧ (setRoute x0 x1 s).bias = s.bias ∧ (setRoute x0 x1 s).hk = s.hk ∧
    (setRoute x0 x1 s).pwr = s.pwr ∧ (setRoute x0 x1 s).th = s.th ∧ (setRoute x0 x1 s).nvm = s.nvm ∧
    (setRoute x0 x1 s).cal = s.cal ∧ (setRoute x0 x1 s).ls = s.ls ∧ (setRoute x0 x1 s).rk = s.rk ∧
    (setRoute x0 x1 s).test = s.test ∧ (setRoute x0 x1 s).life = s.life ∧ (setRoute x0 x1 s).boot = s.boot ∧
    (setRoute x0 x1 s).stat = s.stat ∧ (setRoute x0 x1 s).out = s.out ∧ (setRoute x0 x1 s).fresh = s.fresh ∧
    (setRoute x0 x1 s).pending = s.pending := by
  unfold setRoute
  simp

@[simp] theorem clearEvents_frame (x0 : Nat) (x1 : Nat) (s : State) :
    (clearEvents x0 x1 s).ph = s.ph ∧ (clearEvents x0 x1 s).sys = s.sys ∧ (clearEvents x0 x1 s).em = s.em ∧
    (clearEvents x0 x1 s).tm = s.tm ∧ (clearEvents x0 x1 s).clk = s.clk ∧ (clearEvents x0 x1 s).cfg = s.cfg ∧
    (clearEvents x0 x1 s).fh = s.fh ∧ (clearEvents x0 x1 s).dl = s.dl ∧ (clearEvents x0 x1 s).ul = s.ul ∧
    (clearEvents x0 x1 s).bf = s.bf ∧ (clearEvents x0 x1 s).lin = s.lin ∧ (clearEvents x0 x1 s).core = s.core ∧
    (clearEvents x0 x1 s).rf = s.rf ∧ (clearEvents x0 x1 s).bias = s.bias ∧ (clearEvents x0 x1 s).hk = s.hk ∧
    (clearEvents x0 x1 s).pwr = s.pwr ∧ (clearEvents x0 x1 s).th = s.th ∧ (clearEvents x0 x1 s).nvm = s.nvm ∧
    (clearEvents x0 x1 s).cal = s.cal ∧ (clearEvents x0 x1 s).ls = s.ls ∧ (clearEvents x0 x1 s).rk = s.rk ∧
    (clearEvents x0 x1 s).test = s.test ∧ (clearEvents x0 x1 s).life = s.life ∧ (clearEvents x0 x1 s).boot = s.boot ∧
    (clearEvents x0 x1 s).stat = s.stat ∧ (clearEvents x0 x1 s).out = s.out ∧ (clearEvents x0 x1 s).fresh = s.fresh ∧
    (clearEvents x0 x1 s).pending = s.pending := by
  unfold clearEvents
  simp

@[simp] theorem loseFraming_frame (x0 : Nat) (x1 : Nat) (x2 : Nat) (x3 : Hdr) (s : State) :
    (loseFraming x0 x1 x2 x3 s).sys = s.sys ∧ (loseFraming x0 x1 x2 x3 s).em = s.em ∧ (loseFraming x0 x1 x2 x3 s).tm = s.tm ∧
    (loseFraming x0 x1 x2 x3 s).clk = s.clk ∧ (loseFraming x0 x1 x2 x3 s).cfg = s.cfg ∧
    (loseFraming x0 x1 x2 x3 s).fh = s.fh ∧ (loseFraming x0 x1 x2 x3 s).dl = s.dl ∧ (loseFraming x0 x1 x2 x3 s).ul = s.ul ∧
    (loseFraming x0 x1 x2 x3 s).bf = s.bf ∧ (loseFraming x0 x1 x2 x3 s).lin = s.lin ∧
    (loseFraming x0 x1 x2 x3 s).core = s.core ∧ (loseFraming x0 x1 x2 x3 s).rf = s.rf ∧
    (loseFraming x0 x1 x2 x3 s).bias = s.bias ∧ (loseFraming x0 x1 x2 x3 s).hk = s.hk ∧
    (loseFraming x0 x1 x2 x3 s).pwr = s.pwr ∧ (loseFraming x0 x1 x2 x3 s).th = s.th ∧
    (loseFraming x0 x1 x2 x3 s).nvm = s.nvm ∧ (loseFraming x0 x1 x2 x3 s).cal = s.cal ∧
    (loseFraming x0 x1 x2 x3 s).ls = s.ls ∧ (loseFraming x0 x1 x2 x3 s).rk = s.rk ∧
    (loseFraming x0 x1 x2 x3 s).test = s.test ∧ (loseFraming x0 x1 x2 x3 s).life = s.life ∧
    (loseFraming x0 x1 x2 x3 s).boot = s.boot ∧ (loseFraming x0 x1 x2 x3 s).stat = s.stat ∧
    (loseFraming x0 x1 x2 x3 s).fresh = s.fresh ∧ (loseFraming x0 x1 x2 x3 s).pending = s.pending := by
  unfold loseFraming
  simp

@[simp] theorem doorbell_frame (x0 : Nat) (x1 : Nat) (s : State) :
    (doorbell x0 x1 s).sys = s.sys ∧ (doorbell x0 x1 s).em = s.em ∧ (doorbell x0 x1 s).tm = s.tm ∧
    (doorbell x0 x1 s).clk = s.clk ∧ (doorbell x0 x1 s).cfg = s.cfg ∧ (doorbell x0 x1 s).fh = s.fh ∧
    (doorbell x0 x1 s).dl = s.dl ∧ (doorbell x0 x1 s).ul = s.ul ∧ (doorbell x0 x1 s).bf = s.bf ∧
    (doorbell x0 x1 s).lin = s.lin ∧ (doorbell x0 x1 s).core = s.core ∧ (doorbell x0 x1 s).rf = s.rf ∧
    (doorbell x0 x1 s).bias = s.bias ∧ (doorbell x0 x1 s).hk = s.hk ∧ (doorbell x0 x1 s).pwr = s.pwr ∧
    (doorbell x0 x1 s).th = s.th ∧ (doorbell x0 x1 s).nvm = s.nvm ∧ (doorbell x0 x1 s).cal = s.cal ∧
    (doorbell x0 x1 s).ls = s.ls ∧ (doorbell x0 x1 s).rk = s.rk ∧ (doorbell x0 x1 s).test = s.test ∧
    (doorbell x0 x1 s).life = s.life ∧ (doorbell x0 x1 s).boot = s.boot ∧ (doorbell x0 x1 s).stat = s.stat ∧
    (doorbell x0 x1 s).fresh = s.fresh ∧ (doorbell x0 x1 s).pending = s.pending := by
  unfold doorbell
  simp

@[simp] theorem headWrite_frame (x0 : Nat) (x1 : Nat) (s : State) :
    (headWrite x0 x1 s).sys = s.sys ∧ (headWrite x0 x1 s).em = s.em ∧ (headWrite x0 x1 s).tm = s.tm ∧
    (headWrite x0 x1 s).clk = s.clk ∧ (headWrite x0 x1 s).cfg = s.cfg ∧ (headWrite x0 x1 s).fh = s.fh ∧
    (headWrite x0 x1 s).dl = s.dl ∧ (headWrite x0 x1 s).ul = s.ul ∧ (headWrite x0 x1 s).bf = s.bf ∧
    (headWrite x0 x1 s).lin = s.lin ∧ (headWrite x0 x1 s).core = s.core ∧ (headWrite x0 x1 s).rf = s.rf ∧
    (headWrite x0 x1 s).bias = s.bias ∧ (headWrite x0 x1 s).hk = s.hk ∧ (headWrite x0 x1 s).pwr = s.pwr ∧
    (headWrite x0 x1 s).th = s.th ∧ (headWrite x0 x1 s).nvm = s.nvm ∧ (headWrite x0 x1 s).cal = s.cal ∧
    (headWrite x0 x1 s).ls = s.ls ∧ (headWrite x0 x1 s).rk = s.rk ∧ (headWrite x0 x1 s).test = s.test ∧
    (headWrite x0 x1 s).life = s.life ∧ (headWrite x0 x1 s).boot = s.boot ∧ (headWrite x0 x1 s).stat = s.stat ∧
    (headWrite x0 x1 s).fresh = s.fresh ∧ (headWrite x0 x1 s).pending = s.pending := by
  unfold headWrite
  simp

@[simp] theorem disableRing_frame (x0 : Nat) (s : State) :
    (disableRing x0 s).ev = s.ev ∧ (disableRing x0 s).sys = s.sys ∧ (disableRing x0 s).em = s.em ∧
    (disableRing x0 s).tm = s.tm ∧ (disableRing x0 s).clk = s.clk ∧ (disableRing x0 s).cfg = s.cfg ∧
    (disableRing x0 s).fh = s.fh ∧ (disableRing x0 s).dl = s.dl ∧ (disableRing x0 s).ul = s.ul ∧
    (disableRing x0 s).bf = s.bf ∧ (disableRing x0 s).lin = s.lin ∧ (disableRing x0 s).core = s.core ∧
    (disableRing x0 s).rf = s.rf ∧ (disableRing x0 s).bias = s.bias ∧ (disableRing x0 s).hk = s.hk ∧
    (disableRing x0 s).pwr = s.pwr ∧ (disableRing x0 s).th = s.th ∧ (disableRing x0 s).nvm = s.nvm ∧
    (disableRing x0 s).cal = s.cal ∧ (disableRing x0 s).ls = s.ls ∧ (disableRing x0 s).rk = s.rk ∧
    (disableRing x0 s).test = s.test ∧ (disableRing x0 s).life = s.life ∧ (disableRing x0 s).boot = s.boot ∧
    (disableRing x0 s).stat = s.stat ∧ (disableRing x0 s).out = s.out ∧ (disableRing x0 s).fresh = s.fresh ∧
    (disableRing x0 s).pending = s.pending := by
  unfold disableRing
  simp

@[simp] theorem enableRing_frame (x0 : Nat) (s : State) :
    (enableRing x0 s).sys = s.sys ∧ (enableRing x0 s).em = s.em ∧ (enableRing x0 s).tm = s.tm ∧
    (enableRing x0 s).clk = s.clk ∧ (enableRing x0 s).cfg = s.cfg ∧ (enableRing x0 s).fh = s.fh ∧
    (enableRing x0 s).dl = s.dl ∧ (enableRing x0 s).ul = s.ul ∧ (enableRing x0 s).bf = s.bf ∧ (enableRing x0 s).lin = s.lin ∧
    (enableRing x0 s).core = s.core ∧ (enableRing x0 s).rf = s.rf ∧ (enableRing x0 s).bias = s.bias ∧
    (enableRing x0 s).hk = s.hk ∧ (enableRing x0 s).pwr = s.pwr ∧ (enableRing x0 s).th = s.th ∧
    (enableRing x0 s).nvm = s.nvm ∧ (enableRing x0 s).cal = s.cal ∧ (enableRing x0 s).ls = s.ls ∧
    (enableRing x0 s).rk = s.rk ∧ (enableRing x0 s).test = s.test ∧ (enableRing x0 s).life = s.life ∧
    (enableRing x0 s).boot = s.boot ∧ (enableRing x0 s).stat = s.stat ∧ (enableRing x0 s).fresh = s.fresh ∧
    (enableRing x0 s).pending = s.pending := by
  unfold enableRing
  simp

@[simp] theorem ctrlWrite_frame (x0 : Nat) (x1 : Nat) (s : State) :
    (ctrlWrite x0 x1 s).sys = s.sys ∧ (ctrlWrite x0 x1 s).em = s.em ∧ (ctrlWrite x0 x1 s).tm = s.tm ∧
    (ctrlWrite x0 x1 s).clk = s.clk ∧ (ctrlWrite x0 x1 s).cfg = s.cfg ∧ (ctrlWrite x0 x1 s).fh = s.fh ∧
    (ctrlWrite x0 x1 s).dl = s.dl ∧ (ctrlWrite x0 x1 s).ul = s.ul ∧ (ctrlWrite x0 x1 s).bf = s.bf ∧
    (ctrlWrite x0 x1 s).lin = s.lin ∧ (ctrlWrite x0 x1 s).core = s.core ∧ (ctrlWrite x0 x1 s).rf = s.rf ∧
    (ctrlWrite x0 x1 s).bias = s.bias ∧ (ctrlWrite x0 x1 s).hk = s.hk ∧ (ctrlWrite x0 x1 s).pwr = s.pwr ∧
    (ctrlWrite x0 x1 s).th = s.th ∧ (ctrlWrite x0 x1 s).nvm = s.nvm ∧ (ctrlWrite x0 x1 s).cal = s.cal ∧
    (ctrlWrite x0 x1 s).ls = s.ls ∧ (ctrlWrite x0 x1 s).rk = s.rk ∧ (ctrlWrite x0 x1 s).test = s.test ∧
    (ctrlWrite x0 x1 s).life = s.life ∧ (ctrlWrite x0 x1 s).boot = s.boot ∧ (ctrlWrite x0 x1 s).stat = s.stat ∧
    (ctrlWrite x0 x1 s).fresh = s.fresh ∧ (ctrlWrite x0 x1 s).pending = s.pending := by
  unfold ctrlWrite
  simp

@[simp] theorem ringWrite_frame (x0 : Nat) (x1 : Nat) (x2 : Nat) (s : State) :
    (ringWrite x0 x1 x2 s).sys = s.sys ∧ (ringWrite x0 x1 x2 s).em = s.em ∧ (ringWrite x0 x1 x2 s).tm = s.tm ∧
    (ringWrite x0 x1 x2 s).clk = s.clk ∧ (ringWrite x0 x1 x2 s).cfg = s.cfg ∧ (ringWrite x0 x1 x2 s).fh = s.fh ∧
    (ringWrite x0 x1 x2 s).dl = s.dl ∧ (ringWrite x0 x1 x2 s).ul = s.ul ∧ (ringWrite x0 x1 x2 s).bf = s.bf ∧
    (ringWrite x0 x1 x2 s).lin = s.lin ∧ (ringWrite x0 x1 x2 s).core = s.core ∧ (ringWrite x0 x1 x2 s).rf = s.rf ∧
    (ringWrite x0 x1 x2 s).bias = s.bias ∧ (ringWrite x0 x1 x2 s).hk = s.hk ∧ (ringWrite x0 x1 x2 s).pwr = s.pwr ∧
    (ringWrite x0 x1 x2 s).th = s.th ∧ (ringWrite x0 x1 x2 s).nvm = s.nvm ∧ (ringWrite x0 x1 x2 s).cal = s.cal ∧
    (ringWrite x0 x1 x2 s).ls = s.ls ∧ (ringWrite x0 x1 x2 s).rk = s.rk ∧ (ringWrite x0 x1 x2 s).test = s.test ∧
    (ringWrite x0 x1 x2 s).life = s.life ∧ (ringWrite x0 x1 x2 s).boot = s.boot ∧ (ringWrite x0 x1 x2 s).stat = s.stat ∧
    (ringWrite x0 x1 x2 s).fresh = s.fresh ∧ (ringWrite x0 x1 x2 s).pending = s.pending := by
  unfold ringWrite
  repeat' (first | (simp; done) | (simp only [takeFree]) | split | (dsimp only))

@[simp] theorem emergWrite_frame (x0 : Nat) (s : State) :
    (emergWrite x0 s).sys = s.sys ∧ (emergWrite x0 s).life = s.life ∧ (emergWrite x0 s).boot = s.boot ∧
    (emergWrite x0 s).pending = s.pending := by
  unfold emergWrite
  simp

@[simp] theorem msixWrite_frame (x0 : Nat) (x1 : Nat) (s : State) :
    (msixWrite x0 x1 s).ev = s.ev ∧ (msixWrite x0 x1 s).sys = s.sys ∧ (msixWrite x0 x1 s).em = s.em ∧
    (msixWrite x0 x1 s).tm = s.tm ∧ (msixWrite x0 x1 s).clk = s.clk ∧ (msixWrite x0 x1 s).cfg = s.cfg ∧
    (msixWrite x0 x1 s).fh = s.fh ∧ (msixWrite x0 x1 s).dl = s.dl ∧ (msixWrite x0 x1 s).ul = s.ul ∧
    (msixWrite x0 x1 s).bf = s.bf ∧ (msixWrite x0 x1 s).lin = s.lin ∧ (msixWrite x0 x1 s).core = s.core ∧
    (msixWrite x0 x1 s).rf = s.rf ∧ (msixWrite x0 x1 s).bias = s.bias ∧ (msixWrite x0 x1 s).hk = s.hk ∧
    (msixWrite x0 x1 s).pwr = s.pwr ∧ (msixWrite x0 x1 s).th = s.th ∧ (msixWrite x0 x1 s).nvm = s.nvm ∧
    (msixWrite x0 x1 s).cal = s.cal ∧ (msixWrite x0 x1 s).ls = s.ls ∧ (msixWrite x0 x1 s).rk = s.rk ∧
    (msixWrite x0 x1 s).test = s.test ∧ (msixWrite x0 x1 s).life = s.life ∧ (msixWrite x0 x1 s).boot = s.boot ∧
    (msixWrite x0 x1 s).stat = s.stat ∧ (msixWrite x0 x1 s).fresh = s.fresh ∧ (msixWrite x0 x1 s).pending = s.pending := by
  unfold msixWrite
  simp

@[simp] theorem bar4Effect_frame (x0 : Nat) (x1 : Nat) (x2 : Nat) (s : State) :
    (bar4Effect x0 x1 x2 s).ev = s.ev ∧ (bar4Effect x0 x1 x2 s).sys = s.sys ∧ (bar4Effect x0 x1 x2 s).em = s.em ∧
    (bar4Effect x0 x1 x2 s).tm = s.tm ∧ (bar4Effect x0 x1 x2 s).clk = s.clk ∧ (bar4Effect x0 x1 x2 s).cfg = s.cfg ∧
    (bar4Effect x0 x1 x2 s).fh = s.fh ∧ (bar4Effect x0 x1 x2 s).dl = s.dl ∧ (bar4Effect x0 x1 x2 s).ul = s.ul ∧
    (bar4Effect x0 x1 x2 s).bf = s.bf ∧ (bar4Effect x0 x1 x2 s).lin = s.lin ∧ (bar4Effect x0 x1 x2 s).core = s.core ∧
    (bar4Effect x0 x1 x2 s).rf = s.rf ∧ (bar4Effect x0 x1 x2 s).bias = s.bias ∧ (bar4Effect x0 x1 x2 s).hk = s.hk ∧
    (bar4Effect x0 x1 x2 s).pwr = s.pwr ∧ (bar4Effect x0 x1 x2 s).th = s.th ∧ (bar4Effect x0 x1 x2 s).nvm = s.nvm ∧
    (bar4Effect x0 x1 x2 s).cal = s.cal ∧ (bar4Effect x0 x1 x2 s).ls = s.ls ∧ (bar4Effect x0 x1 x2 s).rk = s.rk ∧
    (bar4Effect x0 x1 x2 s).test = s.test ∧ (bar4Effect x0 x1 x2 s).life = s.life ∧ (bar4Effect x0 x1 x2 s).boot = s.boot ∧
    (bar4Effect x0 x1 x2 s).stat = s.stat ∧ (bar4Effect x0 x1 x2 s).fresh = s.fresh ∧
    (bar4Effect x0 x1 x2 s).pending = s.pending := by
  unfold bar4Effect
  simp

@[simp] theorem bar4Write_frame (x0 : Nat) (x1 : Nat) (x2 : Nat) (s : State) :
    (bar4Write x0 x1 x2 s).sys = s.sys ∧ (bar4Write x0 x1 x2 s).tm = s.tm ∧ (bar4Write x0 x1 x2 s).clk = s.clk ∧
    (bar4Write x0 x1 x2 s).fh = s.fh ∧ (bar4Write x0 x1 x2 s).dl = s.dl ∧ (bar4Write x0 x1 x2 s).ul = s.ul ∧
    (bar4Write x0 x1 x2 s).bf = s.bf ∧ (bar4Write x0 x1 x2 s).core = s.core ∧ (bar4Write x0 x1 x2 s).bias = s.bias ∧
    (bar4Write x0 x1 x2 s).hk = s.hk ∧ (bar4Write x0 x1 x2 s).nvm = s.nvm ∧ (bar4Write x0 x1 x2 s).cal = s.cal ∧
    (bar4Write x0 x1 x2 s).life = s.life ∧ (bar4Write x0 x1 x2 s).boot = s.boot ∧
    (bar4Write x0 x1 x2 s).pending = s.pending := by
  unfold bar4Write
  simp

@[simp] theorem pcieFails_frame (x0 : Nat) (x1 : Nat) (s : State) :
    (pcieFails x0 x1 s).sys = s.sys ∧ (pcieFails x0 x1 s).em = s.em ∧ (pcieFails x0 x1 s).tm = s.tm ∧
    (pcieFails x0 x1 s).clk = s.clk ∧ (pcieFails x0 x1 s).cfg = s.cfg ∧ (pcieFails x0 x1 s).fh = s.fh ∧
    (pcieFails x0 x1 s).dl = s.dl ∧ (pcieFails x0 x1 s).ul = s.ul ∧ (pcieFails x0 x1 s).bf = s.bf ∧
    (pcieFails x0 x1 s).lin = s.lin ∧ (pcieFails x0 x1 s).core = s.core ∧ (pcieFails x0 x1 s).rf = s.rf ∧
    (pcieFails x0 x1 s).bias = s.bias ∧ (pcieFails x0 x1 s).hk = s.hk ∧ (pcieFails x0 x1 s).th = s.th ∧
    (pcieFails x0 x1 s).nvm = s.nvm ∧ (pcieFails x0 x1 s).cal = s.cal ∧ (pcieFails x0 x1 s).ls = s.ls ∧
    (pcieFails x0 x1 s).rk = s.rk ∧ (pcieFails x0 x1 s).test = s.test ∧ (pcieFails x0 x1 s).life = s.life ∧
    (pcieFails x0 x1 s).boot = s.boot ∧ (pcieFails x0 x1 s).stat = s.stat ∧ (pcieFails x0 x1 s).fresh = s.fresh ∧
    (pcieFails x0 x1 s).pending = s.pending := by
  unfold pcieFails
  simp

@[simp] theorem bar4Read_frame (x0 : Nat) (x1 : Nat) (s : State) :
    (bar4Read x0 x1 s).sys = s.sys ∧ (bar4Read x0 x1 s).tm = s.tm ∧ (bar4Read x0 x1 s).clk = s.clk ∧
    (bar4Read x0 x1 s).fh = s.fh ∧ (bar4Read x0 x1 s).dl = s.dl ∧ (bar4Read x0 x1 s).ul = s.ul ∧
    (bar4Read x0 x1 s).bf = s.bf ∧ (bar4Read x0 x1 s).core = s.core ∧ (bar4Read x0 x1 s).bias = s.bias ∧
    (bar4Read x0 x1 s).hk = s.hk ∧ (bar4Read x0 x1 s).nvm = s.nvm ∧ (bar4Read x0 x1 s).cal = s.cal ∧
    (bar4Read x0 x1 s).life = s.life ∧ (bar4Read x0 x1 s).boot = s.boot ∧ (bar4Read x0 x1 s).pending = s.pending := by
  unfold bar4Read
  simp

@[simp] theorem pcieRead_frame (x0 : Nat) (x1 : Nat) (s : State) :
    (pcieRead x0 x1 s).ev = s.ev ∧ (pcieRead x0 x1 s).sys = s.sys ∧ (pcieRead x0 x1 s).em = s.em ∧
    (pcieRead x0 x1 s).tm = s.tm ∧ (pcieRead x0 x1 s).clk = s.clk ∧ (pcieRead x0 x1 s).cfg = s.cfg ∧
    (pcieRead x0 x1 s).fh = s.fh ∧ (pcieRead x0 x1 s).dl = s.dl ∧ (pcieRead x0 x1 s).ul = s.ul ∧
    (pcieRead x0 x1 s).bf = s.bf ∧ (pcieRead x0 x1 s).lin = s.lin ∧ (pcieRead x0 x1 s).core = s.core ∧
    (pcieRead x0 x1 s).rf = s.rf ∧ (pcieRead x0 x1 s).bias = s.bias ∧ (pcieRead x0 x1 s).hk = s.hk ∧
    (pcieRead x0 x1 s).pwr = s.pwr ∧ (pcieRead x0 x1 s).th = s.th ∧ (pcieRead x0 x1 s).nvm = s.nvm ∧
    (pcieRead x0 x1 s).cal = s.cal ∧ (pcieRead x0 x1 s).ls = s.ls ∧ (pcieRead x0 x1 s).rk = s.rk ∧
    (pcieRead x0 x1 s).test = s.test ∧ (pcieRead x0 x1 s).life = s.life ∧ (pcieRead x0 x1 s).boot = s.boot ∧
    (pcieRead x0 x1 s).stat = s.stat ∧ (pcieRead x0 x1 s).pending = s.pending := by
  unfold pcieRead
  simp

@[simp] theorem w2Meet_frame (s : State) (x1 : Nat × Nat) :
    (w2Meet s x1).sys = s.sys ∧ (w2Meet s x1).em = s.em ∧ (w2Meet s x1).tm = s.tm ∧ (w2Meet s x1).clk = s.clk ∧
    (w2Meet s x1).cfg = s.cfg ∧ (w2Meet s x1).fh = s.fh ∧ (w2Meet s x1).dl = s.dl ∧ (w2Meet s x1).ul = s.ul ∧
    (w2Meet s x1).bf = s.bf ∧ (w2Meet s x1).lin = s.lin ∧ (w2Meet s x1).core = s.core ∧ (w2Meet s x1).rf = s.rf ∧
    (w2Meet s x1).bias = s.bias ∧ (w2Meet s x1).hk = s.hk ∧ (w2Meet s x1).pwr = s.pwr ∧ (w2Meet s x1).th = s.th ∧
    (w2Meet s x1).cal = s.cal ∧ (w2Meet s x1).rk = s.rk ∧ (w2Meet s x1).test = s.test ∧ (w2Meet s x1).life = s.life ∧
    (w2Meet s x1).boot = s.boot ∧ (w2Meet s x1).stat = s.stat ∧ (w2Meet s x1).fresh = s.fresh ∧
    (w2Meet s x1).pending = s.pending := by
  unfold w2Meet
  simp

@[simp] theorem w2Data_frame (x0 : Nat) (x1 : Nat) (s : State) :
    (w2Data x0 x1 s).2.sys = s.sys ∧ (w2Data x0 x1 s).2.em = s.em ∧ (w2Data x0 x1 s).2.tm = s.tm ∧
    (w2Data x0 x1 s).2.clk = s.clk ∧ (w2Data x0 x1 s).2.cfg = s.cfg ∧ (w2Data x0 x1 s).2.fh = s.fh ∧
    (w2Data x0 x1 s).2.dl = s.dl ∧ (w2Data x0 x1 s).2.ul = s.ul ∧ (w2Data x0 x1 s).2.bf = s.bf ∧
    (w2Data x0 x1 s).2.lin = s.lin ∧ (w2Data x0 x1 s).2.core = s.core ∧ (w2Data x0 x1 s).2.rf = s.rf ∧
    (w2Data x0 x1 s).2.bias = s.bias ∧ (w2Data x0 x1 s).2.hk = s.hk ∧ (w2Data x0 x1 s).2.pwr = s.pwr ∧
    (w2Data x0 x1 s).2.th = s.th ∧ (w2Data x0 x1 s).2.cal = s.cal ∧ (w2Data x0 x1 s).2.rk = s.rk ∧
    (w2Data x0 x1 s).2.test = s.test ∧ (w2Data x0 x1 s).2.life = s.life ∧ (w2Data x0 x1 s).2.boot = s.boot ∧
    (w2Data x0 x1 s).2.stat = s.stat ∧ (w2Data x0 x1 s).2.fresh = s.fresh ∧ (w2Data x0 x1 s).2.pending = s.pending := by
  unfold w2Data
  repeat' (first | (simp; done) | (simp only [takeFree]) | split | (dsimp only))

@[simp] theorem clearFlowStats_frame (x0 : Nat) (s : State) :
    (clearFlowStats x0 s).ph = s.ph ∧ (clearFlowStats x0 s).ev = s.ev ∧ (clearFlowStats x0 s).sys = s.sys ∧
    (clearFlowStats x0 s).em = s.em ∧ (clearFlowStats x0 s).tm = s.tm ∧ (clearFlowStats x0 s).clk = s.clk ∧
    (clearFlowStats x0 s).cfg = s.cfg ∧ (clearFlowStats x0 s).fh = s.fh ∧ (clearFlowStats x0 s).dl = s.dl ∧
    (clearFlowStats x0 s).ul = s.ul ∧ (clearFlowStats x0 s).bf = s.bf ∧ (clearFlowStats x0 s).lin = s.lin ∧
    (clearFlowStats x0 s).core = s.core ∧ (clearFlowStats x0 s).rf = s.rf ∧ (clearFlowStats x0 s).bias = s.bias ∧
    (clearFlowStats x0 s).hk = s.hk ∧ (clearFlowStats x0 s).pwr = s.pwr ∧ (clearFlowStats x0 s).th = s.th ∧
    (clearFlowStats x0 s).nvm = s.nvm ∧ (clearFlowStats x0 s).cal = s.cal ∧ (clearFlowStats x0 s).ls = s.ls ∧
    (clearFlowStats x0 s).rk = s.rk ∧ (clearFlowStats x0 s).test = s.test ∧ (clearFlowStats x0 s).life = s.life ∧
    (clearFlowStats x0 s).boot = s.boot ∧ (clearFlowStats x0 s).out = s.out ∧ (clearFlowStats x0 s).fresh = s.fresh ∧
    (clearFlowStats x0 s).pending = s.pending := by
  unfold clearFlowStats
  simp

@[simp] theorem enterFlow_frame (x0 : Flow) (s : State) :
    (enterFlow x0 s).ph = s.ph ∧ (enterFlow x0 s).ev = s.ev ∧ (enterFlow x0 s).sys = s.sys ∧ (enterFlow x0 s).em = s.em ∧
    (enterFlow x0 s).tm = s.tm ∧ (enterFlow x0 s).clk = s.clk ∧ (enterFlow x0 s).cfg = s.cfg ∧ (enterFlow x0 s).dl = s.dl ∧
    (enterFlow x0 s).bf = s.bf ∧ (enterFlow x0 s).lin = s.lin ∧ (enterFlow x0 s).core = s.core ∧ (enterFlow x0 s).rf = s.rf ∧
    (enterFlow x0 s).bias = s.bias ∧ (enterFlow x0 s).hk = s.hk ∧ (enterFlow x0 s).pwr = s.pwr ∧ (enterFlow x0 s).th = s.th ∧
    (enterFlow x0 s).nvm = s.nvm ∧ (enterFlow x0 s).cal = s.cal ∧ (enterFlow x0 s).ls = s.ls ∧ (enterFlow x0 s).rk = s.rk ∧
    (enterFlow x0 s).test = s.test ∧ (enterFlow x0 s).life = s.life ∧ (enterFlow x0 s).boot = s.boot ∧
    (enterFlow x0 s).stat = s.stat ∧ (enterFlow x0 s).out = s.out ∧ (enterFlow x0 s).fresh = s.fresh ∧
    (enterFlow x0 s).pending = s.pending := by
  unfold enterFlow
  simp

@[simp] theorem leaveFlow_frame (x0 : Nat) (s : State) :
    (leaveFlow x0 s).ph = s.ph ∧ (leaveFlow x0 s).ev = s.ev ∧ (leaveFlow x0 s).sys = s.sys ∧ (leaveFlow x0 s).em = s.em ∧
    (leaveFlow x0 s).tm = s.tm ∧ (leaveFlow x0 s).clk = s.clk ∧ (leaveFlow x0 s).cfg = s.cfg ∧ (leaveFlow x0 s).fh = s.fh ∧
    (leaveFlow x0 s).dl = s.dl ∧ (leaveFlow x0 s).bf = s.bf ∧ (leaveFlow x0 s).lin = s.lin ∧ (leaveFlow x0 s).core = s.core ∧
    (leaveFlow x0 s).rf = s.rf ∧ (leaveFlow x0 s).bias = s.bias ∧ (leaveFlow x0 s).hk = s.hk ∧ (leaveFlow x0 s).pwr = s.pwr ∧
    (leaveFlow x0 s).th = s.th ∧ (leaveFlow x0 s).nvm = s.nvm ∧ (leaveFlow x0 s).cal = s.cal ∧ (leaveFlow x0 s).ls = s.ls ∧
    (leaveFlow x0 s).rk = s.rk ∧ (leaveFlow x0 s).test = s.test ∧ (leaveFlow x0 s).life = s.life ∧
    (leaveFlow x0 s).boot = s.boot ∧ (leaveFlow x0 s).stat = s.stat ∧ (leaveFlow x0 s).out = s.out ∧
    (leaveFlow x0 s).fresh = s.fresh ∧ (leaveFlow x0 s).pending = s.pending := by
  unfold leaveFlow
  simp

@[simp] theorem flowsAtCommit_frame (x0 : Image) (x1 : Image) (s : State) :
    (flowsAtCommit x0 x1 s).ph = s.ph ∧ (flowsAtCommit x0 x1 s).ev = s.ev ∧ (flowsAtCommit x0 x1 s).sys = s.sys ∧
    (flowsAtCommit x0 x1 s).em = s.em ∧ (flowsAtCommit x0 x1 s).tm = s.tm ∧ (flowsAtCommit x0 x1 s).clk = s.clk ∧
    (flowsAtCommit x0 x1 s).cfg = s.cfg ∧ (flowsAtCommit x0 x1 s).dl = s.dl ∧ (flowsAtCommit x0 x1 s).bf = s.bf ∧
    (flowsAtCommit x0 x1 s).lin = s.lin ∧ (flowsAtCommit x0 x1 s).core = s.core ∧ (flowsAtCommit x0 x1 s).rf = s.rf ∧
    (flowsAtCommit x0 x1 s).bias = s.bias ∧ (flowsAtCommit x0 x1 s).hk = s.hk ∧ (flowsAtCommit x0 x1 s).pwr = s.pwr ∧
    (flowsAtCommit x0 x1 s).th = s.th ∧ (flowsAtCommit x0 x1 s).nvm = s.nvm ∧ (flowsAtCommit x0 x1 s).cal = s.cal ∧
    (flowsAtCommit x0 x1 s).ls = s.ls ∧ (flowsAtCommit x0 x1 s).rk = s.rk ∧ (flowsAtCommit x0 x1 s).test = s.test ∧
    (flowsAtCommit x0 x1 s).life = s.life ∧ (flowsAtCommit x0 x1 s).boot = s.boot ∧ (flowsAtCommit x0 x1 s).out = s.out ∧
    (flowsAtCommit x0 x1 s).fresh = s.fresh ∧ (flowsAtCommit x0 x1 s).pending = s.pending := by
  unfold flowsAtCommit
  simp

@[simp] theorem filtersAtCommit_frame (x0 : Image) (x1 : Image) (x2 : Instant) (s : State) :
    (filtersAtCommit x0 x1 x2 s).ph = s.ph ∧ (filtersAtCommit x0 x1 x2 s).ev = s.ev ∧
    (filtersAtCommit x0 x1 x2 s).sys = s.sys ∧ (filtersAtCommit x0 x1 x2 s).em = s.em ∧
    (filtersAtCommit x0 x1 x2 s).tm = s.tm ∧ (filtersAtCommit x0 x1 x2 s).clk = s.clk ∧
    (filtersAtCommit x0 x1 x2 s).cfg = s.cfg ∧ (filtersAtCommit x0 x1 x2 s).fh = s.fh ∧
    (filtersAtCommit x0 x1 x2 s).dl = s.dl ∧ (filtersAtCommit x0 x1 x2 s).bf = s.bf ∧
    (filtersAtCommit x0 x1 x2 s).lin = s.lin ∧ (filtersAtCommit x0 x1 x2 s).core = s.core ∧
    (filtersAtCommit x0 x1 x2 s).rf = s.rf ∧ (filtersAtCommit x0 x1 x2 s).bias = s.bias ∧
    (filtersAtCommit x0 x1 x2 s).hk = s.hk ∧ (filtersAtCommit x0 x1 x2 s).pwr = s.pwr ∧
    (filtersAtCommit x0 x1 x2 s).th = s.th ∧ (filtersAtCommit x0 x1 x2 s).nvm = s.nvm ∧
    (filtersAtCommit x0 x1 x2 s).cal = s.cal ∧ (filtersAtCommit x0 x1 x2 s).ls = s.ls ∧
    (filtersAtCommit x0 x1 x2 s).rk = s.rk ∧ (filtersAtCommit x0 x1 x2 s).test = s.test ∧
    (filtersAtCommit x0 x1 x2 s).life = s.life ∧ (filtersAtCommit x0 x1 x2 s).boot = s.boot ∧
    (filtersAtCommit x0 x1 x2 s).out = s.out ∧ (filtersAtCommit x0 x1 x2 s).fresh = s.fresh ∧
    (filtersAtCommit x0 x1 x2 s).pending = s.pending := by
  unfold filtersAtCommit
  simp

@[simp] theorem duplexAtCommit_frame (x0 : Instant) (s : State) :
    (duplexAtCommit x0 s).sys = s.sys ∧ (duplexAtCommit x0 s).cfg = s.cfg ∧ (duplexAtCommit x0 s).cal = s.cal ∧
    (duplexAtCommit x0 s).test = s.test ∧ (duplexAtCommit x0 s).life = s.life ∧ (duplexAtCommit x0 s).boot = s.boot ∧
    (duplexAtCommit x0 s).pending = s.pending := by
  unfold duplexAtCommit
  simp

@[simp] theorem goLive_frame (x0 : Image) (x1 : Boundary) (s : State) :
    (goLive x0 x1 s).ph = s.ph ∧ (goLive x0 x1 s).ev = s.ev ∧ (goLive x0 x1 s).sys = s.sys ∧ (goLive x0 x1 s).em = s.em ∧
    (goLive x0 x1 s).tm = s.tm ∧ (goLive x0 x1 s).clk = s.clk ∧ (goLive x0 x1 s).fh = s.fh ∧ (goLive x0 x1 s).dl = s.dl ∧
    (goLive x0 x1 s).ul = s.ul ∧ (goLive x0 x1 s).bf = s.bf ∧ (goLive x0 x1 s).lin = s.lin ∧ (goLive x0 x1 s).core = s.core ∧
    (goLive x0 x1 s).rf = s.rf ∧ (goLive x0 x1 s).bias = s.bias ∧ (goLive x0 x1 s).hk = s.hk ∧ (goLive x0 x1 s).pwr = s.pwr ∧
    (goLive x0 x1 s).th = s.th ∧ (goLive x0 x1 s).nvm = s.nvm ∧ (goLive x0 x1 s).cal = s.cal ∧ (goLive x0 x1 s).ls = s.ls ∧
    (goLive x0 x1 s).rk = s.rk ∧ (goLive x0 x1 s).test = s.test ∧ (goLive x0 x1 s).life = s.life ∧
    (goLive x0 x1 s).boot = s.boot ∧ (goLive x0 x1 s).stat = s.stat ∧ (goLive x0 x1 s).out = s.out ∧
    (goLive x0 x1 s).fresh = s.fresh ∧ (goLive x0 x1 s).pending = s.pending := by
  unfold goLive
  simp

@[simp] theorem commitAt_frame (x0 : Image) (x1 : Boundary) (s : State) :
    (commitAt x0 x1 s).sys = s.sys ∧ (commitAt x0 x1 s).cal = s.cal ∧ (commitAt x0 x1 s).test = s.test ∧
    (commitAt x0 x1 s).life = s.life ∧ (commitAt x0 x1 s).boot = s.boot ∧ (commitAt x0 x1 s).pending = s.pending := by
  unfold commitAt
  simp

@[simp] theorem purgeBuffer_frame (s : State) :
    (purgeBuffer s).ph = s.ph ∧ (purgeBuffer s).ev = s.ev ∧ (purgeBuffer s).sys = s.sys ∧ (purgeBuffer s).em = s.em ∧
    (purgeBuffer s).tm = s.tm ∧ (purgeBuffer s).clk = s.clk ∧ (purgeBuffer s).cfg = s.cfg ∧ (purgeBuffer s).fh = s.fh ∧
    (purgeBuffer s).ul = s.ul ∧ (purgeBuffer s).bf = s.bf ∧ (purgeBuffer s).lin = s.lin ∧ (purgeBuffer s).core = s.core ∧
    (purgeBuffer s).rf = s.rf ∧ (purgeBuffer s).bias = s.bias ∧ (purgeBuffer s).hk = s.hk ∧ (purgeBuffer s).pwr = s.pwr ∧
    (purgeBuffer s).th = s.th ∧ (purgeBuffer s).nvm = s.nvm ∧ (purgeBuffer s).cal = s.cal ∧ (purgeBuffer s).ls = s.ls ∧
    (purgeBuffer s).rk = s.rk ∧ (purgeBuffer s).test = s.test ∧ (purgeBuffer s).life = s.life ∧
    (purgeBuffer s).boot = s.boot ∧ (purgeBuffer s).stat = s.stat ∧ (purgeBuffer s).out = s.out ∧
    (purgeBuffer s).fresh = s.fresh ∧ (purgeBuffer s).pending = s.pending := by
  unfold purgeBuffer
  simp

@[simp] theorem parseSection_frame (x0 : Image) (x1 : Flow) (x2 : Nat) (x3 : Nat) (x4 : SymName) (x5 : Instant) (x6 : Instant) (x7 : List Byte) (x8 : List Byte) (s : State) :
    (parseSection x0 x1 x2 x3 x4 x5 x6 x7 x8 s).sys = s.sys ∧ (parseSection x0 x1 x2 x3 x4 x5 x6 x7 x8 s).em = s.em ∧
    (parseSection x0 x1 x2 x3 x4 x5 x6 x7 x8 s).tm = s.tm ∧ (parseSection x0 x1 x2 x3 x4 x5 x6 x7 x8 s).clk = s.clk ∧
    (parseSection x0 x1 x2 x3 x4 x5 x6 x7 x8 s).cfg = s.cfg ∧ (parseSection x0 x1 x2 x3 x4 x5 x6 x7 x8 s).ul = s.ul ∧
    (parseSection x0 x1 x2 x3 x4 x5 x6 x7 x8 s).bf = s.bf ∧ (parseSection x0 x1 x2 x3 x4 x5 x6 x7 x8 s).lin = s.lin ∧
    (parseSection x0 x1 x2 x3 x4 x5 x6 x7 x8 s).core = s.core ∧ (parseSection x0 x1 x2 x3 x4 x5 x6 x7 x8 s).rf = s.rf ∧
    (parseSection x0 x1 x2 x3 x4 x5 x6 x7 x8 s).bias = s.bias ∧ (parseSection x0 x1 x2 x3 x4 x5 x6 x7 x8 s).hk = s.hk ∧
    (parseSection x0 x1 x2 x3 x4 x5 x6 x7 x8 s).pwr = s.pwr ∧ (parseSection x0 x1 x2 x3 x4 x5 x6 x7 x8 s).th = s.th ∧
    (parseSection x0 x1 x2 x3 x4 x5 x6 x7 x8 s).nvm = s.nvm ∧ (parseSection x0 x1 x2 x3 x4 x5 x6 x7 x8 s).cal = s.cal ∧
    (parseSection x0 x1 x2 x3 x4 x5 x6 x7 x8 s).ls = s.ls ∧ (parseSection x0 x1 x2 x3 x4 x5 x6 x7 x8 s).rk = s.rk ∧
    (parseSection x0 x1 x2 x3 x4 x5 x6 x7 x8 s).test = s.test ∧ (parseSection x0 x1 x2 x3 x4 x5 x6 x7 x8 s).life = s.life ∧
    (parseSection x0 x1 x2 x3 x4 x5 x6 x7 x8 s).boot = s.boot ∧ (parseSection x0 x1 x2 x3 x4 x5 x6 x7 x8 s).fresh = s.fresh ∧
    (parseSection x0 x1 x2 x3 x4 x5 x6 x7 x8 s).pending = s.pending := by
  unfold parseSection
  repeat' (first | (simp; done) | (simp only [takeFree]) | split | (dsimp only))

@[simp] theorem parseMessage_frame (x0 : Nat) (x1 : Ingress) (s : State) :
    (parseMessage x0 x1 s).sys = s.sys ∧ (parseMessage x0 x1 s).em = s.em ∧ (parseMessage x0 x1 s).tm = s.tm ∧
    (parseMessage x0 x1 s).clk = s.clk ∧ (parseMessage x0 x1 s).cfg = s.cfg ∧ (parseMessage x0 x1 s).ul = s.ul ∧
    (parseMessage x0 x1 s).bf = s.bf ∧ (parseMessage x0 x1 s).lin = s.lin ∧ (parseMessage x0 x1 s).core = s.core ∧
    (parseMessage x0 x1 s).rf = s.rf ∧ (parseMessage x0 x1 s).bias = s.bias ∧ (parseMessage x0 x1 s).hk = s.hk ∧
    (parseMessage x0 x1 s).pwr = s.pwr ∧ (parseMessage x0 x1 s).th = s.th ∧ (parseMessage x0 x1 s).nvm = s.nvm ∧
    (parseMessage x0 x1 s).cal = s.cal ∧ (parseMessage x0 x1 s).ls = s.ls ∧ (parseMessage x0 x1 s).rk = s.rk ∧
    (parseMessage x0 x1 s).test = s.test ∧ (parseMessage x0 x1 s).life = s.life ∧ (parseMessage x0 x1 s).boot = s.boot ∧
    (parseMessage x0 x1 s).fresh = s.fresh ∧ (parseMessage x0 x1 s).pending = s.pending := by
  unfold parseMessage
  repeat' (first | (simp; done) | (simp only [takeFree]) | split | (dsimp only))

@[simp] theorem applyOverlap_frame (x0 : Section) (s : State) :
    (applyOverlap x0 s).sys = s.sys ∧ (applyOverlap x0 s).em = s.em ∧ (applyOverlap x0 s).tm = s.tm ∧
    (applyOverlap x0 s).clk = s.clk ∧ (applyOverlap x0 s).cfg = s.cfg ∧ (applyOverlap x0 s).fh = s.fh ∧
    (applyOverlap x0 s).ul = s.ul ∧ (applyOverlap x0 s).bf = s.bf ∧ (applyOverlap x0 s).lin = s.lin ∧
    (applyOverlap x0 s).core = s.core ∧ (applyOverlap x0 s).rf = s.rf ∧ (applyOverlap x0 s).bias = s.bias ∧
    (applyOverlap x0 s).hk = s.hk ∧ (applyOverlap x0 s).pwr = s.pwr ∧ (applyOverlap x0 s).th = s.th ∧
    (applyOverlap x0 s).nvm = s.nvm ∧ (applyOverlap x0 s).cal = s.cal ∧ (applyOverlap x0 s).ls = s.ls ∧
    (applyOverlap x0 s).rk = s.rk ∧ (applyOverlap x0 s).test = s.test ∧ (applyOverlap x0 s).life = s.life ∧
    (applyOverlap x0 s).boot = s.boot ∧ (applyOverlap x0 s).fresh = s.fresh ∧ (applyOverlap x0 s).pending = s.pending := by
  unfold applyOverlap
  simp

@[simp] theorem deliverNow_frame (x0 : Section) (s : State) :
    (deliverNow x0 s).ph = s.ph ∧ (deliverNow x0 s).ev = s.ev ∧ (deliverNow x0 s).sys = s.sys ∧ (deliverNow x0 s).em = s.em ∧
    (deliverNow x0 s).tm = s.tm ∧ (deliverNow x0 s).clk = s.clk ∧ (deliverNow x0 s).cfg = s.cfg ∧
    (deliverNow x0 s).fh = s.fh ∧ (deliverNow x0 s).ul = s.ul ∧ (deliverNow x0 s).lin = s.lin ∧
    (deliverNow x0 s).core = s.core ∧ (deliverNow x0 s).rf = s.rf ∧ (deliverNow x0 s).bias = s.bias ∧
    (deliverNow x0 s).hk = s.hk ∧ (deliverNow x0 s).pwr = s.pwr ∧ (deliverNow x0 s).th = s.th ∧
    (deliverNow x0 s).nvm = s.nvm ∧ (deliverNow x0 s).cal = s.cal ∧ (deliverNow x0 s).rk = s.rk ∧
    (deliverNow x0 s).test = s.test ∧ (deliverNow x0 s).life = s.life ∧ (deliverNow x0 s).boot = s.boot ∧
    (deliverNow x0 s).out = s.out ∧ (deliverNow x0 s).fresh = s.fresh ∧ (deliverNow x0 s).pending = s.pending := by
  unfold deliverNow
  simp

@[simp] theorem makeUsable_frame (x0 : Section) (s : State) :
    (makeUsable x0 s).sys = s.sys ∧ (makeUsable x0 s).em = s.em ∧ (makeUsable x0 s).tm = s.tm ∧
    (makeUsable x0 s).clk = s.clk ∧ (makeUsable x0 s).cfg = s.cfg ∧ (makeUsable x0 s).fh = s.fh ∧
    (makeUsable x0 s).ul = s.ul ∧ (makeUsable x0 s).lin = s.lin ∧ (makeUsable x0 s).core = s.core ∧
    (makeUsable x0 s).rf = s.rf ∧ (makeUsable x0 s).bias = s.bias ∧ (makeUsable x0 s).hk = s.hk ∧
    (makeUsable x0 s).pwr = s.pwr ∧ (makeUsable x0 s).th = s.th ∧ (makeUsable x0 s).nvm = s.nvm ∧
    (makeUsable x0 s).cal = s.cal ∧ (makeUsable x0 s).rk = s.rk ∧ (makeUsable x0 s).test = s.test ∧
    (makeUsable x0 s).life = s.life ∧ (makeUsable x0 s).boot = s.boot ∧ (makeUsable x0 s).fresh = s.fresh ∧
    (makeUsable x0 s).pending = s.pending := by
  unfold makeUsable
  simp

@[simp] theorem countFailure_frame (x0 : Section) (x1 : Nat) (s : State) :
    (countFailure x0 x1 s).sys = s.sys ∧ (countFailure x0 x1 s).em = s.em ∧ (countFailure x0 x1 s).tm = s.tm ∧
    (countFailure x0 x1 s).clk = s.clk ∧ (countFailure x0 x1 s).cfg = s.cfg ∧ (countFailure x0 x1 s).fh = s.fh ∧
    (countFailure x0 x1 s).dl = s.dl ∧ (countFailure x0 x1 s).ul = s.ul ∧ (countFailure x0 x1 s).bf = s.bf ∧
    (countFailure x0 x1 s).lin = s.lin ∧ (countFailure x0 x1 s).core = s.core ∧ (countFailure x0 x1 s).rf = s.rf ∧
    (countFailure x0 x1 s).bias = s.bias ∧ (countFailure x0 x1 s).hk = s.hk ∧ (countFailure x0 x1 s).pwr = s.pwr ∧
    (countFailure x0 x1 s).th = s.th ∧ (countFailure x0 x1 s).nvm = s.nvm ∧ (countFailure x0 x1 s).cal = s.cal ∧
    (countFailure x0 x1 s).ls = s.ls ∧ (countFailure x0 x1 s).rk = s.rk ∧ (countFailure x0 x1 s).test = s.test ∧
    (countFailure x0 x1 s).life = s.life ∧ (countFailure x0 x1 s).boot = s.boot ∧ (countFailure x0 x1 s).fresh = s.fresh ∧
    (countFailure x0 x1 s).pending = s.pending := by
  unfold countFailure
  simp

@[simp] theorem setSection_frame (x0 : Section) (s : State) :
    (setSection x0 s).ph = s.ph ∧ (setSection x0 s).ev = s.ev ∧ (setSection x0 s).sys = s.sys ∧ (setSection x0 s).em = s.em ∧
    (setSection x0 s).tm = s.tm ∧ (setSection x0 s).clk = s.clk ∧ (setSection x0 s).cfg = s.cfg ∧
    (setSection x0 s).fh = s.fh ∧ (setSection x0 s).ul = s.ul ∧ (setSection x0 s).bf = s.bf ∧ (setSection x0 s).lin = s.lin ∧
    (setSection x0 s).core = s.core ∧ (setSection x0 s).rf = s.rf ∧ (setSection x0 s).bias = s.bias ∧
    (setSection x0 s).hk = s.hk ∧ (setSection x0 s).pwr = s.pwr ∧ (setSection x0 s).th = s.th ∧
    (setSection x0 s).nvm = s.nvm ∧ (setSection x0 s).cal = s.cal ∧ (setSection x0 s).ls = s.ls ∧
    (setSection x0 s).rk = s.rk ∧ (setSection x0 s).test = s.test ∧ (setSection x0 s).life = s.life ∧
    (setSection x0 s).boot = s.boot ∧ (setSection x0 s).stat = s.stat ∧ (setSection x0 s).out = s.out ∧
    (setSection x0 s).fresh = s.fresh ∧ (setSection x0 s).pending = s.pending := by
  unfold setSection
  simp

@[simp] theorem failSection_frame (x0 : Section) (s : State) :
    (failSection x0 s).ph = s.ph ∧ (failSection x0 s).ev = s.ev ∧ (failSection x0 s).sys = s.sys ∧
    (failSection x0 s).em = s.em ∧ (failSection x0 s).tm = s.tm ∧ (failSection x0 s).clk = s.clk ∧
    (failSection x0 s).cfg = s.cfg ∧ (failSection x0 s).fh = s.fh ∧ (failSection x0 s).ul = s.ul ∧
    (failSection x0 s).bf = s.bf ∧ (failSection x0 s).lin = s.lin ∧ (failSection x0 s).core = s.core ∧
    (failSection x0 s).rf = s.rf ∧ (failSection x0 s).bias = s.bias ∧ (failSection x0 s).hk = s.hk ∧
    (failSection x0 s).pwr = s.pwr ∧ (failSection x0 s).th = s.th ∧ (failSection x0 s).nvm = s.nvm ∧
    (failSection x0 s).cal = s.cal ∧ (failSection x0 s).ls = s.ls ∧ (failSection x0 s).rk = s.rk ∧
    (failSection x0 s).test = s.test ∧ (failSection x0 s).life = s.life ∧ (failSection x0 s).boot = s.boot ∧
    (failSection x0 s).stat = s.stat ∧ (failSection x0 s).out = s.out ∧ (failSection x0 s).fresh = s.fresh ∧
    (failSection x0 s).pending = s.pending := by
  unfold failSection
  simp

@[simp] theorem bufferError_frame (x0 : Nat) (s : State) (x2 : Bool) :
    (bufferError x0 s x2).sys = s.sys ∧ (bufferError x0 s x2).em = s.em ∧ (bufferError x0 s x2).tm = s.tm ∧
    (bufferError x0 s x2).clk = s.clk ∧ (bufferError x0 s x2).cfg = s.cfg ∧ (bufferError x0 s x2).fh = s.fh ∧
    (bufferError x0 s x2).dl = s.dl ∧ (bufferError x0 s x2).ul = s.ul ∧ (bufferError x0 s x2).bf = s.bf ∧
    (bufferError x0 s x2).lin = s.lin ∧ (bufferError x0 s x2).core = s.core ∧ (bufferError x0 s x2).rf = s.rf ∧
    (bufferError x0 s x2).bias = s.bias ∧ (bufferError x0 s x2).hk = s.hk ∧ (bufferError x0 s x2).pwr = s.pwr ∧
    (bufferError x0 s x2).th = s.th ∧ (bufferError x0 s x2).nvm = s.nvm ∧ (bufferError x0 s x2).cal = s.cal ∧
    (bufferError x0 s x2).rk = s.rk ∧ (bufferError x0 s x2).test = s.test ∧ (bufferError x0 s x2).life = s.life ∧
    (bufferError x0 s x2).boot = s.boot ∧ (bufferError x0 s x2).stat = s.stat ∧
    (bufferError x0 s x2).pending = s.pending := by
  unfold bufferError
  simp

@[simp] theorem strikeSection_frame (x0 : Section) (x1 : List Nat) (s : State) :
    (strikeSection x0 x1 s).sys = s.sys ∧ (strikeSection x0 x1 s).em = s.em ∧ (strikeSection x0 x1 s).tm = s.tm ∧
    (strikeSection x0 x1 s).clk = s.clk ∧ (strikeSection x0 x1 s).cfg = s.cfg ∧ (strikeSection x0 x1 s).fh = s.fh ∧
    (strikeSection x0 x1 s).ul = s.ul ∧ (strikeSection x0 x1 s).bf = s.bf ∧ (strikeSection x0 x1 s).lin = s.lin ∧
    (strikeSection x0 x1 s).core = s.core ∧ (strikeSection x0 x1 s).rf = s.rf ∧ (strikeSection x0 x1 s).bias = s.bias ∧
    (strikeSection x0 x1 s).hk = s.hk ∧ (strikeSection x0 x1 s).pwr = s.pwr ∧ (strikeSection x0 x1 s).th = s.th ∧
    (strikeSection x0 x1 s).nvm = s.nvm ∧ (strikeSection x0 x1 s).cal = s.cal ∧ (strikeSection x0 x1 s).ls = s.ls ∧
    (strikeSection x0 x1 s).rk = s.rk ∧ (strikeSection x0 x1 s).test = s.test ∧ (strikeSection x0 x1 s).life = s.life ∧
    (strikeSection x0 x1 s).boot = s.boot ∧ (strikeSection x0 x1 s).fresh = s.fresh ∧
    (strikeSection x0 x1 s).pending = s.pending := by
  unfold strikeSection
  simp

@[simp] theorem loadVectors_frame (x0 : List Nat) (s : State) :
    (loadVectors x0 s).sys = s.sys ∧ (loadVectors x0 s).em = s.em ∧ (loadVectors x0 s).tm = s.tm ∧
    (loadVectors x0 s).clk = s.clk ∧ (loadVectors x0 s).cfg = s.cfg ∧ (loadVectors x0 s).fh = s.fh ∧
    (loadVectors x0 s).dl = s.dl ∧ (loadVectors x0 s).ul = s.ul ∧ (loadVectors x0 s).bf = s.bf ∧
    (loadVectors x0 s).lin = s.lin ∧ (loadVectors x0 s).core = s.core ∧ (loadVectors x0 s).rf = s.rf ∧
    (loadVectors x0 s).bias = s.bias ∧ (loadVectors x0 s).hk = s.hk ∧ (loadVectors x0 s).pwr = s.pwr ∧
    (loadVectors x0 s).th = s.th ∧ (loadVectors x0 s).nvm = s.nvm ∧ (loadVectors x0 s).cal = s.cal ∧
    (loadVectors x0 s).rk = s.rk ∧ (loadVectors x0 s).test = s.test ∧ (loadVectors x0 s).life = s.life ∧
    (loadVectors x0 s).boot = s.boot ∧ (loadVectors x0 s).stat = s.stat ∧ (loadVectors x0 s).fresh = s.fresh ∧
    (loadVectors x0 s).pending = s.pending := by
  unfold loadVectors
  simp

@[simp] theorem loadEntries_frame (x0 : List Nat) (s : State) :
    (loadEntries x0 s).sys = s.sys ∧ (loadEntries x0 s).em = s.em ∧ (loadEntries x0 s).tm = s.tm ∧
    (loadEntries x0 s).clk = s.clk ∧ (loadEntries x0 s).cfg = s.cfg ∧ (loadEntries x0 s).fh = s.fh ∧
    (loadEntries x0 s).dl = s.dl ∧ (loadEntries x0 s).ul = s.ul ∧ (loadEntries x0 s).bf = s.bf ∧
    (loadEntries x0 s).lin = s.lin ∧ (loadEntries x0 s).core = s.core ∧ (loadEntries x0 s).rf = s.rf ∧
    (loadEntries x0 s).bias = s.bias ∧ (loadEntries x0 s).hk = s.hk ∧ (loadEntries x0 s).pwr = s.pwr ∧
    (loadEntries x0 s).th = s.th ∧ (loadEntries x0 s).nvm = s.nvm ∧ (loadEntries x0 s).cal = s.cal ∧
    (loadEntries x0 s).rk = s.rk ∧ (loadEntries x0 s).test = s.test ∧ (loadEntries x0 s).life = s.life ∧
    (loadEntries x0 s).boot = s.boot ∧ (loadEntries x0 s).stat = s.stat ∧ (loadEntries x0 s).fresh = s.fresh ∧
    (loadEntries x0 s).pending = s.pending := by
  unfold loadEntries
  simp

@[simp] theorem loadWeights_frame (x0 : Image) (x1 : Bool) (x2 : Nat) (x3 : SymName) (s : State) :
    (loadWeights x0 x1 x2 x3 s).sys = s.sys ∧ (loadWeights x0 x1 x2 x3 s).em = s.em ∧ (loadWeights x0 x1 x2 x3 s).tm = s.tm ∧
    (loadWeights x0 x1 x2 x3 s).clk = s.clk ∧ (loadWeights x0 x1 x2 x3 s).cfg = s.cfg ∧
    (loadWeights x0 x1 x2 x3 s).fh = s.fh ∧ (loadWeights x0 x1 x2 x3 s).dl = s.dl ∧ (loadWeights x0 x1 x2 x3 s).ul = s.ul ∧
    (loadWeights x0 x1 x2 x3 s).bf = s.bf ∧ (loadWeights x0 x1 x2 x3 s).lin = s.lin ∧
    (loadWeights x0 x1 x2 x3 s).core = s.core ∧ (loadWeights x0 x1 x2 x3 s).rf = s.rf ∧
    (loadWeights x0 x1 x2 x3 s).bias = s.bias ∧ (loadWeights x0 x1 x2 x3 s).hk = s.hk ∧
    (loadWeights x0 x1 x2 x3 s).pwr = s.pwr ∧ (loadWeights x0 x1 x2 x3 s).th = s.th ∧
    (loadWeights x0 x1 x2 x3 s).nvm = s.nvm ∧ (loadWeights x0 x1 x2 x3 s).cal = s.cal ∧
    (loadWeights x0 x1 x2 x3 s).rk = s.rk ∧ (loadWeights x0 x1 x2 x3 s).test = s.test ∧
    (loadWeights x0 x1 x2 x3 s).life = s.life ∧ (loadWeights x0 x1 x2 x3 s).boot = s.boot ∧
    (loadWeights x0 x1 x2 x3 s).stat = s.stat ∧ (loadWeights x0 x1 x2 x3 s).fresh = s.fresh ∧
    (loadWeights x0 x1 x2 x3 s).pending = s.pending := by
  unfold loadWeights
  simp

@[simp] theorem failedLoad_frame (x0 : Nat) (x1 : Nat) (x2 : Bool) (x3 : SymName) (s : State) (x5 : Nat) :
    (failedLoad x0 x1 x2 x3 s x5).sys = s.sys ∧ (failedLoad x0 x1 x2 x3 s x5).em = s.em ∧
    (failedLoad x0 x1 x2 x3 s x5).tm = s.tm ∧ (failedLoad x0 x1 x2 x3 s x5).clk = s.clk ∧
    (failedLoad x0 x1 x2 x3 s x5).cfg = s.cfg ∧ (failedLoad x0 x1 x2 x3 s x5).fh = s.fh ∧
    (failedLoad x0 x1 x2 x3 s x5).dl = s.dl ∧ (failedLoad x0 x1 x2 x3 s x5).ul = s.ul ∧
    (failedLoad x0 x1 x2 x3 s x5).bf = s.bf ∧ (failedLoad x0 x1 x2 x3 s x5).lin = s.lin ∧
    (failedLoad x0 x1 x2 x3 s x5).core = s.core ∧ (failedLoad x0 x1 x2 x3 s x5).rf = s.rf ∧
    (failedLoad x0 x1 x2 x3 s x5).bias = s.bias ∧ (failedLoad x0 x1 x2 x3 s x5).hk = s.hk ∧
    (failedLoad x0 x1 x2 x3 s x5).pwr = s.pwr ∧ (failedLoad x0 x1 x2 x3 s x5).th = s.th ∧
    (failedLoad x0 x1 x2 x3 s x5).nvm = s.nvm ∧ (failedLoad x0 x1 x2 x3 s x5).cal = s.cal ∧
    (failedLoad x0 x1 x2 x3 s x5).rk = s.rk ∧ (failedLoad x0 x1 x2 x3 s x5).test = s.test ∧
    (failedLoad x0 x1 x2 x3 s x5).life = s.life ∧ (failedLoad x0 x1 x2 x3 s x5).boot = s.boot ∧
    (failedLoad x0 x1 x2 x3 s x5).fresh = s.fresh ∧ (failedLoad x0 x1 x2 x3 s x5).pending = s.pending := by
  unfold failedLoad
  simp

@[simp] theorem reportMissing_frame (x0 : Bool) (x1 : Nat) (x2 : SymName) (x3 : List (Nat × Nat × Option Nat)) (s : State) :
    (reportMissing x0 x1 x2 x3 s).sys = s.sys ∧ (reportMissing x0 x1 x2 x3 s).em = s.em ∧
    (reportMissing x0 x1 x2 x3 s).tm = s.tm ∧ (reportMissing x0 x1 x2 x3 s).clk = s.clk ∧
    (reportMissing x0 x1 x2 x3 s).cfg = s.cfg ∧ (reportMissing x0 x1 x2 x3 s).fh = s.fh ∧
    (reportMissing x0 x1 x2 x3 s).dl = s.dl ∧ (reportMissing x0 x1 x2 x3 s).ul = s.ul ∧
    (reportMissing x0 x1 x2 x3 s).bf = s.bf ∧ (reportMissing x0 x1 x2 x3 s).lin = s.lin ∧
    (reportMissing x0 x1 x2 x3 s).core = s.core ∧ (reportMissing x0 x1 x2 x3 s).rf = s.rf ∧
    (reportMissing x0 x1 x2 x3 s).bias = s.bias ∧ (reportMissing x0 x1 x2 x3 s).hk = s.hk ∧
    (reportMissing x0 x1 x2 x3 s).pwr = s.pwr ∧ (reportMissing x0 x1 x2 x3 s).th = s.th ∧
    (reportMissing x0 x1 x2 x3 s).nvm = s.nvm ∧ (reportMissing x0 x1 x2 x3 s).cal = s.cal ∧
    (reportMissing x0 x1 x2 x3 s).rk = s.rk ∧ (reportMissing x0 x1 x2 x3 s).test = s.test ∧
    (reportMissing x0 x1 x2 x3 s).life = s.life ∧ (reportMissing x0 x1 x2 x3 s).boot = s.boot ∧
    (reportMissing x0 x1 x2 x3 s).fresh = s.fresh ∧ (reportMissing x0 x1 x2 x3 s).pending = s.pending := by
  unfold reportMissing
  repeat' (first | (simp; done) | (simp only [takeFree]) | split | (dsimp only))

@[simp] theorem layerEvents_frame (x0 : Image) (x1 : SymName) (x2 : LayerContent × Nat × List (Nat × Nat × Option Nat)) (s : State) :
    (layerEvents x0 x1 x2 s).sys = s.sys ∧ (layerEvents x0 x1 x2 s).em = s.em ∧ (layerEvents x0 x1 x2 s).tm = s.tm ∧
    (layerEvents x0 x1 x2 s).clk = s.clk ∧ (layerEvents x0 x1 x2 s).cfg = s.cfg ∧ (layerEvents x0 x1 x2 s).fh = s.fh ∧
    (layerEvents x0 x1 x2 s).dl = s.dl ∧ (layerEvents x0 x1 x2 s).ul = s.ul ∧ (layerEvents x0 x1 x2 s).bf = s.bf ∧
    (layerEvents x0 x1 x2 s).lin = s.lin ∧ (layerEvents x0 x1 x2 s).core = s.core ∧ (layerEvents x0 x1 x2 s).rf = s.rf ∧
    (layerEvents x0 x1 x2 s).bias = s.bias ∧ (layerEvents x0 x1 x2 s).hk = s.hk ∧ (layerEvents x0 x1 x2 s).pwr = s.pwr ∧
    (layerEvents x0 x1 x2 s).th = s.th ∧ (layerEvents x0 x1 x2 s).nvm = s.nvm ∧ (layerEvents x0 x1 x2 s).cal = s.cal ∧
    (layerEvents x0 x1 x2 s).rk = s.rk ∧ (layerEvents x0 x1 x2 s).test = s.test ∧ (layerEvents x0 x1 x2 s).life = s.life ∧
    (layerEvents x0 x1 x2 s).boot = s.boot ∧ (layerEvents x0 x1 x2 s).fresh = s.fresh ∧
    (layerEvents x0 x1 x2 s).pending = s.pending := by
  unfold layerEvents
  repeat' (first | (simp; done) | (simp only [takeFree]) | split | (dsimp only))

@[simp] theorem antennaSats_frame (x0 : Image) (x1 : Released) (s : State) (x3 : Nat) :
    (antennaSats x0 x1 s x3).sys = s.sys ∧ (antennaSats x0 x1 s x3).em = s.em ∧ (antennaSats x0 x1 s x3).tm = s.tm ∧
    (antennaSats x0 x1 s x3).clk = s.clk ∧ (antennaSats x0 x1 s x3).cfg = s.cfg ∧ (antennaSats x0 x1 s x3).fh = s.fh ∧
    (antennaSats x0 x1 s x3).dl = s.dl ∧ (antennaSats x0 x1 s x3).ul = s.ul ∧ (antennaSats x0 x1 s x3).bf = s.bf ∧
    (antennaSats x0 x1 s x3).lin = s.lin ∧ (antennaSats x0 x1 s x3).core = s.core ∧ (antennaSats x0 x1 s x3).rf = s.rf ∧
    (antennaSats x0 x1 s x3).bias = s.bias ∧ (antennaSats x0 x1 s x3).hk = s.hk ∧ (antennaSats x0 x1 s x3).pwr = s.pwr ∧
    (antennaSats x0 x1 s x3).th = s.th ∧ (antennaSats x0 x1 s x3).nvm = s.nvm ∧ (antennaSats x0 x1 s x3).cal = s.cal ∧
    (antennaSats x0 x1 s x3).ls = s.ls ∧ (antennaSats x0 x1 s x3).rk = s.rk ∧ (antennaSats x0 x1 s x3).test = s.test ∧
    (antennaSats x0 x1 s x3).life = s.life ∧ (antennaSats x0 x1 s x3).boot = s.boot ∧
    (antennaSats x0 x1 s x3).fresh = s.fresh ∧ (antennaSats x0 x1 s x3).pending = s.pending := by
  unfold antennaSats
  simp

@[simp] theorem dropData_frame (x0 : SymName) (x1 : Instant) (s : State) :
    (dropData x0 x1 s).ph = s.ph ∧ (dropData x0 x1 s).ev = s.ev ∧ (dropData x0 x1 s).sys = s.sys ∧
    (dropData x0 x1 s).em = s.em ∧ (dropData x0 x1 s).tm = s.tm ∧ (dropData x0 x1 s).clk = s.clk ∧
    (dropData x0 x1 s).cfg = s.cfg ∧ (dropData x0 x1 s).fh = s.fh ∧ (dropData x0 x1 s).ul = s.ul ∧
    (dropData x0 x1 s).bf = s.bf ∧ (dropData x0 x1 s).lin = s.lin ∧ (dropData x0 x1 s).core = s.core ∧
    (dropData x0 x1 s).rf = s.rf ∧ (dropData x0 x1 s).bias = s.bias ∧ (dropData x0 x1 s).hk = s.hk ∧
    (dropData x0 x1 s).pwr = s.pwr ∧ (dropData x0 x1 s).th = s.th ∧ (dropData x0 x1 s).nvm = s.nvm ∧
    (dropData x0 x1 s).cal = s.cal ∧ (dropData x0 x1 s).ls = s.ls ∧ (dropData x0 x1 s).rk = s.rk ∧
    (dropData x0 x1 s).test = s.test ∧ (dropData x0 x1 s).life = s.life ∧ (dropData x0 x1 s).boot = s.boot ∧
    (dropData x0 x1 s).stat = s.stat ∧ (dropData x0 x1 s).out = s.out ∧ (dropData x0 x1 s).fresh = s.fresh ∧
    (dropData x0 x1 s).pending = s.pending := by
  unfold dropData
  simp

@[simp] theorem dlResidues_frame (x0 : Image) (x1 : Released) (s : State) :
    (dlResidues x0 x1 s).sys = s.sys ∧ (dlResidues x0 x1 s).em = s.em ∧ (dlResidues x0 x1 s).tm = s.tm ∧
    (dlResidues x0 x1 s).clk = s.clk ∧ (dlResidues x0 x1 s).cfg = s.cfg ∧ (dlResidues x0 x1 s).fh = s.fh ∧
    (dlResidues x0 x1 s).dl = s.dl ∧ (dlResidues x0 x1 s).ul = s.ul ∧ (dlResidues x0 x1 s).bf = s.bf ∧
    (dlResidues x0 x1 s).lin = s.lin ∧ (dlResidues x0 x1 s).core = s.core ∧ (dlResidues x0 x1 s).rf = s.rf ∧
    (dlResidues x0 x1 s).bias = s.bias ∧ (dlResidues x0 x1 s).hk = s.hk ∧ (dlResidues x0 x1 s).pwr = s.pwr ∧
    (dlResidues x0 x1 s).th = s.th ∧ (dlResidues x0 x1 s).nvm = s.nvm ∧ (dlResidues x0 x1 s).cal = s.cal ∧
    (dlResidues x0 x1 s).ls = s.ls ∧ (dlResidues x0 x1 s).rk = s.rk ∧ (dlResidues x0 x1 s).test = s.test ∧
    (dlResidues x0 x1 s).life = s.life ∧ (dlResidues x0 x1 s).boot = s.boot ∧ (dlResidues x0 x1 s).fresh = s.fresh ∧
    (dlResidues x0 x1 s).pending = s.pending := by
  unfold dlResidues
  simp

@[simp] theorem releaseSymbol_frame (x0 : Image) (x1 : SymName) (x2 : Instant) (x3 : DlFaults) (s : State) :
    (releaseSymbol x0 x1 x2 x3 s).sys = s.sys ∧ (releaseSymbol x0 x1 x2 x3 s).em = s.em ∧
    (releaseSymbol x0 x1 x2 x3 s).tm = s.tm ∧ (releaseSymbol x0 x1 x2 x3 s).clk = s.clk ∧
    (releaseSymbol x0 x1 x2 x3 s).cfg = s.cfg ∧ (releaseSymbol x0 x1 x2 x3 s).fh = s.fh ∧
    (releaseSymbol x0 x1 x2 x3 s).ul = s.ul ∧ (releaseSymbol x0 x1 x2 x3 s).bf = s.bf ∧
    (releaseSymbol x0 x1 x2 x3 s).lin = s.lin ∧ (releaseSymbol x0 x1 x2 x3 s).core = s.core ∧
    (releaseSymbol x0 x1 x2 x3 s).rf = s.rf ∧ (releaseSymbol x0 x1 x2 x3 s).bias = s.bias ∧
    (releaseSymbol x0 x1 x2 x3 s).hk = s.hk ∧ (releaseSymbol x0 x1 x2 x3 s).pwr = s.pwr ∧
    (releaseSymbol x0 x1 x2 x3 s).th = s.th ∧ (releaseSymbol x0 x1 x2 x3 s).nvm = s.nvm ∧
    (releaseSymbol x0 x1 x2 x3 s).cal = s.cal ∧ (releaseSymbol x0 x1 x2 x3 s).rk = s.rk ∧
    (releaseSymbol x0 x1 x2 x3 s).test = s.test ∧ (releaseSymbol x0 x1 x2 x3 s).life = s.life ∧
    (releaseSymbol x0 x1 x2 x3 s).boot = s.boot ∧ (releaseSymbol x0 x1 x2 x3 s).pending = s.pending := by
  unfold releaseSymbol
  simp

@[simp] theorem serve_frame (x0 : Nat) (x1 : Instant) (s : State) :
    (serve x0 x1 s).ph = s.ph ∧ (serve x0 x1 s).ev = s.ev ∧ (serve x0 x1 s).sys = s.sys ∧ (serve x0 x1 s).em = s.em ∧
    (serve x0 x1 s).tm = s.tm ∧ (serve x0 x1 s).clk = s.clk ∧ (serve x0 x1 s).cfg = s.cfg ∧ (serve x0 x1 s).fh = s.fh ∧
    (serve x0 x1 s).dl = s.dl ∧ (serve x0 x1 s).bf = s.bf ∧ (serve x0 x1 s).lin = s.lin ∧ (serve x0 x1 s).core = s.core ∧
    (serve x0 x1 s).rf = s.rf ∧ (serve x0 x1 s).bias = s.bias ∧ (serve x0 x1 s).hk = s.hk ∧ (serve x0 x1 s).pwr = s.pwr ∧
    (serve x0 x1 s).th = s.th ∧ (serve x0 x1 s).nvm = s.nvm ∧ (serve x0 x1 s).cal = s.cal ∧ (serve x0 x1 s).ls = s.ls ∧
    (serve x0 x1 s).rk = s.rk ∧ (serve x0 x1 s).test = s.test ∧ (serve x0 x1 s).life = s.life ∧
    (serve x0 x1 s).boot = s.boot ∧ (serve x0 x1 s).stat = s.stat ∧ (serve x0 x1 s).out = s.out ∧
    (serve x0 x1 s).fresh = s.fresh ∧ (serve x0 x1 s).pending = s.pending := by
  unfold serve
  simp

@[simp] theorem countParity_frame (s : State) (x1 : Nat × Int) :
    (countParity s x1).sys = s.sys ∧ (countParity s x1).em = s.em ∧ (countParity s x1).tm = s.tm ∧
    (countParity s x1).clk = s.clk ∧ (countParity s x1).cfg = s.cfg ∧ (countParity s x1).fh = s.fh ∧
    (countParity s x1).dl = s.dl ∧ (countParity s x1).bf = s.bf ∧ (countParity s x1).lin = s.lin ∧
    (countParity s x1).core = s.core ∧ (countParity s x1).bias = s.bias ∧ (countParity s x1).hk = s.hk ∧
    (countParity s x1).pwr = s.pwr ∧ (countParity s x1).th = s.th ∧ (countParity s x1).nvm = s.nvm ∧
    (countParity s x1).cal = s.cal ∧ (countParity s x1).ls = s.ls ∧ (countParity s x1).rk = s.rk ∧
    (countParity s x1).test = s.test ∧ (countParity s x1).life = s.life ∧ (countParity s x1).boot = s.boot ∧
    (countParity s x1).fresh = s.fresh ∧ (countParity s x1).pending = s.pending := by
  unfold countParity
  simp

@[simp] theorem countAntenna_frame (x0 : SymName) (x1 : Nat) (s : State) (x3 : Nat × AntennaSym) :
    (countAntenna x0 x1 s x3).sys = s.sys ∧ (countAntenna x0 x1 s x3).em = s.em ∧ (countAntenna x0 x1 s x3).tm = s.tm ∧
    (countAntenna x0 x1 s x3).clk = s.clk ∧ (countAntenna x0 x1 s x3).cfg = s.cfg ∧ (countAntenna x0 x1 s x3).fh = s.fh ∧
    (countAntenna x0 x1 s x3).dl = s.dl ∧ (countAntenna x0 x1 s x3).ul = s.ul ∧ (countAntenna x0 x1 s x3).bf = s.bf ∧
    (countAntenna x0 x1 s x3).lin = s.lin ∧ (countAntenna x0 x1 s x3).core = s.core ∧ (countAntenna x0 x1 s x3).rf = s.rf ∧
    (countAntenna x0 x1 s x3).bias = s.bias ∧ (countAntenna x0 x1 s x3).hk = s.hk ∧ (countAntenna x0 x1 s x3).pwr = s.pwr ∧
    (countAntenna x0 x1 s x3).th = s.th ∧ (countAntenna x0 x1 s x3).nvm = s.nvm ∧ (countAntenna x0 x1 s x3).cal = s.cal ∧
    (countAntenna x0 x1 s x3).ls = s.ls ∧ (countAntenna x0 x1 s x3).rk = s.rk ∧ (countAntenna x0 x1 s x3).test = s.test ∧
    (countAntenna x0 x1 s x3).life = s.life ∧ (countAntenna x0 x1 s x3).boot = s.boot ∧
    (countAntenna x0 x1 s x3).fresh = s.fresh ∧ (countAntenna x0 x1 s x3).pending = s.pending := by
  unfold countAntenna
  simp

@[simp] theorem antennaEvents_frame (x0 : SymName) (x1 : List Nat) (x2 : List (Nat × AntennaSym)) (x3 : List Bool) (s : State) :
    (antennaEvents x0 x1 x2 x3 s).sys = s.sys ∧ (antennaEvents x0 x1 x2 x3 s).em = s.em ∧
    (antennaEvents x0 x1 x2 x3 s).tm = s.tm ∧ (antennaEvents x0 x1 x2 x3 s).clk = s.clk ∧
    (antennaEvents x0 x1 x2 x3 s).cfg = s.cfg ∧ (antennaEvents x0 x1 x2 x3 s).fh = s.fh ∧
    (antennaEvents x0 x1 x2 x3 s).dl = s.dl ∧ (antennaEvents x0 x1 x2 x3 s).bf = s.bf ∧
    (antennaEvents x0 x1 x2 x3 s).lin = s.lin ∧ (antennaEvents x0 x1 x2 x3 s).core = s.core ∧
    (antennaEvents x0 x1 x2 x3 s).bias = s.bias ∧ (antennaEvents x0 x1 x2 x3 s).hk = s.hk ∧
    (antennaEvents x0 x1 x2 x3 s).pwr = s.pwr ∧ (antennaEvents x0 x1 x2 x3 s).th = s.th ∧
    (antennaEvents x0 x1 x2 x3 s).nvm = s.nvm ∧ (antennaEvents x0 x1 x2 x3 s).cal = s.cal ∧
    (antennaEvents x0 x1 x2 x3 s).rk = s.rk ∧ (antennaEvents x0 x1 x2 x3 s).test = s.test ∧
    (antennaEvents x0 x1 x2 x3 s).life = s.life ∧ (antennaEvents x0 x1 x2 x3 s).boot = s.boot ∧
    (antennaEvents x0 x1 x2 x3 s).pending = s.pending := by
  unfold antennaEvents
  simp

@[simp] theorem sendFragment_frame (x0 : Flow) (x1 : UlHead) (x2 : List Byte) (s : State) :
    (sendFragment x0 x1 x2 s).sys = s.sys ∧ (sendFragment x0 x1 x2 s).em = s.em ∧ (sendFragment x0 x1 x2 s).tm = s.tm ∧
    (sendFragment x0 x1 x2 s).clk = s.clk ∧ (sendFragment x0 x1 x2 s).cfg = s.cfg ∧ (sendFragment x0 x1 x2 s).dl = s.dl ∧
    (sendFragment x0 x1 x2 s).bf = s.bf ∧ (sendFragment x0 x1 x2 s).lin = s.lin ∧ (sendFragment x0 x1 x2 s).core = s.core ∧
    (sendFragment x0 x1 x2 s).rf = s.rf ∧ (sendFragment x0 x1 x2 s).bias = s.bias ∧ (sendFragment x0 x1 x2 s).hk = s.hk ∧
    (sendFragment x0 x1 x2 s).pwr = s.pwr ∧ (sendFragment x0 x1 x2 s).th = s.th ∧ (sendFragment x0 x1 x2 s).nvm = s.nvm ∧
    (sendFragment x0 x1 x2 s).cal = s.cal ∧ (sendFragment x0 x1 x2 s).ls = s.ls ∧ (sendFragment x0 x1 x2 s).test = s.test ∧
    (sendFragment x0 x1 x2 s).life = s.life ∧ (sendFragment x0 x1 x2 s).boot = s.boot ∧
    (sendFragment x0 x1 x2 s).pending = s.pending := by
  unfold sendFragment
  simp

@[simp] theorem sendSection_frame (x0 : Image) (x1 : Flow) (x2 : UlHead) (x3 : List Byte) (s : State) :
    (sendSection x0 x1 x2 x3 s).sys = s.sys ∧ (sendSection x0 x1 x2 x3 s).em = s.em ∧ (sendSection x0 x1 x2 x3 s).tm = s.tm ∧
    (sendSection x0 x1 x2 x3 s).clk = s.clk ∧ (sendSection x0 x1 x2 x3 s).cfg = s.cfg ∧
    (sendSection x0 x1 x2 x3 s).dl = s.dl ∧ (sendSection x0 x1 x2 x3 s).bf = s.bf ∧ (sendSection x0 x1 x2 x3 s).lin = s.lin ∧
    (sendSection x0 x1 x2 x3 s).core = s.core ∧ (sendSection x0 x1 x2 x3 s).rf = s.rf ∧
    (sendSection x0 x1 x2 x3 s).bias = s.bias ∧ (sendSection x0 x1 x2 x3 s).hk = s.hk ∧
    (sendSection x0 x1 x2 x3 s).pwr = s.pwr ∧ (sendSection x0 x1 x2 x3 s).th = s.th ∧
    (sendSection x0 x1 x2 x3 s).nvm = s.nvm ∧ (sendSection x0 x1 x2 x3 s).cal = s.cal ∧
    (sendSection x0 x1 x2 x3 s).ls = s.ls ∧ (sendSection x0 x1 x2 x3 s).test = s.test ∧
    (sendSection x0 x1 x2 x3 s).life = s.life ∧ (sendSection x0 x1 x2 x3 s).boot = s.boot ∧
    (sendSection x0 x1 x2 x3 s).pending = s.pending := by
  unfold sendSection
  simp

@[simp] theorem exportSection_frame (x0 : Image) (x1 : Flow) (x2 : UlHead) (x3 : List Byte) (x4 : Nat) (x5 : UlObs) (s : State) :
    (exportSection x0 x1 x2 x3 x4 x5 s).sys = s.sys ∧ (exportSection x0 x1 x2 x3 x4 x5 s).em = s.em ∧
    (exportSection x0 x1 x2 x3 x4 x5 s).tm = s.tm ∧ (exportSection x0 x1 x2 x3 x4 x5 s).clk = s.clk ∧
    (exportSection x0 x1 x2 x3 x4 x5 s).cfg = s.cfg ∧ (exportSection x0 x1 x2 x3 x4 x5 s).dl = s.dl ∧
    (exportSection x0 x1 x2 x3 x4 x5 s).bf = s.bf ∧ (exportSection x0 x1 x2 x3 x4 x5 s).lin = s.lin ∧
    (exportSection x0 x1 x2 x3 x4 x5 s).core = s.core ∧ (exportSection x0 x1 x2 x3 x4 x5 s).rf = s.rf ∧
    (exportSection x0 x1 x2 x3 x4 x5 s).bias = s.bias ∧ (exportSection x0 x1 x2 x3 x4 x5 s).hk = s.hk ∧
    (exportSection x0 x1 x2 x3 x4 x5 s).pwr = s.pwr ∧ (exportSection x0 x1 x2 x3 x4 x5 s).th = s.th ∧
    (exportSection x0 x1 x2 x3 x4 x5 s).nvm = s.nvm ∧ (exportSection x0 x1 x2 x3 x4 x5 s).cal = s.cal ∧
    (exportSection x0 x1 x2 x3 x4 x5 s).ls = s.ls ∧ (exportSection x0 x1 x2 x3 x4 x5 s).test = s.test ∧
    (exportSection x0 x1 x2 x3 x4 x5 s).life = s.life ∧ (exportSection x0 x1 x2 x3 x4 x5 s).boot = s.boot ∧
    (exportSection x0 x1 x2 x3 x4 x5 s).pending = s.pending := by
  unfold exportSection
  simp

@[simp] theorem exportAntenna_frame (x0 : Image) (x1 : SymName) (x2 : Instant) (x3 : UlObs) (x4 : List AntennaSym) (x5 : List AntennaFlags) (x6 : Flow) (s : State) :
    (exportAntenna x0 x1 x2 x3 x4 x5 x6 s).sys = s.sys ∧ (exportAntenna x0 x1 x2 x3 x4 x5 x6 s).em = s.em ∧
    (exportAntenna x0 x1 x2 x3 x4 x5 x6 s).tm = s.tm ∧ (exportAntenna x0 x1 x2 x3 x4 x5 x6 s).clk = s.clk ∧
    (exportAntenna x0 x1 x2 x3 x4 x5 x6 s).cfg = s.cfg ∧ (exportAntenna x0 x1 x2 x3 x4 x5 x6 s).dl = s.dl ∧
    (exportAntenna x0 x1 x2 x3 x4 x5 x6 s).bf = s.bf ∧ (exportAntenna x0 x1 x2 x3 x4 x5 x6 s).lin = s.lin ∧
    (exportAntenna x0 x1 x2 x3 x4 x5 x6 s).core = s.core ∧ (exportAntenna x0 x1 x2 x3 x4 x5 x6 s).rf = s.rf ∧
    (exportAntenna x0 x1 x2 x3 x4 x5 x6 s).bias = s.bias ∧ (exportAntenna x0 x1 x2 x3 x4 x5 x6 s).hk = s.hk ∧
    (exportAntenna x0 x1 x2 x3 x4 x5 x6 s).pwr = s.pwr ∧ (exportAntenna x0 x1 x2 x3 x4 x5 x6 s).th = s.th ∧
    (exportAntenna x0 x1 x2 x3 x4 x5 x6 s).nvm = s.nvm ∧ (exportAntenna x0 x1 x2 x3 x4 x5 x6 s).cal = s.cal ∧
    (exportAntenna x0 x1 x2 x3 x4 x5 x6 s).ls = s.ls ∧ (exportAntenna x0 x1 x2 x3 x4 x5 x6 s).test = s.test ∧
    (exportAntenna x0 x1 x2 x3 x4 x5 x6 s).life = s.life ∧ (exportAntenna x0 x1 x2 x3 x4 x5 x6 s).boot = s.boot ∧
    (exportAntenna x0 x1 x2 x3 x4 x5 x6 s).pending = s.pending := by
  unfold exportAntenna
  simp

@[simp] theorem combineResidues_frame (x0 : Flow) (x1 : SymName) (x2 : List Nat) (s : State) :
    (combineResidues x0 x1 x2 s).sys = s.sys ∧ (combineResidues x0 x1 x2 s).em = s.em ∧
    (combineResidues x0 x1 x2 s).tm = s.tm ∧ (combineResidues x0 x1 x2 s).clk = s.clk ∧
    (combineResidues x0 x1 x2 s).cfg = s.cfg ∧ (combineResidues x0 x1 x2 s).fh = s.fh ∧
    (combineResidues x0 x1 x2 s).dl = s.dl ∧ (combineResidues x0 x1 x2 s).ul = s.ul ∧ (combineResidues x0 x1 x2 s).bf = s.bf ∧
    (combineResidues x0 x1 x2 s).lin = s.lin ∧ (combineResidues x0 x1 x2 s).core = s.core ∧
    (combineResidues x0 x1 x2 s).rf = s.rf ∧ (combineResidues x0 x1 x2 s).bias = s.bias ∧
    (combineResidues x0 x1 x2 s).hk = s.hk ∧ (combineResidues x0 x1 x2 s).pwr = s.pwr ∧
    (combineResidues x0 x1 x2 s).th = s.th ∧ (combineResidues x0 x1 x2 s).nvm = s.nvm ∧
    (combineResidues x0 x1 x2 s).cal = s.cal ∧ (combineResidues x0 x1 x2 s).ls = s.ls ∧
    (combineResidues x0 x1 x2 s).rk = s.rk ∧ (combineResidues x0 x1 x2 s).test = s.test ∧
    (combineResidues x0 x1 x2 s).life = s.life ∧ (combineResidues x0 x1 x2 s).boot = s.boot ∧
    (combineResidues x0 x1 x2 s).fresh = s.fresh ∧ (combineResidues x0 x1 x2 s).pending = s.pending := by
  unfold combineResidues
  simp

@[simp] theorem exportStream_frame (x0 : Image) (x1 : SymName) (x2 : Instant) (x3 : UlObs) (x4 : List AntennaSym) (x5 : List AntennaFlags) (x6 : Flow) (s : State) :
    (exportStream x0 x1 x2 x3 x4 x5 x6 s).sys = s.sys ∧ (exportStream x0 x1 x2 x3 x4 x5 x6 s).em = s.em ∧
    (exportStream x0 x1 x2 x3 x4 x5 x6 s).tm = s.tm ∧ (exportStream x0 x1 x2 x3 x4 x5 x6 s).clk = s.clk ∧
    (exportStream x0 x1 x2 x3 x4 x5 x6 s).cfg = s.cfg ∧ (exportStream x0 x1 x2 x3 x4 x5 x6 s).dl = s.dl ∧
    (exportStream x0 x1 x2 x3 x4 x5 x6 s).bf = s.bf ∧ (exportStream x0 x1 x2 x3 x4 x5 x6 s).lin = s.lin ∧
    (exportStream x0 x1 x2 x3 x4 x5 x6 s).core = s.core ∧ (exportStream x0 x1 x2 x3 x4 x5 x6 s).rf = s.rf ∧
    (exportStream x0 x1 x2 x3 x4 x5 x6 s).bias = s.bias ∧ (exportStream x0 x1 x2 x3 x4 x5 x6 s).hk = s.hk ∧
    (exportStream x0 x1 x2 x3 x4 x5 x6 s).pwr = s.pwr ∧ (exportStream x0 x1 x2 x3 x4 x5 x6 s).th = s.th ∧
    (exportStream x0 x1 x2 x3 x4 x5 x6 s).nvm = s.nvm ∧ (exportStream x0 x1 x2 x3 x4 x5 x6 s).cal = s.cal ∧
    (exportStream x0 x1 x2 x3 x4 x5 x6 s).test = s.test ∧ (exportStream x0 x1 x2 x3 x4 x5 x6 s).life = s.life ∧
    (exportStream x0 x1 x2 x3 x4 x5 x6 s).boot = s.boot ∧ (exportStream x0 x1 x2 x3 x4 x5 x6 s).pending = s.pending := by
  unfold exportStream
  simp

@[simp] theorem dropMarks_frame (x0 : Nat) (x1 : Instant) (x2 : Instant) (s : State) :
    (dropMarks x0 x1 x2 s).ph = s.ph ∧ (dropMarks x0 x1 x2 s).ev = s.ev ∧ (dropMarks x0 x1 x2 s).sys = s.sys ∧
    (dropMarks x0 x1 x2 s).em = s.em ∧ (dropMarks x0 x1 x2 s).tm = s.tm ∧ (dropMarks x0 x1 x2 s).clk = s.clk ∧
    (dropMarks x0 x1 x2 s).cfg = s.cfg ∧ (dropMarks x0 x1 x2 s).fh = s.fh ∧ (dropMarks x0 x1 x2 s).dl = s.dl ∧
    (dropMarks x0 x1 x2 s).bf = s.bf ∧ (dropMarks x0 x1 x2 s).lin = s.lin ∧ (dropMarks x0 x1 x2 s).core = s.core ∧
    (dropMarks x0 x1 x2 s).rf = s.rf ∧ (dropMarks x0 x1 x2 s).bias = s.bias ∧ (dropMarks x0 x1 x2 s).hk = s.hk ∧
    (dropMarks x0 x1 x2 s).pwr = s.pwr ∧ (dropMarks x0 x1 x2 s).th = s.th ∧ (dropMarks x0 x1 x2 s).nvm = s.nvm ∧
    (dropMarks x0 x1 x2 s).cal = s.cal ∧ (dropMarks x0 x1 x2 s).ls = s.ls ∧ (dropMarks x0 x1 x2 s).rk = s.rk ∧
    (dropMarks x0 x1 x2 s).test = s.test ∧ (dropMarks x0 x1 x2 s).life = s.life ∧ (dropMarks x0 x1 x2 s).boot = s.boot ∧
    (dropMarks x0 x1 x2 s).stat = s.stat ∧ (dropMarks x0 x1 x2 s).out = s.out ∧ (dropMarks x0 x1 x2 s).fresh = s.fresh ∧
    (dropMarks x0 x1 x2 s).pending = s.pending := by
  unfold dropMarks
  simp

@[simp] theorem exportSymbol_frame (x0 : Image) (x1 : SymName) (x2 : Instant) (x3 : Instant) (x4 : UlObs) (s : State) :
    (exportSymbol x0 x1 x2 x3 x4 s).sys = s.sys ∧ (exportSymbol x0 x1 x2 x3 x4 s).em = s.em ∧
    (exportSymbol x0 x1 x2 x3 x4 s).tm = s.tm ∧ (exportSymbol x0 x1 x2 x3 x4 s).clk = s.clk ∧
    (exportSymbol x0 x1 x2 x3 x4 s).cfg = s.cfg ∧ (exportSymbol x0 x1 x2 x3 x4 s).dl = s.dl ∧
    (exportSymbol x0 x1 x2 x3 x4 s).bf = s.bf ∧ (exportSymbol x0 x1 x2 x3 x4 s).lin = s.lin ∧
    (exportSymbol x0 x1 x2 x3 x4 s).core = s.core ∧ (exportSymbol x0 x1 x2 x3 x4 s).bias = s.bias ∧
    (exportSymbol x0 x1 x2 x3 x4 s).hk = s.hk ∧ (exportSymbol x0 x1 x2 x3 x4 s).pwr = s.pwr ∧
    (exportSymbol x0 x1 x2 x3 x4 s).th = s.th ∧ (exportSymbol x0 x1 x2 x3 x4 s).nvm = s.nvm ∧
    (exportSymbol x0 x1 x2 x3 x4 s).cal = s.cal ∧ (exportSymbol x0 x1 x2 x3 x4 s).test = s.test ∧
    (exportSymbol x0 x1 x2 x3 x4 s).life = s.life ∧ (exportSymbol x0 x1 x2 x3 x4 s).boot = s.boot ∧
    (exportSymbol x0 x1 x2 x3 x4 s).pending = s.pending := by
  unfold exportSymbol
  simp

@[simp] theorem beginOccasion_frame (x0 : Image) (x1 : PrachEntry) (x2 : Nat) (x3 : SymName) (x4 : Flow × Section) (s : State) :
    (beginOccasion x0 x1 x2 x3 x4 s).sys = s.sys ∧ (beginOccasion x0 x1 x2 x3 x4 s).em = s.em ∧
    (beginOccasion x0 x1 x2 x3 x4 s).tm = s.tm ∧ (beginOccasion x0 x1 x2 x3 x4 s).clk = s.clk ∧
    (beginOccasion x0 x1 x2 x3 x4 s).cfg = s.cfg ∧ (beginOccasion x0 x1 x2 x3 x4 s).fh = s.fh ∧
    (beginOccasion x0 x1 x2 x3 x4 s).dl = s.dl ∧ (beginOccasion x0 x1 x2 x3 x4 s).bf = s.bf ∧
    (beginOccasion x0 x1 x2 x3 x4 s).lin = s.lin ∧ (beginOccasion x0 x1 x2 x3 x4 s).core = s.core ∧
    (beginOccasion x0 x1 x2 x3 x4 s).rf = s.rf ∧ (beginOccasion x0 x1 x2 x3 x4 s).bias = s.bias ∧
    (beginOccasion x0 x1 x2 x3 x4 s).hk = s.hk ∧ (beginOccasion x0 x1 x2 x3 x4 s).pwr = s.pwr ∧
    (beginOccasion x0 x1 x2 x3 x4 s).th = s.th ∧ (beginOccasion x0 x1 x2 x3 x4 s).nvm = s.nvm ∧
    (beginOccasion x0 x1 x2 x3 x4 s).cal = s.cal ∧ (beginOccasion x0 x1 x2 x3 x4 s).rk = s.rk ∧
    (beginOccasion x0 x1 x2 x3 x4 s).test = s.test ∧ (beginOccasion x0 x1 x2 x3 x4 s).life = s.life ∧
    (beginOccasion x0 x1 x2 x3 x4 s).boot = s.boot ∧ (beginOccasion x0 x1 x2 x3 x4 s).fresh = s.fresh ∧
    (beginOccasion x0 x1 x2 x3 x4 s).pending = s.pending := by
  unfold beginOccasion
  repeat' (first | (simp; done) | (simp only [takeFree]) | split | (dsimp only))

@[simp] theorem countRepetition_frame (x0 : PrachEntry) (x1 : Nat) (x2 : Nat) (x3 : SymName) (x4 : List (Nat × AntennaSym)) (x5 : List Bool) (s : State) :
    (countRepetition x0 x1 x2 x3 x4 x5 s).sys = s.sys ∧ (countRepetition x0 x1 x2 x3 x4 x5 s).em = s.em ∧
    (countRepetition x0 x1 x2 x3 x4 x5 s).tm = s.tm ∧ (countRepetition x0 x1 x2 x3 x4 x5 s).clk = s.clk ∧
    (countRepetition x0 x1 x2 x3 x4 x5 s).cfg = s.cfg ∧ (countRepetition x0 x1 x2 x3 x4 x5 s).fh = s.fh ∧
    (countRepetition x0 x1 x2 x3 x4 x5 s).dl = s.dl ∧ (countRepetition x0 x1 x2 x3 x4 x5 s).bf = s.bf ∧
    (countRepetition x0 x1 x2 x3 x4 x5 s).lin = s.lin ∧ (countRepetition x0 x1 x2 x3 x4 x5 s).core = s.core ∧
    (countRepetition x0 x1 x2 x3 x4 x5 s).bias = s.bias ∧ (countRepetition x0 x1 x2 x3 x4 x5 s).hk = s.hk ∧
    (countRepetition x0 x1 x2 x3 x4 x5 s).pwr = s.pwr ∧ (countRepetition x0 x1 x2 x3 x4 x5 s).th = s.th ∧
    (countRepetition x0 x1 x2 x3 x4 x5 s).nvm = s.nvm ∧ (countRepetition x0 x1 x2 x3 x4 x5 s).cal = s.cal ∧
    (countRepetition x0 x1 x2 x3 x4 x5 s).rk = s.rk ∧ (countRepetition x0 x1 x2 x3 x4 x5 s).test = s.test ∧
    (countRepetition x0 x1 x2 x3 x4 x5 s).life = s.life ∧ (countRepetition x0 x1 x2 x3 x4 x5 s).boot = s.boot ∧
    (countRepetition x0 x1 x2 x3 x4 x5 s).pending = s.pending := by
  unfold countRepetition
  simp

@[simp] theorem exportRepetition_frame (x0 : Image) (x1 : PrachEntry) (x2 : Flow) (x3 : PrachRun) (x4 : Nat) (x5 : UlObs) (s : State) :
    (exportRepetition x0 x1 x2 x3 x4 x5 s).sys = s.sys ∧ (exportRepetition x0 x1 x2 x3 x4 x5 s).em = s.em ∧
    (exportRepetition x0 x1 x2 x3 x4 x5 s).tm = s.tm ∧ (exportRepetition x0 x1 x2 x3 x4 x5 s).clk = s.clk ∧
    (exportRepetition x0 x1 x2 x3 x4 x5 s).cfg = s.cfg ∧ (exportRepetition x0 x1 x2 x3 x4 x5 s).dl = s.dl ∧
    (exportRepetition x0 x1 x2 x3 x4 x5 s).bf = s.bf ∧ (exportRepetition x0 x1 x2 x3 x4 x5 s).lin = s.lin ∧
    (exportRepetition x0 x1 x2 x3 x4 x5 s).core = s.core ∧ (exportRepetition x0 x1 x2 x3 x4 x5 s).bias = s.bias ∧
    (exportRepetition x0 x1 x2 x3 x4 x5 s).hk = s.hk ∧ (exportRepetition x0 x1 x2 x3 x4 x5 s).pwr = s.pwr ∧
    (exportRepetition x0 x1 x2 x3 x4 x5 s).th = s.th ∧ (exportRepetition x0 x1 x2 x3 x4 x5 s).nvm = s.nvm ∧
    (exportRepetition x0 x1 x2 x3 x4 x5 s).cal = s.cal ∧ (exportRepetition x0 x1 x2 x3 x4 x5 s).test = s.test ∧
    (exportRepetition x0 x1 x2 x3 x4 x5 s).life = s.life ∧ (exportRepetition x0 x1 x2 x3 x4 x5 s).boot = s.boot ∧
    (exportRepetition x0 x1 x2 x3 x4 x5 s).pending = s.pending := by
  unfold exportRepetition
  simp

@[simp] theorem markRail_frame (x0 : Nat) (s : State) (x2 : Instant) :
    (markRail x0 s x2).sys = s.sys ∧ (markRail x0 s x2).em = s.em ∧ (markRail x0 s x2).tm = s.tm ∧
    (markRail x0 s x2).clk = s.clk ∧ (markRail x0 s x2).cfg = s.cfg ∧ (markRail x0 s x2).fh = s.fh ∧
    (markRail x0 s x2).dl = s.dl ∧ (markRail x0 s x2).bf = s.bf ∧ (markRail x0 s x2).lin = s.lin ∧
    (markRail x0 s x2).core = s.core ∧ (markRail x0 s x2).rf = s.rf ∧ (markRail x0 s x2).bias = s.bias ∧
    (markRail x0 s x2).hk = s.hk ∧ (markRail x0 s x2).pwr = s.pwr ∧ (markRail x0 s x2).th = s.th ∧
    (markRail x0 s x2).nvm = s.nvm ∧ (markRail x0 s x2).cal = s.cal ∧ (markRail x0 s x2).ls = s.ls ∧
    (markRail x0 s x2).rk = s.rk ∧ (markRail x0 s x2).test = s.test ∧ (markRail x0 s x2).life = s.life ∧
    (markRail x0 s x2).boot = s.boot ∧ (markRail x0 s x2).fresh = s.fresh ∧ (markRail x0 s x2).pending = s.pending := by
  unfold markRail
  simp

@[simp] theorem protectPath_frame (x0 : Image) (x1 : Nat) (x2 : Instant) (s : State) :
    (protectPath x0 x1 x2 s).sys = s.sys ∧ (protectPath x0 x1 x2 s).em = s.em ∧ (protectPath x0 x1 x2 s).tm = s.tm ∧
    (protectPath x0 x1 x2 s).clk = s.clk ∧ (protectPath x0 x1 x2 s).cfg = s.cfg ∧ (protectPath x0 x1 x2 s).fh = s.fh ∧
    (protectPath x0 x1 x2 s).dl = s.dl ∧ (protectPath x0 x1 x2 s).bf = s.bf ∧ (protectPath x0 x1 x2 s).lin = s.lin ∧
    (protectPath x0 x1 x2 s).core = s.core ∧ (protectPath x0 x1 x2 s).rf = s.rf ∧ (protectPath x0 x1 x2 s).bias = s.bias ∧
    (protectPath x0 x1 x2 s).hk = s.hk ∧ (protectPath x0 x1 x2 s).pwr = s.pwr ∧ (protectPath x0 x1 x2 s).th = s.th ∧
    (protectPath x0 x1 x2 s).nvm = s.nvm ∧ (protectPath x0 x1 x2 s).cal = s.cal ∧ (protectPath x0 x1 x2 s).ls = s.ls ∧
    (protectPath x0 x1 x2 s).rk = s.rk ∧ (protectPath x0 x1 x2 s).test = s.test ∧ (protectPath x0 x1 x2 s).life = s.life ∧
    (protectPath x0 x1 x2 s).boot = s.boot ∧ (protectPath x0 x1 x2 s).fresh = s.fresh ∧
    (protectPath x0 x1 x2 s).pending = s.pending := by
  unfold protectPath
  simp

@[simp] theorem setCore_frame (x0 : Nat) (x1 : Core) (s : State) :
    (setCore x0 x1 s).ph = s.ph ∧ (setCore x0 x1 s).ev = s.ev ∧ (setCore x0 x1 s).sys = s.sys ∧ (setCore x0 x1 s).em = s.em ∧
    (setCore x0 x1 s).tm = s.tm ∧ (setCore x0 x1 s).clk = s.clk ∧ (setCore x0 x1 s).cfg = s.cfg ∧
    (setCore x0 x1 s).fh = s.fh ∧ (setCore x0 x1 s).dl = s.dl ∧ (setCore x0 x1 s).ul = s.ul ∧ (setCore x0 x1 s).bf = s.bf ∧
    (setCore x0 x1 s).lin = s.lin ∧ (setCore x0 x1 s).rf = s.rf ∧ (setCore x0 x1 s).bias = s.bias ∧
    (setCore x0 x1 s).hk = s.hk ∧ (setCore x0 x1 s).pwr = s.pwr ∧ (setCore x0 x1 s).th = s.th ∧
    (setCore x0 x1 s).nvm = s.nvm ∧ (setCore x0 x1 s).cal = s.cal ∧ (setCore x0 x1 s).ls = s.ls ∧
    (setCore x0 x1 s).rk = s.rk ∧ (setCore x0 x1 s).test = s.test ∧ (setCore x0 x1 s).life = s.life ∧
    (setCore x0 x1 s).boot = s.boot ∧ (setCore x0 x1 s).stat = s.stat ∧ (setCore x0 x1 s).out = s.out ∧
    (setCore x0 x1 s).fresh = s.fresh ∧ (setCore x0 x1 s).pending = s.pending := by
  unfold setCore
  simp

@[simp] theorem trapRun_frame (x0 : Nat) (x1 : Nat) (s : State) :
    (trapRun x0 x1 s).sys = s.sys ∧ (trapRun x0 x1 s).em = s.em ∧ (trapRun x0 x1 s).tm = s.tm ∧
    (trapRun x0 x1 s).clk = s.clk ∧ (trapRun x0 x1 s).cfg = s.cfg ∧ (trapRun x0 x1 s).fh = s.fh ∧
    (trapRun x0 x1 s).dl = s.dl ∧ (trapRun x0 x1 s).ul = s.ul ∧ (trapRun x0 x1 s).bf = s.bf ∧ (trapRun x0 x1 s).lin = s.lin ∧
    (trapRun x0 x1 s).rf = s.rf ∧ (trapRun x0 x1 s).bias = s.bias ∧ (trapRun x0 x1 s).hk = s.hk ∧
    (trapRun x0 x1 s).pwr = s.pwr ∧ (trapRun x0 x1 s).th = s.th ∧ (trapRun x0 x1 s).nvm = s.nvm ∧
    (trapRun x0 x1 s).cal = s.cal ∧ (trapRun x0 x1 s).ls = s.ls ∧ (trapRun x0 x1 s).rk = s.rk ∧
    (trapRun x0 x1 s).test = s.test ∧ (trapRun x0 x1 s).life = s.life ∧ (trapRun x0 x1 s).boot = s.boot ∧
    (trapRun x0 x1 s).stat = s.stat ∧ (trapRun x0 x1 s).fresh = s.fresh ∧ (trapRun x0 x1 s).pending = s.pending := by
  unfold trapRun
  simp

@[simp] theorem abortRun_frame (x0 : Nat) (x1 : Nat) (s : State) :
    (abortRun x0 x1 s).ph = s.ph ∧ (abortRun x0 x1 s).ev = s.ev ∧ (abortRun x0 x1 s).sys = s.sys ∧
    (abortRun x0 x1 s).em = s.em ∧ (abortRun x0 x1 s).tm = s.tm ∧ (abortRun x0 x1 s).clk = s.clk ∧
    (abortRun x0 x1 s).cfg = s.cfg ∧ (abortRun x0 x1 s).fh = s.fh ∧ (abortRun x0 x1 s).dl = s.dl ∧
    (abortRun x0 x1 s).ul = s.ul ∧ (abortRun x0 x1 s).bf = s.bf ∧ (abortRun x0 x1 s).lin = s.lin ∧
    (abortRun x0 x1 s).rf = s.rf ∧ (abortRun x0 x1 s).bias = s.bias ∧ (abortRun x0 x1 s).hk = s.hk ∧
    (abortRun x0 x1 s).pwr = s.pwr ∧ (abortRun x0 x1 s).th = s.th ∧ (abortRun x0 x1 s).nvm = s.nvm ∧
    (abortRun x0 x1 s).cal = s.cal ∧ (abortRun x0 x1 s).ls = s.ls ∧ (abortRun x0 x1 s).rk = s.rk ∧
    (abortRun x0 x1 s).test = s.test ∧ (abortRun x0 x1 s).life = s.life ∧ (abortRun x0 x1 s).boot = s.boot ∧
    (abortRun x0 x1 s).stat = s.stat ∧ (abortRun x0 x1 s).out = s.out ∧ (abortRun x0 x1 s).fresh = s.fresh ∧
    (abortRun x0 x1 s).pending = s.pending := by
  unfold abortRun
  simp

@[simp] theorem settleWords_frame (x0 : Nat) (x1 : TEnv) (s : State) :
    (settleWords x0 x1 s).sys = s.sys ∧ (settleWords x0 x1 s).em = s.em ∧ (settleWords x0 x1 s).tm = s.tm ∧
    (settleWords x0 x1 s).clk = s.clk ∧ (settleWords x0 x1 s).cfg = s.cfg ∧ (settleWords x0 x1 s).fh = s.fh ∧
    (settleWords x0 x1 s).dl = s.dl ∧ (settleWords x0 x1 s).ul = s.ul ∧ (settleWords x0 x1 s).bf = s.bf ∧
    (settleWords x0 x1 s).lin = s.lin ∧ (settleWords x0 x1 s).core = s.core ∧ (settleWords x0 x1 s).rf = s.rf ∧
    (settleWords x0 x1 s).bias = s.bias ∧ (settleWords x0 x1 s).hk = s.hk ∧ (settleWords x0 x1 s).pwr = s.pwr ∧
    (settleWords x0 x1 s).th = s.th ∧ (settleWords x0 x1 s).nvm = s.nvm ∧ (settleWords x0 x1 s).cal = s.cal ∧
    (settleWords x0 x1 s).rk = s.rk ∧ (settleWords x0 x1 s).test = s.test ∧ (settleWords x0 x1 s).life = s.life ∧
    (settleWords x0 x1 s).boot = s.boot ∧ (settleWords x0 x1 s).stat = s.stat ∧ (settleWords x0 x1 s).fresh = s.fresh ∧
    (settleWords x0 x1 s).pending = s.pending := by
  unfold settleWords
  simp

@[simp] theorem retire_frame (x0 : Nat) (x1 : TEnv) (x2 : Nat) (s : State) :
    (retire x0 x1 x2 s).sys = s.sys ∧ (retire x0 x1 x2 s).em = s.em ∧ (retire x0 x1 x2 s).tm = s.tm ∧
    (retire x0 x1 x2 s).clk = s.clk ∧ (retire x0 x1 x2 s).cfg = s.cfg ∧ (retire x0 x1 x2 s).fh = s.fh ∧
    (retire x0 x1 x2 s).dl = s.dl ∧ (retire x0 x1 x2 s).ul = s.ul ∧ (retire x0 x1 x2 s).bf = s.bf ∧
    (retire x0 x1 x2 s).lin = s.lin ∧ (retire x0 x1 x2 s).rf = s.rf ∧ (retire x0 x1 x2 s).bias = s.bias ∧
    (retire x0 x1 x2 s).hk = s.hk ∧ (retire x0 x1 x2 s).pwr = s.pwr ∧ (retire x0 x1 x2 s).th = s.th ∧
    (retire x0 x1 x2 s).nvm = s.nvm ∧ (retire x0 x1 x2 s).cal = s.cal ∧ (retire x0 x1 x2 s).rk = s.rk ∧
    (retire x0 x1 x2 s).test = s.test ∧ (retire x0 x1 x2 s).life = s.life ∧ (retire x0 x1 x2 s).boot = s.boot ∧
    (retire x0 x1 x2 s).stat = s.stat ∧ (retire x0 x1 x2 s).pending = s.pending := by
  unfold retire
  simp

@[simp] theorem dedRun_frame (x0 : Nat) (x1 : Nat) (s : State) :
    (dedRun x0 x1 s).sys = s.sys ∧ (dedRun x0 x1 s).em = s.em ∧ (dedRun x0 x1 s).tm = s.tm ∧ (dedRun x0 x1 s).clk = s.clk ∧
    (dedRun x0 x1 s).cfg = s.cfg ∧ (dedRun x0 x1 s).fh = s.fh ∧ (dedRun x0 x1 s).dl = s.dl ∧ (dedRun x0 x1 s).ul = s.ul ∧
    (dedRun x0 x1 s).bf = s.bf ∧ (dedRun x0 x1 s).lin = s.lin ∧ (dedRun x0 x1 s).rf = s.rf ∧ (dedRun x0 x1 s).bias = s.bias ∧
    (dedRun x0 x1 s).hk = s.hk ∧ (dedRun x0 x1 s).pwr = s.pwr ∧ (dedRun x0 x1 s).th = s.th ∧ (dedRun x0 x1 s).nvm = s.nvm ∧
    (dedRun x0 x1 s).cal = s.cal ∧ (dedRun x0 x1 s).rk = s.rk ∧ (dedRun x0 x1 s).test = s.test ∧
    (dedRun x0 x1 s).life = s.life ∧ (dedRun x0 x1 s).boot = s.boot ∧ (dedRun x0 x1 s).stat = s.stat ∧
    (dedRun x0 x1 s).fresh = s.fresh ∧ (dedRun x0 x1 s).pending = s.pending := by
  unfold dedRun
  simp

@[simp] theorem failRun_frame (x0 : Nat) (x1 : TRes) (s : State) :
    (failRun x0 x1 s).sys = s.sys ∧ (failRun x0 x1 s).em = s.em ∧ (failRun x0 x1 s).tm = s.tm ∧
    (failRun x0 x1 s).clk = s.clk ∧ (failRun x0 x1 s).cfg = s.cfg ∧ (failRun x0 x1 s).fh = s.fh ∧
    (failRun x0 x1 s).dl = s.dl ∧ (failRun x0 x1 s).ul = s.ul ∧ (failRun x0 x1 s).bf = s.bf ∧ (failRun x0 x1 s).lin = s.lin ∧
    (failRun x0 x1 s).rf = s.rf ∧ (failRun x0 x1 s).bias = s.bias ∧ (failRun x0 x1 s).hk = s.hk ∧
    (failRun x0 x1 s).pwr = s.pwr ∧ (failRun x0 x1 s).th = s.th ∧ (failRun x0 x1 s).nvm = s.nvm ∧
    (failRun x0 x1 s).cal = s.cal ∧ (failRun x0 x1 s).rk = s.rk ∧ (failRun x0 x1 s).test = s.test ∧
    (failRun x0 x1 s).life = s.life ∧ (failRun x0 x1 s).boot = s.boot ∧ (failRun x0 x1 s).stat = s.stat ∧
    (failRun x0 x1 s).fresh = s.fresh ∧ (failRun x0 x1 s).pending = s.pending := by
  unfold failRun
  repeat' (first | (simp; done) | (simp only [takeFree]) | split | (dsimp only))

@[simp] theorem runFetched_frame (x0 : Nat) (x1 : Bool) (x2 : TOp) (s : State) :
    (runFetched x0 x1 x2 s).sys = s.sys ∧ (runFetched x0 x1 x2 s).em = s.em ∧ (runFetched x0 x1 x2 s).tm = s.tm ∧
    (runFetched x0 x1 x2 s).clk = s.clk ∧ (runFetched x0 x1 x2 s).cfg = s.cfg ∧ (runFetched x0 x1 x2 s).fh = s.fh ∧
    (runFetched x0 x1 x2 s).dl = s.dl ∧ (runFetched x0 x1 x2 s).ul = s.ul ∧ (runFetched x0 x1 x2 s).bf = s.bf ∧
    (runFetched x0 x1 x2 s).lin = s.lin ∧ (runFetched x0 x1 x2 s).rf = s.rf ∧ (runFetched x0 x1 x2 s).bias = s.bias ∧
    (runFetched x0 x1 x2 s).hk = s.hk ∧ (runFetched x0 x1 x2 s).pwr = s.pwr ∧ (runFetched x0 x1 x2 s).th = s.th ∧
    (runFetched x0 x1 x2 s).nvm = s.nvm ∧ (runFetched x0 x1 x2 s).cal = s.cal ∧ (runFetched x0 x1 x2 s).rk = s.rk ∧
    (runFetched x0 x1 x2 s).test = s.test ∧ (runFetched x0 x1 x2 s).life = s.life ∧ (runFetched x0 x1 x2 s).boot = s.boot ∧
    (runFetched x0 x1 x2 s).stat = s.stat ∧ (runFetched x0 x1 x2 s).pending = s.pending := by
  unfold runFetched
  repeat' (first | (simp; done) | (simp only [takeFree]) | split | (dsimp only))

@[simp] theorem issue_frame (x0 : Nat) (x1 : Bool) (x2 : TOp) (s : State) :
    (issue x0 x1 x2 s).sys = s.sys ∧ (issue x0 x1 x2 s).em = s.em ∧ (issue x0 x1 x2 s).tm = s.tm ∧
    (issue x0 x1 x2 s).clk = s.clk ∧ (issue x0 x1 x2 s).cfg = s.cfg ∧ (issue x0 x1 x2 s).fh = s.fh ∧
    (issue x0 x1 x2 s).dl = s.dl ∧ (issue x0 x1 x2 s).ul = s.ul ∧ (issue x0 x1 x2 s).bf = s.bf ∧
    (issue x0 x1 x2 s).lin = s.lin ∧ (issue x0 x1 x2 s).rf = s.rf ∧ (issue x0 x1 x2 s).bias = s.bias ∧
    (issue x0 x1 x2 s).hk = s.hk ∧ (issue x0 x1 x2 s).pwr = s.pwr ∧ (issue x0 x1 x2 s).th = s.th ∧
    (issue x0 x1 x2 s).nvm = s.nvm ∧ (issue x0 x1 x2 s).cal = s.cal ∧ (issue x0 x1 x2 s).rk = s.rk ∧
    (issue x0 x1 x2 s).test = s.test ∧ (issue x0 x1 x2 s).life = s.life ∧ (issue x0 x1 x2 s).boot = s.boot ∧
    (issue x0 x1 x2 s).stat = s.stat ∧ (issue x0 x1 x2 s).pending = s.pending := by
  unfold issue
  repeat' (first | (simp; done) | (simp only [takeFree]) | split | (dsimp only))

@[simp] theorem endRun_frame (x0 : Nat) (s : State) :
    (endRun x0 s).sys = s.sys ∧ (endRun x0 s).em = s.em ∧ (endRun x0 s).tm = s.tm ∧ (endRun x0 s).clk = s.clk ∧
    (endRun x0 s).cfg = s.cfg ∧ (endRun x0 s).fh = s.fh ∧ (endRun x0 s).dl = s.dl ∧ (endRun x0 s).ul = s.ul ∧
    (endRun x0 s).bf = s.bf ∧ (endRun x0 s).lin = s.lin ∧ (endRun x0 s).rf = s.rf ∧ (endRun x0 s).bias = s.bias ∧
    (endRun x0 s).hk = s.hk ∧ (endRun x0 s).pwr = s.pwr ∧ (endRun x0 s).th = s.th ∧ (endRun x0 s).nvm = s.nvm ∧
    (endRun x0 s).cal = s.cal ∧ (endRun x0 s).rk = s.rk ∧ (endRun x0 s).test = s.test ∧ (endRun x0 s).life = s.life ∧
    (endRun x0 s).boot = s.boot ∧ (endRun x0 s).stat = s.stat ∧ (endRun x0 s).pending = s.pending := by
  unfold endRun
  repeat' (first | (simp; done) | (simp only [takeFree]) | split | (dsimp only))

@[simp] theorem loadSlot_frame (x0 : TImage) (x1 : Nat) (s : State) (x3 : Nat) :
    (loadSlot x0 x1 s x3).ph = s.ph ∧ (loadSlot x0 x1 s x3).ev = s.ev ∧ (loadSlot x0 x1 s x3).sys = s.sys ∧
    (loadSlot x0 x1 s x3).em = s.em ∧ (loadSlot x0 x1 s x3).tm = s.tm ∧ (loadSlot x0 x1 s x3).clk = s.clk ∧
    (loadSlot x0 x1 s x3).cfg = s.cfg ∧ (loadSlot x0 x1 s x3).fh = s.fh ∧ (loadSlot x0 x1 s x3).dl = s.dl ∧
    (loadSlot x0 x1 s x3).ul = s.ul ∧ (loadSlot x0 x1 s x3).bf = s.bf ∧ (loadSlot x0 x1 s x3).lin = s.lin ∧
    (loadSlot x0 x1 s x3).rf = s.rf ∧ (loadSlot x0 x1 s x3).bias = s.bias ∧ (loadSlot x0 x1 s x3).hk = s.hk ∧
    (loadSlot x0 x1 s x3).pwr = s.pwr ∧ (loadSlot x0 x1 s x3).th = s.th ∧ (loadSlot x0 x1 s x3).nvm = s.nvm ∧
    (loadSlot x0 x1 s x3).cal = s.cal ∧ (loadSlot x0 x1 s x3).rk = s.rk ∧ (loadSlot x0 x1 s x3).test = s.test ∧
    (loadSlot x0 x1 s x3).life = s.life ∧ (loadSlot x0 x1 s x3).boot = s.boot ∧ (loadSlot x0 x1 s x3).stat = s.stat ∧
    (loadSlot x0 x1 s x3).out = s.out ∧ (loadSlot x0 x1 s x3).fresh = s.fresh ∧
    (loadSlot x0 x1 s x3).pending = s.pending := by
  unfold loadSlot
  simp

end Sys2Proof.Machine
end

