-- ==== Sys2Proof/Laws/Messages.lean ====
section
/-! SUPPORT. What a delivered message does: it runs its body in the consumed state, and the answer is that of the reply. -/

namespace Sys2Proof.Machine

/-- The answer of a successful reply. -/
theorem settle_ok (a : Asker) (before back : State) (payload : List Byte) (t : State) :
    settle a before back (ok payload t) = answered a payload t := rfl

/-- The answer of a failed check. -/
theorem settle_err (a : Asker) (before back : State) (code detail : Nat) (t : State) :
    settle a before back (err code detail t) = answeredWith a code detail [] t := rfl

/-- A reply with a code and payload, neither long nor deferred, without anything after it. -/
theorem settle_code (a : Asker) (before back t : State) (code detail : Nat) (payload : List Byte) :
    settle a before back { st := t, code := code, detail := detail, payload := payload } = answeredWith a code detail payload t := rfl

/-- A reply that does something after it has answered. -/
theorem settle_post (a : Asker) (before back t : State) (f : State → State) :
    settle a before back { st := t, post := f } = f (answered a [] t) := rfl

/-- The start of a long operation while fewer than 8 run. -/
theorem settle_accepted (a : Asker) (before back t : State) (k : LongKind) (h : before.ph.long.length < 8) :
    settle a before back (accepted k t) = acceptedLong k a t := by
  simp [settle, accepted, acceptedLong, Nat.not_le.mpr h]

/-- The start of a long operation beyond 8 is answered BUSY and starts nothing. -/
theorem settle_accepted_full (a : Asker) (before back t : State) (k : LongKind) (h : 8 ≤ before.ph.long.length) :
    settle a before back (accepted k t) = answeredWith a stBusy 0 [] before := by
  simp [settle, accepted, answeredWith, h, stBusy, isError]

/-- A deferred reply. -/
theorem settle_deferred (a : Asker) (before back t : State) : settle a before back (deferred t) = deferredTo a t := rfl

/-- A message that stalls is still to be taken, and its domain is being woken. -/
theorem settle_stalled (a : Asker) (before back t : State) : settle a before back (stalled t) = { back with pwr := t.pwr } := rfl

/-- The steps of R44 that a message of every opcode passes lead to its own body. -/
theorem execute_passes (a : Asker) (p : List Byte) (body : Asker → List Byte → State → Reply) (back s : State)
    (hf : a.hdr.flags < 4) (hs : a.hdr.status = 0) (he : a.hdr.epoch = 0 ∨ a.hdr.epoch = s.cfg.epoch)
    (hl : a.hdr.opcode ∈ longOpcodes → a.hdr.flags.testBit 1 = true) :
    execute a p none body back s = settle { a with hdr := { a.hdr with epoch := s.cfg.epoch } } s back
      (body { a with hdr := { a.hdr with epoch := s.cfg.epoch } } p s) := by
  unfold execute
  dsimp only
  rw [if_neg (Nat.not_le.mpr hf), if_neg (not_not.mpr hs), if_neg (by tauto), if_neg (by rintro ⟨h1, h2⟩; simp [hl h1] at h2)]

/-- Consuming a message touches the pigeonholes, and the fetch what the device does on PCIe. -/
theorem consumed_eq (ring : Nat) (h : Hdr) (s : State) :
    consumed ring h s = { s with ph := (consumed ring h s).ph, out := (consumed ring h s).out } := by
  simp only [consumed, slotsTaken, setRing, fetchSlots]
  split <;> rfl

/-- The long operations under way stay as they are. -/
theorem consumed_ph_long (ring : Nat) (h : Hdr) (s : State) : (consumed ring h s).ph.long = s.ph.long := by
  simp only [consumed, slotsTaken, setRing, fetchSlots]
  split <;> rfl

/-! What consuming a message leaves as it was. -/

section
variable (ring : Nat) (h : Hdr) (s : State)
@[simp] theorem consumed_sys : (consumed ring h s).sys = s.sys := by rw [consumed_eq]
@[simp] theorem consumed_cfg : (consumed ring h s).cfg = s.cfg := by rw [consumed_eq]
@[simp] theorem consumed_pwr : (consumed ring h s).pwr = s.pwr := by rw [consumed_eq]
@[simp] theorem consumed_tm : (consumed ring h s).tm = s.tm := by rw [consumed_eq]
@[simp] theorem consumed_ev : (consumed ring h s).ev = s.ev := by rw [consumed_eq]
@[simp] theorem consumed_em : (consumed ring h s).em = s.em := by rw [consumed_eq]
@[simp] theorem consumed_nvm : (consumed ring h s).nvm = s.nvm := by rw [consumed_eq]
@[simp] theorem consumed_ls : (consumed ring h s).ls = s.ls := by rw [consumed_eq]
@[simp] theorem consumed_rk : (consumed ring h s).rk = s.rk := by rw [consumed_eq]
@[simp] theorem consumed_test : (consumed ring h s).test = s.test := by rw [consumed_eq]
@[simp] theorem consumed_life : (consumed ring h s).life = s.life := by rw [consumed_eq]
@[simp] theorem consumed_cal : (consumed ring h s).cal = s.cal := by rw [consumed_eq]
@[simp] theorem consumed_th : (consumed ring h s).th = s.th := by rw [consumed_eq]
@[simp] theorem consumed_bias : (consumed ring h s).bias = s.bias := by rw [consumed_eq]
@[simp] theorem consumed_hk : (consumed ring h s).hk = s.hk := by rw [consumed_eq]
@[simp] theorem consumed_clk : (consumed ring h s).clk = s.clk := by rw [consumed_eq]
@[simp] theorem consumed_rf : (consumed ring h s).rf = s.rf := by rw [consumed_eq]
@[simp] theorem consumed_lin : (consumed ring h s).lin = s.lin := by rw [consumed_eq]
@[simp] theorem consumed_bf : (consumed ring h s).bf = s.bf := by rw [consumed_eq]
@[simp] theorem consumed_dl : (consumed ring h s).dl = s.dl := by rw [consumed_eq]
@[simp] theorem consumed_ul : (consumed ring h s).ul = s.ul := by rw [consumed_eq]
@[simp] theorem consumed_fh : (consumed ring h s).fh = s.fh := by rw [consumed_eq]
@[simp] theorem consumed_core : (consumed ring h s).core = s.core := by rw [consumed_eq]
@[simp] theorem consumed_stat : (consumed ring h s).stat = s.stat := by rw [consumed_eq]
@[simp] theorem consumed_boot : (consumed ring h s).boot = s.boot := by rw [consumed_eq]
@[simp] theorem consumed_fresh : (consumed ring h s).fresh = s.fresh := by rw [consumed_eq]
@[simp] theorem consumed_pending : (consumed ring h s).pending = s.pending := by rw [consumed_eq]
@[simp] theorem consumed_long : (consumed ring h s).ph.long = s.ph.long := consumed_ph_long ring h s
end

/-- A delivered message runs its body in the consumed state and is answered as its reply says. -/
theorem runMessage_delivered {op ring : Nat} {dma : List Byte} {s : State} {h : Hdr} {p : List Byte}
    (body : Asker → List Byte → State → Reply) (d : Delivered op ring dma s h p) :
    runMessage op ring dma body s = settle (askerOf ring h s) (consumed ring h s) s (body (askerOf ring h s) p (consumed ring h s)) := by
  have hm : meetFront ring (32 + h.length) s = s := by simp [meetFront, d.sound, readWords]
  have hseq : ¬((ringOf s ring).expect.isSome = true ∧ (ringOf s ring).expect ≠ some h.seq ∧ h.opcode ≠ 0x0101) := by
    rintro ⟨h1, h2, h3⟩
    rcases d.inOrder with e | e | e
    · simp [e] at h1
    · exact h2 e
    · exact h3 (d.opcode.trans e)
  unfold runMessage
  rw [if_pos d.picked, d.front]
  dsimp only
  rw [if_pos d.opcode, d.known, hm]
  unfold takeMsg
  dsimp only
  rw [d.notReplay]
  dsimp only
  rw [if_neg hseq]
  have e := execute_passes { ring := ring, hdr := h } p body s (consumed ring h s) d.flags d.status (by simpa using d.epoch)
    fun hm => (d.long (d.opcode ▸ hm)).1
  rw [consumed_cfg] at e
  exact e

end Sys2Proof.Machine
end

