-- ==== Sys2Proof/Machine/Pins.lean ====
section
/-! DEFINITION. The pins as functions of the state (R421, Table 19-2): what each group is driven to, or that it is in high impedance. The pins of
the bias channels are `biasPin`'s. -/

namespace Sys2Proof.Machine

/-- A pin: in high impedance, or driven to a level. -/
abbrev Drive := Option Bool

/-- FE_GPIO[n]: high impedance with a pull-down until TXQq first powers. -/
def fePin (s : State) (n : Nat) : Drive := if s.em.powered.getLsbD (n / 8) then some (pinLevel s n) else none

/-- RFFE_SCLK[q] and RFFE_SDATA[q] between two writes: high impedance until TXQq first powers, then low, the bus idle. -/
def rffePin (s : State) (q : Nat) : Drive := if s.em.powered.getLsbD q then some false else none

/-- TXOUT[p] has an output: its driver is powered and service runs. -/
def txOutput (s : State) (p : Nat) : Bool := s.pwr.serving && s.pwr.ready.getLsbD (12 + p / 16)

/-- CAL_TX has an output, in the modes that have the calibration ports (R279). -/
def calTxOutput (s : State) : Bool := calPorts s && s.pwr.ready.getLsbD 12

/-- PWR_EN[k]. -/
def pwrEnPin (s : State) (k : Nat) : Bool := s.pwr.en.getLsbD k

/-- INT_N[k] and ALERT_N are open drain: low while asserted, else released (R56, R57). -/
def intPin (s : State) (k : Nat) : Drive := if intAsserted s k then some false else none
def alertPin (s : State) : Drive := if alertAsserted s then some false else none

/-- 1PPS_OUT (R328). -/
def ppsPin (s : State) : Bool := ppsOutLevel s

/-- XSPI_CS_N between two accesses, and whether the other xSPI pins are driven (R421, R423). -/
def xspiCs (s : State) : Drive := match s.boot.xspi with | .released => none | _ => some true
def xspiDriven (s : State) : Bool := match s.boot.xspi with | .serial => true | .octal => true | _ => false

/-- FH_TX[n] is in electrical idle: LINK is not powered, or the live port mode has no such port (R83). -/
def fhIdle (s : State) (n : Nat) : Bool := !(portExists s n && s.pwr.ready.getLsbD 3)

/-- SPI_MISO between two frames, with SPI_CS_N high (R33). -/
def misoPin (_s : State) : Drive := none

end Sys2Proof.Machine
end

