-- ==== Sys2Proof/Machine/Response.lean ====
section
/-! DEFINITION. The responses that R147, R163 and R207 require of the filters and pulses whose coefficients no rule states: what Config's
constants are to meet. A claim about one device takes them as hypotheses; nothing in the model rests on them. -/

namespace Sys2Proof.Machine

/-- Response of integer taps at tick offsets within `reach`, at a frequency of f ticks⁻¹. -/
def IsResponse (reach : Nat) (tap : Int → Int) (h : ℝ → ℂ) : Prop :=
  ∀ f : ℝ, h f = ∑ t ∈ Finset.Icc (-(reach : Int)) reach, (tap t : ℂ) * Complex.exp (-2 * Real.pi * Complex.I * f * t)

/-- Gain in dB over the gain at 0. -/
def IsGainDb (h : ℝ → ℂ) (g : ℝ → ℝ) : Prop := ∀ f : ℝ, g f = 20 * Real.logb 10 (‖h f‖ / ‖h 0‖)

/-- Flat to ±0.02 dB up to `flat` × fs, attenuated by `atten` dB beyond `stop` × fs, monotonic between; `q` ticks make a sample, and the
response of taps at the tick rate repeats beyond half a tick⁻¹. -/
def MeetsMask (q : Nat) (flat stop atten : ℝ) (g : ℝ → ℝ) : Prop :=
  (∀ f, |f| ≤ flat → |g (f / q)| ≤ 0.02) ∧ (∀ f, stop ≤ |f| → |f| ≤ q / 2 → g (f / q) ≤ -atten) ∧
    AntitoneOn (fun f => g (f / q)) (Set.Icc flat stop)

/-- R147: the interpolation filter of ratio q. -/
def InterpolationMeets (q : Nat) : Prop :=
  ∀ h g, IsResponse ((Config.interpReach q + 1) * q) (Config.interpTap q) h → IsGainDb h g → MeetsMask q 0.41 0.59 85 g

/-- R163, Table 7-3: the decimation filter of a setting at ratio q. -/
def DecimationMeets (setting q : Nat) : Prop :=
  ∀ h g, IsResponse (Config.decimReach setting q) (Config.decimTap setting q) h → IsGainDb h g →
    match setting with
    | 0 => MeetsMask q 0.38 0.62 60 g
    | 1 => MeetsMask q 0.40 0.60 75 g
    | 2 => MeetsMask q 0.41 0.59 85 g
    | _ => MeetsMask q 0.42 0.58 95 g

/-- R207: a carrier's pulse of n taps is flat over the `width` its subcarriers occupy, to within `tol` dB (the rule gives no tolerance), and
puts, with a budget of `aclr` dB, that much less energy into each adjacent channel of bandwidth `channel` than into its own. -/
def PulseMeets (freq : Int) (width channel n aclr : Nat) (tol : ℝ) : Prop :=
  ∀ p : ℝ → ℂ, (∀ f : ℝ, p f = ∑ k ∈ Finset.Icc (-(n / 2 : Int)) (n / 2),
      (((Config.cfrPulse freq width n k).1 : ℂ) + (Config.cfrPulse freq width n k).2 * Complex.I) *
        Complex.exp (-2 * Real.pi * Complex.I * f * k / 1474560000)) →
    (∀ f : ℝ, |f - freq| ≤ width / 2 → |20 * Real.logb 10 (‖p f‖ / ‖p freq‖)| ≤ tol) ∧
    ∀ m : ℤ, (m = 1 ∨ m = -1) →
      (∫ f in ((freq + (2 * m - 1) * channel / 2 : ℝ))..((freq + (2 * m + 1) * channel / 2 : ℝ)), ‖p f‖ ^ 2) * 10 ^ ((aclr : ℝ) / 10) ≤
        ∫ f in ((freq - channel / 2 : ℝ))..((freq + channel / 2 : ℝ)), ‖p f‖ ^ 2

end Sys2Proof.Machine
end

