-- ==== Sys2Proof/WellFormed.lean ====
section
/-! DEFINITION. Well-formed commands: every operand within what the spec gives the thing it names: eight pigeonholes each way
(R34), eight ports (Table 4-1), 64 paths and 16 classes (R217), twenty domains (R333), eight regulators (R344), 24 leases
(Table 17-3), and so on. `exec` is total: a command that is not well formed
still has an outcome; no statement's hypothesis asks more of a command than its own row does. -/

namespace Sys2Proof

/-- A symbol that a carrier of numerology up to 2 can name (R111). -/
def SymName.wf (n : SymName) : Bool := decide (n.carrier < 4) && decide (n.subframe < 10) && decide (n.slot < 4) && decide (n.symbol < 14)

/-- A capture source: one of the 64 plan entries, or a path and class (R225, R226). -/
def CaptureSrc.wf : CaptureSrc → Bool
  | .host e => decide (e < 64)
  | .adapt p c => decide (p < 64) && decide (c < 16)

/-- A calibration type of Table 16-4 (R373). -/
def CalResult.wf (r : CalResult) : Bool :=
  decide (1 ≤ r.typ ∧ r.typ ≤ 11) && decide (1 ≤ r.attempts.length ∧ r.attempts.length ≤ 3) && r.levels.all fun e => decide (e.1 < 64)

/-- A pad release on one of the eight host pigeonholes, or by the keyed register (R354). -/
def PadSource.wf : PadSource → Bool
  | .message ring _ => decide (ring < 8)
  | .register _ => true

/-- An access within aperture W2 (R65). -/
def W2Source.wf : W2Source → Bool
  | .pcie o n => decide (o + n ≤ 0x4000000)
  | .spi _ => true
  | .write o d => decide (o + d.length ≤ 0x4000000)

/-- A read of a register window: a PCIe read of W0, of 64 KiB, or of BAR4, whose 8 KiB the model numbers from the end of W0 on (R31, R32; log
93), or a frame (R33). -/
def W0Source.wf : W0Source → Bool
  | .pcie o w => decide (o < 0x12000) && decide (1 ≤ w ∧ w ≤ 8)
  | .spi _ => true

/-- What an ORx gives over a capture of at most 65,536 samples (R223). -/
def OrxRun.wf (r : OrxRun) : Bool := decide (r.codes.length ≤ 65536) && r.parity.all fun k => decide (k < 65536)

/-- Samples of one of 64 RX paths. -/
def AdcRun.wf (r : AdcRun) : Bool := decide (r.path < 64)

/-- What an export brings: paths and flow records that exist (R158, R161). -/
def UlObs.wf (o : UlObs) : Bool :=
  o.adc.all AdcRun.wf && (o.parity.all fun e => decide (e.1 < 64)) && (o.overwritten.all fun e => decide (e.1 < 64)) &&
    o.compressor.all (fun k => decide (k < 1024)) && (o.fft.all fun x => decide (x.lane < 64)) &&
    (o.bf.all fun x => decide (x.lane < 32)) && o.late.all (fun k => decide (k < 1024)) && o.bufferFull.all fun k => decide (k < 1024)

/-- Faults met at release: antenna streams and paths that exist (R145, R202). -/
def DlFaults.wf (f : DlFaults) : Bool :=
  (f.bf.all fun x => decide (x.lane < 64)) && (f.fft.all fun x => decide (x.lane < 64)) && f.parity.all fun e => decide (e.1 < 64)

/-- Well-formed commands. -/
def Instr.wf : Instr → Bool
  | .sysHello ring _ => decide (ring < 8)
  | .sysInfo ring _ => decide (ring < 8)
  | .sysReset ring _ => decide (ring < 8)
  | .sysFwImage ring _ => decide (ring < 8)
  | .fwImageComplete _ => true
  | .sysReady => true
  | .eventConfig ring _ => decide (ring < 8)
  | .eventDrain ring _ => decide (ring < 8)
  | .badOpcode ring _ => decide (ring < 8)
  | .framingLost ring _ => decide (ring < 8)
  | .cfgStage ring _ => decide (ring < 8)
  | .cfgCommit ring _ => decide (ring < 8)
  | .commitArmed => true
  | .commitArmTimeout => true
  | .commitBoundary => true
  | .cfgDiscard ring _ => decide (ring < 8)
  | .cfgRead ring _ => decide (ring < 8)
  | .beamCatalogueWrite ring _ => decide (ring < 8)
  | .cabinetWriteComplete => true
  | .cabinetBoundary => true
  | .beamCataloguePersist ring _ => decide (ring < 8)
  | .cataloguePersistComplete _ => true
  | .beamElementMap ring _ => decide (ring < 8)
  | .dpdConfigure ring _ => decide (ring < 8)
  | .dpdBankWrite ring _ => decide (ring < 8)
  | .bankCommit => true
  | .dpdClassSwitch sym => sym.wf
  | .dpdAdaptControl ring _ => decide (ring < 8)
  | .adaptationSolution path cls _ ovf coefs => decide (path < 64) && decide (cls < 16) && decide (ovf < 256) && decide (coefs.length ≤ 48)
  | .dpdBankPersist ring _ => decide (ring < 8)
  | .bankPersistComplete _ => true
  | .cfrConfigure ring _ => decide (ring < 8)
  | .capturePlan ring _ => decide (ring < 8)
  | .captureOccurrence src sym _ => src.wf && sym.wf
  | .captureComplete src run => src.wf && run.wf
  | .calRun ring _ => decide (ring < 8)
  | .calComplete results _ => results.all CalResult.wf
  | .calStatus ring _ => decide (ring < 8)
  | .pwrRequest ring _ => decide (ring < 8)
  | .pwrStatus ring _ => decide (ring < 8)
  | .pwrRefusals ring _ => decide (ring < 8)
  | .padRelease src => src.wf
  | .timeServo ring _ => decide (ring < 8)
  | .timeSetOffset ring _ => decide (ring < 8)
  | .timeStatus ring _ => decide (ring < 8)
  | .clkMeasure ring _ => decide (ring < 8)
  | .clkMeasureDone _ _ => true
  | .clkSources ring _ => decide (ring < 8)
  | .biasSet ring _ => decide (ring < 8)
  | .biasSpan ring _ => decide (ring < 8)
  | .biasRelease ring _ hvP hvN => decide (ring < 8) && decide (hvP < 16384) && decide (hvN < 16384)
  | .biasSlewUpdate => true
  | .biasParked channel => decide (channel < 80)
  | .paClearN => true
  | .hkConfigure ring _ => decide (ring < 8)
  | .hkWindow ring _ => decide (ring < 8)
  | .hkRead ring _ code => decide (ring < 8) && decide (code < 16384)
  | .hkTrigger slot => decide (slot < 64)
  | .hkSlotQueued slot => decide (slot < 64)
  | .hkConversionComplete converter code recheck => decide (converter < 2) && decide (code < 16384) && decide (recheck < 16384)
  | .hkPowerDown converter => decide (converter < 2)
  | .testRun ring _ => decide (ring < 8)
  | .testComplete _ => true
  | .testStatus ring _ => decide (ring < 8)
  | .rockerSet ring _ => decide (ring < 8)
  | .digestStart => true
  | .digestComplete => true
  | .nvmRead ring _ => decide (ring < 8)
  | .nvmWriteRecord ring _ => decide (ring < 8)
  | .nvmStatus ring _ => decide (ring < 8)
  | .nvmWriteStep => true
  | .trestleKernelLoad ring _ => decide (ring < 8)
  | .trestleKernelStart ring _ => decide (ring < 8)
  | .trestleStatus ring _ => decide (ring < 8)
  | .quantumEnd core => decide (core < 8)
  | .cycleBudgetExhausted core => decide (core < 8)
  | .ld core _ _ => decide (core < 8)
  | .st core _ _ => decide (core < 8)
  | .ldq core _ _ => decide (core < 8)
  | .stq core _ _ => decide (core < 8)
  | .mov core _ _ => decide (core < 8)
  | .movi core _ _ => decide (core < 8)
  | .movhi core _ _ => decide (core < 8)
  | .add core _ _ _ => decide (core < 8)
  | .sub core _ _ _ => decide (core < 8)
  | .and core _ _ _ => decide (core < 8)
  | .or core _ _ _ => decide (core < 8)
  | .xor core _ _ _ => decide (core < 8)
  | .not core _ _ => decide (core < 8)
  | .lsl core _ _ _ => decide (core < 8)
  | .lsr core _ _ _ => decide (core < 8)
  | .asr core _ _ _ => decide (core < 8)
  | .cmp core _ _ => decide (core < 8)
  | .min core _ _ _ => decide (core < 8)
  | .max core _ _ _ => decide (core < 8)
  | .cadd core _ _ _ => decide (core < 8)
  | .csub core _ _ _ => decide (core < 8)
  | .cneg core _ _ => decide (core < 8)
  | .conj core _ _ => decide (core < 8)
  | .cshr core _ _ _ => decide (core < 8)
  | .swaph core _ _ => decide (core < 8)
  | .unpko core _ _ => decide (core < 8)
  | .cmul4 core _ _ _ => decide (core < 8)
  | .cmac4 core _ _ _ => decide (core < 8)
  | .cmsu4 core _ _ _ => decide (core < 8)
  | .cmacj4 core _ _ _ => decide (core < 8)
  | .cmac4l core _ _ _ _ _ => decide (core < 8)
  | .clra core _ => decide (core < 8)
  | .aadd core _ _ => decide (core < 8)
  | .ashr core _ _ => decide (core < 8)
  | .ashl core _ _ => decide (core < 8)
  | .mova core _ _ => decide (core < 8)
  | .str core _ _ _ _ => decide (core < 8)
  | .exp core _ _ => decide (core < 8)
  | .norm core _ _ _ => decide (core < 8)
  | .expc core _ _ => decide (core < 8)
  | .expa core _ _ => decide (core < 8)
  | .bexp core _ => decide (core < 8)
  | .bexpq core _ => decide (core < 8)
  | .beclr core => decide (core < 8)
  | .br core _ => decide (core < 8)
  | .bcc core _ _ => decide (core < 8)
  | .call core _ => decide (core < 8)
  | .ret core => decide (core < 8)
  | .rpt core _ => decide (core < 8)
  | .end_ core => decide (core < 8)
  | .nop core => decide (core < 8)
  | .setf core _ => decide (core < 8)
  | .clrovf core => decide (core < 8)
  | .blk core _ _ => decide (core < 8)
  | .dma core => decide (core < 8)
  | .linkConfigure ring _ => decide (ring < 8)
  | .linkStatus ring _ => decide (ring < 8)
  | .linkCounters ring _ => decide (ring < 8)
  | .logRead ring _ => decide (ring < 8)
  | .leaseStatus ring _ => decide (ring < 8)
  | .thermalConfigure ring _ => decide (ring < 8)
  | .thermalRead ring _ readings => decide (ring < 8) && (readings.all fun x => decide (x.1 < 32))
  | .phDoorbell ring _ => decide (ring < 8)
  | .phHead ring _ => decide (8 ≤ ring ∧ ring < 16)
  | .ringDisable ring => decide (ring < 16)
  | .ringDisabled ring => decide (ring < 16)
  | .ringEnable ring => decide (ring < 16)
  | .phDmaErr ring kind cause _ => decide (ring < 16) && decide (kind = if ring < 8 then 1 else 2) && decide (1 ≤ cause ∧ cause ≤ 4)
  | .pcieLinkDown => true
  | .pcieLinkUp => true
  | .muteAll _ => true
  | .parkAll _ => true
  | .safeHoldReq _ => true
  | .muteEnd => true
  | .timeCapture _ => true
  | .thDemand _ => true
  | .rockerRegisterWrite offset _ => decide (0x7000 ≤ offset ∧ offset < 0x701C)
  | .registerWrite offset width value => decide (offset < 0x12000) && decide (1 ≤ width ∧ width ≤ 8) && decide (value < 256 ^ width)
  | .w2Read src => src.wf
  | .w0Read src => src.wf
  | .w0Write _ => true
  | .slotWrite _ => true
  | .slotRead _ => true
  | .frameReceived port _ _ => decide (port < 8)
  | .sectionParse port => decide (port < 8)
  | .sectionUsable _ _ struck => struck.all fun w => decide (w.1 < 2097152)
  | .type5ResponseTimeout port => decide (port < 8)
  | .linkDown port cause => decide (port < 8) && decide (cause ∈ [1, 2, 3, 5])
  | .linkUp port => decide (port < 8)
  | .dlSymbolRelease sym faults => sym.wf && faults.wf
  | .dlPlayout path sym _ _ _ => decide (path < 64) && sym.wf
  | .ulExport sym obs => sym.wf && obs.wf
  | .prachExport flow occasion rep obs => decide (flow < 1024) && decide (occasion < 4) && decide (rep < 12) && obs.wf
  | .prachOccasion entry _ => decide (entry < 32)
  | .agcStep path sym => decide (path < 64) && sym.wf
  | .protectionStep path window => decide (path < 64) && decide (window.words.length ≤ 64)
  | .protectionReturn path => decide (path < 64)
  | .weightClaim _ carrier _ slot => decide (carrier < 4) && decide (slot < 40)
  | .serviceStart => true
  | .serviceEnd => true
  | .tddEvent step => decide (step.index < 512)
  | .rffeProgram bus run => decide (bus < 4) && (run.reads.all fun r => decide (r.value < 256)) && (run.lost.all fun e => decide (e.1 < 120))
  | .loQualified lo => decide (lo < 8)
  | .loQualifyTimeout lo => decide (lo < 8)
  | .loUnlock lo => decide (lo < 8)
  | .loRelockTimeout lo => decide (lo < 8)
  | .pllUnlock pll => decide (pll < 5)
  | .oscQualified osc => decide (osc < 2)
  | .oscQualifyTimeout osc => decide (osc < 2)
  | .oscRetry => true
  | .refMonitorTrip osc cause trip => decide (osc < 2) && decide (1 ≤ cause ∧ cause ≤ 3) &&
      (match trip.other with | some (c, _) => decide (cause ≤ 2) && decide (c = 1 ∨ c = 2) | none => true)
  | .frcMonitorTrip => true
  | .xtalARevert => true
  | .compensationUpdate => true
  | .esmcTimeout => true
  | .synceRequalify => true
  | .ptpSyncExchange port _ _ _ _ _ => decide (port < 8)
  | .ptpMasterChange m => m.port.all fun n => decide (n < 8)
  | .ppsInEdge => true
  | .ppsEdgeTimeout => true
  | .holdoverTimeout => true
  | .ppsOut => true
  | .modeEntered => true
  | .quiesceTimeout domain => decide (domain < 20)
  | .pgGood k => decide (k < 8)
  | .pgTimeout k => decide (k < 8)
  | .pgLoss k => decide (k < 8)
  | .wakeSenseTrip w => decide (w.comparator < 4)
  | .rxEnergyWake path _ => decide (path < 64)
  | .wakeTimer => true
  | .pcieWake => true
  | .wakeRetry => true
  | .domainReady domain => decide (domain < 20)
  | .wakeStallTimeout domain req => decide (domain < 20) && decide (1 ≤ req.requester ∧ req.requester ≤ 4)
  | .domainIdleOff domain => decide (domain < 20)
  | .thermalScheduledDemand => true
  | .thermalResult sensor _ => decide (sensor < 32)
  | .leaseExpiry entry => decide (entry < 24)
  | .leaseRelease entry => decide (entry < 24)
  | .watchdogExpiry => true
  | .scrub hits => hits.all fun x => decide (x.memory ≤ 8)
  | .powerOnReset _ => true
  | .resetN => true
  | .pg0Retry => true
  | .bootRom _ _ => true
  | .powerCycle => true
  | .advance block => decide (block.bytes.length = 224)
  | .provision block => decide (block.bytes.length = 224)
  | .deploy block => decide (block.bytes.length = 224)
  | .return_ block => decide (block.bytes.length = 224)
  | .scrap block => decide (block.bytes.length = 224)
  | .debugOff block => decide (block.bytes.length = 224)
  | .paClearNRelease => true
  | .wakeSenseRearm w => decide (w.comparator < 4)
  | .pllQualified pll => decide (pll < 5)
  | .pllQualifyTimeout pll => decide (pll < 5)
  | .synceMonitorTrip _ => true
  | .monitorWindowEnd monitor _ => decide (monitor < 3)
  | .resetNRelease _ => true
  | .vddAoDip => true

end Sys2Proof
end

