-- ==== Sys2Proof/Tests/Slice0.lean ====
section
/-! SUPPORT. Tests: for every obligation with hypotheses a witness that its hypotheses can be met (`wit_<obligation>`), the worked
values of the spec (`test_…`), and an ill-formed command for each check of `Instr.wf` (`smoke_…`). Witnesses of a signed body
(RETURN, a committed or loaded image, a patch) are built on the verdict of `Config.signatureOk`, which is left open. -/

open Sys2Proof Sys2Proof.Machine
namespace Sys2Proof.Tests
set_option Elab.async false

/-- Bytes of a host message with opcode and flags, sequence number 0 and epoch 0. -/
def hostMsg (op fl : Nat) (p : List Byte) : List Byte := mkMsg op fl 0 0 0 0 p

/-- The header of that message. -/
def hostHdr (op fl : Nat) (p : List Byte) : Hdr := parseHdr (hostMsg op fl p)

/-- `s` with the Bureau ready and that message alone posted to pigeonhole 1, whose slots are in host memory. -/
def hostOn (s : State) (p : List Byte) : State :=
  { s with sys := { s.sys with ready := true, halted := false }
           pwr := { s.pwr with ready := s.pwr.ready ||| 2 }
           ph := { s.ph with ring := tset {} [] 1 { loc := false, tail := slotCount (32 + p.length) }, turn := 1, pcieUp := true } }

theorem leNat_leBytes (n v : Nat) : leNat (leBytes n v) = v % 256 ^ n := by
  induction n generalizing v with
  | zero => simp [leBytes, leNat, Nat.mod_one]
  | succ n ih =>
    have h := Nat.mod_mul (x := v) (a := 256) (b := 256 ^ n)
    rw [Nat.pow_succ, Nat.mul_comm (256 ^ n) 256, h, leBytes, leNat, ih, BitVec.toNat_ofNat]

theorem length_leBytes (n v : Nat) : (leBytes n v).length = n := by
  induction n generalizing v with
  | zero => rfl
  | succ n ih => simp [leBytes, ih]

theorem crcBit_lt (c : Nat) (h : c < 2 ^ 32) : crcBit c < 2 ^ 32 := by
  unfold crcBit
  split
  · exact Nat.xor_lt_two_pow (by omega) (by decide)
  · omega

theorem crcByte_lt (c : Nat) (b : Byte) (h : c < 2 ^ 32) : crcByte c b < 2 ^ 32 := by
  have hb := b.isLt
  exact crcBit_lt _ (crcBit_lt _ (crcBit_lt _ (crcBit_lt _ (crcBit_lt _ (crcBit_lt _ (crcBit_lt _ (crcBit_lt _
    (Nat.xor_lt_two_pow h (by omega)))))))))

theorem crc32c_lt (p : List Byte) : crc32c p < 2 ^ 32 := by
  unfold crc32c
  refine Nat.xor_lt_two_pow ?_ (by decide)
  unfold crcRun
  have : ∀ (l : List Byte) (c : Nat), c < 2 ^ 32 → l.foldl crcByte c < 2 ^ 32 := by
    intro l
    induction l with
    | nil => exact fun c h => h
    | cons b l ih => exact fun c h => ih _ (crcByte_lt c b h)
  exact this p _ (by decide)

theorem slotCount_le {n : Nat} (h : n ≤ 16352) : slotCount (32 + n) ≤ 32 := by
  unfold slotCount; omega

section
variable (op fl : Nat) (p : List Byte)

theorem u_leBytes (a b : List Byte) (n v o : Nat) (h : a.length = o) : u (a ++ (leBytes n v ++ b)) o n = v % 256 ^ n := by
  rw [u, slice, List.drop_left' h, List.take_left' (length_leBytes n v), leNat_leBytes]

theorem hostMsg_eq : ∃ hd : List Byte, hd.length = 28 ∧ hostMsg op fl p = hd ++ (leBytes 4 (crc32c (hd ++ p)) ++ p) ∧
    hd = leBytes 2 op ++ (leBytes 2 fl ++ (leBytes 4 0 ++ (leBytes 4 p.length ++ (leBytes 4 0 ++ (leBytes 8 0 ++ leBytes 4 0))))) :=
  ⟨_, by simp [length_leBytes], by simp only [hostMsg, mkMsg, List.append_assoc], rfl⟩

theorem hostHdr_eq (ho : op < 65536) (hf : fl < 65536) (hp : p.length < 2 ^ 32) (hd : List Byte) (q : List Byte)
    (h : hd = leBytes 2 op ++ (leBytes 2 fl ++ (leBytes 4 0 ++ (leBytes 4 p.length ++ (leBytes 4 0 ++ (leBytes 8 0 ++ leBytes 4 0)))))) :
    parseHdr (hd ++ (leBytes 4 (crc32c (hd ++ p)) ++ q)) =
      { opcode := op, flags := fl, length := p.length, crc := crc32c (hd ++ p) } := by
  have hc := crc32c_lt (hd ++ p)
  generalize crc32c (hd ++ p) = c at *
  unfold parseHdr
  have h0 := u_leBytes [] (leBytes 2 fl ++ (leBytes 4 0 ++ (leBytes 4 p.length ++ (leBytes 4 0 ++ (leBytes 8 0 ++ (leBytes 4 0 ++ (leBytes 4 c ++ q))))))) 2 op 0 rfl
  have h1 := u_leBytes (leBytes 2 op) (leBytes 4 0 ++ (leBytes 4 p.length ++ (leBytes 4 0 ++ (leBytes 8 0 ++ (leBytes 4 0 ++ (leBytes 4 c ++ q)))))) 2 fl 2 (by simp [length_leBytes])
  have h2 := u_leBytes (leBytes 2 op ++ leBytes 2 fl) (leBytes 4 p.length ++ (leBytes 4 0 ++ (leBytes 8 0 ++ (leBytes 4 0 ++ (leBytes 4 c ++ q))))) 4 0 4 (by simp [length_leBytes])
  have h3 := u_leBytes (leBytes 2 op ++ (leBytes 2 fl ++ leBytes 4 0)) (leBytes 4 0 ++ (leBytes 8 0 ++ (leBytes 4 0 ++ (leBytes 4 c ++ q)))) 4 p.length 8 (by simp [length_leBytes])
  have h4 := u_leBytes (leBytes 2 op ++ (leBytes 2 fl ++ (leBytes 4 0 ++ leBytes 4 p.length))) (leBytes 8 0 ++ (leBytes 4 0 ++ (leBytes 4 c ++ q))) 4 0 12 (by simp [length_leBytes])
  have h5 := u_leBytes (leBytes 2 op ++ (leBytes 2 fl ++ (leBytes 4 0 ++ (leBytes 4 p.length ++ leBytes 4 0)))) (leBytes 4 0 ++ (leBytes 4 c ++ q)) 8 0 16 (by simp [length_leBytes])
  have h6 := u_leBytes (leBytes 2 op ++ (leBytes 2 fl ++ (leBytes 4 0 ++ (leBytes 4 p.length ++ (leBytes 4 0 ++ leBytes 8 0))))) (leBytes 4 c ++ q) 4 0 24 (by simp [length_leBytes])
  have h7 := u_leBytes (leBytes 2 op ++ (leBytes 2 fl ++ (leBytes 4 0 ++ (leBytes 4 p.length ++ (leBytes 4 0 ++ (leBytes 8 0 ++ leBytes 4 0)))))) q 4 c 28 (by simp [length_leBytes])
  rw [Nat.mod_eq_of_lt (by omega)] at h0 h1 h3 h7
  subst h
  simp only [List.append_assoc, List.nil_append] at *
  rw [h0, h1, h2, h3, h4, h5, h6, h7]
  rfl

theorem fitBytes_exact (n : Nat) (a : List Byte) (h : n ≤ a.length) : fitBytes n a = a.take n := by
  unfold fitBytes; exact List.take_append_of_le_length h

theorem hostOn_front (s : State) (ho : op < 65536) (hf : fl < 65536) (hp : p.length ≤ 16352) :
    frontOf 1 (hostMsg op fl p) (hostOn s p) = .msg (hostHdr op fl p) p ∧ (hostHdr op fl p).opcode = op ∧
      (hostHdr op fl p).flags = fl ∧ (hostHdr op fl p).status = 0 ∧ (hostHdr op fl p).epoch = 0 ∧ (hostHdr op fl p).seq = 0 := by
  obtain ⟨hd, hl, hm, he⟩ := hostMsg_eq op fl p
  have hh : hostHdr op fl p = { opcode := op, flags := fl, length := p.length, crc := crc32c (hd ++ p) } := by
    rw [hostHdr, hm]; exact hostHdr_eq op fl p ho hf (by omega) hd p he
  have hlen : (hostMsg op fl p).length = 32 + p.length := by rw [hm]; simp [hl, length_leBytes]; omega
  have hmb : ∀ n, n ≤ 32 + p.length → msgBytes 1 (hostMsg op fl p) n (hostOn s p) = (hostMsg op fl p).take n := by
    intro n hn
    rw [msgBytes]
    exact fitBytes_exact _ _ (by omega)
  refine ⟨?_, by rw [hh], by rw [hh], by rw [hh], by rw [hh], by rw [hh]⟩
  have h32 : (hostMsg op fl p).take 32 = hd ++ (leBytes 4 (crc32c (hd ++ p)) ++ []) := by
    rw [hm, List.append_nil, ← List.append_assoc, List.take_left' (by simp [hl, length_leBytes])]
  have hpar : parseHdr ((hostMsg op fl p).take 32) = hostHdr op fl p := by
    rw [h32, hh]; exact hostHdr_eq op fl p ho hf (by omega) hd [] he
  have hu : ringUsed (ringOf (hostOn s p) 1) = slotCount (32 + p.length) := by
    have := slotCount_le hp
    show (slotCount (32 + p.length) + 2 ^ 32 - 0) % 2 ^ 32 = _
    omega
  rw [frontOf, hmb 32 (by omega), hpar]
  have hlh : (hostHdr op fl p).length = p.length := by rw [hh]
  have hch : (hostHdr op fl p).crc = crc32c (hd ++ p) := by rw [hh]
  simp only [hlh, hu, hch]
  have hall : (hostMsg op fl p).take (32 + p.length) = hostMsg op fl p := List.take_of_length_le (by omega)
  rw [if_neg (by omega), hmb _ (by omega), hall]
  have h28 : (hostMsg op fl p).take 28 = hd := by rw [hm, List.take_left' hl]
  have hdr : (hostMsg op fl p).drop 32 = p := by
    rw [hm, ← List.append_assoc, List.drop_left' (by simp [hl, length_leBytes])]
  have hw : frontWords 1 (32 + p.length) (hostOn s p) = [] := rfl
  rw [h28, hdr, hw, if_neg (by simp), if_neg (by simp)]

theorem hostOn_words (s : State) (n : Nat) : frontWords 1 n (hostOn s p) = [] := rfl

theorem delivers (s : State) (ho : op ∈ hostOpcodes) (hf : fl < 4) (hp : p.length ≤ 16352)
    (hl : op ∈ longOpcodes → fl.testBit 1 = true ∧ s.ph.long.length < 8) :
    Delivered op 1 (hostMsg op fl p) (hostOn s p) (hostHdr op fl p) p := by
  have h16 : op < 65536 := (by decide : ∀ o ∈ hostOpcodes, o < 65536) op ho
  obtain ⟨h1, h2, h3, h4, h5, h6⟩ := hostOn_front op fl p s h16 (by omega) hp
  have hs : slotCount (32 + p.length) ≤ 32 := slotCount_le hp
  have hs0 : 0 < slotCount (32 + p.length) := by unfold slotCount; omega
  refine ⟨?_, h1, h2, ?_, rfl, Or.inl rfl, by omega, h4, Or.inl h5, ?_, rfl⟩
  · have hc : canTake (hostOn s p) 1 = true := by
      have : ringUsed (ringOf (hostOn s p) 1) = slotCount (32 + p.length) := by
        show (slotCount (32 + p.length) + 2 ^ 32 - 0) % 2 ^ 32 = _
        omega
      rw [canTake, this, decide_eq_true hs0]
      rfl
    have hb : bureauRuns (hostOn s p) = true := by
      show (true && !false && (s.pwr.ready ||| 2).getLsbD 1) = true
      rw [BitVec.getLsbD_or, (by decide : (2 : BitVec 20).getLsbD 1 = true), Bool.or_true]
      rfl
    have h0 : canTake (hostOn s p) 0 = false := by
      have : ringUsed (ringOf (hostOn s p) 0) = 0 := by
        show (0 + 2 ^ 32 - 0) % 2 ^ 32 = 0
        norm_num
      rw [canTake, this]
      rfl
    rw [pickRing, hb, h0]
    rw [if_neg (by decide), if_neg (by decide)]
    have hr : (List.range 7).map (fun j => ((hostOn s p).ph.turn + 6 + j) % 7 + 1) = [1, 2, 3, 4, 5, 6, 7] := by
      have : (hostOn s p).ph.turn = 1 := rfl
      simp only [this]
      decide
    rw [hr]
    exact List.find?_cons_of_pos hc
  · rw [badOpcode, if_neg (not_not.mpr ho), if_neg (fun h => absurd h.1 (by decide))]
  · rw [h3]; exact hl
end

/-- A small state in a mode, in stage FIELD, every domain powered and ready, every regulator good. -/
def at_ (m : Mode) : State :=
  { State.reset with pwr := { mode := m, on := 0xFFFFF, ready := 0xFFFFF, en := 0xFF, pg := 0xFF }, life := { cells := 63 } }

/-- `delivers` with its conditions as one decidable fact. -/
theorem dlv (op fl : Nat) (p : List Byte) (s : State)
    (h : op ∈ hostOpcodes ∧ fl < 4 ∧ p.length ≤ 16352 ∧ (op ∈ longOpcodes → fl.testBit 1 = true ∧ s.ph.long.length < 8)) :
    Delivered op 1 (hostMsg op fl p) (hostOn s p) (hostHdr op fl p) p := delivers op fl p s h.1 h.2.1 h.2.2.1 h.2.2.2

theorem wit_StepRunsFrontCommand : (∃ (c : Instr) (cs : List Instr) (s : State), s.pending = c :: cs) ∧ ∃ s : State, s.pending = [] :=
  ⟨⟨.pcieLinkDown, [], { State.reset with pending := [.pcieLinkDown] }, rfl⟩, State.reset, rfl⟩

theorem wit_StageNeverGoesBack : ∃ s t : State, Steps s t := ⟨State.reset, _, rfl⟩

theorem wit_LiveEpochStaysLegal :
    (∃ (s : State) (im : Image) (b : Boundary), s.cfg.armed = some (im, b) ∧ s.cfg.epoch = 0xFFFFFFFF) ∧
    ∃ s t : State, 1 ≤ s.cfg.epoch ∧ s.cfg.epoch ≤ 0xFFFFFFFF ∧ Steps s t :=
  ⟨⟨{ State.reset with cfg := { epoch := 0xFFFFFFFF, armed := some ([], ⟨1, 39⟩) } }, [], ⟨1, 39⟩, rfl, rfl⟩,
   { State.reset with cfg := { epoch := 0xFFFFFFFF }, pending := [.pcieLinkUp] }, _, by decide, by decide, rfl⟩

theorem wit_SystemMessagesAnswer :
    (∃ ring dma s h p, Delivered 0x0101 ring dma s h p ∧ p.length = 4 ∧ u p 0 4 = 1) ∧
    (∃ ring dma s h p, Delivered 0x0102 ring dma s h p ∧ p = []) ∧
    (∃ ring dma s h p, Delivered 0x0103 ring dma s h p ∧ p = [1, 0, 0, 0]) ∧
    (∃ ring dma s h p, Delivered 0x0103 ring dma s h p ∧ p = [0, 0, 0, 0]) ∧
    (∃ ring dma s h p, Delivered 0x0D01 ring dma s h p ∧ p = []) ∧
    (∃ ring dma s h p, Delivered 0x0D01 ring dma s h p ∧ p.length = 96 ∧
      (∀ b < 16, u p (32 + 4 * b) 4 &&& routeMask = u p (32 + 4 * b) 4)) ∧
    (∃ ring dma s h p, Delivered 0x0D02 ring dma s h p ∧ p.length = 8 ∧ u p 0 2 ≤ 255 ∧ u p 0 2 + u p 2 2 ≤ 256 ∧ u p 4 1 ≤ 1 ∧
      slice p 5 3 = zeros 3) ∧
    ∃ a : Asker, a.ring < 8 :=
  ⟨⟨1, _, _, _, [1, 0, 0, 0], dlv 0x0101 1 _ State.reset (by decide), by decide⟩,
   ⟨1, _, _, _, [], dlv 0x0102 1 _ State.reset (by decide), rfl⟩,
   ⟨1, _, _, _, [1, 0, 0, 0], dlv 0x0103 1 _ State.reset (by decide), rfl⟩,
   ⟨1, _, _, _, [0, 0, 0, 0], dlv 0x0103 1 _ State.reset (by decide), rfl⟩,
   ⟨1, _, _, _, [], dlv 0x0D01 1 _ State.reset (by decide), rfl⟩,
   ⟨1, _, _, _, zeros 96, dlv 0x0D01 1 _ State.reset (by decide +kernel), by decide +kernel⟩,
   ⟨1, _, _, _, [255, 0, 1, 0, 1, 0, 0, 0], dlv 0x0D02 1 _ State.reset (by decide), by decide⟩,
   { ring := 7 }, by decide⟩

theorem wit_MessagesNotExecuted :
    (∃ (op ring : Nat) (dma : List Byte) (s : State) (h : Hdr) (p : List Byte) (r : Replay),
      pickRing s = some ring ∧ frontOf ring dma s = .msg h p ∧ h.opcode = op ∧ badOpcode ring op = none ∧
      (ringOf s ring).window.find? (fun e => decide (e.seq = h.seq)) = some r) ∧
    (∃ (op ring : Nat) (dma : List Byte) (s : State) (h : Hdr) (p : List Byte) (e : Nat), pickRing s = some ring ∧
      frontOf ring dma s = .msg h p ∧ h.opcode = op ∧ op ≠ 0x0101 ∧ (ringOf s ring).window.find? (fun e => decide (e.seq = h.seq)) = none ∧
      (ringOf s ring).expect = some e ∧ e ≠ h.seq) ∧
    (∃ (ring : Nat) (dma : List Byte) (s : State) (h : Hdr) (p : List Byte) (d : Nat), pickRing s = some ring ∧
      frontOf ring dma s = .msg h p ∧ badOpcode ring h.opcode = some d ∧ h.flags < 4 ∧ h.status = 0 ∧
      (ringOf s ring).window.find? (fun r => decide (r.seq = h.seq)) = none ∧
      ((ringOf s ring).expect = none ∨ (ringOf s ring).expect = some h.seq)) ∧
    (∃ (ring : Nat) (dma : List Byte) (s : State) (h : Hdr), pickRing s = some ring ∧ frontOf ring dma s = .badLength h) ∧
    (∃ (ring : Nat) (dma : List Byte) (s : State) (h : Hdr), pickRing s = some ring ∧ frontOf ring dma s = .badCrc h) ∧
    ∃ (ring : Nat) (dma : List Byte) (s : State) (h : Hdr), pickRing s = some ring ∧ h = parseHdr (msgBytes ring dma 32 s) ∧
      h.length ≤ 16352 ∧ slotCount (32 + h.length) ≤ ringUsed (ringOf s ring) ∧ ∃ x ∈ frontWords ring (32 + h.length) s, x.double = true := by
  refine ⟨⟨0x0102, 1, hostMsg 0x0102 1 [], { State.reset with
      sys := { ready := true }, ph := { ring := tset {} [] 1 { loc := false, tail := 1, window := [⟨0, [], false⟩] } } },
      hostHdr 0x0102 1 [], [], ⟨0, [], false⟩, ?_⟩,
    ⟨0x0102, 1, hostMsg 0x0102 1 [], { State.reset with
      sys := { ready := true }, ph := { ring := tset {} [] 1 { loc := false, tail := 1, expect := some 1 } } },
      hostHdr 0x0102 1 [], [], 1, ?_⟩,
    ⟨1, hostMsg 0x0F01 1 [], hostOn State.reset [], hostHdr 0x0F01 1 [], [], 0, ?_⟩,
    ⟨1, leBytes 8 0x0101 ++ leBytes 4 16353, hostOn State.reset [], parseHdr (fitBytes 32 (leBytes 8 0x0101 ++ leBytes 4 16353)), ?_⟩,
    ⟨1, zeros 32, hostOn State.reset [], parseHdr (zeros 32), ?_⟩,
    ⟨1, [], { State.reset with sys := { ready := true }, ph := { ring := tset {} [] 1 { tail := 1 } }, ls := { bad := [⟨7, 4096, true, false⟩] } },
      {}, ?_⟩⟩
  all_goals decide +kernel

/-- A domain that answers an access leaves the state that `get` names. -/
theorem reaches {d : Nat} {s : State} (h : (accessDomain d s).isSome = true) :
    accessDomain d s = some ((accessDomain d s).get h) := by simp

/-- A firmware header that passes or fails every check of R408. -/
def fwHdr (good : Bool) : FwHeader := ⟨good, 0, false, 0, 1, good, good⟩

theorem wit_ResetsEnterAndLeaveReset :
    (∃ s : State, s.boot.supplyBad = false) ∧ (∃ s : State, s.boot.inReset = true ∧ s.boot.supplyBad = false ∧ s.th.latch = false) ∧
    (∃ s : State, s.boot.inReset = true ∧ s.boot.supplyBad = false ∧ s.th.latch = true) ∧
    (∃ s : State, s.boot.supplyBad = true ∧ s.boot.resetLow = true) ∧
    (∃ s : State, s.boot.supplyBad = true ∧ s.boot.resetLow = false ∧ s.th.latch = false) ∧
    (∃ s : State, s.boot.inReset = false ∧ s.pwr.mode ≠ .reset ∧ s.th.latch = false) ∧
    ∃ s : State, s.pwr.mode = .reset ∧ s.boot.inReset = false ∧ s.pwr.en = 0 :=
  ⟨⟨State.reset, rfl⟩, ⟨{ State.reset with boot := { inReset := true } }, rfl, rfl, rfl⟩,
   ⟨{ State.reset with boot := { inReset := true }, th := { latch := true } }, rfl, rfl, rfl⟩,
   ⟨{ State.reset with boot := { supplyBad := true, resetLow := true } }, rfl, rfl⟩,
   ⟨{ State.reset with boot := { supplyBad := true, resetLow := false } }, rfl, rfl, rfl⟩, ⟨State.reset, by decide⟩,
   { State.reset with pwr := { mode := .reset, en := 0 } }, rfl, rfl, rfl⟩

theorem wit_BootReadyAndWatchdog :
    (∃ (s : State) (a : BootFlash), s.pwr.mode = .boot ∧ s.boot.romDone = false ∧ s.life.zero = false ∧ stageNow s ≠ .scrapped ∧
      imageOk a.slot0 (openFlash a.octal (bootDomains s)) = true) ∧
    (∃ (s : State) (a : BootFlash) (b : FwHeader), s.pwr.mode = .boot ∧ s.boot.romDone = false ∧ s.life.zero = false ∧
      stageNow s ≠ .scrapped ∧ imageOk a.slot0 (openFlash a.octal (bootDomains s)) = false ∧
      imageOk b (openFlash a.octal (bootDomains s)) = true) ∧
    (∃ (s : State) (a : BootFlash) (b : FwHeader), s.pwr.mode = .boot ∧ s.boot.romDone = false ∧ s.life.zero = false ∧
      stageNow s ≠ .scrapped ∧ imageOk a.slot0 (openFlash a.octal (bootDomains s)) = false ∧
      imageOk b (openFlash a.octal (bootDomains s)) = false) ∧
    (∃ s : State, s.boot.started = true ∧ s.sys.ready = false ∧ s.pwr.ready.getLsbD 1 = true ∧ s.pwr.mode ≠ .boot ∧
      s.boot.booted = true) ∧
    (∃ (s : State) (m : Mode), s.boot.started = true ∧ s.sys.ready = false ∧ s.pwr.ready.getLsbD 1 = true ∧ s.pwr.mode = .boot ∧
      s.pwr.trans = none ∧ settledMode s = some m ∧ modeDomains s m &&& ~~~(s.pwr.on ||| s.pwr.heldOff) ≠ 0) ∧
    (∃ (s : State) (m : Mode), s.boot.started = true ∧ s.sys.ready = false ∧ s.pwr.ready.getLsbD 1 = true ∧ s.pwr.mode = .boot ∧
      s.pwr.trans = none ∧ settledMode s = some m ∧ modeDomains s m &&& ~~~(s.pwr.on ||| s.pwr.heldOff) = 0) ∧
    ∃ s : State, s.boot.started = true ∧ s.pwr.ready.getLsbD 1 = true ∧ s.pwr.mode ≠ .reset ∧ s.sys.halted = false :=
  ⟨⟨State.reset, ⟨true, fwHdr true⟩, by decide +kernel⟩, ⟨State.reset, ⟨false, fwHdr false⟩, fwHdr true, by decide +kernel⟩,
   ⟨State.reset, ⟨true, fwHdr false⟩, fwHdr false, by decide +kernel⟩,
   ⟨{ at_ .standby with boot := { started := true, booted := true } }, by decide +kernel⟩,
   ⟨{ State.reset with pwr := { State.reset.pwr with ready := 2, on := 3 }, boot := { started := true } }, .bringUp, by decide +kernel⟩,
   ⟨{ at_ .boot with boot := { started := true } }, .bringUp, by decide +kernel⟩,
   { State.reset with boot := { started := true } }, by decide +kernel⟩

/-- A state whose running `sys.fw_image` is of operation `op`. -/
def fwState (op : Nat) : State := { State.reset with nvm := { fwOp := some (op, 0, [1, 2, 3, 4]) } }

theorem wit_FirmwareImageOperations :
    (∃ ring dma s h p w, Delivered 0x0104 ring dma s h p ∧ p.length = 16 + u p 8 4 ∧ firstBad (fwChecks p) = none ∧
      longRunning .fwImage s = false ∧ accessDomain 2 (consumed ring h s) = some w ∧ w.ph.long = s.ph.long) ∧
    (∀ op, ∃ (s : State) (off : Nat) (data : List Byte), s.nvm.fwOp = some (op, off, data)) ∧
    (∀ h base, goodPatch { State.reset with nvm := { fwOp := none } } = some (h, base) → ∃ (s : State) (off : Nat) (data : List Byte),
      s.nvm.fwOp = some (2, off, data) ∧ goodPatch { s with nvm := { s.nvm with fwOp := none } } = some (h, base)) ∧
    (∃ (s : State) (off : Nat) (data : List Byte), s.nvm.fwOp = some (2, off, data) ∧
      goodPatch { s with nvm := { s.nvm with fwOp := none } } = none) ∧
    ∃ (s : State) (op off : Nat) (data : List Byte), s.nvm.fwOp = some (op, off, data) ∧ s.nvm.jobs = [] ∧ (leaseOf s 0).free = none :=
  ⟨⟨1, _, hostOn (at_ .standby) ([1, 0, 0, 0, 252, 255, 15, 0, 4, 0, 0, 0] ++ zeros 8), _, _,
     (accessDomain 2 (consumed 1 _ (hostOn (at_ .standby) _))).get (by decide +kernel),
     dlv 0x0104 3 _ (at_ .standby) (by decide +kernel), by decide +kernel, by decide +kernel, by decide +kernel,
     reaches _, by decide +kernel⟩,
   fun op => ⟨fwState op, 0, [1, 2, 3, 4], rfl⟩,
   fun h base hg => ⟨fwState 2, 0, [1, 2, 3, 4], rfl, hg⟩, ⟨fwState 2, 0, [1, 2, 3, 4], rfl, by decide +kernel⟩,
   fwState 1, 1, 0, [1, 2, 3, 4], rfl, rfl, rfl⟩

/-- A state in which lease `e` is held, with a waiting list. -/
def leased (e : Nat) (wait : List Nat) : State := { at_ .standby with ls := { entry := tset {} [] e { holder := 1, wait := wait } } }

theorem wit_LeasesAndScrub :
    (∃ ring dma s h p, Delivered 0x0D04 ring dma s h p ∧ p.length = 4 ∧ slice p 1 3 = zeros 3 ∧ u p 0 1 ≤ 23) ∧
    (∃ ring dma s h p, Delivered 0x0D04 ring dma s h p ∧ p.length = 4 ∧ slice p 1 3 = zeros 3 ∧ u p 0 1 = 255) ∧
    (∃ e s, e < 24 ∧ (leaseNow s e).holder ≠ 0 ∧ (leaseNow s e).free = none ∧ (stretched e s).1 = none ∧ (leaseNow s e).wait = []) ∧
    (∃ e s x xs, e < 24 ∧ (leaseNow s e).holder ≠ 0 ∧ (leaseNow s e).free = none ∧ (stretched e s).1 = none ∧
      (leaseNow s e).wait = x :: xs) ∧
    (∃ e s r, e < 24 ∧ (leaseNow s e).holder ≠ 0 ∧ (leaseNow s e).free = none ∧ (stretched e s).1 = some r) ∧
    (∃ e s, e < 24 ∧ (leaseNow s e).holder ≠ 0 ∧ (leaseOf s e).free = none ∧ e = 0 ∧ s.nvm.jobs = [] ∧ s.nvm.fwOp = none ∧ s.ph.long = []) ∧
    (∃ e s, e < 24 ∧ (leaseNow s e).holder ≠ 0 ∧ (leaseOf s e).free = none ∧ e ≠ 0) ∧
    (∃ (s : State) (m : Nat), s.pwr.mode ≠ .reset ∧ m = 7 ∧ s.ls.bad ≠ [] ∧ ∀ h ∈ s.ls.bad, scrubbed h = true → h.met = false) ∧
    (∃ (s : State) (m : Nat), s.pwr.mode ≠ .reset ∧ m = 4 ∧ ∀ h ∈ s.ls.bad, scrubbed h = true → h.met = false) ∧
    ∃ (s : State) (m : Nat), s.pwr.mode ≠ .reset ∧ m ∈ [3, 5, 6] ∧ ∀ h ∈ s.ls.bad, scrubbed h = true → h.met = false :=
  ⟨⟨1, _, _, _, [23, 0, 0, 0], dlv 0x0D04 1 _ State.reset (by decide), by decide⟩,
   ⟨1, _, _, _, [255, 0, 0, 0], dlv 0x0D04 1 _ State.reset (by decide), by decide⟩,
   ⟨23, leased 23 [], by decide +kernel⟩, ⟨0, leased 0 [2, 3], 2, [3], by decide +kernel⟩,
   ⟨1, { leased 1 [] with rk := { reg := [(0, 1), (5, 100)] } }, usTicks 19999, by decide +kernel⟩,
   ⟨0, leased 0 [], by decide +kernel⟩, ⟨15, leased 15 [], by decide +kernel⟩,
   ⟨{ State.reset with ls := { bad := [⟨7, 1, false, false⟩, ⟨6, 1, true, true⟩] } }, 7, by decide⟩, ⟨State.reset, 4, by decide⟩,
   State.reset, 6, by decide⟩

theorem wit_RockerAndDigest :
    (∃ ring dma s h p, Delivered 0x0903 ring dma s h p ∧ p = []) ∧
    (∃ ring dma s h p, Delivered 0x0903 ring dma s h p ∧ p.length = 64 ∧ firstBad (rockerChecks p) = none ∧ u p 28 1 = 0 ∧
      rockerOpen (consumed ring h s) = true) ∧
    (∃ (s : State) (k v : Nat), rockerOpen s = true ∧ k < 7 ∧ k = 0 ∧ tget 0 s.rk.reg 0 = 0 ∧ v % 2 = 1) ∧
    (∃ s : State, rockerOpen s = false) ∧
    (∃ (s w : State) (k : Nat), k < 7 ∧ HostReaches (0x7000 + 4 * k) s w) ∧
    (∃ s : State, s.rk.digest = 1) ∧ ∃ (s : State) (n : Nat), s.rk.digest = 2 ∧ n < 64 ∧ tget none s.dl.playing n = none :=
  ⟨⟨1, _, _, _, [], dlv 0x0903 1 _ State.reset (by decide), rfl⟩,
   ⟨1, _, _, _, zeros 64, dlv 0x0903 1 _ State.reset (by decide +kernel), by decide +kernel⟩,
   ⟨State.reset, 0, 1, by decide⟩, ⟨at_ .standby, by decide⟩,
   ⟨at_ .standby, (accessDomain (w0Domain 0x7018) (at_ .standby)).get (by decide +kernel), 6, by decide,
     by decide, rfl, reaches _, by decide +kernel⟩,
   ⟨{ State.reset with rk := { digest := 1 } }, rfl⟩, { State.reset with rk := { digest := 2 } }, 63, rfl, by decide, rfl⟩

theorem wit_SelfTestRuns :
    (∃ ring dma s h p, Delivered 0x0901 ring dma s h p ∧ 40 ≤ p.length ∧ p.length = 40 + 4 * u p 6 2 ∧ firstBad (testChecks p) = none ∧
      u p 0 1 = 1 ∧ u p 1 1 = 0 ∧ s.test.run = none ∧ s.cal.run = none ∧ testReachable p s = true) ∧
    (∃ ring dma s h, Delivered 0x0902 ring dma s h []) ∧
    (∃ (s : State) (req : List Byte), s.test.run = some req ∧ u req 1 1 = 0) ∧
    ∃ (s : State) (req : List Byte), s.test.run = some req ∧ u req 1 1 ≠ 0 ∧ s.pwr.mode = .selfTest ∧ s.pwr.trans = none ∧
      s.pwr.from_ = .standby :=
  ⟨⟨1, _, hostOn (at_ .standby) _, _, [1, 0, 32, 0, 255, 255, 0, 0] ++ zeros 32, dlv 0x0901 3 _ (at_ .standby) (by decide +kernel),
     by decide +kernel⟩,
   ⟨1, _, _, _, dlv 0x0902 1 [] State.reset (by decide)⟩, ⟨{ State.reset with test := { run := some (zeros 40) } }, zeros 40, rfl, by decide⟩,
   { at_ .selfTest with test := { run := some [1, 1] } }, [1, 1], rfl, by decide +kernel⟩

/-- A lifecycle block of a command with a field value at bytes 1, 12 and 28, its UID the device's and its CRC holding. -/
def lcHead (cmd : Nat) (key : List Byte) : List Byte :=
  leBytes 4 cmd ++ (leBytes 8 Config.uid.toNat ++ (fitBytes 16 (if cmd = 4 then fitBytes 16 (Config.nonce 0) else []) ++
    (fitBytes 96 key ++ zeros 96)))
def lcBlock (cmd : Nat) (key : List Byte) : List Byte := lcHead cmd key ++ (leBytes 4 (crc32c (lcHead cmd key)) ++ [])

theorem lcHead_length (cmd : Nat) (key : List Byte) : (lcHead cmd key).length = 220 := by
  simp [lcHead, length_leBytes, fitBytes, zeros]

theorem lcBlock_crc (cmd : Nat) (key : List Byte) :
    crc32c ((lcBlock cmd key).take 220) = leNat (slice (lcBlock cmd key) 220 4) := by
  have h := u_leBytes (lcHead cmd key) [] 4 (crc32c (lcHead cmd key)) 220 (lcHead_length cmd key)
  have hlt := crc32c_lt (lcHead cmd key)
  rw [Nat.mod_eq_of_lt (by omega)] at h
  rw [lcBlock, List.take_left' (lcHead_length cmd key)]
  exact h.symm

theorem lcBlock_uid (cmd : Nat) (key : List Byte) : u (lcBlock cmd key) 4 8 = Config.uid.toNat := by
  have h := u_leBytes (leBytes 4 cmd) ((fitBytes 16 (if cmd = 4 then fitBytes 16 (Config.nonce 0) else []) ++
    (fitBytes 96 key ++ zeros 96)) ++ (leBytes 4 (crc32c (lcHead cmd key)) ++ [])) 8 Config.uid.toNat 4 (length_leBytes ..)
  rw [Nat.mod_eq_of_lt (by have := Config.uid.isLt; omega)] at h
  rw [← h, lcBlock, lcHead]
  simp only [List.append_assoc]

theorem lcBlock_result (cmd : Nat) (key : List Byte) (s : State) (hc : blockClean cmd (lcBlock cmd key) = true)
    (hs : (stageChange cmd s).isNone = false) (h4 : cmd ≠ 4) (hm : s.pwr.mode ≠ .thermalLatch)
    (h2 : cmd = 2 → onCurve (slice (lcBlock cmd key) 28 96) = true ∧ (keyInForce s).isSome = false ∧ slotState s.life.key0 = 0)
    (h6 : cmd ≠ 0 ∧ cmd ≤ 6) :
    blockResult cmd 0 (lcBlock cmd key) s = 0 := by
  have h2' : cmd = 2 → keyInForce s = none := fun h => by simpa using (h2 h).2.1
  unfold blockResult
  rw [if_neg (not_not.mpr (lcBlock_crc cmd key)), if_neg (by omega), if_neg (by simp [hc]), if_neg (by simp [hs]), if_neg (not_not.mpr (lcBlock_uid cmd key)),
    if_neg (by tauto), if_neg (by intro h; simp [(h2 h.1).1] at h), if_neg (by intro h; simp [h2' h.1] at h),
    if_neg (by intro h; exact h.2.2.1 (h2 h.1).2.2), if_neg (by tauto), if_neg (by tauto), if_neg hm]

theorem slice_mid (a b c : List Byte) (o n : Nat) (ha : a.length = o) (hb : b.length = n) : slice (a ++ (b ++ c)) o n = b := by
  rw [slice, List.drop_left' ha, List.take_left' hb]

theorem fitBytes_length (n : Nat) (p : List Byte) : (fitBytes n p).length = n := by simp [fitBytes, zeros]

theorem fitBytes_fit (n : Nat) (p : List Byte) : fitBytes n (fitBytes n p) = fitBytes n p := by
  rw [fitBytes_exact n _ (fitBytes_length n p).ge, List.take_of_length_le (fitBytes_length n p).le]

theorem lcBlock_nonce (key : List Byte) : slice (lcBlock 4 key) 12 16 = fitBytes 16 (Config.nonce 0) := by
  rw [← fitBytes_fit 16 (Config.nonce 0)]
  have h := slice_mid (leBytes 4 4 ++ leBytes 8 Config.uid.toNat) (fitBytes 16 (fitBytes 16 (Config.nonce 0)))
    ((fitBytes 96 key ++ zeros 96) ++ (leBytes 4 (crc32c (lcHead 4 key)) ++ [])) 12 16 (by simp [length_leBytes]) (fitBytes_length ..)
  simp only [List.append_assoc] at h
  rw [lcBlock, lcHead]
  simp only [List.append_assoc, if_true]
  exact h

theorem lcBlock_clean4 : blockClean 4 (lcBlock 4 []) = true := by
  have h := slice_mid (leBytes 4 4 ++ (leBytes 8 Config.uid.toNat ++ fitBytes 16 (fitBytes 16 (Config.nonce 0)))) (fitBytes 96 [])
    (zeros 96 ++ (leBytes 4 (crc32c (lcHead 4 [])) ++ [])) 28 96 (by simp [length_leBytes, fitBytes_length]) (fitBytes_length ..)
  have hz : slice (lcBlock 4 []) 28 96 = fitBytes 96 [] := by
    rw [← h, lcBlock, lcHead]
    simp only [List.append_assoc, if_true]
  simp only [blockClean, hz]
  rfl

/-- Base point of P-384, X then Y, big-endian. -/
def baseP384 : List Byte :=
  (leBytes 48 0xAA87CA22BE8B05378EB1C71EF320AD746E1D3B628BA79B9859F741E082542A385502F25DBF55296C3A545E3872760AB7).reverse ++
  (leBytes 48 0x3617DE4A96262C6F5D9E98BF9292DC29F8F41DBD289A147CE9DA3113B5F0B8C00A60B1CE1D7E819D7A431D7C90EA0E5F).reverse

/-- A key slot that holds that key. -/
def keyed : KeySlot := ⟨baseP384 ++ leBytes 4 (crc32c baseP384)⟩

/-- A device in a stage, its cells as given. -/
def inStage (b : BitVec 10) : State :=
  { State.reset with
    life := { cells := b, debugEnable := true }
    nvm := { copy := tset {} [] 0x0202 { id := 0x0101, version := 1, seq := 1, chkSeq := 1, crcOk := true } } }

/-- Meets what `LifecycleCommands` supposes of an accepted block. -/
def LcMeets (row : LcBlock → Instr) (cmd : Nat) (s : State) (b : List Byte) (g : Stage) : Prop :=
  b.length = 224 ∧ s.boot.inReset = false ∧ u b 0 1 = cmd ∧ blockClean cmd b = true ∧ stageChange cmd s = some g ∧
    blockResult cmd 0 b s = 0 ∧ ∀ cut, row ⟨b, cut⟩ = row ⟨b, cut⟩

theorem lcMeets (row : LcBlock → Instr) (cmd : Nat) (key : List Byte) (s : State) (g : Stage)
    (h : s.boot.inReset = false ∧ u (lcBlock cmd key) 0 1 = cmd ∧ blockClean cmd (lcBlock cmd key) = true ∧ stageChange cmd s = some g ∧
      cmd ≠ 4 ∧ s.pwr.mode ≠ .thermalLatch ∧ cmd ≠ 0 ∧ cmd ≤ 6)
    (h2 : cmd = 2 → onCurve (slice (lcBlock cmd key) 28 96) = true ∧ (keyInForce s).isSome = false ∧ slotState s.life.key0 = 0) :
    LcMeets row cmd s (lcBlock cmd key) g :=
  ⟨by simp [lcBlock, lcHead_length, length_leBytes], h.1, h.2.1, h.2.2.1, h.2.2.2.1,
    lcBlock_result cmd key s h.2.2.1 (by simp [h.2.2.2.1]) h.2.2.2.2.1 h.2.2.2.2.2.1 h2 h.2.2.2.2.2.2, fun _ => rfl⟩

/-- For RETURN the key must verify the block, which the open function `Config.signatureOk` decides: the witness supposes it. -/
theorem wit_LifecycleCommands :
    LcMeets .advance 1 (inStage 0) (lcBlock 1 []) .manufacture ∧ LcMeets .provision 2 (inStage 3) (lcBlock 2 baseP384) .provisioned ∧
    LcMeets .deploy 3 (inStage 15) (lcBlock 3 []) .field ∧ LcMeets .scrap 5 (inStage 255) (lcBlock 5 []) .scrapped ∧
    LcMeets .debugOff 6 (inStage 15) (lcBlock 6 []) .provisioned ∧
    (∀ s : State, s = { inStage 63 with life := { cells := 63, key0 := keyed } } →
      Config.signatureOk baseP384 (ascii "RTRN" ++ slice (lcBlock 4 []) 4 8 ++ slice (lcBlock 4 []) 12 16) (slice (lcBlock 4 []) 124 96) = true →
      LcMeets .return_ 4 s (lcBlock 4 []) .return_) ∧
    ∃ (s : State) (b : List Byte) (r : Nat), b.length = 224 ∧ s.boot.inReset = false ∧ u b 0 1 = 3 ∧ blockClean 3 b = true ∧
      blockResult 3 0 b s = r ∧ r ≠ 0 := by
  refine ⟨lcMeets _ _ _ _ _ (by decide +kernel) (by decide), lcMeets _ _ _ _ _ (by decide +kernel) fun _ => by decide +kernel,
    lcMeets _ _ _ _ _ (by decide +kernel) (by decide), lcMeets _ _ _ _ _ (by decide +kernel) (by decide),
    lcMeets _ _ _ _ _ (by decide +kernel) (by decide), ?_, ⟨State.reset, 3 :: zeros 223, 2, by decide +kernel⟩⟩
  rintro s rfl hsig
  refine ⟨by simp [lcBlock, lcHead_length, length_leBytes], rfl, by decide +kernel, lcBlock_clean4, by decide +kernel, ?_, fun _ => rfl⟩
  have hk : (keyInForce { inStage 63 with life := { cells := 63, key0 := keyed } }).getD [] = baseP384 := by decide +kernel
  unfold blockResult
  rw [if_neg (not_not.mpr (lcBlock_crc 4 [])), if_neg (by decide), if_neg (by rw [lcBlock_clean4]; decide), if_neg (by decide +kernel),
    if_neg (not_not.mpr (lcBlock_uid 4 [])), if_neg (fun h => h.2 (lcBlock_nonce [])), if_neg (fun h => absurd h.1 (by decide)),
    if_neg (fun h => absurd h.1 (by decide)), if_neg (fun h => absurd h.1 (by decide)),
    if_neg (fun h => absurd h.2 (by decide +kernel)), if_neg (fun h => by rw [hk, hsig] at h; exact absurd h.2 (by decide)), if_neg (by decide)]

/-- A whole copy of a record with the given payload. -/
def goodCopy (id sq : Nat) (data : List Byte) : NvmCopy :=
  { id := id, version := 1, seq := sq, length := data.length, data := data, chkSeq := sq, crcOk := true }

/-- In MANUFACTURE, with the PA gate of path 0 released. -/
def calReady : State := { at_ .standby with bias := { chan := tset {} [] 0 { state := 2 } }, life := { cells := 3 } }

theorem wit_CalibrationRuns :
    (∃ ring dma s h p, Delivered 0x0501 ring dma s h p ∧ p.length = 24 ∧ firstBad (calFields p) = none ∧ stageNow s ≠ .scrapped ∧
      ((u p 0 2).testBit 10 = true ∨ (u p 0 2).testBit 11 = true → factoryStage (stageNow s) = true) ∧
      ((u p 0 2).testBit 6 = true → ∀ c < 64, (u p 8 8).testBit c = true → (chanOf s c).state = 2 ∨ (chanOf s c).state = 3) ∧
      longRunning .calRun s = false ∧ longRunning .testRun s = false ∧ s.pwr.trans = none ∧ s.pwr.mode = .standby) ∧
    (∃ ring dma s h, Delivered 0x0502 ring dma s h []) ∧
    (∃ (s : State) (c : CalRun) (rs : List CalResult), s.cal.run = some c ∧ s.pwr.mode = .calibrate ∧ s.pwr.trans = none ∧
      rs.map (fun r => r.typ) = c.left ∧ ∀ r ∈ rs, calDecided (calPaths c.tx c.rx r.typ) r = true) ∧
    ∃ (r : CalResult) (p k : Nat) (d : List Byte), calPath r p = some (k, d) ∧ k = 2 :=
  ⟨⟨1, _, hostOn calReady _, _, [64, 4] ++ zeros 6 ++ leBytes 8 1 ++ leBytes 8 0, dlv 0x0501 3 _ calReady (by decide +kernel),
     by decide +kernel⟩,
   ⟨1, _, _, _, dlv 0x0502 1 [] State.reset (by decide)⟩,
   ⟨{ at_ .calibrate with cal := { run := some { mask := 2, tx := 1, rx := 1, left := [1] } } }, { mask := 2, tx := 1, rx := 1, left := [1] },
     [{ typ := 1, attempts := [⟨[5, 0, 0, 0], [0, 0, 0, 0], true, 0⟩, ⟨[4, 0, 0, 0], [0, 0, 0, 0], true, 0⟩], levels := [] }], by decide +kernel⟩,
   { typ := 1, attempts := [⟨[5, 0, 0, 0], [0, 0, 0, 0], true, 0⟩, ⟨[4, 0, 0, 0], [0, 0, 0, 0], true, 0⟩], levels := [] }, 0, 2, [2, 0, 0, 0],
   by decide +kernel⟩

/-- A state with one record copy and, waiting, one write of `n` payload bytes. -/
def nvmState (n : Nat) : State :=
  { at_ .standby with nvm := { copy := tset {} [] 0x0420 (goodCopy 0x0210 7 [1, 2]), jobs := [⟨0x0210, 1, 8, zeros n, 0, none, false⟩] } }

theorem wit_RecordsReadAndWritten :
    (∃ ring dma s h p w k c, Delivered 0x0A01 ring dma s h p ∧ p.length = 12 ∧ u p 0 2 ∈ recordIds ∧ u p 2 1 = 0 ∧ slice p 3 1 = zeros 1 ∧
      u p 8 4 ≤ 16320 ∧ accessDomain 2 (consumed ring h s) = some w ∧ inForce w (u p 0 2) = some (k, c)) ∧
    (∃ ring dma s h p w, Delivered 0x0A02 ring dma s h p ∧ p.length = 8 + u p 4 4 ∧ 0x0210 ≤ u p 0 2 ∧ u p 0 2 ≤ 0x021F ∧
      slice p 2 2 = zeros 2 ∧ u p 4 4 ≤ 8168 ∧ recordStage (stageNow s) = true ∧ recordBusy (u p 0 2) s = false ∧
      accessDomain 2 (consumed ring h s) = some w) ∧
    (∃ ring dma s h w, Delivered 0x0A03 ring dma s h [] ∧ accessDomain 2 (consumed ring h s) = some w) ∧
    (∃ (s w : State) (j : NvmJob) (js : List NvmJob), s.nvm.jobs = j :: js ∧ s.ph.long = [] ∧ accessDomain 2 s = some w ∧
      (leaseNow w 0).holder = 0 ∧ (leaseNow w 0).free = none ∧ recordWords j.data.length ≤ j.words + 1024 ∧ w.ls.bad = []) ∧
    (∃ (s w : State) (j : NvmJob) (js : List NvmJob), s.nvm.jobs = j :: js ∧ s.ph.long = [] ∧ accessDomain 2 s = some w ∧
      (leaseNow w 0).holder = 0 ∧ (leaseNow w 0).free = none ∧ j.words + 1024 < recordWords j.data.length ∧ tget 0 w.rk.reg 0 = 0 ∧
      (leaseNow w 0).wait = []) ∧
    ∃ (s : State) (id w sq : Nat) (data : List Byte), w ≤ 1 ∧ 24 + data.length ≤ slotSize id ∧ id ≠ 0 ∧ sq < 2 ^ 32 ∧
      copyState id (copyOf s id (1 - w)) = 1 ∧ (copyOf s id (1 - w)).seq < 2 ^ 32 ∧ seqHigher sq (copyOf s id (1 - w)).seq = true :=
  ⟨⟨1, _, hostOn (nvmState 0) ([16, 2, 0, 0] ++ zeros 4 ++ leBytes 4 16320), _, _,
     (accessDomain 2 (consumed 1 _ (hostOn (nvmState 0) _))).get (by decide +kernel), 0, goodCopy 0x0210 7 [1, 2],
     dlv 0x0A01 1 _ (nvmState 0) (by decide +kernel), by decide +kernel, by decide +kernel, by decide +kernel, by decide +kernel,
     by decide +kernel, reaches _, by decide +kernel⟩,
   ⟨1, _, hostOn (nvmState 0) ([31, 2, 0, 0] ++ leBytes 4 8168 ++ zeros 8168), _, _,
     (accessDomain 2 (consumed 1 _ (hostOn (nvmState 0) _))).get (by decide +kernel),
     dlv 0x0A02 1 _ (nvmState 0) (by decide +kernel), by decide +kernel, by decide +kernel, by decide +kernel, by decide +kernel,
     by decide +kernel, by decide +kernel, by decide +kernel, reaches _⟩,
   ⟨1, _, hostOn (at_ .standby) [], _, (accessDomain 2 (consumed 1 _ (hostOn (at_ .standby) []))).get (by decide +kernel),
     dlv 0x0A03 1 [] (at_ .standby) (by decide +kernel), reaches _⟩,
   ⟨nvmState 8168, (accessDomain 2 (nvmState 8168)).get (by decide +kernel), _, [], rfl, rfl, reaches _, by decide +kernel⟩,
   ⟨nvmState 8169, (accessDomain 2 (nvmState 8169)).get (by decide +kernel), _, [], rfl, rfl, reaches _, by decide +kernel⟩,
   nvmState 0, 0x0210, 1, 8, [3], by decide +kernel⟩

theorem wit_LogReadAnswers :
    (∃ ring dma s h p w, Delivered 0x0D03 ring dma s h p ∧ p.length = 8 ∧ slice p 2 2 = zeros 2 ∧ u p 0 1 = 1 ∧ u p 1 1 = 0 ∧
      u p 6 2 ≤ 255 ∧ accessDomain 2 (consumed ring h s) = some w) ∧
    ∃ ring dma s h p r, Delivered 0x0D03 ring dma s h p ∧ p.length = 8 ∧ slice p 2 2 = zeros 2 ∧ u p 0 1 = 0x12 ∧ u p 1 1 = 1 ∧
      u p 4 2 = r ∧ r < 64 ∧ u p 6 2 = 1 :=
  ⟨⟨1, _, hostOn (at_ .standby) [1, 0, 0, 0, 0, 0, 255, 0], _, _,
     (accessDomain 2 (consumed 1 _ (hostOn (at_ .standby) _))).get (by decide +kernel),
     dlv 0x0D03 1 _ (at_ .standby) (by decide +kernel), by decide, by decide, by decide, by decide, by decide, reaches _⟩,
   1, _, _, _, [0x12, 1, 0, 0, 63, 0, 1, 0], 63, dlv 0x0D03 1 _ State.reset (by decide), by decide⟩

/-- A state in which sensor `n` counts for a host demand. -/
def sensing (n : Nat) : State := { at_ .standby with th := { sensor := tset {} [] n { counting := some (0, 0) } } }

theorem wit_ThermalRows :
    (∃ ring dma s h, Delivered 0x0E01 ring dma s h []) ∧
    (∃ ring dma s h p, Delivered 0x0E01 ring dma s h p ∧ p.length = 64 ∧ firstBad (thermalChecks p) = none) ∧
    (∃ ring dma s h, ∃ rd : List (Nat × Reading), Delivered 0x0E02 ring dma s h [] ∧
      ∀ n < 32, measurable s n = true → ∃ e ∈ rd, e.1 = n) ∧
    (∃ (s : State) (n : Nat), measurable s n = true ∧ (sensorOf s n).counting = none) ∧
    (∃ (s : State) (n r a : Nat), (sensorOf s n).counting = some (r, a)) ∧
    (∃ (s : State) (n : Nat) (m : Reading) (r : Nat), (sensorOf s n).counting = some (r, 0) ∧
      (if (recordData s 0x0102).isSome then m.trimmed else m.nominal) < -240) ∧
    (∃ (s : State) (n : Nat) (m : Reading) (r : Nat), (sensorOf s n).counting = some (r, 0) ∧
      700 < (if (recordData s 0x0102).isSome then m.trimmed else m.nominal)) ∧
    ∃ (s : State) (n : Nat) (m : Reading) (r : Nat), (sensorOf s n).counting = some (r, 0) ∧
      -240 ≤ (if (recordData s 0x0102).isSome then m.trimmed else m.nominal) ∧ (if (recordData s 0x0102).isSome then m.trimmed else m.nominal) < 500 :=
  ⟨⟨1, _, _, _, dlv 0x0E01 1 [] State.reset (by decide)⟩,
   ⟨1, _, _, _, thermalDefault, dlv 0x0E01 1 _ State.reset (by decide +kernel), by decide +kernel⟩,
   ⟨1, _, _, _, (List.range 32).map fun n => (n, ⟨900, 100, 101⟩), dlv 0x0E02 1 [] State.reset (by decide), fun n hn _ =>
     ⟨(n, ⟨900, 100, 101⟩), List.mem_map.mpr ⟨n, List.mem_range.mpr hn, rfl⟩, rfl⟩⟩,
   ⟨at_ .standby, 31, by decide +kernel⟩, ⟨sensing 31, 31, 0, 0, by decide +kernel⟩,
   ⟨sensing 0, 0, ⟨0, -241, 0⟩, 0, by decide +kernel⟩, ⟨sensing 31, 31, ⟨9, 701, 0⟩, 0, by decide +kernel⟩,
   sensing 0, 0, ⟨5, 499, 600⟩, 0, by decide +kernel⟩

/-- `pwr.request` bytes: target, actions, wake target, wake sources. -/
def pwrReq (t a wt src : Nat) : List Byte := leBytes 1 t ++ leBytes 1 a ++ leBytes 1 wt ++ [0] ++ leBytes 2 src ++ zeros 42

theorem wit_PowerMessages :
    (∃ ring dma s h p, Delivered 0x0601 ring dma s h p ∧ p.length = 48 ∧ firstBad (pwrChecks p) = none ∧ u p 0 1 = 255) ∧
    (∃ ring dma s h p, Delivered 0x0601 ring dma s h p ∧ p.length = 48 ∧ firstBad (pwrChecks p) = none ∧ u p 0 1 ≤ 7 ∧
      (pwrActions (u p 1 1) (consumed ring h s)).pwr.trans = none ∧
      modeOf (u p 0 1) ≠ (pwrActions (u p 1 1) (consumed ring h s)).pwr.mode ∧
      refusalOf (modeOf (u p 0 1)) (pwrActions (u p 1 1) (consumed ring h s)) = none) ∧
    (∃ ring dma s h p, Delivered 0x0601 ring dma s h p ∧ p.length = 48 ∧ firstBad (pwrChecks p) = none ∧ u p 0 1 = 10 ∧
      (pwrActions (u p 1 1) (consumed ring h s)).pwr.mode ≠ .thermalLatch ∧
      (pwrActions (u p 1 1) (consumed ring h s)).pwr.mode ≠ .safeHold ∧
      protecting (pwrActions (u p 1 1) (consumed ring h s)) = false) ∧
    (∃ ring dma s h p n nm, Delivered 0x0601 ring dma s h p ∧ p.length = 48 ∧ firstBad (pwrChecks p) = none ∧ u p 0 1 ≤ 7 ∧
      (pwrActions (u p 1 1) (consumed ring h s)).pwr.trans = none ∧
      modeOf (u p 0 1) ≠ (pwrActions (u p 1 1) (consumed ring h s)).pwr.mode ∧
      refusalOf (modeOf (u p 0 1)) (pwrActions (u p 1 1) (consumed ring h s)) = some (n, nm)) ∧
    (∃ ring dma s h p, Delivered 0x0602 ring dma s h p ∧ p = []) ∧
    ∃ ring dma s h p c, Delivered 0x0603 ring dma s h p ∧ (c = 0 ∨ c = 1) ∧ p = [BitVec.ofNat 8 c, 0, 0, 0] :=
  ⟨⟨1, _, hostOn (at_ .standby) (pwrReq 255 5 0 0), _, _, dlv 0x0601 1 _ (at_ .standby) (by decide +kernel), by decide +kernel⟩,
   ⟨1, _, hostOn (at_ .standby) (pwrReq 4 0 3 0x21 |>.set 8 1), _, _, dlv 0x0601 1 _ (at_ .standby) (by decide +kernel), by decide +kernel⟩,
   ⟨1, _, hostOn (at_ .operateTdd) (pwrReq 10 0 0 0), _, _, dlv 0x0601 1 _ (at_ .operateTdd) (by decide +kernel), by decide +kernel⟩,
   ⟨1, _, hostOn (at_ .listen) (pwrReq 7 0 0 0), _, _, 1, name8 "MODE", dlv 0x0601 1 _ (at_ .listen) (by decide +kernel), by decide +kernel⟩,
   ⟨1, _, _, _, [], dlv 0x0602 1 [] State.reset (by decide), rfl⟩,
   1, _, _, _, [1, 0, 0, 0], 1, dlv 0x0603 1 _ State.reset (by decide), by decide, rfl⟩

theorem wit_PadRelease :
    (∃ ring dma s h p, Delivered 0x0604 ring dma s h p ∧ p.length = 4 ∧ u p 0 2 < 4096 ∧ slice p 2 2 = zeros 2) ∧
    (∃ v : Word, v.toNat / 65536 = 0xA5C3) ∧ ∃ v : Word, v.toNat / 65536 ≠ 0xA5C3 :=
  ⟨⟨1, _, _, _, [255, 15, 0, 0], dlv 0x0604 1 _ State.reset (by decide), by decide⟩, ⟨0xA5C30FFF, by decide⟩, 0xA5C40000, by decide⟩

/-- A transition with nothing left to wait for. -/
def toMode (m : Mode) : Trans := ⟨.standby, m, 0, 1, 0, {}, 0, 0⟩

theorem wit_ModesEnteredAndServed :
    (∃ (s : State) (t : Trans), s.pwr.trans = some t ∧ arrived s t = true) ∧
    (∃ (s : State) (b : Boundary) (t : Instant), s.pwr.service = some (b, t) ∧ isService s.pwr.mode = true ∧ s.pwr.endAt = none ∧
      s.pwr.serving = false) ∧
    ∃ (s : State) (e : Instant), s.pwr.endAt = some e := by
  refine ⟨⟨{ at_ .standby with pwr := { (at_ .standby).pwr with trans := some (toMode .deepSleep) } }, toMode .deepSleep, rfl, by decide +kernel⟩,
    ⟨{ at_ .operateTdd with pwr := { (at_ .operateTdd).pwr with service := some ({}, 0) } }, {}, 0, by decide +kernel⟩,
    { at_ .operateTdd with pwr := { (at_ .operateTdd).pwr with endAt := some 5 } }, 5, rfl⟩

theorem wit_ProtectionFaultHolds :
    (∃ s : State, s.pwr.mode ≠ .reset ∧ s.pwr.mode ≠ .thermalLatch ∧ s.pwr.mode ≠ .safeHold ∧ protecting s = false ∧
      isService s.pwr.mode = true) ∧
    (∃ s : State, s.pwr.mode ≠ .reset ∧ s.pwr.mode ≠ .thermalLatch ∧ s.pwr.mode ≠ .safeHold ∧ protecting s = false ∧
      isService s.pwr.mode = false) ∧
    ∃ s : State, s.th.latch = false ∧ isService s.pwr.mode = true :=
  ⟨⟨at_ .bringUp, by decide⟩, ⟨at_ .boot, by decide⟩, at_ .operateFdd, by decide⟩

/-- A state in a mode with its enables raised, the power-good of `pg`, and a transition in flight or not. -/
def regs (m : Mode) (pg : BitVec 8) : State :=
  { at_ m with pwr := { (at_ m).pwr with pg := pg, map := some ((List.range 8).map fun k => ⟨2 ^ k, 10, false⟩) } }

theorem wit_RegulatorRows :
    (∃ (s : State) (k : Nat), k < 8 ∧ s.pwr.en.getLsbD k = true ∧ s.pwr.pg.getLsbD k = false ∧ s.boot.inReset = false ∧
      s.pwr.mode = .reset ∧ k = 0) ∧
    (∃ (s : State) (k : Nat), k < 8 ∧ s.pwr.en.getLsbD k = true ∧ s.pwr.pg.getLsbD k = false ∧ s.boot.inReset = false ∧
      s.pwr.mode ≠ .reset ∧ s.pwr.trans = none) ∧
    (∃ (s : State) (k : Nat), k < 8 ∧ s.pwr.en.getLsbD k = true ∧ s.pwr.pg.getLsbD k = true ∧ s.pwr.mode ≠ .reset ∧
      BitVec.ofNat 20 (regMask s k) &&& (s.pwr.on ||| heldDomains s) = 0) ∧
    ∃ (s : State) (k : Nat), k < 8 ∧ s.pwr.en.getLsbD k = true ∧ s.pwr.pg.getLsbD k = true ∧ isOperate s.pwr.mode = true ∧
      s.pwr.trans = none ∧ BitVec.ofNat 20 (regMask s k) &&& (s.pwr.on ||| heldDomains s) ≠ 0 :=
  ⟨⟨regs .reset 0, 0, by decide⟩, ⟨regs .standby 0, 7, by decide⟩,
   ⟨{ regs .standby 255 with pwr := { (regs .standby 255).pwr with on := 0 } }, 7, by decide⟩, regs .operateTdd 255, 7, by decide⟩

/-- LISTEN with every source armed and a wake to retry. -/
def listening : State :=
  { at_ .listen with clk := { active := 0 }, pwr := { (at_ .listen).pwr with
      senseArmed := 15, armed := 0x1FF, retry := some 0, wake := { energyMask := 2 ^ 63, energy := -60 } } }

/-- STANDBY with the NVM domain off, its regulator, the last, without power-good. -/
def nvmUnfed : State :=
  { at_ .standby with pwr := { (at_ .standby).pwr with
      on := 2, ready := 2, pg := 127, map := some ((List.range 8).map fun k => ⟨if k = 7 then 4 else 0, 10, false⟩) } }

/-- Whatever the error of a threshold set to 0, 10,001 µV lie beyond it, and −20,001 µV beyond its hysteresis. -/
theorem sense_beyond (k : Nat) : senseBeyond listening k 10001 = true := by
  simp only [senseBeyond, senseAt, listening, List.getElem?_nil, Option.getD_none]
  simp; omega
theorem sense_arms (k : Nat) : senseArms listening k (-20001) = true ∧ senseArms listening k 10001 = false := by
  simp only [senseArms, senseAt, listening, List.getElem?_nil, Option.getD_none]
  simp; omega

theorem wit_WakesAndDomains :
    (∃ s : State, s.pwr.mode = .listen ∧ s.pwr.trans = none ∧ s.clk.active ≠ 3 ∧
      (∀ k < 4, s.pwr.senseArmed.getLsbD k = true ∧ s.pwr.armed.getLsbD k = true ∧ ∃ v, senseBeyond s k v = true) ∧
      (∃ p x, p < 64 ∧ s.pwr.wake.energyMask.testBit p = true ∧ s.pwr.wake.energy < x ∧ s.pwr.ready.getLsbD (16 + p / 16) = true ∧
        s.pwr.armed.getLsbD 4 = true) ∧
      s.pwr.armed.getLsbD 5 = true ∧ s.pwr.armed.getLsbD 7 = true ∧ ∃ r, s.pwr.retry = some r) ∧
    (∃ s : State, s.pwr.mode = .listen ∧ s.pwr.trans = none ∧ s.clk.active = 3 ∧ oscOf s 0 ≠ 1 ∧ oscOf s 1 ≠ 1 ∧ liveFails23 s = false ∧
      s.pwr.armed.getLsbD 7 = true) ∧
    (∃ (s : State) (w : SenseLevel), s.pwr.mode = .listen ∧ s.pwr.trans = none ∧ w.comparator < 4 ∧ senseArms s w.comparator w.level = true) ∧
    (∃ (s : State) (w : SenseLevel), s.pwr.mode = .listen ∧ s.pwr.trans = none ∧ w.comparator < 4 ∧ senseArms s w.comparator w.level = false) ∧
    (∃ (s : State) (d : Nat), d < 20 ∧ s.pwr.ready.getLsbD d = false ∧ wakes d s = true ∧ fed s d = true ∧ s.test.run = none) ∧
    (∃ (s : State) (d : Nat), d < 20 ∧ tget 0 s.pwr.demand d ≠ 0 ∧ (heldDomains s ||| testDomains s).getLsbD d = false ∧
      leasedIn s d = false) ∧
    (∃ (s : State) (d : Nat) (tr : Trans), d < 20 ∧ s.pwr.trans = some tr ∧ s.pwr.on.getLsbD d = true ∧
      (modeDomains s tr.target).getLsbD d = false ∧ s.pwr.endAt = none ∧ tr.cause ≠ 3) ∧
    (∃ (s : State) (d : Nat) (tr : Trans), d < 20 ∧ s.pwr.trans = some tr ∧ s.pwr.on.getLsbD d = true ∧
      (modeDomains s tr.target).getLsbD d = false ∧ s.pwr.endAt = none ∧ tr.cause = 3) ∧
    (∃ (s : State) (d : Nat), d < 20 ∧ s.pwr.trans = none ∧ tget 0 s.pwr.demand d ≠ 0) ∧
    (∃ ring dma s h, Delivered 0x0A03 ring dma s h [] ∧ accessDomain 2 (consumed ring h s) = none ∧ wakes 2 (consumed ring h s) = true) ∧
    ∃ ring dma s h, Delivered 0x0A03 ring dma s h [] ∧ accessDomain 2 (consumed ring h s) = none ∧ wakes 2 (consumed ring h s) = false :=
  ⟨⟨listening, rfl, rfl, by decide, fun k hk => ⟨by revert k; decide, by revert k; decide, 10001, sense_beyond k⟩, ⟨63, -59, by decide⟩,
     by decide, by decide, 0, rfl⟩,
   ⟨{ listening with clk := { active := 3 } }, by decide +kernel⟩,
   ⟨listening, ⟨3, -20001⟩, rfl, rfl, by decide, (sense_arms 3).1⟩, ⟨listening, ⟨0, 10001⟩, rfl, rfl, by decide, (sense_arms 0).2⟩,
   ⟨{ at_ .standby with pwr := { (at_ .standby).pwr with ready := 0 } }, 19, by decide +kernel⟩,
   ⟨{ at_ .standby with pwr := { (at_ .standby).pwr with demand := tset 0 [] 19 1 } }, 19, by decide +kernel⟩,
   ⟨{ at_ .standby with pwr := { (at_ .standby).pwr with trans := some (toMode .deepSleep) } }, 19, toMode .deepSleep, by decide +kernel⟩,
   ⟨{ at_ .standby with pwr := { (at_ .standby).pwr with trans := some { toMode .safeHold with cause := 3 } } }, 19,
    { toMode .safeHold with cause := 3 }, by decide +kernel⟩,
   ⟨{ at_ .standby with pwr := { (at_ .standby).pwr with demand := tset 0 [] 0 1 } }, 0, by decide +kernel⟩,
   ⟨1, _, hostOn nvmUnfed [], _, dlv 0x0A03 1 [] nvmUnfed (by decide +kernel), by decide +kernel⟩,
   1, _, hostOn { nvmUnfed with pwr := { nvmUnfed.pwr with mode := .safeHold } } [], _,
   dlv 0x0A03 1 [] { nvmUnfed with pwr := { nvmUnfed.pwr with mode := .safeHold } } (by decide +kernel), by decide +kernel⟩

/-- A state whose bias channels have the codes and states given. -/
def biased (m : Mode) (c : Nat) (ch : Chan) : State :=
  { at_ m with bias := { valid := true, chan := tset {} [] c ch } }

theorem wit_BiasMessages :
    (∃ ring dma s w h p, accessDomain 10 (consumed ring h s) = some w ∧ p.length = 8 + 8 * u p 0 4 ∧ Delivered 0x0801 ring dma s h p ∧
      firstBad ((0, decide (1 ≤ u p 0 4) && decide (u p 0 4 ≤ 80)) :: isZero p 4 4 :: biasChecks true p (u p 0 4)) = none ∧
      ∀ r < u p 0 4, (chanOf s (u p (8 + 8 * r) 1)).state ≠ 4) ∧
    (∃ ring dma s w h p, accessDomain 10 (consumed ring h s) = some w ∧ p.length = 8 + 8 * u p 0 4 ∧ Delivered 0x0802 ring dma s h p ∧
      u p 0 4 = 1 ∧ slice p 4 4 = zeros 4 ∧ u p 8 1 ≤ 79 ∧ u p 9 1 ≤ 3 ∧ u p 10 2 ≤ 16383 ∧ slice p 12 4 = zeros 4 ∧
      (chanOf s (u p 8 1)).state ≠ 4) ∧
    ∃ ring dma s w h p, ∃ hvP hvN : Nat, Delivered 0x0803 ring dma s h p ∧ p.length = 16 ∧ slice p 10 6 = zeros 6 ∧
      releaseMode s.pwr.mode = true ∧ accessDomain 10 (consumed ring h s) = some w ∧ w.bias.valid = true ∧ 10240 ≤ hvP ∧ hvN ≤ 3072 ∧
      w.em.held = 0 ∧ w.bias.paClearLow = false ∧
      ((List.range 80).filter fun c => (u p 0 10).testBit c && (decide ((chanOf w c).state = 0) || decide ((chanOf w c).state = 5))) ≠ [] :=
  ⟨⟨1, _, hostOn (at_ .standby) ([1, 0, 0, 0, 0, 0, 0, 0] ++ [79, 0, 255, 63, 208, 7, 0, 0]),
     (accessDomain 10 (consumed 1 (hostHdr 0x0801 1 _) (hostOn (at_ .standby) _))).get (by decide +kernel), _, _,
     reaches _, by decide +kernel, dlv 0x0801 1 _ (at_ .standby) (by decide +kernel), by decide +kernel⟩,
   ⟨1, _, hostOn (at_ .standby) ([1, 0, 0, 0, 0, 0, 0, 0] ++ [79, 3, 255, 63, 0, 0, 0, 0]),
     (accessDomain 10 (consumed 1 (hostHdr 0x0802 1 _) (hostOn (at_ .standby) _))).get (by decide +kernel), _, _,
     reaches _, by decide +kernel, dlv 0x0802 1 _ (at_ .standby) (by decide +kernel), by decide +kernel⟩,
   1, _, hostOn (biased .operateTdd 79 {}) (zeros 9 ++ [128] ++ zeros 6),
     (accessDomain 10 (consumed 1 (hostHdr 0x0803 1 _) (hostOn (biased .operateTdd 79 {}) _))).get (by decide +kernel), _, _, 10240, 3072,
     dlv 0x0803 1 _ (biased .operateTdd 79 {}) (by decide +kernel), by decide +kernel, by decide +kernel, by decide +kernel, reaches _,
     by decide +kernel⟩

theorem wit_BiasClearsAndUpdates :
    (∃ s : State, s.bias.paClearLow = false) ∧ (∃ s : State, s.pwr.ready.getLsbD 10 = true) ∧
    (∃ s c, (chanOf s c).state = 5 ∧ (chanOf s c).releaseAfter = false) ∧
    (∃ s c, (chanOf s c).state = 5 ∧ (chanOf s c).releaseAfter = true) ∧
    ∀ n ∈ [0, 2, 3], ∃ s c, c < 80 ∧ s.em.held.getLsbD (8 + chanTile c) = false ∧ (chanOf s c).state = n :=
  ⟨⟨State.reset, rfl⟩, ⟨at_ .standby, rfl⟩, ⟨biased .standby 79 { state := 5 }, 79, by decide⟩,
   ⟨biased .standby 0 { state := 5, releaseAfter := true }, 0, by decide⟩,
   fun n _ => ⟨biased .standby 79 { state := n }, 79, by decide, (by decide : State.reset.em.held.getLsbD (8 + chanTile 79) = false), by simp [biased, chanOf]⟩⟩

theorem wit_SlewNeverPassesTarget :
    (∃ (ch : Chan) (t : Nat), ch.pos ≤ t * 65536) ∧ (∃ (ch : Chan) (t : Nat), t * 65536 ≤ ch.pos) ∧
    ∃ (ch : Chan) (t : Nat), t * 65536 ≤ ch.pos + slewStep ch.span ch.slew ∧ ch.pos ≤ t * 65536 + slewStep ch.span ch.slew ∧
      ch.pos ≠ t * 65536 :=
  ⟨⟨{}, 16383, by decide⟩, ⟨{ pos := 16383 * 65536 }, 0, by decide⟩, { slew := 2000, pos := 1 }, 0, by decide⟩

/-- A state with one HK slot, the converters and delays given. -/
def hkState (k : Hk) : State := { at_ .standby with hk := k }
def hkSlot0 : HkSlot := { source := 5, avg := 1, limit := 10 }

theorem wit_Housekeeping :
    (∃ ring dma s w h p, accessDomain 10 (consumed ring h s) = some w ∧ Delivered 0x0804 ring dma s h p ∧ p.length = 1168 ∧
      firstBad ((isZero p 8 8 :: (List.range 64).flatMap (slotChecks p)) ++
        (List.range 64).map fun n => inRange p (1040 + 2 * n) 2 1 16383) = none ∧ (leaseOf w 11).free = none) ∧
    (∃ ring dma s w h p, accessDomain 10 (consumed ring h s) = some w ∧ Delivered 0x0805 ring dma s h p ∧ p.length = 256 ∧
      firstBad ((List.range 32).flatMap (windowChecks p)) = none) ∧
    (∃ ring dma s w h p, accessDomain 10 (consumed ring h s) = some w ∧ Delivered 0x0806 ring dma s h p ∧ p = [1, 0, 0, 0, 0, 0, 0, 0]) ∧
    (∃ ring dma s w h p, accessDomain 10 (consumed ring h s) = some w ∧ Delivered 0x0806 ring dma s h p ∧ p.length = 8 ∧ u p 0 1 = 2 ∧
      firstBad (hkReadChecks p) = none) ∧
    (∀ b, ∃ s : State, ∃ n, s.pwr.ready.getLsbD 10 = true ∧ n < 64 ∧ triggerable (notePins s) n = true ∧
      slotBusy (triggered n (notePins s)) n = b) ∧
    (∃ s : State, ∃ n, s.pwr.ready.getLsbD 10 = true ∧ n < 64 ∧ triggerable (notePins s) n = false) ∧
    (∀ b, ∃ (s : State) (n : Nat) (e : Nat × Instant), s.pwr.ready.getLsbD 10 = true ∧
      s.hk.delayed.find? (fun e => decide (e.1 = n)) = some e ∧
      slotBusy (settleConv (slotOf s n).converter (advanceTo e.2 { s with hk := { s.hk with delayed := s.hk.delayed.erase e } })) n = b) ∧
    (∃ (s : State) (c n : Nat), s.pwr.ready.getLsbD 10 = true ∧ c < 2 ∧ (convOf s c).orphan = none ∧ (convOf s c).running = some n ∧
      (convOf s c).sum = 0 ∧ (convOf s c).taken = 0 ∧ (convOf s c).spoiled = false ∧ (convOf s c).invalidLeft = 0 ∧ (slotOf s n).avg = 1 ∧
      n ∉ s.hk.fresh ∧ (∀ k, (windowOf s k).enable = false) ∧ s.hk.ocMask = 0) ∧
    (∃ (s : State) (c : Nat) (o : Orphan), s.pwr.ready.getLsbD 10 = true ∧ c < 2 ∧ (convOf s c).orphan = some o) ∧
    (∃ (s : State) (c : Nat), s.pwr.ready.getLsbD 10 = true ∧ c < 2 ∧ (convOf s c).powered = true ∧ (convOf s c).running = none ∧
      (convOf s c).orphan = none ∧ (convOf s c).queue = []) ∧
    (∃ q : List (Instant × Nat), q.length = 3 ∧ q.Pairwise (fun a b => queueBefore b a = false)) ∧
    (∃ (s : State) (p gain code : Nat), p < 64 ∧ ocLimit s p gain ≤ code) ∧
    ∃ (s : State) (p gain code : Nat), p < 64 ∧ code < ocLimit s p gain :=
  ⟨⟨1, _, hostOn (at_ .standby) (zeros 1040 ++ (List.replicate 64 (leBytes 2 16383)).flatten),
     (accessDomain 10 (consumed 1 (hostHdr 0x0804 1 _) (hostOn (at_ .standby) _))).get (by decide +kernel), _, _,
     reaches _, dlv 0x0804 1 _ (at_ .standby) (by decide +kernel), by decide +kernel, by decide +kernel, by decide +kernel⟩,
   ⟨1, _, hostOn (at_ .standby) ([1, 63, 252, 255, 252, 255, 0, 0] ++ zeros 248),
     (accessDomain 10 (consumed 1 (hostHdr 0x0805 1 _) (hostOn (at_ .standby) _))).get (by decide +kernel), _, _,
     reaches _, dlv 0x0805 1 _ (at_ .standby) (by decide +kernel), by decide +kernel, by decide +kernel⟩,
   ⟨1, _, hostOn (at_ .standby) [1, 0, 0, 0, 0, 0, 0, 0],
     (accessDomain 10 (consumed 1 (hostHdr 0x0806 1 _) (hostOn (at_ .standby) _))).get (by decide +kernel), _, _,
     reaches _, dlv 0x0806 1 _ (at_ .standby) (by decide +kernel), rfl⟩,
   ⟨1, _, hostOn (at_ .standby) [2, 1, 127, 0, 8, 0, 0, 0],
     (accessDomain 10 (consumed 1 (hostHdr 0x0806 1 _) (hostOn (at_ .standby) _))).get (by decide +kernel), _, _,
     reaches _, dlv 0x0806 1 _ (at_ .standby) (by decide +kernel), by decide +kernel⟩,
   (fun b => match b with
     | false => ⟨hkState { slot := tset {} [] 63 hkSlot0 }, 63, by decide +kernel⟩
     | true => ⟨hkState { slot := tset {} [] 63 hkSlot0, conv := tset {} [] 0 { running := some 63 } }, 63, by decide +kernel⟩),
   ⟨hkState {}, 63, by decide +kernel⟩,
   (fun b => match b with
     | false => ⟨hkState { slot := tset {} [] 63 hkSlot0, delayed := [(63, 10)] }, 63, (63, 10), by decide +kernel⟩
     | true => ⟨hkState { slot := tset {} [] 63 hkSlot0, delayed := [(63, 10)], conv := tset {} [] 0 { running := some 63 } }, 63, (63, 10),
         by decide +kernel⟩),
   ⟨hkState { slot := tset {} [] 63 hkSlot0, conv := tset {} [] 1 { powered := true, running := some 63 } }, 1, 63, by decide +kernel, by decide,
     by decide +kernel, by decide +kernel, by decide +kernel, by decide +kernel, by decide +kernel, by decide +kernel, by decide +kernel,
     by decide +kernel, fun _ => rfl, rfl⟩,
   ⟨hkState { conv := tset {} [] 1 { powered := true, orphan := some ⟨5, 0, 0, 1, false⟩ } }, 1, ⟨5, 0, 0, 1, false⟩, by decide +kernel⟩,
   ⟨hkState { conv := tset {} [] 1 { powered := true } }, 1, by decide⟩,
   ⟨[(5, 1), (5, 2), (6, 0)], rfl, by decide⟩,
   ⟨State.reset, 63, 1, 16383, by decide⟩, State.reset, 0, 1, 16382, by decide⟩

/-- A state with ring `n` as given, the PCIe link up. -/
def ringed (n : Nat) (g : Ring) : State := { at_ .standby with ph := { ring := tset {} [] n g } }

/-- A write of W0 at `o` reaches its register from such a state. -/
theorem hostReaches (o n : Nat) (g : Ring) (h : (accessDomain (w0Domain o) (ringed n g)).isSome = true)
    (hs : stageNow ((accessDomain (w0Domain o) (ringed n g)).get h) ≠ .scrapped) :
    HostReaches o (ringed n g) ((accessDomain (w0Domain o) (ringed n g)).get h) :=
  ⟨by show Mode.standby ≠ .reset; decide, rfl, reaches _, hs⟩

theorem wit_RingRegistersAndPcieLink :
    (∃ (s w : State) (n : Nat) (v : Word), n < 8 ∧ HostReaches (0x1000 + 0x40 * n + 0x0C) s w ∧ (ringOf w n).enable = true ∧
      (v.toNat + 2 ^ 32 - (ringOf w n).head) % 2 ^ 32 = 64 ∧ ringUsed (ringOf w n) ≤ 64) ∧
    (∃ (s w : State) (n : Nat) (v : Word), n < 8 ∧ HostReaches (0x1000 + 0x40 * n + 0x0C) s w ∧ (ringOf w n).enable = true ∧
      64 < (v.toNat + 2 ^ 32 - (ringOf w n).head) % 2 ^ 32) ∧
    (∃ (s w : State) (n : Nat) (v : Word), 8 ≤ n ∧ n < 16 ∧ HostReaches (0x1000 + 0x40 * n + 0x10) s w ∧ (ringOf w n).enable = true ∧
      ((ringOf w n).tail + 2 ^ 32 - v.toNat) % 2 ^ 32 ≤ ringUsed (ringOf w n)) ∧
    (∃ (s w : State) (n : Nat), n < 16 ∧ HostReaches (0x1000 + 0x40 * n + 0x08) s w ∧ (ringOf w n).enable = true ∧ (ringOf w n).busy = false) ∧
    (∃ (s w : State) (n : Nat), n < 16 ∧ HostReaches (0x1000 + 0x40 * n + 0x08) s w ∧ (ringOf w n).enable = true ∧ (ringOf w n).busy = true) ∧
    (∃ (w : State) (n : Nat), (ringOf w n).active = true ∧ (ringOf w n).busy = false) ∧
    (∃ (s w : State) (n : Nat), n < 16 ∧ HostReaches (0x1000 + 0x40 * n + 0x08) s w ∧ (ringOf w n).enable = false ∧ (ringOf w n).held = [] ∧
      (ringOf w n).loc = (ringOf s n).loc) ∧
    ∃ (w : State) (n : Nat), n < 16 ∧ (ringOf w n).enable = true ∧ (ringOf w n).loc = false ∧ w.ph.pcieUp = true ∧ (ringOf w n).busy = false :=
  ⟨⟨_, _, 7, 64, by decide, hostReaches _ 7 {} (by decide +kernel) (by decide +kernel), by decide +kernel⟩,
   ⟨_, _, 0, 65, by decide, hostReaches _ 0 {} (by decide +kernel) (by decide +kernel), by decide +kernel⟩,
   ⟨_, _, 15, 3, by decide, by decide, hostReaches _ 15 { tail := 3 } (by decide +kernel) (by decide +kernel), by decide +kernel⟩,
   ⟨_, _, 15, by decide, hostReaches _ 15 {} (by decide +kernel) (by decide +kernel), by decide +kernel⟩,
   ⟨_, _, 7, by decide, hostReaches _ 7 { busy := true } (by decide +kernel) (by decide +kernel), by decide +kernel⟩,
   ⟨ringed 0 { active := true }, 0, by decide⟩,
   ⟨_, _, 15, by decide, hostReaches _ 15 { enable := false } (by decide +kernel) (by decide +kernel), by decide +kernel⟩,
   ringed 8 { loc := false }, 8, by decide⟩

theorem wit_EmergencyAndTimeCapture :
    (∃ s w : State, HostReaches 0x3000 s w ∧ HostReaches 0x5000 s w ∧ w.pwr.mode ≠ .listen ∧ w.pwr.mode ≠ .deepSleep) ∧
    (∃ v : Word, v.toNat / 65536 ≠ 0xA5C3) ∧ ∃ (s : State) (t0 : Instant), s.em.unmuteAt = some t0 :=
  ⟨⟨_, _, hostReaches 0x3000 0 {} (by decide +kernel) (by decide +kernel),
     ⟨by decide, rfl, reaches (d := w0Domain 0x5000) (by decide +kernel), by decide +kernel⟩, by decide +kernel⟩,
   ⟨0xA5C20001, by decide⟩, { State.reset with em := { muted := true, unmuteAt := some 0 } }, 0, rfl⟩

theorem reachesOne {d : Nat} {s w : State} (h : accessDomain d s = some w) : reachAll s [d] = .inl w := by
  rw [reachAll, h]; rfl

/-- Cabinet entry 0 holds a word with a double-bit error. -/
def damagedCab : State := { at_ .standby with ls := { bad := [⟨4, 0, true, false⟩] } }

theorem wit_RegistersAndApertures :
    (∃ (s w : State) (k v : Nat), k < 8 ∧ v < 2 ^ 32 ∧ HostReaches (0x2000 + 4 * k) s w) ∧
    (∃ (s w : State) (o width : Nat), o < 0x10000 ∧ HostReaches o s w ∧ width ≠ 4 ∧ width ≠ 8) ∧
    (∃ (s w : State) (o : Nat), o < 0x10000 ∧ HostReaches o s w ∧ o % 4 = 0) ∧
    (∃ (s w : State) (o : Nat), o < 0x10000 ∧ HostReaches o s w ∧ o % 4 ≠ 0) ∧
    (∀ o, o = 508 ∨ o = 512 ∨ o = 0x1000 ∨ o = 0x1FFC → ∃ s : State, o < 0x2000 ∧ o % 4 = 0 ∧ s.pwr.mode ≠ .reset ∧ s.ph.pcieUp = true ∧
      s.pwr.ready.getLsbD 1 = true) ∧
    (∃ (s w : State) (a n : Nat), s.pwr.mode ≠ .reset ∧ s.ph.pcieUp = true ∧ stageNow s ≠ .scrapped ∧ a + n ≤ 0x4000000 ∧
      reachAll s (w2Domains a n) = .inl w ∧ w.ls.bad = [] ∧ ∀ k < n, w2Bad w (a + k) = false) ∧
    ∃ (s w : State) (a n k : Nat), s.pwr.mode ≠ .reset ∧ s.ph.pcieUp = true ∧ stageNow s ≠ .scrapped ∧ a + n ≤ 0x4000000 ∧
      reachAll s (w2Domains a n) = .inl w ∧ k < n ∧ w2Bad w (a + k) = true := by
  refine ⟨⟨_, _, 7, 0xFFFFFFFF, by decide, by decide, hostReaches _ 0 {} (by decide +kernel) (by decide +kernel)⟩,
    ⟨_, _, 0xFFFF, 2, by decide, hostReaches _ 0 {} (by decide +kernel) (by decide +kernel), by decide, by decide⟩,
    ⟨_, _, 0xFFFC, by decide, hostReaches _ 0 {} (by decide +kernel) (by decide +kernel), by decide⟩,
    ⟨_, _, 0xFFFF, by decide, hostReaches _ 0 {} (by decide +kernel) (by decide +kernel), by decide⟩,
    fun o ho => ⟨at_ .standby, by omega, by omega, by decide, rfl, by decide⟩,
    ⟨at_ .standby, at_ .standby, 0x3FFFFFC, 4, by decide, rfl, by decide, by decide, rfl, rfl, by decide +kernel⟩,
    damagedCab, (accessDomain 5 damagedCab).get (by decide +kernel), 0x400000, 4, 0, by decide, rfl, by decide, by decide, reachesOne (reaches _),
      by decide, by decide +kernel⟩

/-- An SPI frame: command, address, length, data, CRC. -/
def spiMsg (cmd a n : Nat) (d : List Byte) : List Byte :=
  (leBytes 1 cmd ++ leBytes 4 a ++ leBytes 2 n ++ d) ++ leBytes 4 (crc32c (leBytes 1 cmd ++ leBytes 4 a ++ leBytes 2 n ++ d))

theorem spiMsg_request (cmd a n : Nat) (d : List Byte) (hc : cmd < 256) (ha : a < 2 ^ 32) (hn : n < 2 ^ 16)
    (hd : d.length = if cmd = 2 ∨ cmd = 3 then n else 0) : spiRequest (spiMsg cmd a n d) = some (some ⟨cmd, a, n, d⟩) := by
  generalize hb : leBytes 1 cmd ++ leBytes 4 a ++ leBytes 2 n ++ d = body
  have hm : spiMsg cmd a n d = body ++ (leBytes 4 (crc32c body) ++ []) := by
    subst hb; rw [spiMsg, List.append_nil]
  have hl : body.length = 7 + d.length := by subst hb; simp [length_leBytes]; omega
  have h0 : ∀ t, u (body ++ t) 0 1 = cmd := by
    intro t; subst hb
    have h := u_leBytes [] (leBytes 4 a ++ (leBytes 2 n ++ (d ++ t))) 1 cmd 0 rfl
    rw [Nat.mod_eq_of_lt (by omega)] at h
    simpa only [List.append_assoc, List.nil_append] using h
  have h1 : ∀ t, u (body ++ t) 1 4 = a := by
    intro t; subst hb
    have h := u_leBytes (leBytes 1 cmd) (leBytes 2 n ++ (d ++ t)) 4 a 1 (length_leBytes ..)
    rw [Nat.mod_eq_of_lt (by omega)] at h
    simpa only [List.append_assoc] using h
  have h5 : ∀ t, u (body ++ t) 5 2 = n := by
    intro t; subst hb
    have h := u_leBytes (leBytes 1 cmd ++ leBytes 4 a) (d ++ t) 2 n 5 (by simp [length_leBytes])
    rw [Nat.mod_eq_of_lt (by omega)] at h
    simpa only [List.append_assoc] using h
  have hlen : (body ++ (leBytes 4 (crc32c body) ++ [])).length = 11 + d.length := by simp [hl, length_leBytes]; omega
  have hc4 := u_leBytes body [] 4 (crc32c body) body.length rfl
  have hlt := crc32c_lt body
  rw [Nat.mod_eq_of_lt (by omega)] at hc4
  have htake : (body ++ (leBytes 4 (crc32c body) ++ [])).take body.length = body := List.take_left' rfl
  have hdrop : (body ++ (leBytes 4 (crc32c body) ++ [])).drop body.length = leBytes 4 (crc32c body) := by simp
  have hn4 : (body ++ (leBytes 4 (crc32c body) ++ [])).length - 4 = body.length := by omega
  have hle : leNat (leBytes 4 (crc32c body)) = crc32c body := by rw [leNat_leBytes, Nat.mod_eq_of_lt (by omega)]
  have hdata : slice body 7 (body.length - 7) = d := by
    subst hb
    rw [slice, List.drop_left' (by simp [length_leBytes]), List.take_of_length_le (by simp [length_leBytes]; omega)]
  rw [hm, spiRequest, h0, h5]
  rw [if_neg (by rw [hlen, ← hd]; omega), List.take_of_length_le (by rw [hlen, ← hd]), spiParse]
  rw [hn4, htake, hdrop, hle, if_pos ⟨by omega, rfl⟩, h0, h1, h5, hdata]

theorem wit_SpiFrames :
    (∃ f s w r, SpiArrives 1 f s r ∧ 4 ≤ r.len ∧ r.len ≤ 256 ∧ r.len % 4 = 0 ∧ r.addr % 4 = 0 ∧ r.addr + r.len ≤ 0x10000 ∧ u f 0 1 = 1 ∧
      accessDomain (if touchesRings r.addr r.len then 1 else 0) s = some w) ∧
    (∃ f s w r, SpiArrives 2 f s r ∧ r.len = 4 ∧ r.addr % 4 = 0 ∧ r.addr < 0x10000 ∧ accessDomain (w0Domain r.addr) s = some w) ∧
    (∃ f s w r, SpiArrives 3 f s r ∧ r.addr < 512 ∧ r.len = 512 ∧ accessDomain 1 s = some w ∧ (ringOf w (r.addr / 64)).loc = true) ∧
    (∃ f s w r, SpiArrives 4 f s r ∧ 512 ≤ r.addr ∧ r.addr < 1024 ∧ r.len = 512 ∧ accessDomain 1 s = some w ∧
      (ringOf w (r.addr / 64)).loc = true) ∧
    (∀ cmd, cmd = 2 ∨ cmd = 3 ∨ cmd = 4 → ∃ f s, spiIs f cmd = true ∧ spiServes cmd s = true ∧ spiRequest f = some none) ∧
    (∃ f s r, u f 0 1 = 0 ∧ f ≠ [] ∧ spiServes (u f 0 1) s = true ∧ spiRequest f = some (some r)) ∧
    ∃ f s r, 5 < u f 0 1 ∧ f ≠ [] ∧ spiServes (u f 0 1) s = true ∧ spiRequest f = some (some r) := by
  refine ⟨⟨spiMsg 1 0xFF00 256 [], at_ .standby, (accessDomain 0 (at_ .standby)).get (by decide +kernel), ⟨1, 0xFF00, 256, []⟩,
      ⟨by decide +kernel, by decide, spiMsg_request _ _ _ _ (by decide) (by decide) (by decide) (by decide)⟩, by decide, by decide, by decide, by decide, by decide, by decide +kernel, reaches _⟩,
    ⟨spiMsg 2 0xFFFC 4 [1, 2, 3, 4], at_ .standby, (accessDomain (w0Domain 0xFFFC) (at_ .standby)).get (by decide +kernel), ⟨2, 0xFFFC, 4, [1, 2, 3, 4]⟩,
      ⟨by decide +kernel, by decide, spiMsg_request _ _ _ _ (by decide) (by decide) (by decide) (by decide)⟩, by decide, by decide, by decide, reaches _⟩,
    ⟨spiMsg 3 511 512 (zeros 512), at_ .standby, (accessDomain 1 (at_ .standby)).get (by decide +kernel), ⟨3, 511, 512, zeros 512⟩,
      ⟨by decide +kernel, by decide, spiMsg_request _ _ _ _ (by decide) (by decide) (by decide) List.length_replicate⟩, by decide, rfl, reaches _,
      by decide +kernel⟩,
    ⟨spiMsg 4 1023 512 [], at_ .standby, (accessDomain 1 (at_ .standby)).get (by decide +kernel), ⟨4, 1023, 512, []⟩,
      ⟨by decide +kernel, by decide, spiMsg_request _ _ _ _ (by decide) (by decide) (by decide) (by decide)⟩, by decide, by decide, by decide, reaches _, by decide +kernel⟩, ?_,
    ⟨spiMsg 0 0 0 [], at_ .standby, ⟨0, 0, 0, []⟩, by decide +kernel, by decide, by decide +kernel,
      spiMsg_request _ _ _ _ (by decide) (by decide) (by decide) (by decide)⟩,
    spiMsg 255 0 0 [], at_ .standby, ⟨255, 0, 0, []⟩, by decide +kernel, by decide, by decide +kernel,
      spiMsg_request _ _ _ _ (by decide) (by decide) (by decide) (by decide)⟩
  rintro cmd (rfl | rfl | rfl)
  · exact ⟨2 :: zeros 10, at_ .standby, by decide +kernel⟩
  · exact ⟨3 :: zeros 10, at_ .standby, by decide +kernel⟩
  · exact ⟨4 :: zeros 10, at_ .standby, by decide +kernel⟩

/-- A running pattern of three events: GPIO 31, TX enable, RX enable. -/
def tddImage : Image :=
  imgWrite (imgWrite [] 9 0 [3, 0]) 9 1024 [0, 0, 0, 0x9F, 0, 1, 0, 0xA0, 0, 2, 0, 0x21]
def tddState : State :=
  { at_ .operateTdd with cfg := { live := tddImage, staged := tddImage }, rf := { running := true } }

/-- A state with synthesiser `k` in state `n`, and an armed image with one RFFE entry of bus 0. -/
def loState (m : Mode) (k n : Nat) (t : Option Trans) : State :=
  { at_ m with pwr := { (at_ m).pwr with trans := t }, rf := { lo := tset {} [] k { state := n } } }
def rffeImage : Image := imgWrite [] 12 1088 [1, 0, 5, 0, 16, 0, 7, 0]
def rffeState (f : Nat) : State :=
  { at_ .operateTdd with cfg := { armed := some (rffeImage, ⟨f, 0⟩) }, rf := { rffe := [0] } }

theorem wit_FrontEndRows :
    (∃ (s : State) (k t target : Nat) (v l : Bool), (tddEvents s.cfg.live)[k]? = some (t, target, v) ∧ s.rf.running = true ∧ isService s.pwr.mode = true ∧
      isFdd s.cfg.live = false ∧ levelAt (tddEvents s.cfg.live) target t = some l ∧ target = 31) ∧
    (∃ (s : State) (k t target : Nat) (v l : Bool), (tddEvents s.cfg.live)[k]? = some (t, target, v) ∧ s.rf.running = true ∧ isService s.pwr.mode = true ∧
      isFdd s.cfg.live = false ∧ levelAt (tddEvents s.cfg.live) target t = some l ∧ target = 32) ∧
    (∃ (s : State) (k t target : Nat) (v l : Bool), (tddEvents s.cfg.live)[k]? = some (t, target, v) ∧ s.rf.running = true ∧ isService s.pwr.mode = true ∧
      isFdd s.cfg.live = false ∧ levelAt (tddEvents s.cfg.live) target t = some l ∧ target = 33) ∧
    (∃ (s : State) (k : Nat), k < 8 ∧ (loOf s k).state = 1 ∧ loInTime s (loOf s k) = true) ∧
    (∃ (s : State) (k : Nat), k < 8 ∧ (loOf s k).state = 1 ∧ s.pwr.trans = none) ∧
    (∃ (s : State) (k : Nat), k < 8 ∧ (loOf s k).state = 1 ∧ (loOf s k).retune = true ∧ s.pwr.trans ≠ none) ∧
    (∃ (s : State) (k : Nat), k < 8 ∧ (loOf s k).state = 1 ∧ (loOf s k).retune = false ∧ ∃ tr, s.pwr.trans = some tr) ∧
    (∃ (s : State) (k : Nat), k < 8 ∧ (loOf s k).state = 2 ∧ k % 2 = 1) ∧
    (∃ (s : State) (k : Nat), k < 8 ∧ (loOf s k).state = 2 ∧ k % 2 = 0 ∧ isService s.pwr.mode = true) ∧
    (∃ (s : State) (k : Nat), k < 8 ∧ (loOf s k).state = 3 ∧ (loOf s k).expired = false ∧ s.pwr.mode = .operateTdd ∧ s.pwr.trans = none) ∧
    (∀ held, ∃ (s : State) (im : Image) (b : Boundary) (bus : Nat) (run : RffeRun), s.cfg.armed = some (im, b) ∧ bus ∈ s.rf.rffe ∧
      s.pwr.ready.getLsbD (12 + bus) = true ∧ nowU s ≤ boundaryU b - 100 * (usU : Int) ∧
      run.reads.length = (((rffeEntries im bus).filter fun e => !controlLost run.lost e.index).filter fun e => e.verify).length ∧
      run.lost = [] ∧ (∀ e ∈ rffeEntries im bus, e.verify = false) ∧ rffeEntries im bus ≠ [] ∧ s.em.held.getLsbD (4 + bus) = held) ∧
    (∃ (s : State) (im : Image) (b : Boundary) (bus : Nat), s.cfg.armed = some (im, b) ∧ bus ∈ s.rf.rffe ∧
      s.pwr.ready.getLsbD (12 + bus) = true ∧ boundaryU b - 100 * (usU : Int) < nowU s) ∧
    (∃ (s : State) (im : Image) (b : Boundary) (bus : Nat), s.cfg.armed = some (im, b) ∧ bus ∈ s.rf.rffe ∧
      s.pwr.ready.getLsbD (12 + bus) = false) ∧
    ∃ (s : State) (bus : Nat), bus ∈ s.rf.rffe ∧ (leaseOf s (12 + bus)).wait = [] ∧ (leaseOf s (12 + bus)).free = none ∧ tget 0 s.rk.reg 0 = 0 :=
  ⟨⟨tddState, 0, 0, 31, true, true, by decide +kernel⟩, ⟨tddState, 1, 256, 32, true, true, by decide +kernel⟩,
   ⟨tddState, 2, 512, 33, false, false, by decide +kernel⟩, ⟨loState .operateTdd 7 1 none, 7, by decide +kernel⟩,
   ⟨loState .operateTdd 0 1 none, 0, by decide, by decide, rfl⟩,
   ⟨{ loState .operateTdd 0 1 (some (toMode .standby)) with rf := { lo := tset {} [] 0 { state := 1, retune := true } } }, 0, by decide,
     by decide, by decide, by decide⟩,
   ⟨loState .standby 0 1 (some (toMode .operateTdd)), 0, by decide, by decide, by decide, toMode .operateTdd, rfl⟩,
   ⟨loState .operateTdd 7 2 none, 7, by decide +kernel⟩, ⟨loState .operateTdd 0 2 none, 0, by decide +kernel⟩,
   ⟨loState .operateTdd 0 3 none, 0, by decide +kernel⟩,
   (fun held => match held with
     | false => ⟨rffeState 1, rffeImage, ⟨1, 0⟩, 0, ⟨[], []⟩, rfl, by decide +kernel⟩
     | true => ⟨{ rffeState 1 with em := { held := 0x10 } }, rffeImage, ⟨1, 0⟩, 0, ⟨[], []⟩, rfl, by decide +kernel⟩),
   ⟨rffeState 0, rffeImage, ⟨0, 0⟩, 0, rfl, by decide +kernel⟩,
   ⟨{ rffeState 1 with pwr := { (at_ .operateTdd).pwr with ready := 0 } }, rffeImage, ⟨1, 0⟩, 0, rfl, by decide +kernel⟩,
   rffeState 1, 0, by decide +kernel⟩

/-- A state with the clocks given. -/
def clkState (m : Mode) (c : Clocks) : State := { at_ m with clk := c }
def oscs (a b : Nat) : Tbl Nat := tset 0 (tset 0 [] 0 a) 1 b

theorem wit_LoopsAndOscillators :
    (∃ s : State, s.clk.plls.getLsbD 0 = true) ∧
    (∃ (s : State) (k : Nat), (k = 1 ∨ k = 2) ∧ s.clk.plls.getLsbD k = true ∧ isOperate s.pwr.mode = true ∧
      s.pwr.trans = none) ∧
    (∃ s : State, pllsRun s = true) ∧ (∃ (s : State) (tr : Trans), s.clk.plls.getLsbD 1 = false ∧ s.pwr.trans = some tr) ∧
    (∃ s : State, ∃ k < 2, oscOf s k = 1 ∧ s.clk.active = 3) ∧
    (∃ s : State, ∃ k < 2, oscOf s k = 1 ∧ searchOn k s = none ∧ s.clk.active = 1 - k) ∧
    (∃ s : State, ∃ k < 2, oscOf s k = 2 ∧ oscOf s (1 - k) = 2 ∧ s.clk.active = k) ∧
    (∃ s : State, ∃ k < 2, oscOf s k = 2 ∧ oscOf s (1 - k) ≠ 1 ∧ oscOf s (1 - k) ≠ 2 ∧ s.clk.active = k ∧ isOperate s.pwr.mode = true ∧
      s.pwr.trans = none) ∧
    (∃ s : State, oscOf s 0 = 2 ∧ oscOf s 1 = 2 ∧ s.clk.active < 2 ∧ isOperate s.pwr.mode = true ∧ s.pwr.trans = none) ∧
    (∃ s : State, oscOf s 0 = 3 ∧ oscMode s 0 ≠ 0 ∧ s.clk.active = 1 ∧ oscOf s 1 = 2) ∧
    (∃ s : State, s.clk.active = 1 ∧ oscOf s 0 = 2 ∧ u s.clk.sources 2 1 = 1) ∧
    (∃ s : State, ∃ k, k < 2 ∧ oscMode s k ≠ 0) ∧ ∃ s : State, oscOf s 0 = 2 ∧ oscOf s 1 = 2 :=
  ⟨⟨clkState .standby { plls := 1 }, by decide⟩, ⟨clkState .operateTdd { plls := 7 }, 2, by decide⟩,
   ⟨clkState .standby { active := 0 }, by decide⟩,
   ⟨{ at_ .standby with pwr := { (at_ .standby).pwr with trans := some (toMode .operateTdd) } }, toMode .operateTdd, by decide⟩,
   ⟨clkState .boot { osc := oscs 0 1 }, 1, by decide⟩, ⟨clkState .standby { osc := oscs 2 1, active := 0 }, 1, by decide⟩,
   ⟨clkState .standby { osc := oscs 2 2, active := 1 }, 1, by decide⟩, ⟨clkState .operateFdd { osc := oscs 2 3, active := 0 }, 0, by decide⟩,
   ⟨clkState .operateFdd { osc := oscs 2 2, active := 1 }, by decide⟩,
   ⟨clkState .standby { osc := oscs 3 2, active := 1, sources := 1 :: zeros 31 }, by decide⟩,
   ⟨clkState .standby { osc := oscs 2 2, active := 1, sources := [1, 1, 1] ++ zeros 29 }, by decide⟩,
   ⟨clkState .standby { sources := [0, 2] ++ zeros 30 }, 1, by decide⟩, clkState .standby { osc := oscs 2 2 }, by decide⟩

/-- Settings of `clk.sources` with SyncE on port 7, both oscillators at 30.72 MHz. -/
def clkSet : List Byte :=
  [1, 1, 1, 1] ++ leBytes 4 30720000 ++ leBytes 4 30720000 ++ leBytes 2 1000 ++ leBytes 2 1000 ++ [7, 11, 1, 1] ++ zeros 12

/-- The same with port 7 up, serving SyncE with code 11. -/
def synceState (ok : Bool) (ql : Nat) : State :=
  { clkState .standby { sources := clkSet, ql := ql, synceOk := ok } with fh := { port := tset {} [] 7 { state := 6 } } }

theorem wit_SyncEAndClockMessages :
    (∃ s : State, u s.clk.sources 3 1 = 1 ∧ s.clk.ql ≠ 15 ∧ s.clk.synceOk = true) ∧
    (∃ s : State, u s.clk.sources 3 1 = 1 ∧ s.clk.synceOk = false ∧ qlGood s s.clk.ql = true ∧ portUp s (u s.clk.sources 16 1) = true) ∧
    (∃ s : State, (u s.clk.sources 19 1).testBit 0 = true ∧ (s.clk.dpll = 0 ∨ s.clk.dpll = 3) ∧ (recordData s 0x0103).isSome = true) ∧
    (∃ ring dma s h, Delivered 0x0705 ring dma s h []) ∧
    (∃ ring dma s h p, Delivered 0x0705 ring dma s h p ∧ p.length = 32 ∧ firstBad (clkChecks p) = none ∧ s.clk.active = 3) ∧
    (∃ ring dma s h p, Delivered 0x0704 ring dma s h p ∧ p.length = 8 ∧ slice p 4 4 = zeros 4 ∧ u p 0 1 = 1 ∧ u p 1 1 ≤ 31 ∧ u p 2 1 ≤ 31 ∧
      u p 1 1 ≠ u p 2 1 ∧ 10 ≤ u p 3 1 ∧ u p 3 1 ≤ 30 ∧ s.clk.mState ≠ 1) ∧
    (∃ s : State, (u s.clk.sources 19 1).testBit 0 = false) ∧
    (∃ s : State, (recordData s 0x0103).isNone = true) ∧
    (∃ ring dma s h p, Delivered 0x0704 ring dma s h p ∧ p.length = 8 ∧ slice p 4 4 = zeros 4 ∧ u p 0 1 = 2 ∧ s.clk.mState ≠ 1) ∧
    (∃ ring dma s h p, Delivered 0x0704 ring dma s h p ∧ p.length = 8 ∧ slice p 4 4 = zeros 4 ∧ u p 0 1 = 2 ∧ s.clk.mState = 1) ∧
    (∃ ring dma s h p, Delivered 0x0704 ring dma s h p ∧ p.length = 8 ∧ slice p 4 4 = zeros 4 ∧ u p 0 1 = 0) ∧
    (∃ (s : State) (n : Nat), s.clk.mState = 1 ∧ 2 ^ 48 ≤ (rhe ((n * 2 ^ 32 : Nat) : Int) (2 ^ s.clk.mGate)).toNat) ∧
    ∃ (s : State) (n : Nat), s.clk.mState = 1 ∧ (rhe ((n * 2 ^ 32 : Nat) : Int) (2 ^ s.clk.mGate)).toNat < 2 ^ 48 :=
  ⟨⟨synceState true 11, by decide⟩,
   ⟨{ synceState false 11 with cfg := { live := imgWrite [] 3 0 [3] } }, by decide +kernel⟩,
   ⟨{ synceState true 11 with nvm := { copy := tset {} [] 0x0206 (goodCopy 0x0103 1 [1]) } }, by decide +kernel⟩,
   ⟨1, _, _, _, dlv 0x0705 1 [] State.reset (by decide)⟩,
   ⟨1, _, hostOn State.reset clkSet, _, clkSet, dlv 0x0705 1 clkSet State.reset (by decide +kernel), by decide +kernel⟩,
   ⟨1, _, hostOn State.reset [1, 31, 0, 30, 0, 0, 0, 0], _, _, dlv 0x0704 1 [1, 31, 0, 30, 0, 0, 0, 0] State.reset (by decide +kernel), by decide +kernel⟩,
   ⟨State.reset, by decide +kernel⟩, ⟨{ State.reset with nvm := { copy := [] } }, by decide +kernel⟩,
   ⟨1, _, _, _, _, dlv 0x0704 1 [2, 0, 0, 0, 0, 0, 0, 0] State.reset (by decide +kernel), by decide⟩,
   ⟨1, _, hostOn (clkState .standby { mState := 1, mGate := 10 }) [2, 0, 0, 0, 0, 0, 0, 0], _, _,
     dlv 0x0704 1 [2, 0, 0, 0, 0, 0, 0, 0] (clkState .standby { mState := 1, mGate := 10 }) (by decide +kernel), by decide⟩,
   ⟨1, _, _, _, _, dlv 0x0704 1 [0, 0, 0, 0, 0, 0, 0, 0] State.reset (by decide +kernel), by decide⟩,
   ⟨clkState .standby { mState := 1, mGate := 10 }, 67108864, by decide +kernel⟩, clkState .standby { mState := 1, mGate := 10 }, 67108863, by decide +kernel⟩

/-- A state whose phase source is 1 PTP or 2 1PPS_IN, with the time registers given. -/
def phased (src : Nat) (t : Time) : State := { at_ .standby with tm := { t with settings := BitVec.ofNat 8 src :: servoDefault.drop 1 } }

/-- PTP with port 7 up and in the PTP port mask, the servo acquiring. -/
def ptpMasked : State :=
  { at_ .standby with
    cfg := { live := imgWrite [] 3 0 [3] }
    fh := { port := tset {} [] 7 { state := 6 } }
    tm := { servo := 1, settings := [1, 1, 24, 128] ++ servoDefault.drop 4 } }

theorem wit_TimeAndPhaseSources :
    (∃ ring dma s h, Delivered 0x0701 ring dma s h []) ∧
    (∃ ring dma s h p, Delivered 0x0701 ring dma s h p ∧ p.length = 144 ∧ firstBad (servoChecks p) = none) ∧
    (∃ ring dma s h p, Delivered 0x0702 ring dma s h p ∧ p.length = 40 ∧ u p 0 1 ≤ 1 ∧ slice p 1 7 = zeros 7 ∧ u p 16 4 ≤ 999999999 ∧
      slice p 22 2 = zeros 2 ∧ (u p 0 1 = 0 → u p 24 10 = 0) ∧ slice p 34 6 = zeros 6 ∧ offsetBarred s.pwr.mode = false ∧
      offsetFits (newOffset p s) s = true ∧ u p 0 1 = 0) ∧
    (∃ ring dma s h p, Delivered 0x0702 ring dma s h p ∧ p.length = 40 ∧ u p 0 1 ≤ 1 ∧ slice p 1 7 = zeros 7 ∧ u p 16 4 ≤ 999999999 ∧
      slice p 22 2 = zeros 2 ∧ (u p 0 1 = 0 → u p 24 10 = 0) ∧ slice p 34 6 = zeros 6 ∧ offsetBarred s.pwr.mode = false ∧
      offsetFits (newOffset p s) s = true ∧ u p 0 1 = 1) ∧
    (∃ ring dma s h, Delivered 0x0703 ring dma s h []) ∧
    (∃ s : State, s.tm.servo = 1 ∨ s.tm.servo = 2) ∧
    (∃ (s : State) (m : PtpMaster), svSource s = 1 ∧
      ∃ p, m.port = some p ∧ ((u s.tm.settings 3 1).testBit p = false ∨ portUp s p = false)) ∧
    (∃ (s : State) (m : PtpMaster), svSource s = 1 ∧ m.port = some 7 ∧ (u s.tm.settings 3 1).testBit 7 = true ∧ portUp s 7 = true ∧
      sameMaster m s.tm.master = false ∧ (s.tm.servo = 1 ∨ s.tm.servo = 2)) ∧
    (∃ (s : State) (m : PtpMaster), svSource s = 1 ∧ m.port = none ∧ sameMaster m s.tm.master = true ∧ m ≠ s.tm.master) ∧
    (∃ s : State, svSource s = 2 ∧ s.pwr.armed = 0 ∧ s.pwr.mode ≠ .deepSleep ∧ s.pwr.ready.getLsbD 4 = true ∧ s.tm.lastPps = none) ∧
    (∃ (s : State) (r : Nat), svSource s = 2 ∧ s.pwr.armed = 0 ∧ s.pwr.mode ≠ .deepSleep ∧ s.pwr.ready.getLsbD 4 = true ∧
      s.tm.lastPps = some r ∧ 1327104000 ≤ s.tm.raw - r ∧ s.tm.raw - r ≤ 1622016000) ∧
    ∃ s : State, svPpsOut s = 2 ∧ s.tm.fine = true ∧ s.tm.ppsOut = none ∧ 1 ≤ svWidth s :=
  ⟨⟨1, _, _, _, dlv 0x0701 1 [] State.reset (by decide)⟩,
   ⟨1, _, hostOn State.reset servoDefault, _, _, dlv 0x0701 1 servoDefault State.reset (by decide +kernel), by decide +kernel⟩,
   ⟨1, _, hostOn State.reset (zeros 40), _, _, dlv 0x0702 1 (zeros 40) State.reset (by decide +kernel), by decide +kernel⟩,
   ⟨1, _, hostOn State.reset (1 :: (zeros 15 ++ leBytes 4 999999999 ++ zeros 20)), _, _,
     dlv 0x0702 1 (1 :: (zeros 15 ++ leBytes 4 999999999 ++ zeros 20)) State.reset (by decide +kernel), by decide +kernel⟩,
   ⟨1, _, _, _, dlv 0x0703 1 [] State.reset (by decide)⟩,
   ⟨phased 1 { servo := 2 }, by decide⟩, ⟨phased 1 { servo := 1 }, ⟨some 7, 0, 0, 0, 0, 0, 0⟩, by decide, 7, rfl, Or.inr (by decide +kernel)⟩,
   ⟨ptpMasked, ⟨some 7, 0, 0, 0, 0, 0, 0⟩, by decide +kernel⟩,
   ⟨phased 1 { servo := 1 }, ⟨none, 0, 0, 0, 0, 0, 37⟩, by decide⟩,
   ⟨phased 2 {}, by decide⟩, ⟨phased 2 { raw := 1622016000, lastPps := some 0 }, 0, by decide⟩,
   { State.reset with tm := { fine := true, settings := servoDefault.set 22 2 } }, by decide +kernel⟩

theorem wit_TimeAndPhaseSources_limit : (∃ e : Int, -65536000000 ≤ e ∧ e = -65536000000 ∧ e ≤ 65536000000) ∧
    ∃ e : Int, -65536000000 ≤ e ∧ e ≤ 65536000000 ∧ e = 65536000000 := ⟨⟨_, by decide, rfl, by decide⟩, _, by decide, by decide, rfl⟩

/-- A device in OPERATE-TDD whose core 7 executes context `x` with registers `r`, that context's slot running. -/
def coreState (x : Nat) (r : TRegs) (q : TSlot := { state := 3, budget := 1000 }) : State :=
  { at_ .operateTdd with core := tset {} [] 7 { cur := x, regs := tset {} [] x r, slot := tset {} [] x q } }

theorem issues {x : Nat} {r : TRegs} (h : canIssue (coreState x r) 7 = true ∧ fetchTrap (coreOf (coreState x r) 7) = none ∧
    (nowRegs 7 (coreState x r)).rpt = none) : Issues 7 (coreState x r) :=
  { can := h.1, fetch := h.2.1, code := rfl, data := rfl, single := h.2.2 }

theorem wit_TrestleIntegerAndPacked :
    (∃ c s, Issues c s) ∧ (∃ c s, ∃ b : TSrc, Issues c s ∧ (srcVal (nowRegs c s) b).toNat = 31) ∧
    (∃ c s, ∃ b : TSrc, Issues c s ∧ (srcVal (nowRegs c s) b).toNat = 32) ∧
    (∃ c s, ∃ (dst src : TReg) (w : TRegs), Issues c s ∧ (coreOf s c).cur = 2 ∧
      writeReg (readReg (nowRegs c s) src) (nowRegs c s) dst = some w ∧ isLoopReg dst = true) ∧
    (∃ c s, ∃ (dst src : TReg) (w : TRegs), Issues c s ∧ (coreOf s c).cur = 0 ∧ isLoopReg dst = false ∧ isLoopReg src = false ∧
      writeReg (readReg (nowRegs c s) src) (nowRegs c s) dst = some w) ∧
    (∃ c s, ∃ dst a b : TPack, Issues c s ∧ (packRegs a).length = (packRegs dst).length ∧ (packRegs b).length = (packRegs dst).length ∧
      (packRegs dst).length = 4) ∧
    (∃ c s, ∃ dst a b : TPack, Issues c s ∧ (packRegs a).length = (packRegs dst).length ∧ (packRegs b).length = (packRegs dst).length ∧
      (packRegs dst).length = 1) ∧
    ∃ z : IQ, z.2 ≠ -32768 :=
  ⟨⟨7, _, issues (x := 2) (r := {}) (by decide +kernel)⟩,
   ⟨7, _, .reg 15, issues (x := 2) (r := { d := tset 0 [] 15 31 }) (by decide +kernel), by decide +kernel⟩,
   ⟨7, _, .reg 15, issues (x := 2) (r := { d := tset 0 [] 15 32 }) (by decide +kernel), by decide +kernel⟩,
   ⟨7, _, .loop 11, .d 15, _, issues (x := 2) (r := {}) (by decide +kernel), rfl, rfl, rfl⟩,
   ⟨7, _, .be, .cyc, _, issues (x := 0) (r := { pc := 0xC000 }) (by decide +kernel), rfl, rfl, rfl, rfl⟩,
   ⟨7, _, .quad 3, .quad 0, .quad 1, issues (x := 2) (r := {}) (by decide +kernel), by decide⟩,
   ⟨7, _, .one 15, .one 0, .one 1, issues (x := 2) (r := {}) (by decide +kernel), by decide⟩, (0, -32767), by decide⟩

/-- Registers at the first word of customer slot 0 with pointer 7 at `v`. -/
def atPtr (v : Word) : TRegs := { pc := 0xC000, p := tset 0 [] 7 v }

theorem wit_TrestleLoadsAndStores :
    (∃ c s, ∃ a : TAddr, Issues c s ∧ (address (nowRegs c s) a).2.2 = true ∧
      (address (nowRegs c s) a).1 < (dataRange (coreOf s c).cur).1) ∧
    (∃ c s, ∃ a : TAddr, Issues c s ∧ (address (nowRegs c s) a).2.2 = true ∧
      (dataRange (coreOf s c).cur).1 + (dataRange (coreOf s c).cur).2 < (address (nowRegs c s) a).1 + 16) ∧
    (∃ c s, ∃ a : TAddr, Issues c s ∧ (address (nowRegs c s) a).2.2 = true ∧
      (dataRange (coreOf s c).cur).1 ≤ (address (nowRegs c s) a).1 ∧
      (address (nowRegs c s) a).1 + 16 ≤ (dataRange (coreOf s c).cur).1 + (dataRange (coreOf s c).cur).2 ∧
      (address (nowRegs c s) a).1 % 4 ≠ 0) ∧
    (∃ c s, ∃ a : TAddr, Issues c s ∧ (address (nowRegs c s) a).2.2 = true ∧
      accessTrap (coreOf s c).cur (address (nowRegs c s) a).1 4 = none) ∧
    ∃ c s, ∃ a : TAddr, Issues c s ∧ (address (nowRegs c s) a).2.2 = true ∧
      accessTrap (coreOf s c).cur (address (nowRegs c s) a).1 16 = none :=
  ⟨⟨7, _, .off 7 (-4), issues (x := 0) (r := atPtr 0x30000) (by decide +kernel), by decide +kernel⟩,
   ⟨7, _, .post 7 508, issues (x := 0) (r := atPtr 0x37FF4) (by decide +kernel), by decide +kernel⟩,
   ⟨7, _, .off 7 1, issues (x := 0) (r := atPtr 0x30000) (by decide +kernel), by decide +kernel⟩,
   ⟨7, _, .post 7 (-512), issues (x := 0) (r := atPtr 0x37FFC) (by decide +kernel), by decide +kernel⟩,
   ⟨7, _, .post 7 16, issues (x := 0) (r := atPtr 0x37FF0) (by decide +kernel), by decide +kernel⟩⟩

theorem wit_TrestleAccumulators :
    (∃ c s, ∃ ad : TAddr, Issues c s ∧ (address (nowRegs c s) ad).2.2 = true ∧
      accessTrap (coreOf s c).cur (address (nowRegs c s) ad).1 16 = none) ∧
    (∃ c s, ∃ (d : Fin 16) (sh : Int) (w : Nat), Issues c s ∧ -8 ≤ sh ∧ sh ≤ 31 ∧ w ∈ [16, 18, 32] ∧ (w = 16 ∨ d.val % 2 = 0) ∧ sh = -8 ∧ w = 16) ∧
    ∃ c s, ∃ (d : Fin 16) (sh : Int) (w : Nat), Issues c s ∧ -8 ≤ sh ∧ sh ≤ 31 ∧ w ∈ [16, 18, 32] ∧ (w = 16 ∨ d.val % 2 = 0) ∧ sh = 31 ∧ w = 32 :=
  ⟨⟨7, _, .off 7 0, issues (x := 0) (r := atPtr 0x37FF0) (by decide +kernel), by decide +kernel⟩,
   ⟨7, _, 15, -8, 16, issues (x := 0) (r := atPtr 0) (by decide +kernel), by decide⟩,
   7, _, 14, 31, 32, issues (x := 0) (r := atPtr 0) (by decide +kernel), by decide⟩

theorem wit_TrestleNormaliseResults :
    (∃ c s, ∃ m : Fin 8, Issues c s ∧ accessTrap (coreOf s c).cur (pReg (nowRegs c s) m.val).toNat 16 = none) ∧
    ∃ (w : Nat) (v : Int), 1 ≤ w ∧ -(2 ^ (w - 1)) ≤ v ∧ v < 2 ^ (w - 1) ∧ signBits w v + 1 < w :=
  ⟨⟨7, _, 7, issues (x := 0) (r := atPtr 0x37FF0) (by decide +kernel), by decide +kernel⟩, 16, -32768, by decide +kernel⟩

theorem wit_TrestleControlResults :
    (∃ c s, ∃ cond : TCond, Issues c s ∧ cond.getLsbD (8 * b2n (nowRegs c s).v + 4 * b2n (nowRegs c s).c + 2 * b2n (nowRegs c s).n + b2n (nowRegs c s).z) = true) ∧
    (∃ c s, ∃ cond : TCond, Issues c s ∧ cond.getLsbD (8 * b2n (nowRegs c s).v + 4 * b2n (nowRegs c s).c + 2 * b2n (nowRegs c s).n + b2n (nowRegs c s).z) = false) ∧
    (∃ c s, Issues c s ∧ (nowRegs c s).stack.length < 4) ∧ (∃ c s x xs, Issues c s ∧ (nowRegs c s).stack = x :: xs) ∧
    (∃ c s, ∃ d : Fin 16, Issues c s ∧ 4096 < (dReg (nowRegs c s) d.val).toNat) ∧
    (∃ c s, ∃ d : Fin 16, Issues c s ∧ dReg (nowRegs c s) d.val = 0) ∧
    (∃ n : Nat, 1 ≤ n ∧ n ≤ 4096 ∧ n = 4096) ∧ (∃ n : Nat, 4096 < n) ∧
    (∃ c s n, Issues c s ∧ (coreOf s c).cur = 2 ∧ 1 ≤ n ∧ n ≤ 65535 ∧ (nowRegs c s).depth < 4) ∧
    (∃ (r : TRegs) (next l : Nat), r.depth = l + 1 ∧ l < 4 ∧ next % 65536 ≠ (tget 0 r.le l + 4) % 65536) ∧
    (∃ (r : TRegs) (next l : Nat), r.depth = l + 1 ∧ l < 4 ∧ next % 65536 = (tget 0 r.le l + 4) % 65536 ∧ 1 < tget 0 r.lc l) ∧
    ∃ (r : TRegs) (next l : Nat), r.depth = l + 1 ∧ l < 4 ∧ next % 65536 = (tget 0 r.le l + 4) % 65536 ∧ tget 0 r.lc l ≤ 1 :=
  ⟨⟨7, _, 0x8000, issues (x := 2) (r := { z := true, n := true, c := true, v := true }) (by decide +kernel), by decide +kernel⟩,
   ⟨7, _, 0xFFFE, issues (x := 2) (r := {}) (by decide +kernel), by decide +kernel⟩,
   ⟨7, _, issues (x := 0) (r := { pc := 0xC000, stack := [0, 0, 0] }) (by decide +kernel), by decide +kernel⟩,
   ⟨7, _, 0xC004, [], issues (x := 0) (r := { pc := 0xC000, stack := [0xC004] }) (by decide +kernel), by decide +kernel⟩,
   ⟨7, _, 15, issues (x := 2) (r := { d := tset 0 [] 15 4097 }) (by decide +kernel), by decide +kernel⟩,
   ⟨7, _, 15, issues (x := 2) (r := {}) (by decide +kernel), by decide +kernel⟩, ⟨4096, by decide⟩, ⟨4097, by decide⟩,
   ⟨7, _, 65535, issues (x := 2) (r := { depth := 3 }) (by decide +kernel), by decide +kernel⟩,
   ⟨{ depth := 4 }, 8, 3, by decide⟩, ⟨{ depth := 4, lc := tset 0 [] 3 2, le := tset 0 [] 3 0xFFFC }, 0, 3, by decide⟩,
   { depth := 1, lc := tset 0 [] 0 1 }, 4, 0, by decide⟩

theorem wit_TrestleRunsAndQuanta :
    (∃ c s, Issues c s ∧ (coreOf s c).cur ≠ 2 ∧ (dReg (nowRegs c s) 0).toNat ≤ 4096 ∧ (nowRegs c s).poison = true) ∧
    (∃ c s, Issues c s ∧ (coreOf s c).cur ≠ 2 ∧ 4096 < (dReg (nowRegs c s) 0).toNat) ∧ (∃ c s, Issues c s ∧ (coreOf s c).cur = 2) ∧
    (∃ c s n, c < 8 ∧ s.pwr.ready.getLsbD 9 = true ∧ (nowRegs c s).rpt = none ∧ (coreOf s c).cur = 2 ∧ n < 2 ∧
      ((coreOf s c).quantum + 1) % 8 = 7 ∧ hasWork (coreOf s c) n = true ∧ hasWork (coreOf s c) (1 - n) = false) ∧
    (∃ c s, c < 8 ∧ s.pwr.ready.getLsbD 9 = true ∧ (nowRegs c s).rpt = none ∧ 12000 ≤ (coreOf s c).qcyc ∧
      (nowRegs c s).cyc < (tslotOf (coreOf s c) (coreOf s c).cur).budget ∧ ((coreOf s c).quantum + 1) % 8 = 7 ∧
      hasWork (coreOf s c) 0 = true ∧ hasWork (coreOf s c) 1 = true) ∧
    (∃ c s, c < 8 ∧ s.pwr.ready.getLsbD 9 = true ∧ (nowRegs c s).rpt = none ∧ (coreOf s c).cur = 2 ∧ ((coreOf s c).quantum + 1) % 8 = 7 ∧
      hasWork (coreOf s c) 0 = false ∧ hasWork (coreOf s c) 1 = false) ∧
    ∃ c s, c < 8 ∧ s.pwr.ready.getLsbD 9 = true ∧ (nowRegs c s).rpt = none ∧ (coreOf s c).cur ≠ 2 ∧
      (tslotOf (coreOf s c) (coreOf s c).cur).state = 3 ∧ (tslotOf (coreOf s c) (coreOf s c).cur).budget ≤ (nowRegs c s).cyc :=
  ⟨⟨7, _, issues (x := 0) (r := { pc := 0xC000, d := tset 0 [] 0 4096, poison := true }) (by decide +kernel), by decide +kernel⟩,
   ⟨7, _, issues (x := 0) (r := { pc := 0xC000, d := tset 0 [] 0 4097 }) (by decide +kernel), by decide +kernel⟩,
   ⟨7, _, issues (x := 2) (r := {}) (by decide +kernel), by decide +kernel⟩,
   ⟨7, { at_ .operateTdd with core := tset {} [] 7 { quantum := 6, slot := tset {} [] 1 { state := 2 } } }, 1, by decide +kernel⟩,
   ⟨0, { at_ .operateTdd with core := tset {} [] 0 { cur := 0, quantum := 6, qcyc := 12000, slot := tset {} (tset {} [] 0 { state := 3, budget := 1 }) 1 { state := 2 } } }, by decide +kernel⟩,
   ⟨7, { at_ .operateTdd with core := tset {} [] 7 { quantum := 6 } }, by decide +kernel⟩,
   7, coreState 1 { cyc := 1000 }, by decide +kernel⟩

theorem wit_TrestleTraps :
    (∃ c s, (coreOf s c).cur ≠ 2) ∧ (∃ c s f, canIssue s c = true ∧ fetchTrap (coreOf s c) = some f) ∧
    (∃ c s, canIssue s c = true ∧ (coreOf s c).cur ≠ 2 ∧ (nowRegs c s).pc < codeBase (coreOf s c).cur) ∧
    (∃ c s, canIssue s c = true ∧ (coreOf s c).cur ≠ 2 ∧ codeBase (coreOf s c).cur + 0x2000 ≤ (nowRegs c s).pc) ∧
    (∃ c s, Issues c s ∧ (coreOf s c).cur ≠ 2 ∧ 4 ≤ (nowRegs c s).stack.length) ∧
    (∃ c s, Issues c s ∧ (coreOf s c).cur ≠ 2 ∧ (nowRegs c s).stack = []) ∧
    (∃ c s n, Fetches c s ∧ (nowRegs c s).rpt = some n) ∧ (∃ c s, (coreOf s c).cur = 2) ∧
    (∃ c s, canIssue s c = true ∧ fetchTrap (coreOf s c) = none ∧ wordError s 6 (fetchWord s c) = some true) ∧
    ∃ c s, ∃ m : Fin 8, ∃ o : Int, canIssue s c = true ∧ fetchTrap (coreOf s c) = none ∧ wordError s 6 (fetchWord s c) = none ∧
      (nowRegs c s).rpt = none ∧ accessTrap (coreOf s c).cur (pReg (nowRegs c s) m.val + BitVec.ofInt 32 o).toNat 4 = none ∧
      ((pReg (nowRegs c s) m.val + BitVec.ofInt 32 o).toNat / 8, true) ∈ (envOf s c).bad :=
  ⟨⟨7, coreState 1 {}, by decide⟩, ⟨7, coreState 2 { pc := 2 }, 7, by decide +kernel⟩, ⟨7, coreState 0 { pc := 0xBFFC }, by decide +kernel⟩,
   ⟨7, coreState 0 { pc := 0xE000 }, by decide +kernel⟩,
   ⟨7, _, issues (x := 1) (r := { pc := 0xE000, stack := [0, 0, 0, 0] }) (by decide +kernel), by decide +kernel⟩,
   ⟨7, _, issues (x := 1) (r := { pc := 0xFFFC }) (by decide +kernel), by decide +kernel⟩,
   ⟨7, coreState 2 { rpt := some 4096 }, 4096, ⟨by decide +kernel, by decide +kernel, rfl, rfl⟩, by decide +kernel⟩,
   ⟨7, coreState 2 {}, by decide⟩,
   ⟨7, { coreState 2 {} with ls := { bad := [⟨6, localWord 7 32768, true, false⟩] } }, by decide +kernel⟩,
   7, { coreState 0 { pc := 0xC000, p := tset 0 [] 7 0x37FFC } with ls := { bad := [⟨6, localWord 7 0x6FFF, true, true⟩] } }, 7, 0,
   by decide +kernel⟩

theorem wit_RepeatRunsEveryIteration :
    (∃ (c n : Nat) (s : State), Fetches c s ∧ (nowRegs c s).rpt = some (n + 1) ∧
      (tslotOf (coreOf s c) (coreOf s c).cur).abortHeld = false ∧ n = 4095) ∧
    ∃ (c n : Nat) (s : State) (m : Fin 8) (inc : Int), Fetches c s ∧ (nowRegs c s).rpt = some n ∧
      (tslotOf (coreOf s c) (coreOf s c).cur).abortHeld = false ∧ -512 ≤ inc ∧ inc ≤ 508 ∧ inc % 4 = 0 ∧
      ∀ j < n, accessTrap (coreOf s c).cur (pReg (nowRegs c s) m.val + BitVec.ofInt 32 (inc * j)).toNat 4 = none :=
  ⟨⟨7, 4095, coreState 2 { rpt := some 4096 }, ⟨by decide +kernel, by decide +kernel, rfl, rfl⟩, by decide +kernel⟩,
   7, 3, coreState 0 { pc := 0xC000, p := tset 0 [] 7 0x37FFC, rpt := some 3 }, 7, -512, ⟨by decide +kernel, by decide +kernel, rfl, rfl⟩, by decide +kernel⟩

/-- A `trestle.kernel_load` of `cores` into slot 1: 4 bytes of code, no data, entry 0, budget 1,200,000,000. -/
def loadMsg (cores : Nat) : List Byte :=
  leBytes 2 (cores + 256) ++ zeros 14 ++ ascii "TKRN" ++ leBytes 2 1 ++ leBytes 2 64 ++ zeros 12 ++ leBytes 4 4 ++ zeros 8 ++
    leBytes 4 1200000000 ++ zeros 28 ++ zeros 100
def startMsg (op : Nat) : List Byte := [BitVec.ofNat 8 op, 7, 1, 0] ++ leBytes 4 0xFFFFFFFF ++ zeros 56

/-- PROVISIONED with a key, slot 1 of core 7 in state `n`. -/
def trestleState (n : Nat) : State :=
  { at_ .standby with
    life := { cells := 15, key0 := keyed }
    core := tset {} [] 7 { slot := tset {} [] 1 { state := n } } }

/-- Of a load, the signature's verification (`Config.signatureOk`) is open: the witness supposes it. -/
theorem wit_TrestleMessages :
    (Config.signatureOk baseP384 (slice (loadMsg 255) 16 68) (slice (loadMsg 255) 84 96) = true →
      ∃ ring dma s h p key, Delivered 0x0B01 ring dma s h p ∧ p.length = 80 + u p 36 4 + u p 40 4 + 96 ∧ firstBad (loadChecks p) = none ∧
        stageNow s ∈ [.provisioned, .field, .return_] ∧ keyInForce s = some key ∧ s.pwr.ready.getLsbD 9 = true ∧
        (∀ c < 8, (u p 0 1).testBit c = true → hasWork (coreOf s c) (u p 1 1) = false) ∧ u p 32 4 ≤ s.sys.idFw ∧
        Config.signatureOk key (slice p 16 (64 + u p 36 4 + u p 40 4)) (slice p (80 + u p 36 4 + u p 40 4) 96) = true) ∧
    (∃ ring dma s h p, Delivered 0x0B02 ring dma s h p ∧ p.length = 64 ∧ firstBad (startChecks p (consumed ring h s)) = none ∧
      s.pwr.ready.getLsbD 9 = true ∧ (tslotOf (coreOf s (u p 1 1)) (u p 2 1)).state ≠ 0 ∧ u p 0 1 = 1 ∧
      hasWork (coreOf s (u p 1 1)) (u p 2 1) = false) ∧
    (∃ ring dma s h p, Delivered 0x0B02 ring dma s h p ∧ p.length = 64 ∧ firstBad (startChecks p (consumed ring h s)) = none ∧
      s.pwr.ready.getLsbD 9 = true ∧ u p 0 1 = 2 ∧ (tslotOf (coreOf s (u p 1 1)) (u p 2 1)).state = 2) ∧
    (∃ ring dma s h p, Delivered 0x0B02 ring dma s h p ∧ p.length = 64 ∧ firstBad (startChecks p (consumed ring h s)) = none ∧
      s.pwr.ready.getLsbD 9 = true ∧ u p 0 1 = 2 ∧ (tslotOf (coreOf s (u p 1 1)) (u p 2 1)).state = 3 ∧
      (regsOf (coreOf s (u p 1 1)) (u p 2 1)).rpt = none) ∧
    ∃ ring dma s h p, Delivered 0x0B03 ring dma s h p ∧ p.length = 4 ∧ u p 0 1 ≤ 7 ∧ u p 1 1 ≤ 1 ∧ slice p 2 2 = zeros 2 :=
  ⟨fun hs => ⟨1, _, hostOn (trestleState 4) (loadMsg 255), _, loadMsg 255, baseP384, dlv 0x0B01 1 _ (trestleState 4) (by decide +kernel),
     by decide +kernel, by decide +kernel, by decide +kernel, by decide +kernel, by decide +kernel, by decide +kernel, by decide +kernel, by
       rw [show 64 + u (loadMsg 255) 36 4 + u (loadMsg 255) 40 4 = 68 by decide +kernel,
         show 80 + u (loadMsg 255) 36 4 + u (loadMsg 255) 40 4 = 84 by decide +kernel]
       exact hs⟩,
   ⟨1, _, hostOn (trestleState 6) (startMsg 1), _, _, dlv 0x0B02 1 (startMsg 1) (trestleState 6) (by decide +kernel), by decide +kernel⟩,
   ⟨1, _, hostOn (trestleState 2) (startMsg 2), _, _, dlv 0x0B02 1 (startMsg 2) (trestleState 2) (by decide +kernel), by decide +kernel⟩,
   ⟨1, _, hostOn (trestleState 3) (startMsg 2), _, _, dlv 0x0B02 1 (startMsg 2) (trestleState 3) (by decide +kernel), by decide +kernel⟩,
   1, _, _, _, [7, 1, 0, 0], dlv 0x0B03 1 _ State.reset (by decide), by decide⟩

theorem length_imgBytes (im : Image) (sec n o : Nat) : (imgBytes im sec o n).length = n := by
  induction n generalizing o with
  | zero => rfl
  | succ n ih => rw [imgBytes, List.length_cons, ih]

theorem putBytes_reset (sec n o : Nat) : putBytes sec o [] (imgBytes [] sec o n) = [] := by
  induction n generalizing o with
  | zero => rfl
  | succ n ih =>
    have h : imgByte [] sec o = resetByte sec o := rfl
    rw [imgBytes, putBytes, h, tset, if_pos rfl]
    exact ih (o + 1)

/-- Writing back a section's reset content leaves the reset image. -/
theorem imgWrite_reset (sec n : Nat) : imgWrite [] sec 0 (imgBytes [] sec 0 n) = [] := by
  rw [imgWrite, show tget [] ([] : Image) sec = [] from rfl, putBytes_reset, tset, if_pos rfl]
  rfl

/-- Every field of a walk is the field at some offset. -/
theorem mem_fieldsFrom {sec hi fuel o : Nat} {f : Fld} (h : f ∈ fieldsFrom sec hi fuel o) : ∃ x, f = fldAt sec x := by
  induction fuel generalizing o with
  | zero => exact absurd h List.not_mem_nil
  | succ n ih =>
    rw [fieldsFrom] at h
    split at h
    · exact absurd h List.not_mem_nil
    · rcases List.mem_cons.1 h with h | h
      · exact ⟨o, h⟩
      · exact ih h

theorem fldAt_3 (o : Nat) : fldAt 3 o =
    if o = 0 then fR 0 1 1 5 else if o < 5 then fR o 1 0 23 else if o < 7 then fAny o 1 else if o = 7 then fR 7 1 1 2
    else if o < 40 then fI o 1 (-12) 12 else if o < 42 then fR o 1 1 2
    else if 64 ≤ o ∧ o < 1088 then fldPort (64 + (o - 64) / 128 * 128) ((o - 64) % 128) else fZ o := rfl

theorem size_else {c : Prop} [Decidable c] {a d : Fld} (h : (if c then a else d).size = 6) (ha : a.size ≠ 6) : d.size = 6 := by
  by_cases hc : c
  · rw [if_pos hc] at h
    exact absurd h ha
  · rw [if_neg hc] at h
    exact h

theorem fldPort_size (b r : Nat) (h : (fldPort b r).size = 6) : r < 6 := by
  by_cases hr : r < 6
  · exact hr
  · rw [fldPort, if_neg hr] at h
    iterate 12 replace h := size_else h (by simp [fR, fAny, fZ])
    simp [fZ] at h

/-- A MAC address field of section 3 admits its reset value, which is no group address. -/
theorem mac_good (x : Nat) (h : (fldAt 3 x).size = 6) : (fldAt 3 x).good (cf [] 3 (fldAt 3 x).start (fldAt 3 x).size) = true := by
  have key : 64 ≤ x ∧ x < 1088 := by
    by_contra hx
    rw [fldAt_3, if_neg hx] at h
    iterate 6 replace h := size_else h (by simp [fR, fAny, fI])
    simp [fZ] at h
  obtain ⟨h1, h2⟩ := key
  have e : fldAt 3 x = fldPort (64 + (x - 64) / 128 * 128) ((x - 64) % 128) := by
    rw [fldAt_3, if_neg (by omega), if_neg (by omega), if_neg (by omega), if_neg (by omega), if_neg (by omega), if_neg (by omega), if_pos ⟨h1, h2⟩]
  have h3 : (x - 64) % 128 < 6 := fldPort_size _ _ (e ▸ h)
  rw [e, fldPort, if_pos h3]
  have b : ∀ n < 8, (resetByte 3 (64 + n * 128)).toNat = 2 := by decide
  simp only [cf, imgBytes, leNat, decide_eq_true_eq]
  have h0 : (imgByte [] 3 (64 + (x - 64) / 128 * 128)).toNat = 2 := b _ (by omega)
  omega

theorem stage3 : stageVerdict 3 0 (imgBytes [] 3 0 4096) [] = none := by
  unfold stageVerdict
  rw [imgWrite_reset, length_imgBytes]
  have g : (fieldsFrom 3 (0 + 4096) 4096 0).find? (fun f => !f.good (cf [] 3 f.start f.size)) = none := by
    rw [List.find?_eq_none]
    intro f hf
    by_cases hs : f.size = 6
    · obtain ⟨x, rfl⟩ := mem_fieldsFrom hf
      simp [mac_good x hs]
    · have := (by decide +kernel : ∀ f ∈ fieldsFrom 3 (0 + 4096) 4096 0, (decide (f.size = 6) || f.good (cf [] 3 f.start f.size)) = true) f hf
      simpa [hs] using this
  have a : (fieldsFrom 3 (0 + 4096) 4096 0).find? (fun f => decide (f.start < 0) || decide (0 + 4096 < f.start + f.size)) = none := by decide +kernel
  rw [if_neg (by decide)]
  simp only [a, g]
  exact congrArg List.head? (List.filterMap_eq_nil_iff.2 fun f _ => rfl)
theorem stage7 : stageVerdict 7 0 (imgBytes [] 7 0 8192) [] = none := by
  unfold stageVerdict
  rw [imgWrite_reset, length_imgBytes]
  decide +kernel

/-- A state with an armed commit of the reset image, at boundary 1 s. -/
def armedState : State := { at_ .standby with cfg := { armed := some ([], ⟨100, 39⟩) } }

theorem wit_ConfigurationMessages :
    (∃ ring dma s h p, Delivered 0x0201 ring dma s h p ∧ p.length = 12 + u p 8 4 ∧ sectionSize (u p 0 2) ≠ 0 ∧ slice p 2 2 = zeros 2 ∧
      u p 4 4 < sectionSize (u p 0 2) ∧ u p 4 4 + u p 8 4 ≤ sectionSize (u p 0 2) ∧ u p 8 4 ≤ 16340 ∧
      stageVerdict (u p 0 2) (u p 4 4) (p.drop 12) s.cfg.staged = none ∧ u p 8 4 ≠ 0) ∧
    (∃ ring dma s h p, Delivered 0x0C01 ring dma s h p ∧ p.length = sectionSize 3 ∧ stageVerdict 3 0 p s.cfg.staged = none) ∧
    (∃ ring dma s h p, Delivered 0x0303 ring dma s h p ∧ p.length = sectionSize 6 ∧ stageVerdict 6 0 p s.cfg.staged = none) ∧
    (∃ ring dma s h p, Delivered 0x0401 ring dma s h p ∧ p.length = sectionSize 7 ∧ stageVerdict 7 0 p s.cfg.staged = none) ∧
    (∃ ring dma s h p, Delivered 0x0405 ring dma s h p ∧ p.length = sectionSize 8 ∧ stageVerdict 8 0 p s.cfg.staged = none) ∧
    (∃ ring dma s h p, Delivered 0x0203 ring dma s h p ∧ p.length = 4 ∧ u p 0 1 ≤ 1 ∧ slice p 1 3 = zeros 3 ∧ s.cfg.armed = none) ∧
    (∃ ring dma s h p im b, Delivered 0x0203 ring dma s h p ∧ p.length = 4 ∧ u p 0 1 ≤ 1 ∧ slice p 1 3 = zeros 3 ∧
      s.cfg.armed = some (im, b) ∧ u p 0 1 = 0) ∧
    (∃ ring dma s h p im b, Delivered 0x0203 ring dma s h p ∧ p.length = 4 ∧ u p 0 1 ≤ 1 ∧ slice p 1 3 = zeros 3 ∧
      s.cfg.armed = some (im, b) ∧ u p 0 1 = 1 ∧ nowU s + (msU : Int) ≤ boundaryU b) ∧
    ∀ which, which ≤ 2 → ∃ ring dma s h p im, Delivered 0x0204 ring dma s h p ∧ p.length = 12 ∧ slice p 1 1 = zeros 1 ∧
      u p 4 4 < sectionSize (u p 2 2) ∧ u p 8 4 ≤ 16316 ∧ u p 4 4 + u p 8 4 ≤ sectionSize (u p 2 2) ∧ u p 0 1 = which ∧
      ((u p 0 1 = 0 ∧ im = s.cfg.live) ∨ (u p 0 1 = 1 ∧ im = s.cfg.staged) ∨ (u p 0 1 = 2 ∧ ∃ b, s.cfg.armed = some (im, b))) := by
  refine ⟨⟨1, _, hostOn (at_ .standby) ([12, 0, 0, 0] ++ leBytes 4 0 ++ leBytes 4 1 ++ [127]), _, _,
      dlv 0x0201 1 _ (at_ .standby) (by decide +kernel), by decide +kernel⟩,
    ⟨1, _, hostOn (at_ .standby) (imgBytes [] 3 0 4096), _, _, dlv 0x0C01 1 _ (at_ .standby) (by rw [length_imgBytes]; decide), length_imgBytes .., stage3⟩,
    ⟨1, _, hostOn (at_ .standby) (imgBytes [] 6 0 1024), _, _, dlv 0x0303 1 _ (at_ .standby) (by decide +kernel), by decide +kernel, by decide +kernel⟩,
    ⟨1, _, hostOn (at_ .standby) (imgBytes [] 7 0 8192), _, _, dlv 0x0401 1 _ (at_ .standby) (by rw [length_imgBytes]; decide), length_imgBytes .., stage7⟩,
    ⟨1, _, hostOn (at_ .standby) (imgBytes [] 8 0 1024), _, _, dlv 0x0405 1 _ (at_ .standby) (by decide +kernel), by decide +kernel, by decide +kernel⟩,
    ⟨1, _, _, _, [1, 0, 0, 0], dlv 0x0203 1 _ State.reset (by decide), by decide, by decide, by decide, rfl⟩,
    ⟨1, _, _, _, [0, 0, 0, 0], [], ⟨100, 39⟩, dlv 0x0203 1 _ armedState (by decide), by decide, by decide, by decide, rfl, by decide⟩,
    ⟨1, _, _, _, [1, 0, 0, 0], [], ⟨100, 39⟩, dlv 0x0203 1 _ armedState (by decide), by decide, by decide, by decide, rfl, by decide, by decide +kernel⟩, ?_⟩
  intro which hw
  match which, hw with
  | 0, _ => exact ⟨1, _, _, _, [0, 0, 12, 0, 255, 7, 0, 0, 1, 0, 0, 0], _, dlv 0x0204 1 _ armedState (by decide), by decide, by decide, by decide, by decide,
      by decide, by decide, Or.inl ⟨by decide, rfl⟩⟩
  | 1, _ => exact ⟨1, _, _, _, [1, 0, 1, 0, 255, 0, 0, 0, 1, 0, 0, 0], _, dlv 0x0204 1 _ armedState (by decide), by decide, by decide, by decide, by decide,
      by decide, by decide, Or.inr (Or.inl ⟨by decide, rfl⟩)⟩
  | 2, _ => exact ⟨1, _, _, _, [2, 0, 1, 0, 0, 0, 0, 0, 0, 1, 0, 0], [], dlv 0x0204 1 _ armedState (by decide), by decide, by decide, by decide, by decide,
      by decide, by decide, Or.inr (Or.inr ⟨by decide, ⟨100, 39⟩, rfl⟩)⟩

/-- `cfg.commit` at the earliest boundary, or at a named one. -/
def commitMsg (timing count frame : Nat) : List Byte := leBytes 4 timing ++ leBytes 4 count ++ leBytes 8 frame ++ zeros 8

/-- An image with bus 0 of RFFE enabled. -/
def rffeOnly : Image := imgWrite [] 12 1024 [1]

theorem wit_CommitArmsAndGoesLive :
    (∃ ring dma s h p, ∃ b : Boundary, Delivered 0x0202 ring dma s h p ∧ p.length = 24 ∧ u p 0 1 ≤ 1 ∧ slice p 1 3 = zeros 3 ∧
      slice p 17 7 = zeros 7 ∧ (u p 0 1 = 0 → u p 16 1 ≤ 39) ∧ commitMode s.pwr.mode = true ∧ s.cfg.armed = none ∧ s.cfg.arming = none ∧
      (u p 4 4 = 0xFFFFFFFF ∨ u p 4 4 = s.cfg.count) ∧ u p 0 1 = 1 ∧
      b = earliestBoundary s.cfg.live s.cfg.staged (nowU s + 2 * (msU : Int)) ∧
      firstCheck (checks2to21 s.cfg.live s.cfg.staged (boundaryU b % frameU / tickU).toNat 
        (s.rf.txEnable && isService s.pwr.mode && !protectiveEntry s) s.rf.rxEnable) = none ∧
      s.pwr.mode = .bringUp ∧ check23 s.cfg.staged = none) ∧
    (∃ ring dma s h p, ∃ b : Boundary, Delivered 0x0202 ring dma s h p ∧ p.length = 24 ∧ u p 0 1 ≤ 1 ∧ slice p 1 3 = zeros 3 ∧
      slice p 17 7 = zeros 7 ∧ (u p 0 1 = 0 → u p 16 1 ≤ 39) ∧ commitMode s.pwr.mode = true ∧ s.cfg.armed = none ∧ s.cfg.arming = none ∧
      (u p 4 4 = 0xFFFFFFFF ∨ u p 4 4 = s.cfg.count) ∧ u p 0 1 = 0 ∧
      b = ⟨u p 8 8, u p 16 1⟩ ∧ nowU s + 2 * (msU : Int) ≤ boundaryU b ∧ boundaryU b ≤ nowU s + 60 * (secU : Int) ∧
      check22 s.cfg.live s.cfg.staged b.quarter = none ∧
      firstCheck (checks2to21 s.cfg.live s.cfg.staged (boundaryU b % frameU / tickU).toNat 
        (s.rf.txEnable && isService s.pwr.mode && !protectiveEntry s) s.rf.rxEnable) = none ∧
      s.pwr.mode ≠ .bringUp) ∧
    (∃ (s : State) (a : Asker) (b : Boundary) (r : Nat) (im : Image), s.cfg.arming = some ⟨a, b, r, im⟩ ∧ nowU s ≤ armLimit b) ∧
    ∃ (s : State) (im : Image) (b : Boundary), s.cfg.armed = some (im, b) :=
  ⟨⟨1, _, hostOn (at_ .bringUp) (commitMsg 1 0xFFFFFFFF 0), _, _, _, dlv 0x0202 1 _ (at_ .bringUp) (by decide +kernel), by decide +kernel, by decide +kernel,
     by decide +kernel, by decide +kernel, by decide +kernel, by decide, rfl, rfl, by decide +kernel, by decide +kernel, rfl,
     by decide +kernel, rfl, by decide +kernel⟩,
   ⟨1, _, hostOn (at_ .standby) (commitMsg 0 0 6000), _, _, _, dlv 0x0202 1 _ (at_ .standby) (by decide +kernel), by decide +kernel, by decide +kernel,
     by decide +kernel, by decide +kernel, by decide +kernel, by decide, rfl, rfl, by decide +kernel, by decide +kernel, rfl,
     by decide +kernel, by decide +kernel, by decide +kernel, by decide +kernel, by decide +kernel⟩,
   ⟨{ at_ .standby with cfg := { arming := some ⟨{}, ⟨1, 0⟩, 0, rffeOnly⟩ } }, {}, ⟨1, 0⟩, 0, rffeOnly, rfl, by decide +kernel⟩, armedState, [], ⟨100, 39⟩, rfl⟩

/-- A state with port `n` of port mode 3 as given. -/
def portState (n : Nat) (q : Port) (c : Clocks := {}) : State :=
  { at_ .standby with cfg := { live := imgWrite [] 3 0 [3] }, fh := { port := tset {} [] n q }, clk := c }

/-- Port 7 as given, serving PTP as its master's port. -/
def ptpPort (q : Port) : State :=
  { portState 7 q with tm := { master := ⟨some 7, 0, 0, 0, 0, 0, 0⟩, settings := [1, 1, 24, 128] ++ servoDefault.drop 4 } }

/-- The PTP master stands behind port `n`, and the port is up. -/
def PtpReady (s : State) (n : Nat) : Prop :=
  svSource s = 1 ∧ s.tm.master.port = some n ∧ (u s.tm.settings 3 1).testBit n = true ∧ portUp s n = true

theorem portOf_ptp (q : Port) : portOf (ptpPort q) 7 = q := by
  show tget {} (tset {} [] 7 q) 7 = q
  rw [tget_tset, if_pos rfl]

theorem ptpReady (q : Port) (h : q.state = 6) : PtpReady (ptpPort q) 7 := by
  refine ⟨rfl, rfl, (by decide : (128 : Nat).testBit 7 = true), ?_⟩
  rw [portUp, portOf_ptp, h]
  exact (by decide +kernel : (portExists (portState 7 {}) 7 && (at_ .standby).pwr.ready.getLsbD 3 && decide (6 = 6)) = true)

theorem lineU_pos (s : State) (k : Nat) (hm : macRate (portMode s.cfg.live) = 100) : 0 < lineU s (k + 12) := by
  rw [lineU, hm, ceilDiv]
  change (0 : Int) < _
  push_cast
  omega

/-- On an idle line the Delay_Req starts at once. -/
theorem ptpLine (q : Port) (hb : q.busy = 0) (hq : q.queue = []) (hk : q.kept = []) (hl : q.line = none) : 
   let s := ptpPort q
   let n := 7
   let t3 : Instant := 0
      let start := max (portOf s n).busy (min t3 (nowU s))
      let f := formed (imageAt s start) n (delayReqFrame s n (min t3 (nowU s)))
      (portOf s n).queue = [] ∧ (portOf s n).kept = [] ∧ (portOf s n).line = none ∧ start ≤ nowU s ∧
      nowU s < start + lineU s (f.length + 12) := by
  intro s n t3 start f
  have e : portOf s n = q := portOf_ptp q
  have h0 : nowU s = 0 := (by decide +kernel : nowU State.reset = 0)
  have hs : start = 0 := by
    show max (portOf s n).busy (min t3 (nowU s)) = 0
    rw [e, hb, h0]; rfl
  rw [e, hs, h0, zero_add]
  exact ⟨hq, hk, hl, le_refl _, lineU_pos s _ (by decide +kernel : macRate (portMode (portState 7 {}).cfg.live) = 100)⟩

theorem wit_FronthaulPorts :
    (∃ ring dma s h p, Delivered 0x0C02 ring dma s h p ∧ p.length = 4 ∧ u p 0 1 ≤ 7 ∧ slice p 1 3 = zeros 3) ∧
    (∃ ring dma s h p, Delivered 0x0C03 ring dma s h p ∧ p.length = 4 ∧ u p 0 1 ≤ 7 ∧ slice p 2 2 = zeros 2 ∧ u p 1 1 ≤ 1 ∧ u p 1 1 = 0) ∧
    (∃ ring dma s h p, Delivered 0x0C03 ring dma s h p ∧ p.length = 4 ∧ u p 0 1 ≤ 7 ∧ slice p 2 2 = zeros 2 ∧ u p 1 1 ≤ 1 ∧ u p 1 1 = 1) ∧
    (∃ s : State, ∃ n, portExists s n = true ∧ s.pwr.ready.getLsbD 3 = true ∧ (portOf s n).state ≠ 6 ∧
      s.clk.plls.getLsbD (3 + portHalf s n) = true) ∧
    (∃ (s : State) (n cause : Nat), n < 8 ∧ portUp s n = true ∧ cause ∈ [1, 2, 3, 5]) ∧
    (∃ ring dma s h p, Delivered 0x0C03 ring dma s h p ∧ (portOf s (u p 0 1)).queue = [] ∧ (portOf s (u p 0 1)).line = none) ∧
    (∃ (s : State) (n : Nat), (portOf (drainPort n s) n).meas.isSome = true) ∧
    (∃ (s : State) (n : Nat), (portOf (drainPort n s) n).meas = none) ∧
    (∃ (s : State) (n : Nat), PtpReady s n ∧ (portOf (drainPort n s) n).txStamps.length < 64) ∧
    (∃ (s : State) (n : Nat), PtpReady s n ∧ 64 ≤ (portOf (drainPort n s) n).txStamps.length) ∧
    (∀ full, ∃ (s : State) (n : Nat) (t3 : Instant), PtpReady s n ∧
      let start := max (portOf s n).busy (min t3 (nowU s))
      let f := formed (imageAt s start) n (delayReqFrame s n (min t3 (nowU s)))
      (portOf s n).queue = [] ∧ (portOf s n).kept = [] ∧ (portOf s n).line = none ∧ start ≤ nowU s ∧
      nowU s < start + lineU s (f.length + 12) ∧ (full = true → 64 ≤ (portOf s n).txStamps.length)) ∧
    (∃ (s : State) (n : Nat), n < 8 ∧ portExists s n = true ∧ s.pwr.ready.getLsbD 3 = true ∧ (portOf s n).state ≠ 6) ∧
    (∃ (s : State) (n : Nat), n < 8 ∧ portExists s n = true ∧ s.pwr.ready.getLsbD 3 = true ∧ (portOf s n).state = 6) ∧
    ∃ (f : List Byte) (x : RxCheck), x.fecOk = true ∧ x.fcsOk = true ∧ f.length < 64 :=
  ⟨⟨1, _, _, _, [7, 0, 0, 0], dlv 0x0C02 1 _ State.reset (by decide), by decide⟩,
   ⟨1, _, _, _, [7, 0, 0, 0], dlv 0x0C03 1 _ State.reset (by decide), by decide⟩,
   ⟨1, _, _, _, [0, 1, 0, 0], dlv 0x0C03 1 _ State.reset (by decide), by decide⟩,
   ⟨portState 7 {} { plls := 31 }, 7, by decide +kernel⟩, ⟨portState 7 { state := 6 }, 7, 5, by decide +kernel⟩,
   ⟨1, _, _, _, [7, 0, 0, 0], dlv 0x0C03 1 _ State.reset (by decide), by decide⟩,
   ⟨portState 0 { meas := some (1, 0) }, 0, by decide +kernel⟩, ⟨State.reset, 7, by decide +kernel⟩,
   ⟨ptpPort { state := 6 }, 7, ptpReady _ rfl, by decide +kernel⟩,
   ⟨ptpPort { state := 6, txStamps := List.replicate 64 ⟨.other, 0⟩ }, 7, ptpReady _ rfl, by decide +kernel⟩,
   fun full => ⟨ptpPort { state := 6, txStamps := List.replicate (if full then 64 else 0) ⟨.other, 0⟩ }, 7, 0, ptpReady _ rfl, by
     obtain ⟨h1, h2, h3, h4, h5⟩ := ptpLine { state := 6, txStamps := List.replicate (if full then 64 else 0) ⟨.other, 0⟩ } rfl rfl rfl rfl
     exact ⟨h1, h2, h3, h4, h5, fun h => by rw [portOf_ptp, h]; decide⟩⟩,
   ⟨portState 7 {}, 7, by decide +kernel⟩, ⟨portState 7 { state := 6 }, 7, by decide +kernel⟩, zeros 63, ⟨true, 0, 0, true⟩, by decide⟩

/-- `dpd.bank_write` of one bank, path 63 class 15, with a commit or not. -/
def bankMsg (commit : Nat) : List Byte :=
  [1, 0, 0, BitVec.ofNat 8 commit] ++ zeros 12 ++ [63, 15] ++ zeros 6 ++ (List.replicate 48 (leI 4 (-131072) ++ leI 4 131071)).flatten

theorem wit_BanksWrittenAndCommitted :
    (∀ commit, commit ≤ 1 → ∃ ring dma s h p w, Delivered 0x0402 ring dma s h p ∧ p.length = 16 + 392 * u p 0 2 ∧ u p 0 2 ≤ 41 ∧ u p 2 1 = 0 ∧
      u p 3 1 ≤ 1 ∧ slice p 4 12 = zeros 12 ∧ firstBad ((List.range (u p 0 2)).flatMap (bankRecChecks p)) = none ∧
      bankMode s.pwr.mode = true ∧ (∀ r < u p 0 2, (tget {} s.lin.adapt (bankRecKey p r)).state ≠ 1 ∧ frozen s (bankRecKey p r) = false) ∧
      accessDomain 8 (consumed ring h s) = some w ∧ u p 3 1 = commit ∧ u p 0 2 ≠ 0) ∧
    (∃ (s : State) (c : BankCommit), firstCommit s.lin.commits = some c) ∧
    (∃ ring dma s h p, Delivered 0x0404 ring dma s h p ∧ p.length = 4 ∧ slice p 0 4 = zeros 4 ∧ longRunning .bankPersist s = false ∧
      recordBusy 0x0401 s = false ∧ (accessDomain 2 (consumed ring h s)).isSome = true) ∧
    ∃ s : State, longRunning .bankPersist s = true ∧ longRunning .cataloguePersist s = false ∧ s.lin.commits = [] ∧ s.nvm.jobs = [] ∧
      s.nvm.ended = [] ∧ s.ls.bad = [] ∧ (leaseOf s 0).free = none := by
  refine ⟨fun commit hc => ?_, ⟨{ at_ .standby with lin := { commits := [⟨[0], 0, true⟩] } }, _, rfl⟩,
    ⟨1, _, _, _, zeros 4, dlv 0x0404 3 _ (at_ .standby) (by decide), by decide, by decide, by decide +kernel, by decide +kernel, by decide +kernel⟩,
    { State.reset with ph := { long := [(.bankPersist, {})] } }, by decide, by decide, by decide⟩
  match commit, hc with
  | 0, _ => exact ⟨1, _, hostOn (at_ .standby) (bankMsg 0), _, _, (accessDomain 8 (consumed 1 _ (hostOn (at_ .standby) (bankMsg 0)))).get (by decide +kernel),
      dlv 0x0402 1 _ (at_ .standby) (by decide +kernel), by decide +kernel, by decide +kernel, by decide +kernel, by decide +kernel, by decide +kernel,
      by decide +kernel, by decide, by decide +kernel, reaches _, by decide +kernel⟩
  | 1, _ => exact ⟨1, _, hostOn (at_ .operateTdd) (bankMsg 1), _, _, (accessDomain 8 (consumed 1 _ (hostOn (at_ .operateTdd) (bankMsg 1)))).get (by decide +kernel),
      dlv 0x0402 1 _ (at_ .operateTdd) (by decide +kernel), by decide +kernel, by decide +kernel, by decide +kernel, by decide +kernel, by decide +kernel,
      by decide +kernel, by decide, by decide +kernel, reaches _, by decide +kernel⟩

/-- `dpd.adapt_control` over path 63, class 15. -/
def adaptMsg (op : Nat) : List Byte := leBytes 1 op ++ [1] ++ leBytes 2 16384 ++ leBytes 2 0x8000 ++ [30, 0] ++ leBytes 8 (2 ^ 63)
/-- A query that names no pair. -/
def noPairs : List Byte := [2, 1] ++ leBytes 2 16384 ++ leBytes 2 0 ++ [30, 0] ++ leBytes 8 0
def adapting (a : Adapt) : State := { at_ .operateTdd with sys := { ready := true }, lin := { adapt := tset {} [] (bankKey 63 15) a } }

/-- A solution of the pair (path, class) can be asked for, its core's vendor run having ended as given. -/
structure Solves (s : State) (k : Nat × Nat) (e : Option (Bool × BitVec 8)) : Prop where
  all : k.1 < 64 ∧ k.2 < 16 ∧ bureauRuns s = true ∧ (tget {} s.lin.adapt (bankKey k.1 k.2)).state = 1 ∧
    (tget {} s.lin.adapt (bankKey k.1 k.2)).paused = false ∧ (tget {} s.lin.adapt (bankKey k.1 k.2)).inputs ≠ [] ∧
    (tget {} s.core (k.1 / 8)).vendorEnd = e

theorem wit_AdaptationRows :
    (∀ op, op ≤ 2 → ∃ ring dma s h p, Delivered 0x0403 ring dma s h p ∧ p.length = 16 ∧ 1 ≤ u p 1 1 ∧ 1024 ≤ u p 2 2 ∧ u p 2 2 ≤ 16384 ∧
      u p 2 2 % 1024 = 0 ∧ u p 6 1 ≤ 30 ∧ slice p 7 1 = zeros 1 ∧ u p 0 1 = op ∧ isOperate s.pwr.mode = true ∧
      maskPairs (u p 8 8) (u p 4 2) = [bankKey 63 15] ∧ (accessDomain 8 (consumed ring h s)).isSome = true) ∧
    (∃ ring dma s h p, Delivered 0x0403 ring dma s h p ∧ p.length = 16 ∧ 1 ≤ u p 1 1 ∧ 1024 ≤ u p 2 2 ∧ u p 2 2 ≤ 16384 ∧
      u p 2 2 % 1024 = 0 ∧ u p 6 1 ≤ 30 ∧ slice p 7 1 = zeros 1 ∧ u p 0 1 = 2 ∧ maskPairs (u p 8 8) (u p 4 2) = []) ∧
    (∃ (s : State) (cs : List IQ), Solves s (63, 15) none ∧
      (∀ c ∈ cs, -131072 ≤ c.1 ∧ c.1 ≤ 131071 ∧ -131072 ≤ c.2 ∧ c.2 ≤ 131071) ∧ cs ≠ [] ∧ frozen s (bankKey 63 15) = false) ∧
    (∃ (s : State) (cs : List IQ), Solves s (63, 15) none ∧ ∃ c ∈ cs, c.1 < -131072 ∨ 131071 < c.1 ∨ c.2 < -131072 ∨ 131071 < c.2) ∧
    (∀ trapped, ∃ s o, Solves s (63, 15) (some (trapped, o)) ∧ (tget {} s.lin.adapt (bankKey 63 15)).retried = false) ∧
    (∃ s, Solves s (63, 15) none ∧ (tget {} s.lin.adapt (bankKey 63 15)).retried = false) ∧
    ∃ s, Solves s (63, 15) none ∧ (tget {} s.lin.adapt (bankKey 63 15)).retried = true := by
  refine ⟨fun op ho => ?_,
    ⟨1, _, hostOn (at_ .operateTdd) (noPairs), _, _, dlv 0x0403 1 noPairs (at_ .operateTdd) (by decide +kernel), by decide +kernel⟩, ⟨adapting { state := 1, inputs := [((0, 0), (0, 0))] }, [(131071, -131072)], ⟨by decide +kernel⟩, by decide +kernel⟩,
    ⟨adapting { state := 1, inputs := [((0, 0), (0, 0))] }, [(0, 131072)], ⟨by decide +kernel⟩, (0, 131072), by decide, by decide⟩,
    fun trapped => ⟨{ adapting { state := 1, inputs := [((0, 0), (0, 0))] } with core := tset {} [] 7 { vendorEnd := some (trapped, 1) } }, 1,
      ⟨by cases trapped <;> decide +kernel⟩, by cases trapped <;> decide +kernel⟩,
    ⟨adapting { state := 1, inputs := [((0, 0), (0, 0))] }, ⟨by decide +kernel⟩, by decide +kernel⟩,
    adapting { state := 1, inputs := [((0, 0), (0, 0))], retried := true }, ⟨by decide +kernel⟩, by decide +kernel⟩
  match op, ho with
  | 0, _ => exact ⟨1, _, hostOn (at_ .operateTdd) (adaptMsg 0), _, _, dlv 0x0403 1 (adaptMsg 0) (at_ .operateTdd) (by decide +kernel), by decide +kernel⟩
  | 1, _ => exact ⟨1, _, hostOn (at_ .operateTdd) (adaptMsg 1), _, _, dlv 0x0403 1 (adaptMsg 1) (at_ .operateTdd) (by decide +kernel), by decide +kernel⟩
  | 2, _ => exact ⟨1, _, hostOn (at_ .operateTdd) (adaptMsg 2), _, _, dlv 0x0403 1 (adaptMsg 2) (at_ .operateTdd) (by decide +kernel), by decide +kernel⟩

/-- One carrier each way, gain steps by entries with one step of −30 dB for path 63, and PRACH entry 31 in every frame. -/
def svcImage : Image :=
  imgWrite (imgWrite (imgWrite (imgWrite (imgWrite [] 1 0 [1]) 2 0 [1]) 11 0 [1]) 11 2096 ([1, 0, 13, 226, 0, 0, 0, 0] ++ leBytes 8 (2 ^ 63)))
    11 4096 ([1, 0, 3, 0, 1, 1, 0, 0] ++ leBytes 4 1000)

/-- Service under that image since instant 0. -/
def svcState (pw : Power := {}) : State :=
  { at_ .operateTdd with
    pwr := { pw with mode := .operateTdd, on := 0xFFFFF, ready := 0xFFFFF, en := 0xFF, pg := 0xFF, serving := true, service := some (⟨0, 0⟩, 0) }
    cfg := { live := svcImage, staged := svcImage } }

/-- A plan of two entries whose regions touch, the second at the last region with no sample. -/
def planMsg : List Byte :=
  leBytes 2 2 ++ zeros 14 ++
  (leBytes 8 1000 ++ leBytes 2 1024 ++ [9, 1, 13, 0xFF, 63, 30] ++ leBytes 4 1474559 ++ leBytes 4 65536 ++ leBytes 4 524160 ++ zeros 20) ++
  (leBytes 8 0 ++ leBytes 2 0 ++ [0, 0, 0, 15, 0, 0] ++ leBytes 4 0 ++ leBytes 4 0 ++ leBytes 4 1048512 ++ zeros 20)

def planOne : PlanEntry := ⟨5, 0, 9, 1, 13, 0xFF, 63, 30, 0, 2, 64⟩
def capOne (src : CaptureSrc) : Capturing := { src := src, orx := 7, path := 63, start := 0, length := 2, cls := 0, atten := 0, sym := ⟨0, 0, 0, 0, 0⟩, tick := 0, region := 64, taken := 0 }
def planned (l : Linear) : State := { svcState with lin := l }

theorem wit_CapturesRunAndStore :
    (∃ ring dma s h p, Delivered 0x0406 ring dma s h p ∧ p.length = 16 + 48 * u p 0 2 ∧ u p 0 2 ≤ 64 ∧ slice p 2 14 = zeros 14 ∧
      firstBad ((List.range (u p 0 2)).flatMap (planChecks s.cfg.live p)) = none ∧
      (∀ e < u p 0 2, ∀ d < e, regionsMeet (planEntry p d) (planEntry p e) = false) ∧ u p 0 2 = 2) ∧
    (∃ (s : State) (n : Nat) (e : PlanEntry) (sym : SymName), s.lin.plan[n]? = some e ∧ occursIn e sym.frame = true ∧
      e.subframe = sym.subframe ∧ e.slot = sym.slot ∧ e.symbol = sym.symbol ∧ s.lin.caps = [] ∧ isService s.pwr.mode = true ∧
      let im := classImage s sym
      let start := airOf (classMu im) sym + tk e.tick
      let w := advanceTo start s
      s.lin.planFrom ≤ start ∧ (classCarrier (imageAt s start)).isSome = true ∧ (e.clsFilter = 0xFF ∨ e.clsFilter = classAt w start) ∧
      s.pwr.ready.getLsbD (12 + orxOf e.path / 2) = true ∧ txHeld w (orxOf e.path / 2) = false ∧
      lowerConflict w im n (orxOf e.path) start e.length sym.frame = false ∧ e.length ≠ 0) ∧
    (∃ (s : State) (p k : Nat), p < 64 ∧ k < 16 ∧ (tget {} s.lin.adapt (bankKey p k)).state = 1 ∧
      (tget {} s.lin.adapt (bankKey p k)).paused = false ∧ (∀ d ∈ s.lin.caps, d.src ≠ .adapt p k)) ∧
    (∃ (s : State) (src : CaptureSrc) (c : Capturing), s.lin.caps.find? (fun d => decide (d.src = src)) = some c) ∧
    (∃ (c : Capturing) (run : OrxRun) (k : Nat), k < c.length ∧ k ∈ run.parity) ∧
    (∃ (c : Capturing) (run : OrxRun) (k : Nat), k < c.length ∧ k ∉ run.parity ∧ k < run.codes.length) ∧
    ∃ (c : Capturing) (n : Nat), solutionStep c.length ≠ 1 ∧ n * solutionStep c.length < c.length ∧ n ≠ 0 :=
  ⟨⟨1, _, hostOn svcState planMsg, _, _, dlv 0x0406 1 _ svcState (by decide +kernel), by decide +kernel⟩,
   ⟨planned { plan := [planOne] }, 0, planOne, ⟨0, 5, 9, 1, 13⟩, rfl, by decide +kernel⟩,
   ⟨adapting { state := 1 }, 63, 15, by decide +kernel⟩,
   ⟨planned { caps := [capOne (.adapt 63 15)] }, .adapt 63 15, capOne (.adapt 63 15), by decide⟩,
   ⟨capOne (.host 0), ⟨[], [1]⟩, 1, by decide⟩, ⟨capOne (.host 0), ⟨[(1, 2), (-2048, 2047)], [0]⟩, 1, by decide⟩,
   { capOne (.host 0) with length := 65536 }, 4095, by decide⟩

theorem wit_ZeroBankPassesTheInput :
    (∃ (s : State) (p : Nat) (t : Instant) (v : DpdView), bankAt s p (classAt s t) t = [] ∧ dpdView s p t = some v ∧ p = 63) ∧
    (∃ (s : State) (p : Nat) (t : Instant), 3 < basisSet (imageAt s t) p ∧ p < 64) ∧
    ∃ (plan : Int → CfrPlan) (xs : List IQ), (∀ t, plan t = ⟨[], none, #[]⟩) ∧ (∀ x ∈ xs, satIQ 16 x = x) ∧ xs ≠ [] :=
  ⟨⟨{ State.reset with cfg := { live := imgWrite [] 7 (1088 + 32 * 63) [3] } }, 63, 0, _, by decide +kernel, rfl, rfl⟩,
   ⟨{ State.reset with cfg := { live := imgWrite [] 7 (1088 + 32 * 63) [4] } }, 63, 0, by decide +kernel⟩,
   fun _ => ⟨[], none, #[]⟩, [(32767, -32768)], fun _ => rfl, by decide +kernel, by decide⟩

/-- A stored section. -/
def sectOf (t : Nat) : Section :=
  { id := 5, flow := 7, port := 7, stype := t, sym := ⟨0, 1, 9, 1, 13⟩, air := 0, arrival := 0, margin := 0, head := [4, 0] ++ zeros 6,
    payload := [], crc := 0, usable := false, applied := false }

/-- A catalogue write that undefines entry 6143. -/
def cabMsg : List Byte := leBytes 2 1 ++ zeros 14 ++ ([255, 23, 2, 0] ++ zeros 292)
def beams (b : Beam) : State := { at_ .standby with bf := b }

theorem wit_CabinetAndClaim :
    (∃ ring dma s h p, Delivered 0x0301 ring dma s h p ∧ p.length = 16 + 296 * u p 0 2 ∧ u p 0 2 ≤ 55 ∧ slice p 2 14 = zeros 14 ∧
      cabFirst p (consumed ring h s) (List.range (u p 0 2)) = none ∧ longRunning .cataloguePersist s = false ∧ u p 0 2 = 0) ∧
    (∃ ring dma s h p w, Delivered 0x0301 ring dma s h p ∧ p.length = 16 + 296 * u p 0 2 ∧ u p 0 2 ≤ 55 ∧ slice p 2 14 = zeros 14 ∧
      cabFirst p (consumed ring h s) (List.range (u p 0 2)) = none ∧ longRunning .cataloguePersist s = false ∧ u p 0 2 ≠ 0 ∧
      accessDomain 5 (consumed ring h s) = some w) ∧
    (∃ (s : State) (q : CabWrite) (qs : List CabWrite), s.bf.writes = q :: qs ∧ s.bf.waiting.length + q.records.length ≤ 512 ∧ q.records ≠ []) ∧
    (∃ (s : State) (b : Boundary), firstWaiting s = some b ∧ ∃ x ∈ s.bf.waiting, x.1 ≠ b) ∧
    (∃ ring dma s h p, Delivered 0x0302 ring dma s h p ∧ p.length = 4 ∧ slice p 0 4 = zeros 4 ∧
      longRunning .cataloguePersist s = false ∧ recordBusy 0x0301 s = false ∧ (accessDomain 2 (consumed ring h s)).isSome = true) ∧
    (∃ s : State, longRunning .cataloguePersist s = true ∧ longRunning .bankPersist s = false ∧ s.bf.waiting = [] ∧ s.bf.writes = [] ∧
      s.nvm.jobs = [] ∧ s.nvm.ended = [] ∧ s.ls.bad = []) ∧
    (∀ ul : Bool, ∃ (s : State) (c frame slot : Nat) (im : Image), claimImage s ul c frame slot = some im ∧ s.pwr.ready.getLsbD 5 = true ∧
      s.dl.buffer = [] ∧ slot = 19) ∧
    (∀ n ≤ 2, ∃ (s : State) (m k : Nat) (x : Section) (reg : Nat × Nat), u x.head 0 2 + k = 5 ∧ reg.1 ≤ 5 ∧ 5 < reg.1 + reg.2 ∧
      (tget {} s.bf.vec (vecKey true (m % 2) 5)).claim = some (0, m) ∧ (tget {} s.bf.vec (vecKey true (m % 2) 5)).state = n ∧
      s.dl.invalid = []) ∧
    ∃ (s : State) (m k : Nat) (x : Section) (reg : Nat × Nat), reg.1 ≤ u x.head 0 2 + k ∧ u x.head 0 2 + k < reg.1 + reg.2 ∧
      (tget {} s.bf.vec (vecKey true (m % 2) (u x.head 0 2 + k))).claim ≠ some (0, m) :=
  ⟨⟨1, _, hostOn (at_ .standby) (zeros 16), _, _, dlv 0x0301 1 _ (at_ .standby) (by decide), by decide +kernel⟩,
   ⟨1, _, hostOn (at_ .standby) cabMsg, _, _, (accessDomain 5 (consumed 1 _ (hostOn (at_ .standby) cabMsg))).get (by decide +kernel),
    dlv 0x0301 1 _ (at_ .standby) (by decide +kernel), by decide +kernel, by decide +kernel, by decide +kernel, by decide +kernel,
    by decide +kernel, by decide +kernel, reaches _⟩,
   ⟨beams { writes := [⟨{}, [(6143, {})]⟩] }, _, [], rfl, by decide, by decide⟩,
   ⟨beams { waiting := [(⟨2, 0⟩, 6143, {}), (⟨1, 39⟩, 0, {})] }, ⟨1, 39⟩, by decide, (⟨2, 0⟩, 6143, {}), by decide, by decide⟩,
   ⟨1, _, _, _, zeros 4, dlv 0x0302 3 _ (at_ .standby) (by decide), by decide +kernel⟩,
   ⟨{ State.reset with ph := { long := [(.cataloguePersist, {})] } }, by decide⟩,
   (fun ul => match ul with
     | false => ⟨svcState, 0, 0, 19, svcImage, by decide +kernel⟩
     | true => ⟨svcState, 0, 0, 19, svcImage, by decide +kernel⟩),
   fun n _ => ⟨beams { vec := tset {} [] (vecKey true 1 5) { claim := some (0, 7), ends := 0, state := n, data := [] } }, 7, 1, sectOf 7, (0, 6),
     rfl, by decide, by decide, by simp [beams, tget_tset_self], by simp [beams, tget_tset_self], rfl⟩,
   State.reset, 7, 1, sectOf 7, (0, 6), by decide +kernel⟩

theorem wit_FrameIdsResolve : ∃ (id : Nat) (t : Instant) (f : Int), f % 65536 = (id : Int) % 65536 ∧ frameOf t - 32768 ≤ f ∧
    f ≤ frameOf t + 32767 ∧ f = frameOf t + 32767 := ⟨32766, -1, 32766, by decide +kernel⟩

/-- A flow of kind `k`. -/
def flowOf (k : Nat) : Flow := ⟨7, 9, k, 0, 0, 7, 1, 9⟩
def stored (x : Section) : State := { State.reset with dl := { buffer := [x] } }

theorem wit_SectionsParsedAndUsable :
    (∃ (s : State) (n : Nat) (q : Ingress) (qs : List Ingress), n < 8 ∧ s.pwr.ready.getLsbD 3 = true ∧ (portOf s n).fifo = q :: qs ∧
      governingFlow s q.pcId (fitBytes 8 q.bytes) q.arrival = none) ∧
    (∃ (s : State) (n : Nat) (q : Ingress) (qs : List Ingress), n < 8 ∧ s.pwr.ready.getLsbD 3 = true ∧ (portOf s n).fifo = q :: qs ∧
      (governingFlow s q.pcId (fitBytes 8 q.bytes) q.arrival).isSome = true) ∧
    (∃ (im : Image) (f : Flow) (n typ : Nat) (name : SymName) (air arr : Instant) (hd : List Byte) (s : State), fieldError im f typ name hd = none ∧
      air - winClose (imageAt s air) n * (usU : Int) ≤ arr ∧ air - winOpen (imageAt s air) n * (usU : Int) ≤ arr) ∧
    (∃ (im : Image) (f : Flow) (n typ : Nat) (name : SymName) (air arr : Instant) (hd pl : List Byte) (s : State), fieldError im f typ name hd = none ∧
      air - winOpen (imageAt s air) n * (usU : Int) ≤ arr ∧ arr < air - winClose (imageAt s air) n * (usU : Int) ∧
      s.dl.buffer = [] ∧ hd.length + pl.length ≤ 16777216) ∧
    (∃ (s : State) (id : Nat) (x : Section), s.dl.buffer.find? (fun y => decide (y.id = id) && !y.failed) = some x ∧ x.usable = false ∧
      x.stype ≠ 3 ∧ x.struck = []) ∧
    (∃ (s : State) (id : Nat) (x : Section), s.dl.buffer.find? (fun y => decide (y.id = id) && !y.failed) = some x ∧ x.stype = 1 ∧
      x.usable = true ∧ ∀ w ∈ [(0x1FFFFF : Nat)], x.head.length ≤ 8 * w) ∧
    ∃ (s : State) (id : Nat) (x : Section), s.dl.buffer.find? (fun y => decide (y.id = id) && !y.failed) = some x ∧ x.stype = 1 ∧
      ∃ w ∈ [(0 : Nat)], 8 * w < x.head.length :=
  ⟨⟨portState 7 { fifo := [⟨0xAEFE, 9, 0, zeros 40⟩] }, 7, _, [], by decide, by decide, rfl, by decide +kernel⟩,
   ⟨{ portState 7 { fifo := [⟨0xAEFE, 9, 0, zeros 40⟩] } with cfg := { live := imgWrite [] 4 112 [9, 0, 1, 0, 0, 7, 1, 9] } }, 7, _, [],
     by decide, by decide, rfl, by decide +kernel⟩,
   ⟨svcImage, flowOf 6, 7, 3, ⟨0, 1, 9, 1, 13⟩, 0, -50 * (usU : Int), zeros 8, State.reset, by decide +kernel⟩,
   ⟨svcImage, flowOf 6, 7, 3, ⟨0, 1, 9, 1, 13⟩, 0, -1000 * (usU : Int), zeros 8, zeros 8, State.reset, by decide +kernel⟩,
   ⟨stored (sectOf 1), 5, sectOf 1, by decide +kernel⟩,
   ⟨stored { sectOf 1 with usable := true }, 5, { sectOf 1 with usable := true }, by decide +kernel⟩,
   stored (sectOf 1), 5, sectOf 1, by decide +kernel⟩

/-- Symbol 13 of the last slot of frame 1, and its release. -/
def lastSym : SymName := ⟨0, 1, 9, 1, 13⟩
def relOf : Released :=
  { sym := lastSym, air := 1, length := 2, layers := [], cls := 15, bfErrs := [], fftErrs := [], zeros := [], played := [], marked := [] }
def playState (g : Playing) (x : List Silence) : State :=
  { svcState with dl := { released := [relOf], playing := tset none [] 63 (some g), silence := x } }

theorem wit_DownlinkRows :
    (∀ plays, ∃ (s : State) (sym : SymName) (im : Image), releaseImage s sym = some im ∧ s.pwr.ready.getLsbD 3 = true ∧
      let air := airOf (ccMu im false sym.carrier) sym
      playsSymbol (advanceTo (air - tk pipeTicks) s) air = plays) ∧
    (∃ (s : State) (path : Nat) (sym : SymName) (r : Released), s.dl.released.find? (fun x => decide (x.sym = sym) && decide (path ∉ x.played)) = some r ∧
      path < 64 ∧ isService s.pwr.mode = true ∧ (∀ x ∈ s.dl.silence, x.mute = true)) ∧
    (∀ received : Bool, ∃ e : DpdFault, e.received = received ∧ (received = false → struckValue (0, 0) e.err = true)) ∧
    (∃ (s : State) (path : Nat) (t : Int) (g : Playing) (a b : Int), tget none s.dl.playing path = some g ∧ heldFrom s = some a ∧
      heldTo s = some b ∧ max g.upTo a < min t b) ∧
    (∃ (g : Playing) (a : Int) (n k : Nat), k < n ∧ a + k ∈ g.gaps) ∧ (∃ (g : Playing) (a : Int) (n k : Nat), k < n ∧ a + k ∈ g.lost) ∧
    (∃ (s : State) (path : Nat) (a : Int) (n k : Nat), k < n ∧
      ∃ x ∈ s.dl.silence, x.holds path (delayU s (imageAt s (a * tickU)) false path) (a + k) = true) ∧
    (∃ (s : State) (sym : SymName) (im : Image), switchImage s sym = some im ∧ classCarrier im = some sym.carrier ∧
      playsSymbol s (airOf (ccMu im false sym.carrier) sym) = false) ∧
    ∃ (s : State) (sym : SymName) (im : Image) (r : Released), switchImage s sym = some im ∧ classCarrier im = some sym.carrier ∧
      playsSymbol s (airOf (ccMu im false sym.carrier) sym) = true ∧ s.dl.released.find? (fun x => decide (x.sym = sym)) = some r :=
  ⟨fun plays => match plays with
     | true => ⟨svcState, lastSym, svcImage, by decide +kernel⟩
     | false => ⟨svcState { endAt := some 0 }, lastSym, svcImage, by decide +kernel⟩,
   ⟨playState { upTo := 0 } [⟨3, 0, none, true⟩], 63, lastSym, relOf, by decide +kernel⟩,
   fun received => ⟨⟨5, none, (1, 0), received⟩, rfl, fun _ => (by decide +kernel : struckValue (0, 0) (1, 0) = true)⟩,
   ⟨playState { upTo := 0 } [], 63, 2, { upTo := 0 }, 0, 2, by decide +kernel⟩,
   ⟨{ upTo := 0, gaps := [7] }, 0, 8, 7, by decide⟩, ⟨{ upTo := 0, lost := [7] }, 0, 8, 7, by decide⟩,
   ⟨{ playState { upTo := 0 } [⟨3, 0, none, true⟩] with nvm := { copy := [] } }, 63, 5, 3, 2, by decide, ⟨3, 0, none, true⟩, by decide, by decide +kernel⟩,
   ⟨svcState { endAt := some 0 }, lastSym, svcImage, by decide +kernel⟩,
   playState { upTo := 0 } [], lastSym, svcImage, relOf, by decide +kernel⟩

/-- A state with the runs given under way. -/
def ulState (l : List PrachRun) : State := { svcState with ul := { prach := l } }

/-- With a PRACH flow, record 7, and a usable control section that enables every occasion of entry 31's symbol in frame 1. -/
def prachImage : Image := imgWrite svcImage 4 112 [9, 0, 5, 0, 0, 7, 1, 9]
def prachSym : SymName := occasionSym prachImage (prachAt prachImage 31) 1
def prachState (l : List PrachRun) : State :=
  { ulState l with
    cfg := { live := prachImage, staged := prachImage }
    dl := { buffer := [{ sectOf 6 with usable := true, sym := prachSym, air := airOf (ccMu prachImage true 0) prachSym, head := 15 :: zeros 7 }] } }

theorem wit_UplinkExports :
    (∃ (s : State) (sym : SymName) (im : Image), exportImage s sym = some im ∧
      let mu := ccMu im true sym.carrier
      let air := airOf mu sym
      ulRuns s air (air + tk (symTicks mu (symIndex mu sym))) = true) ∧
    (∃ (s : State) (f : Flow), portUp s f.port = true ∧ (portOf s f.port).queue = [] ∧ (portOf s f.port).kept = [] ∧ (portOf s f.port).line = none ∧
      (portOf s f.port).busy ≤ nowU s) ∧
    (∃ (s : State) (f : Flow), portUp s f.port = false) ∧
    (∃ (s : State) (n : Nat) (x : Sending), (portOf s n).line = some x ∧ x.ends ≤ nowU s) ∧
    (∃ (s : State) (n frame : Nat) (im : Image), occasionImage s n frame = some im ∧
      let e := prachAt im n
      let at_ := occasionStart e frame
      prachIn e frame = true ∧ ccEnabled im true e.cc = true ∧ prachCollides im e frame = false ∧ ulRuns s at_ at_ = true ∧ n = 31) ∧
    (∀ more, more ≤ 1 → ∃ (s : State) (n frame : Nat) (im : Image), occasionImage s n frame = some im ∧
      let e := prachAt im n
      let at_ := occasionStart e frame
      let w := serve (1024 + n) at_ (advanceTo at_ s)
      let flows := ((governingFlows im).filter fun f => decide (f.cc = e.cc) && decide (f.kind = 4 ∨ f.kind = 5)).filterMap fun f =>
        (prachControl w im f e.occ (occasionSym im e frame)).map fun x => (f, x)
      prachIn e frame = true ∧ ccEnabled im true e.cc = true ∧ prachCollides im e frame = false ∧ ulRuns s at_ at_ = true ∧ flows ≠ [] ∧
      s.ul.prach.length + flows.length = 32 + more) ∧
    ∃ (s : State) (flow occ rep : Nat) (r : PrachRun),
      s.ul.prach.find? (fun q => decide (q.flow = flow) && decide (q.occasion = occ) && decide (q.done = rep)) = some r :=
  ⟨⟨svcState, lastSym, svcImage, by decide +kernel⟩, ⟨portState 7 { state := 6 }, flowOf 2, by decide +kernel⟩,
   ⟨portState 7 { state := 3 }, flowOf 2, by decide +kernel⟩,
   ⟨portState 7 { line := some ⟨0, zeros 60, 0⟩ }, 7, ⟨0, zeros 60, 0⟩, by decide +kernel⟩,
   ⟨ulState [], 31, 1, svcImage, by decide +kernel⟩,
   (fun more _ => ⟨prachState (List.replicate (31 + more) ⟨svcImage, 1023, 31, 3, 1, 0, 12, 11, false, []⟩), 31, 1, prachImage, by
      match more with
      | 0 => decide +kernel
      | 1 => decide +kernel⟩),
   ulState [⟨svcImage, 1023, 31, 3, 1, 0, 12, 11, false, []⟩], 1023, 3, 11, _, rfl⟩

/-- 64 words of a path, the first `n` at a rail. -/
def railWords (n : Nat) : RailWindow := ⟨5, List.replicate n 0x7FFC0000 ++ List.replicate (64 - n) 0⟩

theorem wit_GainSteps :
    (∃ (s : State) (p : Nat) (sym : SymName) (im : Image), stepImage s p sym = some im ∧
      let step := if cf im 11 0 1 = 1 ∧ sym.carrier = timingCarrier im then entrySteps im p sym
        else if cf im 11 0 1 = 2 then sectionStep s im p sym else 0
      p < 64 ∧ isService s.pwr.mode = true ∧ step ≠ 0) ∧
    (∀ enough, ∃ (s : State) (p : Nat) (win : RailWindow), p < 64 ∧ cf (imageAt s win.air) 11 3 1 = 1 ∧ isService s.pwr.mode = true ∧
      appliedGain s p ≠ 0 ∧
      decide (cf (imageAt s win.air) 11 5 1 ≤ (railTimes { win with words := win.words.drop (win.words.length - 64) }).length) = enough) ∧
    (∃ (s : State) (p : Nat) (win : RailWindow), p < 64 ∧ cf (imageAt s win.air) 11 3 1 = 1 ∧ isService s.pwr.mode = true ∧
      appliedGain s p = 0) ∧
    ∃ (s : State) (p : Nat), p < 64 ∧ tget 0 s.ul.reduction p ≠ 0 :=
  ⟨⟨svcState, 63, lastSym, svcImage, by decide +kernel⟩,
   (fun enough => match enough with
     | true => ⟨svcState, 63, railWords 64, by decide +kernel⟩
     | false => ⟨svcState, 63, railWords 0, by decide +kernel⟩),
   ⟨{ svcState with ul := { reduction := tset 0 [] 63 30 } }, 63, railWords 64, by decide +kernel⟩,
   { svcState with ul := { reduction := tset 0 [] 63 6 } }, 63, by decide⟩

/-! ### The spec's own worked values -/

/-- R108 gives the CRC of the ASCII bytes 1 to 9. -/
theorem test_crc32c : crc32c (ascii "123456789") = 0xE3069283 := by decide +kernel

/-- Chapter 02's example under R50: three slots, from slot 62 on, wrapping to slot 0. -/
theorem test_slots_wrap : slotCount (32 + 1200) = 3 ∧ slotKey 2 126 0 = 2 * 32768 + 62 * 512 ∧ slotKey 2 126 512 = 2 * 32768 + 63 * 512 ∧
    slotKey 2 126 1024 = 2 * 32768 := by decide

/-- Chapter 01's and 06's examples: lengths of 30 kHz symbols, and the air time of symbol 5 of slot 1 in subframe 2. -/
theorem test_symbol_times : symTicks 1 0 = 53376 ∧ symTicks 1 1 = 52608 ∧ symTicks 1 14 = 53376 ∧
    symOffset 1 (symIndex 1 ⟨2, 0, 2, 1, 5⟩) = 3950208 := by decide

/-- Table 6-9 and chapter 07's example: d(p) of 2,912 ns on TX path 21 and of 2,100 ns on RX path 37 in 2^-8 tick, with the calibration
record absent; prefixes of 352 and 288 samples at 12 ticks a sample. -/
theorem test_path_delays :
    pathDelay { State.reset with nvm := { copy := [] } } (imgWrite [] 12 (16 * 21 + 4) (leBytes 4 2912000)) false 21 = 4293 * 256 + 235 ∧
    pathDelay { State.reset with nvm := { copy := [] } } (imgWrite [] 12 (16 * 37 + 8) (leBytes 4 2100000)) true 37 = 3096 * 256 + 147 ∧
    (cpSamples 1 4096 0, cpSamples 1 4096 5, rateRatio 1 4096) = (352, 288, 12) := by decide +kernel

/-- A PRB of chapter 05's example under R117: −4100 and 3000 take exponent 4; 4088 would take 5. -/
def prbWith (v : Int) : List Int := List.replicate 6 0 ++ [v] ++ List.replicate 8 0 ++ [3000] ++ List.replicate 8 0
theorem test_exponent : exponentOf 9 (prbWith (-4100)) = 4 ∧ exponentOf 9 (prbWith 4088) = 5 := by decide +kernel
theorem test_mantissas : decodePrb 1 9 (encodePrb 1 9 (prbWith (-4100))).1 = List.replicate 6 0 ++ [-4096] ++ List.replicate 8 0 ++ [3008] ++
    List.replicate 8 0 ∧ (encodePrb 1 9 (prbWith (-4100))).1.length = 28 := by decide +kernel

/-- Chapter 05's example under R128: 7,644 bytes on a port of 1,522-byte frames. -/
theorem test_fragments : fragments (imgWrite [] 3 70 (leBytes 2 1522)) 0 7644 = (6, 1274) := by decide +kernel

/-- Chapter 08's example under R188: one layer of 16,000 at weight 0.5; then 32 of them, which saturate, and with shift 4 do not. -/
theorem test_beamformer_rounds : bfRound 0 (mulIQ (16000, 0) (16384, 0)) = (8000, 0) ∧
    satIQ 16 (bfRound 0 (32 * 262144000, 0)) = (32767, 0) ∧ satIQ 16 (bfRound 4 (32 * 262144000, 0)) = (16000, 0) := by decide +kernel

/-- Chapter 11's example under R264: 3.5 GHz. -/
theorem test_synthesiser_word : loParams 3500000000000 = (2, 18, 4246499783) := by decide +kernel

/-- Chapter 12's example (Table 12-4): in S0 at 1 V/ms the slew from code 4,915 to 7,864 takes 9,000 updates. -/
theorem test_slew_updates : 8999 * slewStep 0 100 < (7864 - 4915) * 65536 ∧ (7864 - 4915) * 65536 ≤ 9000 * slewStep 0 100 ∧
    moveToward (7864 * 65536 - 1) (7864 * 65536) (slewStep 0 100) = 7864 * 65536 := by decide +kernel

/-- Chapter 13's example under R331: 8,388,612 edges over a gate of 2^24. -/
theorem test_measured_ratio : ∃ t, exec (.clkMeasureDone 8388612 true) (clkState .standby { mState := 1, mGate := 24 }) = .next t ∧
    t.clk.mRatio = 2147484672 := ⟨_, rfl, by decide +kernel⟩

/-- Results in quarter degrees judged in turn by sensor 21, its demands armed. -/
def hover (l : List Int) (s : State) : State :=
  l.foldl (fun t v => judge 21 ⟨0, v, v⟩ (setSensor 21 { sensorOf t 21 with counting := some (0, 1) } t)) s

/-- Table 15-7: the warning of TS[21] trips at the seventh result and clears at the fourteenth. -/
theorem test_warning_hover :
    (sensorOf (hover [399, 401, 402, 400, 401, 402] svcState) 21).tripW = false ∧
    (sensorOf (hover [399, 401, 402, 400, 401, 402, 403] svcState) 21).tripW = true ∧
    (sensorOf (hover [399, 401, 402, 400, 401, 402, 403, 392, 391, 390, 393, 388, 387] svcState) 21).tripW = true ∧
    (sensorOf (hover [399, 401, 402, 400, 401, 402, 403, 392, 391, 390, 393, 388, 387, 386] svcState) 21).tripW = false := by decide +kernel

/-- The sequence below Table 15-7: 124.75, 125.00, 124.75, 125.00, 125.00 °C latches on the fifth result only. -/
theorem test_latch_needs_two : (hover [499, 500, 499, 500] svcState).th.latch = false ∧
    (hover [499, 500, 499, 500, 500] svcState).th.latch = true := by decide +kernel

/-! ### Single steps -/

/-- What `exec` leaves of a field, where it gives a next state. -/
def after {α : Type} (i : Instr) (s : State) (f : State → α) : Option α :=
  match exec i s with
  | .next t => some (f t)
  | _ => none

/-- R237: 0x7FFFFFFF + 1 wraps to 0x80000000, sets N and V, and clears Z and C; the destination may be a source. -/
theorem test_add_overflows : after (.add 7 3 3 (.reg 4)) (coreState 2 { d := tset 0 (tset 0 [] 3 0x7FFFFFFF) 4 1 })
    (fun t => let r := nowRegs 7 t; (dReg r 3, r.n, r.v, r.z, r.c)) = some (0x80000000, true, true, false, false) := by decide +kernel

/-- R237: equal operands compare with Z set and no register written. -/
theorem test_cmp_writes_flags_only : after (.cmp 7 3 (.reg 4)) (coreState 2 { d := tset 0 (tset 0 [] 3 5) 4 5 })
    (fun t => let r := nowRegs 7 t; (r.z, r.n, r.v, r.d)) = some (true, false, false, tset 0 (tset 0 [] 3 5) 4 5) := by decide +kernel

/-- R240's rounding: 3 / 2 goes to 2 and 1 / 2 to 0. -/
theorem test_ashr_rounds_half_even : after (.ashr 7 0 1) (coreState 2 { a := tset (0, 0) [] 0 (3, 1) })
    (fun t => aReg (nowRegs 7 t) 0) = some (2, 0) := by decide +kernel

/-- R237: a packed add saturates each component and sets SAT. -/
theorem test_cadd_saturates : after (.cadd 7 (.one 0) (.one 1) (.one 2)) (coreState 2 { d := tset 0 (tset 0 [] 1 0x7FFF8000) 2 0x0001FFFF })
    (fun t => let r := nowRegs 7 t; (dReg r 0, r.sat)) = some (0x7FFF8000, true) := by decide +kernel

/-- R54, R55: W1C clears status bits and leaves counters. -/
theorem test_event_counts : let s := raise 32 (zeros 8) (raise 32 (zeros 8) State.reset)
    s.ev.status.getLsbD 32 = true ∧ tget 0 s.ev.count 32 = 2 ∧ tget 0 (clearStatus (BitVec.twoPow 256 32) s).ev.count 32 = 2 ∧
    (clearStatus (BitVec.twoPow 256 32) s).ev.status.getLsbD 32 = false := by decide +kernel

/-- R35: the link down stops nothing but the link. -/
theorem test_link_down : after .pcieLinkDown { State.reset with ph := { pcieUp := true } } (fun t => t.ph.pcieUp) = some false := by decide +kernel

/-- R167: rail samples enough take 6 dB off path 63's gain, and the return gives it back. -/
theorem test_protection : after (.protectionStep 63 (railWords 64)) svcState (fun t => (appliedGain t 63, appliedGain t 62)) = some (14, 20) ∧
    after (.protectionReturn 63) { svcState with ul := { reduction := tset 0 [] 63 6 } } (fun t => appliedGain t 63) = some 20 := by decide +kernel

/-- The front of the queue takes effect, and the rest waits. -/
theorem test_step_takes_front : ∃ t, step { State.reset with pending := [.pcieLinkDown, .pcieLinkUp] } = .next t ∧ t.pending = [.pcieLinkUp] :=
  ⟨_, rfl, rfl⟩

/-- No word spells a command: the table gives no row bits. -/
theorem test_no_word_decodes : decodeTableWord 32 0xFFFFFFFF = none := rfl

/-! ### Ill-formed commands: one for each check of `Instr.wf` -/

def symOk : SymName := ⟨3, 0, 9, 3, 13⟩
def noObs : UlObs := ⟨[], [], [], [], [], [], [], [], []⟩
theorem smoke_symbol : symOk.wf = true ∧ SymName.wf { symOk with carrier := 4 } = false ∧ SymName.wf { symOk with subframe := 10 } = false ∧
    SymName.wf { symOk with slot := 4 } = false ∧ SymName.wf { symOk with symbol := 14 } = false := by decide
theorem smoke_sources : CaptureSrc.wf (.host 64) = false ∧ CaptureSrc.wf (.adapt 64 0) = false ∧ CaptureSrc.wf (.adapt 0 16) = false ∧
    PadSource.wf (.message 8 []) = false ∧ W2Source.wf (.pcie 0x4000000 1) = false ∧ W2Source.wf (.write 0x3FFFFFF [0, 0]) = false ∧
    W0Source.wf (.pcie 0x12000 4) = false ∧ W0Source.wf (.pcie 0 0) = false ∧ W0Source.wf (.pcie 0 9) = false := by decide
theorem smoke_rings : (Instr.sysHello 8 []).wf = false ∧ (Instr.phDoorbell 8 0).wf = false ∧ (Instr.phHead 7 0).wf = false ∧
    (Instr.phHead 16 0).wf = false ∧ (Instr.ringDisable 16).wf = false ∧ (Instr.phDmaErr 16 2 1 0).wf = false ∧
    (Instr.phDmaErr 0 2 1 0).wf = false ∧ (Instr.phDmaErr 0 1 5 0).wf = false := by decide
theorem smoke_trestle : (Instr.add 8 0 0 (.imm 0)).wf = false ∧ (Instr.add 7 0 0 (.imm 0)).wf = true ∧ (Instr.quantumEnd 8).wf = false := by decide
theorem smoke_linear : (Instr.adaptationSolution 64 0 false 0 []).wf = false ∧ (Instr.adaptationSolution 0 16 false 0 []).wf = false ∧
    (Instr.adaptationSolution 0 0 false 256 []).wf = false ∧ (Instr.adaptationSolution 0 0 false 0 (List.replicate 49 (0, 0))).wf = false ∧
    (Instr.calComplete [⟨12, [⟨[], [], true, 0⟩], []⟩] .done).wf = false ∧ (Instr.calComplete [⟨11, [], []⟩] .done).wf = false ∧
    (Instr.calComplete [⟨11, List.replicate 4 ⟨[], [], true, 0⟩, []⟩] .done).wf = false ∧
    (Instr.calComplete [⟨6, [⟨[], [], true, 0⟩], [(64, 0)]⟩] .done).wf = false := by decide
theorem smoke_samples (xs : List IQ) (h : xs.length = 65537) : (Instr.captureComplete (.host 0) ⟨xs, []⟩).wf = false := by
  rw [Instr.wf, OrxRun.wf, h]; rfl
theorem smoke_parity : (Instr.captureComplete (.host 0) ⟨[], [65536]⟩).wf = false := by decide
theorem smoke_housekeeping : (Instr.biasRelease 0 [] 16384 0).wf = false ∧ (Instr.biasRelease 0 [] 0 16384).wf = false ∧
    (Instr.biasParked 80).wf = false ∧ (Instr.hkRead 0 [] 16384).wf = false ∧ (Instr.hkTrigger 64).wf = false ∧ (Instr.hkSlotQueued 64).wf = false ∧
    (Instr.hkConversionComplete 2 0 0).wf = false ∧ (Instr.hkConversionComplete 0 16384 0).wf = false ∧
    (Instr.hkConversionComplete 0 0 16384).wf = false ∧ (Instr.thermalRead 0 [] [(32, ⟨0, 0, 0⟩)]).wf = false ∧ (Instr.thermalResult 32 ⟨0, 0, 0⟩).wf = false := by decide
theorem smoke_registers : (Instr.rockerRegisterWrite 0x701C 0).wf = false ∧ (Instr.rockerRegisterWrite 0x6FFC 0).wf = false ∧
    (Instr.registerWrite 0x12000 4 0).wf = false ∧ (Instr.registerWrite 0 9 0).wf = false ∧ (Instr.registerWrite 0 0 0).wf = false ∧
    (Instr.registerWrite 0 4 (2 ^ 32)).wf = false := by decide
theorem smoke_fronthaul : (Instr.frameReceived 8 [] ⟨true, 0, 0, true⟩).wf = false ∧ (Instr.linkDown 8 1).wf = false ∧ (Instr.linkDown 0 4).wf = false ∧
    (Instr.dlPlayout 64 symOk [] [] []).wf = false ∧ (Instr.prachOccasion 32 0).wf = false ∧ (Instr.weightClaim true 4 0 0).wf = false ∧
    (Instr.weightClaim true 0 0 40).wf = false ∧ (Instr.protectionStep 64 ⟨0, []⟩).wf = false ∧
    (Instr.protectionStep 0 ⟨0, List.replicate 65 0⟩).wf = false ∧ (Instr.sectionUsable 0 true [(2097152, true)]).wf = false ∧
    DlFaults.wf ⟨[], [⟨64, 0, (0, 0), false⟩], [], []⟩ = false ∧ DlFaults.wf ⟨[], [], [⟨64, 0, (0, 0), false⟩], []⟩ = false ∧
    DlFaults.wf ⟨[], [], [], [(64, 0)]⟩ = false := by decide
theorem smoke_uplink : UlObs.wf noObs = true ∧ UlObs.wf { noObs with adc := [⟨64, 0, []⟩] } = false ∧
    UlObs.wf { noObs with parity := [(64, 0)] } = false ∧ UlObs.wf { noObs with overwritten := [(64, 0)] } = false ∧
    UlObs.wf { noObs with compressor := [1024] } = false ∧ UlObs.wf { noObs with fft := [⟨64, 0, (0, 0), false⟩] } = false ∧
    UlObs.wf { noObs with bf := [⟨32, 0, (0, 0), false⟩] } = false ∧ UlObs.wf { noObs with late := [1024] } = false ∧
    UlObs.wf { noObs with bufferFull := [1024] } = false ∧ (Instr.prachExport 1024 0 0 noObs).wf = false ∧
    (Instr.prachExport 0 4 0 noObs).wf = false ∧ (Instr.prachExport 0 0 12 noObs).wf = false := by decide
theorem smoke_rf : (Instr.tddEvent ⟨512, 0⟩).wf = false ∧ (Instr.rffeProgram 4 ⟨[], []⟩).wf = false ∧
    (Instr.rffeProgram 0 ⟨[⟨256, true, true⟩], []⟩).wf = false ∧ (Instr.rffeProgram 0 ⟨[], [(120, 1)]⟩).wf = false ∧
    (Instr.loQualified 8).wf = false ∧ (Instr.pllUnlock 5).wf = false ∧ (Instr.oscQualified 2).wf = false ∧
    (Instr.refMonitorTrip 0 4 ⟨0, none⟩).wf = false ∧ (Instr.refMonitorTrip 2 1 ⟨0, none⟩).wf = false ∧
    (Instr.refMonitorTrip 0 3 ⟨0, some (1, 0)⟩).wf = false ∧ (Instr.refMonitorTrip 0 1 ⟨0, some (3, 0)⟩).wf = false ∧
    (Instr.monitorWindowEnd 3 0).wf = false ∧ (Instr.ptpMasterChange ⟨some 8, 0, 0, 0, 0, 0, 0⟩).wf = false := by decide
theorem smoke_power : (Instr.quiesceTimeout 20).wf = false ∧ (Instr.pgGood 8).wf = false ∧ (Instr.wakeSenseTrip ⟨4, 0⟩).wf = false ∧ (Instr.wakeSenseRearm ⟨4, 0⟩).wf = false ∧
    (Instr.rxEnergyWake 64 0).wf = false ∧ (Instr.wakeStallTimeout 0 ⟨5, 0, []⟩).wf = false ∧ (Instr.wakeStallTimeout 20 ⟨1, 0, []⟩).wf = false ∧
    (Instr.leaseExpiry 24).wf = false ∧ (Instr.scrub [⟨9, 0, false, true⟩]).wf = false ∧ (Instr.advance ⟨zeros 223, none⟩).wf = false := by decide +kernel

end Sys2Proof.Tests
end

section
/-! SUPPORT. The words of W0 (Tables 2-10 to 2-18) in the state right after reset, block by block over all offsets of a block,
and from them O2. Every table of the reset state is empty, so each numbered part reads as its default. -/

namespace Sys2Proof.Machine

/-! ### The parts of the reset state that W0 shows -/

/-- The device ships in stage MANUFACTURE (R2), in which W0 serves every block and the Rocker registers are open (R63). -/
@[simp] theorem stageNow_reset : stageNow State.reset = .manufacture := by decide

@[simp] theorem ringOf_reset (n : Nat) : ringOf State.reset n = {} := rfl
@[simp] theorem leaseNow_reset (e : Nat) : leaseNow State.reset e = {} := rfl
@[simp] theorem sensorOf_reset (n : Nat) : sensorOf State.reset n = {} := rfl
@[simp] theorem routeOf_reset (b : Nat) : routeOf State.reset b = b % 4 + 256 * b + 0x4000 := rfl
@[simp] theorem eventCount_reset (e : Nat) : tget 0 State.reset.ev.count e = 0 := rfl
@[simp] theorem refusalCount_reset (m : Nat) : tget 0 State.reset.pwr.refCount m = 0 := rfl

/-- A refusal record that nothing has written is sixteen zero bytes (Table 2-15). -/
@[simp] theorem refBytes_reset (r : Nat) : refBytes State.reset r = zeros 16 := by
  simp [refBytes, tget, State.reset, leBytes, zeros]

theorem leNat_replicate_zero (n : Nat) : leNat (List.replicate n 0#8) = 0 := by
  induction n with
  | zero => rfl
  | succ n ih => simp [List.replicate_succ, leNat, ih]

/-- Every field of zero bytes reads 0. -/
@[simp] theorem u_zeros (m o n : Nat) : u (zeros m) o n = 0 := by
  simp [u, slice, zeros, leNat_replicate_zero]

@[simp] theorem wordOf_zero (k : Nat) : wordOf 0 k = 0 := by simp [wordOf]

/-! ### The mirrors -/

theorem refusalWord_reset (o : Nat) : refusalWord State.reset o = 0 := by
  have hn : refNewest State.reset = 0 := rfl
  unfold refusalWord
  split_ifs <;> simp [hn]

theorem leaseWord_reset (o : Nat) : leaseWord State.reset o = 0 := by
  unfold leaseWord
  split_ifs <;> simp [leaseLeft, b2n]

theorem thermalWord_reset (o : Nat) : thermalWord State.reset o = 0 := by
  have hst : thState State.reset = 0 := rfl
  have hh : hottest State.reset = 0 := rfl
  unfold thermalWord
  split_ifs <;> simp [hst, hh, wrapN, b2n]

/-- PERMITTED, bit 1 of ROCKER_CTRL, alone is set (Table 2-16). -/
theorem rockerRead_reset (k : Nat) : rockerRead State.reset k = if k = 0 then 2 else 0 := by
  have hreg : tget 0 State.reset.rk.reg k = 0 := rfl
  simp [rockerRead, rockerOpen, hreg]

/-! ### The blocks of Table 2-9 -/

/-- PH_CTRL resets to ENABLE and LOC, PH_STATUS to EMPTY and SEQ_UNSET, every other register of a ring to 0 (Table 2-11). -/
theorem w0Read_ring_reset {n o : Nat} (hn : n < 16) (ho : o < 64) :
    w0Read State.reset (0x1000 + o + 64 * n) = if o = 0x08 then 3 else if o = 0x18 then 0x82 else 0 := by
  have hb : (0x1000 + o + 64 * n) / 0x1000 = 1 := by omega
  have hr : (0x1000 + o + 64 * n) % 0x1000 = 64 * n + o := by omega
  have hlt : 64 * n + o < 0x400 := by omega
  have hm : (64 * n + o) % 64 = o := by omega
  have hs : ringStatus {} = 0x82 := rfl
  simp only [w0Read, stageNow_reset, reduceCtorEq, false_and, if_false, hb, hr, hlt, if_true, hm, ringOf_reset]
  split <;> simp_all [b2n]

theorem w0Read_events_reset {o : Nat} (h : o / 0x1000 = 2) (hr : o % 0x1000 < 0x80 ∨ 0xC0 ≤ o % 0x1000) :
    w0Read State.reset o = 0 := by
  have hst : State.reset.ev.status = 0 := rfl
  have hmask : State.reset.ev.mask = 0 := rfl
  have hpend : evPending State.reset = 0 := rfl
  have hsum : ((List.range 16).map fun b => b2n (summaryBit State.reset b) * 2 ^ b).sum = 0 := by decide
  have hroute : ¬(0x80 ≤ o % 0x1000 ∧ o % 0x1000 < 0xC0) := by omega
  simp only [w0Read, stageNow_reset, reduceCtorEq, false_and, if_false, h, hst, hmask, hpend, hsum, hroute]
  split_ifs <;> simp

theorem w0Read_route_reset {b : Nat} (hb : b < 16) : w0Read State.reset (0x2080 + 4 * b) = b % 4 + 256 * b + 0x4000 := by
  have hk : (0x2080 + 4 * b) / 0x1000 = 2 := by omega
  have hr : (0x2080 + 4 * b) % 0x1000 = 0x80 + 4 * b := by omega
  have hi : (0x80 + 4 * b - 0x80) / 4 = b := by omega
  simp only [w0Read, stageNow_reset, reduceCtorEq, false_and, if_false, hk, hr]
  rw [if_neg (by omega), if_neg (by omega), if_neg (by omega), if_neg (by omega), if_pos (by omega), hi, routeOf_reset]

theorem w0Read_emergency_reset {o : Nat} (h : o / 0x1000 = 3) : w0Read State.reset o = 0 := by
  have he : emergStatus State.reset = 0 := rfl
  simp [w0Read, h, he]

theorem w0Read_padHold_reset {o : Nat} (h : o / 0x1000 = 4) : w0Read State.reset o = 0 := by
  have hh : State.reset.em.held = 0 := rfl
  have hr : State.reset.em.refused = 0 := rfl
  simp [w0Read, h, hh, hr]

/-- The servo is free-running, VALID is clear and the latched values are 0 (Table 2-14). -/
theorem w0Read_time_reset {o : Nat} (h : o / 0x1000 = 5) : w0Read State.reset o = 0 := by
  have hservo : State.reset.tm.servo = 0 := rfl
  have hvalid : State.reset.tm.capValid = false := rfl
  have hraw : State.reset.tm.capRaw = 0 := rfl
  have hsec : wrapN 64 (secOf (9 * State.reset.tm.capC)) = 0 := rfl
  have hns : nsOf (9 * State.reset.tm.capC) = 0 := rfl
  have hfrac : fracOf (9 * State.reset.tm.capC) = 0 := rfl
  simp only [w0Read, stageNow_reset, reduceCtorEq, false_and, if_false, h, hservo, hvalid, hraw, hsec, hns, hfrac, wordOf_zero]
  split <;> rfl

theorem w0Read_refusals_reset {o : Nat} (h : o / 0x1000 = 6) : w0Read State.reset o = 0 := by
  simp [w0Read, h, refusalWord_reset]

theorem w0Read_rocker_reset {k : Nat} (hk : k < 7) : w0Read State.reset (0x7000 + 4 * k) = if k = 0 then 2 else 0 := by
  have hb : (0x7000 + 4 * k) / 0x1000 = 7 := by omega
  have hr : (0x7000 + 4 * k) % 0x1000 = 4 * k := by omega
  have hlt : 4 * k < 0x1C := by omega
  simp [w0Read, hb, hr, hlt, rockerRead_reset]

theorem w0Read_leases_reset {o : Nat} (h : o / 0x1000 = 8) : w0Read State.reset o = 0 := by
  simp [w0Read, h, leaseWord_reset]

theorem w0Read_thermal_reset {o : Nat} (h : o / 0x1000 = 9) : w0Read State.reset o = 0 := by
  simp [w0Read, h, thermalWord_reset]

/-- Settles O2: each stated offset falls in a block whose words at reset the lemmas above give. -/
theorem resetLeavesStatedValues : Obligations.ResetLeavesStatedValues := by
  unfold Obligations.ResetLeavesStatedValues
  refine ⟨?system, ?pigeonholes, ?ignored, ⟨?events, ?routes, ?counts⟩, ⟨?emergency, ?held, ?refused, ?time⟩,
    ⟨?records, ?refusalCounts, ?newest⟩, ⟨?rockerCtrl, ?rocker⟩, ?leases, ?thermal, rfl, rfl, rfl, rfl⟩
  case system => exact ⟨rfl, rfl, rfl, rfl, stageNow_reset⟩
  case pigeonholes =>
    intro n hn
    exact ⟨w0Read_ring_reset hn (o := 0x00) (by decide), w0Read_ring_reset hn (o := 0x04) (by decide),
      w0Read_ring_reset hn (o := 0x08) (by decide), w0Read_ring_reset hn (o := 0x10) (by decide),
      w0Read_ring_reset hn (o := 0x14) (by decide), w0Read_ring_reset hn (o := 0x18) (by decide),
      w0Read_ring_reset hn (o := 0x1C) (by decide)⟩
  case ignored => rfl
  case events => exact fun k hk => w0Read_events_reset (by omega) (by omega)
  case routes => exact fun b hb => w0Read_route_reset hb
  case counts => exact fun j hj => w0Read_events_reset (by omega) (by omega)
  case emergency => exact w0Read_emergency_reset rfl
  case held => exact w0Read_padHold_reset rfl
  case refused => exact w0Read_padHold_reset rfl
  case time => exact fun k hk => w0Read_time_reset (by omega)
  case records => exact fun r hr k hk => w0Read_refusals_reset (by omega)
  case refusalCounts => exact fun m hm => w0Read_refusals_reset (by omega)
  case newest => exact w0Read_refusals_reset rfl
  case rockerCtrl => rw [show (0x7000 : Nat) = 0x7000 + 4 * 0 from rfl, w0Read_rocker_reset (by decide)]; rfl
  case rocker => exact fun k hk h0 => (w0Read_rocker_reset hk).trans (if_neg h0)
  case leases => exact fun e he => ⟨w0Read_leases_reset (by omega), w0Read_leases_reset (by omega)⟩
  case thermal => exact fun k hk => w0Read_thermal_reset (by omega)

end Sys2Proof.Machine
end

section
/-! SUPPORT. What raising and counting only add to: status bits stay set, and what the device has put out stays in front of what
comes later. -/

namespace Sys2Proof.Machine

/-- From `s` to `t` no status bit is cleared and output is only appended. -/
structure Grows (s t : State) : Prop where
  status : ∀ e, s.ev.status.getLsbD e = true → t.ev.status.getLsbD e = true
  out : s.out <+: t.out

namespace Grows

theorem of_eq {s t : State} (hev : t.ev = s.ev) (hout : t.out = s.out) : Grows s t :=
  ⟨fun _ h => hev ▸ h, hout ▸ List.prefix_rfl⟩

theorem refl (s : State) : Grows s s := of_eq rfl rfl

theorem trans {r s t : State} (h : Grows r s) (k : Grows s t) : Grows r t :=
  ⟨fun e x => k.status e (h.status e x), h.out.trans k.out⟩

theorem after {r s t : State} (k : Grows s t) (h : Grows r s) : Grows r t := h.trans k

theorem ite {c : Prop} [Decidable c] {s a b : State} (ha : Grows s a) (hb : Grows s b) : Grows s (if c then a else b) := by
  split <;> assumption

section Fold
variable {α : Type} {g : State → α → State} (h : ∀ t x, Grows t (g t x))
include h

theorem foldl (l : List α) (s : State) : Grows s (l.foldl g s) := by
  induction l generalizing s with
  | nil => exact refl s
  | cons a l ih => exact (h s a).trans (ih (g s a))

/-- An event that one step of a fold raises is set at its end. -/
theorem foldl_status {e : Nat} {a : α} (ha : ∀ t, (g t a).ev.status.getLsbD e = true) {l : List α} (hmem : a ∈ l) (s : State) :
    (l.foldl g s).ev.status.getLsbD e = true := by
  induction l generalizing s with
  | nil => cases hmem
  | cons b l ih =>
    rcases List.mem_cons.mp hmem with rfl | hmem
    · exact (foldl h l _).status e (ha s)
    · exact ih hmem (g s b)

end Fold

end Grows

/-! ### Raising an event -/

theorem setRing_grows (n : Nat) (g : Ring) (s : State) : Grows s (setRing n g s) := .of_eq rfl rfl

theorem placeMsg_grows (n : Nat) (m : List Byte) (s : State) : Grows s (placeMsg n m s) where
  status := (placeMsg_posts n m s).status
  out := by
    unfold placeMsg setRing
    dsimp only
    split
    · exact List.prefix_rfl
    · exact List.prefix_append ..

theorem markEvent_grows (e : Nat) (d : List Byte) (s : State) : Grows s (markEvent e d s) where
  status := (markEvent_posts e d s).status
  out := by
    unfold markEvent sendMsix
    dsimp only
    split
    · exact List.prefix_rfl
    · exact List.prefix_append ..

theorem postNotify_grows (e : Nat) (s : State) : Grows s (postNotify e s) := by
  unfold postNotify
  dsimp only
  split
  · exact ((setRing_grows 15 _ s).trans (placeMsg_grows 15 _ _)).trans (markEvent_grows ..)
  · exact setRing_grows 15 _ s

theorem raise_grows (e : Nat) (d : List Byte) (s : State) : Grows s (raise e d s) := by
  unfold raise
  dsimp only
  split
  · exact (markEvent_grows ..).trans (postNotify_grows ..)
  · exact markEvent_grows ..

theorem raiseTimes_grows (n e : Nat) (d : List Byte) (s : State) : Grows s (raiseTimes n e d s) :=
  Grows.foldl (fun t _ => raise_grows e d t) _ s

/-! ### Counting -/

theorem statAdd_grows (src r w n : Nat) (s : State) : Grows s (statAdd src r w n s) := .of_eq rfl rfl

theorem countSat_grows (src r w n e : Nat) (d : List Byte) (s : State) : Grows s (countSat src r w n e d s) := by
  unfold countSat
  exact .ite (.refl s) ((statAdd_grows ..).trans (raiseTimes_grows ..))

@[simp] theorem statGet_statAdd_self (src r w n : Nat) (s : State) :
    statGet src r w (statAdd src r w n s) = satAdd 0xFFFFFFFF (statGet src r w s) n := tget_tset_self ..

theorem statGet_congr {s t : State} (h : t.stat = s.stat) (src r w : Nat) : statGet src r w t = statGet src r w s := by
  simp [statGet, h]

theorem linkCount_congr {s t : State} (h : t.fh = s.fh) (n k : Nat) : linkCount t n k = linkCount s n k := by
  simp [linkCount, h]

/-! ### Memory errors (R26) -/

theorem sramError_grows (double : Bool) (m k a : Nat) (s : State) : Grows s (sramError double m k a s) :=
  (raise_grows ..).after (.of_eq (by simp) (by simp))

theorem bufferError_grows (m : Nat) (s : State) (double : Bool) : Grows s (bufferError m s double) :=
  (sramError_grows ..).after (.of_eq (by simp) (by simp))

/-- A memory error raises EV_SRAM_DED or EV_SRAM_SEC. -/
theorem bufferError_status (m : Nat) (s : State) (double : Bool) :
    (bufferError m s double).ev.status.getLsbD (if double then 209 else 210) = true :=
  raise_status _ _ _ (by split <;> decide)

end Sys2Proof.Machine
end

section
/-! SUPPORT. The section parser and the read-back of stored sections (R21, R26, R92, R94, R131): one equation per case, and from
them O57. -/

namespace Sys2Proof.Machine

/-! ### The parser leaves the ports alone -/

@[simp] theorem ingressDrop_port (n cause k : Nat) (s : State) : (ingressDrop n cause k s).fh.port = s.fh.port := by
  simp [ingressDrop, countLink]

@[simp] theorem parseSection_port (im : Image) (f : Flow) (port t : Nat) (n : SymName) (air arrival : Instant) (h payload : List Byte)
    (s : State) : (parseSection im f port t n air arrival h payload s).fh.port = s.fh.port := by
  unfold parseSection
  cases fieldError im f t n h with
  | some w => simp
  | none =>
    dsimp only
    split_ifs <;> simp [countLink]

@[simp] theorem parseMessage_port (n : Nat) (q : Ingress) (s : State) : (parseMessage n q s).fh.port = s.fh.port := by
  unfold parseMessage
  dsimp only
  split
  · simp
  · split
    · rw [ingressDrop_port]
      split <;> rfl
    · refine List.foldlRecOn (motive := fun t : State => t.fh.port = s.fh.port) _ _ ?start fun t ht x _ => ?step
      case start => split <;> rfl
      case step => rw [parseSection_port, ht]

/-! ### SECTION_PARSE -/

/-- The parser's message is gone from its FIFO before it is judged. -/
theorem exec_sectionParse {s : State} {n : Nat} {q : Ingress} {qs : List Ingress} (hn : n < 8) (hready : s.pwr.ready.getLsbD 3 = true)
    (hfifo : (portOf s n).fifo = q :: qs) :
    exec (.sectionParse n) s = .next (parseMessage n q (purgeBuffer (setPort n { portOf s n with fifo := qs } s))) := by
  simp [exec, execSectionParse, hfifo, hn, hready]

/-- The flow that governs a message is a matter of the configuration. -/
theorem governingFlow_congr {s t : State} (h : t.cfg = s.cfg) : governingFlow t = governingFlow s := by
  unfold governingFlow
  rw [h]

/-- A message without a governing flow is dropped with cause 14 and counted in word 10 (R92). -/
theorem parseMessage_ungoverned {n : Nat} {q : Ingress} {s : State} (h : governingFlow s q.pcId (fitBytes 8 q.bytes) q.arrival = none) :
    parseMessage n q s = ingressDrop n 14 10 s := by
  simp only [parseMessage, h]

theorem linkCount_ingressDrop_self (n cause k : Nat) (s : State) :
    linkCount (ingressDrop n cause k s) n k = (linkCount s n k + 1) % 2 ^ 64 := by
  rw [linkCount_congr (t := ingressDrop n cause k s) (s := countLink n k 1 s) (by simp [ingressDrop]), linkCount_countLink, if_pos rfl]

@[simp] theorem ingressDrop_status (n cause k : Nat) (s : State) : (ingressDrop n cause k s).ev.status.getLsbD 24 = true :=
  raise_status _ _ _ (by decide)

/-! ### One section of a message -/

section Parse
variable {im : Image} {f : Flow} {port t : Nat} {n : SymName} {air arrival : Instant} {h payload : List Byte} {s : State}
  (hfield : fieldError im f t n h = none) (hopen : air - winOpen (imageAt s air) port * (usU : Int) ≤ arrival)
include hfield hopen

/-- A section after its window has closed is counted for its flow and its port, and raised (R94). -/
theorem parseSection_late (hclose : air - winClose (imageAt s air) port * (usU : Int) ≤ arrival) :
    ∃ d, parseSection im f port t n air arrival h payload s = raise 32 d (countLink port 12 1 (statAdd 0x10 f.idx 2 1 s)) := by
  simp only [parseSection, hfield]
  rw [if_neg (not_lt.mpr hopen), if_pos hclose]
  exact ⟨_, rfl⟩

/-- A section inside its window is stored where the buffer is empty and has room (R94, R95). -/
theorem parseSection_stored (hclose : arrival < air - winClose (imageAt s air) port * (usU : Int)) (hempty : s.dl.buffer = [])
    (hroom : h.length + payload.length ≤ 16777216) :
    ∃ x, (parseSection im f port t n air arrival h payload s).dl = { s.dl with buffer := [x], nextId := s.dl.nextId + 1 } ∧
      x.id = s.dl.nextId ∧ x.flow = f.idx ∧ x.sym = n ∧ x.air = air ∧ x.head = h ∧ x.payload = payload ∧ x.usable = false := by
  have hused : bufferUsed s = 0 := by simp [bufferUsed, hempty]
  have hdup : ∀ x, isDuplicate s x = false := fun x => by simp [isDuplicate, hempty]
  obtain ⟨x, s1, heq, hdl, hx⟩ : ∃ (x : Section) (s1 : State), parseSection im f port t n air arrival h payload s =
      { s1 with dl := { s1.dl with buffer := s1.dl.buffer ++ [x], nextId := s1.dl.nextId + 1 } } ∧ s1.dl = s.dl ∧ x.id = s.dl.nextId ∧
      x.flow = f.idx ∧ x.sym = n ∧ x.air = air ∧ x.head = h ∧ x.payload = payload ∧ x.usable = false := by
    simp only [parseSection, hfield]
    rw [if_neg (not_lt.mpr hopen), if_neg (not_le.mpr hclose), if_neg (by simp [hdup]), if_neg (by omega)]
    exact ⟨_, _, rfl, by split <;> simp, rfl, rfl, rfl, rfl, rfl, rfl, rfl⟩
  exact ⟨x, by simp [heq, hdl, hempty], hx⟩

end Parse

/-! ### Read-back: the parts -/

theorem countFailure_grows (x : Section) (cause : Nat) (s : State) : Grows s (countFailure x cause s) :=
  (statAdd_grows ..).trans (raise_grows ..)

@[simp] theorem countFailure_status (x : Section) (cause : Nat) (s : State) : (countFailure x cause s).ev.status.getLsbD 33 = true :=
  raise_status _ _ _ (by decide)

theorem failSection_grows (x : Section) (s : State) : Grows s (failSection x s) := .of_eq rfl rfl

@[simp] theorem setSection_buffer (x : Section) (s : State) :
    (setSection x s).dl.buffer = s.dl.buffer.map fun y => if y.id = x.id then x else y := rfl

@[simp] theorem failSection_buffer (x : Section) (s : State) : (failSection x s).dl.buffer =
    s.dl.buffer.map fun y => if y.id = x.id then { x with usable := false, failed := true, payload := [] } else y := rfl

@[simp] theorem applyOverlap_buffer (x : Section) (s : State) : (applyOverlap x s).dl.buffer = s.dl.buffer := by
  unfold applyOverlap
  dsimp only
  split <;> simp

theorem applyOverlap_grows (x : Section) (s : State) : Grows s (applyOverlap x s) := by
  unfold applyOverlap
  dsimp only
  split
  · exact .refl s
  · exact ((raise_grows ..).after (statAdd_grows ..)).after (.of_eq rfl rfl)

theorem deliverNow_grows (x : Section) (s : State) : Grows s (deliverNow x s) := .of_eq (by simp) (by simp)

/-- A delivery that is applied at once is marked so; nothing else of the buffer changes (R198). -/
theorem deliverNow_keeps {x y : Section} {s : State} (hy : y ∈ s.dl.buffer) :
    ∃ z ∈ (deliverNow x s).dl.buffer, z.id = y.id ∧ z.usable = y.usable := by
  unfold deliverNow
  dsimp only
  split
  · refine ⟨if y.id = x.id then { y with applied := true } else y, ?_, ?_⟩
    · exact List.mem_map.mpr ⟨y, by simpa using hy, rfl⟩
    · split <;> exact ⟨rfl, rfl⟩
  · exact ⟨y, hy, rfl, rfl⟩

theorem makeUsable_grows (x : Section) (s : State) : Grows s (makeUsable x s) := by
  unfold makeUsable
  dsimp only
  split
  · exact ((deliverNow_grows ..).after (applyOverlap_grows ..)).after (.of_eq rfl rfl)
  · exact (applyOverlap_grows ..).after (.of_eq rfl rfl)

/-- A section other than a weight delivery only becomes usable. -/
theorem makeUsable_buffer {x : Section} {s : State} (h : x.stype ≠ 3) :
    (makeUsable x s).dl.buffer = s.dl.buffer.map fun y => if y.id = x.id then { x with usable := true } else y := by
  simp [makeUsable, h]

theorem makeUsable_mem {x : Section} {s : State} (hx : x ∈ s.dl.buffer) :
    ∃ y ∈ (makeUsable x s).dl.buffer, y.id = x.id ∧ y.usable = true := by
  have hmem : { x with usable := true } ∈ s.dl.buffer.map fun y => if y.id = x.id then { x with usable := true } else y :=
    List.mem_map.mpr ⟨x, hx, if_pos rfl⟩
  by_cases h : x.stype = 3
  · simp only [makeUsable, if_pos h]
    exact deliverNow_keeps (y := { x with usable := true }) (by simpa using hmem)
  · exact ⟨{ x with usable := true }, by rw [makeUsable_buffer h]; exact hmem, rfl, rfl⟩

/-! ### Words with a double-bit error (R26) -/

/-- The failure that strikes a section is counted once, whatever becomes of the section. -/
def struckOnce (x : Section) (s : State) : State := if x.struck = [] then countFailure x 2 s else s

theorem struckOnce_grows (x : Section) (s : State) : Grows s (struckOnce x s) := .ite (countFailure_grows ..) (.refl s)

@[simp] theorem struckOnce_dl (x : Section) (s : State) : (struckOnce x s).dl = s.dl := by simp [struckOnce]

theorem struckOnce_status {x : Section} {s : State} (h : x.struck = []) : (struckOnce x s).ev.status.getLsbD 33 = true := by
  simp [struckOnce, h]

/-- A data section whose header is sound goes on without the words struck. -/
theorem strikeSection_data {x : Section} {words : List Nat} (s : State) (htype : x.stype = 1)
    (hsound : ∀ w ∈ words, x.head.length ≤ 8 * w) :
    strikeSection x words s = setSection { x with struck := x.struck ++ words } (struckOnce x s) :=
  if_pos ⟨htype, by simpa using hsound⟩

/-- Any other section fails as a whole. -/
theorem strikeSection_fails {x : Section} {words : List Nat} (s : State) (h : x.stype ≠ 1 ∨ ∃ w ∈ words, 8 * w < x.head.length) :
    strikeSection x words s = failSection { x with struck := x.struck ++ words } (struckOnce x s) :=
  if_neg fun ⟨htype, hsound⟩ => h.elim (· htype) fun ⟨w, hw, hlt⟩ =>
    absurd (of_decide_eq_true (List.all_eq_true.mp hsound w hw)) (by omega)

/-! ### SECTION_USABLE -/

/-- The section of a handle that has not failed. -/
def standing (id : Nat) (s : State) : Option Section := s.dl.buffer.find? fun y => decide (y.id = id) && !y.failed

/-- What the read-back makes of the section that still stands after the errors of its words. -/
def readBack (id : Nat) (crcOk : Bool) (s : State) : State :=
  match standing id s with
  | none => s
  | some y =>
    if crcOk = false then failSection y (if y.struck = [] then countFailure y 1 s else s)
    else if y.usable then s else makeUsable y s

theorem readBack_gone {id : Nat} {crcOk : Bool} {s : State} (h : standing id s = none) : readBack id crcOk s = s := by
  simp only [readBack, h]

theorem readBack_failed {id : Nat} {s : State} {y : Section} (h : standing id s = some y) :
    readBack id false s = failSection y (if y.struck = [] then countFailure y 1 s else s) := by
  simp only [readBack, h, if_true]

theorem readBack_again {id : Nat} {s : State} {y : Section} (h : standing id s = some y) (hy : y.usable = true) :
    readBack id true s = s := by
  simp [readBack, h, hy]

theorem readBack_good {id : Nat} {s : State} {y : Section} (h : standing id s = some y) (hy : y.usable = false) :
    readBack id true s = makeUsable y s := by
  simp [readBack, h, hy]

theorem readBack_grows (id : Nat) (crcOk : Bool) (s : State) : Grows s (readBack id crcOk s) := by
  unfold readBack
  split
  · exact .refl s
  · exact .ite ((Grows.ite (countFailure_grows ..) (.refl s)).trans (failSection_grows ..)) (.ite (.refl s) (makeUsable_grows ..))

theorem standing_id {id : Nat} {s : State} {x : Section} (h : standing id s = some x) : x.id = id := by
  have := List.find?_some h
  simp_all

theorem standing_not_failed {id : Nat} {s : State} {x : Section} (h : standing id s = some x) : x.failed = false := by
  have := List.find?_some h
  simp_all

theorem standing_mem {id : Nat} {s : State} {x : Section} (h : standing id s = some x) : x ∈ s.dl.buffer := List.mem_of_find?_eq_some h

theorem standing_congr {s t : State} (h : t.dl.buffer = s.dl.buffer) (id : Nat) : standing id t = standing id s := by
  simp only [standing, h]

/-- A section that takes a new form stands in it, unless the form is a failed one. -/
theorem standing_replaced {id : Nat} {s t : State} {x y : Section} (hx : standing id s = some x) (hy : y.id = id)
    (ht : t.dl.buffer = s.dl.buffer.map fun z => if z.id = id then y else z) :
    standing id t = if y.failed then none else some y := by
  have hmem := standing_mem hx
  have hid := standing_id hx
  unfold standing
  rw [ht, List.find?_map]
  cases hf : y.failed with
  | true =>
    simp only [if_true, Option.map_eq_none_iff, List.find?_eq_none]
    intro z _
    by_cases hz : z.id = id <;> simp [hz, hf]
  | false =>
    obtain ⟨z, hz⟩ : ∃ z, s.dl.buffer.find?
        ((fun z => decide (z.id = id) && !z.failed) ∘ fun z => if z.id = id then y else z) = some z :=
      Option.isSome_iff_exists.mp (List.find?_isSome.mpr ⟨x, hmem, by simp [hid, hy, hf]⟩)
    have hzid : z.id = id := by
      have := List.find?_some hz
      by_contra hne
      simp [hne] at this
    rw [hz]
    simp [hzid]

/-- The errors of the words come first, then what the read-back found. -/
theorem exec_sectionUsable {id : Nat} {s : State} {x : Section} (hx : standing id s = some x) (crcOk : Bool) (struck : List (Nat × Bool)) :
    exec (.sectionUsable id crcOk struck) s =
      let s0 := (struck.map fun e => e.2).foldl (bufferError 1) s
      let double := (struck.filter fun e => e.2).map fun e => e.1
      .next (readBack id crcOk (if double = [] then s0 else strikeSection x double s0)) := by
  unfold standing at hx
  simp only [exec, execSectionUsable, hx, readBack, standing]
  generalize (if (struck.filter fun e => e.2).map (fun e => e.1) = [] then _ else _ : State) = s1
  cases s1.dl.buffer.find? fun y => decide (y.id = id) && !y.failed with
  | none => rfl
  | some y =>
    cases crcOk with
    | false => rfl
    | true => exact (apply_ite Host.Outcome.next _ _ _).symm

/-- Words that are all read with a double-bit error. -/
theorem exec_sectionUsable_double {id : Nat} {s : State} {x : Section} (hx : standing id s = some x) (crcOk : Bool) {ws : List Nat}
    (hws : ws ≠ []) : exec (.sectionUsable id crcOk (ws.map fun w => (w, true))) s =
      .next (readBack id crcOk (strikeSection x ws (ws.foldl (fun t _ => bufferError 1 t true) s))) := by
  have hdouble : ((ws.map fun w => (w, true)).filter fun e => e.2).map (fun e => e.1) = ws := by
    induction ws with
    | nil => rfl
    | cons w ws ih => by_cases h : ws = [] <;> simp_all
  rw [exec_sectionUsable hx]
  simp only [hdouble, if_neg hws, List.foldl_map]

/-! ### The clauses of O57 -/

/-- The parser takes the oldest message of one port and touches no other port. -/
theorem sectionParse_takes {s : State} {n : Nat} {q : Ingress} {qs : List Ingress} (hn : n < 8) (hready : s.pwr.ready.getLsbD 3 = true)
    (hfifo : (portOf s n).fifo = q :: qs) :
    ∃ t, exec (.sectionParse n) s = .next t ∧ portOf t n = { portOf s n with fifo := qs } ∧ (∀ j, j ≠ n → portOf t j = portOf s j) ∧
      t.cfg = s.cfg ∧ t.bf = s.bf ∧
      (governingFlow s q.pcId (fitBytes 8 q.bytes) q.arrival = none → linkCount t n 10 = (linkCount s n 10 + 1) % 2 ^ 64 ∧
        t.ev.status.getLsbD 24 = true) := by
  have hport : ∀ j, portOf (parseMessage n q (purgeBuffer (setPort n { portOf s n with fifo := qs } s))) j =
      if j = n then { portOf s n with fifo := qs } else portOf s j := fun j => by
    rw [← portOf_setPort]
    simp [portOf]
  refine ⟨_, exec_sectionParse hn hready hfifo, by simp [hport], fun j hj => by simp [hport, hj], by simp, by simp, fun hgov => ?_⟩
  rw [← governingFlow_congr (t := purgeBuffer (setPort n { portOf s n with fifo := qs } s)) (by simp)] at hgov
  rw [parseMessage_ungoverned hgov, linkCount_ingressDrop_self]
  exact ⟨rfl, ingressDrop_status ..⟩

section ReadBack
variable {s : State} {id : Nat} {x : Section} (hx : standing id s = some x)
include hx

/-- Double-bit errors are counted and raised; the section counts once, and what is left of it follows its type. -/
theorem sectionUsable_double (ok : Bool) {ws : List Nat} (hws : ws ≠ []) :
    ∃ t, exec (.sectionUsable id ok (ws.map fun w => (w, true))) s = .next t ∧ t.ev.status.getLsbD 209 = true ∧
      (x.struck = [] → t.ev.status.getLsbD 33 = true) ∧
      ((x.stype ≠ 1 ∨ ∃ w ∈ ws, 8 * w < x.head.length) → t.dl.buffer = s.dl.buffer.map fun z =>
        if z.id = id then { x with struck := x.struck ++ ws, usable := false, failed := true, payload := [] } else z) ∧
      (x.stype = 1 → (∀ w ∈ ws, x.head.length ≤ 8 * w) → ok = true → x.usable = true → t.dl.buffer = s.dl.buffer.map fun z =>
        if z.id = id then { x with struck := x.struck ++ ws } else z) := by
  have hid := standing_id hx
  let s0 := ws.foldl (fun t _ => bufferError 1 t true) s
  have hdl : s0.dl = s.dl := foldl_dl _ (by simp) ws s
  have hded : s0.ev.status.getLsbD 209 = true := by
    obtain ⟨w, hw⟩ := List.exists_mem_of_ne_nil ws hws
    exact Grows.foldl_status (fun t _ => bufferError_grows 1 t true) (a := w) (fun t => bufferError_status 1 t true) hw s
  have hafter : Grows (struckOnce x s0) (readBack id ok (strikeSection x ws s0)) := by
    refine (readBack_grows ..).after ?_
    by_cases hkeep : x.stype ≠ 1 ∨ ∃ w ∈ ws, 8 * w < x.head.length
    · rw [strikeSection_fails s0 hkeep]
      exact failSection_grows ..
    · push Not at hkeep
      rw [strikeSection_data s0 hkeep.1 hkeep.2]
      exact .of_eq rfl rfl
  refine ⟨_, exec_sectionUsable_double hx ok hws, hafter.status _ ((struckOnce_grows x s0).status _ hded),
    fun hfirst => hafter.status _ (struckOnce_status hfirst), fun hfail => ?fails, fun htype hsound hok hus => ?keeps⟩
  case fails =>
    have hbuf : (strikeSection x ws s0).dl.buffer = s.dl.buffer.map fun z =>
        if z.id = id then { x with struck := x.struck ++ ws, usable := false, failed := true, payload := [] } else z := by
      rw [strikeSection_fails s0 hfail, failSection_buffer, struckOnce_dl, hdl, hid]
    have hgone := standing_replaced hx (y := { x with struck := x.struck ++ ws, usable := false, failed := true, payload := [] }) hid hbuf
    rw [readBack_gone hgone, hbuf]
  case keeps =>
    have hbuf : (strikeSection x ws s0).dl.buffer = s.dl.buffer.map fun z =>
        if z.id = id then { x with struck := x.struck ++ ws } else z := by
      rw [strikeSection_data s0 htype hsound, setSection_buffer, struckOnce_dl, hdl, hid]
    have hstands := standing_replaced hx (y := { x with struck := x.struck ++ ws }) hid hbuf
    rw [if_neg (by simp [standing_not_failed hx])] at hstands
    rw [hok, readBack_again hstands hus, hbuf]

/-- A single-bit error is counted and raised, and the section goes on. -/
theorem sectionUsable_single (w : Nat) (hus : x.usable = true) :
    ∃ t, exec (.sectionUsable id true [(w, false)]) s = .next t ∧ t.dl = s.dl ∧ t.ev.status.getLsbD 210 = true := by
  have hstands : standing id (bufferError 1 s false) = some x := by rw [standing_congr (s := s) (by simp), hx]
  refine ⟨bufferError 1 s false, ?_, by simp, bufferError_status 1 s false⟩
  rw [exec_sectionUsable hx]
  simp [readBack_again hstands hus]

/-- A read-back that fails makes the section fail as a whole. -/
theorem sectionUsable_crc : ∃ t, exec (.sectionUsable id false []) s = .next t ∧
    (t.dl.buffer = s.dl.buffer.map fun z => if z.id = id then { x with usable := false, failed := true, payload := [] } else z) ∧
    (x.struck = [] → t.ev.status.getLsbD 33 = true) := by
  refine ⟨failSection x (if x.struck = [] then countFailure x 1 s else s), ?_, ?_, fun h => ?_⟩
  · rw [exec_sectionUsable hx]
    simp [readBack_failed hx]
  · rw [failSection_buffer, standing_id hx]
    split <;> simp
  · rw [if_pos h]
    exact countFailure_status ..

/-- A read-back that holds makes the section usable. -/
theorem sectionUsable_good (hus : x.usable = false) : ∃ t, exec (.sectionUsable id true []) s = .next t ∧
    (∃ y ∈ t.dl.buffer, y.id = id ∧ y.usable = true) ∧
    (x.stype ≠ 3 → t.dl.buffer = s.dl.buffer.map fun z => if z.id = id then { x with usable := true } else z) := by
  have hid := standing_id hx
  refine ⟨makeUsable x s, ?_, hid ▸ makeUsable_mem (standing_mem hx), fun htype => by rw [makeUsable_buffer htype, hid]⟩
  rw [exec_sectionUsable hx]
  simp [readBack_good hx hus]

end ReadBack

/-- Settles O57: the parser's and the read-back's clauses, one lemma each. -/
theorem sectionsParsedAndUsable : Obligations.SectionsParsedAndUsable := by
  unfold Obligations.SectionsParsedAndUsable
  refine ⟨fun s n q qs hn hready hfifo => sectionParse_takes hn hready hfifo, ?parse, ?readBack⟩
  case parse =>
    intro s im f n typ name air arr hd pl hfield
    refine ⟨fun hclose hopen => ?_, fun hopen hclose hempty hroom => parseSection_stored hfield hopen hclose hempty hroom⟩
    obtain ⟨d, hlate⟩ := parseSection_late (payload := pl) hfield hopen hclose
    rw [hlate]
    refine ⟨by simp, raise_status _ _ _ (by decide), ?_⟩
    rw [statGet_congr (s := statAdd 0x10 f.idx 2 1 s) (by simp), statGet_statAdd_self]
  case readBack =>
    intro s id x hx
    exact ⟨fun ok ws hws => sectionUsable_double hx ok hws, fun w hus => sectionUsable_single hx w hus, sectionUsable_crc hx,
      sectionUsable_good hx⟩

end Sys2Proof.Machine
end

section
/-! SUPPORT. Release, playout and class switch of the downlink (R20, R136, R137, R151, R152, R213, R218, R258): one equation per row,
and from them O58. -/

namespace Sys2Proof.Machine

/-! ### Release (R20) -/

theorem exec_dlSymbolRelease {s : State} {n : SymName} {im : Image} (him : releaseImage s n = some im)
    (hready : s.pwr.ready.getLsbD 3 = true) (f : DlFaults) :
    let air := airOf (ccMu im false n.carrier) n
    let w := advanceTo (air - tk pipeTicks) s
    exec (.dlSymbolRelease n f) s = if playsSymbol w air then .next (releaseSymbol im n air f w) else .next (dropData n air w) := by
  simp only [exec, execDlSymbolRelease, him, hready, if_true]

/-- The released symbol stands last in the list, not yet played. -/
theorem releaseSymbol_released (im : Image) (n : SymName) (air : Instant) (f : DlFaults) (s : State) :
    ∃ l r, (releaseSymbol im n air f s).dl.released = l ++ [r] ∧ r.sym = n ∧ r.air = air ∧ r.played = [] ∧ r.zeros = f.parity :=
  ⟨_, _, rfl, rfl, rfl, rfl, rfl⟩

theorem dropData_gone {n : SymName} {air : Instant} {s : State} {x : Section} (h : x ∈ (dropData n air s).dl.buffer) :
    ¬(x.stype = 1 ∧ x.sym = n ∧ x.air = air) := by
  have := (List.mem_filter.mp h).2
  simp only [Bool.not_eq_true', Bool.and_eq_false_iff, decide_eq_false_iff_not] at this
  tauto

theorem releaseSymbol_gone {im : Image} {n : SymName} {air : Instant} {f : DlFaults} {s : State} {x : Section}
    (h : x ∈ (releaseSymbol im n air f s).dl.buffer) : ¬(x.stype = 1 ∧ x.sym = n ∧ x.air = air) := dropData_gone h

/-! ### What a path sends (R136, R151) -/

theorem digestSamples_grows (p : Nat) (a : Int) (ws : List Word) (s : State) : Grows s (digestSamples p a ws s) :=
  .of_eq (by simp) (by simp)

theorem countPlayed_grows (p : Nat) (lo : Int) (x : Played) (s : State) (r : Released) : Grows s (countPlayed p lo x s r) :=
  ((countSat_grows ..).trans (countSat_grows ..)).trans (countSat_grows ..)

theorem cfrBudget_grows (p : Nat) (s : State) (r : Released) : Grows s (cfrBudget p s r) := by
  unfold cfrBudget
  dsimp only
  split_ifs
  · exact .refl s
  · exact .refl s
  · exact (raise_grows ..).after (statAdd_grows ..)
  · exact .refl s

/-- The words of the ticks go out first; counts and budgets only add to them. -/
theorem sendTicks_grows (p : Nat) (g : Playing) (lo hi : Int) (s : State) :
    Grows { s with out := s.out ++ [.dac p lo (playedOver s p g lo (hi - lo).toNat).words] } (sendTicks p g lo hi s) := by
  unfold sendTicks
  dsimp only
  exact (((Grows.foldl (cfrBudget_grows p) ..).after (.ite (.refl _) (statAdd_grows ..))).after
    (Grows.foldl (countPlayed_grows p lo _) ..)).after (digestSamples_grows ..)

theorem sendUpTo_out {s : State} {p : Nat} {t : Int} {g : Playing} {a b : Int} (hg : tget none s.dl.playing p = some g)
    (ha : heldFrom s = some a) (hb : heldTo s = some b) (hlt : max g.upTo a < min t b) : ∃ rest, (sendUpTo p t s).out =
      s.out ++ [.dac p (max g.upTo a) (playedOver s p g (max g.upTo a) (min t b - max g.upTo a).toNat).words] ++ rest := by
  obtain ⟨rest, hrest⟩ := (sendTicks_grows p g (max g.upTo a) (min t b) s).out
  refine ⟨rest, ?_⟩
  simp only [sendUpTo, hg, ha, hb, if_pos hlt]
  exact hrest.symm

/-- Sending moves on what the path has played, and nothing else of the downlink. -/
theorem sendUpTo_dl (p : Nat) (t : Int) (s : State) :
    (sendUpTo p t s).dl = { s.dl with playing := (sendUpTo p t s).dl.playing } := by
  unfold sendUpTo
  split
  · dsimp only
    split <;> simp
  · rfl

/-! ### Words of silent, missing and failed ticks -/

/-- Ticks counted as natural numbers and read as integers. -/
theorem bind_pure_cast (l : List Nat) : (l >>= fun k => pure (k : Int)) = l.map Nat.cast := by
  simp [List.map_eq_flatMap]

theorem getElem?_ticksFrom {a : Int} {n k : Nat} (hk : k < n) : (ticksFrom a n)[k]? = some (a + k) := by
  simp only [ticksFrom, bind_pure_cast]
  simp [hk]

theorem eights_length (l : List IQ) : (eights l).length = l.length - 7 := by
  induction l with
  | nil => rfl
  | cons x t ih =>
    simp only [eights, List.length_cons]
    split_ifs <;> simp <;> omega

theorem dpdOver_length (s : State) (p : Nat) (errs : List (Int × DpdFault)) (a : Int) (n : Nat) : (dpdOver s p errs a n).1.length = n := by
  simp [dpdOver, ticksFrom]

/-- Eight samples make a code, and the window reaches seven ticks back: each tick has its code. -/
theorem playedOver_codes_length (s : State) (p : Nat) (g : Playing) (a : Int) (n : Nat) : (playedOver s p g a n).codes.length = n := by
  simp [playedOver, codesOf, eights_length, dpdOver_length]

/-- The word of a tick that is silent, has no sample, or fails parity on the bridge is zero (R137, R151, R152). -/
theorem playedOver_zero {s : State} {p : Nat} {g : Playing} {a : Int} {n k : Nat} (hk : k < n)
    (h : a + k ∈ g.gaps ∨ a + k ∈ g.lost ∨ ∃ x ∈ s.dl.silence, x.holds p (delayU s (imageAt s (a * tickU)) false p) (a + k) = true) :
    (playedOver s p g a n).words[k]? = some 0 := by
  obtain ⟨c, hcode⟩ : ∃ c, (playedOver s p g a n).codes[k]? = some c :=
    ⟨_, List.getElem?_eq_getElem (by rwa [playedOver_codes_length])⟩
  unfold playedOver at hcode ⊢
  dsimp only at hcode ⊢
  rw [List.getElem?_map, (List.getElem?_zip_eq_some (z := (a + k, c))).mpr ⟨getElem?_ticksFrom hk, hcode⟩, Option.map_some]
  rw [if_pos]
  rcases h with h | h | ⟨x, hx, hholds⟩
  · simp [h]
  · simp [h]
  · simp only [Bool.or_eq_true, List.any_eq_true, Bool.and_eq_true, decide_eq_true_eq]
    cases hm : x.mute with
    | false => exact .inl (.inl (.inr ⟨x, hx, hm, hholds⟩))
    | true => exact .inl (.inl (.inl ⟨x, hx, hm, hholds⟩))

/-! ### Playout (R136, R137, R151, R213) -/

/-- The ticks of a symbol's start that had no sample, failed on the bridge or were struck stand, beside what earlier symbols left unsent. -/
theorem playFrom_keeps (a : Int) (gaps lost : List Nat) (errs : List DpdFault) (g : Option Playing) :
    let x := playFrom a gaps lost errs g
    (∀ k ∈ gaps, a + k ∈ x.gaps) ∧ (∀ k ∈ lost, a + k ∈ x.lost) ∧ (∀ e ∈ errs, (a + e.tick, e) ∈ x.errs) ∧
      ∀ y, g = some y → y.upTo ≤ x.upTo ∧ (∀ t ∈ y.gaps, y.upTo ≤ t → t ∈ x.gaps) ∧ (∀ t ∈ y.lost, y.upTo ≤ t → t ∈ x.lost) ∧
        ∀ e ∈ y.errs, y.upTo ≤ e.1 → e ∈ x.errs := by
  have hcast : ∀ l : List Nat, ∀ k ∈ l, a + k ∈ (l.map (Nat.cast (R := Int))).map fun k => a + k :=
    fun l k hk => List.mem_map_of_mem (List.mem_map_of_mem hk)
  have hstruck : ∀ e ∈ errs, (a + (e.tick : Int), e) ∈ errs.map fun f => (a + (f.tick : Int), f) := fun e he =>
    List.mem_map_of_mem (f := fun f : DpdFault => (a + (f.tick : Int), f)) he
  simp only [playFrom, bind_pure_cast]
  cases g with
  | none => exact ⟨hcast gaps, hcast lost, hstruck, nofun⟩
  | some y =>
    simp only [List.mem_dedup, List.mem_append, List.mem_filter, decide_eq_true_eq]
    refine ⟨fun k hk => .inr (hcast gaps k hk), fun k hk => .inr (hcast lost k hk), fun e he => .inr (hstruck e he), fun z hz => ?_⟩
    obtain rfl := Option.some.inj hz
    exact ⟨le_max_left .., fun t ht hle => .inl ⟨ht, hle⟩, fun t ht hle => .inl ⟨ht, hle⟩,
      fun e he hle => .inl ⟨he, by omega⟩⟩

theorem exec_dlPlayout {s : State} {path : Nat} {n : SymName} {r : Released}
    (hr : s.dl.released.find? (fun x => decide (x.sym = n) && decide (path ∉ x.played)) = some r) (hpath : path < 64)
    (hmode : isService s.pwr.mode = true) (gaps lost : List Nat) (errs : List DpdFault) :
    exec (.dlPlayout path n gaps lost errs) s = .next (startSymbol path r gaps lost errs
      (advanceTo (r.air - delayU s (imageAt s r.air) false path - tk 768) s)) := by
  have hnew : path ∉ r.played := by
    have := List.find?_some hr
    simp_all
  simp only [exec, execDlPlayout, hr]
  exact if_pos ⟨hpath, hnew, hmode⟩

theorem bridgeFail_grows (ul : Bool) (p : Nat) (s : State) : Grows s (bridgeFail ul p s) :=
  (raise_grows ..).after (.of_eq rfl rfl)

theorem bridgeFail_status (ul : Bool) (p : Nat) (s : State) : (bridgeFail ul p s).ev.status.getLsbD 112 = true :=
  raise_status _ _ _ (by decide)

theorem meetBank_grows (hits : List ScrubHit) (s : State) : Grows s (meetBank hits s) :=
  Grows.foldl (fun _ _ => (raise_grows ..).after (.of_eq (by simp) (by simp))) hits s

theorem dpdFailures_grows (p : Nat) (r : Released) (ticks : List Nat) (s : State) : Grows s (dpdFailures p r ticks s) := by
  unfold dpdFailures
  exact Grows.foldl (fun _ _ => (raise_grows ..).after (statAdd_grows ..)) _ s

/-- Each failed check of a sample is raised (R213). -/
theorem dpdFailures_status (p : Nat) (r : Released) {ticks : List Nat} (h : ticks ≠ []) (s : State) :
    (dpdFailures p r ticks s).ev.status.getLsbD 81 = true := by
  obtain ⟨k, hk⟩ := List.exists_mem_of_ne_nil ticks h
  simp only [dpdFailures, bind_pure_cast]
  refine Grows.foldl_status (fun _ _ => ?_) (fun _ => ?_) (List.mem_map_of_mem hk) s
  · exact (raise_grows ..).after (statAdd_grows ..)
  · exact raise_status _ _ _ (by decide)

/-- A fault of the predistorter that a check finds (R213, R386). -/
def checkFinds (e : DpdFault) : Prop := e.received = true ∨ struckValue (0, 0) e.err = true

section Start
variable (p : Nat) (r : Released) (gaps lost : List Nat) (errs : List DpdFault) (s : State)

/-- What the path plays once the symbol has started: what it still had to send, and the symbol's own faults. -/
def startPlaying : Tbl (Option Playing) :=
  let before := (sendUpTo p (tickOf r.air) s).dl.playing
  tset none before p (some (playFrom (tickOf r.air) gaps lost errs (tget none before p)))

theorem tget_startPlaying_self : tget none (startPlaying p r gaps lost errs s) p =
    some (playFrom (tickOf r.air) gaps lost errs (tget none (sendUpTo p (tickOf r.air) s).dl.playing p)) := by
  simp only [startPlaying, tget_tset_self]

/-- A released symbol is noted as played on a path, and as marked where checks of its samples (`bad` their ticks) failed. -/
def notePlayed (bad : List Nat) : State :=
  { s with dl := { s.dl with released := s.dl.released.map fun x =>
    if x.sym = r.sym ∧ x.air = r.air then
      { r with played := r.played ++ [p], marked := if bad = [] then r.marked else r.marked ++ [p] }
    else x } }

theorem notePlayed_released {bad : List Nat} {x : Released} (hx : x ∈ (notePlayed p r s bad).dl.released) (hsym : x.sym = r.sym)
    (hair : x.air = r.air) : p ∈ x.played ∧ (bad ≠ [] → p ∈ x.marked) := by
  obtain ⟨y, -, rfl⟩ := List.mem_map.mp hx
  by_cases h : y.sym = r.sym ∧ y.air = r.air
  · simp only [if_pos h]
    exact ⟨by simp, fun hbad => by simp [hbad]⟩
  · simp only [if_neg h] at hsym hair
    exact absurd ⟨hsym, hair⟩ h

/-- A symbol's start in order: underflow (`u` is the state after it), parity, the bank's words, the failed checks, and the note of the
path. -/
theorem startSymbol_stages : ∃ (u : State) (hits : List ScrubHit) (bad : List Nat),
    startSymbol p r gaps lost errs s =
      notePlayed p r (dpdFailures p r bad (meetBank hits (lost.foldl (fun t _ => bridgeFail false p t) u))) bad ∧
    u.dl = { s.dl with playing := startPlaying p r gaps lost errs s } ∧
    (gaps ≠ [] → (∀ x ∈ s.dl.silence, x.mute = true) → u.ev.status.getLsbD 115 = true) ∧
    ((∃ e ∈ errs, checkFinds e) → bad ≠ []) := by
  refine ⟨_, _, _, rfl, ?dl, fun hgaps hmute => ?underflow, fun ⟨e, he, hfound⟩ => ?checks⟩
  case dl =>
    simp only [ite_dl, raise_frame, statAdd_frame, ite_self]
    rw [sendUpTo_dl]
    rfl
  case underflow =>
    rw [if_neg]
    · exact raise_status _ _ _ (by decide)
    · have hunsilenced : ∀ d k, (!s.dl.silence.any fun x => !x.mute && x.holds p d k) = true := fun d k => by
        rw [List.any_eq_false.mpr fun x hx => by simp [hmute x hx]]
        rfl
      rw [List.length_eq_zero_iff, List.filter_eq_self.mpr fun k _ => hunsilenced _ _, bind_pure_cast, List.map_eq_nil_iff]
      exact hgaps
  case checks =>
    have hmem : e ∈ errs.filter fun f => f.received || struckValue (0, 0) f.err :=
      List.mem_filter.mpr ⟨he, by simpa [checkFinds] using hfound⟩
    exact List.append_ne_nil_of_left_ne_nil (List.ne_nil_of_mem (List.mem_map_of_mem hmem)) _

variable {p r gaps lost errs s}

/-- A symbol's start moves on the path's playout and the symbol's own notes, and nothing else of the downlink. -/
theorem startSymbol_dl : (startSymbol p r gaps lost errs s).dl = { s.dl with
    playing := startPlaying p r gaps lost errs s, released := (startSymbol p r gaps lost errs s).dl.released } := by
  obtain ⟨u, hits, bad, heq, hdl, -, -⟩ := startSymbol_stages p r gaps lost errs s
  rw [heq]
  simp [notePlayed, hdl]

/-- The symbol is noted as played on the path, and as marked where a check failed. -/
theorem startSymbol_notes {x : Released} (hx : x ∈ (startSymbol p r gaps lost errs s).dl.released) (hsym : x.sym = r.sym)
    (hair : x.air = r.air) : p ∈ x.played ∧ ((∃ e ∈ errs, checkFinds e) → p ∈ x.marked) := by
  obtain ⟨u, hits, bad, heq, hdl, -, hbad⟩ := startSymbol_stages p r gaps lost errs s
  obtain ⟨hplayed, hmarked⟩ := notePlayed_released p r _ (heq ▸ hx) hsym hair
  exact ⟨hplayed, fun h => hmarked (hbad h)⟩

theorem startSymbol_underflow (hgaps : gaps ≠ []) (hmute : ∀ x ∈ s.dl.silence, x.mute = true) :
    (startSymbol p r gaps lost errs s).ev.status.getLsbD 115 = true := by
  obtain ⟨u, hits, bad, heq, -, hunder, -⟩ := startSymbol_stages p r gaps lost errs s
  rw [heq]
  exact (dpdFailures_grows ..).status _ ((meetBank_grows ..).status _
    ((Grows.foldl (fun t _ => bridgeFail_grows false p t) lost u).status _ (hunder hgaps hmute)))

theorem startSymbol_parity (hlost : lost ≠ []) : (startSymbol p r gaps lost errs s).ev.status.getLsbD 112 = true := by
  obtain ⟨u, hits, bad, heq, -, -, -⟩ := startSymbol_stages p r gaps lost errs s
  obtain ⟨k, hk⟩ := List.exists_mem_of_ne_nil lost hlost
  rw [heq]
  exact (dpdFailures_grows ..).status _ ((meetBank_grows ..).status _
    (Grows.foldl_status (fun t _ => bridgeFail_grows false p t) (fun t => bridgeFail_status false p t) hk u))

theorem startSymbol_checks (h : ∃ e ∈ errs, checkFinds e) : (startSymbol p r gaps lost errs s).ev.status.getLsbD 81 = true := by
  obtain ⟨u, hits, bad, heq, -, -, hbad⟩ := startSymbol_stages p r gaps lost errs s
  rw [heq]
  exact dpdFailures_status p r (hbad h) _

end Start

/-! ### Class switch (R218, R258, R268) -/

theorem tget_foldl_tset {α : Type} [DecidableEq α] (d : α) (f : Nat → α) (t : Tbl α) {n k : Nat} (hk : k < n) :
    tget d ((List.range n).foldl (fun t j => tset d t j (f j)) t) k = f k := by
  induction n with
  | zero => omega
  | succ n ih =>
    rw [List.range_succ, List.foldl_append, List.foldl_cons, List.foldl_nil, tget_tset]
    split
    · subst_vars; rfl
    · exact ih (by omega)

theorem applyAtten_atten (s : State) {p : Nat} (hp : p < 64) : tget 40 (applyAtten s).rf.atten p = wantedAtten s p :=
  tget_foldl_tset 40 (wantedAtten s) s.rf.atten hp

/-- Noting the pins' edges writes their levels and rise times alone. -/
theorem notePins_eq (s : State) : ∃ level rise, notePins s = { s with rf := { s.rf with level := level, rise := rise } } := by
  unfold notePins
  generalize List.range 32 = l
  induction l generalizing s with
  | nil => exact ⟨_, _, rfl⟩
  | cons n l ih =>
    obtain ⟨level, rise, h⟩ := ih (notePin s n)
    rw [List.foldl_cons, h]
    unfold notePin
    dsimp only
    split <;> exact ⟨_, _, rfl⟩

section ClassSwitch
variable {s : State} {n : SymName} {im : Image} (him : switchImage s n = some im) (hclass : classCarrier im = some n.carrier)
include him hclass

/-- At a symbol that is not played the attenuations take effect and nothing else does. -/
theorem exec_dpdClassSwitch_unplayed (hplays : playsSymbol s (airOf (ccMu im false n.carrier) n) = false) :
    let air := airOf (ccMu im false n.carrier) n
    exec (.dpdClassSwitch n) s = .next (applyAtten { advanceTo air s with dl := { s.dl with switched := some air } }) := by
  simp only [exec, execDpdClassSwitch, him, hclass, if_true, hplays, Bool.not_false]
  rfl

/-- At a symbol that is played its class takes over too, and the tiles that wait for it resume. -/
theorem exec_dpdClassSwitch_played {r : Released} (hplays : playsSymbol s (airOf (ccMu im false n.carrier) n) = true)
    (hr : s.dl.released.find? (fun x => decide (x.sym = n)) = some r) :
    let air := airOf (ccMu im false n.carrier) n
    let w := applyAtten { advanceTo air s with dl := { s.dl with switched := some air } }
    ∃ clsAir silence level rise, exec (.dpdClassSwitch n) s = .next { w with
      dl := { w.dl with cls := r.cls, clsAir := clsAir, silence := silence }
      rf := { w.rf with resume := 0, level := level, rise := rise } } := by
  simp only [exec, execDpdClassSwitch, him, hclass, if_true, hplays, Bool.not_true, Bool.false_eq_true, if_false, applyAtten_frame,
    advanceTo_frame, hr]
  obtain ⟨level, rise, hpins⟩ := notePins_eq (endSilence _ false (airOf (ccMu im false n.carrier) n) _)
  rw [hpins]
  exact ⟨_, _, level, rise, rfl⟩

end ClassSwitch

/-! ### The clauses of O58 -/

/-- A symbol that is played is released, and its data sections leave the buffer either way. -/
theorem dlSymbolRelease_releases {s : State} {n : SymName} {im : Image} (him : releaseImage s n = some im)
    (hready : s.pwr.ready.getLsbD 3 = true) (f : DlFaults) :
    let air := airOf (ccMu im false n.carrier) n
    let w := advanceTo (air - tk pipeTicks) s
    (playsSymbol w air = false → exec (.dlSymbolRelease n f) s = .next (dropData n air w)) ∧
    (playsSymbol w air = true → ∃ t, exec (.dlSymbolRelease n f) s = .next t ∧
      (∃ r, t.dl.released.getLast? = some r ∧ r.sym = n ∧ r.air = air ∧ r.played = [] ∧ r.zeros = f.parity) ∧
      (∀ x ∈ t.dl.buffer, ¬(x.stype = 1 ∧ x.sym = n ∧ x.air = air)) ∧ t.pwr = s.pwr ∧ t.cfg = s.cfg) := by
  intro air w
  have hexec : exec (.dlSymbolRelease n f) s = _ := exec_dlSymbolRelease him hready f
  refine ⟨fun hplays => ?_, fun hplays => ⟨releaseSymbol im n air f w, ?_, ?_, fun x hx => releaseSymbol_gone hx, by simp [w], by simp [w]⟩⟩
  · rw [hexec, if_neg (by simp [w, air, hplays])]
  · rw [hexec, if_pos hplays]
  · obtain ⟨l, r, hl, hr⟩ := releaseSymbol_released im n air f w
    exact ⟨r, by rw [hl, List.getLast?_concat], hr⟩

/-- The released symbol starts toward the pins of the path, with its faults noted, counted and raised. -/
theorem dlPlayout_starts {s : State} {path : Nat} {n : SymName} {r : Released} (gaps lost : List Nat) (errs : List DpdFault)
    (hr : s.dl.released.find? (fun x => decide (x.sym = n) && decide (path ∉ x.played)) = some r) (hpath : path < 64)
    (hmode : isService s.pwr.mode = true) :
    let w := sendUpTo path (tickOf r.air) (advanceTo (r.air - delayU s (imageAt s r.air) false path - tk 768) s)
    ∃ t, exec (.dlPlayout path n gaps lost errs) s = .next t ∧ (∀ x ∈ t.dl.released, x.sym = n → x.air = r.air → path ∈ x.played) ∧
      tget none t.dl.playing path = some (playFrom (tickOf r.air) gaps lost errs (tget none w.dl.playing path)) ∧
      (gaps ≠ [] → (∀ x ∈ s.dl.silence, x.mute = true) → t.ev.status.getLsbD 115 = true) ∧
      (lost ≠ [] → t.ev.status.getLsbD 112 = true) ∧
      ((∃ e ∈ errs, e.received = true ∨ struckValue (0, 0) e.err = true) → t.ev.status.getLsbD 81 = true ∧
        ∀ x ∈ t.dl.released, x.sym = n → x.air = r.air → path ∈ x.marked) ∧
      t.dl.buffer = s.dl.buffer ∧ t.pwr = s.pwr ∧ t.cfg = s.cfg := by
  have hsym : r.sym = n := by
    have := List.find?_some hr
    simp_all
  refine ⟨_, exec_dlPlayout hr hpath hmode gaps lost errs, ?played, ?playing,
    fun hgaps hmute => startSymbol_underflow hgaps (by simpa using hmute), startSymbol_parity, fun h => ⟨startSymbol_checks h, ?marked⟩, ?buffer, by simp, by simp⟩
  case played => exact fun x hx hn hair => (startSymbol_notes hx (hn.trans hsym.symm) hair).1
  case marked => exact fun x hx hn hair => (startSymbol_notes hx (hn.trans hsym.symm) hair).2 h
  case playing =>
    rw [startSymbol_dl]
    exact tget_startPlaying_self ..
  case buffer =>
    rw [startSymbol_dl]
    simp

/-- The attenuations take effect at the symbol's air time, and its class where it is played. -/
theorem dpdClassSwitch_takesOver {s : State} {n : SymName} {im : Image} (him : switchImage s n = some im)
    (hclass : classCarrier im = some n.carrier) :
    let air := airOf (ccMu im false n.carrier) n
    let w := applyAtten { advanceTo air s with dl := { s.dl with switched := some air } }
    (∀ p < 64, tget 40 w.rf.atten p = wantedAtten s p) ∧
    (playsSymbol s air = false → exec (.dpdClassSwitch n) s = .next w) ∧
    (∀ r, playsSymbol s air = true → s.dl.released.find? (fun x => decide (x.sym = n)) = some r →
      ∃ t, exec (.dpdClassSwitch n) s = .next t ∧ t.dl.cls = r.cls ∧ t.rf = { w.rf with resume := 0, level := t.rf.level, rise := t.rf.rise } ∧
        t = { w with dl := { w.dl with cls := t.dl.cls, clsAir := t.dl.clsAir, silence := t.dl.silence }, rf := t.rf }) := by
  intro air w
  refine ⟨fun p hp => applyAtten_atten _ hp, exec_dpdClassSwitch_unplayed him hclass, fun r hplays hr => ?_⟩
  obtain ⟨clsAir, silence, level, rise, hexec⟩ := exec_dpdClassSwitch_played him hclass hplays hr
  exact ⟨_, hexec, rfl, rfl, rfl⟩

/-- Settles O58: a clause for each row, with the words a path sends between them. -/
theorem downlinkRows : Obligations.DownlinkRows := by
  unfold Obligations.DownlinkRows
  exact ⟨fun s n f im him hready => dlSymbolRelease_releases him hready f,
    fun s path n r gaps lost errs hr hpath hmode => dlPlayout_starts gaps lost errs hr hpath hmode,
    playFrom_keeps, fun s path t g a b hg ha hb hlt => sendUpTo_out hg ha hb hlt,
    fun s path g a n k hk h => playedOver_zero hk h, fun s n im him hclass => dpdClassSwitch_takesOver him hclass⟩

end Sys2Proof.Machine
end

section
/-! SUPPORT. The queue under every row (R44, R51, log 10): a reply, an access and a reset keep it. -/

namespace Sys2Proof.Machine

/-- A reply leaves the queue of `s` alone, in its state and in what the device does after answering. -/
def Reply.KeepsQueue (s : State) (r : Reply) : Prop := r.st.pending = s.pending ∧ ∀ t, (r.post t).pending = t.pending

/-- An outcome is a next state, with the queue of `s`. -/
def CompletesFrom (s : State) (o : Host.Outcome State Fault Refusal) : Prop := ∃ t, o = .next t ∧ t.pending = s.pending

@[simp] theorem completesFrom_next (s t : State) : CompletesFrom s (.next t) ↔ t.pending = s.pending := by
  simp [CompletesFrom]

@[simp] theorem completesFrom_ite (s : State) (c : Prop) [Decidable c] (a b : Host.Outcome State Fault Refusal) :
    CompletesFrom s (if c then a else b) ↔ (c → CompletesFrom s a) ∧ (¬c → CompletesFrom s b) := by
  split <;> simp [*]

/-! ### Domains -/

theorem accessDomain_pending {d : Nat} {s t : State} (h : accessDomain d s = some t) : t.pending = s.pending := by
  unfold accessDomain at h
  dsimp only at h
  split_ifs at h <;> (injection h with h; subst h; simp)

theorem tryDomain_pending {d : Nat} {s : State} {k fail : State → State} (hk : ∀ t, (k t).pending = t.pending)
    (hf : (fail s).pending = s.pending) : (tryDomain d s k fail).pending = s.pending := by
  unfold tryDomain
  split
  next t ht => rw [hk, accessDomain_pending ht]
  next => split <;> simp [hf]

/-! ### Replies -/

section
variable {s t : State}

@[simp] theorem keepsQueue_mk (code detail : Nat) (p : List Byte) (long : Option LongKind) (defer stall : Bool) (f : State → State) :
    Reply.KeepsQueue s ⟨t, code, detail, p, long, defer, stall, f⟩ ↔ t.pending = s.pending ∧ ∀ t, (f t).pending = t.pending := Iff.rfl
@[simp] theorem keepsQueue_ok (p : List Byte) : (ok p t).KeepsQueue s ↔ t.pending = s.pending := by simp [ok]
@[simp] theorem keepsQueue_err (code detail : Nat) : (err code detail t).KeepsQueue s ↔ t.pending = s.pending := by simp [err]
@[simp] theorem keepsQueue_accepted (k : LongKind) : (accepted k t).KeepsQueue s ↔ t.pending = s.pending := by simp [accepted]
@[simp] theorem keepsQueue_deferred : (deferred t).KeepsQueue s ↔ t.pending = s.pending := by simp [deferred]
@[simp] theorem keepsQueue_stalled : (stalled t).KeepsQueue s ↔ t.pending = s.pending := by simp [stalled]

@[simp] theorem keepsQueue_ite (c : Prop) [Decidable c] (a b : Reply) :
    (if c then a else b).KeepsQueue s ↔ (c → a.KeepsQueue s) ∧ (¬c → b.KeepsQueue s) := by
  split <;> simp [*]

@[simp] theorem keepsQueue_withLength (ls : List Nat) (p : List Byte) (k : Reply) :
    (withLength ls p s k).KeepsQueue s ↔ (p.length ∈ ls → k.KeepsQueue s) := by
  simp [withLength]

@[simp] theorem keepsQueue_withFields (cs : List (Nat × Bool)) (k : Reply) :
    (withFields cs s k).KeepsQueue s ↔ (firstBad cs = none → k.KeepsQueue s) := by
  unfold withFields
  split <;> simp [*]

@[simp] theorem onDomain_keepsQueue {d : Nat} {a : Asker} {k : State → Reply} (hk : ∀ t, (k t).KeepsQueue t) :
    (onDomain d a s k).KeepsQueue s := by
  unfold onDomain
  split
  next t ht => exact ⟨(hk t).1.trans (accessDomain_pending ht), (hk t).2⟩
  next => split <;> simp
end

/-- Whatever a reply says, its answer leaves the queue alone. -/
theorem settle_pending (a : Asker) {before back s : State} {r : Reply} (hr : r.KeepsQueue s) (hbefore : before.pending = s.pending)
    (hback : back.pending = s.pending) : (settle a before back r).pending = s.pending := by
  obtain ⟨hst, hpost⟩ := hr
  unfold settle
  split
  · exact hback
  · split
    · simpa using hst
    · split
      · simpa [hpost] using hst
      · split <;> simpa

theorem execute_pending (a : Asker) (p : List Byte) (bad : Option Nat) {body : Asker → List Byte → State → Reply} (back s : State)
    (hbody : ∀ a p t, (body a p t).KeepsQueue t) (hback : back.pending = s.pending) :
    (execute a p bad body back s).pending = s.pending := by
  unfold execute
  refine settle_pending _ ?_ rfl hback
  cases bad with
  | none => simp [hbody]
  | some d => simp

theorem takeMsg_pending (n : Nat) (h : Hdr) (p : List Byte) (bad : Option Nat) {body : Asker → List Byte → State → Reply} (s : State)
    (hbody : ∀ a p t, (body a p t).KeepsQueue t) : (takeMsg n h p bad body s).pending = s.pending := by
  unfold takeMsg
  dsimp only
  split
  · simp
  · split
    · simp
    · rw [execute_pending _ _ _ _ _ hbody] <;> simp

theorem runMessage_pending (op n : Nat) (dma : List Byte) {body : Asker → List Byte → State → Reply} (s : State)
    (hbody : ∀ a p t, (body a p t).KeepsQueue t) : (runMessage op n dma body s).pending = s.pending := by
  unfold runMessage
  split
  · split
    · split
      · rw [takeMsg_pending _ _ _ _ _ hbody]; simp
      · rfl
    · rfl
  · rfl

/-! ### Resets -/

@[simp] theorem afterReset_pending (cause : Nat) (s : State) : (afterReset cause s).pending = s.pending := rfl

@[simp] theorem deviceReset_pending (cause : Nat) (s : State) : (deviceReset cause s).pending = s.pending := by
  simp [deviceReset]

@[simp] theorem resetNow_pending (cause : Nat) (s : State) : (resetNow cause s).pending = s.pending := by
  simp [resetNow]

@[simp] theorem powerOff_pending (latch : Bool) (s : State) : (powerOff latch s).pending = s.pending := by
  simp [powerOff]

@[simp] theorem resetScope_pending (scope : Nat) (s : State) : (resetScope scope s).pending = s.pending := by
  unfold resetScope
  split <;> simp

@[simp] theorem lifecycle_pending (row : Nat) (blk : LcBlock) (s : State) : (lifecycle row blk s).pending = s.pending := by
  unfold lifecycle takeFree
  dsimp only
  split
  · rfl
  · split
    · simp
    · split
      · simp
      · split <;> simp

/-! ### W0 -/

@[simp] theorem w0Effect_pending (o v : Nat) (s : State) : (w0Effect o v s).pending = s.pending := by
  unfold w0Effect
  dsimp only
  split <;> simp

@[simp] theorem w0Write_pending (o width v : Nat) (s : State) : (w0Write o width v s).pending = s.pending := by
  simp [w0Write]

@[simp] theorem hostWrite_pending (o width v : Nat) (s : State) : (hostWrite o width v s).pending = s.pending := by
  unfold hostWrite
  split
  · rfl
  · simp [tryDomain_pending]

@[simp] theorem hostRead_pending (o width : Nat) (s : State) : (hostRead o width s).pending = s.pending := by
  unfold hostRead
  split
  · rfl
  · simp [tryDomain_pending]

theorem reachAll_pending {ds : List Nat} {s t : State} (h : reachAll s ds = .inl t) : t.pending = s.pending := by
  induction ds generalizing s with
  | nil => simp_all [reachAll]
  | cons d ds ih =>
    unfold reachAll at h
    split at h
    next w hw => exact (ih h).trans (accessDomain_pending hw)
    next => simp at h

/-! ### SPI -/

@[simp] theorem spiDomain_pending {d info : Nat} {s : State} {k : State → State} (hk : ∀ t, (k t).pending = t.pending) :
    (spiDomain d info s k).pending = s.pending := by
  simp [spiDomain, tryDomain_pending, hk]

@[simp] theorem spiFrame_pending {cmd : Nat} {f : List Byte} {good : SpiReq → Bool} {body : SpiReq → State → State} {s : State}
    (hbody : ∀ r, (body r s).pending = s.pending) : (spiFrame cmd f good body s).pending = s.pending := by
  unfold spiFrame
  split
  · rfl
  · split <;> simp [hbody]

@[simp] theorem spiRead_pending (f : List Byte) (s : State) : (spiRead f s).pending = s.pending := by
  unfold spiRead
  dsimp only
  split
  · split
    · rfl
    · split <;> simp
  · simp

end Sys2Proof.Machine
end

section
/-! SUPPORT. The queue under the message bodies: one lemma for each body that branches on the state. -/

namespace Sys2Proof.Machine

variable (a : Asker) (p : List Byte) (s : State)

/-! ### Requests to the power manager -/

theorem pwrDone_keepsQueue {s t : State} (d : Nat) (h : t.pending = s.pending) : (pwrDone d t).KeepsQueue s := by
  simp [pwrDone, h]

@[simp] theorem pwrRefused_keepsQueue (reason : Nat) (name : List Byte) (m : Mode) : (pwrRefused reason name m s).KeepsQueue s := by
  simp [pwrRefused]

theorem pwrTarget_keepsQueue (r : PwrReq) : (pwrTarget r s).KeepsQueue s := by
  unfold pwrTarget
  split
  next =>
    simp only [keepsQueue_ite]
    refine ⟨fun _ => pwrDone_keepsQueue _ rfl, fun _ => ⟨fun _ => pwrDone_keepsQueue _ (by simp), fun _ => ?_⟩⟩
    split
    · simp
    · exact pwrDone_keepsQueue _ (by simp)
  next =>
    simp only [keepsQueue_ite]
    refine ⟨fun _ => pwrDone_keepsQueue _ (by simp), fun _ => ?_⟩
    split
    · simp only [keepsQueue_ite]
      exact ⟨fun _ => pwrDone_keepsQueue _ rfl, fun _ => pwrDone_keepsQueue _ (by simp)⟩
    · exact pwrDone_keepsQueue _ (by simp)

theorem pwrRequestBody_keepsQueue : (pwrRequestBody a p s).KeepsQueue s := by
  have h : (pwrActions (u p 1 1) s).pending = s.pending := by simp
  have ht := pwrTarget_keepsQueue (pwrActions (u p 1 1) s) (pwrParse p)
  simp only [pwrRequestBody, keepsQueue_withLength, keepsQueue_withFields, keepsQueue_ite]
  exact fun _ _ => ⟨fun _ => pwrDone_keepsQueue _ h, fun _ => ⟨ht.1.trans h, ht.2⟩⟩

theorem calRunBody_keepsQueue : (calRunBody a p s).KeepsQueue s := by
  simp only [calRunBody, keepsQueue_withLength, keepsQueue_withFields, keepsQueue_ite, keepsQueue_err, implies_true, true_and]
  refine fun _ _ _ _ _ => ⟨by simp, fun _ => ?_⟩
  split <;> simp

theorem testRunBody_keepsQueue : (testRunBody a p s).KeepsQueue s := by
  simp only [testRunBody, keepsQueue_withFields, keepsQueue_ite, keepsQueue_err, implies_true, true_and]
  refine fun _ _ => ⟨by simp, fun _ _ _ => ⟨by simp [accepted], fun _ => ⟨by simp, fun _ => ?_⟩⟩⟩
  split <;> simp

/-! ### Bias -/

theorem biasRecords_keepsQueue {s : State} (set : Bool) (p : List Byte) {k : Nat → Reply} (hk : ∀ n, (k n).KeepsQueue s) :
    (biasRecords set p s k).KeepsQueue s := by
  simp [biasRecords, hk]

theorem biasSetBody_keepsQueue : (biasSetBody a p s).KeepsQueue s :=
  biasRecords_keepsQueue _ _ fun n => by simp

theorem biasSpanBody_keepsQueue : (biasSpanBody a p s).KeepsQueue s :=
  biasRecords_keepsQueue _ _ fun n => by simp

theorem biasReleaseBody_keepsQueue (hvP hvN : Nat) : (biasReleaseBody hvP hvN a p s).KeepsQueue s := by
  simp only [biasReleaseBody, keepsQueue_withLength, keepsQueue_withFields, keepsQueue_ite, keepsQueue_err, implies_true, true_and]
  refine fun _ _ _ => onDomain_keepsQueue fun t => ?_
  split <;> simp

/-! ### Configuration -/

theorem stageReply_keepsQueue (sec off : Nat) (data : List Byte) : (stageReply sec off data s).KeepsQueue s := by
  simp [stageReply]

theorem stageSection_keepsQueue (sec : Nat) : (stageSection sec p s).KeepsQueue s := by
  simp only [stageSection, keepsQueue_withLength]
  intro
  split
  · simp
  · exact stageReply_keepsQueue ..

theorem cfgStageBody_keepsQueue : (cfgStageBody a p s).KeepsQueue s := by
  simp only [cfgStageBody, keepsQueue_withFields, keepsQueue_ite, keepsQueue_err, implies_true, true_and]
  intros
  split
  · simp
  · exact stageReply_keepsQueue ..

theorem cfgCommitBody_keepsQueue : (cfgCommitBody a p s).KeepsQueue s := by
  simp only [cfgCommitBody, keepsQueue_withLength, keepsQueue_withFields, keepsQueue_ite, keepsQueue_err, implies_true, true_and]
  intros
  split
  · simp [commitRejected]
  · simp

theorem cfgDiscardBody_keepsQueue : (cfgDiscardBody a p s).KeepsQueue s := by
  simp only [cfgDiscardBody, keepsQueue_withLength, keepsQueue_withFields]
  intros
  split <;> simp

theorem cfgReadBody_keepsQueue : (cfgReadBody a p s).KeepsQueue s := by
  simp only [cfgReadBody, keepsQueue_withLength, keepsQueue_withFields]
  intros
  split <;> simp

/-! ### Records, tables and measurements -/

theorem catalogueWriteBody_keepsQueue : (catalogueWriteBody a p s).KeepsQueue s := by
  simp only [catalogueWriteBody, keepsQueue_withFields, keepsQueue_ite, keepsQueue_err, implies_true, true_and]
  intros
  split <;> simp

theorem thermalReadBody_keepsQueue (readings : List (Nat × Reading)) : (thermalReadBody readings a p s).KeepsQueue s := by
  simp only [thermalReadBody, keepsQueue_withLength, keepsQueue_ok]
  intro
  rw [foldl_pending]
  · simp
  · intros
    split <;> simp

theorem clkMeasureBody_keepsQueue : (clkMeasureBody a p s).KeepsQueue s := by
  simp only [clkMeasureBody, takeFree, keepsQueue_withLength, keepsQueue_withFields]
  intros
  split <;> simp

theorem bankWriteBody_keepsQueue : (bankWriteBody a p s).KeepsQueue s := by
  simp only [bankWriteBody, keepsQueue_withFields, keepsQueue_ite, keepsQueue_err, implies_true, true_and]
  intros
  split
  · simp
  · split <;> simp

theorem adaptControlBody_keepsQueue : (adaptControlBody a p s).KeepsQueue s := by
  simp only [adaptControlBody, keepsQueue_withLength, keepsQueue_withFields, keepsQueue_ite, keepsQueue_err, implies_true, true_and]
  refine fun _ _ _ => ⟨fun _ => ?_, by simp⟩
  split <;> simp

theorem capturePlanBody_keepsQueue : (capturePlanBody a p s).KeepsQueue s := by
  simp only [capturePlanBody, keepsQueue_withFields, keepsQueue_ite, keepsQueue_err, implies_true, true_and]
  intros
  split <;> simp

theorem nvmReadBody_keepsQueue : (nvmReadBody a p s).KeepsQueue s := by
  simp only [nvmReadBody, keepsQueue_withLength, keepsQueue_withFields]
  refine fun _ _ => onDomain_keepsQueue fun t => ?_
  split
  · split <;> simp
  · simp

theorem hkReadBody_keepsQueue (code : Nat) : (hkReadBody code a p s).KeepsQueue s := by
  simp [hkReadBody, urgent]

@[simp] theorem digestWords_pending : (digestWords s).2.pending = s.pending := by
  simp [digestWords, apply_ite]

theorem rockerReport_keepsQueue {s t : State} (code : Nat) (h : t.pending = s.pending) : (rockerReport code t).KeepsQueue s := by
  simp [rockerReport, h]

theorem rockerSetBody_keepsQueue : (rockerSetBody a p s).KeepsQueue s := by
  simp only [rockerSetBody, keepsQueue_withLength, keepsQueue_withFields, keepsQueue_ite, keepsQueue_err, implies_true, true_and]
  refine fun _ => ⟨fun _ => rockerReport_keepsQueue _ rfl, fun _ _ _ _ => ⟨fun _ => ?_, fun _ => ⟨fun _ => ?_, fun _ => ?_⟩⟩⟩ <;>
    exact rockerReport_keepsQueue _ (by simp)

end Sys2Proof.Machine
end

section
/-! SUPPORT. Every row completes and leaves the queue alone: the rows that look into the state first, then all rows, and from them O3. -/

namespace Sys2Proof.Machine

section
variable (s : State)

/-! ### Messages outside a body, and the host's accesses -/

theorem execBadOpcode_completes (ring : Nat) (dma : List Byte) : CompletesFrom s (execBadOpcode ring dma s) := by
  unfold execBadOpcode
  split
  · split
    · split
      · simp [takeMsg_pending]
      · simp
    · simp
  · simp

theorem execFramingLost_completes (ring : Nat) (dma : List Byte) : CompletesFrom s (execFramingLost ring dma s) := by
  unfold execFramingLost
  split
  · split <;> simp
  · simp

theorem execW2Read_completes (src : W2Source) : CompletesFrom s (execW2Read src s) := by
  unfold execW2Read
  split
  · simp
  · simp only [completesFrom_ite, completesFrom_next, implies_true, true_and]
    intro
    split
    next t ht => simp [reachAll_pending ht]
    next => simp
  · simp only [completesFrom_next]
    refine spiFrame_pending fun r => ?_
    split
    next t ht => simp [reachAll_pending ht]
    next => simp

theorem execPadRelease_completes (src : PadSource) : CompletesFrom s (execPadRelease src s) := by
  unfold execPadRelease
  split
  · exact ⟨_, rfl, runMessage_pending _ _ _ _ fun a p t => by simp [padReleaseBody]⟩
  · simp

theorem execThermalRead_completes (ring : Nat) (dma : List Byte) (readings : List (Nat × Reading)) :
    CompletesFrom s (execThermalRead ring dma readings s) := by
  have h := runMessage_pending 0x0E02 ring dma s fun a p t => thermalReadBody_keepsQueue a p t readings
  simp [execThermalRead, h]

/-! ### Power and domains -/

theorem execDomainReady_completes (domain : Nat) : CompletesFrom s (execDomainReady domain s) := by
  simp only [execDomainReady, completesFrom_ite, completesFrom_next, implies_true, and_true]
  intro
  split
  next t ht => simp [accessDomain_pending ht]
  next => simp

theorem execWakeStallTimeout_completes (domain : Nat) (req : StallReq) : CompletesFrom s (execWakeStallTimeout domain req s) := by
  simp only [execWakeStallTimeout, completesFrom_ite, completesFrom_next, implies_true, and_true]
  intro
  split
  · simp
  · simp
  · rw [completesFrom_next]
    split
    · exact runMessage_pending _ _ _ _ fun a p t => by simp
    · rfl
  · simp
  · simp

/-! ### Clocks and time -/

theorem execPpsInEdge_completes : CompletesFrom s (execPpsInEdge s) := by
  simp only [execPpsInEdge, completesFrom_ite]
  refine ⟨fun _ => ?_, by simp⟩
  split <;> simp

theorem execPpsOut_completes : CompletesFrom s (execPpsOut s) := by
  simp only [execPpsOut, completesFrom_ite]
  refine ⟨fun _ => ?_, by simp⟩
  split <;> simp

theorem execRefMonitorTrip_completes (osc cause : Nat) (trip : Trip) : CompletesFrom s (execRefMonitorTrip osc cause trip s) := by
  simp only [execRefMonitorTrip, completesFrom_ite]
  refine ⟨by simp, fun _ => ?_⟩
  split <;> simp

theorem searchOn_pending {osc : Nat} {s t : State} (h : searchOn osc s = some t) : t.pending = s.pending := by
  unfold searchOn at h
  split_ifs at h <;> (injection h with h; subst h; simp)

theorem execOscQualifyTimeout_completes (osc : Nat) : CompletesFrom s (execOscQualifyTimeout osc s) := by
  simp only [execOscQualifyTimeout, completesFrom_ite]
  refine ⟨fun _ => ?_, by simp⟩
  split
  next t ht => simp [searchOn_pending ht]
  next => simp

theorem execPllUnlock_completes (pll : Nat) : CompletesFrom s (execPllUnlock pll s) := by
  simp only [execPllUnlock, completesFrom_ite]
  refine ⟨fun _ => ?_, by simp⟩
  split <;> simp

theorem execPllQualified_completes (pll : Nat) : CompletesFrom s (execPllQualified pll s) := by
  simp only [execPllQualified, completesFrom_ite]
  refine ⟨fun _ => ?_, by simp⟩
  split <;> simp

/-! ### Radio front end and housekeeping -/

theorem execTddEvent_completes (step : FrameEvent) : CompletesFrom s (execTddEvent step s) := by
  unfold execTddEvent
  split
  · simp
  · simp only [completesFrom_ite, completesFrom_next, implies_true, and_true]
    intro
    split
    · simp
    · split
      · simp
      · split <;> simp

theorem execLoQualifyTimeout_completes (lo : Nat) : CompletesFrom s (execLoQualifyTimeout lo s) := by
  simp only [execLoQualifyTimeout, completesFrom_ite]
  refine ⟨fun _ => ?_, by simp⟩
  split <;> simp

/-- Taking the slot of a conversion touches the converter alone. -/
theorem takeSlot_pending {c n : Nat} {s t : State} (h : takeSlot c s = some (n, t)) : t.pending = s.pending := by
  unfold takeSlot at h
  dsimp only at h
  split at h
  · simp_all
  · split at h <;> simp at h
    simp [← h.2]

theorem execHkConversionComplete_completes (c code rck : Nat) : CompletesFrom s (execHkConversionComplete c code rck s) := by
  simp only [execHkConversionComplete, completesFrom_ite]
  refine ⟨fun _ => ?_, by simp⟩
  split
  · simp
  · split
    · simp
    next n t ht => simp [takeSlot_pending ht]

/-! ### Captures, records and long operations -/

theorem execCaptureOccurrence_completes (src : CaptureSrc) (sym : SymName) (k : Nat) :
    CompletesFrom s (execCaptureOccurrence src sym k s) := by
  unfold execCaptureOccurrence
  dsimp only
  split
  · split <;> simp
  · simp [takeFree]

theorem execNvmWriteStep_completes : CompletesFrom s (execNvmWriteStep s) := by
  simp only [execNvmWriteStep, completesFrom_ite]
  refine ⟨by simp, fun _ => ?_⟩
  split
  · simp
  next t ht => simp [accessDomain_pending ht]

theorem persistEnd_pending {id st : Nat} {e : LongEnd} {s t : State} (h : persistEnd id e s = some (st, t)) : t.pending = s.pending := by
  unfold persistEnd at h
  dsimp only at h
  split at h
  · simp at h
    simp [← h.2]
  · split at h
    · simp at h
    · split at h <;> (simp at h; simp [← h.2])

theorem execCataloguePersistComplete_completes (e : LongEnd) : CompletesFrom s (execCataloguePersistComplete e s) := by
  simp only [execCataloguePersistComplete, completesFrom_ite]
  refine ⟨by simp, fun _ => ?_⟩
  split
  · simp
  next st t ht => simp [persistEnd_pending ht]

theorem execBankPersistComplete_completes (e : LongEnd) : CompletesFrom s (execBankPersistComplete e s) := by
  simp only [execBankPersistComplete, completesFrom_ite]
  refine ⟨by simp, fun _ => ?_⟩
  split
  · simp
  next st t ht => simp [persistEnd_pending ht]

theorem execCalComplete_completes (results : List CalResult) (e : LongEnd) : CompletesFrom s (execCalComplete results e s) := by
  unfold execCalComplete
  split
  · simp
  · simp only [completesFrom_ite]
    refine ⟨by simp, fun _ => ?_⟩
    split
    · simp
    · simp
    · split <;> simp

theorem execFwImageComplete_completes (e : LongEnd) : CompletesFrom s (execFwImageComplete e s) := by
  unfold execFwImageComplete
  split
  · simp
  · split <;> simp

theorem execSysReady_completes : CompletesFrom s (execSysReady s) := by
  simp only [execSysReady, completesFrom_ite]
  refine ⟨by simp, fun _ => ⟨fun _ => ?_, by simp⟩⟩
  split <;> simp

/-! ### Sections and cores -/

theorem execSectionParse_completes (port : Nat) : CompletesFrom s (execSectionParse port s) := by
  unfold execSectionParse
  dsimp only
  split <;> simp

theorem execSectionUsable_completes (id : Nat) (crcOk : Bool) (struck : List (Nat × Bool)) :
    CompletesFrom s (execSectionUsable id crcOk struck s) := by
  unfold execSectionUsable
  split
  · simp
  · dsimp only
    split <;> simp

theorem execEnd_completes (core : Nat) : CompletesFrom s (execEnd core s) := by
  simp only [execEnd, completesFrom_ite]
  refine ⟨by simp, fun _ => ?_⟩
  split <;> simp

end

/-! ### All rows -/

/-- A message row completes where the reply of its body keeps the queue. -/
theorem message_completes {op n : Nat} {dma : List Byte} {body : Asker → List Byte → State → Reply} {s : State}
    (hbody : ∀ a p t, (body a p t).KeepsQueue t) : CompletesFrom s (.next (runMessage op n dma body s)) :=
  (completesFrom_next ..).mpr (runMessage_pending _ _ _ _ hbody)

theorem issue_completes (core : Nat) (rep : Bool) (op : TOp) (s : State) : CompletesFrom s (.next (issue core rep op s)) := by
  simp

/-- The rows of one shape stand together: each is a next state whose queue the frames of the operations in it keep. -/
theorem exec_completes (c : Instr) (s : State) : CompletesFrom s (exec c s) := by
  cases c with
  -- messages
  | sysHello | sysInfo | sysReset | sysFwImage | eventConfig | eventDrain | beamCataloguePersist | dpdBankPersist | calStatus
  | pwrStatus | pwrRefusals | timeServo | timeSetOffset | timeStatus | clkSources | hkConfigure | hkWindow | testStatus
  | nvmWriteRecord | nvmStatus | trestleKernelLoad | trestleKernelStart | trestleStatus | linkStatus | linkCounters | logRead
  | leaseStatus | thermalConfigure =>
    exact message_completes fun a p t => by simp [
      bankPersistBody, cataloguePersistBody, clkSourcesBody, eventConfigBody, eventDrainBody, fwImageBody, hkConfigureBody,
      hkWindowBody, kernelLoadBody, kernelStartBody, leaseStatusBody, linkCountersBody, linkStatusBody, logReadBody, nvmStatusBody,
      nvmWriteBody, pwrRefusalsBody, pwrStatusBody, sysHelloBody, sysInfoBody, sysResetBody, testStatusBody, thermalConfigureBody,
      timeServoBody, timeSetOffsetBody, timeStatusBody, trestleStatusBody]
  | beamElementMap | dpdConfigure | cfrConfigure | linkConfigure => exact message_completes fun _ p t => stageSection_keepsQueue p t _
  | cfgStage => exact message_completes cfgStageBody_keepsQueue
  | cfgCommit => exact message_completes cfgCommitBody_keepsQueue
  | cfgDiscard => exact message_completes cfgDiscardBody_keepsQueue
  | cfgRead => exact message_completes cfgReadBody_keepsQueue
  | beamCatalogueWrite => exact message_completes catalogueWriteBody_keepsQueue
  | dpdBankWrite => exact message_completes bankWriteBody_keepsQueue
  | dpdAdaptControl => exact message_completes adaptControlBody_keepsQueue
  | capturePlan => exact message_completes capturePlanBody_keepsQueue
  | calRun => exact message_completes calRunBody_keepsQueue
  | pwrRequest => exact message_completes pwrRequestBody_keepsQueue
  | clkMeasure => exact message_completes clkMeasureBody_keepsQueue
  | biasSet => exact message_completes biasSetBody_keepsQueue
  | biasSpan => exact message_completes biasSpanBody_keepsQueue
  | biasRelease => exact message_completes fun a p t => biasReleaseBody_keepsQueue a p t _ _
  | hkRead => exact message_completes fun a p t => hkReadBody_keepsQueue a p t _
  | testRun => exact message_completes testRunBody_keepsQueue
  | rockerSet => exact message_completes rockerSetBody_keepsQueue
  | nvmRead => exact message_completes nvmReadBody_keepsQueue
  -- rows with a lemma of their own
  | fwImageComplete => exact execFwImageComplete_completes ..
  | sysReady => exact execSysReady_completes ..
  | badOpcode => exact execBadOpcode_completes ..
  | framingLost => exact execFramingLost_completes ..
  | cataloguePersistComplete => exact execCataloguePersistComplete_completes ..
  | bankPersistComplete => exact execBankPersistComplete_completes ..
  | captureOccurrence => exact execCaptureOccurrence_completes ..
  | calComplete => exact execCalComplete_completes ..
  | padRelease => exact execPadRelease_completes ..
  | hkConversionComplete => exact execHkConversionComplete_completes ..
  | nvmWriteStep => exact execNvmWriteStep_completes ..
  | end_ => exact execEnd_completes ..
  | thermalRead => exact execThermalRead_completes ..
  | w2Read => exact execW2Read_completes ..
  | sectionParse => exact execSectionParse_completes ..
  | sectionUsable => exact execSectionUsable_completes ..
  | tddEvent => exact execTddEvent_completes ..
  | loQualifyTimeout => exact execLoQualifyTimeout_completes ..
  | pllUnlock => exact execPllUnlock_completes ..
  | oscQualifyTimeout => exact execOscQualifyTimeout_completes ..
  | refMonitorTrip => exact execRefMonitorTrip_completes ..
  | ppsInEdge => exact execPpsInEdge_completes ..
  | ppsOut => exact execPpsOut_completes ..
  | domainReady => exact execDomainReady_completes ..
  | wakeStallTimeout => exact execWakeStallTimeout_completes ..
  | pllQualified => exact execPllQualified_completes ..
  -- rows that occur or do not, by one look at the state
  | commitArmed | commitArmTimeout | commitBoundary | cabinetWriteComplete | cabinetBoundary | bankCommit | dpdClassSwitch
  | captureComplete | hkSlotQueued | testComplete | muteEnd | w0Read | dlSymbolRelease | dlPlayout | ulExport | prachExport
  | prachOccasion | agcStep | weightClaim | serviceStart | serviceEnd | rffeProgram | modeEntered | quiesceTimeout | wakeRetry
  | thermalResult =>
    simp only [exec,
      execCommitArmed, execCommitArmTimeout, execCommitBoundary, execCabinetWriteComplete, execCabinetBoundary, execBankCommit,
      execDpdClassSwitch, execCaptureComplete, execHkSlotQueued, execTestComplete, execMuteEnd, execW0Read, execDlSymbolRelease,
      execDlPlayout, execUlExport, execPrachExport, execPrachOccasion, execAgcStep, execWeightClaim, execServiceStart, execServiceEnd,
      execRffeProgram, execModeEntered, execQuiesceTimeout, execWakeRetry, execThermalResult]
    split <;> simp
  -- instructions of a Trestle core
  | ld | st | ldq | stq | mov | movi | movhi | add | sub | and | or | xor | not | lsl | lsr | asr | cmp | min | max | cadd | csub
  | cneg | conj | cshr | swaph | unpko | cmul4 | cmac4 | cmsu4 | cmacj4 | cmac4l | clra | aadd | ashr | ashl | mova | str | exp
  | norm | expc | expa | bexp | bexpq | beclr | br | bcc | call | ret | rpt | nop | setf | clrovf | blk | dma => exact issue_completes ..
  -- bias, housekeeping, cores and linearisation
  | biasSlewUpdate | biasParked | paClearN | paClearNRelease | hkTrigger | hkPowerDown | quantumEnd | cycleBudgetExhausted
  | adaptationSolution =>
    simp [exec,
      execBiasSlewUpdate, execBiasParked, execPaClearN, execPaClearNRelease, execHkTrigger, execHkPowerDown, execQuantumEnd,
      execCycleBudgetExhausted, execAdaptationSolution]
  -- registers, SPI and PCIe
  | phDoorbell | phHead | ringDisable | ringDisabled | ringEnable | phDmaErr | pcieLinkDown | pcieLinkUp | muteAll | parkAll
  | safeHoldReq | timeCapture | thDemand | rockerRegisterWrite | registerWrite | w0Write | slotWrite | slotRead =>
    simp [exec,
      execPhDoorbell, execPhHead, execRingDisable, execRingDisabled, execRingEnable, execPhDmaErr, execPcieLinkDown, execPcieLinkUp,
      execMuteAll, execParkAll, execSafeHoldReq, execTimeCapture, execThDemand, execRockerRegisterWrite, execRegisterWrite,
      execW0Write, execSlotWrite, execSlotRead]
  -- ports and gain
  | frameReceived | type5ResponseTimeout | linkDown | linkUp | protectionStep | protectionReturn =>
    simp [exec,
      execFrameReceived, execType5ResponseTimeout, execLinkDown, execLinkUp, execProtectionStep, execProtectionReturn]
  -- clocks and time
  | clkMeasureDone | loQualified | loUnlock | loRelockTimeout | oscQualified | oscRetry | frcMonitorTrip | xtalARevert
  | compensationUpdate | esmcTimeout | synceRequalify | synceMonitorTrip | monitorWindowEnd | pllQualifyTimeout | ptpSyncExchange
  | ptpMasterChange | ppsEdgeTimeout | holdoverTimeout =>
    simp [exec,
      execClkMeasureDone, execLoQualified, execLoUnlock, execLoRelockTimeout, execOscQualified, execOscRetry, execFrcMonitorTrip,
      execXtalARevert, execCompensationUpdate, execEsmcTimeout, execSynceRequalify, execSynceMonitorTrip, execMonitorWindowEnd,
      execPllQualifyTimeout, execPtpSyncExchange, execPtpMasterChange, execPpsEdgeTimeout, execHoldoverTimeout]
  -- power and temperature
  | pgGood | pgTimeout | pgLoss | wakeSenseTrip | wakeSenseRearm | rxEnergyWake | wakeTimer | pcieWake | domainIdleOff
  | thermalScheduledDemand =>
    simp [exec,
      execPgGood, execPgTimeout, execPgLoss, execWakeSenseTrip, execWakeSenseRearm, execRxEnergyWake, execWakeTimer, execPcieWake,
      execDomainIdleOff, execThermalScheduledDemand]
  -- leases, digests, resets, boot and lifecycle
  | leaseExpiry | leaseRelease | watchdogExpiry | scrub | digestStart | digestComplete | powerOnReset | resetN | resetNRelease
  | pg0Retry | bootRom | powerCycle | vddAoDip | advance | provision | deploy | return_ | scrap | debugOff =>
    simp [exec,
      execLeaseExpiry, execLeaseRelease, execWatchdogExpiry, execScrub, execDigestStart, execDigestComplete, execPowerOnReset,
      execResetN, execResetNRelease, execPg0Retry, execBootRom, execPowerCycle, execVddAoDip, execAdvance, execProvision, execDeploy,
      execReturn, execScrap, execDebugOff]

/-- Settles O3: row by row, from the frames of the shared operations and a lemma for each message body. -/
theorem everyCommandCompletes : Obligations.EveryCommandCompletes := by
  unfold Obligations.EveryCommandCompletes
  exact exec_completes

end Sys2Proof.Machine
end

section
/-! SUPPORT. Well-formed payloads pass the checks of R43, and an answer leaves all but pigeonholes, events and output alone; from them O7
(R53, R56, Table 2-8). -/

namespace Sys2Proof.Machine

/-! ### Parts of a state -/

/-- Two states with the same parts are one. -/
theorem state_eq {s t : State} (ph : s.ph = t.ph) (ev : s.ev = t.ev) (sys : s.sys = t.sys) (em : s.em = t.em) (tm : s.tm = t.tm)
    (clk : s.clk = t.clk) (cfg : s.cfg = t.cfg) (fh : s.fh = t.fh) (dl : s.dl = t.dl) (ul : s.ul = t.ul) (bf : s.bf = t.bf)
    (lin : s.lin = t.lin) (core : s.core = t.core) (rf : s.rf = t.rf) (bias : s.bias = t.bias) (hk : s.hk = t.hk) (pwr : s.pwr = t.pwr)
    (th : s.th = t.th) (nvm : s.nvm = t.nvm) (cal : s.cal = t.cal) (ls : s.ls = t.ls) (rk : s.rk = t.rk) (test : s.test = t.test)
    (life : s.life = t.life) (boot : s.boot = t.boot) (stat : s.stat = t.stat) (out : s.out = t.out) (fresh : s.fresh = t.fresh)
    (pending : s.pending = t.pending) : s = t := by
  cases s
  cases t
  congr

/-! ### Checks that pass -/

theorem withLength_of_mem {ls : List Nat} {p : List Byte} (h : p.length ∈ ls) (s : State) (k : Reply) : withLength ls p s k = k := if_pos h

theorem firstBad_eq_none_iff (cs : List (Nat × Bool)) : firstBad cs = none ↔ ∀ c ∈ cs, c.2 = true := by
  induction cs with
  | nil => simp [firstBad]
  | cons c cs ih => cases h : c.2 <;> simp [firstBad, h, ih]

theorem withFields_of_none {cs : List (Nat × Bool)} (h : firstBad cs = none) (s : State) (k : Reply) : withFields cs s k = k := by
  rw [withFields, h]

theorem withFields_of_good {cs : List (Nat × Bool)} (h : ∀ c ∈ cs, c.2 = true) (s : State) (k : Reply) : withFields cs s k = k :=
  withFields_of_none ((firstBad_eq_none_iff cs).mpr h) s k

theorem isZero_of_slice {p : List Byte} {o n : Nat} (h : slice p o n = zeros n) : (isZero p o n).2 = true := by
  simp [isZero, h, zeros]

/-! ### An answer -/

/-- What an answer leaves alone, beside the rings that it and EV_PH_POST touch. -/
theorem answeredWith_frame (a : Asker) (code detail : Nat) (p : List Byte) (s : State) :
    let t := answeredWith a code detail p s
    t = { s with ph := t.ph, ev := t.ev, out := t.out } := by
  intro t
  apply state_eq <;> simp [t, answeredWith]

theorem answeredWith_posts (a : Asker) (code detail : Nat) (p : List Byte) (s : State) :
    Posts (fun k => k = a.ring ∨ k = respRing a.ring ∨ k = 15) s (answeredWith a code detail p s) := answeredRings a code detail p s

theorem respRing_ge {n : Nat} (h : n < 8) : 8 ≤ respRing n := by
  unfold respRing
  split <;> omega

theorem resetScope_one (s : State) : resetScope 1 s = resetNow 2 s := if_pos rfl

/-- A firmware restart is noted as the boot cause (R53). -/
theorem resetScope_zero_bootCause (s : State) : (resetScope 0 s).sys.bootCause = 2 := rfl

/-! ### The messages -/

section
variable {ring : Nat} {dma : List Byte} {s : State} {h : Hdr} {p : List Byte}

theorem exec_sysHello (d : Delivered 0x0101 ring dma s h p) (hlen : p.length = 4) (hversion : u p 0 4 = 1) :
    exec (.sysHello ring dma) s = .next (answered (askerOf ring h s) (helloBytes (consumed ring h s)) (consumed ring h s)) := by
  simp only [exec, execSysHello, runMessage_delivered _ d, sysHelloBody, withLength_of_mem (show p.length ∈ [4] by simp [hlen]), hversion,
    ne_eq, not_true_eq_false, if_false, settle_ok]

theorem exec_sysInfo (d : Delivered 0x0102 ring dma s h p) (hp : p = []) :
    exec (.sysInfo ring dma) s = .next (answered (askerOf ring h s) (leBytes 4 idPart ++ leBytes 8 Config.uid.toNat ++
      leBytes 4 (consumed ring h s).sys.idFw ++ leBytes 4 (consumed ring h s).sys.bootCount ++ leBytes 4 (consumed ring h s).sys.restarts ++
      leBytes 4 (Nat.min 0xFFFFFFFF ((consumed ring h s).tm.raw / 1474560000))) (consumed ring h s)) := by
  simp only [exec, execSysInfo, runMessage_delivered _ d, sysInfoBody, withLength_of_mem (show p.length ∈ [0] by simp [hp]), settle_ok]

/-- The scope of `sys.reset` is carried out once the answer is on its way. -/
theorem exec_sysReset (d : Delivered 0x0103 ring dma s h p) (hlen : p.length = 4) (hscope : u p 0 1 ≤ 1) (hzero : slice p 1 3 = zeros 3) :
    exec (.sysReset ring dma) s = .next (resetScope (u p 0 1) (answered (askerOf ring h s) [] (consumed ring h s))) := by
  have hgood : ∀ c ∈ [inRange p 0 1 0 1, isZero p 1 3], c.2 = true := by simp [inRange, hscope, isZero_of_slice hzero]
  simp only [exec, execSysReset, runMessage_delivered _ d, sysResetBody, withLength_of_mem (show p.length ∈ [4] by simp [hlen]),
    withFields_of_good hgood, settle_post]

theorem exec_eventConfig_read (d : Delivered 0x0D01 ring dma s h p) (hp : p = []) :
    exec (.eventConfig ring dma) s = .next (answered (askerOf ring h s) (eventConfigBytes (consumed ring h s)) (consumed ring h s)) := by
  simp only [exec, execEventConfig, runMessage_delivered _ d, eventConfigBody, withLength_of_mem (show p.length ∈ [0, 96] by simp [hp]),
    show p.length = 0 by simp [hp], if_true, settle_ok]

/-- Routes are written before the mask, so that what becomes pending is notified as they say (R56). -/
theorem exec_eventConfig_write (d : Delivered 0x0D01 ring dma s h p) (hlen : p.length = 96)
    (hroutes : ∀ b < 16, u p (32 + 4 * b) 4 &&& routeMask = u p (32 + 4 * b) 4) :
    let w := setMask (BitVec.ofNat 256 (u p 0 32))
      ((List.range 16).foldl (fun q b => setRoute b (u p (32 + 4 * b) 4) q) (consumed ring h s))
    exec (.eventConfig ring dma) s = .next (answered (askerOf ring h s) (eventConfigBytes w) w) := by
  have hgood : ∀ c ∈ (List.range 16).map fun b => (32 + 4 * b, decide (u p (32 + 4 * b) 4 &&& routeMask = u p (32 + 4 * b) 4)),
      c.2 = true := by
    simpa using hroutes
  simp only [exec, execEventConfig, runMessage_delivered _ d, eventConfigBody, withLength_of_mem (show p.length ∈ [0, 96] by simp [hlen]),
    show p.length ≠ 0 by simp [hlen], if_false, withFields_of_good hgood, settle_ok]

theorem exec_eventDrain (d : Delivered 0x0D02 ring dma s h p) (hlen : p.length = 8) (hfirst : u p 0 2 ≤ 255)
    (hspan : u p 0 2 + u p 2 2 ≤ 256) (hclear : u p 4 1 ≤ 1) (hzero : slice p 5 3 = zeros 3) :
    exec (.eventDrain ring dma) s = .next (answered (askerOf ring h s) (leBytes 2 (u p 0 2) ++ leBytes 2 (u p 2 2) ++
        (tgetList 0 (consumed ring h s).ev.count (u p 0 2) (u p 2 2)).flatMap (leBytes 2))
      (if u p 4 1 = 1 then clearEvents (u p 0 2) (u p 2 2) (consumed ring h s) else consumed ring h s)) := by
  have hgood : ∀ c ∈ [inRange p 0 2 0 255, (2, decide (u p 2 2 ≤ 256) && decide (u p 0 2 + u p 2 2 ≤ 256)), inRange p 4 1 0 1, isZero p 5 3],
      c.2 = true := by
    simp [inRange, hfirst, hclear, isZero_of_slice hzero, hspan, show u p 2 2 ≤ 256 by omega]
  simp only [exec, execEventDrain, runMessage_delivered _ d, eventDrainBody, withLength_of_mem (show p.length ∈ [8] by simp [hlen]),
    withFields_of_good hgood, settle_ok]
end

/-- Settles O7: an equation for each message, and the frame of an answer. -/
theorem systemMessagesAnswer : Obligations.SystemMessagesAnswer := by
  unfold Obligations.SystemMessagesAnswer
  refine ⟨fun ring dma s h p => ⟨exec_sysHello, exec_sysInfo, ?scopeOne, ?scopeZero, exec_eventConfig_read, exec_eventConfig_write,
    exec_eventDrain⟩, fun a code detail payload s hring => ?frame⟩
  case scopeOne =>
    rintro d rfl
    rw [exec_sysReset d rfl (by decide) (by decide), show u [1, 0, 0, 0] 0 1 = 1 by decide, resetScope_one]
  case scopeZero =>
    rintro d rfl
    exact ⟨exec_sysReset d rfl (by decide) (by decide), resetScope_zero_bootCause _⟩
  case frame =>
    have hp := answeredWith_posts a code detail payload s
    have hresp := respRing_ge hring
    exact ⟨answeredWith_frame .., hp.long, hp.turn, hp.ignored, hp.pcieUp, hp.mask, hp.route,
      fun n hn hne => hp.ring n (by omega), fun n h1 h2 h3 => hp.ring n (by tauto)⟩

end Sys2Proof.Machine
end

section
/-! SUPPORT. What taking a message does where it is not executed: a replay, one out of sequence, one with a bad opcode, and lost framing;
from them O8 (R26, R44 to R47, R52). -/

namespace Sys2Proof.Machine

/-! ### The ring and the words of the front message -/

theorem pickRing_lt {s : State} {n : Nat} (h : pickRing s = some n) : n < 8 := by
  unfold pickRing at h
  split_ifs at h
  · obtain rfl := Option.some.inj h
    decide
  · obtain ⟨j, -, rfl⟩ := List.mem_map.mp (List.mem_of_find?_eq_some h)
    omega

theorem readWord_posts (m a : Nat) (s : State) : Posts (· = 15) s (readWord m a s) := by
  have hcount : ∀ d, Posts (· = 15) s (sramCount d m s) := fun d => by
    unfold sramCount
    split <;> exact ⟨rfl, rfl, rfl, rfl, rfl, rfl, fun _ h => h, fun _ _ => rfl⟩
  unfold readWord
  split
  · exact (hcount _).trans (raise_posts ..)
  · exact .refl ..

theorem readWords_posts (m : Nat) (as : List Nat) (s : State) : Posts (· = 15) s (readWords m as s) := by
  unfold readWords
  induction as generalizing s with
  | nil => exact .refl ..
  | cons a as ih => exact (readWord_posts m a s).trans (ih _)

/-- Meeting the words of a message leaves the host rings alone (R26). -/
theorem ringOf_meetFront {n : Nat} (hn : n < 8) (r len : Nat) (s : State) : ringOf (meetFront r len s) n = ringOf s n :=
  (readWords_posts ..).ring n (by omega)

/-! ### Taking a message -/

section
variable {n : Nat} {h : Hdr} {p : List Byte} {bad : Option Nat} {body : Asker → List Byte → State → Reply} {s : State}

theorem takeMsg_replay {r : Replay} (hr : (ringOf s n).window.find? (fun e => decide (e.seq = h.seq)) = some r) :
    takeMsg n h p bad body s = sendResponse { ring := n, hdr := h } r.isErr r.resp
      (if (ringOf s n).expect = none ∨ h.opcode = 0x0101 then consumed n h s else slotsTaken n h s) := by
  unfold takeMsg
  simp only [hr, Option.isNone_iff_eq_none]
  rfl

theorem takeMsg_outOfOrder {e : Nat} (hr : (ringOf s n).window.find? (fun e => decide (e.seq = h.seq)) = none)
    (he : (ringOf s n).expect = some e) (hne : e ≠ h.seq) (hop : h.opcode ≠ 0x0101) :
    takeMsg n h p bad body s = sendResponse { ring := n, hdr := h } true (response (askerOf n h s) stBadField 4 true []) (slotsTaken n h s) := by
  unfold takeMsg
  simp only [hr]
  rw [if_pos ⟨by simp [he], by simpa [he] using hne, hop⟩]
  rfl

theorem takeMsg_inOrder (hr : (ringOf s n).window.find? (fun e => decide (e.seq = h.seq)) = none)
    (he : (ringOf s n).expect = none ∨ (ringOf s n).expect = some h.seq) :
    takeMsg n h p bad body s = execute { ring := n, hdr := h } p bad body s (consumed n h s) := by
  unfold takeMsg
  simp only [hr]
  rw [if_neg (by rintro ⟨hsome, hne, -⟩; rcases he with he | he <;> simp [he] at hsome hne)]
  rfl

/-- The steps of R44 before the opcode's passed, a bad opcode is answered with its detail. -/
theorem execute_badOpcode (a : Asker) {d : Nat} (back : State) (hflags : a.hdr.flags < 4) (hstatus : a.hdr.status = 0) :
    execute a p (some d) body back s = answeredWith { a with hdr := { a.hdr with epoch := s.cfg.epoch } } stBadOpcode d [] s := by
  unfold execute
  simp only [Nat.not_le.mpr hflags, if_false, hstatus, ne_eq, not_true_eq_false, settle_err]
end

/-- The Bureau takes the front message of its turn with the row's opcode. -/
theorem runMessage_front {op n : Nat} {dma : List Byte} {s : State} {h : Hdr} {p : List Byte} (hpick : pickRing s = some n)
    (hfront : frontOf n dma s = .msg h p) (hop : h.opcode = op) (body : Asker → List Byte → State → Reply) :
    runMessage op n dma body s = takeMsg n h p (badOpcode n op) body (meetFront n (32 + h.length) s) := by
  simp only [runMessage, hpick, if_true, hfront, hop]

/-! ### Bad opcodes and lost framing -/

section
variable {ring : Nat} {dma : List Byte} {s : State} {h : Hdr} (hpick : pickRing s = some ring)
include hpick

theorem exec_badOpcode {p : List Byte} {d : Nat} (hfront : frontOf ring dma s = .msg h p) (hbad : badOpcode ring h.opcode = some d)
    (hflags : h.flags < 4) (hstatus : h.status = 0) (hnew : (ringOf s ring).window.find? (fun r => decide (r.seq = h.seq)) = none)
    (hexpect : (ringOf s ring).expect = none ∨ (ringOf s ring).expect = some h.seq) :
    exec (.badOpcode ring dma) s =
      .next (answeredWith (askerOf ring h s) 0x10 d [] (consumed ring h (meetFront ring (32 + h.length) s))) := by
  have hring := ringOf_meetFront (pickRing_lt hpick) ring (32 + h.length) s
  simp only [exec, execBadOpcode, hpick, if_true, hfront, hbad]
  rw [takeMsg_inOrder (hring ▸ hnew) (hring ▸ hexpect), execute_badOpcode _ _ hflags hstatus]
  simp [askerOf, stBadOpcode]

theorem exec_framingLost_badLength (hfront : frontOf ring dma s = .badLength h) :
    exec (.framingLost ring dma) s = .next (loseFraming ring 0x11 8 h (meetFront ring 32 s)) := by
  simp only [exec, execFramingLost, hpick, if_true, hfront, stBadLength]

theorem exec_framingLost_badCrc (hfront : frontOf ring dma s = .badCrc h) : exec (.framingLost ring dma) s =
    .next (loseFraming ring 0x18 0 h (raise 5 (detH ring 0 h.opcode h.seq) (meetFront ring (32 + h.length) s))) := by
  simp only [exec, execFramingLost, hpick, if_true, hfront, stIntegrity]
end

/-- A word that reads with a double-bit error fails a framed message as its CRC does (R26). -/
theorem frontOf_double {ring : Nat} {dma : List Byte} {s : State} {h : Hdr} (hh : h = parseHdr (msgBytes ring dma 32 s))
    (hlen : h.length ≤ 16352) (hfits : slotCount (32 + h.length) ≤ ringUsed (ringOf s ring))
    (hdouble : ∃ x ∈ frontWords ring (32 + h.length) s, x.double = true) : frontOf ring dma s = .badCrc h := by
  unfold frontOf
  simp only [← hh]
  rw [if_neg (by omega), if_pos (by simpa using hdouble)]

/-- Settles O8: replay and sequence for every message row, then the rows of a bad opcode and of lost framing. -/
theorem messagesNotExecuted : Obligations.MessagesNotExecuted := by
  unfold Obligations.MessagesNotExecuted
  refine ⟨fun op ring dma body s h p r hpick hfront hop _ hr => ?replay,
    fun op ring dma body s h p e hpick hfront hop hhello hnew hexpect hne => ?outOfOrder,
    fun ring dma s h p d hpick => ⟨exec_badOpcode hpick, fun hfront => ⟨_, exec_framingLost_badLength hpick hfront, rfl⟩, ?badCrc⟩⟩
  case replay =>
    have hring := ringOf_meetFront (pickRing_lt hpick) ring (32 + h.length) s
    rw [runMessage_front hpick hfront hop, takeMsg_replay (hring ▸ hr), hring, hop]
  case outOfOrder =>
    have hring := ringOf_meetFront (pickRing_lt hpick) ring (32 + h.length) s
    rw [runMessage_front hpick hfront hop, takeMsg_outOfOrder (hring ▸ hnew) (hring ▸ hexpect) hne (hop ▸ hhello)]
    simp [askerOf, stBadField]
  case badCrc =>
    rintro (hfront | ⟨hh, hlen, hfits, hdouble⟩)
    · exact exec_framingLost_badCrc hpick hfront
    · exact exec_framingLost_badCrc hpick (frontOf_double hh hlen hfits hdouble)

end Sys2Proof.Machine
end

section
/-! SUPPORT. A host access that reaches its register (R32, R336), and the effect of an admitted 32-bit write block by block (R32, R60). -/

namespace Sys2Proof.Machine

/-! ### Reaching the register -/

theorem tryDomain_of_access {d : Nat} {s w : State} (h : accessDomain d s = some w) (k fail : State → State) : tryDomain d s k fail = k w := by
  simp only [tryDomain, h]

section
variable {o : Nat} {s w : State} (hr : HostReaches o s w)
include hr

theorem hostWrite_reaches (width v : Nat) : hostWrite o width v s = wakeBy 7 (w0Write o width v w) := by
  rw [hostWrite, if_neg (by simp [hr.mode, hr.link]), tryDomain_of_access hr.domain]

theorem hostRead_reaches (width : Nat) : hostRead o width s = wakeBy 7 (pcieRead o width w) := by
  rw [hostRead, if_neg (by simp [hr.mode, hr.link]), tryDomain_of_access hr.domain]
end

/-! ### Width and alignment -/

theorem w0Write_fits {o width v : Nat} {s : State} (hstage : stageNow s ≠ .scrapped) (hfits : writeFits o width = true) :
    w0Write o width v s = w0Effect o (v % 2 ^ (8 * width)) s := by
  simp [w0Write, hstage, hfits]

/-- An access of another width or alignment is ignored and counted (R32). -/
theorem w0Write_ignored {o width v : Nat} {s : State} (hstage : stageNow s ≠ .scrapped) (hfits : writeFits o width = false) :
    w0Write o width v s = { s with ph := { s.ph with ignored := satAdd 0xFFFF s.ph.ignored 1 } } := by
  simp [w0Write, hstage, hfits]

/-- A 32-bit write fits every aligned offset but those of the 64-bit registers. -/
theorem writeFits_word {o : Nat} (ho : o % 4 = 0) (hw : wide o = false) (hprev : wide (o - 4) = false) : writeFits o 4 = true := by
  simp [writeFits, ho, hw, hprev]

/-- The 64-bit registers lie at 8, at the bases of the rings, at TIME_SEC and at the refusal names. -/
theorem wide_eq_false_iff {o : Nat} : wide o = false ↔
    o ≠ 8 ∧ ¬((0x1000 ≤ o ∧ o < 0x1400) ∧ o % 64 = 0) ∧ o ≠ 0x5008 ∧ ¬((0x6000 ≤ o ∧ o < 0x6200) ∧ o % 16 = 0) := by
  simp only [wide, Bool.or_eq_false_iff, Bool.and_eq_false_iff, decide_eq_false_iff_not]
  tauto

/-- A 32-bit word is written as it is. -/
theorem hostWrite_word {o v : Nat} {s w : State} (hr : HostReaches o s w) (ho : o % 4 = 0) (hw : wide o = false)
    (hprev : wide (o - 4) = false) (hv : v < 2 ^ 32) : hostWrite o 4 v s = wakeBy 7 (w0Effect o v w) := by
  rw [hostWrite_reaches hr, w0Write_fits hr.stage (writeFits_word ho hw hprev), Nat.mod_eq_of_lt hv]

/-! ### Blocks -/

/-- Registers of ring n, but for the two words of its base. -/
theorem hostWrite_ring {n o v : Nat} {s w : State} (hn : n < 16) (ho : o < 64) (halign : o % 4 = 0) (hbase : 8 ≤ o) (hv : v < 2 ^ 32)
    (hr : HostReaches (0x1000 + 0x40 * n + o) s w) : hostWrite (ringOffset n o) 4 v s = wakeBy 7 (ringWrite n o v w) := by
  have hblock : (0x1000 + 0x40 * n + o) / 0x1000 = 1 := by omega
  have hoff : (0x1000 + 0x40 * n + o) % 0x1000 = 0x40 * n + o := by omega
  have hring : (0x40 * n + o) / 64 = n := by omega
  have hreg : (0x40 * n + o) % 64 = o := by omega
  rw [ringOffset, hostWrite_word hr (by omega) (wide_eq_false_iff.mpr (by omega)) (wide_eq_false_iff.mpr (by omega)) hv]
  simp only [w0Effect, hblock, hoff, if_pos (show 0x40 * n + o < 0x400 by omega), hring, hreg]

/-! ### Keyed writes (R61) -/

/-- The key stands in the upper half of the word. -/
theorem bits_key (v : Word) : bits v.toNat 16 16 = v.toNat / 65536 := Nat.mod_eq_of_lt (by have := v.isLt; omega)

theorem badKey_em (which key : Nat) (s : State) :
    (badKey which key s).em = { s.em with badKey := true, badKeyCount := Nat.min 0xFFFF (s.em.badKeyCount + 1) } := by
  simp [badKey, satAdd]

theorem badKey_status (which key : Nat) (s : State) : (badKey which key s).ev.status.getLsbD 6 = true := raise_status _ _ _ (by decide)

end Sys2Proof.Machine
end

section
/-! SUPPORT. Doorbells, head writes, ENABLE and the PCIe link (R35, R36, R40): what each leaves of its ring, and from them O30. -/

namespace Sys2Proof.Machine

variable {n : Nat} {s w : State}

/-! ### Doorbell and head -/

theorem doorbell_posts {v : Nat} (hn : n < 8) (hon : (ringOf s n).enable = true) (hroom : (v + 2 ^ 32 - (ringOf s n).head) % 2 ^ 32 ≤ 64)
    (hmore : ringUsed (ringOf s n) ≤ (v + 2 ^ 32 - (ringOf s n).head) % 2 ^ 32) :
    doorbell n v s = setRing n { ringOf s n with tail := v } s := by
  simp only [doorbell, hon, Nat.not_le.mpr hn, Bool.not_true, Bool.false_eq_true, or_self, if_false, hroom, hmore, and_self, if_true]

theorem doorbell_bad {v : Nat} (hn : n < 8) (hon : (ringOf s n).enable = true)
    (hbad : 64 < (v + 2 ^ 32 - (ringOf s n).head) % 2 ^ 32 ∨ (v + 2 ^ 32 - (ringOf s n).head) % 2 ^ 32 < ringUsed (ringOf s n)) :
    doorbell n v s = raise 2 (det n 1 0 0 v) (setRing n { ringOf s n with badDoorbell := true } s) := by
  unfold doorbell
  dsimp only
  rw [if_neg (by simp [hon, hn]), if_neg (by omega)]

theorem headWrite_frees {v : Nat} (hlo : 8 ≤ n) (hhi : n < 16) (hon : (ringOf s n).enable = true)
    (hfrees : ((ringOf s n).tail + 2 ^ 32 - v) % 2 ^ 32 ≤ ringUsed (ringOf s n)) :
    headWrite n v s = flushRing n (setRing n { ringOf s n with head := v } s) := by
  unfold headWrite
  dsimp only
  rw [if_neg (by simp [hon, hlo, hhi]), if_pos hfrees]

/-! ### ENABLE -/

theorem ringOf_clearRing (n m : Nat) (s : State) : ringOf (clearRing n s) m =
    if m = n then { ringOf s n with head := 0, tail := 0, expect := none, active := false } else ringOf s m := ringOf_setRing ..

/-- ENABLE cleared with no message in execution: the counts go at once. -/
theorem ringOf_disableRing (hon : (ringOf s n).enable = true) (hidle : (ringOf s n).busy = false) : ringOf (disableRing n s) n =
    { ringOf s n with enable := false, active := false, head := 0, tail := 0, expect := none } := by
  simp [disableRing, hon, hidle, ringOf_clearRing]

/-- ENABLE cleared during a message: the ring stays active until it has finished. -/
theorem disableRing_busy (hon : (ringOf s n).enable = true) (hbusy : (ringOf s n).busy = true) :
    disableRing n s = setRing n { ringOf s n with enable := false, active := true } s := by
  simp [disableRing, hon, hbusy]

theorem flushRing_nothing (h : (ringOf s n).held = []) : flushRing n s = s := by
  rw [flushRing, h, flushHeld]

theorem ringOf_enableRing (hoff : (ringOf s n).enable = false) (hheld : (ringOf s n).held = []) :
    ringOf (enableRing n s) n = { ringOf s n with enable := true } := by
  simp only [enableRing, hoff, Bool.false_eq_true, if_false]
  rw [flushRing_nothing (by simp [hheld]), ringOf_setRing, if_pos rfl]

theorem b2n_lt (b : Bool) : b2n b < 2 := by
  cases b <;> decide

theorem ctrlWrite_clear (loc : Bool) (hon : (ringOf s n).enable = true) : ctrlWrite n (2 * b2n loc) s = disableRing n s := by
  cases loc <;> simp [ctrlWrite, hon, b2n]

/-- LOC is written as it stands. -/
theorem ringOf_ctrlWrite_set (hoff : (ringOf s n).enable = false) (hheld : (ringOf s n).held = []) :
    ringOf (ctrlWrite n (1 + 2 * b2n (ringOf s n).loc) s) n = { ringOf s n with enable := true } := by
  have hset : (1 + 2 * b2n (ringOf s n).loc).testBit 0 = true := by cases (ringOf s n).loc <;> rfl
  have hloc : (1 + 2 * b2n (ringOf s n).loc).testBit 1 = (ringOf s n).loc := by cases (ringOf s n).loc <;> rfl
  simp only [ctrlWrite, hset, hloc, hoff, Bool.false_eq_true, if_false, if_true]
  rw [ringOf_enableRing (by simp) (by simp [hheld]), ringOf_setRing, if_pos rfl]

/-! ### The rows -/

theorem exec_phDoorbell {v : Word} (hn : n < 8) (hr : HostReaches (0x1000 + 0x40 * n + 0x0C) s w) :
    exec (.phDoorbell n v) s = .next (wakeBy 7 (doorbell n v.toNat w)) := by
  simp only [exec, execPhDoorbell, hn, if_true]
  rw [hostWrite_ring (by omega) (by omega) (by omega) (by omega) v.isLt hr]
  rfl

theorem exec_phHead {v : Word} (hlo : 8 ≤ n) (hhi : n < 16) (hr : HostReaches (0x1000 + 0x40 * n + 0x10) s w) :
    exec (.phHead n v) s = .next (wakeBy 7 (headWrite n v.toNat w)) := by
  simp only [exec, execPhHead, hlo, hhi, and_self, if_true]
  rw [hostWrite_ring (by omega) (by omega) (by omega) (by omega) v.isLt hr]
  rfl

theorem exec_ringDisable (hn : n < 16) (hr : HostReaches (0x1000 + 0x40 * n + 0x08) s w) (hon : (ringOf w n).enable = true) :
    exec (.ringDisable n) s = .next (wakeBy 7 (disableRing n w)) := by
  have hb := b2n_lt (ringOf s n).loc
  simp only [exec, execRingDisable, hn, if_true]
  rw [hostWrite_ring hn (by omega) (by omega) (by omega) (by omega) hr, ← ctrlWrite_clear (ringOf s n).loc hon]
  rfl

theorem exec_ringEnable (hn : n < 16) (hr : HostReaches (0x1000 + 0x40 * n + 0x08) s w) :
    exec (.ringEnable n) s = .next (wakeBy 7 (ctrlWrite n (1 + 2 * b2n (ringOf s n).loc) w)) := by
  have hb := b2n_lt (ringOf s n).loc
  simp only [exec, execRingEnable, hn, if_true]
  rw [hostWrite_ring hn (by omega) (by omega) (by omega) (by omega) hr]
  rfl

theorem exec_ringDisabled (hactive : (ringOf w n).active = true) (hidle : (ringOf w n).busy = false) :
    exec (.ringDisabled n) w = .next (clearRing n w) := by
  simp [exec, execRingDisabled, hactive, hidle]

/-- A failed DMA of an enabled ring in host memory raises EV_PH_DMA_ERR (Table 2-9b). -/
theorem exec_phDmaErr (hn : n < 16) (hon : (ringOf w n).enable = true) (hhost : (ringOf w n).loc = false) (hlink : w.ph.pcieUp = true) :
    exec (.phDmaErr n (if n < 8 then 1 else 2) 1 0) w = .next (raise 3 (detH n (if n < 8 then 1 else 2) 1 0)
      (disableRing n (setRing n { ringOf w n with dmaErr := true } w))) := by
  simp [exec, execPhDmaErr, hn, hon, hhost, hlink]

/-- Settles O30: a clause for each row. -/
theorem ringRegistersAndPcieLink : Obligations.RingRegistersAndPcieLink := by
  unfold Obligations.RingRegistersAndPcieLink
  refine ⟨fun s w n v => ⟨fun hn hr hon => ⟨fun hroom hmore => ?posts, fun hbad => ?bad⟩, fun hlo hhi hr hon hfrees => ?head,
    fun hn hr hon => ⟨fun hidle => ?idle, fun hbusy => ?busy⟩, fun hactive hidle => ?disabled,
    fun hn hr hoff hheld hloc => ?enable, fun hn hon hhost hlink _ => ?dma⟩, fun s => ⟨rfl, rfl⟩⟩
  case posts => rw [exec_phDoorbell hn hr, doorbell_posts hn hon hroom hmore]
  case bad => rw [exec_phDoorbell hn hr, doorbell_bad hn hon hbad]
  case head => rw [exec_phHead hlo hhi hr, headWrite_frees hlo hhi hon hfrees]
  case idle => exact ⟨_, exec_ringDisable hn hr hon, ringOf_disableRing hon hidle⟩
  case busy => rw [exec_ringDisable hn hr hon, disableRing_busy hon hbusy]
  case disabled =>
    refine ⟨_, exec_ringDisabled hactive hidle, ?_, fun m hm => ?_⟩
    · rw [ringOf_clearRing, if_pos rfl]
    · rw [ringOf_clearRing, if_neg hm]
  case enable => exact ⟨_, exec_ringEnable hn hr, hloc ▸ ringOf_ctrlWrite_set hoff hheld⟩
  case dma => exact ⟨_, exec_phDmaErr hn hon hhost hlink, raise_status _ _ _ (by decide)⟩

end Sys2Proof.Machine
end

section
/-! SUPPORT. The keyed emergency command, the latched time and the silence of a mute (R61, R62, R152), and from them O31. -/

namespace Sys2Proof.Machine

/-! ### The register -/

section
variable {s w : State}

theorem hostWrite_emergency (hr : HostReaches 0x3000 s w) (v : Word) : hostWrite 0x3000 4 v.toNat s = wakeBy 7 (emergWrite v.toNat w) :=
  hostWrite_word hr rfl rfl rfl v.isLt

theorem exec_timeCapture (hr : HostReaches 0x5000 s w) : exec (.timeCapture 1) s = .next (wakeBy 7 (captureTime w)) :=
  congrArg _ (hostWrite_word hr rfl rfl rfl (by decide))

/-- With another key nothing acts: the write is noted, counted and raised. -/
theorem emergWrite_badKey {v : Word} (hkey : v.toNat / 65536 ≠ 0xA5C3) (s : State) :
    emergWrite v.toNat s = badKey 0 (v.toNat / 65536) s := by
  rw [emergWrite, bits_key, if_pos hkey]

/-! ### The set bits -/

theorem emergWrite_mute (s : State) : emergWrite 0xA5C30001 s = Sys2Proof.Machine.muteAll s := rfl

theorem emergWrite_park (s : State) : emergWrite 0xA5C30002 s = Sys2Proof.Machine.parkAll s := rfl

/-- Out of the low-power modes SAFE_HOLD_REQ starts the entry. -/
theorem emergWrite_safeHold (hlisten : s.pwr.mode ≠ .listen) (hsleep : s.pwr.mode ≠ .deepSleep) :
    emergWrite 0xA5C30004 s = protect 1 0 s := by
  have hmode : ¬((s.pwr.mode = .listen ∨ s.pwr.mode = .deepSleep) ∧ (!protecting s) = true) := by tauto
  exact if_neg hmode
end

/-! ### Silence -/

theorem mem_silenceTiles {x : Silence} {s : State} (qs : List Nat) (mute : Bool) (h : x ∈ s.dl.silence) :
    x ∈ (silenceTiles qs mute s).dl.silence := List.mem_append_left _ h

/-- Each tile named has a silence that lasts: one that lasted before, or a new one. -/
theorem silenceTiles_open {qs : List Nat} {q : Nat} (mute : Bool) (s : State) (hq : q ∈ qs) :
    ∃ x ∈ (silenceTiles qs mute s).dl.silence, x.isOpen mute q = true := by
  by_cases h : s.dl.silence.any fun x => x.isOpen mute q
  · obtain ⟨x, hx, hopen⟩ := List.any_eq_true.mp h
    exact ⟨x, mem_silenceTiles qs mute hx, hopen⟩
  · refine ⟨⟨q, nowU s, none, mute⟩, List.mem_append_right _ (List.mem_map.mpr ⟨q, List.mem_filter.mpr ⟨hq, by simpa using h⟩, rfl⟩), ?_⟩
    simp [Silence.isOpen]

theorem endSilence_closed {qs : List Nat} {q : Nat} {mute : Bool} {air : Instant} {s : State} (hq : q ∈ qs) {x : Silence}
    (hx : x ∈ (endSilence qs mute air s).dl.silence) : x.isOpen mute q = false := by
  obtain ⟨y, -, rfl⟩ := List.mem_map.mp (List.mem_filter.mp hx).1
  by_contra hopen
  rw [Bool.not_eq_false] at hopen
  split at hopen
  · simp [Silence.isOpen] at hopen
  next hy =>
    have htile : y.tile = q := by
      simp only [Silence.isOpen, Bool.and_eq_true, decide_eq_true_eq] at hopen
      exact hopen.1.1
    simp [htile, hq, hopen] at hy

theorem exec_muteEnd {s : State} {t : Instant} (h : s.em.unmuteAt = some t) : exec .muteEnd s =
    .next { endSilence [0, 1, 2, 3] true (muteEndAt s t) (advanceTo (muteEndAt s t) s) with
      em := { s.em with muted := false, unmuteAt := none } } := by
  simp only [exec, execMuteEnd, h]
  simp

/-- Settles O31: the register's writes, then a mute and its end. -/
theorem emergencyAndTimeCapture : Obligations.EmergencyAndTimeCapture := by
  unfold Obligations.EmergencyAndTimeCapture
  refine ⟨fun s w hr => ⟨?mute, ?park, fun hlisten hsleep => ?safeHold, fun v hkey => ?badKey, fun ht => exec_timeCapture ht⟩,
    fun s => ⟨⟨rfl, fun q hq => silenceTiles_open true _ (by interval_cases q <;> simp), fun x hx => mem_silenceTiles _ _ hx, rfl⟩,
      fun t ht => ⟨_, exec_muteEnd ht, rfl, rfl, fun q hq x hx => ?closed, rfl⟩⟩⟩
  case mute => exact congrArg _ ((hostWrite_emergency hr 0xA5C30001).trans (congrArg _ (emergWrite_mute w)))
  case park => exact congrArg _ ((hostWrite_emergency hr 0xA5C30002).trans (congrArg _ (emergWrite_park w)))
  case safeHold => exact congrArg _ ((hostWrite_emergency hr 0xA5C30004).trans (congrArg _ (emergWrite_safeHold hlisten hsleep)))
  case badKey =>
    have hrow : hostWrite 0x3000 4 v.toNat s = wakeBy 7 (badKey 0 (v.toNat / 65536) w) :=
      (hostWrite_emergency hr v).trans (congrArg _ (emergWrite_badKey hkey w))
    exact ⟨_, congrArg _ hrow, congrArg _ hrow, congrArg _ hrow, badKey_em .., badKey_status .., by simp, by simp⟩
  case closed => exact endSilence_closed (qs := [0, 1, 2, 3]) (by interval_cases q <;> simp) hx

end Sys2Proof.Machine
end

section
/-! SUPPORT. Release of pad groups, by message and by register, and the levels noted of their pins (R61, R349, R354), and from them O21. -/

namespace Sys2Proof.Machine

/-! ### Bit sets collected from a list -/

/-- A bit is set in a set collected from a list where its index is listed and chosen. -/
theorem getLsbD_foldl_twoPow {w : Nat} (c : Nat → Bool) (l : List Nat) (a : BitVec w) {k : Nat} (hk : k < w) :
    (l.foldl (fun a g => if c g then a ||| BitVec.twoPow w g else a) a).getLsbD k = (a.getLsbD k || (decide (k ∈ l) && c k)) := by
  induction l generalizing a with
  | nil => simp
  | cons g l ih =>
    rw [List.foldl_cons, ih]
    by_cases hg : k = g
    · subst hg
      cases hc : c k <;> simp [hk]
    · cases c g <;> simp [hk, hg]

/-! ### Release -/

/-- Groups that are named and whose owner is powered are released; named ones whose owner is off are noted refused (R61). -/
theorem releasePads_bits (groups : BitVec 12) (s : State) {k : Nat} (hk : k < 12) :
    (releasePads groups s).em.held.getLsbD k = (s.em.held.getLsbD k && !(groups.getLsbD k && s.pwr.on.getLsbD (padOwner k))) ∧
    (releasePads groups s).em.refused.getLsbD k = (s.em.refused.getLsbD k || (groups.getLsbD k && !s.pwr.on.getLsbD (padOwner k))) := by
  have hgood := getLsbD_foldl_twoPow (fun g => groups.getLsbD g && s.pwr.on.getLsbD (padOwner g)) (List.range 12) 0 hk
  simp only [releasePads, BitVec.getLsbD_and, BitVec.getLsbD_or, BitVec.getLsbD_not, hgood]
  cases groups.getLsbD k <;> simp [hk]

/-! ### Levels -/

theorem pinLevel_notePin (s : State) (m n : Nat) : pinLevel (notePin s m) n = pinLevel s n := by
  unfold notePin
  dsimp only
  split <;> rfl

theorem notePin_level (s : State) (m n : Nat) :
    tget false (notePin s m).rf.level n = if n = m then pinLevel s n else tget false s.rf.level n := by
  unfold notePin
  dsimp only
  split
  next h =>
    split
    next hn => rw [hn, h]
    next => rfl
  next =>
    rw [tget_tset]
    split
    next hn => rw [hn]
    next => rfl

theorem foldl_notePin_level (l : List Nat) (s : State) (n : Nat) :
    tget false (l.foldl notePin s).rf.level n = if n ∈ l then pinLevel s n else tget false s.rf.level n := by
  induction l generalizing s with
  | nil => simp
  | cons m l ih =>
    rw [List.foldl_cons, ih, pinLevel_notePin, notePin_level]
    by_cases hm : n = m <;> by_cases hl : n ∈ l <;> simp [hm, hl]

theorem notePins_level (s : State) {n : Nat} (hn : n < 32) : tget false (notePins s).rf.level n = pinLevel s n := by
  rw [notePins, foldl_notePin_level, if_pos (List.mem_range.mpr hn)]

/-! ### The rows -/

theorem exec_padRelease_message {ring : Nat} {dma : List Byte} {s : State} {h : Hdr} {p : List Byte} (d : Delivered 0x0604 ring dma s h p)
    (hlen : p.length = 4) (hgroups : u p 0 2 < 4096) (hzero : slice p 2 2 = zeros 2) :
    let w := notePins (releasePads (BitVec.ofNat 12 (u p 0 2)) (consumed ring h s))
    exec (.padRelease (.message ring dma)) s =
      .next (answered (askerOf ring h s) (leBytes 2 w.em.held.toNat ++ leBytes 2 w.em.refused.toNat) w) := by
  have hgood : ∀ c ∈ [below p 0 2 12, isZero p 2 2], c.2 = true := by simp [below, hgroups, isZero_of_slice hzero]
  simp only [exec, execPadRelease, runMessage_delivered _ d, padReleaseBody, withLength_of_mem (show p.length ∈ [4] by simp [hlen]),
    withFields_of_good hgood, settle_ok]

theorem exec_padRelease_keyed {v : Word} (hkey : v.toNat / 65536 = 0xA5C3) (s : State) :
    exec (.padRelease (.register v)) s = .next (notePins (releasePads (BitVec.ofNat 12 (v.toNat % 4096)) s)) := by
  simp only [exec, execPadRelease, padReleaseWrite, bits_key, hkey, if_true]

theorem exec_padRelease_badKey {v : Word} (hkey : v.toNat / 65536 ≠ 0xA5C3) (s : State) :
    exec (.padRelease (.register v)) s = .next (badKey 1 (v.toNat / 65536) s) := by
  simp only [exec, execPadRelease, padReleaseWrite, bits_key, hkey, if_false]

/-- Settles O21: the message, the register with its key and with another, and what release and levels leave. -/
theorem padRelease : Obligations.PadRelease := by
  unfold Obligations.PadRelease
  refine ⟨fun ring dma s h p => exec_padRelease_message, fun s v hkey => exec_padRelease_keyed hkey s,
    fun s v hkey => ⟨_, exec_padRelease_badKey hkey s, ?_⟩, fun s => ⟨?_, fun n => notePins_level s⟩,
    fun s g => ⟨rfl, fun k => releasePads_bits g s⟩⟩
  · simp [badKey_em, badKey_status]
  · obtain ⟨level, rise, heq⟩ := notePins_eq s
    rw [heq]

end Sys2Proof.Machine
end

section
/-! SUPPORT. Rocker words (R63, R396, R398) and what sending the words of a path leaves of the other paths and of the digests (R390), and from
them O13. -/

namespace Sys2Proof.Machine

/-! ### Rocker words -/

section
variable {s : State} {k v : Nat}

theorem rockerWrite_closed (h : rockerOpen s = false) : rockerWrite k v s = s := by
  simp [rockerWrite, h]

theorem rockerWrite_open (h : rockerOpen s = true) (hk : k < 7) : rockerWrite k v s = { s with rk := { s.rk with
    reg := tset 0 s.rk.reg k (rockerClamp k v),
    lfsr := if decide (k = 0) && decide (tget 0 s.rk.reg 0 = 0) && decide (rockerClamp k v = 1) then tget 0 s.rk.reg 6 else s.rk.lfsr } } := by
  simp [rockerWrite, h, hk]

/-- ENABLE rising loads the LFSR from SEED (R396). -/
theorem rockerWrite_enable (h : rockerOpen s = true) (hoff : tget 0 s.rk.reg 0 = 0) (hv : v % 2 = 1) :
    (rockerWrite 0 v s).rk.lfsr = tget 0 s.rk.reg 6 := by
  simp [rockerWrite_open h, hoff, rockerClamp, hv]

theorem settle_rockerReport (a : Asker) (before back s : State) :
    settle a before back (rockerReport 0 s) = answered a (rockerReport 0 s).payload (rockerReport 0 s).st := rfl
end

section
variable {ring : Nat} {dma : List Byte} {s : State} {h : Hdr} {p : List Byte} (d : Delivered 0x0903 ring dma s h p)
include d

theorem exec_rockerSet_report (hp : p = []) : exec (.rockerSet ring dma) s = .next (answered (askerOf ring h s)
    (rockerReport 0 (consumed ring h s)).payload (rockerReport 0 (consumed ring h s)).st) := by
  simp only [exec, execRockerSet, runMessage_delivered _ d, rockerSetBody, withLength_of_mem (show p.length ∈ [0, 64] by simp [hp]),
    show p.length = 0 by simp [hp], if_true, settle_rockerReport]

/-- Without a digest action the words are written in ascending order. -/
theorem exec_rockerSet_write (hlen : p.length = 64) (hgood : firstBad (rockerChecks p) = none) (hact : u p 28 1 = 0)
    (hopen : rockerOpen (consumed ring h s) = true) :
    let w := (List.range 7).foldl (fun t k => rockerWrite k (u p (4 * k) 4) t) (consumed ring h s)
    exec (.rockerSet ring dma) s = .next (answered (askerOf ring h s) (rockerReport 0 w).payload (rockerReport 0 w).st) := by
  have hdigest : digestAct p (consumed ring h s) = consumed ring h s := by simp only [digestAct, hact]
  simp only [exec, execRockerSet, runMessage_delivered _ d, rockerSetBody, withLength_of_mem (show p.length ∈ [0, 64] by simp [hlen]),
    show p.length ≠ 0 by simp [hlen], if_false, withFields_of_none hgood, hact, zero_ne_one, false_and, hdigest, hopen, if_true,
    settle_rockerReport]
end

theorem exec_rockerRegisterWrite {s w : State} {k : Nat} (v : Word) (hk : k < 7) (hr : HostReaches (0x7000 + 4 * k) s w) :
    exec (.rockerRegisterWrite (0x7000 + 4 * k) v) s = .next (wakeBy 7 (rockerWrite k v.toNat w)) := by
  have hblock : (0x7000 + 4 * k) / 0x1000 = 7 := by omega
  have hoff : (0x7000 + 4 * k) % 0x1000 = 4 * k := by omega
  have hword : 4 * k / 4 = k := by omega
  simp only [exec, execRockerRegisterWrite]
  rw [if_pos (by omega), hostWrite_word hr (by omega) (wide_eq_false_iff.mpr (by omega)) (wide_eq_false_iff.mpr (by omega)) v.isLt]
  simp only [w0Effect, hblock, hoff, if_pos (show 4 * k < 0x1C by omega), hword]

/-! ### What sending the words of paths moves on -/

/-- From `s` to `t` no more than the playout of the paths named, and their digests, move on: of the Rocker their CRC registers and next
ticks, of the downlink what they have played. -/
structure MovesPaths (paths : Nat → Prop) (s t : State) : Prop where
  rk : t.rk = { s.rk with crc := t.rk.crc, next := t.rk.next }
  crc : ∀ n, ¬paths n → tget 0 t.rk.crc n = tget 0 s.rk.crc n
  next : ∀ n, ¬paths n → tget 0 t.rk.next n = tget 0 s.rk.next n
  dl : t.dl = { s.dl with playing := t.dl.playing }
  playing : ∀ n, ¬paths n → tget none t.dl.playing n = tget none s.dl.playing n

theorem MovesPaths.of_eq {p : Nat → Prop} {s t : State} (hrk : t.rk = s.rk) (hdl : t.dl = s.dl) : MovesPaths p s t :=
  ⟨by rw [hrk], fun _ _ => by rw [hrk], fun _ _ => by rw [hrk], by rw [hdl], fun _ _ => by rw [hdl]⟩

theorem MovesPaths.trans {p : Nat → Prop} {r s t : State} (h : MovesPaths p r s) (k : MovesPaths p s t) : MovesPaths p r t :=
  ⟨by rw [k.rk, h.rk], fun n hn => (k.crc n hn).trans (h.crc n hn), fun n hn => (k.next n hn).trans (h.next n hn),
    by rw [k.dl, h.dl], fun n hn => (k.playing n hn).trans (h.playing n hn)⟩

theorem MovesPaths.mono {p q : Nat → Prop} {s t : State} (h : MovesPaths p s t) (hpq : ∀ n, p n → q n) : MovesPaths q s t :=
  ⟨h.rk, fun n hn => h.crc n (hn ∘ hpq n), fun n hn => h.next n (hn ∘ hpq n), h.dl, fun n hn => h.playing n (hn ∘ hpq n)⟩

/-- Writing a path's CRC register and next tick moves that path on. -/
theorem MovesPaths.write (p : Nat) (c : Nat) (x : Int) (s : State) :
    MovesPaths (· = p) s { s with rk := { s.rk with crc := tset 0 s.rk.crc p c, next := tset 0 s.rk.next p x } } :=
  ⟨rfl, fun _ hn => tget_tset_ne _ _ _ hn, fun _ hn => tget_tset_ne _ _ _ hn, rfl, fun _ _ => rfl⟩

theorem digestZeros_moves (p : Nat) (t : Int) (s : State) : MovesPaths (· = p) s (digestZeros p t s) := by
  unfold digestZeros
  dsimp only
  split
  · exact .of_eq rfl rfl
  · exact .write ..

theorem digestSamples_moves (p : Nat) (a : Int) (ws : List Word) (s : State) : MovesPaths (· = p) s (digestSamples p a ws s) := by
  unfold digestSamples
  dsimp only
  split
  · exact .of_eq rfl rfl
  · split
    · exact digestZeros_moves ..
    · exact (digestZeros_moves ..).trans (.write ..)

theorem sendTicks_moves (p : Nat) (g : Playing) (lo hi : Int) (s : State) : MovesPaths (· = p) s (sendTicks p g lo hi s) := by
  let ws := (playedOver s p g lo (hi - lo).toNat).words
  let sent : State := { s with out := s.out ++ [.dac p lo ws] }
  have hout : MovesPaths (· = p) s sent := .of_eq rfl rfl
  have hdigest : MovesPaths (· = p) sent (digestSamples p lo ws sent) := digestSamples_moves ..
  have hcount : MovesPaths (· = p) (digestSamples p lo ws sent) (sendTicks p g lo hi s) :=
    .of_eq (by simp [sendTicks, sent, ws]) (by simp [sendTicks, sent, ws])
  exact (hout.trans hdigest).trans hcount

theorem sendUpTo_moves (p : Nat) (t : Int) (s : State) : MovesPaths (· = p) s (sendUpTo p t s) := by
  unfold sendUpTo
  dsimp only
  split
  next g a b _ _ _ =>
    have hsent : MovesPaths (· = p) s (if max g.upTo a < min t b then sendTicks p g (max g.upTo a) (min t b) s else s) := by
      split
      · exact sendTicks_moves ..
      · exact .of_eq rfl rfl
    generalize (if max g.upTo a < min t b then sendTicks p g (max g.upTo a) (min t b) s else s) = sent at hsent ⊢
    refine hsent.trans ⟨rfl, fun _ _ => rfl, fun _ _ => rfl, rfl, fun n hn => ?_⟩
    have hne : n ≠ p := hn
    simp [tget_tset, hne]
  next => exact .of_eq rfl rfl

/-- A path that plays nothing sends nothing. -/
theorem sendUpTo_none {p : Nat} {s : State} (h : tget none s.dl.playing p = none) (t : Int) : sendUpTo p t s = s := by
  simp only [sendUpTo, h]

/-! ### The digests at the end of the span -/

/-- Up to tick `fin` a path has sent its words, and the rest of its ticks have entered its digest as zeros. -/
def digestPath (fin : Int) (s : State) (p : Nat) : State := digestZeros p fin (sendUpTo p fin s)

theorem digestPath_moves (fin : Int) (s : State) (p : Nat) : MovesPaths (· = p) s (digestPath fin s p) :=
  (sendUpTo_moves ..).trans (digestZeros_moves ..)

theorem foldl_digestPath_moves (fin : Int) (l : List Nat) (s : State) : MovesPaths (· ∈ l) s (l.foldl (digestPath fin) s) := by
  induction l generalizing s with
  | nil => exact .of_eq rfl rfl
  | cons p l ih =>
    exact ((digestPath_moves fin s p).mono fun n hn => hn ▸ List.mem_cons_self).trans
      ((ih _).mono fun n hn => List.mem_cons_of_mem _ hn)

/-- What zeros make of a path's CRC register rests on that register and the path's next tick alone. -/
theorem digestZeros_crc_congr {p : Nat} {s t : State} (hcrc : tget 0 t.rk.crc p = tget 0 s.rk.crc p)
    (hnext : tget 0 t.rk.next p = tget 0 s.rk.next p) (fin : Int) :
    tget 0 (digestZeros p fin t).rk.crc p = tget 0 (digestZeros p fin s).rk.crc p := by
  simp only [digestZeros, hcrc, hnext]
  split <;> simp [hcrc]

/-- The digest of a path where nothing plays takes zeros to the end of the span. -/
theorem foldl_digestPath_silent {p : Nat} {fin : Int} {l : List Nat} {s : State} (hl : l.Nodup) (hp : p ∈ l)
    (hnone : tget none s.dl.playing p = none) :
    tget 0 (l.foldl (digestPath fin) s).rk.crc p = tget 0 (digestZeros p fin s).rk.crc p := by
  induction l generalizing s with
  | nil => simp at hp
  | cons m l ih =>
    obtain ⟨hm, hnodup⟩ := List.nodup_cons.mp hl
    rw [List.foldl_cons]
    rcases List.mem_cons.mp hp with rfl | hmem
    · rw [(foldl_digestPath_moves fin l _).crc p hm, digestPath, sendUpTo_none hnone]
    · have hne : p ≠ m := fun h => hm (h ▸ hmem)
      have hmoves := digestPath_moves fin s m
      rw [ih hnodup hmem ((hmoves.playing p hne).trans hnone),
        digestZeros_crc_congr (hmoves.crc p hne) (hmoves.next p hne)]

/-! ### The rows -/

theorem advanceTo_eq (t : Instant) (s : State) : advanceTo t s = { s with tm := (advanceTo t s).tm } := by
  generalize hlater : advanceTo t s = later
  apply state_eq <;> dsimp only
  all_goals simp [← hlater]

theorem exec_digestStart {s : State} (h : s.rk.digest = 1) : exec .digestStart s = .next { advanceTo ((s.rk.start : Int) * frameU) s with
    rk := { s.rk with digest := 2, crc := tsetList 0 [] 0 (List.replicate 72 0xFFFFFFFF),
                      next := tsetList 0 [] 0 (List.replicate 64 (tickOf ((s.rk.start : Int) * frameU))) } } := by
  simp [exec, execDigestStart, h]

theorem tget_tsetList_replicate {α : Type} [DecidableEq α] (d v : α) {m n : Nat} (hn : n < m) :
    tget d (tsetList d [] 0 (List.replicate m v)) n = v := by
  simp [tget_tsetList, hn]

/-- Every path's ticks before the end of the span, sent. -/
def digestSpan (s : State) : State := (List.range 64).foldl (digestPath (tickOf (digestEnd s))) (advanceTo (digestEnd s) s)

/-- The digests as they are read at the end: each register inverted, no tick to follow. -/
def digestsFinal (s : State) : State :=
  { s with rk := { s.rk with digest := 3, next := [],
                             crc := tsetList 0 [] 0 ((List.range 72).map fun n => Nat.xor (tget 0 s.rk.crc n) 0xFFFFFFFF) } }

theorem exec_digestComplete {s : State} (h : s.rk.digest = 2) : exec .digestComplete s = .next (digestsFinal (digestSpan s)) := by
  simp only [exec, execDigestComplete, h, ne_eq, not_true_eq_false, if_false, digestSpan, digestsFinal]
  delta digestPath
  rfl

theorem digestSpan_moves (s : State) : MovesPaths (· < 64) s (digestSpan s) :=
  (MovesPaths.of_eq (by simp) (by simp)).trans ((foldl_digestPath_moves ..).mono fun _ => List.mem_range.mp)

theorem digestSpan_silent {s : State} {p : Nat} (hp : p < 64) (hnone : tget none s.dl.playing p = none) :
    tget 0 (digestSpan s).rk.crc p = tget 0 (digestZeros p (tickOf (digestEnd s)) s).rk.crc p := by
  rw [digestSpan, foldl_digestPath_silent List.nodup_range (List.mem_range.mpr hp) (by simpa using hnone)]
  exact digestZeros_crc_congr (by simp) (by simp) _

/-- Each digest is its register inverted (R390). -/
theorem tget_digestsFinal {s : State} {n : Nat} (hn : n < 72) :
    tget 0 (digestsFinal s).rk.crc n = Nat.xor (tget 0 s.rk.crc n) 0xFFFFFFFF := by
  simp [digestsFinal, tget_tsetList, hn]

theorem digestComplete_frame {s t : State} (ht : digestsFinal (digestSpan s) = t) : t = { s with
    rk := t.rk, tm := t.tm, dl := t.dl, out := t.out, stat := t.stat, ev := t.ev, ph := t.ph } := by
  apply state_eq <;> dsimp only
  all_goals simp [← ht, digestsFinal, digestSpan, digestPath]

theorem digestComplete_dl {s t : State} (ht : digestsFinal (digestSpan s) = t) : t.dl = { s.dl with playing := t.dl.playing } := by
  have hdl := (digestSpan_moves s).dl
  generalize digestSpan s = sent at ht hdl
  simpa only [← ht, digestsFinal] using hdl

theorem digestComplete_rk {s t : State} (ht : digestsFinal (digestSpan s) = t) : t.rk.reg = s.rk.reg ∧ t.rk.lfsr = s.rk.lfsr := by
  have hrk := (digestSpan_moves s).rk
  generalize digestSpan s = sent at ht hrk
  simp only [← ht, digestsFinal]
  rw [hrk]
  exact ⟨rfl, rfl⟩

/-- Settles O13: the Rocker's message and register, then the start and the end of a digest. -/
theorem rockerAndDigest : Obligations.RockerAndDigest := by
  unfold Obligations.RockerAndDigest
  refine ⟨⟨fun ring dma s h p d => exec_rockerSet_report d, fun ring dma s h p d => exec_rockerSet_write d,
    fun s k v hopen hk => ⟨?clamp, ?enable, ?others⟩, fun s k v => rockerWrite_closed, fun s w k v => exec_rockerRegisterWrite v⟩,
    fun s => ⟨fun h => ⟨_, exec_digestStart h, rfl, ?crcs, ?nexts, ?started, rfl⟩,
      fun h => ⟨_, exec_digestComplete h, rfl, ?ports, ?silent,
        digestComplete_frame rfl, digestComplete_dl rfl, digestComplete_rk rfl⟩⟩⟩
  case clamp => rw [rockerWrite_open hopen hk]; exact tget_tset_self ..
  case enable => rintro rfl hoff hv; exact rockerWrite_enable hopen hoff hv
  case others => intro j hj; rw [rockerWrite_open hopen hk]; exact tget_tset_ne _ _ _ hj
  case crcs => intro n hn; simp only [tget_tsetList_replicate _ _ hn]
  case nexts => intro n hn; simp only [tget_tsetList_replicate _ _ hn]
  case started => rw [advanceTo_eq]
  case ports =>
    intro n hn
    rw [tget_digestsFinal (by omega), (digestSpan_moves s).crc _ (by omega)]
  case silent =>
    intro n hn hnone
    rw [tget_digestsFinal (by omega), digestSpan_silent hn hnone]

end Sys2Proof.Machine
end

section
/-! SUPPORT. Reads and writes of W0, BAR4 and W2 over PCIe (R31, R32, R55, R65), and from them O32. -/

namespace Sys2Proof.Machine

/-! ### W0 -/

theorem execRegisterWrite_w0 {o : Nat} (ho : o < 0x10000) (width v : Nat) (s : State) :
    exec (.registerWrite o width v) s = .next (hostWrite o width v s) := if_pos ho

theorem execW0Read_w0 {o : Nat} (ho : o < 0x10000) (width : Nat) (s : State) :
    exec (.w0Read (.pcie o width)) s = .next (hostRead o width s) := if_pos ho

/-- Words EV_STATUS_0 to EV_STATUS_7 (R55). -/
theorem exec_statusWrite {s w : State} {k v : Nat} (hk : k < 8) (hv : v < 2 ^ 32) (hr : HostReaches (0x2000 + 4 * k) s w) :
    exec (.registerWrite (0x2000 + 4 * k) 4 v) s = .next (wakeBy 7 (clearStatus (BitVec.ofNat 256 (v * 2 ^ (32 * k))) w)) := by
  have hblock : (0x2000 + 4 * k) / 0x1000 = 2 := by omega
  have hoff : (0x2000 + 4 * k) % 0x1000 = 4 * k := by omega
  have hbit : 8 * (4 * k) = 32 * k := by omega
  rw [execRegisterWrite_w0 (by omega),
    hostWrite_word hr (by omega) (wide_eq_false_iff.mpr (by omega)) (wide_eq_false_iff.mpr (by omega)) hv]
  simp only [w0Effect, hblock, hoff, if_pos (show 4 * k < 0x20 by omega), hbit]

theorem writeFits_eq_false {o width : Nat} (h4 : width ≠ 4) (h8 : width ≠ 8) : writeFits o width = false := by
  simp [writeFits, h4, h8]

theorem exec_registerWrite_ignored {s w : State} {o width : Nat} (v : Nat) (ho : o < 0x10000) (hr : HostReaches o s w) (h4 : width ≠ 4)
    (h8 : width ≠ 8) : exec (.registerWrite o width v) s =
      .next (wakeBy 7 { w with ph := { w.ph with ignored := Nat.min 0xFFFF (w.ph.ignored + 1) } }) := by
  rw [execRegisterWrite_w0 ho, hostWrite_reaches hr, w0Write_ignored hr.stage (writeFits_eq_false h4 h8), satAdd]

theorem exec_w0Read_word {s w : State} {o : Nat} (ho : o < 0x10000) (hr : HostReaches o s w) (halign : o % 4 = 0) :
    exec (.w0Read (.pcie o 4)) s = .next (wakeBy 7 { w with out := w.out ++ [.pcie (some (leBytes 4 (w0Read w o)))] }) := by
  rw [execW0Read_w0 ho, hostRead_reaches hr, pcieRead, if_pos ⟨rfl, halign⟩]

/-- What the completion of an ignored read carries is a value of the environment's choice. -/
theorem exec_w0Read_ignored {s w : State} {o width : Nat} (ho : o < 0x10000) (hr : HostReaches o s w) (hodd : width ≠ 4 ∨ o % 4 ≠ 0) :
    exec (.w0Read (.pcie o width)) s = .next (wakeBy 7 { w with
      fresh := w.fresh + 1, ph := { w.ph with ignored := Nat.min 0xFFFF (w.ph.ignored + 1) },
      out := w.out ++ [.pcie (some (leBytes width (Config.freeValue w.fresh)))] }) := by
  rw [execW0Read_w0 ho, hostRead_reaches hr, pcieRead, if_neg (by tauto)]
  rfl

/-! ### BAR4 -/

/-- The endpoint serves BAR4: out of RESET, with the link up and CTRL powered. -/
structure Bar4Serves (s : State) : Prop where
  mode : s.pwr.mode ≠ .reset
  link : s.ph.pcieUp = true
  ready : s.pwr.ready.getLsbD 1 = true

section
variable {s : State} (hs : Bar4Serves s) {o : Nat} (ho : o < 0x2000) (halign : o % 4 = 0)
include hs ho

theorem exec_bar4Write (v : Nat) : exec (.registerWrite (0x10000 + o) 4 v) s = .next (wakeBy 7 (bar4Effect o 4 v s)) := by
  have hbar : exec (.registerWrite (0x10000 + o) 4 v) s = .next (bar4Write (0x10000 + o - barW0) 4 v s) :=
    (if_neg (by simp [barW0])).trans (if_pos (by simp [barW0, barMsix]; omega))
  rw [hbar, barW0, Nat.add_sub_cancel_left, bar4Write, if_neg (by simp [hs.mode, hs.link]), if_pos hs.ready]

include halign in
theorem exec_bar4Read : exec (.w0Read (.pcie (0x10000 + o) 4)) s =
    .next (wakeBy 7 { s with out := s.out ++ [.pcie (some (leBytes 4 (bar4Word s o)))] }) := by
  have hbar : exec (.w0Read (.pcie (0x10000 + o) 4)) s = .next (bar4Read (0x10000 + o - barW0) 4 s) :=
    (if_neg (by simp [barW0])).trans (if_pos (by simp [barW0, barMsix]; omega))
  rw [hbar, barW0, Nat.add_sub_cancel_left, bar4Read, if_neg (by simp [hs.mode, hs.link]), if_neg (by simp [hs.ready]),
    if_pos ⟨.inl rfl, halign⟩]
  simp
end

theorem msixWrite_msix (k v : Nat) (s : State) : (msixWrite k v s).ph.msix = tset 0 s.ph.msix k (v % 2 ^ 32) := by
  unfold msixWrite
  dsimp only
  split <;> rfl

theorem bar4Effect_table {o : Nat} (ho : o < 512) (halign : o % 4 = 0) (v : Nat) (s : State) : bar4Effect o 4 v s = msixWrite (o / 4) v s := by
  simp [bar4Effect, halign, ho]

/-- The pending bits, and what follows them, are not written. -/
theorem bar4Effect_readOnly {o : Nat} (ho : 512 ≤ o) (v : Nat) (s : State) : bar4Effect o 4 v s = s := if_pos (.inl ho)

/-! ### W2 -/

/-- A read of W2 over PCIe that reaches its domains returns the bytes of Table 2-19. -/
theorem exec_w2Read {s w : State} {a n : Nat} (hmode : s.pwr.mode ≠ .reset) (hlink : s.ph.pcieUp = true) (hstage : stageNow s ≠ .scrapped)
    (hsize : a + n ≤ 0x4000000) (hreach : reachAll s (w2Domains a n) = .inl w) : exec (.w2Read (.pcie a n)) s =
      .next (wakeBy 7 { (w2Data a n w).2 with
        out := (w2Data a n w).2.out ++ [.pcie (some ((List.range n).map fun k => w2Byte w (a + k)))] }) := by
  have hserves : ¬(s.pwr.mode = .reset ∨ (!s.ph.pcieUp) = true ∨ stageNow s = .scrapped ∨ 0x4000000 < a + n) := by
    simp [hmode, hlink, hstage, hsize]
  have hbytes : (w2Data a n w).1 = (List.range n).map fun k => w2Byte w (a + k) := by simp [w2Data]
  simp only [exec, execW2Read, if_neg hserves, hreach, hbytes]

/-- Without memory errors a word's read meets none. -/
theorem w2Meet_clean {w : State} (h : w.ls.bad = []) (x : Nat × Nat) : w2Meet w x = w := by
  simp [w2Meet, readWord, wordError, readMram, h]

theorem w2Data_clean {w : State} {a n : Nat} (hbad : w.ls.bad = []) (hgood : ∀ k < n, w2Bad w (a + k) = false) : (w2Data a n w).2 = w := by
  have hmet : ∀ l : List (Nat × Nat), l.foldl w2Meet w = w := fun l => by
    induction l with
    | nil => rfl
    | cons x l ih => rw [List.foldl_cons, w2Meet_clean hbad, ih]
  have hnone : ((List.range n).map fun k => a + k).find? (w2Bad w) = none := by
    simpa [List.find?_eq_none] using hgood
  simp only [w2Data, hmet, hnone]

/-- A word read with a double-bit error raises EV_W2_ECC. -/
theorem w2Data_struck {w : State} {a n k : Nat} (hk : k < n) (hbad : w2Bad w (a + k) = true) : (w2Data a n w).2.ev.status.getLsbD 7 = true := by
  obtain ⟨b, hb⟩ : ∃ b, ((List.range n).map fun k => a + k).find? (w2Bad w) = some b := by
    rw [← Option.isSome_iff_exists, List.find?_isSome]
    exact ⟨a + k, List.mem_map.mpr ⟨k, List.mem_range.mpr hk, rfl⟩, hbad⟩
  simp only [w2Data, hb]
  exact raise_status _ _ _ (by decide)

/-- Settles O32: registers, BAR4 and W2 in turn. -/
theorem registersAndApertures : Obligations.RegistersAndApertures := by
  unfold Obligations.RegistersAndApertures
  refine ⟨fun s w k v => ⟨exec_statusWrite, fun b => ⟨rfl, rfl⟩, fun o width => exec_registerWrite_ignored v,
    fun o ho hr => ⟨exec_w0Read_word ho hr, fun width hodd => ⟨_, exec_w0Read_ignored ho hr hodd⟩⟩⟩,
    fun s o v ho halign hmode hlink hready => ?bar4,
    fun s w a n hmode hlink hstage hsize hreach => ⟨fun hbad hgood => ?clean, fun k hk hbad => ⟨if_pos hbad, _,
      exec_w2Read hmode hlink hstage hsize hreach, w2Data_struck hk hbad⟩⟩⟩
  case bar4 =>
    have hs : Bar4Serves s := ⟨hmode, hlink, hready⟩
    refine ⟨fun htable => ⟨_, exec_bar4Write hs ho v, ?_⟩, fun hrest => ?_, exec_bar4Read hs ho halign⟩
    · rw [bar4Effect_table htable halign, msixWrite_msix]
      exact ⟨tget_tset_self .., fun _ hk => tget_tset_ne _ _ _ hk⟩
    · rw [exec_bar4Write hs ho, bar4Effect_readOnly hrest]
  case clean => rw [exec_w2Read hmode hlink hstage hsize hreach, w2Data_clean hbad hgood]

end Sys2Proof.Machine
end

section
/-! SUPPORT. An SPI frame by the verdict on it: served, a failed CRC, an unknown command (R33), and from them O33. -/

namespace Sys2Proof.Machine

/-- A whole frame that verifies and is in range is served. -/
theorem spiFrame_serves {cmd : Nat} {f : List Byte} {s : State} {r : SpiReq} (h : SpiArrives cmd f s r) {good : SpiReq → Bool}
    (hgood : good r = true) (body : SpiReq → State → State) : spiFrame cmd f good body s = body r s := by
  simp [spiFrame, h.command, h.serves, h.request, hgood]

/-- A frame whose CRC fails is answered with status 1. -/
theorem spiFrame_crcFails {cmd : Nat} {f : List Byte} {s : State} (hcmd : spiIs f cmd = true) (hserves : spiServes cmd s = true)
    (hcrc : spiRequest f = some none) (good : SpiReq → Bool) (body : SpiReq → State → State) :
    spiFrame cmd f good body s = spiAnswer 1 [] s := by
  simp [spiFrame, hcmd, hserves, hcrc]

theorem spiDomain_of_access {d : Nat} {s w : State} (h : accessDomain d s = some w) (info : Nat) (k : State → State) :
    spiDomain d info s k = k w := tryDomain_of_access h ..

section
variable {f : List Byte} {s w : State} {r : SpiReq}

theorem exec_spiRead (h : SpiArrives 1 f s r) (hmin : 4 ≤ r.len) (hmax : r.len ≤ 256) (hlen : r.len % 4 = 0) (hadd : r.addr % 4 = 0)
    (hend : r.addr + r.len ≤ 0x10000) (hcmd : u f 0 1 = 1) (hw : accessDomain (if touchesRings r.addr r.len then 1 else 0) s = some w) :
    exec (.w0Read (.spi f)) s =
      .next (spiAnswer 0 ((List.range (r.len / 4)).flatMap fun k => leBytes 4 (w0Read w (r.addr + 4 * k))) w) := by
  simp only [exec, execW0Read, spiRead]
  rw [if_neg (by omega), spiFrame_serves h (by simp [hmin, hmax, hlen, hadd, hend]), spiDomain_of_access hw]

/-- A command that Table 2-2 does not name is answered with status 2. -/
theorem exec_spiUnknown (hcmd : u f 0 1 = 0 ∨ 5 < u f 0 1) (hf : f ≠ []) (hserves : spiServes (u f 0 1) s = true)
    (hreq : spiRequest f = some (some r)) : exec (.w0Read (.spi f)) s = .next (spiAnswer 2 [] s) := by
  have hlen : 1 ≤ f.length := List.length_pos_iff.mpr hf
  simp only [exec, execW0Read, spiRead]
  rw [if_pos ⟨hlen, hcmd⟩, if_neg (by simp [hserves]), hreq]

theorem exec_spiWrite (h : SpiArrives 2 f s r) (hlen : r.len = 4) (hadd : r.addr % 4 = 0) (hend : r.addr < 0x10000)
    (hw : accessDomain (w0Domain r.addr) s = some w) :
    exec (.w0Write f) s = .next (spiAnswer 0 [] (w0Write r.addr 4 (leNat r.data) w)) := by
  simp only [exec, execW0Write]
  rw [spiFrame_serves h (by simp [hlen, hadd, hend]), spiDomain_of_access hw, hlen]

theorem exec_slotWrite (h : SpiArrives 3 f s r) (hslot : r.addr < 512) (hlen : r.len = 512) (hw : accessDomain 1 s = some w)
    (hloc : (ringOf w (r.addr / 64)).loc = true) : exec (.slotWrite f) s = .next (spiAnswer 0 [] (cleanWords 7 (64 * r.addr) 64
      { w with ph := { w.ph with slots := tsetList 0 w.ph.slots (r.addr * 512) r.data } })) := by
  simp only [exec, execSlotWrite]
  rw [spiFrame_serves h (by simp [hlen, hslot]), spiDomain_of_access hw, if_neg (by simp [hloc])]

theorem exec_slotRead (h : SpiArrives 4 f s r) (hlow : 512 ≤ r.addr) (hhigh : r.addr < 1024) (hlen : r.len = 512)
    (hw : accessDomain 1 s = some w) (hloc : (ringOf w (r.addr / 64)).loc = true) :
    exec (.slotRead f) s = .next (spiAnswer 0 (tgetList 0 w.ph.slots (r.addr * 512) 512) w) := by
  simp only [exec, execSlotRead]
  rw [spiFrame_serves h (by simp [hlen, hlow, hhigh]), spiDomain_of_access hw, if_neg (by simp [hloc])]
end

/-- Settles O33: the served frames of Table 2-2, then a failed CRC and an unknown command. -/
theorem spiFrames : Obligations.SpiFrames := by
  unfold Obligations.SpiFrames
  refine fun f s w r => ⟨exec_spiRead, exec_spiWrite, exec_slotWrite, exec_slotRead, fun cmd hcmd hframe hserves hcrc => ?crc, exec_spiUnknown⟩
  case crc =>
    rcases hcmd with rfl | rfl | rfl <;> exact congrArg Host.Outcome.next (spiFrame_crcFails hframe hserves hcrc ..)

end Sys2Proof.Machine
end

section
/-! SUPPORT. The epoch under the shared operations (R67): those that write the configuration, by cancelling a commit or calling what does, keep
LIVE_EPOCH; going live takes the next number. -/

namespace Sys2Proof.Machine

@[simp] theorem ite_config_epoch (c : Prop) [Decidable c] (a b : Config) : (if c then a else b).epoch = if c then a.epoch else b.epoch := by
  split <;> rfl

/-- A fold keeps the epoch where its function does. -/
theorem foldl_epoch {α : Type} {g : State → α → State} (h : ∀ t x, (g t x).cfg.epoch = t.cfg.epoch) (l : List α) (s : State) :
    (l.foldl g s).cfg.epoch = s.cfg.epoch := by
  induction l generalizing s with
  | nil => rfl
  | cons x l ih => rw [List.foldl_cons, ih, h]

/-! ### Cancelled commits and protective entries -/

@[simp] theorem cancelArmed_epoch (o : Nat) (s : State) : (cancelArmed o s).cfg.epoch = s.cfg.epoch := by
  unfold cancelArmed
  split <;> simp

@[simp] theorem protectEnds_epoch (cause : Nat) (s : State) : (protectEnds cause s).cfg.epoch = s.cfg.epoch := by
  simp [protectEnds]

@[simp] theorem protect_epoch (cause reg : Nat) (s : State) : (protect cause reg s).cfg.epoch = s.cfg.epoch := by
  simp [protect]

/-! ### Offset writes and temperature -/

@[simp] theorem thermalLatch_epoch (n : Nat) (v : Int) (s : State) : (thermalLatch n v s).cfg.epoch = s.cfg.epoch := by
  simp [thermalLatch]

@[simp] theorem writeOffset_epoch (o : Int) (s : State) : (writeOffset o s).cfg.epoch = s.cfg.epoch := by
  simp [writeOffset]

@[simp] theorem rateTrip_epoch (n w : Nat) (v : Int) (m : Mode) (s : State) : (rateTrip n w v m s).cfg.epoch = s.cfg.epoch := by
  simp [rateTrip]

@[simp] theorem judgeRate_epoch (n : Nat) (v : Int) (arm : Nat) (s : State) : (judgeRate n v arm s).cfg.epoch = s.cfg.epoch := by
  simp [judgeRate, foldl_epoch]

@[simp] theorem judge_epoch (n : Nat) (m : Reading) (s : State) : (judge n m s).cfg.epoch = s.cfg.epoch := by
  simp [judge]

/-! ### Transitions and wakes -/

@[simp] theorem startTrans_epoch (t : Mode) (cause source : Nat) (r : PwrReq) (s : State) :
    (startTrans t cause source r s).cfg.epoch = s.cfg.epoch := by
  simp [startTrans]

@[simp] theorem runQueue_epoch (s : State) : (runQueue s).cfg.epoch = s.cfg.epoch := by
  unfold runQueue
  split
  · dsimp only
    split
    · rfl
    · split <;> simp
  · rfl

@[simp] theorem failWake_epoch (t : Trans) (reason : Nat) (name : List Byte) (s : State) :
    (failWake t reason name s).cfg.epoch = s.cfg.epoch := by
  unfold failWake
  dsimp only
  split
  · simp
  · split <;> simp

@[simp] theorem refuseTrans_epoch (reason : Nat) (name : List Byte) (s : State) : (refuseTrans reason name s).cfg.epoch = s.cfg.epoch := by
  unfold refuseTrans
  split <;> simp

@[simp] theorem startWake_epoch (source : Nat) (retry : Bool) (s : State) : (startWake source retry s).cfg.epoch = s.cfg.epoch := by
  simp [startWake]

@[simp] theorem wakeBy_epoch (b : Nat) (s : State) : (wakeBy b s).cfg.epoch = s.cfg.epoch := by
  simp [wakeBy]

@[simp] theorem wakeOnce_epoch (b : Nat) (s : State) : (wakeOnce b s).cfg.epoch = s.cfg.epoch := by
  simp [wakeOnce]

@[simp] theorem continueWake_epoch (t : Trans) (s : State) : (continueWake t s).cfg.epoch = s.cfg.epoch := by
  simp only [continueWake]
  split
  · rfl
  · split
    · rfl
    · split <;> simp

@[simp] theorem finishTrans_epoch (t : Trans) (s : State) : (finishTrans t s).cfg.epoch = s.cfg.epoch := by
  simp [finishTrans]

/-! ### Time and oscillators -/

@[simp] theorem servoAct_epoch (e : Int) (s : State) : (servoAct e s).cfg.epoch = s.cfg.epoch := by
  simp [servoAct]

@[simp] theorem servoMeasure_epoch (e : Int) (s : State) : (servoMeasure e s).cfg.epoch = s.cfg.epoch := by
  simp [servoMeasure]

@[simp] theorem frcOnly_epoch (s : State) : (frcOnly s).cfg.epoch = s.cfg.epoch := by
  simp [frcOnly]

@[simp] theorem fallback_epoch (k cause : Nat) (offset : Int) (s : State) : (fallback k cause offset s).cfg.epoch = s.cfg.epoch := by
  simp [fallback]

@[simp] theorem tripOsc_epoch (osc cause : Nat) (offset : Int) (s : State) : (tripOsc osc cause offset s).cfg.epoch = s.cfg.epoch := by
  simp [tripOsc]

/-! ### Runs, restarts and registers -/

@[simp] theorem returnMode_epoch (s : State) : (returnMode s).cfg.epoch = s.cfg.epoch := by
  simp [returnMode]

@[simp] theorem calEnd_epoch (st detail : Nat) (s : State) : (calEnd st detail s).cfg.epoch = s.cfg.epoch := by
  simp [calEnd]

@[simp] theorem calLost_epoch (s : State) : (calLost s).cfg.epoch = s.cfg.epoch := by
  unfold calLost
  split <;> simp

@[simp] theorem loseCalJob_epoch (s : State) : (loseCalJob s).cfg.epoch = s.cfg.epoch := by
  unfold loseCalJob
  split <;> simp

@[simp] theorem dropWork_epoch (s : State) : (dropWork s).cfg.epoch = s.cfg.epoch := by
  simp [dropWork]

@[simp] theorem restartFirmware_epoch (s : State) : (restartFirmware s).cfg.epoch = s.cfg.epoch := by
  simp [restartFirmware]

@[simp] theorem leaveTest_epoch (s : State) : (leaveTest s).cfg.epoch = s.cfg.epoch := by
  unfold leaveTest
  split
  · rfl
  · split <;> simp

@[simp] theorem emergWrite_epoch (v : Nat) (s : State) : (emergWrite v s).cfg.epoch = s.cfg.epoch := by
  simp [emergWrite]

@[simp] theorem bar4Write_epoch (o width v : Nat) (s : State) : (bar4Write o width v s).cfg.epoch = s.cfg.epoch := by
  simp [bar4Write]

@[simp] theorem bar4Read_epoch (o width : Nat) (s : State) : (bar4Read o width s).cfg.epoch = s.cfg.epoch := by
  simp [bar4Read]

/-! ### Staging, arming and going live -/

@[simp] theorem stageWrite_epoch (sec off : Nat) (d : List Byte) (s : State) : (stageWrite sec off d s).cfg.epoch = s.cfg.epoch := rfl

@[simp] theorem armCommit_epoch (im : Image) (b : Boundary) (s : State) : (armCommit im b s).cfg.epoch = s.cfg.epoch := by
  simp [armCommit]

/-- Of the configuration a commit writes only what going live does. -/
theorem commitAt_cfg (im : Image) (b : Boundary) (s : State) : (commitAt im b s).cfg = (goLive im b s).cfg := by
  simp [commitAt, goLive]

@[simp] theorem commitAt_epoch (im : Image) (b : Boundary) (s : State) : (commitAt im b s).cfg.epoch = nextEpoch s.cfg.epoch := by
  rw [commitAt_cfg]; rfl

end Sys2Proof.Machine
end

section
/-! SUPPORT. How LIVE_EPOCH may move in one step (R67), and the operations of which it is not simply kept: domains, resets, registers
and replies (R44, R51, R420). -/

namespace Sys2Proof.Machine

/-- A number that LIVE_EPOCH may hold: 32 bits wide and not 0 (R67). -/
def LegalEpoch (e : Nat) : Prop := 1 ≤ e ∧ e ≤ 0xFFFFFFFF

/-- After the last 32-bit number comes 1, not 0. -/
theorem nextEpoch_legal {e : Nat} (h : LegalEpoch e) : LegalEpoch (nextEpoch e) := by
  obtain ⟨h1, h2⟩ := h
  unfold nextEpoch LegalEpoch
  split <;> omega

/-! ### Steps of the epoch -/

/-- What may follow epoch `e` in one step: the same, that of a reset, or the next. -/
def EpochStep (e e' : Nat) : Prop := e' = e ∨ e' = 1 ∨ e' = nextEpoch e

/-- A legal epoch is followed by a legal one. -/
theorem EpochStep.legal {e e' : Nat} (h : EpochStep e e') (he : LegalEpoch e) : LegalEpoch e' := by
  obtain rfl | rfl | rfl := h
  · exact he
  · exact ⟨le_rfl, by omega⟩
  · exact nextEpoch_legal he

@[simp] theorem epochStep_same (e : Nat) : EpochStep e e := .inl rfl
@[simp] theorem epochStep_one (e : Nat) : EpochStep e 1 := .inr (.inl rfl)
@[simp] theorem epochStep_next (e : Nat) : EpochStep e (nextEpoch e) := .inr (.inr rfl)
@[simp] theorem epochStep_ite (e : Nat) (c : Prop) [Decidable c] (a b : Nat) :
    EpochStep e (if c then a else b) ↔ (c → EpochStep e a) ∧ (¬c → EpochStep e b) := by
  split <;> simp [*]

/-- An outcome is a next state, whose epoch may follow that of `s`. -/
def EpochFrom (s : State) (o : Host.Outcome State Fault Refusal) : Prop := ∃ t, o = .next t ∧ EpochStep s.cfg.epoch t.cfg.epoch

@[simp] theorem epochFrom_next (s t : State) : EpochFrom s (.next t) ↔ EpochStep s.cfg.epoch t.cfg.epoch := by
  simp [EpochFrom]

@[simp] theorem epochFrom_ite (s : State) (c : Prop) [Decidable c] (a b : Host.Outcome State Fault Refusal) :
    EpochFrom s (if c then a else b) ↔ (c → EpochFrom s a) ∧ (¬c → EpochFrom s b) := by
  split <;> simp [*]

/-! ### Domains -/

theorem accessDomain_cfg {d : Nat} {s t : State} (h : accessDomain d s = some t) : t.cfg = s.cfg := by
  unfold accessDomain at h
  dsimp only at h
  split_ifs at h <;> (injection h with h; subst h; simp)

theorem tryDomain_epoch {d : Nat} {s : State} {k fail : State → State} (hk : ∀ t, (k t).cfg.epoch = t.cfg.epoch)
    (hf : (fail s).cfg.epoch = s.cfg.epoch) : (tryDomain d s k fail).cfg.epoch = s.cfg.epoch := by
  unfold tryDomain
  split
  next t ht => rw [hk, accessDomain_cfg ht]
  next => split <;> simp [hf]

theorem reachAll_cfg {ds : List Nat} {s t : State} (h : reachAll s ds = .inl t) : t.cfg = s.cfg := by
  induction ds generalizing s with
  | nil => simp_all [reachAll]
  | cons d ds ih =>
    unfold reachAll at h
    split at h
    next w hw => exact (ih h).trans (accessDomain_cfg hw)
    next => simp at h

/-! ### Resets -/

@[simp] theorem afterReset_epoch (cause : Nat) (s : State) : (afterReset cause s).cfg.epoch = 1 := rfl

@[simp] theorem deviceReset_epoch (cause : Nat) (s : State) : (deviceReset cause s).cfg.epoch = 1 := rfl

@[simp] theorem resetNow_epoch (cause : Nat) (s : State) : (resetNow cause s).cfg.epoch = 1 := by
  simp [resetNow]

@[simp] theorem powerOff_epoch (latch : Bool) (s : State) : (powerOff latch s).cfg.epoch = 1 := rfl

@[simp] theorem resetScope_epochStep (scope : Nat) (s : State) : EpochStep s.cfg.epoch (resetScope scope s).cfg.epoch := by
  unfold resetScope
  split <;> simp

@[simp] theorem lifecycle_epochStep (row : Nat) (blk : LcBlock) (s : State) : EpochStep s.cfg.epoch (lifecycle row blk s).cfg.epoch := by
  unfold lifecycle takeFree
  dsimp only
  split
  · simp
  · split
    · simp
    · split
      · simp
      · split <;> simp

/-! ### W0 and SPI -/

@[simp] theorem w0Effect_epoch (o v : Nat) (s : State) : (w0Effect o v s).cfg.epoch = s.cfg.epoch := by
  unfold w0Effect
  dsimp only
  split <;> simp

@[simp] theorem w0Write_epoch (o width v : Nat) (s : State) : (w0Write o width v s).cfg.epoch = s.cfg.epoch := by
  simp [w0Write]

@[simp] theorem hostWrite_epoch (o width v : Nat) (s : State) : (hostWrite o width v s).cfg.epoch = s.cfg.epoch := by
  unfold hostWrite
  split
  · rfl
  · simp [tryDomain_epoch]

@[simp] theorem hostRead_epoch (o width : Nat) (s : State) : (hostRead o width s).cfg.epoch = s.cfg.epoch := by
  unfold hostRead
  split
  · rfl
  · simp [tryDomain_epoch]

@[simp] theorem spiDomain_epoch {d info : Nat} {s : State} {k : State → State} (hk : ∀ t, (k t).cfg.epoch = t.cfg.epoch) :
    (spiDomain d info s k).cfg.epoch = s.cfg.epoch := tryDomain_epoch hk (by simp)

@[simp] theorem spiFrame_epoch {cmd : Nat} {f : List Byte} {good : SpiReq → Bool} {body : SpiReq → State → State} {s : State}
    (hbody : ∀ r, (body r s).cfg.epoch = s.cfg.epoch) : (spiFrame cmd f good body s).cfg.epoch = s.cfg.epoch := by
  unfold spiFrame
  split
  · rfl
  · split <;> simp [hbody]

@[simp] theorem spiRead_epoch (f : List Byte) (s : State) : (spiRead f s).cfg.epoch = s.cfg.epoch := by
  unfold spiRead
  dsimp only
  split
  · split
    · rfl
    · split <;> simp
  · simp

/-! ### Replies -/

/-- A reply leaves the epoch of `s` in its state; what the device does after answering is a step of the epoch. -/
def Reply.KeepsEpoch (s : State) (r : Reply) : Prop :=
  r.st.cfg.epoch = s.cfg.epoch ∧ ∀ t, EpochStep t.cfg.epoch (r.post t).cfg.epoch

section
variable {s t : State}

@[simp] theorem keepsEpoch_mk (code detail : Nat) (p : List Byte) (long : Option LongKind) (defer stall : Bool) (f : State → State) :
    Reply.KeepsEpoch s ⟨t, code, detail, p, long, defer, stall, f⟩ ↔
      t.cfg.epoch = s.cfg.epoch ∧ ∀ t, EpochStep t.cfg.epoch (f t).cfg.epoch := Iff.rfl
@[simp] theorem keepsEpoch_ok (p : List Byte) : (ok p t).KeepsEpoch s ↔ t.cfg.epoch = s.cfg.epoch := by simp [ok]
@[simp] theorem keepsEpoch_err (code detail : Nat) : (err code detail t).KeepsEpoch s ↔ t.cfg.epoch = s.cfg.epoch := by simp [err]
@[simp] theorem keepsEpoch_accepted (k : LongKind) : (accepted k t).KeepsEpoch s ↔ t.cfg.epoch = s.cfg.epoch := by simp [accepted]
@[simp] theorem keepsEpoch_deferred : (deferred t).KeepsEpoch s ↔ t.cfg.epoch = s.cfg.epoch := by simp [deferred]
@[simp] theorem keepsEpoch_stalled : (stalled t).KeepsEpoch s ↔ t.cfg.epoch = s.cfg.epoch := by simp [stalled]

@[simp] theorem keepsEpoch_ite (c : Prop) [Decidable c] (a b : Reply) :
    (if c then a else b).KeepsEpoch s ↔ (c → a.KeepsEpoch s) ∧ (¬c → b.KeepsEpoch s) := by
  split <;> simp [*]

@[simp] theorem keepsEpoch_withLength (ls : List Nat) (p : List Byte) (k : Reply) :
    (withLength ls p s k).KeepsEpoch s ↔ (p.length ∈ ls → k.KeepsEpoch s) := by
  simp [withLength]

@[simp] theorem keepsEpoch_withFields (cs : List (Nat × Bool)) (k : Reply) :
    (withFields cs s k).KeepsEpoch s ↔ (firstBad cs = none → k.KeepsEpoch s) := by
  unfold withFields
  split <;> simp [*]

@[simp] theorem onDomain_keepsEpoch {d : Nat} {a : Asker} {k : State → Reply} (hk : ∀ t, (k t).KeepsEpoch t) :
    (onDomain d a s k).KeepsEpoch s := by
  unfold onDomain
  split
  next t ht => exact ⟨(hk t).1.trans (congrArg Config.epoch (accessDomain_cfg ht)), (hk t).2⟩
  next => split <;> simp
end

/-- Whatever a reply says, its answer is a step of the epoch. -/
theorem settle_epochStep (a : Asker) {before back : State} {r : Reply} (hr : r.KeepsEpoch before) (hback : before.cfg = back.cfg) :
    EpochStep back.cfg.epoch (settle a before back r).cfg.epoch := by
  obtain ⟨hst, hpost⟩ := hr
  rw [hback] at hst
  unfold settle
  split
  · simp
  · split
    · simp [hst]
    · split
      · rw [← hst]
        simpa using hpost (sendResponse a (isError r.code) (response a r.code r.detail true r.payload)
          (remember a (response a r.code r.detail true r.payload) (isError r.code) r.st))
      · split <;> simp [hst, hback]

theorem execute_epochStep (a : Asker) (p : List Byte) (bad : Option Nat) {body : Asker → List Byte → State → Reply} {back s : State}
    (hbody : ∀ a p t, (body a p t).KeepsEpoch t) (hback : s.cfg = back.cfg) :
    EpochStep back.cfg.epoch (execute a p bad body back s).cfg.epoch := by
  unfold execute
  refine settle_epochStep _ ?_ hback
  cases bad with
  | none => simp [hbody]
  | some d => simp

theorem takeMsg_epochStep (n : Nat) (h : Hdr) (p : List Byte) (bad : Option Nat) {body : Asker → List Byte → State → Reply} (s : State)
    (hbody : ∀ a p t, (body a p t).KeepsEpoch t) : EpochStep s.cfg.epoch (takeMsg n h p bad body s).cfg.epoch := by
  unfold takeMsg
  dsimp only
  split
  · simp
  · split
    · simp
    · exact execute_epochStep _ _ _ hbody (by simp)

theorem runMessage_epochStep (op n : Nat) (dma : List Byte) {body : Asker → List Byte → State → Reply} (s : State)
    (hbody : ∀ a p t, (body a p t).KeepsEpoch t) : EpochStep s.cfg.epoch (runMessage op n dma body s).cfg.epoch := by
  unfold runMessage
  split
  · split
    next h p _ =>
      split
      · simpa using takeMsg_epochStep n h p (badOpcode n op) (meetFront n (32 + h.length) s) hbody
      · simp
    · simp
  · simp

end Sys2Proof.Machine
end

section
/-! SUPPORT. The epoch under the message bodies: one lemma for each body that branches on the state. -/

namespace Sys2Proof.Machine

variable (a : Asker) (p : List Byte) (s : State)

/-! ### Configuration -/

theorem stageSection_keepsEpoch (sec : Nat) : (stageSection sec p s).KeepsEpoch s := by
  simp only [stageSection, keepsEpoch_withLength]
  intro
  split <;> simp [stageReply]

theorem cfgStageBody_keepsEpoch : (cfgStageBody a p s).KeepsEpoch s := by
  simp only [cfgStageBody, keepsEpoch_withFields, keepsEpoch_ite, keepsEpoch_err, implies_true, true_and]
  intros
  split <;> simp [stageReply]

theorem cfgCommitBody_keepsEpoch : (cfgCommitBody a p s).KeepsEpoch s := by
  simp only [cfgCommitBody, keepsEpoch_withLength, keepsEpoch_withFields, keepsEpoch_ite, keepsEpoch_err, implies_true, true_and]
  intros
  split <;> simp [commitRejected]

theorem cfgDiscardBody_keepsEpoch : (cfgDiscardBody a p s).KeepsEpoch s := by
  simp only [cfgDiscardBody, keepsEpoch_withLength, keepsEpoch_withFields]
  intros
  split <;> simp

theorem cfgReadBody_keepsEpoch : (cfgReadBody a p s).KeepsEpoch s := by
  simp only [cfgReadBody, keepsEpoch_withLength, keepsEpoch_withFields]
  intros
  split <;> simp

/-! ### Requests to the power manager -/

@[simp] theorem pwrDone_keepsEpoch {s t : State} (d : Nat) : (pwrDone d t).KeepsEpoch s ↔ t.cfg.epoch = s.cfg.epoch := by
  simp [pwrDone]

@[simp] theorem pwrRefused_keepsEpoch (reason : Nat) (name : List Byte) (m : Mode) : (pwrRefused reason name m s).KeepsEpoch s := by
  simp [pwrRefused]

theorem pwrTarget_keepsEpoch (r : PwrReq) : (pwrTarget r s).KeepsEpoch s := by
  unfold pwrTarget
  split
  · simp only [keepsEpoch_ite]
    refine ⟨by simp, fun _ => ⟨by simp, fun _ => ?_⟩⟩
    split <;> simp
  · simp only [keepsEpoch_ite]
    refine ⟨by simp, fun _ => ?_⟩
    split <;> simp

theorem pwrRequestBody_keepsEpoch : (pwrRequestBody a p s).KeepsEpoch s := by
  have hacts : (pwrActions (u p 1 1) s).cfg = s.cfg := by simp
  have h := pwrTarget_keepsEpoch (pwrActions (u p 1 1) s) (pwrParse p)
  rw [Reply.KeepsEpoch, hacts] at h
  simp only [pwrRequestBody, keepsEpoch_withLength, keepsEpoch_withFields, keepsEpoch_ite, pwrDone_keepsEpoch, hacts, implies_true,
    true_and]
  exact fun _ _ _ => h

theorem calRunBody_keepsEpoch : (calRunBody a p s).KeepsEpoch s := by
  simp only [calRunBody, keepsEpoch_withLength, keepsEpoch_withFields, keepsEpoch_ite, keepsEpoch_err, implies_true, true_and]
  refine fun _ _ _ _ _ => ⟨by simp, fun _ => ?_⟩
  split <;> simp

theorem testRunBody_keepsEpoch : (testRunBody a p s).KeepsEpoch s := by
  simp only [testRunBody, keepsEpoch_withFields, keepsEpoch_ite, keepsEpoch_err, implies_true, true_and]
  refine fun _ _ => ⟨by simp, fun _ _ _ => ⟨by simp [accepted], fun _ => ⟨by simp, fun _ => ?_⟩⟩⟩
  split <;> simp

/-! ### Bias -/

theorem biasSetBody_keepsEpoch : (biasSetBody a p s).KeepsEpoch s := by
  simp [biasSetBody, biasRecords]

theorem biasSpanBody_keepsEpoch : (biasSpanBody a p s).KeepsEpoch s := by
  simp [biasSpanBody, biasRecords]

theorem biasReleaseBody_keepsEpoch (hvP hvN : Nat) : (biasReleaseBody hvP hvN a p s).KeepsEpoch s := by
  simp only [biasReleaseBody, keepsEpoch_withLength, keepsEpoch_withFields, keepsEpoch_ite, keepsEpoch_err, implies_true, true_and]
  refine fun _ _ _ => onDomain_keepsEpoch fun t => ?_
  split <;> simp

/-! ### Records, tables and measurements -/

theorem catalogueWriteBody_keepsEpoch : (catalogueWriteBody a p s).KeepsEpoch s := by
  simp only [catalogueWriteBody, keepsEpoch_withFields, keepsEpoch_ite, keepsEpoch_err, implies_true, true_and]
  intros
  split <;> simp

theorem thermalReadBody_keepsEpoch (readings : List (Nat × Reading)) : (thermalReadBody readings a p s).KeepsEpoch s := by
  simp only [thermalReadBody, keepsEpoch_withLength, keepsEpoch_ok]
  intro
  rw [foldl_epoch]
  · simp
  · intros
    split <;> simp

theorem clkMeasureBody_keepsEpoch : (clkMeasureBody a p s).KeepsEpoch s := by
  simp only [clkMeasureBody, takeFree, keepsEpoch_withLength, keepsEpoch_withFields]
  intros
  split <;> simp

theorem bankWriteBody_keepsEpoch : (bankWriteBody a p s).KeepsEpoch s := by
  simp only [bankWriteBody, keepsEpoch_withFields, keepsEpoch_ite, keepsEpoch_err, implies_true, true_and]
  intros
  split
  · simp
  · split <;> simp

theorem adaptControlBody_keepsEpoch : (adaptControlBody a p s).KeepsEpoch s := by
  simp only [adaptControlBody, keepsEpoch_withLength, keepsEpoch_withFields, keepsEpoch_ite, keepsEpoch_err, implies_true, true_and]
  refine fun _ _ _ => ⟨fun _ => ?_, by simp⟩
  split <;> simp

theorem capturePlanBody_keepsEpoch : (capturePlanBody a p s).KeepsEpoch s := by
  simp only [capturePlanBody, keepsEpoch_withFields, keepsEpoch_ite, keepsEpoch_err, implies_true, true_and]
  intros
  split <;> simp

theorem nvmReadBody_keepsEpoch : (nvmReadBody a p s).KeepsEpoch s := by
  simp only [nvmReadBody, keepsEpoch_withLength, keepsEpoch_withFields]
  refine fun _ _ => onDomain_keepsEpoch fun t => ?_
  split
  · split <;> simp
  · simp

theorem hkReadBody_keepsEpoch (code : Nat) : (hkReadBody code a p s).KeepsEpoch s := by
  simp [hkReadBody, urgent]

@[simp] theorem digestWords_cfg : (digestWords s).2.cfg = s.cfg := by
  simp [digestWords, apply_ite]

theorem rockerSetBody_keepsEpoch : (rockerSetBody a p s).KeepsEpoch s := by
  simp [rockerSetBody, rockerReport]

end Sys2Proof.Machine
end

section
/-! SUPPORT. Every row is a step of the epoch: the rows that look into the state first, then all rows, and from them O5 and O6 (R67). -/

namespace Sys2Proof.Machine

section
variable (s : State)

theorem searchOn_epoch {osc : Nat} {s t : State} (h : searchOn osc s = some t) : t.cfg.epoch = s.cfg.epoch := by
  unfold searchOn at h
  split_ifs at h <;> (injection h with h; subst h; simp)

theorem takeSlot_cfg {c n : Nat} {s t : State} (h : takeSlot c s = some (n, t)) : t.cfg = s.cfg := by
  unfold takeSlot at h
  dsimp only at h
  split at h
  · simp_all
  · split at h <;> simp at h
    simp [← h.2]

theorem persistEnd_cfg {id st : Nat} {e : LongEnd} {s t : State} (h : persistEnd id e s = some (st, t)) : t.cfg = s.cfg := by
  unfold persistEnd at h
  dsimp only at h
  split at h
  · simp at h
    simp [← h.2]
  · split at h
    · simp at h
    · split at h <;> (simp at h; simp [← h.2])

theorem execBadOpcode_epochFrom (ring : Nat) (dma : List Byte) : EpochFrom s (execBadOpcode ring dma s) := by
  unfold execBadOpcode
  split
  · split
    next h p _ =>
      split
      next detail _ =>
        simpa using takeMsg_epochStep ring h p (some detail) (body := fun _ _ t => ok [] t) (meetFront ring (32 + h.length) s) (by simp)
      next => simp
    next => simp
  · simp

theorem execFramingLost_epochFrom (ring : Nat) (dma : List Byte) : EpochFrom s (execFramingLost ring dma s) := by
  unfold execFramingLost
  split
  · split <;> simp
  · simp

theorem execW2Read_epochFrom (src : W2Source) : EpochFrom s (execW2Read src s) := by
  unfold execW2Read
  split
  · simp
  · simp only [epochFrom_ite, epochFrom_next, epochStep_same, implies_true, true_and]
    intro
    split
    next t ht => simp [reachAll_cfg ht]
    next => simp
  · rw [epochFrom_next, spiFrame_epoch]
    · simp
    · intro r
      split
      next t ht => simp [reachAll_cfg ht]
      next => simp

theorem execPadRelease_epochFrom (src : PadSource) : EpochFrom s (execPadRelease src s) := by
  unfold execPadRelease
  split
  · exact (epochFrom_next ..).mpr (runMessage_epochStep _ _ _ _ fun a p t => by simp [padReleaseBody])
  · simp

theorem execThermalRead_epochFrom (ring : Nat) (dma : List Byte) (readings : List (Nat × Reading)) :
    EpochFrom s (execThermalRead ring dma readings s) := by
  have h := runMessage_epochStep 0x0E02 ring dma s fun a p t => thermalReadBody_keepsEpoch a p t readings
  simp [execThermalRead, h]

theorem execDomainReady_epochFrom (domain : Nat) : EpochFrom s (execDomainReady domain s) := by
  simp only [execDomainReady, epochFrom_ite, epochFrom_next, epochStep_same, implies_true, and_true]
  intro
  split
  next t ht => simp [accessDomain_cfg ht]
  next => simp

theorem execWakeStallTimeout_epochFrom (domain : Nat) (req : StallReq) : EpochFrom s (execWakeStallTimeout domain req s) := by
  simp only [execWakeStallTimeout, epochFrom_ite, epochFrom_next, epochStep_same, implies_true, and_true]
  intro
  split
  · simp
  · simp
  · rw [epochFrom_next]
    split
    · exact runMessage_epochStep _ _ _ _ fun a p t => by simp
    · simp
  · simp
  · simp

theorem execOscQualifyTimeout_epochFrom (osc : Nat) : EpochFrom s (execOscQualifyTimeout osc s) := by
  simp only [execOscQualifyTimeout, epochFrom_ite]
  refine ⟨fun _ => ?_, by simp⟩
  split
  next t ht => simp [searchOn_epoch ht]
  next => simp

theorem execHkConversionComplete_epochFrom (c code rck : Nat) : EpochFrom s (execHkConversionComplete c code rck s) := by
  simp only [execHkConversionComplete, epochFrom_ite]
  refine ⟨fun _ => ?_, by simp⟩
  split
  · simp
  · split
    · simp
    next n t ht => simp [takeSlot_cfg ht]

theorem execNvmWriteStep_epochFrom : EpochFrom s (execNvmWriteStep s) := by
  simp only [execNvmWriteStep, epochFrom_ite]
  refine ⟨by simp, fun _ => ?_⟩
  split
  · simp
  next t ht => simp [accessDomain_cfg ht]

theorem execCataloguePersistComplete_epochFrom (e : LongEnd) : EpochFrom s (execCataloguePersistComplete e s) := by
  simp only [execCataloguePersistComplete, epochFrom_ite]
  refine ⟨by simp, fun _ => ?_⟩
  split
  · simp
  next st t ht => simp [persistEnd_cfg ht]

theorem execBankPersistComplete_epochFrom (e : LongEnd) : EpochFrom s (execBankPersistComplete e s) := by
  simp only [execBankPersistComplete, epochFrom_ite]
  refine ⟨by simp, fun _ => ?_⟩
  split
  · simp
  next st t ht => simp [persistEnd_cfg ht]

end

/-! ### All rows -/

/-- A message row is a step of the epoch where the reply of its body keeps it. -/
theorem message_epochFrom {op n : Nat} {dma : List Byte} {body : Asker → List Byte → State → Reply} {s : State}
    (hbody : ∀ a p t, (body a p t).KeepsEpoch t) : EpochFrom s (.next (runMessage op n dma body s)) :=
  (epochFrom_next ..).mpr (runMessage_epochStep _ _ _ _ hbody)

theorem issue_epochFrom (core : Nat) (rep : Bool) (op : TOp) (s : State) : EpochFrom s (.next (issue core rep op s)) := by
  simp

/-- The rows of one shape stand together: the equations of the shared operations say what becomes of the epoch in each. -/
theorem exec_epochFrom (c : Instr) (s : State) : EpochFrom s (exec c s) := by
  cases c with
  -- messages
  | sysHello | sysInfo | sysReset | sysFwImage | eventConfig | eventDrain | beamCataloguePersist | dpdBankPersist | calStatus
  | pwrStatus | pwrRefusals | timeServo | timeSetOffset | timeStatus | clkSources | hkConfigure | hkWindow | testStatus
  | nvmWriteRecord | nvmStatus | trestleKernelLoad | trestleKernelStart | trestleStatus | linkStatus | linkCounters | logRead
  | leaseStatus | thermalConfigure =>
    exact message_epochFrom fun a p t => by simp [
      bankPersistBody, cataloguePersistBody, clkSourcesBody, eventConfigBody, eventDrainBody, fwImageBody, hkConfigureBody,
      hkWindowBody, kernelLoadBody, kernelStartBody, leaseStatusBody, linkCountersBody, linkStatusBody, logReadBody, nvmStatusBody,
      nvmWriteBody, pwrRefusalsBody, pwrStatusBody, sysHelloBody, sysInfoBody, sysResetBody, testStatusBody, thermalConfigureBody,
      timeServoBody, timeSetOffsetBody, timeStatusBody, trestleStatusBody]
  | beamElementMap | dpdConfigure | cfrConfigure | linkConfigure => exact message_epochFrom fun _ p t => stageSection_keepsEpoch p t _
  | cfgStage => exact message_epochFrom cfgStageBody_keepsEpoch
  | cfgCommit => exact message_epochFrom cfgCommitBody_keepsEpoch
  | cfgDiscard => exact message_epochFrom cfgDiscardBody_keepsEpoch
  | cfgRead => exact message_epochFrom cfgReadBody_keepsEpoch
  | beamCatalogueWrite => exact message_epochFrom catalogueWriteBody_keepsEpoch
  | dpdBankWrite => exact message_epochFrom bankWriteBody_keepsEpoch
  | dpdAdaptControl => exact message_epochFrom adaptControlBody_keepsEpoch
  | capturePlan => exact message_epochFrom capturePlanBody_keepsEpoch
  | calRun => exact message_epochFrom calRunBody_keepsEpoch
  | pwrRequest => exact message_epochFrom pwrRequestBody_keepsEpoch
  | clkMeasure => exact message_epochFrom clkMeasureBody_keepsEpoch
  | biasSet => exact message_epochFrom biasSetBody_keepsEpoch
  | biasSpan => exact message_epochFrom biasSpanBody_keepsEpoch
  | biasRelease => exact message_epochFrom fun a p t => biasReleaseBody_keepsEpoch a p t _ _
  | hkRead => exact message_epochFrom fun a p t => hkReadBody_keepsEpoch a p t _
  | testRun => exact message_epochFrom testRunBody_keepsEpoch
  | rockerSet => exact message_epochFrom rockerSetBody_keepsEpoch
  | nvmRead => exact message_epochFrom nvmReadBody_keepsEpoch
  -- rows with a lemma of their own
  | badOpcode => exact execBadOpcode_epochFrom ..
  | framingLost => exact execFramingLost_epochFrom ..
  | cataloguePersistComplete => exact execCataloguePersistComplete_epochFrom ..
  | bankPersistComplete => exact execBankPersistComplete_epochFrom ..
  | padRelease => exact execPadRelease_epochFrom ..
  | hkConversionComplete => exact execHkConversionComplete_epochFrom ..
  | nvmWriteStep => exact execNvmWriteStep_epochFrom ..
  | thermalRead => exact execThermalRead_epochFrom ..
  | w2Read => exact execW2Read_epochFrom ..
  | oscQualifyTimeout => exact execOscQualifyTimeout_epochFrom ..
  | domainReady => exact execDomainReady_epochFrom ..
  | wakeStallTimeout => exact execWakeStallTimeout_epochFrom ..
  -- rows that occur or do not, by one look at the state
  | commitArmed | commitArmTimeout | commitBoundary | cabinetWriteComplete | cabinetBoundary | bankCommit | dpdClassSwitch
  | captureComplete | hkSlotQueued | testComplete | muteEnd | w0Read | dlSymbolRelease | dlPlayout | ulExport | prachExport
  | prachOccasion | agcStep | weightClaim | serviceStart | serviceEnd | rffeProgram | modeEntered | quiesceTimeout | wakeRetry
  | thermalResult =>
    simp only [exec,
      execCommitArmed, execCommitArmTimeout, execCommitBoundary, execCabinetWriteComplete, execCabinetBoundary, execBankCommit,
      execDpdClassSwitch, execCaptureComplete, execHkSlotQueued, execTestComplete, execMuteEnd, execW0Read, execDlSymbolRelease,
      execDlPlayout, execUlExport, execPrachExport, execPrachOccasion, execAgcStep, execWeightClaim, execServiceStart, execServiceEnd,
      execRffeProgram, execModeEntered, execQuiesceTimeout, execWakeRetry, execThermalResult]
    split <;> simp
  -- rows with more looks at it
  | fwImageComplete | sysReady | captureOccurrence | calComplete | end_ | sectionParse | sectionUsable | tddEvent | loQualifyTimeout
  | pllUnlock | refMonitorTrip | ppsInEdge | ppsOut | pllQualified =>
    simp only [exec,
      execFwImageComplete, execSysReady, execCaptureOccurrence, execCalComplete, execEnd, execSectionParse, execSectionUsable,
      execTddEvent, execLoQualifyTimeout, execPllUnlock, execRefMonitorTrip, execPpsInEdge, execPpsOut, execPllQualified]
    (repeat' split) <;> simp [takeFree]
  -- instructions of a Trestle core
  | ld | st | ldq | stq | mov | movi | movhi | add | sub | and | or | xor | not | lsl | lsr | asr | cmp | min | max | cadd | csub
  | cneg | conj | cshr | swaph | unpko | cmul4 | cmac4 | cmsu4 | cmacj4 | cmac4l | clra | aadd | ashr | ashl | mova | str | exp
  | norm | expc | expa | bexp | bexpq | beclr | br | bcc | call | ret | rpt | nop | setf | clrovf | blk | dma => exact issue_epochFrom ..
  -- bias, housekeeping, cores and linearisation
  | biasSlewUpdate | biasParked | paClearN | paClearNRelease | hkTrigger | hkPowerDown | quantumEnd | cycleBudgetExhausted
  | adaptationSolution =>
    simp [exec,
      execBiasSlewUpdate, execBiasParked, execPaClearN, execPaClearNRelease, execHkTrigger, execHkPowerDown, execQuantumEnd,
      execCycleBudgetExhausted, execAdaptationSolution]
  -- registers, SPI and PCIe
  | phDoorbell | phHead | ringDisable | ringDisabled | ringEnable | phDmaErr | pcieLinkDown | pcieLinkUp | muteAll | parkAll
  | safeHoldReq | timeCapture | thDemand | rockerRegisterWrite | registerWrite | w0Write | slotWrite | slotRead =>
    simp [exec,
      execPhDoorbell, execPhHead, execRingDisable, execRingDisabled, execRingEnable, execPhDmaErr, execPcieLinkDown, execPcieLinkUp,
      execMuteAll, execParkAll, execSafeHoldReq, execTimeCapture, execThDemand, execRockerRegisterWrite, execRegisterWrite,
      execW0Write, execSlotWrite, execSlotRead]
  -- ports and gain
  | frameReceived | type5ResponseTimeout | linkDown | linkUp | protectionStep | protectionReturn =>
    simp [exec,
      execFrameReceived, execType5ResponseTimeout, execLinkDown, execLinkUp, execProtectionStep, execProtectionReturn]
  -- clocks and time
  | clkMeasureDone | loQualified | loUnlock | loRelockTimeout | oscQualified | oscRetry | frcMonitorTrip | xtalARevert
  | compensationUpdate | esmcTimeout | synceRequalify | synceMonitorTrip | monitorWindowEnd | pllQualifyTimeout | ptpSyncExchange
  | ptpMasterChange | ppsEdgeTimeout | holdoverTimeout =>
    simp [exec,
      execClkMeasureDone, execLoQualified, execLoUnlock, execLoRelockTimeout, execOscQualified, execOscRetry, execFrcMonitorTrip,
      execXtalARevert, execCompensationUpdate, execEsmcTimeout, execSynceRequalify, execSynceMonitorTrip, execMonitorWindowEnd,
      execPllQualifyTimeout, execPtpSyncExchange, execPtpMasterChange, execPpsEdgeTimeout, execHoldoverTimeout]
  -- power and temperature
  | pgGood | pgTimeout | pgLoss | wakeSenseTrip | wakeSenseRearm | rxEnergyWake | wakeTimer | pcieWake | domainIdleOff
  | thermalScheduledDemand =>
    simp [exec,
      execPgGood, execPgTimeout, execPgLoss, execWakeSenseTrip, execWakeSenseRearm, execRxEnergyWake, execWakeTimer, execPcieWake,
      execDomainIdleOff, execThermalScheduledDemand]
  -- leases, digests, resets, boot and lifecycle
  | leaseExpiry | leaseRelease | watchdogExpiry | scrub | digestStart | digestComplete | powerOnReset | resetN | resetNRelease
  | pg0Retry | bootRom | powerCycle | vddAoDip | advance | provision | deploy | return_ | scrap | debugOff =>
    simp [exec,
      execLeaseExpiry, execLeaseRelease, execWatchdogExpiry, execScrub, execDigestStart, execDigestComplete, execPowerOnReset,
      execResetN, execResetNRelease, execPg0Retry, execBootRom, execPowerCycle, execVddAoDip, execAdvance, execProvision, execDeploy,
      execReturn, execScrap, execDebugOff]

/-- The epoch after a step is the one before it, that of a reset, or the next number. -/
theorem step_epochStep {s t : State} (h : Steps s t) : EpochStep s.cfg.epoch t.cfg.epoch := by
  unfold Steps step at h
  split at h
  · injection h with h
    simp [← h]
  next c cs _ =>
    obtain ⟨w, hw, hstep⟩ := exec_epochFrom c { s with pending := cs }
    obtain rfl : w = t := by simpa [hw] using h
    exact hstep

/-! ### The reset image and the boundary -/

/-- The reset image enables no carrier: byte 0 of each carrier record is 0 (Tables 6-1 and 7-1). -/
theorem ccEnabled_reset (ul : Bool) (c : Nat) : ccEnabled [] ul c = false := by
  unfold ccEnabled
  rw [Bool.and_eq_false_iff]
  by_cases hc : c < 4
  · have hzero : ∀ ul, ∀ c < 4, cf [] (ccSec ul) (64 * c) 1 ≠ 1 := by decide
    exact .inr (decide_eq_false (hzero ul c hc))
  · exact .inl (decide_eq_false hc)

theorem exec_commitBoundary {s : State} {im : Image} {b : Boundary} (h : s.cfg.armed = some (im, b)) :
    exec .commitBoundary s = .next (commitAt im b (advanceTo (boundaryU b) s)) := by
  simp only [exec, execCommitBoundary, h]

/-- The configuration that the boundary leaves. -/
theorem commitBoundary_cfg (im : Image) (b : Boundary) (s : State) : (commitAt im b (advanceTo (boundaryU b) s)).cfg = { s.cfg with
    live := im, armed := none, prev := some (s.cfg.live, b), epoch := nextEpoch s.cfg.epoch, outcome := 1, lastCheck := 0 } := by
  simp [commitAt_cfg, goLive]

/-- Settles O5: the reset image, the boundary, and the steps that an epoch can take. -/
theorem liveEpochStaysLegal : Obligations.LiveEpochStaysLegal := by
  unfold Obligations.LiveEpochStaysLegal
  refine ⟨⟨fun _ _ => rfl, ccEnabled_reset, fun _ => rfl, rfl, rfl⟩, fun s im b harmed => ⟨_, exec_commitBoundary harmed, ?_⟩,
    fun s t hlow hhigh h => (step_epochStep h).legal ⟨hlow, hhigh⟩⟩
  rw [commitBoundary_cfg]
  exact ⟨rfl, rfl⟩

/-- Settles O6: LIVE_EPOCH is 1 after reset. -/
theorem resetEpochLegal : Obligations.ResetEpochLegal := by
  unfold Obligations.ResetEpochLegal
  exact ⟨by decide, by decide⟩

end Sys2Proof.Machine
end

section
/-! SUPPORT. What staging, discarding and reading do to the staged image and the stage count (R68 to R70, R78, R79), and from them O48. -/

namespace Sys2Proof.Machine

/-- Cancelling an armed commit in the configuration: the staged image is the live one again, the stage count 0 (R78). -/
theorem cancelArmed_cfg {s : State} {e : Image × Boundary} (h : s.cfg.armed = some e) (outcome : Nat) : (cancelArmed outcome s).cfg =
    { s.cfg with armed := none, staged := s.cfg.live, count := 0, outcome := outcome, lastCheck := 0 } := by
  simp [cancelArmed, h]

section
variable {op ring : Nat} {dma : List Byte} {s : State} {h : Hdr} {p : List Byte}

/-! ### Staging -/

theorem exec_cfgStage (d : Delivered 0x0201 ring dma s h p) (hlen : p.length = 12 + u p 8 4) (hsec : sectionSize (u p 0 2) ≠ 0)
    (hzero : slice p 2 2 = zeros 2) (hoff : u p 4 4 < sectionSize (u p 0 2)) (hend : u p 4 4 + u p 8 4 ≤ sectionSize (u p 0 2))
    (hmax : u p 8 4 ≤ 16340) (hverdict : stageVerdict (u p 0 2) (u p 4 4) (p.drop 12) s.cfg.staged = none) :
    exec (.cfgStage ring dma) s = .next (answered (askerOf ring h s) (leBytes 4 ((s.cfg.count + 1) % 2 ^ 32))
      { consumed ring h s with cfg := { s.cfg with
        staged := if u p 8 4 = 0 then s.cfg.staged else imgWrite s.cfg.staged (u p 0 2) (u p 4 4) (p.drop 12),
        count := (s.cfg.count + 1) % 2 ^ 32 } }) := by
  have hgood : ∀ c ∈ [(0, decide (sectionSize (u p 0 2) ≠ 0)), isZero p 2 2,
      (4, decide (u p 4 4 < sectionSize (u p 0 2)) && decide (u p 4 4 + u p 8 4 ≤ sectionSize (u p 0 2))), inRange p 8 4 0 16340],
      c.2 = true := by
    simp [inRange, hsec, hoff, hend, hmax, isZero_of_slice hzero]
  have hempty : p.drop 12 = [] ↔ u p 8 4 = 0 := by
    rw [List.drop_eq_nil_iff]
    omega
  simp only [exec, execCfgStage, runMessage_delivered _ d, cfgStageBody, if_neg (show ¬(p.length < 12 ∨ p.length ≠ 12 + u p 8 4) by omega),
    withFields_of_good hgood, consumed_cfg, hverdict, stageReply, stageWrite, hempty, settle_ok]

/-- A subject message stages its whole section (R69). -/
theorem stageSection_accepts {sec : Nat} (hlen : p.length = sectionSize sec) (hne : p ≠ [])
    (hverdict : stageVerdict sec 0 p s.cfg.staged = none) :
    stageSection sec p s = ok (leBytes 4 ((s.cfg.count + 1) % 2 ^ 32)) { s with cfg := { s.cfg with
      staged := imgWrite s.cfg.staged sec 0 p, count := (s.cfg.count + 1) % 2 ^ 32 } } := by
  simp only [stageSection, withLength_of_mem (show p.length ∈ [sectionSize sec] by simp [hlen]), hverdict, stageReply, stageWrite, if_neg hne]

/-- The message of such a subject runs so wherever it is delivered. -/
theorem stageMessage_runs {sec : Nat} (d : Delivered op ring dma s h p) (hlen : p.length = sectionSize sec) (hsec : sectionSize sec ≠ 0)
    (hverdict : stageVerdict sec 0 p s.cfg.staged = none) :
    runMessage op ring dma (fun _ p s => stageSection sec p s) s = answered (askerOf ring h s) (leBytes 4 ((s.cfg.count + 1) % 2 ^ 32))
      { consumed ring h s with cfg := { s.cfg with
        staged := imgWrite s.cfg.staged sec 0 p, count := (s.cfg.count + 1) % 2 ^ 32 } } := by
  have hne : p ≠ [] := by
    rintro rfl
    exact hsec hlen.symm
  rw [runMessage_delivered _ d, stageSection_accepts hlen hne (by rwa [consumed_cfg]), settle_ok, consumed_cfg]

/-! ### Discarding -/

theorem discard_fields_good (hscope : u p 0 1 ≤ 1) (hzero : slice p 1 3 = zeros 3) : ∀ c ∈ [inRange p 0 1 0 1, isZero p 1 3], c.2 = true := by
  simp [inRange, hscope, isZero_of_slice hzero]

theorem exec_cfgDiscard_live (d : Delivered 0x0203 ring dma s h p) (hlen : p.length = 4) (hscope : u p 0 1 ≤ 1)
    (hzero : slice p 1 3 = zeros 3) (harmed : s.cfg.armed = none) : exec (.cfgDiscard ring dma) s =
      .next (answered (askerOf ring h s) [] { consumed ring h s with cfg := { s.cfg with staged := s.cfg.live, count := 0 } }) := by
  simp only [exec, execCfgDiscard, runMessage_delivered _ d, cfgDiscardBody, withLength_of_mem (show p.length ∈ [4] by simp [hlen]),
    withFields_of_good (discard_fields_good hscope hzero), consumed_cfg, harmed, settle_ok]

theorem exec_cfgDiscard_armed (d : Delivered 0x0203 ring dma s h p) (hlen : p.length = 4) (hscope : u p 0 1 = 0)
    (hzero : slice p 1 3 = zeros 3) {im : Image} {b : Boundary} (harmed : s.cfg.armed = some (im, b)) : exec (.cfgDiscard ring dma) s =
      .next (answered (askerOf ring h s) [] { consumed ring h s with cfg := { s.cfg with staged := im, count := 0 } }) := by
  simp only [exec, execCfgDiscard, runMessage_delivered _ d, cfgDiscardBody, withLength_of_mem (show p.length ∈ [4] by simp [hlen]),
    withFields_of_good (discard_fields_good (by omega) hzero), consumed_cfg, harmed, hscope, if_true, settle_ok]

theorem exec_cfgDiscard_cancels (d : Delivered 0x0203 ring dma s h p) (hlen : p.length = 4) (hscope : u p 0 1 = 1)
    (hzero : slice p 1 3 = zeros 3) {im : Image} {b : Boundary} (harmed : s.cfg.armed = some (im, b))
    (htime : nowU s + (msU : Int) ≤ boundaryU b) :
    exec (.cfgDiscard ring dma) s = .next (answered (askerOf ring h s) [] (cancelArmed 4 (consumed ring h s))) := by
  have hnow : ¬boundaryU b < nowU (consumed ring h s) + (msU : Int) := by simpa [nowU] using htime
  simp only [exec, execCfgDiscard, runMessage_delivered _ d, cfgDiscardBody, withLength_of_mem (show p.length ∈ [4] by simp [hlen]),
    withFields_of_good (discard_fields_good (by omega) hzero), consumed_cfg, harmed, hscope, one_ne_zero, if_false, if_neg hnow, settle_ok]

end

/-! ### Reading -/

/-- The 36 bytes of report that a read answers before the bytes asked for (Table 3-7). -/
def readReport (p : List Byte) (s : State) : List Byte :=
  let b : Boundary := (s.cfg.armed.map Prod.snd).getD ⟨0, 0⟩
  leBytes 4 s.cfg.epoch ++ leBytes 4 s.cfg.count ++ leBytes 8 b.frame ++ leBytes 1 b.quarter ++ leBytes 1 (b2n s.cfg.armed.isSome) ++
    leBytes 1 s.cfg.outcome ++ [0] ++ leBytes 2 (if s.cfg.outcome = 2 then s.cfg.lastCheck else 0) ++ [0, 0] ++ leBytes 1 (u p 0 1) ++ [0] ++
    leBytes 2 (u p 2 2) ++ leBytes 4 (u p 4 4) ++ leBytes 4 (u p 8 4)

theorem readReport_length (p : List Byte) (s : State) : (readReport p s).length = 36 := by
  simp [readReport, leBytes]

theorem readReport_take (p : List Byte) (s : State) : (readReport p s).take 8 = leBytes 4 s.cfg.epoch ++ leBytes 4 s.cfg.count := by
  simp [readReport, leBytes]

/-- Selector `n` of a read names the live, the staged or the armed image (R79). -/
def ReadSelects (n : Nat) (im : Image) (s : State) : Prop :=
  (n = 0 ∧ im = s.cfg.live) ∨ (n = 1 ∧ im = s.cfg.staged) ∨ (n = 2 ∧ ∃ b, s.cfg.armed = some (im, b))

theorem cfgReadBody_reads (a : Asker) {p : List Byte} {s : State} {im : Image} (hlen : p.length = 12) (hzero : slice p 1 1 = zeros 1)
    (hoff : u p 4 4 < sectionSize (u p 2 2)) (hmax : u p 8 4 ≤ 16316) (hend : u p 4 4 + u p 8 4 ≤ sectionSize (u p 2 2))
    (him : ReadSelects (u p 0 1) im s) : cfgReadBody a p s = ok (readReport p s ++ imgBytes im (u p 2 2) (u p 4 4) (u p 8 4)) s := by
  have hgood : ∀ c ∈ [inRange p 0 1 0 2, isZero p 1 1, (2, decide (sectionSize (u p 2 2) ≠ 0)),
      (4, decide (u p 4 4 < sectionSize (u p 2 2))),
      (8, decide (u p 8 4 ≤ 16316) && decide (u p 4 4 + u p 8 4 ≤ sectionSize (u p 2 2)))], c.2 = true := by
    have hsel : u p 0 1 ≤ 2 := by
      obtain h | h | h := him <;> omega
    simp [inRange, hsel, isZero_of_slice hzero, show sectionSize (u p 2 2) ≠ 0 by omega, hoff, hmax, hend]
  simp only [cfgReadBody, withLength_of_mem (show p.length ∈ [12] by simp [hlen]), withFields_of_good hgood]
  obtain ⟨hsel, rfl⟩ | ⟨hsel, rfl⟩ | ⟨hsel, b, harmed⟩ := him
  · cases harmed : s.cfg.armed <;> simp [readReport, hsel, harmed]
  · cases harmed : s.cfg.armed <;> simp [readReport, hsel, harmed]
  · simp [readReport, hsel, harmed]

theorem exec_cfgRead {ring : Nat} {dma : List Byte} {s : State} {h : Hdr} {p : List Byte} {im : Image}
    (d : Delivered 0x0204 ring dma s h p) (hlen : p.length = 12) (hzero : slice p 1 1 = zeros 1)
    (hoff : u p 4 4 < sectionSize (u p 2 2)) (hmax : u p 8 4 ≤ 16316) (hend : u p 4 4 + u p 8 4 ≤ sectionSize (u p 2 2))
    (him : ReadSelects (u p 0 1) im s) : exec (.cfgRead ring dma) s =
      .next (answered (askerOf ring h s) (readReport p (consumed ring h s) ++ imgBytes im (u p 2 2) (u p 4 4) (u p 8 4))
        (consumed ring h s)) := by
  have himc : ReadSelects (u p 0 1) im (consumed ring h s) := by simpa only [ReadSelects, consumed_cfg] using him
  simp only [exec, execCfgRead, runMessage_delivered _ d, cfgReadBody_reads _ hlen hzero hoff hmax hend himc, settle_ok]

/-- Settles O48: staging, the subject messages, the three discards and the read in turn. -/
theorem configurationMessages : Obligations.ConfigurationMessages := by
  unfold Obligations.ConfigurationMessages
  refine fun ring dma s h p => ⟨exec_cfgStage, fun op sec row hrow d hlen hverdict => ?subject,
    fun d hlen hscope hzero => ⟨exec_cfgDiscard_live d hlen hscope hzero, fun im b harmed =>
      ⟨fun hstaged => ?toArmed, fun hcancel htime => ?cancel⟩⟩,
    fun d hlen hzero hoff hmax hend im him => ⟨_, exec_cfgRead d hlen hzero hoff hmax hend him, readReport_length .., ?report⟩⟩
  case subject =>
    fin_cases hrow <;> exact congrArg Host.Outcome.next (stageMessage_runs d hlen (by decide) hverdict)
  case toArmed => exact exec_cfgDiscard_armed d hlen hstaged hzero harmed
  case cancel =>
    refine ⟨exec_cfgDiscard_cancels d hlen hcancel hzero harmed htime, ?_⟩
    rw [cancelArmed_cfg (e := (im, b)) (by rwa [consumed_cfg]), consumed_cfg]
    exact ⟨rfl, rfl, rfl, rfl⟩
  case report => rw [readReport_take, consumed_cfg]

end Sys2Proof.Machine
end

section
/-! SUPPORT. A commit from its checks over arming to its boundary or timeout (R67, R73 to R75, R276), and from them O49. -/

namespace Sys2Proof.Machine

/-! ### The checks -/

theorem firstCheck_eq_none_iff (l : List (Nat × Option CheckFail)) : firstCheck l = none ↔ ∀ e ∈ l, e.2 = none := by
  induction l with
  | nil => simp [firstCheck]
  | cons e l ih =>
    obtain ⟨n, f⟩ := e
    cases f <;> simp [firstCheck, ih]

/-- A well-formed `cfg.commit` that names boundary `b` passes its checks in `s` (R73, R77): the earliest boundary, or one from 2 ms to 60 s
ahead that passes check 22. -/
structure CommitPasses (p : List Byte) (b : Boundary) (s : State) : Prop where
  len : p.length = 24
  timing : u p 0 1 ≤ 1
  zero1 : slice p 1 3 = zeros 3
  zero17 : slice p 17 7 = zeros 7
  quarter : u p 0 1 = 0 → u p 16 1 ≤ 39
  mode : commitMode s.pwr.mode = true
  armed : s.cfg.armed = none
  arming : s.cfg.arming = none
  count : u p 4 4 = 0xFFFFFFFF ∨ u p 4 4 = s.cfg.count
  earliest : u p 0 1 = 1 → b = earliestBoundary s.cfg.live s.cfg.staged (nowU s + 2 * (msU : Int))
  named : u p 0 1 = 0 → b = ⟨u p 8 8, u p 16 1⟩ ∧ nowU s + 2 * (msU : Int) ≤ boundaryU b ∧ boundaryU b ≤ nowU s + 60 * (secU : Int) ∧
    check22 s.cfg.live s.cfg.staged b.quarter = none
  checks : firstCheck (checks2to21 s.cfg.live s.cfg.staged (boundaryU b % frameU / tickU).toNat
    (s.rf.txEnable && isService s.pwr.mode && !protectiveEntry s) s.rf.rxEnable) = none
  bringUp : s.pwr.mode = .bringUp → check23 s.cfg.staged = none

namespace CommitPasses

variable {p : List Byte} {b : Boundary} {s : State}

/-- Taking the message leaves all that its checks look at. -/
theorem at_consumed (hp : CommitPasses p b s) (ring : Nat) (h : Hdr) : CommitPasses p b (consumed ring h s) := by
  rw [consumed_eq]
  exact { hp with }

/-- Neither bound of the boundary's instant refuses it. -/
theorem in_time (hp : CommitPasses p b s) : ¬(u p 0 1 = 0 ∧ boundaryU ⟨u p 8 8, u p 16 1⟩ < nowU s + 2 * (msU : Int)) ∧
    ¬(u p 0 1 = 0 ∧ nowU s + 60 * (secU : Int) < boundaryU ⟨u p 8 8, u p 16 1⟩) := by
  refine ⟨fun ⟨h0, hlt⟩ => ?_, fun ⟨h0, hlt⟩ => ?_⟩ <;> obtain ⟨rfl, hsoon, hlate, -⟩ := hp.named h0
  · exact not_lt.mpr hsoon hlt
  · exact not_lt.mpr hlate hlt

/-- The boundary chosen is the one named. -/
theorem boundary (hp : CommitPasses p b s) :
    (if u p 0 1 = 1 then earliestBoundary s.cfg.live s.cfg.staged (nowU s + 2 * (msU : Int)) else ⟨u p 8 8, u p 16 1⟩) = b := by
  split
  next h1 => exact (hp.earliest h1).symm
  next h1 => exact (hp.named (by have := hp.timing; omega)).1.symm

/-- The list of checks of R77, from check 1 on the stage count to check 23. -/
theorem no_check_fails (hp : CommitPasses p b s) :
    firstCheck ((1, failIf (decide (u p 4 4 ≠ 0xFFFFFFFF) && decide (u p 4 4 ≠ s.cfg.count)) ⟨0, 0, 0, s.cfg.count, u p 4 4⟩) ::
      checks2to21 s.cfg.live s.cfg.staged (boundaryU b % frameU / tickU).toNat
        (s.rf.txEnable && isService s.pwr.mode && !protectiveEntry s) s.rf.rxEnable ++
      (if u p 0 1 = 0 then [(22, check22 s.cfg.live s.cfg.staged b.quarter)] else []) ++
      (if s.pwr.mode = .bringUp then [(23, check23 s.cfg.staged)] else [])) = none := by
  have hc1 : failIf (decide (u p 4 4 ≠ 0xFFFFFFFF) && decide (u p 4 4 ≠ s.cfg.count)) ⟨0, 0, 0, s.cfg.count, u p 4 4⟩ = none := by
    obtain h | h := hp.count <;> simp [failIf, h]
  simp only [firstCheck_eq_none_iff, List.forall_mem_append, List.forall_mem_cons]
  refine ⟨⟨⟨hc1, (firstCheck_eq_none_iff _).mp hp.checks⟩, ?_⟩, ?_⟩ <;> split
  next h0 =>
    obtain ⟨-, -, -, h22⟩ := hp.named h0
    simpa using h22
  next => simp
  next h => simpa using hp.bringUp h
  next => simp

/-- Such a commit begins to arm the staged image. -/
theorem cfgCommitBody_arms (hp : CommitPasses p b s) (a : Asker) :
    cfgCommitBody a p s = deferred { s with cfg := { s.cfg with arming := some ⟨a, b, s.tm.raw, s.cfg.staged⟩ } } := by
  have hgood : ∀ c ∈ [inRange p 0 1 0 1, isZero p 1 3, (16, decide (u p 0 1 = 1) || decide (u p 16 1 ≤ 39)), isZero p 17 7],
      c.2 = true := by
    have htiming := hp.timing
    have hquarter : u p 0 1 = 1 ∨ u p 16 1 ≤ 39 := by
      have := hp.quarter
      omega
    simp [inRange, htiming, isZero_of_slice hp.zero1, isZero_of_slice hp.zero17, hquarter]
  have hidle : ¬(s.cfg.armed.isSome = true ∨ s.cfg.arming.isSome = true) := by simp [hp.armed, hp.arming]
  simp only [cfgCommitBody, withLength_of_mem (show p.length ∈ [24] by simp [hp.len]), withFields_of_good hgood, hp.mode, Bool.not_true,
    Bool.false_eq_true, if_false, if_neg hidle, if_neg hp.in_time.1, if_neg hp.in_time.2, hp.boundary, hp.no_check_fails]

theorem exec_cfgCommit {ring : Nat} {dma : List Byte} {h : Hdr} (hp : CommitPasses p b s) (d : Delivered 0x0202 ring dma s h p) :
    exec (.cfgCommit ring dma) s = .next (deferredTo (askerOf ring h s) { consumed ring h s with
      cfg := { s.cfg with arming := some ⟨askerOf ring h s, b, s.tm.raw, s.cfg.staged⟩ } }) := by
  simp only [exec, execCfgCommit, runMessage_delivered _ d, (hp.at_consumed ring h).cfgCommitBody_arms, settle_deferred, consumed_cfg,
    consumed_tm]

end CommitPasses

/-! ### Arming -/

/-- A fold over buses that lists each bus of `c`, while the power state is that of `w`. -/
theorem foldl_lists_buses {w : State} {c : Nat → Bool} {g : State → Nat → State} (hpwr : ∀ t q, (g t q).pwr = t.pwr)
    (hlist : ∀ t q, t.pwr = w.pwr → (g t q).rf.rffe = t.rf.rffe ++ if c q then [q] else []) (l : List Nat) {t : State} (ht : t.pwr = w.pwr) :
    (l.foldl g t).rf.rffe = t.rf.rffe ++ l.filter c := by
  induction l generalizing t with
  | nil => simp
  | cons q l ih =>
    rw [List.foldl_cons, ih ((hpwr t q).trans ht), hlist t q ht, List.filter_cons]
    split <;> simp

/-- Arming leaves a program to run for each enabled bus of a changed RFFE part whose domain is ready (R276, R278). -/
theorem rffeAtArming_rffe (im : Image) (s : State) :
    (rffeAtArming im s).rf.rffe = (rffeBuses s.cfg.live im).filter fun q => s.pwr.ready.getLsbD (12 + q) := by
  unfold rffeAtArming
  refine (foldl_lists_buses (w := s) (c := fun q => s.pwr.ready.getLsbD (12 + q)) (fun t q => ?pwr) (fun t q ht => ?list) _ ?same).trans
    (List.nil_append _)
  case pwr => split <;> simp
  case list =>
    rw [ht]
    split <;> simp
  case same => rfl

theorem armCommit_cfg (im : Image) (b : Boundary) (s : State) :
    (armCommit im b s).cfg = { s.cfg with armed := some (im, b), staged := im, count := 0, arming := none } := by
  simp [armCommit]

theorem armCommit_rffe (im : Image) (b : Boundary) (s : State) :
    (armCommit im b s).rf.rffe = (rffeBuses s.cfg.live im).filter fun q => s.pwr.ready.getLsbD (12 + q) := by
  rw [armCommit, rffeAtArming_rffe]

/-- The response to an arming that completes, over what arming leaves. -/
theorem finishArmed_frame (a : Asker) (code detail : Nat) (p : List Byte) (im : Image) (b : Boundary) (s : State) :
    let t := finishDeferred a code detail p (armCommit im b s)
    t = { s with cfg := t.cfg, rf := t.rf, ls := t.ls, ph := t.ph, ev := t.ev, stat := t.stat, out := t.out } := by
  intro t
  apply state_eq <;> simp [t]

theorem exec_commitArmed {s : State} {a : Asker} {b : Boundary} {r : Nat} {im : Image} (h : s.cfg.arming = some ⟨a, b, r, im⟩)
    (hlimit : nowU s ≤ armLimit b) : exec .commitArmed s = .next (finishDeferred a 0 0 (leBytes 4 (nextEpoch s.cfg.epoch) ++ zeros 4 ++
      leBytes 8 b.frame ++ leBytes 1 b.quarter ++ zeros 7) (armCommit im b s)) := by
  simp only [exec, execCommitArmed, h, if_neg (not_lt.mpr hlimit)]

theorem exec_commitArmTimeout {s : State} {a : Asker} {b : Boundary} {r : Nat} {im : Image} (h : s.cfg.arming = some ⟨a, b, r, im⟩) :
    exec .commitArmTimeout s = .next (finishDeferred a stTimeout 0 [] { advanceTo (armLimit b) s with
      cfg := { s.cfg with arming := none, outcome := 3, lastCheck := 0 } }) := by
  simp [exec, execCommitArmTimeout, h]

/-- A timeout of arming lets time pass, notes its outcome and answers. -/
theorem finishTimeout_frame (a : Asker) (code detail : Nat) (p : List Byte) (limit : Instant) (c : Config) (s : State) :
    let t := finishDeferred a code detail p { advanceTo limit s with cfg := c }
    t = { s with cfg := t.cfg, tm := t.tm, ph := t.ph, ev := t.ev, out := t.out } := by
  intro t
  apply state_eq <;> simp [t]

/-- Settles O49: the commit that passes, arming or its timeout, and the boundary. -/
theorem commitArmsAndGoesLive : Obligations.CommitArmsAndGoesLive := by
  unfold Obligations.CommitArmsAndGoesLive
  refine ⟨?passes, fun s a b r im harming => ⟨fun hlimit => ?armed, ?timeout⟩, fun s im b harmed => ?boundary⟩
  case passes =>
    intro ring dma s h p b d hlen htiming hzero1 hzero17 hquarter hmode harmed harming hcount hearliest hnamed hchecks h23
    have hp : CommitPasses p b s :=
      ⟨hlen, htiming, hzero1, hzero17, hquarter, hmode, harmed, harming, hcount, hearliest, hnamed, hchecks, h23⟩
    exact hp.exec_cfgCommit d
  case armed =>
    refine ⟨_, exec_commitArmed harming hlimit, ?_, ?_, finishArmed_frame ..⟩
    · simp [armCommit_cfg]
    · simp [armCommit_rffe]
  case timeout => exact ⟨_, exec_commitArmTimeout harming, by simp, finishTimeout_frame ..⟩
  case boundary =>
    refine ⟨_, exec_commitBoundary harmed, ?_⟩
    rw [commitBoundary_cfg]
    exact ⟨rfl, rfl, rfl, rfl, rfl, rfl⟩

end Sys2Proof.Machine
end

section
/-! SUPPORT. What the transmitter of a port touches (R96 to R100): of its own port the egress side and three counters, of the device the
events and the output, which only grow; and the frame that an idle line takes at once. -/

namespace Sys2Proof.Machine

/-! ### Ports, counters and instants of states that agree -/

theorem portOf_congr {s t : State} (h : t.fh = s.fh) (n : Nat) : portOf t n = portOf s n := by simp [portOf, h]

theorem nowU_congr {s t : State} (h : t.tm = s.tm) : nowU t = nowU s := by simp [nowU, h]

theorem imageAt_congr {s t : State} (h : t.cfg = s.cfg) (air : Instant) : imageAt t air = imageAt s air := by
  unfold imageAt
  rw [h]

theorem lineU_congr {s t : State} (h : t.cfg = s.cfg) (k : Nat) : lineU t k = lineU s k := by simp [lineU, h]

@[simp] theorem portOf_countLink (s : State) (n k d m : Nat) : portOf (countLink n k d s) m = portOf s m := rfl

@[simp] theorem portOf_raise (e : Nat) (d : List Byte) (s : State) (m : Nat) : portOf (raise e d s) m = portOf s m :=
  portOf_congr (by simp) m

@[simp] theorem linkCount_setPort (s : State) (n : Nat) (p : Port) (m k : Nat) : linkCount (setPort n p s) m k = linkCount s m k := rfl

@[simp] theorem portOf_takeFree (s : State) (m : Nat) : portOf (takeFree s).2 m = portOf s m := rfl

@[simp] theorem linkCount_takeFree (s : State) (m k : Nat) : linkCount (takeFree s).2 m k = linkCount s m k := rfl

@[simp] theorem imageAt_setPort (s : State) (n : Nat) (p : Port) (air : Instant) : imageAt (setPort n p s) air = imageAt s air :=
  imageAt_congr (by simp) air

@[simp] theorem lineU_setPort (s : State) (n : Nat) (p : Port) (k : Nat) : lineU (setPort n p s) k = lineU s k :=
  lineU_congr (by simp) k

@[simp] theorem nowU_countLink (s : State) (n k d : Nat) : nowU (countLink n k d s) = nowU s := nowU_congr (by simp)

@[simp] theorem imageAt_countLink (s : State) (n k d : Nat) (air : Instant) : imageAt (countLink n k d s) air = imageAt s air :=
  imageAt_congr (by simp) air

@[simp] theorem lineU_countLink (s : State) (n k d m : Nat) : lineU (countLink n k d s) m = lineU s m := lineU_congr (by simp) m

@[simp] theorem linkCount_raise (e : Nat) (d : List Byte) (s : State) (m k : Nat) : linkCount (raise e d s) m k = linkCount s m k :=
  linkCount_congr (by simp) m k

/-- A line takes time for any frame: its gap alone does. -/
theorem lineU_pos (s : State) {k : Nat} (h : 0 < k) : 0 < lineU s k := by
  have hrate : (0 : Int) < macRate (portMode s.cfg.live) := by
    unfold macRate
    split <;> decide
  unfold lineU ceilDiv
  rw [neg_pos]
  exact Int.ediv_neg_of_neg_of_pos (by omega) hrate

/-! ### What sending leaves alone -/

/-- A port but for its egress side: its link, what it has received and the result of its delay measurement. -/
def Port.ingressSide (p : Port) : Port :=
  { p with queue := [], kept := [], line := none, busy := 0, txStamps := [], meas := none }

@[simp] theorem enqueue_frame (g : EgressFrame) (p : Port) : (enqueue g p).ingressSide = p.ingressSide ∧ (enqueue g p).line = p.line := by
  unfold enqueue
  split <;> exact ⟨rfl, rfl⟩

@[simp] theorem giveKept_frame (t : Instant) (p : Port) : (giveKept t p).ingressSide = p.ingressSide ∧ (giveKept t p).line = p.line ∧
    (giveKept t p).txStamps = p.txStamps := by
  unfold giveKept
  split
  · split <;> exact ⟨rfl, rfl, rfl⟩
  · exact ⟨rfl, rfl, rfl⟩

/-- From `s` to `t` port n has sent: no other port and, of its own, only the egress side has changed, and of the counters those of frames
and bytes sent and of timestamps lost. -/
structure Sends (n : Nat) (s t : State) : Prop where
  ingress : (portOf t n).ingressSide = (portOf s n).ingressSide
  others : ∀ j, j ≠ n → portOf t j = portOf s j
  count : ∀ m k, k < 32 → (m, k) ∉ [(n, 19), (n, 20), (n, 23)] → linkCount t m k = linkCount s m k
  grows : Grows s t

namespace Sends
variable {n : Nat} {r s t : State}

theorem refl (n : Nat) (s : State) : Sends n s s := ⟨rfl, fun _ _ => rfl, fun _ _ _ _ => rfl, .refl s⟩

theorem trans (h : Sends n r s) (k : Sends n s t) : Sends n r t :=
  ⟨k.ingress.trans h.ingress, fun j hj => (k.others j hj).trans (h.others j hj),
    fun m c hc hm => (k.count m c hc hm).trans (h.count m c hc hm), h.grows.trans k.grows⟩

theorem of_fh (hfh : t.fh = s.fh) (hg : Grows s t) : Sends n s t :=
  ⟨by rw [portOf_congr hfh], fun j _ => portOf_congr hfh j, fun m k _ _ => linkCount_congr hfh m k, hg⟩

theorem setPort {p : Port} (h : p.ingressSide = (portOf s n).ingressSide) : Sends n s (setPort n p s) :=
  ⟨by simp [h], fun j hj => by simp [hj], fun _ _ _ _ => rfl, .of_eq (by simp) (by simp)⟩

theorem countLink {k : Nat} (hk : k ∈ [19, 20, 23]) (d : Nat) (s : State) : Sends n s (countLink n k d s) where
  ingress := rfl
  others _ _ := rfl
  count m j hj hm := by
    have hne : m * 32 + j ≠ n * 32 + k := by
      simp only [List.mem_cons, List.not_mem_nil, Prod.mk.injEq, or_false] at hk hm
      omega
    simp [hne]
  grows := .of_eq (by simp) (by simp)

end Sends

/-! ### The steps of the transmitter -/

section
variable (n : Nat)

theorem stampSent_sends (start : Instant) (x : StampOf) (s : State) : Sends n s (stampSent n start x s) := by
  have hfree : Sends n s (takeFree s).2 := .of_fh (by simp) (.of_eq (by simp) (by simp))
  unfold stampSent
  dsimp only
  split
  · exact (hfree.trans (.countLink (by decide) ..)).trans (.of_fh (by simp) (raise_grows ..))
  · exact hfree.trans (.setPort rfl)

/-- A timestamp that finds the FIFO full is counted and raised (R99). -/
theorem stampSent_full (start : Instant) (x : StampOf) {s : State} (h : 64 ≤ (portOf s n).txStamps.length) :
    linkCount (stampSent n start x s) n 23 = (linkCount s n 23 + 1) % 2 ^ 64 ∧ (stampSent n start x s).ev.status.getLsbD 28 = true := by
  unfold stampSent
  dsimp only
  rw [portOf_takeFree, if_pos h]
  exact ⟨by simp, raise_status _ _ _ (by decide)⟩

theorem stampSent_line (start : Instant) (x : StampOf) (s : State) : (portOf (stampSent n start x s) n).line = (portOf s n).line := by
  unfold stampSent
  dsimp only
  split <;> simp

/-- Firmware that reads the timestamps rewrites the port step by step, and never what it has received or its line: what such writes
keep, the reading keeps. -/
theorem readStamps_keeps {P : State → Prop} (at_ : Instant) {s : State} (h : P s) (hset : ∀ t p, P t →
    p.ingressSide = (portOf t n).ingressSide → p.line = (portOf t n).line → P (setPort n p t)) : P (readStamps n at_ s) := by
  unfold readStamps
  split
  · exact h
  · refine List.foldlRecOn (motive := P) _ _ ?emptied fun t ht x _ => ?followUp
    case emptied =>
      split
      · exact h
      · exact hset s _ h rfl rfl
    case followUp =>
      dsimp only
      split
      · exact hset t _ ht (enqueue_frame ..).1 (enqueue_frame ..).2
      · exact ht

theorem readStamps_sends (at_ : Instant) (s : State) : Sends n s (readStamps n at_ s) :=
  readStamps_keeps n at_ (.refl n s) fun _ _ ht hp _ => ht.trans (.setPort hp)

theorem readStamps_line (at_ : Instant) (s : State) : (portOf (readStamps n at_ s) n).line = (portOf s n).line :=
  readStamps_keeps (P := fun t => (portOf t n).line = (portOf s n).line) n at_ rfl fun _ _ ht _ hl => by simp [hl, ht]

theorem linkCount_readStamps (at_ : Instant) (s : State) (m k : Nat) : linkCount (readStamps n at_ s) m k = linkCount s m k :=
  readStamps_keeps (P := fun t => linkCount t m k = linkCount s m k) n at_ rfl fun _ _ ht _ _ => ht

/-- The port while a frame that starts takes its line (R96). -/
def portStarting (start : Instant) (g : EgressFrame) (s : State) : Port :=
  let f := formed (imageAt s start) n g
  giveKept start { portOf s n with
    queue := (portOf s n).queue.erase g
    line := some ⟨g.flow, f, start + lineU s (f.length + 12)⟩
    busy := start + lineU s (f.length + 24) }

theorem startFrame_unstamped (start : Instant) {g : EgressFrame} (h : g.stamp = none) (s : State) :
    startFrame n start g s = setPort n (portStarting n start g s) s := by
  unfold startFrame
  rw [h]
  rfl

theorem startFrame_stamped (start : Instant) {g : EgressFrame} {x : StampOf} (h : g.stamp = some x) (s : State) :
    startFrame n start g s = readStamps n start (stampSent n start x (setPort n (portStarting n start g s) s)) := by
  unfold startFrame
  rw [h]
  rfl

theorem startFrame_sends (start : Instant) (g : EgressFrame) (s : State) : Sends n s (startFrame n start g s) := by
  have hport : Sends n s (setPort n (portStarting n start g s) s) := .setPort (giveKept_frame ..).1
  cases h : g.stamp with
  | none => rwa [startFrame_unstamped n start h]
  | some x =>
    rw [startFrame_stamped n start h]
    exact (hport.trans (stampSent_sends ..)).trans (readStamps_sends ..)

/-- A frame that starts takes the line. -/
theorem startFrame_line (start : Instant) (g : EgressFrame) (s : State) :
    let f := formed (imageAt s start) n g
    (portOf (startFrame n start g s) n).line = some ⟨g.flow, f, start + lineU s (f.length + 12)⟩ := by
  have hline : (portOf (setPort n (portStarting n start g s) s) n).line = (portStarting n start g s).line := by simp
  cases h : g.stamp with
  | none =>
    rw [startFrame_unstamped n start h, hline]
    exact (giveKept_frame ..).2.1
  | some x =>
    rw [startFrame_stamped n start h, readStamps_line, stampSent_line, hline]
    exact (giveKept_frame ..).2.1

/-- A stamped frame that starts while the FIFO is full loses its timestamp (R99). -/
theorem startFrame_full (start : Instant) {g : EgressFrame} {x : StampOf} (h : g.stamp = some x) {s : State}
    (hfull : 64 ≤ (portOf s n).txStamps.length) : linkCount (startFrame n start g s) n 23 = (linkCount s n 23 + 1) % 2 ^ 64 ∧
      (startFrame n start g s).ev.status.getLsbD 28 = true := by
  have hstamps : (portOf (setPort n (portStarting n start g s) s) n).txStamps = (portOf s n).txStamps := by simp [portStarting]
  obtain ⟨hcount, hstatus⟩ := stampSent_full n start x (hstamps.symm ▸ hfull)
  rw [startFrame_stamped n start h, linkCount_readStamps, hcount, linkCount_setPort]
  exact ⟨rfl, by simpa using hstatus⟩

theorem endFrame_out (x : Sending) (s : State) : (endFrame n x s).out = s.out ++ [.egress n x.flow x.bytes] := by
  simp [endFrame]

theorem endFrame_sends (x : Sending) (s : State) : Sends n s (endFrame n x s) := by
  have hout : Sends n s { s with out := s.out ++ [.egress n x.flow x.bytes] } :=
    ⟨rfl, fun _ _ => rfl, fun _ _ _ _ => rfl, fun _ h => h, List.prefix_append ..⟩
  unfold endFrame
  refine .trans (.trans (hout.trans (.setPort ?port)) (.countLink ?frames ..)) (.countLink ?bytes ..)
  case port => rfl
  case frames => decide
  case bytes => decide

/-! ### Draining (R96, log 100) -/

theorem drainFrames_sends (k : Nat) (s : State) : Sends n s (drainFrames n k s) := by
  induction k generalizing s with
  | zero => exact .refl n s
  | succ k ih =>
    unfold drainFrames
    split
    · split
      · exact (endFrame_sends ..).trans (ih _)
      · exact .refl n s
    · split
      · exact .refl n s
      · split
        · exact (startFrame_sends ..).trans (ih _)
        · exact .refl n s

theorem drainPort_sends (s : State) : Sends n s (drainPort n s) := drainFrames_sends n _ s

variable {n} {s : State}

/-- A frame still on the line holds up all others. -/
theorem drainFrames_taken {x : Sending} (hline : (portOf s n).line = some x) (hends : nowU s < x.ends) (k : Nat) : drainFrames n k s = s := by
  cases k with
  | zero => rfl
  | succ k => simp only [drainFrames, hline, if_neg (not_le.mpr hends)]

theorem drainFrames_left {x : Sending} (hline : (portOf s n).line = some x) (hends : x.ends ≤ nowU s) (k : Nat) :
    drainFrames n (k + 1) s = drainFrames n k (endFrame n x s) := by
  simp only [drainFrames, hline, if_pos hends]

theorem drainFrames_starts {t : Instant} {g : EgressFrame} (hline : (portOf s n).line = none) (hnext : nextFrame (portOf s n) = some (t, g))
    (ht : t ≤ nowU s) (k : Nat) : drainFrames n (k + 1) s = drainFrames n k (startFrame n t g s) := by
  simp only [drainFrames, hline, hnext, if_pos ht]

/-- A port with nothing queued and nothing on the line has nothing to let out. -/
theorem drainPort_idle (hline : (portOf s n).line = none) (hqueue : (portOf s n).queue = []) : drainPort n s = s := by
  have hnext : nextFrame (portOf s n) = none := by simp [nextFrame, hqueue]
  simp only [drainPort, drainFrames, hline, hnext]

/-- A frame that has left is put out first. -/
theorem drainPort_out {x : Sending} (hline : (portOf s n).line = some x) (hends : x.ends ≤ nowU s) :
    ∃ rest, (drainPort n s).out = s.out ++ [.egress n x.flow x.bytes] ++ rest := by
  obtain ⟨rest, hrest⟩ := (drainFrames_sends n _ (endFrame n x s)).grows.out
  refine ⟨rest, ?_⟩
  rw [drainPort, drainFrames_left hline hends, ← hrest, endFrame_out]

theorem transmit_sends (g : EgressFrame) (s : State) : Sends n s (transmit n g s) :=
  ((drainPort_sends n s).trans (.setPort (enqueue_frame ..).1)).trans (drainPort_sends n _)

/-- The next frame starts where it can by now; one that is not through by now is the last. -/
theorem drainPort_starts {t : Instant} {g : EgressFrame} (hline : (portOf s n).line = none) (hnext : nextFrame (portOf s n) = some (t, g))
    (ht : t ≤ nowU s) (hends : nowU s < t + lineU s ((formed (imageAt s t) n g).length + 12)) : drainPort n s = startFrame n t g s := by
  have hnow : nowU (startFrame n t g s) = nowU s := nowU_congr (by simp)
  exact (drainFrames_starts hline hnext ht _).trans (drainFrames_taken (startFrame_line ..) (hnow ▸ hends) _)

theorem enqueue_empty {p : Port} (h : p.queue = []) (g : EgressFrame) : enqueue g p = { p with queue := [g] } := by
  simp [enqueue, h, shortQueued]

/-- A frame handed to an idle line starts, where it can by now. -/
theorem transmit_idle {g : EgressFrame} (hqueue : (portOf s n).queue = []) (hline : (portOf s n).line = none) :
    let start := max (portOf s n).busy g.since
    start ≤ nowU s → nowU s < start + lineU s ((formed (imageAt s start) n g).length + 12) →
      transmit n g s = startFrame n start g (setPort n (enqueue g (portOf s n)) s) := by
  intro start hstart hends
  have hnext : nextFrame (enqueue g (portOf s n)) = some (start, g) := by
    simp [enqueue_empty hqueue, nextFrame, start]
  unfold transmit
  simp only [drainPort_idle hline hqueue]
  exact drainPort_starts (by simpa using hline) (by simpa using hnext) hstart hends

end

end Sys2Proof.Machine
end

section
/-! SUPPORT. The rows of the fronthaul ports (R87, R89, R99, R100, R104, R105, R321): one equation or frame per row, and from them O50. -/

namespace Sys2Proof.Machine

/-! ### Messages (R104, R105) -/

section
variable {ring : Nat} {dma : List Byte} {s : State} {h : Hdr} {p : List Byte}

/-- The report of `link.status` on the port that the payload names. -/
theorem exec_linkStatus (d : Delivered 0x0C02 ring dma s h p) (hlen : p.length = 4) (hport : u p 0 1 ≤ 7) (hzero : slice p 1 3 = zeros 3) :
    ∃ b, exec (.linkStatus ring dma) s = .next (answered (askerOf ring h s) b (consumed ring h s)) ∧ b.length = 48 ∧
      b.take 2 = leBytes 1 (u p 0 1) ++ leBytes 1 (if portExists s (u p 0 1) then (portOf s (u p 0 1)).state else 1) := by
  have hgood : ∀ c ∈ [inRange p 0 1 0 7, isZero p 1 3], c.2 = true := by simp [inRange, hport, isZero_of_slice hzero]
  have hexists : portExists (consumed ring h s) (u p 0 1) = portExists s (u p 0 1) := by simp [portExists]
  have hof : portOf (consumed ring h s) (u p 0 1) = portOf s (u p 0 1) := portOf_congr (by simp) _
  simp only [exec, execLinkStatus, runMessage_delivered _ d, linkStatusBody, withLength_of_mem (show p.length ∈ [4] by simp [hlen]),
    withFields_of_good hgood, settle_ok, hexists, hof]
  exact ⟨_, rfl, by simp [leI, zeros, leBytes], by simp [leBytes]⟩

/-- The counters of port n start from 0 (R105). -/
def countersCleared (n : Nat) (s : State) : State :=
  { s with fh := { s.fh with count := tclear s.fh.count (n * 32) (n * 32 + 32) } }

theorem exec_linkCounters (d : Delivered 0x0C03 ring dma s h p) (hlen : p.length = 4) (hport : u p 0 1 ≤ 7) (hzero : slice p 2 2 = zeros 2)
    (hclear : u p 1 1 ≤ 1) :
    let w := drainPort (u p 0 1) (consumed ring h s)
    exec (.linkCounters ring dma) s = .next (answered (askerOf ring h s)
      (p ++ zeros 4 ++ (List.range 24).flatMap fun k => leBytes 8 (linkCount w (u p 0 1) k))
      (if u p 1 1 = 1 then countersCleared (u p 0 1) w else w)) := by
  have hgood : ∀ c ∈ [inRange p 0 1 0 7, inRange p 1 1 0 1, isZero p 2 2], c.2 = true := by
    simp [inRange, hport, hclear, isZero_of_slice hzero]
  simp only [exec, execLinkCounters, runMessage_delivered _ d, linkCountersBody, withLength_of_mem (show p.length ∈ [4] by simp [hlen]),
    withFields_of_good hgood, settle_ok, countersCleared]
end

theorem linkCount_countersCleared (n : Nat) (s : State) (m : Nat) {k : Nat} (hk : k < 32) :
    linkCount (countersCleared n s) m k = if m = n then 0 else linkCount s m k := by
  have hin : n * 32 ≤ m * 32 + k ∧ m * 32 + k < n * 32 + 32 ↔ m = n := by omega
  simp only [linkCount, countersCleared, tget_tclear, hin]

/-! ### Ports rise and fall (R87) -/

theorem exec_linkUp {s : State} {n : Nat} (hexists : portExists s n = true) (hready : s.pwr.ready.getLsbD 3 = true)
    (hdown : (portOf s n).state ≠ 6) (hpll : s.clk.plls.getLsbD (3 + portHalf s n) = true) :
    let w := setPort n { portOf s n with
      state := 6, aligned := 2 ^ (lanesOf (portMode s.cfg.live) n).length - 1, remoteFault := false,
      upCount := ((portOf s n).upCount + 1) % 2 ^ 32, changed := nowU s } s
    exec (.linkUp n) s = .next (if syncePort w n then { w with clk := { w.clk with synceSince := w.tm.raw } } else w) := by
  simp only [exec, execLinkUp]
  exact if_pos ⟨hexists, hready, hdown, hpll⟩

theorem exec_linkDown {s : State} {n cause : Nat} (hup : portUp s n = true) (hcause : cause ∈ [1, 2, 3, 5]) :
    exec (.linkDown n cause) s = .next (linkFalls n cause s) := by
  simp only [exec, execLinkDown]
  exact if_pos ⟨hup, hcause⟩

/-- A port whose transmitter stops holds nothing more, and is otherwise as it was (log 100). -/
theorem stopEgress_port (n : Nat) (restart : Bool) (s : State) :
    (portOf (stopEgress n restart s) n).queue = [] ∧
      (portOf (stopEgress n restart s) n).ingressSide = (portOf s n).ingressSide ∧
      ∀ j, j ≠ n → portOf (stopEgress n restart s) j = portOf s j := by
  have hsends := drainPort_sends n s
  unfold stopEgress
  refine ⟨by simp, ?_, fun j hj => ?_⟩
  · rw [portOf_setPort, if_pos rfl]
    split <;> exact hsends.ingress
  · rw [portOf_setPort, if_neg hj, ← hsends.others j hj]
    split <;> rfl

theorem holdoverEvent_grows (which cause : Nat) (s : State) : Grows s (holdoverEvent which cause s) := raise_grows ..

theorem dpllFollows_grows (before : Nat) (s : State) : Grows s (dpllFollows before s) := by
  unfold dpllFollows
  split_ifs
  · exact .refl s
  · exact .refl s
  · exact (holdoverEvent_grows ..).after (.of_eq (by simp) (by simp))
  · exact .of_eq rfl rfl
  · exact .refl s

theorem servoHold_grows (cause : Nat) (s : State) : Grows s (servoHold cause s) := by
  unfold servoHold
  split
  · exact .of_eq rfl rfl
  · exact ((dpllFollows_grows ..).after (holdoverEvent_grows ..)).after (.of_eq (by simp) (by simp))

theorem servoLost_grows (cause : Nat) (s : State) : Grows s (servoLost cause s) := by
  unfold servoLost
  exact .ite (servoHold_grows ..) (.of_eq rfl rfl)

theorem synceLost_grows (s : State) : Grows s (synceLost s) := by
  unfold synceLost
  exact .ite ((holdoverEvent_grows ..).after (.of_eq (by simp) (by simp))) (.of_eq rfl rfl)

/-- A port that has fallen for a cause at an instant (R87). -/
def portFallen (cause : Nat) (now : Instant) (p : Port) : Port :=
  { p with
    state := if cause = 1 then 3 else if cause = 2 then 5 else if cause = 3 then 4 else 2
    aligned := if cause = 2 ∨ cause = 3 then p.aligned else 0
    changed := now
    remoteFault := decide (cause = 1 ∨ cause = 3) }

section
variable (n cause : Nat) (s : State)

/-- The loss of the servo's and the SyncE input's source leaves the ports alone. -/
theorem portOf_linkFalls (j : Nat) : portOf (linkFalls n cause s) j =
    if j = n then portFallen cause (nowU s) (portOf (stopEgress n (decide (cause = 4)) s) n)
    else portOf (stopEgress n (decide (cause = 4)) s) j := by
  have hnow : nowU (stopEgress n (decide (cause = 4)) s) = nowU s := nowU_congr (by simp)
  rw [← portOf_setPort, ← hnow]
  exact portOf_congr (by simp [linkFalls, portFallen]) j

/-- EV_LINK_DOWN is raised for each port. -/
theorem linkFalls_status (hn : n < 8) : (linkFalls n cause s).ev.status.getLsbD (16 + n) = true := by
  unfold linkFalls
  refine (Grows.ite (servoLost_grows ..) (.refl _)).status _ ((Grows.ite (synceLost_grows ..) (.refl _)).status _ ?_)
  exact raise_status _ _ _ (by omega)

end

/-! ### Delay measurement (R100) -/

theorem exec_type5ResponseTimeout (n : Nat) (s : State) : exec (.type5ResponseTimeout n) s =
    .next (if (portOf (drainPort n s) n).meas.isSome then setPort n { portOf (drainPort n s) n with meas := none } (drainPort n s)
      else drainPort n s) := by
  simp only [exec, execType5ResponseTimeout]
  split <;> rfl

/-! ### Sync exchanges (R321) -/

@[simp] theorem portOf_servoMeasure (e : Int) (s : State) (n : Nat) : portOf (servoMeasure e s) n = portOf s n :=
  portOf_congr (by simp) n

theorem portOf_withTime (s : State) (t : Time) (n : Nat) : portOf { s with tm := t } n = portOf s n := rfl

section
variable (s : State) (n : Nat) (t : Instant)

theorem delayReqFrame_stamp : (delayReqFrame s n t).stamp = some .other := rfl

theorem delayReqFrame_since : (delayReqFrame s n t).since = t := rfl

theorem delayReqFrame_flow : (delayReqFrame s n t).flow = noFlow := rfl

end

/-- The Delay_Req of an exchange has gone into the queue and is counted, and the receive timestamp of the Sync is used up. -/
def delayReqQueued (n : Nat) (t3 : Instant) (s : State) : State :=
  let t := transmit n (delayReqFrame s n (min t3 (nowU s))) (countLink n 22 1 (drainPort n s))
  setPort n { portOf t n with ptpRx := none } t

section
variable (n : Nat) (t3 : Instant) (s : State)

@[simp] theorem delayReqQueued_frame : (delayReqQueued n t3 s).tm = s.tm ∧ (delayReqQueued n t3 s).dl = s.dl ∧
    (delayReqQueued n t3 s).pwr = s.pwr ∧ (delayReqQueued n t3 s).cfg = s.cfg ∧ (delayReqQueued n t3 s).clk = s.clk ∧
    (delayReqQueued n t3 s).rf = s.rf := by
  simp [delayReqQueued]

@[simp] theorem delayReqQueued_ptpRx : (portOf (delayReqQueued n t3 s) n).ptpRx = none := by
  simp [delayReqQueued]

theorem delayReqQueued_others {j : Nat} (hj : j ≠ n) : portOf (delayReqQueued n t3 s) j = portOf s j := by
  simp only [delayReqQueued, portOf_setPort, if_neg hj, (transmit_sends _ _).others j hj, portOf_countLink, (drainPort_sends n s).others j hj]

theorem delayReqQueued_counted : linkCount (delayReqQueued n t3 s) n 22 = (linkCount s n 22 + 1) % 2 ^ 64 := by
  simp only [delayReqQueued, linkCount_setPort]
  rw [(transmit_sends ..).count n 22 (by decide) (by simp), linkCount_countLink, if_pos rfl,
    (drainPort_sends n s).count n 22 (by decide) (by simp)]

variable {n t3 s}

/-- An idle port's line takes the Delay_Req at once. -/
theorem delayReqQueued_starts (hqueue : (portOf s n).queue = []) (hline : (portOf s n).line = none) :
    let g := delayReqFrame s n (min t3 (nowU s))
    let start := max (portOf s n).busy (min t3 (nowU s))
    start ≤ nowU s → nowU s < start + lineU s ((formed (imageAt s start) n g).length + 12) →
      ∃ t, t = startFrame n start g (setPort n (enqueue g (portOf s n)) (countLink n 22 1 s)) ∧
        delayReqQueued n t3 s = setPort n { portOf t n with ptpRx := none } t := by
  intro g start hstart hends
  have hidle := transmit_idle (s := countLink n 22 1 s) (n := n) (g := g) (by rw [portOf_countLink, hqueue]) (by rw [portOf_countLink, hline])
  simp only [portOf_countLink, nowU_countLink, imageAt_countLink, lineU_countLink, g, delayReqFrame_since] at hidle
  refine ⟨_, rfl, ?_⟩
  rw [← hidle hstart hends]
  unfold delayReqQueued
  rw [drainPort_idle hline hqueue]

/-- An idle port's line takes the Delay_Req; its timestamp is lost where the FIFO is full (R99). -/
theorem delayReqQueued_idle (hqueue : (portOf s n).queue = []) (hline : (portOf s n).line = none) :
    let start := max (portOf s n).busy (min t3 (nowU s))
    let f := formed (imageAt s start) n (delayReqFrame s n (min t3 (nowU s)))
    start ≤ nowU s → nowU s < start + lineU s (f.length + 12) →
      (portOf (delayReqQueued n t3 s) n).line = some ⟨noFlow, f, start + lineU s (f.length + 12)⟩ ∧
      (64 ≤ (portOf s n).txStamps.length → linkCount (delayReqQueued n t3 s) n 23 = (linkCount s n 23 + 1) % 2 ^ 64 ∧
        (delayReqQueued n t3 s).ev.status.getLsbD 28 = true) := by
  intro start f hstart hends
  obtain ⟨t, ht, hqueued⟩ := delayReqQueued_starts hqueue hline hstart hends
  rw [hqueued]
  refine ⟨?line, fun hfull => ?full⟩
  case line =>
    rw [portOf_setPort, if_pos rfl, ht, startFrame_line]
    simp only [imageAt_setPort, imageAt_countLink, lineU_setPort, lineU_countLink, delayReqFrame_flow, start, f]
  case full =>
    obtain ⟨hcount, hstatus⟩ := startFrame_full n start (delayReqFrame_stamp s n (min t3 (nowU s))) (s := setPort n
      (enqueue (delayReqFrame s n (min t3 (nowU s))) (portOf s n)) (countLink n 22 1 s)) (by simpa [enqueue_empty hqueue] using hfull)
    rw [linkCount_setPort, ht]
    exact ⟨hcount.trans (by simp), by simpa [start] using hstatus⟩

end

section
variable {s : State} {n : Nat} (hsource : svSource s = 1) (hmaster : s.tm.master.port = some n)
  (hmask : (u s.tm.settings 3 1).testBit n = true) (hup : portUp s n = true)
include hsource hmaster hmask hup

theorem exec_ptpSyncExchange_lost (t1 t2 t3 t4 : Instant) {lost : Bool}
    (hlost : lost = true ∨ 64 ≤ (portOf (drainPort n s) n).txStamps.length) :
    exec (.ptpSyncExchange n t1 t2 t3 t4 lost) s = .next (delayReqQueued n t3 s) := by
  simp only [exec, execPtpSyncExchange]
  rw [if_pos ⟨hsource, hmaster, hmask, hup⟩]
  exact if_pos (by simpa using hlost)

/-- An exchange that is not lost measures, with the receive timestamp of its Sync where the port has brought that. -/
theorem exec_ptpSyncExchange_measures (t1 t2 t3 t4 : Instant) (hroom : (portOf (drainPort n s) n).txStamps.length < 64) :
    let x := ptpOffset s n t1 ((portOf (drainPort n s) n).ptpRx.getD t2) t3 t4
    exec (.ptpSyncExchange n t1 t2 t3 t4 false) s =
      .next (servoMeasure x.1 { delayReqQueued n t3 s with tm := { s.tm with meanDelay := x.2 } }) := by
  have htm : (delayReqQueued n t3 s).tm = s.tm := (delayReqQueued_frame n t3 s).1
  have hoffset : ∀ r2, ptpOffset s n t1 r2 t3 t4 = ptpOffset (delayReqQueued n t3 s) n t1 r2 t3 t4 := by simp [ptpOffset]
  simp only [exec, execPtpSyncExchange]
  rw [if_pos ⟨hsource, hmaster, hmask, hup⟩, hoffset, ← htm]
  exact if_neg (by simpa using hroom)

/-- The line of an idle port takes the exchange's Delay_Req, lost or not. -/
theorem ptpSyncExchange_takesLine (t1 t2 t3 t4 : Instant) (hqueue : (portOf s n).queue = []) (hline : (portOf s n).line = none) :
    let start := max (portOf s n).busy (min t3 (nowU s))
    let f := formed (imageAt s start) n (delayReqFrame s n (min t3 (nowU s)))
    start ≤ nowU s → nowU s < start + lineU s (f.length + 12) → ∀ lost, ∃ t, exec (.ptpSyncExchange n t1 t2 t3 t4 lost) s = .next t ∧
      (portOf t n).line = some ⟨noFlow, f, start + lineU s (f.length + 12)⟩ ∧
      (64 ≤ (portOf s n).txStamps.length → linkCount t n 23 = (linkCount s n 23 + 1) % 2 ^ 64 ∧ t.ev.status.getLsbD 28 = true) := by
  intro start f hstart hends lost
  obtain ⟨htaken, hfull⟩ := delayReqQueued_idle hqueue hline hstart hends
  have hidle : drainPort n s = s := drainPort_idle hline hqueue
  by_cases hlost : lost = true ∨ 64 ≤ (portOf (drainPort n s) n).txStamps.length
  · exact ⟨_, exec_ptpSyncExchange_lost hsource hmaster hmask hup t1 t2 t3 t4 hlost, htaken, hfull⟩
  · rw [not_or, Bool.not_eq_true, not_le] at hlost
    obtain ⟨rfl, hroom⟩ := hlost
    refine ⟨_, exec_ptpSyncExchange_measures hsource hmaster hmask hup t1 t2 t3 t4 hroom, ?_, fun h => ?_⟩
    · rw [portOf_servoMeasure, portOf_withTime]
      exact htaken
    · rw [hidle] at hroom
      omega

end

/-! ### Received frames (R89, Table 4-4) -/

/-- The first tests of Table 4-4: a port that is up, FEC, FCS, then the steps of `classify`. -/
theorem exec_frameReceived {s : State} {n : Nat} (hexists : portExists s n = true) (hready : s.pwr.ready.getLsbD 3 = true) (f : List Byte)
    (x : RxCheck) :
    let w := countLink n 4 x.uncorrectable (countLink n 3 x.corrected s)
    exec (.frameReceived n f x) s = .next (if (portOf s n).state ≠ 6 then w
      else if x.fecOk = false then raise 24 (det n 1 0 0 (linkCount w n 4 % 2 ^ 32)) w
      else if x.fcsOk = false then raise 25 (det n 0 0 0 (linkCount (countLink n 2 1 w) n 2 % 2 ^ 32)) (countLink n 2 1 w)
      else classify n f w) := by
  simp only [exec, execFrameReceived, hexists, hready, and_self, if_true, Bool.not_eq_true']
  split_ifs <;> rfl

/-- A frame of a wrong length goes no further than step 3. -/
theorem classify_short {n : Nat} {f : List Byte} (h : f.length < 64) (s : State) : classify n f s = ingressDrop n 3 7 s := by
  unfold classify
  exact if_pos (.inl h)

/-! ### The clauses of O50 -/

theorem linkCounters_report (ring : Nat) (dma : List Byte) (s : State) (h : Hdr) (p : List Byte) (d : Delivered 0x0C03 ring dma s h p)
    (hlen : p.length = 4) (hport : u p 0 1 ≤ 7) (hzero : slice p 2 2 = zeros 2) (hclear : u p 1 1 ≤ 1) :
    let w := drainPort (u p 0 1) (consumed ring h s)
    ∃ t, exec (.linkCounters ring dma) s = .next (answered (askerOf ring h s)
      (p ++ zeros 4 ++ (List.range 24).flatMap fun k => leBytes 8 (linkCount w (u p 0 1) k)) t) ∧
      ((portOf s (u p 0 1)).queue = [] → (portOf s (u p 0 1)).line = none → w = consumed ring h s) ∧ (u p 1 1 = 0 → t = w) ∧
      (u p 1 1 = 1 → (∀ k < 32, linkCount t (u p 0 1) k = 0) ∧ (∀ n k, n ≠ u p 0 1 → k < 32 → linkCount t n k = linkCount s n k) ∧
        t = { w with fh := { w.fh with count := t.fh.count } }) := by
  intro w
  have hof : portOf (consumed ring h s) (u p 0 1) = portOf s (u p 0 1) := portOf_congr (by simp) _
  refine ⟨_, exec_linkCounters d hlen hport hzero hclear, fun hqueue hline => drainPort_idle (hof ▸ hline) (hof ▸ hqueue),
    fun h0 => if_neg (by omega), fun h1 => ?_⟩
  rw [if_pos h1]
  refine ⟨fun k hk => ?_, fun n k hn hk => ?_, rfl⟩
  · rw [linkCount_countersCleared _ _ _ hk, if_pos rfl]
  · rw [linkCount_countersCleared _ _ _ hk, if_neg hn, (drainPort_sends ..).count n k hk (by simp [hn])]
    exact linkCount_congr (by simp) n k

theorem linkDown_falls {s : State} {n cause : Nat} (hn : n < 8) (hup : portUp s n = true) (hcause : cause ∈ [1, 2, 3, 5]) :
    ∃ t, exec (.linkDown n cause) s = .next t ∧
      (portOf t n).state = (if cause = 1 then 3 else if cause = 2 then 5 else if cause = 3 then 4 else 2) ∧
      (portOf t n).remoteFault = decide (cause = 1 ∨ cause = 3) ∧ (portOf t n).changed = nowU s ∧ (portOf t n).queue = [] ∧
      (portOf t n).upCount = (portOf s n).upCount ∧ t.ev.status.getLsbD (16 + n) = true ∧ (∀ j, j ≠ n → portOf t j = portOf s j) := by
  obtain ⟨hqueue, hside, hothers⟩ := stopEgress_port n (decide (cause = 4)) s
  have hport := portOf_linkFalls n cause s n
  rw [if_pos rfl] at hport
  refine ⟨_, exec_linkDown hup hcause, ?state, ?fault, ?changed, ?queue, ?count, linkFalls_status n cause s hn, fun j hj => ?others⟩
  case state => exact congrArg Port.state hport
  case fault => exact congrArg Port.remoteFault hport
  case changed => exact congrArg Port.changed hport
  case queue => exact (congrArg Port.queue hport).trans hqueue
  case count => exact (congrArg Port.upCount hport).trans (congrArg Port.upCount hside :)
  case others => rw [portOf_linkFalls, if_neg hj, hothers j hj]

theorem frameReceived_tests {s : State} {n : Nat} (f : List Byte) (x : RxCheck) (hexists : portExists s n = true)
    (hready : s.pwr.ready.getLsbD 3 = true) :
    let w := countLink n 4 x.uncorrectable (countLink n 3 x.corrected s)
    ((portOf s n).state ≠ 6 → exec (.frameReceived n f x) s = .next w) ∧
    (∀ k c, k < 32 → linkCount (countLink n k c s) n k = (linkCount s n k + c) % 2 ^ 64 ∧
      ∀ m j, j < 32 → (m, j) ≠ (n, k) → linkCount (countLink n k c s) m j = linkCount s m j) ∧
    ((portOf s n).state = 6 → x.fecOk = false → ∃ t, exec (.frameReceived n f x) s = .next t ∧ t.fh = w.fh ∧
      t.ev.status.getLsbD 24 = true ∧ t.dl = s.dl ∧ t.tm = s.tm) ∧
    ((portOf s n).state = 6 → x.fecOk = true → x.fcsOk = false → ∃ t, exec (.frameReceived n f x) s = .next t ∧
      t.fh = (countLink n 2 1 w).fh ∧ t.ev.status.getLsbD 25 = true ∧ t.dl = s.dl ∧ t.tm = s.tm) ∧
    ((portOf s n).state = 6 → x.fecOk = true → x.fcsOk = true → f.length < 64 → ∃ t, exec (.frameReceived n f x) s = .next t ∧
      t.fh = (countLink n 7 1 w).fh ∧ t.ev.status.getLsbD 24 = true ∧ t.dl = s.dl ∧ t.tm = s.tm) ∧
    ((portOf s n).state = 6 → x.fecOk = true → x.fcsOk = true → exec (.frameReceived n f x) s = .next (classify n f w)) := by
  intro w
  have hexec := exec_frameReceived hexists hready f x
  have hpasses : (portOf s n).state = 6 → x.fecOk = true → x.fcsOk = true → exec (.frameReceived n f x) s = .next (classify n f w) :=
    fun hup hfec hfcs => by simp [hexec, hup, hfec, hfcs, w]
  refine ⟨fun hdown => by simp [hexec, hdown, w], fun k c hk => ⟨by simp, fun m j hj hne => ?other⟩, fun hup hfec => ?fec,
    fun hup hfec hfcs => ?fcs, fun hup hfec hfcs hshort => ?short, hpasses⟩
  case other =>
    have hkey : m * 32 + j ≠ n * 32 + k := fun h => hne (by rw [Prod.mk.injEq]; omega)
    simp [hkey]
  case fec =>
    exact ⟨raise 24 (det n 1 0 0 (linkCount w n 4 % 2 ^ 32)) w, by simp [hexec, hup, hfec, w], by simp, raise_status _ _ _ (by decide),
      by simp [w], by simp [w]⟩
  case fcs =>
    exact ⟨raise 25 (det n 0 0 0 (linkCount (countLink n 2 1 w) n 2 % 2 ^ 32)) (countLink n 2 1 w), by simp [hexec, hup, hfec, hfcs, w],
      by simp, raise_status _ _ _ (by decide), by simp [w], by simp [w]⟩
  case short =>
    exact ⟨ingressDrop n 3 7 w, by rw [hpasses hup hfec hfcs, classify_short hshort], by simp [ingressDrop], ingressDrop_status ..,
      by simp [w], by simp [w]⟩

/-- Settles O50: messages, the link's rise and fall, delay measurement and Sync exchange, and the tests of a received frame. -/
theorem fronthaulPorts : Obligations.FronthaulPorts := by
  unfold Obligations.FronthaulPorts
  refine ⟨⟨fun ring dma s h p d => exec_linkStatus d, linkCounters_report, fun s n hexists hready hdown hpll => ?up,
    fun s n cause => linkDown_falls, fun s n => ⟨fun h => ?measuring, fun h => ?unmeasured⟩,
    fun s n t1 t2 t3 t4 hsource hmaster hmask hup => ⟨fun lost hlost => ?lost, fun hroom => ?measures, fun hqueue _ hline =>
      ptpSyncExchange_takesLine hsource hmaster hmask hup t1 t2 t3 t4 hqueue hline⟩⟩, fun s n f x _ => frameReceived_tests f x⟩
  case up =>
    refine ⟨_, exec_linkUp hexists hready hdown hpll, ?_, fun j hj => ?_, ?_⟩
    · split <;> exact (portOf_setPort ..).trans (if_pos rfl)
    · split <;> exact (portOf_setPort ..).trans (if_neg hj)
    · split <;> rfl
  case measuring => rw [exec_type5ResponseTimeout, if_pos h]
  case unmeasured => rw [exec_type5ResponseTimeout, if_neg (by simp [h])]
  case lost =>
    exact ⟨_, exec_ptpSyncExchange_lost hsource hmaster hmask hup t1 t2 t3 t4 hlost, (delayReqQueued_frame n t3 s).1,
      delayReqQueued_ptpRx n t3 s⟩
  case measures =>
    exact ⟨_, exec_ptpSyncExchange_measures hsource hmaster hmask hup t1 t2 t3 t4 hroom, delayReqQueued_ptpRx n t3 s,
      fun j hj => delayReqQueued_others n t3 s hj, delayReqQueued_counted n t3 s, (delayReqQueued_frame n t3 s).2⟩

end Sys2Proof.Machine
end

section
/-! SUPPORT. The rows of the uplink's exports (R75, R96, R97, R130, R157, R160, R173 to R176): what sections and repetitions leave of the
PRACH runs, the fragment on the line, the runs of an occasion, and from them O59. -/

namespace Sys2Proof.Machine

/-! ### Exports leave the PRACH runs alone -/

theorem foldl_prach {α : Type} {g : State → α → State} (h : ∀ t x, (g t x).ul.prach = t.ul.prach) (l : List α) (s : State) :
    (l.foldl g s).ul.prach = s.ul.prach :=
  List.foldlRecOn (motive := fun t : State => t.ul.prach = s.ul.prach) l g rfl fun t ht x _ => (h t x).trans ht

@[simp] theorem countParity_prach (s : State) (e : Nat × Int) : (countParity s e).ul.prach = s.ul.prach := by
  unfold countParity
  split <;> simp

@[simp] theorem antennaEvents_prach (n : SymName) (railed : List Nat) (xs : List (Nat × AntennaSym)) (buffer : List Bool) (s : State) :
    (antennaEvents n railed xs buffer s).ul.prach = s.ul.prach := by
  unfold antennaEvents
  simp [foldl_prach]

@[simp] theorem sendFragment_prach (f : Flow) (h : UlHead) (m : List Byte) (s : State) : (sendFragment f h m s).ul.prach = s.ul.prach := by
  unfold sendFragment
  dsimp only
  split <;> simp

@[simp] theorem sendSection_prach (im : Image) (f : Flow) (h : UlHead) (payload : List Byte) (s : State) :
    (sendSection im f h payload s).ul.prach = s.ul.prach := by
  unfold sendSection
  refine (foldl_prach (fun t k => sendFragment_prach ..) _ _).trans ?_
  split <;> simp

@[simp] theorem exportSection_prach (im : Image) (f : Flow) (h : UlHead) (payload : List Byte) (sat : Nat) (o : UlObs) (s : State) :
    (exportSection im f h payload sat o s).ul.prach = s.ul.prach := by
  unfold exportSection
  dsimp only
  split_ifs <;> simp

@[simp] theorem exportAntenna_prach (im : Image) (n : SymName) (air : Instant) (o : UlObs) (xs : List AntennaSym) (fl : List AntennaFlags)
    (f : Flow) (s : State) : (exportAntenna im n air o xs fl f s).ul.prach = s.ul.prach := exportSection_prach ..

@[simp] theorem exportStream_prach (im : Image) (n : SymName) (air : Instant) (o : UlObs) (xs : List AntennaSym) (fl : List AntennaFlags)
    (f : Flow) (s : State) : (exportStream im n air o xs fl f s).ul.prach = s.ul.prach := by
  unfold exportStream
  refine (exportSection_prach ..).trans ?_
  simp

@[simp] theorem dropMarks_prach (c : Nat) (air now : Instant) (s : State) : (dropMarks c air now s).ul.prach = s.ul.prach := rfl

@[simp] theorem exportSymbol_prach (im : Image) (n : SymName) (air fin : Instant) (o : UlObs) (s : State) :
    (exportSymbol im n air fin o s).ul.prach = s.ul.prach := by
  unfold exportSymbol
  rw [dropMarks_prach]
  split
  · refine (foldl_prach (fun t f => ?_) _ _).trans (antennaEvents_prach ..)
    split <;> simp
  · exact antennaEvents_prach ..

@[simp] theorem countRepetition_prach (e : PrachEntry) (frame rep : Nat) (n : SymName) (xs : List (Nat × AntennaSym)) (buffer : List Bool)
    (s : State) : (countRepetition e frame rep n xs buffer s).ul.prach = s.ul.prach := by
  unfold countRepetition
  split
  · rfl
  · simp [foldl_prach]

/-! ### UL_EXPORT (R75, R157, R160) -/

/-- A name's image is one of those that give the name a meaning. -/
theorem pickNamed_mem {now lead : Instant} {last : Option Instant} {l : List (Image × Instant)} {im : Image}
    (h : pickNamed now lead last l = some im) : ∃ t, (im, t) ∈ l := by
  unfold pickNamed at h
  split at h
  next e he =>
    obtain rfl := Option.some.inj h
    exact ⟨e.2, List.mem_of_find?_eq_some he⟩
  next =>
    obtain ⟨e, he, rfl⟩ := Option.map_eq_some_iff.mp h
    exact ⟨e.2, List.mem_of_getLast? he⟩

theorem exportImage_enabled {s : State} {n : SymName} {im : Image} (h : exportImage s n = some im) : ccEnabled im true n.carrier = true := by
  obtain ⟨t, ht⟩ := pickNamed_mem h
  obtain ⟨e, -, he⟩ := List.mem_filterMap.mp ht
  dsimp only at he
  split at he
  next hc =>
    obtain ⟨rfl, -⟩ := Prod.mk.inj (Option.some.inj he)
    simp only [Bool.and_eq_true] at hc
    exact hc.1.1
  next => cases he

theorem ccEnabled_lt {im : Image} {ul : Bool} {c : Nat} (h : ccEnabled im ul c = true) : c < 4 := by
  simp only [ccEnabled, Bool.and_eq_true, decide_eq_true_eq] at h
  exact h.1

/-- Of a carrier's marks only those of later symbols stay. -/
theorem dropMarks_serves {c : Nat} {air now : Instant} {s : State} {m : UlMark} (hm : m ∈ (dropMarks c air now s).ul.marks)
    (hc : m.carrier = c) (hcarrier : c ≠ noCarrier) : air < m.air := by
  have := (List.mem_filter.mp hm).2
  rw [if_neg (hc ▸ hcarrier)] at this
  simpa [hc] using this

theorem exec_ulExport {s : State} {n : SymName} {im : Image} (him : exportImage s n = some im) (o : UlObs) :
    let mu := ccMu im true n.carrier
    let air := airOf mu n
    let len := symTicks mu (symIndex mu n)
    let fin := air + tk len
    ulRuns s air fin = true →
      exec (.ulExport n o) s = .next (serve n.carrier air (exportSymbol im n air fin o (advanceTo (fin + tk len + tk exportTicks) s))) := by
  intro mu air len fin hruns
  simp only [exec, execUlExport, him]
  exact if_pos hruns

/-! ### Fragments (R96, R97, R130) -/

section
variable (f : Flow) (h : UlHead) (m : List Byte) {s : State}

/-- A fragment as it is handed to its port: counted, and its SEQ_ID used up. -/
def fragmentNumbered (s : State) : State :=
  let s1 := digestMessage f.port h.air m s
  statAdd 0x13 f.idx 1 1 { s1 with ul := { s1.ul with
    seq := tset 0 s1.ul.seq (seqKey s f) ((tget 0 s.ul.seq (seqKey s f) + 1) % 256) } }

@[simp] theorem fragmentNumbered_frame : (fragmentNumbered f h m s).fh = s.fh ∧ (fragmentNumbered f h m s).tm = s.tm ∧
    (fragmentNumbered f h m s).cfg = s.cfg ∧ (fragmentNumbered f h m s).out = s.out := by
  simp [fragmentNumbered]

theorem sendFragment_up (hup : portUp s f.port = true) : sendFragment f h m s =
    transmit f.port (ulFrame f h.typ (tget 0 s.ul.seq (seqKey s f)) m (nowU s)) (fragmentNumbered f h m s) := by
  unfold sendFragment
  rw [if_pos hup]
  rfl

theorem sendFragment_down (hdown : portUp s f.port = false) : sendFragment f h m s =
    raise 51 (detSym f.idx f.port 2 h.sym) (countLink f.port 21 1 (statAdd 0x13 f.idx 4 1 (digestMessage f.port h.air m s))) := by
  unfold sendFragment
  rw [if_neg (by simp [hdown])]

/-- A fragment on an up port takes the flow's next SEQ_ID and leaves every other count of messages alone. -/
theorem sendFragment_seq (hup : portUp s f.port = true) (j : Nat) : tget 0 (sendFragment f h m s).ul.seq j =
    if j = seqKey s f then (tget 0 s.ul.seq (seqKey s f) + 1) % 256 else tget 0 s.ul.seq j := by
  rw [sendFragment_up f h m hup]
  simp [fragmentNumbered, tget_tset]

/-- An idle line takes the fragment now. -/
theorem sendFragment_idle (hup : portUp s f.port = true) (hqueue : (portOf s f.port).queue = []) (hkept : (portOf s f.port).kept = [])
    (hline : (portOf s f.port).line = none) (hbusy : (portOf s f.port).busy ≤ nowU s) :
    let b := formed (imageAt s (nowU s)) f.port (ulFrame f h.typ (tget 0 s.ul.seq (seqKey s f)) m (nowU s))
    (portOf (sendFragment f h m s) f.port).line = some ⟨f.idx, b, nowU s + lineU s (b.length + 12)⟩ ∧
      (portOf (sendFragment f h m s) f.port).queue = [] ∧ (sendFragment f h m s).out = s.out := by
  intro b
  let g := ulFrame f h.typ (tget 0 s.ul.seq (seqKey s f)) m (nowU s)
  let w := fragmentNumbered f h m s
  have hport : portOf w f.port = portOf s f.port := portOf_congr (by simp [w]) _
  have hnow : nowU w = nowU s := nowU_congr (by simp [w])
  have himage : imageAt w = imageAt s := funext fun t => imageAt_congr (by simp [w]) t
  have hlineU : lineU w = lineU s := funext fun k => lineU_congr (by simp [w]) k
  have hstart : max (portOf w f.port).busy g.since = nowU s := by
    rw [hport]
    exact max_eq_right hbusy
  have hsent : sendFragment f h m s = startFrame f.port (nowU s) g (setPort f.port (enqueue g (portOf w f.port)) w) := by
    have hidle := transmit_idle (s := w) (n := f.port) (g := g) (by rw [hport, hqueue]) (by rw [hport, hline])
    rw [hstart, hnow, himage, hlineU] at hidle
    rw [sendFragment_up f h m hup, hidle le_rfl (lt_add_of_pos_right _ (lineU_pos s (by omega)))]
  have hstarted := startFrame_unstamped f.port (nowU s) (rfl : g.stamp = none) (setPort f.port (enqueue g (portOf w f.port)) w)
  refine ⟨?line, ?queue, ?out⟩
  case line =>
    rw [hsent, startFrame_line]
    simp only [imageAt_setPort, lineU_setPort, himage, hlineU]
    rfl
  case queue =>
    rw [hsent, hstarted, portOf_setPort, if_pos rfl]
    simp [portStarting, giveKept, hport, hkept, enqueue_empty hqueue]
  case out =>
    rw [hsent, hstarted]
    simp [w]

end

/-! ### PRACH_OCCASION (R173, R176) -/

/-- The run of an occasion on a flow before its first repetition. -/
def newRun (im : Image) (e : PrachEntry) (frame : Nat) (f : Flow) (missing : Bool) (w : List IQ) : PrachRun :=
  ⟨im, f.idx, e.idx, e.occ, frame, occasionStart e frame, e.reps, 0, missing, w⟩

/-- A run begins on a flow with the weights that an occasion selects for it; one whose vector is missing is counted and reported (R174). -/
def runBegun (im : Image) (e : PrachEntry) (frame : Nat) (n : SymName) (f : Flow) (gw : GroupWeights) (s : State) : State :=
  match gw with
  | .weights w => { s with ul := { s.ul with prach := s.ul.prach ++ [newRun im e frame f false w] } }
  | .missing c x => reportMissing true f.index n [(0, c, x)]
      (statAdd 0x13 f.idx 6 1 { s with ul := { s.ul with prach := s.ul.prach ++ [newRun im e frame f true []] } })
  | .unscheduled => s

section
variable (im : Image) (e : PrachEntry) (frame : Nat) (n : SymName)

theorem runBegun_prach (f : Flow) (gw : GroupWeights) (s : State) :
    ∃ l, (runBegun im e frame n f gw s).ul.prach = s.ul.prach ++ l ∧ l.length ≤ 1 := by
  cases gw with
  | unscheduled => exact ⟨[], (List.append_nil _).symm, by decide⟩
  | missing c x => exact ⟨[newRun im e frame f true []], by simp [runBegun], le_rfl⟩
  | weights w => exact ⟨[newRun im e frame f false w], rfl, le_rfl⟩

/-- An occasion loads what its weights need, which is none of the uplink's state, and begins its run. -/
theorem beginOccasion_loads (fx : Flow × Section) (s : State) :
    ∃ gw w, w.ul = s.ul ∧ beginOccasion im e frame n fx s = runBegun im e frame n fx.1 gw w := by
  refine ⟨_, _, ?_, rfl⟩
  split
  · simp
  · simp
  · split <;> simp
  · rfl

/-- An occasion on a flow begins at most one run. -/
theorem beginOccasion_prach (fx : Flow × Section) (s : State) :
    ∃ l, (beginOccasion im e frame n fx s).ul.prach = s.ul.prach ++ l ∧ l.length ≤ 1 := by
  obtain ⟨gw, w, hw, heq⟩ := beginOccasion_loads im e frame n fx s
  rw [heq, ← hw]
  exact runBegun_prach ..

theorem beginOccasions_prach (flows : List (Flow × Section)) (s : State) :
    ∃ l, (flows.foldl (fun t fx => beginOccasion im e frame n fx t) s).ul.prach = s.ul.prach ++ l ∧ l.length ≤ flows.length := by
  induction flows generalizing s with
  | nil => exact ⟨[], by simp⟩
  | cons fx flows ih =>
    obtain ⟨l, hl, hlen⟩ := beginOccasion_prach im e frame n fx s
    obtain ⟨k, hk, hklen⟩ := ih (beginOccasion im e frame n fx s)
    refine ⟨l ++ k, ?_, ?_⟩
    · rw [List.foldl_cons, hk, hl, List.append_assoc]
    · rw [List.length_append, List.length_cons]
      omega

end

/-- The flows on which a control section enables an occasion, each with its section (R122, R173). -/
def occasionFlows (im : Image) (e : PrachEntry) (frame : Nat) (s : State) : List (Flow × Section) :=
  ((governingFlows im).filter fun f => decide (f.cc = e.cc) && decide (f.kind = 4 ∨ f.kind = 5)).filterMap fun f =>
    (prachControl s im f e.occ (occasionSym im e frame)).map fun x => (f, x)

/-- An occasion that would begin more runs than may be under way: it begins none, and each flow counts it (R176, log 76). -/
def occasionDropped (e : PrachEntry) (sym : SymName) (flows : List (Flow × Section)) (s : State) : State :=
  raise 52 (detSym e.idx e.cc e.occ sym) (flows.foldl (fun t fx => statAdd 0x13 fx.1.idx 7 1 t) s)

@[simp] theorem occasionDropped_ul (e : PrachEntry) (sym : SymName) (flows : List (Flow × Section)) (s : State) :
    (occasionDropped e sym flows s).ul = s.ul := by
  simp [occasionDropped]

theorem exec_prachOccasion {s : State} {n frame : Nat} {im : Image} (him : occasionImage s n frame = some im) :
    let e := prachAt im n
    let at_ := occasionStart e frame
    let w := serve (1024 + n) at_ (advanceTo at_ s)
    let flows := occasionFlows im e frame w
    let sym := occasionSym im e frame
    prachIn e frame = true → ccEnabled im true e.cc = true → prachCollides im e frame = false → ulRuns s at_ at_ = true →
      exec (.prachOccasion n frame) s = .next (if flows = [] then w
        else if 32 < w.ul.prach.length + flows.length then
          occasionDropped e sym flows w
        else flows.foldl (fun t fx => beginOccasion im e frame sym fx t) w) := by
  intro e at_ w flows sym hin henabled hcollides hruns
  simp only [exec, execPrachOccasion, him]
  refine (if_pos (by simp [e, at_, hin, henabled, hcollides, hruns])).trans ?_
  rw [apply_ite Host.Outcome.next, apply_ite Host.Outcome.next]
  rfl

/-! ### PRACH_EXPORT (R174, R175) -/

/-- The runs once repetition `rep` of a run has been exported: it moves on or, with the last one, ends. -/
def runMovedOn (r : PrachRun) (rep : Nat) (l : List PrachRun) : List PrachRun :=
  l.filterMap fun q => if q = r then (if rep + 1 = r.reps then none else some { r with done := rep + 1 }) else some q

theorem exportRepetition_prach (im : Image) (e : PrachEntry) (f : Flow) (r : PrachRun) (rep : Nat) (o : UlObs) (s : State) :
    (exportRepetition im e f r rep o s).ul.prach = runMovedOn r rep s.ul.prach := by
  unfold exportRepetition
  simp [runMovedOn]

/-- The run as it stood is gone. -/
theorem not_mem_runMovedOn {r : PrachRun} {rep : Nat} (h : r.done = rep) (l : List PrachRun) : r ∉ runMovedOn r rep l := by
  intro hr
  obtain ⟨q, -, hq⟩ := List.mem_filterMap.mp hr
  split_ifs at hq with hqr
  · have := congrArg PrachRun.done (Option.some.inj hq)
    simp only at this
    omega
  · exact hqr (Option.some.inj hq)

theorem mem_runMovedOn {r q : PrachRun} {rep : Nat} {l : List PrachRun} (hq : q ∈ l) (hne : q ≠ r) : q ∈ runMovedOn r rep l :=
  List.mem_filterMap.mpr ⟨q, hq, if_neg hne⟩

theorem exec_prachExport {s : State} {flow occ rep : Nat} {r : PrachRun} (o : UlObs)
    (hr : s.ul.prach.find? (fun q => decide (q.flow = flow) && decide (q.occasion = occ) && decide (q.done = rep)) = some r) :
    let e := prachAt r.image r.entry
    let fin := r.start + tk e.cp + tk ((rep + 1) * prachTicks e.fmt)
    exec (.prachExport flow occ rep o) s = .next (if ulRuns s r.start fin then
        exportRepetition r.image e (flowAt r.image flow) r rep o (advanceTo (fin + tk 88473) s)
      else { s with ul := { s.ul with prach := s.ul.prach.filter fun q => decide (q ≠ r) } }) := by
  intro e fin
  simp only [exec, execPrachExport, hr]
  split <;> rfl

/-! ### The clauses of O59 -/

theorem ulExport_serves {s : State} {n : SymName} {im : Image} (o : UlObs) (him : exportImage s n = some im) :
    let mu := ccMu im true n.carrier
    let air := airOf mu n
    ulRuns s air (air + tk (symTicks mu (symIndex mu n))) = true →
    ∃ t, exec (.ulExport n o) s = .next t ∧ (∀ m ∈ t.ul.marks, m.carrier = n.carrier → air < m.air) ∧ t.ul.prach = s.ul.prach ∧
      t.dl = s.dl ∧ t.pwr = s.pwr ∧ t.cfg = s.cfg := by
  intro mu air hruns
  have hcarrier : n.carrier ≠ noCarrier := Nat.ne_of_lt (ccEnabled_lt (exportImage_enabled him))
  refine ⟨_, exec_ulExport him o hruns, fun m hm hc => dropMarks_serves hm hc hcarrier, ?_, by simp, by simp, by simp⟩
  exact (exportSymbol_prach ..).trans (by simp)

theorem sendFragment_sends (f : Flow) (h : UlHead) (m : List Byte) (s : State) :
    let t := sendFragment f h m s
    let k := seqKey s f
    let q := tget 0 s.ul.seq k
    (portUp s f.port = true → tget 0 t.ul.seq k = (q + 1) % 256 ∧ (∀ j, j ≠ k → tget 0 t.ul.seq j = tget 0 s.ul.seq j) ∧
      ((portOf s f.port).queue = [] → (portOf s f.port).kept = [] → (portOf s f.port).line = none → (portOf s f.port).busy ≤ nowU s →
        let b := formed (imageAt s (nowU s)) f.port (ulFrame f h.typ q m (nowU s))
        (portOf t f.port).line = some ⟨f.idx, b, nowU s + lineU s (b.length + 12)⟩ ∧ (portOf t f.port).queue = [] ∧ t.out = s.out)) ∧
    (portUp s f.port = false → t.ul = s.ul ∧ linkCount t f.port 21 = (linkCount s f.port 21 + 1) % 2 ^ 64 ∧
      t.ev.status.getLsbD 51 = true) := by
  intro t k q
  refine ⟨fun hup => ⟨?next, fun j hj => ?others, sendFragment_idle f h m hup⟩, fun hdown => ?dropped⟩
  case next => exact (sendFragment_seq f h m hup k).trans (if_pos rfl)
  case others => exact (sendFragment_seq f h m hup j).trans (if_neg hj)
  case dropped =>
    have ht : t = _ := sendFragment_down f h m hdown
    refine ⟨by simp [ht], ?_, by rw [ht]; exact raise_status _ _ _ (by decide)⟩
    have hcount : linkCount (statAdd 0x13 f.idx 4 1 (digestMessage f.port h.air m s)) f.port 21 = linkCount s f.port 21 :=
      linkCount_congr (by simp) _ _
    rw [ht, linkCount_raise, linkCount_countLink, if_pos rfl, hcount]

theorem prachOccasion_begins {s : State} {n frame : Nat} {im : Image} (him : occasionImage s n frame = some im) :
    let e := prachAt im n
    let at_ := occasionStart e frame
    let w := serve (1024 + n) at_ (advanceTo at_ s)
    let flows := occasionFlows im e frame w
    prachIn e frame = true → ccEnabled im true e.cc = true → prachCollides im e frame = false →
    ulRuns s at_ at_ = true → ∃ t, exec (.prachOccasion n frame) s = .next t ∧ s.ul.prach <+: t.ul.prach ∧
      (flows = [] → t = w) ∧ (s.ul.prach.length + flows.length ≤ 32 → t.ul.prach.length ≤ 32) ∧
      (32 < s.ul.prach.length + flows.length → flows ≠ [] → t.ul.prach = s.ul.prach ∧ t.ev.status.getLsbD 52 = true) := by
  intro e at_ w flows hin henabled hcollides hruns
  have hw : w.ul.prach = s.ul.prach := by simp [w, serve]
  have hexec := exec_prachOccasion him hin henabled hcollides hruns
  by_cases hnone : flows = []
  · exact ⟨w, by rw [hexec, if_pos hnone], hw ▸ List.prefix_rfl, fun _ => rfl, fun h => by simpa [hw, hnone] using h,
      fun _ h => absurd hnone h⟩
  by_cases hover : 32 < w.ul.prach.length + flows.length
  · refine ⟨_, by rw [hexec, if_neg hnone, if_pos hover], ?_, fun h => absurd h hnone, fun h => ?_, fun _ _ => ⟨?_, ?_⟩⟩
    · rw [occasionDropped_ul, hw]
    · rw [hw] at hover
      omega
    · rw [occasionDropped_ul, hw]
    · exact raise_status _ _ _ (by decide)
  · obtain ⟨l, hl, hlen⟩ := beginOccasions_prach im e frame (occasionSym im e frame) flows w
    rw [hw] at hl hover
    refine ⟨_, by rw [hexec, if_neg hnone, hw, if_neg hover], hl ▸ List.prefix_append .., fun h => absurd h hnone, fun h => ?_,
      fun h => absurd h hover⟩
    rw [hl, List.length_append]
    omega

theorem prachExport_movesOn {s : State} {flow occ rep : Nat} {r : PrachRun} (o : UlObs)
    (hr : s.ul.prach.find? (fun q => decide (q.flow = flow) && decide (q.occasion = occ) && decide (q.done = rep)) = some r) :
    ∃ t, exec (.prachExport flow occ rep o) s = .next t ∧ r ∉ t.ul.prach ∧ (∀ q ∈ s.ul.prach, q ≠ r → q ∈ t.ul.prach) ∧
      t.dl = s.dl ∧ t.pwr = s.pwr ∧ t.cfg = s.cfg := by
  have hdone : r.done = rep := by
    have := List.find?_some hr
    simp only [Bool.and_eq_true, decide_eq_true_eq] at this
    exact this.2
  refine ⟨_, exec_prachExport o hr, ?_⟩
  split
  · refine ⟨?_, fun q hq hne => ?_, by simp, by simp, by simp⟩
    · rw [exportRepetition_prach]
      exact not_mem_runMovedOn hdone _
    · rw [exportRepetition_prach]
      exact mem_runMovedOn (by simpa using hq) hne
  · exact ⟨by simp, fun q hq hne => by simp [hq, hne], rfl, rfl, rfl⟩

/-- Settles O59: exported symbols, fragments and what leaves the line, and the runs of PRACH occasions. -/
theorem uplinkExports : Obligations.UplinkExports := by
  unfold Obligations.UplinkExports
  exact ⟨fun s sym o im him => ulExport_serves o him, sendFragment_sends, fun s n x => drainPort_out,
    fun s n frame im him => prachOccasion_begins him, fun s flow occ rep o r hr => prachExport_movesOn o hr⟩

end Sys2Proof.Machine
end

section
/-! SUPPORT. Frame IDs (R110): the span of frames that an ID is resolved in, the frame that holds an instant, and the frame field of a
sent section, and from them O56. -/

namespace Sys2Proof.Machine

/-! ### Received sections -/

theorem resolveFrame_emod (id : Nat) (t : Instant) : resolveFrame id t % 65536 = (id : Int) % 65536 := by
  rw [resolveFrame, Int.add_emod_emod, add_sub_cancel]

theorem resolveFrame_near (id : Nat) (t : Instant) :
    frameOf t - 32768 ≤ resolveFrame id t ∧ resolveFrame id t ≤ frameOf t + 32767 := by
  have hlow := Int.emod_nonneg ((id : Int) - (frameOf t - 32768)) (show (65536 : Int) ≠ 0 by decide)
  have hhigh := Int.emod_lt_of_pos ((id : Int) - (frameOf t - 32768)) (show (0 : Int) < 65536 by decide)
  constructor <;> unfold resolveFrame <;> omega

/-- The span of R110 is 65,536 frames long, so that no two frames in it share an ID. -/
theorem frame_eq_of_id_eq {now f g : Int} (hid : f % 65536 = g % 65536) (hf : now - 32768 ≤ f ∧ f ≤ now + 32767)
    (hg : now - 32768 ≤ g ∧ g ≤ now + 32767) : f = g := by
  have hdvd : (65536 : Int) ∣ f - g := Int.ModEq.dvd hid.symm
  have hzero : f - g = 0 := Int.eq_zero_of_abs_lt_dvd hdvd (abs_lt.mpr ⟨by omega, by omega⟩)
  exact Int.sub_eq_zero.mp hzero

theorem frameOf_holds (t : Instant) : frameOf t * (frameU : Int) ≤ t ∧ t < (frameOf t + 1) * (frameU : Int) :=
  have hpos : (0 : Int) < frameU := by decide
  ⟨Int.ediv_mul_le t hpos.ne', Int.lt_ediv_add_one_mul_self t hpos⟩

/-! ### Sent sections -/

/-- The frame ID stands at offset 2 of a header, whatever follows (Table 5-1). -/
theorem slice_ulHeader_frame (typ : Nat) (sym : SymName) (rest : List Byte) :
    slice (ulHeader typ sym ++ rest) 2 2 = leBytes 2 sym.frame := rfl

theorem leNat_two_bytes (v : Nat) : leNat (leBytes 2 v) = v % 65536 := by
  simp only [leBytes, leNat, BitVec.toNat_ofNat]
  omega

theorem fragmentMessage_frame (f : Flow) (h : UlHead) (payload : List Byte) (n m k : Nat) :
    u (fragmentMessage f h payload n m k) 2 2 = h.sym.frame % 65536 := by
  simp only [u, fragmentMessage, List.append_assoc, slice_ulHeader_frame, leNat_two_bytes]

/-- Settles O56: the resolved frame, its uniqueness, the frame of the arrival, and the frame field sent. -/
theorem frameIdsResolve : Obligations.FrameIdsResolve := by
  unfold Obligations.FrameIdsResolve
  refine ⟨fun id t => ⟨⟨resolveFrame_emod id t, resolveFrame_near id t⟩, fun f hid hlow hhigh => ?_⟩, frameOf_holds,
    fragmentMessage_frame⟩
  exact frame_eq_of_id_eq (hid.trans (resolveFrame_emod id t).symm) ⟨hlow, hhigh⟩ (resolveFrame_near id t)

end Sys2Proof.Machine
end

section
/-! SUPPORT. Gain steps (R165 to R169): what marking, counting and reporting leave of the gains, one rule per operation on them, one
equation per row, and from them O60. -/

namespace Sys2Proof.Machine

/-! ### Operations that leave the gains alone -/

/-- What reporting leaves of the uplink: planned gains, reductions and triggers stay, and no mark is taken away. -/
structure KeepsGains (s t : State) : Prop where
  planned : t.ul.planned = s.ul.planned
  reduction : t.ul.reduction = s.ul.reduction
  trigger : t.ul.trigger = s.ul.trigger
  marks : s.ul.marks ⊆ t.ul.marks

namespace KeepsGains

variable {r s t : State}

theorem of_ul (h : t.ul = s.ul) : KeepsGains s t := ⟨by rw [h], by rw [h], by rw [h], by rw [h]; exact List.Subset.refl _⟩

theorem refl (s : State) : KeepsGains s s := of_ul rfl

theorem trans (h : KeepsGains r s) (k : KeepsGains s t) : KeepsGains r t :=
  ⟨k.planned.trans h.planned, k.reduction.trans h.reduction, k.trigger.trans h.trigger, List.Subset.trans h.marks k.marks⟩

theorem foldl {α : Type} {g : State → α → State} (h : ∀ t x, KeepsGains t (g t x)) (l : List α) (s : State) : KeepsGains s (l.foldl g s) :=
  List.foldlRecOn (motive := KeepsGains s) l g (refl s) fun t ht x _ => ht.trans (h t x)

theorem plannedGain (h : KeepsGains s t) (p : Nat) : plannedGain t p = Machine.plannedGain s p := by
  rw [Machine.plannedGain, Machine.plannedGain, h.planned]

theorem appliedGain (h : KeepsGains s t) (p : Nat) : appliedGain t p = Machine.appliedGain s p := by
  rw [Machine.appliedGain, Machine.appliedGain, h.plannedGain, h.reduction]

end KeepsGains

theorem addMark_keepsGains (c : Nat) (air : Instant) (p flag : Nat) (step : Int) (s : State) : KeepsGains s (addMark c air p flag step s) :=
  ⟨rfl, rfl, rfl, List.subset_append_left ..⟩

theorem markInterval_keepsGains (paths : List Nat) (a b : Instant) (flag : Nat) (s : State) :
    KeepsGains s (markInterval paths a b flag s) :=
  ⟨rfl, rfl, rfl, List.Subset.trans (List.subset_append_left ..) (List.subset_append_left ..)⟩

theorem noteGain_keepsGains (p : Nat) (t : Instant) (old : Nat) (s : State) : KeepsGains s (noteGain p t old s) :=
  ⟨rfl, rfl, rfl, List.Subset.refl _⟩

theorem serve_keepsGains (k : Nat) (air : Instant) (s : State) : KeepsGains s (serve k air s) := ⟨rfl, rfl, rfl, List.Subset.refl _⟩

theorem statAdd_keepsGains (src r w n : Nat) (s : State) : KeepsGains s (statAdd src r w n s) := .of_ul rfl

theorem raise_keepsGains (e : Nat) (d : List Byte) (s : State) : KeepsGains s (raise e d s) := .of_ul (by simp)

theorem advanceTo_keepsGains (t : Instant) (s : State) : KeepsGains s (advanceTo t s) := .of_ul (by simp)

theorem reportStep_keepsGains (im : Image) (p : Nat) (b : Instant) (old : Nat) (s : State) : KeepsGains s (reportStep im p b old s) := by
  unfold reportStep
  dsimp only
  split
  · exact .refl s
  · refine (((noteGain_keepsGains ..).trans (statAdd_keepsGains ..)).trans (addMark_keepsGains ..)).trans (.foldl (fun t c => ?_) _ _)
    split <;> exact addMark_keepsGains ..

/-! ### Planned steps (R165, R166) -/

/-- Clamping to 0 to 30 dB loses nothing by keeping the gain as a natural number. -/
theorem clampI_gain_toNat (v : Int) : ((clampI 0 30 v).toNat : Int) = clampI 0 30 v :=
  Int.toNat_of_nonneg (by unfold clampI; split_ifs <;> omega)

section
variable (im : Image) (b : Instant) (p : Nat) (step : Int) (s : State)

theorem plannedStep_planned :
    (plannedStep im b p step s).ul.planned = tset 20 s.ul.planned p (clampI 0 30 (plannedGain s p + step)).toNat :=
  (reportStep_keepsGains ..).planned

theorem plannedStep_reduction : (plannedStep im b p step s).ul.reduction = s.ul.reduction := (reportStep_keepsGains ..).reduction

theorem plannedGain_plannedStep_self : (plannedGain (plannedStep im b p step s) p : Int) = clampI 0 30 (plannedGain s p + step) := by
  rw [plannedGain, plannedStep_planned, tget_tset, if_pos rfl, clampI_gain_toNat]

theorem plannedGain_plannedStep_other {q : Nat} (hq : q ≠ p) : plannedGain (plannedStep im b p step s) q = plannedGain s q := by
  rw [plannedGain, plannedStep_planned, tget_tset, if_neg hq, plannedGain]

end

/-- Step that the source of an image's gain steps gives a path on a symbol: the AGC entries on the timing carrier, or the symbol's AGC
step section (Table 7-4, R169). -/
def symbolStep (s : State) (im : Image) (p : Nat) (n : SymName) : Int :=
  if cf im 11 0 1 = 1 ∧ n.carrier = timingCarrier im then entrySteps im p n
  else if cf im 11 0 1 = 2 then sectionStep s im p n else 0

theorem exec_agcStep {s : State} {p : Nat} {n : SymName} {im : Image} (him : stepImage s p n = some im) (hp : p < 64)
    (hservice : isService s.pwr.mode = true) (hstep : symbolStep s im p n ≠ 0) :
    let b := airOf (ccMu im true n.carrier) n
    exec (.agcStep p n) s = .next (plannedStep im b p (symbolStep s im p n) (serve (stepKey p n.carrier) b (advanceTo b s))) := by
  simp only [exec, execAgcStep, him]
  exact if_pos ⟨hp, hservice, hstep⟩

/-! ### Rail samples (R168) -/

/-- A rail sample is marked at its own instant, once. -/
def railNoted (p : Nat) (s : State) (t : Instant) : State :=
  if s.ul.marks.any fun m => decide (m = ⟨noCarrier, t, p, 5, 0⟩) then s else addMark noCarrier t p 5 0 s

theorem railNoted_keepsGains (p : Nat) (s : State) (t : Instant) : KeepsGains s (railNoted p s t) := by
  unfold railNoted
  split
  · exact .refl s
  · exact addMark_keepsGains ..

theorem railNoted_marks (p : Nat) (s : State) (t : Instant) : (⟨noCarrier, t, p, 5, 0⟩ : UlMark) ∈ (railNoted p s t).ul.marks := by
  unfold railNoted
  split
  next h => simpa using h
  next => simp [addMark]

/-- Beside that the symbols that hold the sample are marked, counted and raised. -/
theorem markRail_notes (p : Nat) (s : State) (t : Instant) : KeepsGains (railNoted p s t) (markRail p s t) := by
  refine .foldl (fun u c => ?_) _ _
  dsimp only
  split
  · exact .refl u
  · exact ((addMark_keepsGains ..).trans (statAdd_keepsGains ..)).trans (raise_keepsGains ..)

theorem markRail_keepsGains (p : Nat) (s : State) (t : Instant) : KeepsGains s (markRail p s t) :=
  (railNoted_keepsGains p s t).trans (markRail_notes p s t)

theorem markRail_marks (p : Nat) (s : State) (t : Instant) : (⟨noCarrier, t, p, 5, 0⟩ : UlMark) ∈ (markRail p s t).ul.marks :=
  (markRail_notes p s t).marks (railNoted_marks p s t)

theorem markRails_marks (p : Nat) {rails : List Instant} {a : Instant} (ha : a ∈ rails) (s : State) :
    (⟨noCarrier, a, p, 5, 0⟩ : UlMark) ∈ (rails.foldl (markRail p) s).ul.marks := by
  induction rails generalizing s with
  | nil => cases ha
  | cons b rails ih =>
    rcases List.mem_cons.mp ha with rfl | ha
    · exact (KeepsGains.foldl (markRail_keepsGains p) rails _).marks (markRail_marks p s a)
    · exact ih ha _

/-! ### Protection steps (R167) -/

section
variable (im : Image) (p : Nat) (t : Instant) (s : State)

/-- The trigger of a path is noted, and its reduction grows by the step of section 0x0B unless its applied gain is 0 already. -/
def protectionReduced : State :=
  { s with ul := { s.ul with
    trigger := tset 0 s.ul.trigger p t
    reduction := if appliedGain s p = 0 then s.ul.reduction else tset 0 s.ul.reduction p (tget 0 s.ul.reduction p + cf im 11 4 1) } }

/-- Beside that a protection step marks, counts and raises. -/
theorem protectPath_keepsGains : KeepsGains (protectionReduced im p t s) (protectPath im p t s) := by
  unfold protectPath protectionReduced
  dsimp only
  split
  · exact .refl _
  · exact (((markInterval_keepsGains ..).trans (noteGain_keepsGains ..)).trans (statAdd_keepsGains ..)).trans (raise_keepsGains ..)

theorem protectPath_marks : s.ul.marks ⊆ (protectPath im p t s).ul.marks := (protectPath_keepsGains im p t s).marks

theorem protectPath_planned : (protectPath im p t s).ul.planned = s.ul.planned := (protectPath_keepsGains im p t s).planned

theorem protectPath_reduction (q : Nat) : tget 0 (protectPath im p t s).ul.reduction q =
    tget 0 s.ul.reduction q + if q = p ∧ appliedGain s p ≠ 0 then cf im 11 4 1 else 0 := by
  rw [(protectPath_keepsGains im p t s).reduction, protectionReduced]
  by_cases hzero : appliedGain s p = 0
  · simp [hzero]
  · by_cases hq : q = p <;> simp [hzero, hq, tget_tset]

theorem protectPath_trigger : tget 0 (protectPath im p t s).ul.trigger p = t := by
  rw [(protectPath_keepsGains im p t s).trigger, protectionReduced, tget_tset, if_pos rfl]

theorem protectPath_status (h : appliedGain s p ≠ 0) : (protectPath im p t s).ev.status.getLsbD 48 = true := by
  unfold protectPath
  rw [if_neg h]
  exact raise_status _ _ _ (by decide)

end

section
variable {s : State} {p : Nat} {win : RailWindow}

/-- Rail samples of a window that lie within its last 64 ticks. -/
def lastRails (win : RailWindow) : List Instant := railTimes { win with words := win.words.drop (win.words.length - 64) }

theorem exec_protectionStep (hp : p < 64) (hon : cf (imageAt s win.air) 11 3 1 = 1) (hservice : isService s.pwr.mode = true)
    (henough : cf (imageAt s win.air) 11 5 1 ≤ (lastRails win).length) : exec (.protectionStep p win) s =
      .next (protectPath (imageAt s win.air) p win.air ((lastRails win).foldl (markRail p) (advanceTo win.air s))) := by
  simp only [exec, execProtectionStep]
  exact if_pos ⟨hp, hon, hservice, henough⟩

/-- Below the threshold count the row does nothing (log 108). -/
theorem exec_protectionStep_few (hfew : (lastRails win).length < cf (imageAt s win.air) 11 5 1) :
    exec (.protectionStep p win) s = .next s := by
  simp only [exec, execProtectionStep]
  exact if_neg fun ⟨_, _, _, henough⟩ => absurd henough (not_le.mpr hfew)

end

theorem exec_protectionReturn {s : State} {p : Nat} (hp : p < 64) (hreduced : tget 0 s.ul.reduction p ≠ 0) :
    let t := tget 0 s.ul.trigger p
    let mu := ccMu (imageAt s t) true (timingCarrier (imageAt s t))
    let b := slotStart mu (nextSlot mu (t + 1))
    let w := advanceTo b s
    exec (.protectionReturn p) s = .next (reportStep (imageAt s b) p b (appliedGain w p)
      { w with ul := { w.ul with reduction := tset 0 w.ul.reduction p 0, trigger := tset 0 w.ul.trigger p 0 } }) := by
  simp only [exec, execProtectionReturn]
  exact if_pos ⟨hp, hreduced⟩

/-! ### The clauses of O60 -/

theorem agcStep_moves {s : State} {p : Nat} {n : SymName} {im : Image} (him : stepImage s p n = some im) (hp : p < 64)
    (hservice : isService s.pwr.mode = true) (hstep : symbolStep s im p n ≠ 0) :
    ∃ t, exec (.agcStep p n) s = .next t ∧ (plannedGain t p : Int) = clampI 0 30 (plannedGain s p + symbolStep s im p n) ∧
      (∀ q, q ≠ p → plannedGain t q = plannedGain s q) ∧ t.ul.reduction = s.ul.reduction ∧ t.pwr = s.pwr ∧ t.cfg = s.cfg := by
  have hserved (b : Instant) : KeepsGains s (serve (stepKey p n.carrier) b (advanceTo b s)) :=
    (advanceTo_keepsGains b s).trans (serve_keepsGains ..)
  refine ⟨_, exec_agcStep him hp hservice hstep, ?_, fun q hq => ?_, ?_, by simp, by simp⟩
  · rw [plannedGain_plannedStep_self, (hserved _).plannedGain]
  · rw [plannedGain_plannedStep_other _ _ _ _ _ hq, (hserved _).plannedGain]
  · rw [plannedStep_reduction, (hserved _).reduction]

theorem protectionStep_reduces {s : State} {p : Nat} {win : RailWindow} (hp : p < 64) (hon : cf (imageAt s win.air) 11 3 1 = 1)
    (hservice : isService s.pwr.mode = true) (henough : cf (imageAt s win.air) 11 5 1 ≤ (lastRails win).length) :
    ∃ t, exec (.protectionStep p win) s = .next t ∧
      (∀ a ∈ lastRails win, (⟨noCarrier, a, p, 5, 0⟩ : UlMark) ∈ t.ul.marks) ∧ tget 0 t.ul.trigger p = win.air ∧
      tget 0 t.ul.reduction p = tget 0 s.ul.reduction p + (if appliedGain s p = 0 then 0 else cf (imageAt s win.air) 11 4 1) ∧
      (∀ q, q ≠ p → tget 0 t.ul.reduction q = tget 0 s.ul.reduction q) ∧ t.ul.planned = s.ul.planned ∧
      (appliedGain s p ≠ 0 → t.ev.status.getLsbD 48 = true) := by
  have hmarked : KeepsGains s ((lastRails win).foldl (markRail p) (advanceTo win.air s)) :=
    (advanceTo_keepsGains ..).trans (.foldl (markRail_keepsGains p) ..)
  refine ⟨_, exec_protectionStep hp hon hservice henough, fun a ha => ?marks, protectPath_trigger .., ?reduction, fun q hq => ?others,
    ?planned, fun h => ?status⟩
  case marks => exact protectPath_marks _ _ _ _ (markRails_marks p ha _)
  case reduction => simp [protectPath_reduction, hmarked.reduction, hmarked.appliedGain]
  case others => simp [protectPath_reduction, hmarked.reduction, hq]
  case planned => exact (protectPath_planned ..).trans hmarked.planned
  case status => exact protectPath_status _ _ _ _ (by rwa [hmarked.appliedGain])

theorem protectionReturn_restores {s : State} {p : Nat} (hp : p < 64) (hreduced : tget 0 s.ul.reduction p ≠ 0) :
    ∃ t, exec (.protectionReturn p) s = .next t ∧ tget 0 t.ul.reduction p = 0 ∧
      (∀ q, q ≠ p → tget 0 t.ul.reduction q = tget 0 s.ul.reduction q) ∧ t.ul.planned = s.ul.planned ∧ t.pwr = s.pwr ∧ t.cfg = s.cfg := by
  refine ⟨_, exec_protectionReturn hp hreduced, ?_, fun q hq => ?_, ?_, by simp, by simp⟩
  · rw [(reportStep_keepsGains ..).reduction, tget_tset, if_pos rfl]
  · rw [(reportStep_keepsGains ..).reduction, tget_tset, if_neg hq, (advanceTo_keepsGains ..).reduction]
  · exact (reportStep_keepsGains ..).planned.trans (advanceTo_keepsGains ..).planned

/-- Settles O60: planned steps, protection steps and their return. -/
theorem gainSteps_hold : Obligations.GainSteps := by
  unfold Obligations.GainSteps
  refine ⟨fun s p n im him => agcStep_moves him, fun s p win hp hon hservice => ⟨fun hfew => ?_, fun henough => ?_⟩,
    fun s p => protectionReturn_restores⟩
  · exact exec_protectionStep_few hfew
  · exact protectionStep_reduces hp hon hservice henough

end Sys2Proof.Machine
end

section
/-! SUPPORT. The Cabinet (R193 to R195): the accepted write, its completion, and the boundary at which entries become live. -/

namespace Sys2Proof.Machine

theorem onDomain_of_access {d : Nat} {s w : State} (h : accessDomain d s = some w) (a : Asker) (k : State → Reply) :
    onDomain d a s k = k w := by
  rw [onDomain, h]

/-! ### The catalogue write (R194) -/

section
variable {ring : Nat} {dma : List Byte} {s w : State} {h : Hdr} {p : List Byte}

/-- The Cabinet port is asked for, and the write waits for it (R193). -/
def writeQueued (q : CabWrite) (w : State) : State :=
  { requestLease 1 1 w with bf := { w.bf with writes := w.bf.writes ++ [q] } }

theorem writeQueued_frame (q : CabWrite) (w : State) :
    writeQueued q w = { w with bf := (writeQueued q w).bf, ls := (writeQueued q w).ls } := by
  apply state_eq <;> simp [writeQueued]

/-- A catalogue write of good length and fields whose records all pass comes to its effect while no persist runs. -/
theorem catalogueWriteBody_passes (a : Asker) (hlen : p.length = 16 + 296 * u p 0 2) (hcount : u p 0 2 ≤ 55)
    (hzero : slice p 2 14 = zeros 14) (hrecords : cabFirst p s (List.range (u p 0 2)) = none)
    (hidle : longRunning .cataloguePersist s = false) :
    catalogueWriteBody a p s = if u p 0 2 = 0 then ok (zeros 24) s else onDomain 5 a s fun w =>
      deferred (writeQueued ⟨a, (List.range (u p 0 2)).map (cabRecord p)⟩ w) := by
  have hgood : ∀ c ∈ [inRange p 0 2 0 55, isZero p 2 14], c.2 = true := by simp [inRange, hcount, isZero_of_slice hzero]
  have hlength : ¬(p.length < 16 ∨ p.length ≠ 16 + 296 * u p 0 2) := by omega
  have hreply : cabReply 0 {} = zeros 24 := by decide
  simp only [catalogueWriteBody, hlength, if_false, withFields_of_good hgood, hrecords, hidle, Bool.false_eq_true, hreply, writeQueued,
    requestLease_frame]

theorem exec_beamCatalogueWrite_empty (d : Delivered 0x0301 ring dma s h p) (hlen : p.length = 16 + 296 * u p 0 2)
    (hzero : slice p 2 14 = zeros 14) (hidle : longRunning .cataloguePersist s = false) (hnone : u p 0 2 = 0) :
    exec (.beamCatalogueWrite ring dma) s = .next (answered (askerOf ring h s) (zeros 24) (consumed ring h s)) := by
  have hrecords : cabFirst p (consumed ring h s) (List.range (u p 0 2)) = none := by rw [hnone]; rfl
  have hidle' : longRunning .cataloguePersist (consumed ring h s) = false := by simpa [longRunning] using hidle
  simp only [exec, execBeamCatalogueWrite, runMessage_delivered _ d,
    catalogueWriteBody_passes _ hlen (by omega) hzero hrecords hidle', if_pos hnone, settle_ok]

theorem exec_beamCatalogueWrite (d : Delivered 0x0301 ring dma s h p) (hlen : p.length = 16 + 296 * u p 0 2) (hcount : u p 0 2 ≤ 55)
    (hzero : slice p 2 14 = zeros 14) (hrecords : cabFirst p (consumed ring h s) (List.range (u p 0 2)) = none)
    (hidle : longRunning .cataloguePersist s = false) (hsome : u p 0 2 ≠ 0) (hw : accessDomain 5 (consumed ring h s) = some w) :
    exec (.beamCatalogueWrite ring dma) s = .next (deferredTo (askerOf ring h s)
      (writeQueued ⟨askerOf ring h s, (List.range (u p 0 2)).map (cabRecord p)⟩ w)) := by
  have hidle' : longRunning .cataloguePersist (consumed ring h s) = false := by simpa [longRunning] using hidle
  simp only [exec, execBeamCatalogueWrite, runMessage_delivered _ d, catalogueWriteBody_passes _ hlen hcount hzero hrecords hidle',
    if_neg hsome, onDomain_of_access hw, settle_deferred]

end

/-! ### Completion of a write (R193) -/

/-- Entries that wait for a boundary once the records of a write do. -/
def waitingWith (b : Boundary) (records : List (Nat × CabEntry)) (l : List (Boundary × Nat × CabEntry)) : List (Boundary × Nat × CabEntry) :=
  records.foldl (fun l r => waitEntry b r.1 r.2 l) l

theorem waitEntry_length_le (b : Boundary) (e : Nat) (c : CabEntry) (l : List (Boundary × Nat × CabEntry)) :
    (waitEntry b e c l).length ≤ l.length + 1 := by
  simpa [waitEntry] using List.length_filter_le ..

theorem waitingWith_length_le (b : Boundary) (records : List (Nat × CabEntry)) (l : List (Boundary × Nat × CabEntry)) :
    (waitingWith b records l).length ≤ l.length + records.length := by
  induction records generalizing l with
  | nil => exact Nat.le_refl _
  | cons r records ih =>
    have hfirst := waitEntry_length_le b r.1 r.2 l
    have hrest := ih (waitEntry b r.1 r.2 l)
    simp only [waitingWith, List.foldl_cons, List.length_cons] at hrest ⊢
    omega

/-- What a later write of the same entry replaces is that entry at that boundary alone, so every entry that waits goes on waiting. -/
theorem waitEntry_waits {b : Boundary} {e : Nat} {c : CabEntry} {l : List (Boundary × Nat × CabEntry)} {n : Nat}
    (h : n = e ∨ ∃ x ∈ l, x.2.1 = n) : ∃ x ∈ waitEntry b e c l, x.2.1 = n := by
  by_cases hn : n = e
  · exact ⟨(b, e, c), by simp [waitEntry], hn.symm⟩
  · obtain ⟨x, hx, rfl⟩ := h.resolve_left hn
    exact ⟨x, by simp [waitEntry, hx, hn], rfl⟩

theorem waitingWith_waits {b : Boundary} {records : List (Nat × CabEntry)} {l : List (Boundary × Nat × CabEntry)} {n : Nat}
    (h : (∃ r ∈ records, r.1 = n) ∨ ∃ x ∈ l, x.2.1 = n) : ∃ x ∈ waitingWith b records l, x.2.1 = n := by
  induction records generalizing l with
  | nil => simpa [waitingWith] using h
  | cons r records ih =>
    refine ih ?_
    rcases h with ⟨q, hq, rfl⟩ | hwaits
    · rcases List.mem_cons.mp hq with rfl | hq
      · exact .inr (waitEntry_waits (.inl rfl))
      · exact .inl ⟨q, hq, rfl⟩
    · exact .inr (waitEntry_waits (.inr hwaits))

/-- The oldest write has reached its completion instant; the last one gives the port up. -/
def writeDone (qs : List CabWrite) (s : State) : State :=
  let t := advanceTo (cabinetTimes s.cfg.live (nowU s)).1 { s with bf := { s.bf with writes := qs } }
  if qs = [] then releaseLease 1 t else t

theorem writeDone_bf (qs : List CabWrite) (s : State) : (writeDone qs s).bf = { s.bf with writes := qs } := by
  simp [writeDone]

/-- Boundary at which the entries of a write that completes now become live. -/
def liveBoundary (s : State) : Boundary := boundaryAt (cabinetTimes s.cfg.live (nowU s)).2

theorem exec_cabinetWriteComplete {s : State} {q : CabWrite} {qs : List CabWrite} (h : s.bf.writes = q :: qs) :
    exec .cabinetWriteComplete s =
      let wait := waitingWith (liveBoundary s) q.records s.bf.waiting
      if 512 < wait.length then .next (finishDeferred q.asker stBusy 0 [] (writeDone qs s))
      else .next (finishDeferred q.asker 0 0 (cabReply q.records.length (liveBoundary s))
        { writeDone qs s with bf := { (writeDone qs s).bf with waiting := wait } }) := by
  have hwait : s.bf.waiting = (writeDone qs s).bf.waiting := by rw [writeDone_bf]
  rw [hwait]
  simp only [exec, execCabinetWriteComplete, h]
  rfl

theorem cabinetWriteComplete_waits {s : State} {q : CabWrite} {qs : List CabWrite} (h : s.bf.writes = q :: qs) :
    ∃ t, exec .cabinetWriteComplete s = .next t ∧ t.bf.writes = qs ∧ t.bf.cabinet = s.bf.cabinet ∧
      t.bf.waiting.length ≤ Nat.max 512 s.bf.waiting.length ∧
      (s.bf.waiting.length + q.records.length ≤ 512 → ∀ r ∈ q.records, ∃ x ∈ t.bf.waiting, x.2.1 = r.1) := by
  have hlength := waitingWith_length_le (liveBoundary s) q.records s.bf.waiting
  rw [exec_cabinetWriteComplete h]
  dsimp only
  split
  case isTrue hfull =>
    exact ⟨_, rfl, by simp [writeDone_bf], by simp [writeDone_bf], by simp [writeDone_bf], fun hroom => by omega⟩
  case isFalse hroom =>
    refine ⟨_, rfl, by simp [writeDone_bf], by simp [writeDone_bf], ?_, fun _ r hr => ?_⟩
    · simpa using Or.inl (Nat.not_lt.mp hroom)
    · simpa using waitingWith_waits (.inl ⟨r, hr, rfl⟩)

/-! ### Words rewritten -/

/-- Words of memories are rewritten, and nothing else changes. -/
structure Cleans (s t : State) : Prop where
  frame : t = { s with ls := { s.ls with bad := t.ls.bad } }
  bad : ∀ h ∈ t.ls.bad, h ∈ s.ls.bad

theorem Cleans.refl (s : State) : Cleans s s := ⟨rfl, fun _ h => h⟩

theorem Cleans.trans {r s t : State} (h : Cleans r s) (k : Cleans s t) : Cleans r t where
  frame := by rw [k.frame, h.frame]
  bad x hx := h.bad x (k.bad x hx)

theorem Cleans.foldl {α : Type} {g : State → α → State} (h : ∀ t x, Cleans t (g t x)) (l : List α) (s : State) : Cleans s (l.foldl g s) := by
  induction l generalizing s with
  | nil => exact .refl s
  | cons a l ih => exact (h s a).trans (ih (g s a))

theorem cleanWords_cleans (memory lo n : Nat) (s : State) : Cleans s (cleanWords memory lo n s) :=
  ⟨rfl, fun _ h => List.mem_of_mem_filter h⟩

theorem cleanEntry_cleans (e : Nat) (s : State) : Cleans s (cleanEntry e s) :=
  (cleanWords_cleans ..).trans (cleanWords_cleans ..)

/-! ### The boundary (R193) -/

/-- Entries that wait for a boundary. -/
def dueAt (b : Boundary) (s : State) : List (Boundary × Nat × CabEntry) := s.bf.waiting.filter fun e => decide (e.1 = b)

theorem mem_dueAt {b : Boundary} {s : State} {x : Boundary × Nat × CabEntry} : x ∈ dueAt b s ↔ x ∈ s.bf.waiting ∧ x.1 = b := by
  simp [dueAt]

/-- A Cabinet into which entries have been written one after the other. -/
def entriesWritten (l : List (Boundary × Nat × CabEntry)) (t : Tbl CabEntry) : Tbl CabEntry := l.foldl (fun t e => tset {} t e.2.1 e.2.2) t

theorem tget_entriesWritten_other {l : List (Boundary × Nat × CabEntry)} {e : Nat} (h : ∀ x ∈ l, x.2.1 ≠ e) (t : Tbl CabEntry) :
    tget {} (entriesWritten l t) e = tget {} t e := by
  induction l generalizing t with
  | nil => rfl
  | cons x l ih =>
    obtain ⟨hx, hl⟩ := List.forall_mem_cons.mp h
    exact (ih hl _).trans (tget_tset_ne _ _ _ hx.symm)

/-- An entry written holds what the last of its writes gave it. -/
theorem tget_entriesWritten {l : List (Boundary × Nat × CabEntry)} {x : Boundary × Nat × CabEntry} (h : x ∈ l) (t : Tbl CabEntry) :
    ∃ y ∈ l, y.2.1 = x.2.1 ∧ tget {} (entriesWritten l t) x.2.1 = y.2.2 := by
  induction l generalizing t x with
  | nil => cases h
  | cons z l ih =>
    by_cases hlater : ∃ y ∈ l, y.2.1 = x.2.1
    · obtain ⟨y, hy, hyx⟩ := hlater
      obtain ⟨v, hv, hvy, hget⟩ := ih hy (tset {} t z.2.1 z.2.2)
      exact ⟨v, List.mem_cons_of_mem _ hv, hvy.trans hyx, hyx ▸ hget⟩
    · push Not at hlater
      obtain rfl : x = z := (List.mem_cons.mp h).resolve_right fun hx => hlater x hx rfl
      exact ⟨x, h, rfl, (tget_entriesWritten_other hlater _).trans (tget_tset_self ..)⟩

/-- The Cabinet part once a boundary has passed. -/
def boundaryPassed (b : Boundary) (s : State) : State :=
  { s with bf := { s.bf with
    cabinet := entriesWritten (dueAt b s) s.bf.cabinet,
    old := (dueAt b s).map (fun e => (b, e.2.1, cabOf s e.2.1)) ++ s.bf.old.filter fun e => decide (boundaryU b - msU ≤ boundaryU e.1),
    waiting := s.bf.waiting.filter fun e => decide (e.1 ≠ b), liveAt := b } }

theorem cabinetLive_eq (b : Boundary) (s : State) :
    cabinetLive b s = (dueAt b s).foldl (fun t e => cleanEntry e.2.1 t) (boundaryPassed b s) := rfl

theorem cabinetLive_cleans (b : Boundary) (s : State) : Cleans (boundaryPassed b s) (cabinetLive b s) := by
  rw [cabinetLive_eq]
  refine Cleans.foldl (fun t e => ?_) ..
  exact cleanEntry_cleans ..

theorem cabinetLive_bf (b : Boundary) (s : State) : (cabinetLive b s).bf = (boundaryPassed b s).bf := by
  rw [(cabinetLive_cleans b s).frame]

theorem cabOf_cabinetLive (b : Boundary) (s : State) (e : Nat) :
    cabOf (cabinetLive b s) e = tget {} (entriesWritten (dueAt b s) s.bf.cabinet) e := by
  rw [cabOf, cabinetLive_bf, boundaryPassed]

theorem exec_cabinetBoundary {s : State} {b : Boundary} (h : firstWaiting s = some b) :
    exec .cabinetBoundary s = .next (cabinetLive b (advanceTo (boundaryU b) s)) := by
  simp only [exec, execCabinetBoundary, h]

theorem cabinetBoundary_makesLive {s : State} {b : Boundary} (h : firstWaiting s = some b) :
    ∃ t, exec .cabinetBoundary s = .next t ∧
      t.bf.waiting = s.bf.waiting.filter (fun x => decide (x.1 ≠ b)) ∧ t.bf.liveAt = b ∧
      (∀ x ∈ s.bf.waiting, x.1 = b → ∃ y ∈ s.bf.waiting, y.1 = b ∧ y.2.1 = x.2.1 ∧ cabOf t x.2.1 = y.2.2) ∧
      (∀ e, (∀ x ∈ s.bf.waiting, x.1 = b → x.2.1 ≠ e) → cabOf t e = cabOf s e) ∧
      t = { s with bf := t.bf, tm := t.tm, ls := { s.ls with bad := t.ls.bad } } ∧ ∀ h ∈ t.ls.bad, h ∈ s.ls.bad := by
  have hcleans := cabinetLive_cleans b (advanceTo (boundaryU b) s)
  have hdue : dueAt b (advanceTo (boundaryU b) s) = dueAt b s := by simp [dueAt]
  have hcab (e : Nat) : cabOf (cabinetLive b (advanceTo (boundaryU b) s)) e = tget {} (entriesWritten (dueAt b s) s.bf.cabinet) e := by
    simp [cabOf_cabinetLive, hdue]
  refine ⟨_, exec_cabinetBoundary h, ?_, ?_, fun x hx hxb => ?_, fun e he => ?_, ?_, fun k hk => ?_⟩
  · simp [cabinetLive_bf, boundaryPassed]
  · simp [cabinetLive_bf, boundaryPassed]
  · obtain ⟨y, hy, hyx, hget⟩ := tget_entriesWritten (mem_dueAt.mpr ⟨hx, hxb⟩) s.bf.cabinet
    obtain ⟨hwaits, hyb⟩ := mem_dueAt.mp hy
    exact ⟨y, hwaits, hyb, hyx, (hcab _).trans hget⟩
  · rw [hcab, tget_entriesWritten_other fun x hx => he x (mem_dueAt.mp hx).1 (mem_dueAt.mp hx).2]
    rfl
  · rw [hcleans.frame]
    simp only [boundaryPassed]
    rw [advanceTo_eq]
  · simpa [boundaryPassed] using hcleans.bad k hk

end Sys2Proof.Machine
end

section
/-! SUPPORT. The write of record 0x0301 by `beam.catalogue_persist` (R195, R369, R370): the copy it makes or tears, and the copy then in force. -/

namespace Sys2Proof.Machine

/-! ### The copy in force (R369, R370) -/

/-- A sequence number is followed by a higher one (modulo 2^32). -/
theorem seqHigher_succ (n : Nat) : seqHigher ((n + 1) % 2 ^ 32) n = true := by
  simp only [seqHigher, Bool.and_eq_true, decide_eq_true_eq]
  omega

theorem seqHigher_of_succ (n : Nat) : seqHigher n ((n + 1) % 2 ^ 32) = false := by
  simp only [seqHigher, Bool.and_eq_false_iff, decide_eq_false_iff_not]
  omega

/-- The next write goes to a copy that is not in force, under a sequence number that is higher than that of the copy in force. -/
theorem nextWrite_cases (s : State) (id : Nat) :
    (nextWrite s id = (0, 1) ∧ inForce s id = none ∧ copyState id (copyOf s id 0) ≠ 1 ∧ copyState id (copyOf s id 1) ≠ 1) ∨
    (nextWrite s id = (1, ((copyOf s id 0).seq + 1) % 2 ^ 32) ∧ inForce s id = some (0, copyOf s id 0) ∧ copyState id (copyOf s id 0) = 1) ∨
    (nextWrite s id = (0, ((copyOf s id 1).seq + 1) % 2 ^ 32) ∧ inForce s id = some (1, copyOf s id 1) ∧ copyState id (copyOf s id 1) = 1) := by
  by_cases h0 : copyState id (copyOf s id 0) = 1
  · by_cases hnewer : copyState id (copyOf s id 1) = 1 ∧ seqHigher (copyOf s id 1).seq (copyOf s id 0).seq = true
    · exact .inr (.inr (by simp [nextWrite, inForce, h0, hnewer]))
    · exact .inr (.inl (by simp [nextWrite, inForce, h0, hnewer]))
  · by_cases h1 : copyState id (copyOf s id 1) = 1
    · exact .inr (.inr (by simp [nextWrite, inForce, h0, h1]))
    · exact .inl (by simp [nextWrite, inForce, h0, h1])

section
variable {s t : State} {id : Nat} {c : NvmCopy}

/-- Copies after a write of the next copy. -/
def NextCopyIs (s t : State) (id : Nat) (c : NvmCopy) : Prop :=
  t.nvm.copy = tset {} s.nvm.copy (2 * id + (nextWrite s id).1) c

theorem NextCopyIs.copyOf (h : NextCopyIs s t id c) (id' w : Nat) :
    copyOf t id' w = if 2 * id' + w = 2 * id + (nextWrite s id).1 then c else copyOf s id' w := by
  rw [Machine.copyOf, h, tget_tset]
  rfl

/-- A valid next copy is the one in force. -/
theorem NextCopyIs.inForce_valid (h : NextCopyIs s t id c) (hvalid : copyState id c = 1) (hseq : c.seq = (nextWrite s id).2) :
    inForce t id = some ((nextWrite s id).1, c) := by
  have hc := h.copyOf id
  rcases nextWrite_cases s id with ⟨hnext, _, _, h1⟩ | ⟨hnext, _, h0⟩ | ⟨hnext, _, h1⟩
  all_goals rw [hnext] at hc hseq ⊢
  · simp [inForce, hc, hvalid, h1]
  · simpa [inForce, hc, hvalid, h0, hseq] using seqHigher_succ _
  · simpa [inForce, hc, hvalid, h1, hseq] using seqHigher_of_succ _

/-- An invalid next copy leaves the copy in force. -/
theorem NextCopyIs.inForce_invalid (h : NextCopyIs s t id c) (hinvalid : copyState id c ≠ 1) : inForce t id = inForce s id := by
  have hc := h.copyOf id
  rcases nextWrite_cases s id with ⟨hnext, hforce, _, h1⟩ | ⟨hnext, hforce, h0⟩ | ⟨hnext, hforce, h1⟩
  all_goals rw [hnext] at hc; rw [hforce]
  · simp [inForce, hc, hinvalid, h1]
  · simp [inForce, hc, hinvalid, h0]
  · simp [inForce, hc, hinvalid, h1]

/-- Every other record keeps its copies. -/
theorem NextCopyIs.inForce_other (h : NextCopyIs s t id c) {id' : Nat} (hne : id' ≠ id) : inForce t id' = inForce s id' := by
  have hw : (nextWrite s id).1 ≤ 1 := by rcases nextWrite_cases s id with h | h | h <;> simp [h.1]
  have hc (w : Nat) (hw' : w ≤ 1) : Machine.copyOf t id' w = Machine.copyOf s id' w := by rw [h.copyOf, if_neg (by omega)]
  simp only [inForce, hc 0 (by decide), hc 1 (by decide)]

end

theorem partialCopy_whole (old : NvmCopy) (id sq : Nat) (data : List Byte) :
    partialCopy old id sq data (recordWords data.length) =
      { id := id, version := 1, seq := sq, length := data.length, data := data, chkSeq := sq, crcOk := true } := by
  rw [partialCopy, if_neg (by simp [recordWords]), if_pos (Nat.le_refl _)]

/-- A copy written whole is valid where its record fits the slot. -/
theorem copyState_whole (old : NvmCopy) {id : Nat} (sq : Nat) {data : List Byte} (hid : id ≠ 0) (hfits : 24 + data.length ≤ slotSize id) :
    copyState id (partialCopy old id sq data (recordWords data.length)) = 1 := by
  simp [partialCopy_whole, copyState, hid, hfits]

/-- A copy whose write ends after its first word is not valid. -/
theorem copyState_torn (old : NvmCopy) (id sq : Nat) (data : List Byte) : copyState id (partialCopy old id sq data 1) ≠ 1 := by
  have hwords : ¬recordWords data.length ≤ 1 := by simp [recordWords]; omega
  simp [partialCopy, hwords, copyState]

/-! ### The bytes of the record (Table 16-3) -/

theorem leBytes_length (n v : Nat) : (leBytes n v).length = n := by
  induction n generalizing v with
  | zero => rfl
  | succ n ih => simp [leBytes, ih]

theorem zeros_length (n : Nat) : (zeros n).length = n := List.length_replicate

theorem cabWeights_length (c : CabEntry) : (cabWeights c).length = 256 := by
  unfold cabWeights
  split
  · simp [fitBytes, zeros_length]
  · exact zeros_length 256

theorem cabTag_length (e : Nat) (c : CabEntry) : (cabTag e c).length = 16 := by
  unfold cabTag cabHead
  split <;> simp [leBytes_length, zeros_length]

theorem flatMap_length_of_length {α β : Type} {f : α → List β} {n : Nat} (h : ∀ a, (f a).length = n) (l : List α) :
    (l.flatMap f).length = l.length * n := by
  simp [List.length_flatMap, h]

theorem cabinetRecord_length (s : State) : (cabinetRecord s).length = 1671184 := by
  have hweights := flatMap_length_of_length (fun e => cabWeights_length (cabOf s e)) (List.range 6144)
  have htags := flatMap_length_of_length (fun e => cabTag_length e (cabOf s e)) (List.range 6144)
  simp only [cabinetRecord, List.length_append, leBytes_length, zeros_length, hweights, htags, List.length_range]

/-! ### The write of a persist (R195, R370) -/

/-- A Cabinet persist runs, alone, with its content complete and its write not begun; no word of a memory holds an error. -/
structure PersistReady (s : State) : Prop where
  running : longRunning .cataloguePersist s = true
  alone : longRunning .bankPersist s = false
  waiting : s.bf.waiting = []
  writes : s.bf.writes = []
  jobs : s.nvm.jobs = []
  ended : s.nvm.ended = []
  bad : s.ls.bad = []

/-- The write of record 0x0301 that a persist queues. -/
def cabinetJob (s : State) : NvmJob := ⟨0x0301, (nextWrite s 0x0301).1, (nextWrite s 0x0301).2, cabinetRecord s, 0, none, false⟩

/-- That write is the only one in the queue. -/
def cabinetQueued (s : State) : State := { s with nvm := { s.nvm with jobs := [cabinetJob s] } }

@[simp] theorem cabinetQueued_jobs (s : State) : (cabinetQueued s).nvm.jobs = [cabinetJob s] := rfl
@[simp] theorem cabinetQueued_ended (s : State) : (cabinetQueued s).nvm.ended = s.nvm.ended := rfl
@[simp] theorem cabinetQueued_copy (s : State) : (cabinetQueued s).nvm.copy = s.nvm.copy := rfl
@[simp] theorem cabinetQueued_bf (s : State) : (cabinetQueued s).bf = s.bf := rfl
@[simp] theorem cabinetQueued_ls (s : State) : (cabinetQueued s).ls = s.ls := rfl
@[simp] theorem longRunning_cabinetQueued (k : LongKind) (s : State) : longRunning k (cabinetQueued s) = longRunning k s := rfl

theorem PersistReady.queuePersists {s : State} (h : PersistReady s) : queuePersists s = cabinetQueued s := by
  have hbusy : recordBusy 0x0301 s = false := by simp [recordBusy, h.jobs]
  have hqueued : queueRecord 0x0301 (cabinetRecord s) none s = cabinetQueued s := by
    rw [queueRecord, h.jobs]
    rfl
  simp [Machine.queuePersists, h.running, h.alone, h.waiting, h.writes, h.ended, hbusy, hqueued]

theorem cleanCopy_of_clean {s : State} (h : s.ls.bad = []) (id w a k : Nat) : cleanCopy id w a k s = s := by
  have hls : { s.ls with bad := [] } = s.ls := by rw [← h]
  simp only [cleanCopy, cleanWords, h, List.filter_nil, hls]

theorem countWrite_nvm (id w : Nat) (s : State) :
    (countWrite id w s).nvm = { s.nvm with writes := tset 0 s.nvm.writes (2 * id + w) (tget 0 s.nvm.writes (2 * id + w) + 1) } := by
  simp [countWrite]

/-- A copy without errors reads without events. -/
theorem readCopy_of_clean {s : State} (h : s.ls.bad = []) (id w : Nat) : readCopy id w s = s := by
  simp [readCopy, readMram, h]

/-- A persist's record, none of whose words holds an error, is written whole: its copy, the count, and the end that the operation will find. -/
theorem writeWords_whole {j : NvmJob} {s : State} (hclean : s.ls.bad = []) (hpersist : j.asker = none)
    (hid : j.id ∉ [0x0101, 0x0102, 0x0201, 0x0202]) :
    (writeWords j [] (recordWords j.data.length) s).nvm = { s.nvm with
      copy := tset {} s.nvm.copy (2 * j.id + j.copy)
        (partialCopy (copyOf s j.id j.copy) j.id j.seq j.data (recordWords j.data.length))
      writes := tset 0 s.nvm.writes (2 * j.id + j.copy) (tget 0 s.nvm.writes (2 * j.id + j.copy) + 1)
      jobs := [], ended := (j.id, 0) :: s.nvm.ended } := by
  have hids : ¬(j.id = 0x0101 ∨ j.id = 0x0102 ∨ j.id = 0x0201 ∨ j.id = 0x0202) := by simpa using hid
  have hcal : calRecord j.id = false := by simp [calRecord]; tauto
  have heffect (d : List Byte) (t : State) : recordEffect j.id d t = t := by
    rw [recordEffect, if_neg (by tauto), if_neg (by tauto)]
  have hread (t : State) (ht : t.ls.bad = []) : readCopy j.id j.copy (countWrite j.id j.copy t) = countWrite j.id j.copy t :=
    readCopy_of_clean (by simpa using ht) ..
  rw [writeWords, cleanCopy_of_clean hclean]
  simp [jobDone, copyStruck, hclean, hread, heffect, answerJob, hpersist, hcal, countWrite_nvm, setCopy]

theorem nvmTorn_jobs (s : State) : (nvmTorn s).nvm.jobs = s.nvm.jobs := by
  unfold nvmTorn
  split
  · rfl
  · split <;> rfl

/-- The end of a record's write is taken note of. -/
def endForgotten (id : Nat) (s : State) : State :=
  { s with nvm := { s.nvm with ended := s.nvm.ended.filter fun x => decide (x.1 ≠ id) } }

section
variable {id : Nat} {s : State} (hopen : persistStatus id (queuePersists s) = none) (hbusy : recordBusy id (queuePersists s) = true)
include hopen hbusy

theorem persistEnd_done : persistEnd id .done s =
    let t := finishWrites id true (queuePersists s).nvm.jobs (queuePersists s)
    some ((persistStatus id t).getD 0, endForgotten id t) := by
  simp only [persistEnd, hopen, hbusy]
  rfl

theorem persistEnd_cutShort : persistEnd id .cutShort s = some (0x19, dropJob id (queuePersists s)) := by
  simp only [persistEnd, hopen, hbusy]
  rfl

end

/-- The copy that the next write of record 0x0301 leaves after its first `k` words. -/
def cabinetCopy (s : State) (k : Nat) : NvmCopy :=
  partialCopy (copyOf s 0x0301 (nextWrite s 0x0301).1) 0x0301 (nextWrite s 0x0301).2 (cabinetRecord s) k

section
variable {s : State} (h : PersistReady s)
include h

theorem PersistReady.persistStatus : persistStatus 0x0301 (Machine.queuePersists s) = none := by
  simp [Machine.persistStatus, h.queuePersists, h.ended]

theorem PersistReady.recordBusy : recordBusy 0x0301 (Machine.queuePersists s) = true := by
  simp [Machine.recordBusy, h.queuePersists, cabinetJob]

/-- The persist writes its record to the end (R195). -/
theorem PersistReady.persistEnd_done : ∃ v, persistEnd 0x0301 .done s = some (0, v) ∧
    NextCopyIs s v 0x0301 (cabinetCopy s (recordWords (cabinetRecord s).length)) ∧ v.bf = s.bf ∧ v.nvm.jobs = [] := by
  have hnvm := writeWords_whole (j := cabinetJob s) (s := cabinetQueued s) h.bad rfl (by simp [cabinetJob])
  rw [Machine.persistEnd_done h.persistStatus h.recordBusy, h.queuePersists]
  have hfinish : finishWrites 0x0301 true (cabinetQueued s).nvm.jobs (cabinetQueued s) =
      writeWords (cabinetJob s) [] (recordWords (cabinetJob s).data.length) (cabinetQueued s) := rfl
  have hstatus : Machine.persistStatus 0x0301 (writeWords (cabinetJob s) [] (recordWords (cabinetJob s).data.length) (cabinetQueued s)) =
      some 0 := by
    rw [Machine.persistStatus, hnvm]
    simp [cabinetJob]
  rw [hfinish]
  dsimp only
  rw [hstatus]
  refine ⟨_, rfl, ?_, by simp [endForgotten], by simp [endForgotten, hnvm]⟩
  simp only [NextCopyIs, endForgotten, hnvm]
  rfl

/-- A cut ends the persist with its copy torn (R370). -/
theorem PersistReady.persistEnd_cutShort : ∃ v, persistEnd 0x0301 .cutShort s = some (0x19, v) ∧
    NextCopyIs s v 0x0301 (cabinetCopy s 1) ∧ v.bf = s.bf ∧ v.nvm.jobs = [] := by
  refine ⟨_, Machine.persistEnd_cutShort h.persistStatus h.recordBusy, ?_, ?_, ?_⟩
  all_goals rw [h.queuePersists]
  · rfl
  · simp
  · simp [dropJob, nvmTorn_jobs, cabinetJob]

end

/-! ### The rows (R195) -/

theorem exec_beamCataloguePersist {ring : Nat} {dma : List Byte} {s w : State} {h : Hdr} {p : List Byte} (d : Delivered 0x0302 ring dma s h p)
    (hlen : p.length = 4) (hzero : slice p 0 4 = zeros 4) (hidle : longRunning .cataloguePersist s = false)
    (hfree : recordBusy 0x0301 s = false) (hw : accessDomain 2 (consumed ring h s) = some w) :
    exec (.beamCataloguePersist ring dma) s = .next (acceptedLong .cataloguePersist (askerOf ring h s) w) := by
  have hgood : ∀ c ∈ [isZero p 0 4], c.2 = true := by simp [isZero_of_slice hzero]
  have hready : ¬(longRunning .cataloguePersist (consumed ring h s) = true ∨ recordBusy 0x0301 (consumed ring h s) = true) := by
    have hidle' : longRunning .cataloguePersist (consumed ring h s) = false := by rwa [longRunning, consumed_long]
    have hfree' : recordBusy 0x0301 (consumed ring h s) = false := by rwa [recordBusy, consumed_nvm]
    simp [hidle', hfree']
  have hroom : (consumed ring h s).ph.long.length < 8 := by simpa using (d.long (by decide)).2
  simp only [exec, execBeamCataloguePersist, runMessage_delivered _ d, cataloguePersistBody,
    withLength_of_mem (show p.length ∈ [4] by simp [hlen]), withFields_of_good hgood, if_neg hready, onDomain_of_access hw,
    settle_accepted _ _ _ _ _ hroom]

theorem exec_cataloguePersistComplete {s v : State} {e : LongEnd} {st : Nat} (hrunning : longRunning .cataloguePersist s = true)
    (hend : persistEnd 0x0301 e s = some (st, v)) : exec (.cataloguePersistComplete e) s =
      .next (finishLong .cataloguePersist st 0 (if st = 0 then cataloguePersisted v else []) v) := by
  simp only [exec, execCataloguePersistComplete, hrunning, hend, Bool.not_true, Bool.false_eq_true, if_false]

/-- What the answer of a persist tells of the record stored, beside its sequence number. -/
def storedReport (v : State) : List Byte :=
  let p := (recordData v 0x0301).getD []
  leBytes 2 ((List.range 6144).countP fun e => decide (u p (1572881 + 16 * e) 1 = 1)) ++ ([0, 0] ++ (slice p 0 9 ++ zeros 7))

theorem cataloguePersisted_eq (v : State) : cataloguePersisted v = leBytes 4 (recordSeq v 0x0301) ++ storedReport v := by
  simp only [cataloguePersisted, storedReport, List.append_assoc]

theorem storedReport_length {s v : State} (h : recordData v 0x0301 = some (cabinetRecord s)) : (storedReport v).length = 20 := by
  simp [storedReport, h, leBytes_length, zeros_length, slice, cabinetRecord_length]

theorem cataloguePersistComplete_done {s : State} (h : PersistReady s) :
    ∃ b v, exec (.cataloguePersistComplete .done) s =
        .next (finishLong .cataloguePersist 0 0 (leBytes 4 (nextWrite s 0x0301).2 ++ b) v) ∧
      b.length = 20 ∧ recordData v 0x0301 = some (cabinetRecord s) ∧ (∀ id, id ≠ 0x0301 → inForce v id = inForce s id) ∧
      v.bf = s.bf ∧ v.nvm.jobs = [] := by
  obtain ⟨v, hend, hcopy, hbf, hjobs⟩ := h.persistEnd_done
  have hvalid : copyState 0x0301 (cabinetCopy s (recordWords (cabinetRecord s).length)) = 1 :=
    copyState_whole _ _ (by decide) (by rw [cabinetRecord_length]; decide)
  have hforce := hcopy.inForce_valid hvalid (by rw [cabinetCopy, partialCopy_whole])
  have hdata : recordData v 0x0301 = some (cabinetRecord s) := by rw [recordData, hforce, cabinetCopy, partialCopy_whole]; rfl
  have hseq : recordSeq v 0x0301 = (nextWrite s 0x0301).2 := by rw [recordSeq, hforce, cabinetCopy, partialCopy_whole]; rfl
  refine ⟨storedReport v, v, ?_, storedReport_length hdata, hdata, fun id hid => hcopy.inForce_other hid, hbf, hjobs⟩
  rw [exec_cataloguePersistComplete h.running hend, if_pos rfl, cataloguePersisted_eq, hseq]

theorem cataloguePersistComplete_cutShort {s : State} (h : PersistReady s) :
    ∃ v, exec (.cataloguePersistComplete .cutShort) s = .next (finishLong .cataloguePersist 0x19 0 [] v) ∧
      inForce v 0x0301 = inForce s 0x0301 ∧ v.bf = s.bf ∧ v.nvm.jobs = [] := by
  obtain ⟨v, hend, hcopy, hbf, hjobs⟩ := h.persistEnd_cutShort
  refine ⟨v, ?_, hcopy.inForce_invalid (copyState_torn _ _ _ _), hbf, hjobs⟩
  rw [exec_cataloguePersistComplete h.running hend, if_neg (by decide)]

end Sys2Proof.Machine
end

section
/-! SUPPORT. Claims of dynamic weight banks (R196, R197) and deliveries into them (R125, R198), and with them O55. -/

namespace Sys2Proof.Machine

/-! ### The claim of a region (R197) -/

/-- A claim of slot (c, m), still empty. -/
def EmptyClaim (c m : Nat) (ends : Instant) (w : WeightVec) : Prop := w = { claim := some (c, m), ends := ends, state := 0, data := [], past := w.past }

/-- Nothing changes but weight vectors and counts. -/
def KeepsButVectors (s t : State) : Prop := t = { s with bf := { s.bf with vec := t.bf.vec }, stat := t.stat }

theorem KeepsButVectors.trans {r s t : State} (h : KeepsButVectors r s) (k : KeepsButVectors s t) : KeepsButVectors r t := by
  rw [KeepsButVectors, k, h]

section
variable (im : Image) (ul : Bool) (c m : Nat) (s : State)

/-- Key of vector k of the region of a carrier, in the bank of the slot. -/
def regionKey (k : Nat) : Nat := vecKey ul (m % 2) ((regionOf im ul c).1 + k)

/-- Vector k of the region is claimed in `t`, what it held being noted as of `s`. -/
def claimVector (t : State) (k : Nat) : State :=
  let old := tget {} t.bf.vec (regionKey im ul c m k)
  let t1 := if claimInUse c m (nowU s) old then statAdd 0x17 (b2n ul) 3 1 t else t
  let new : WeightVec := { claim := some (c, m), ends := slotStart (ccMu im ul c) (m + 1), past := pastOf s old }
  { t1 with bf := { t1.bf with vec := tset {} t1.bf.vec (regionKey im ul c m k) new } }

theorem claimVector_keeps (t : State) (k : Nat) : KeepsButVectors t (claimVector im ul c m s t k) := by
  apply state_eq <;> simp [claimVector]

theorem claimVector_self (t : State) (k : Nat) :
    EmptyClaim c m (slotStart (ccMu im ul c) (m + 1)) (tget {} (claimVector im ul c m s t k).bf.vec (regionKey im ul c m k)) := by
  simp only [claimVector, tget_tset_self, EmptyClaim]

theorem claimVector_other (t : State) {k key : Nat} (h : key ≠ regionKey im ul c m k) :
    tget {} (claimVector im ul c m s t k).bf.vec key = tget {} t.bf.vec key := by
  simp [claimVector, tget_tset_ne _ _ _ h]

/-- The first n vectors of the region are claimed. -/
def claimVectors (n : Nat) : State := (List.range n).foldl (claimVector im ul c m s) s

theorem claimVectors_succ (n : Nat) : claimVectors im ul c m s (n + 1) = claimVector im ul c m s (claimVectors im ul c m s n) n := by
  rw [claimVectors, List.range_succ, List.foldl_append]
  rfl

theorem claimVectors_keeps (n : Nat) : KeepsButVectors s (claimVectors im ul c m s n) := by
  induction n with
  | zero => rfl
  | succ n ih => rw [claimVectors_succ]; exact ih.trans (claimVector_keeps ..)

theorem claimVectors_claimed {n k : Nat} (h : k < n) :
    EmptyClaim c m (slotStart (ccMu im ul c) (m + 1)) (tget {} (claimVectors im ul c m s n).bf.vec (regionKey im ul c m k)) := by
  induction n with
  | zero => cases h
  | succ n ih =>
    rw [claimVectors_succ]
    by_cases hkey : regionKey im ul c m k = regionKey im ul c m n
    · rw [hkey]
      exact claimVector_self ..
    · have hk : k ≠ n := fun hk => hkey (hk ▸ rfl)
      rw [claimVector_other _ _ _ _ _ _ hkey]
      exact ih (by omega)

theorem claimVectors_other {n key : Nat} (h : ∀ k < n, regionKey im ul c m k ≠ key) :
    tget {} (claimVectors im ul c m s n).bf.vec key = tget {} s.bf.vec key := by
  induction n with
  | zero => rfl
  | succ n ih =>
    rw [claimVectors_succ, claimVector_other _ _ _ _ _ _ (h n n.lt_succ_self).symm, ih fun k hk => h k (by omega)]

/-- Where no section waits, a claim is no more than its vectors. -/
theorem claimSlot_of_no_delivery {s : State} (h : s.dl.buffer = []) :
    claimSlot im ul c m s = claimVectors im ul c m s (regionOf im ul c).2 := by
  have hkeeps := claimVectors_keeps im ul c m s (regionOf im ul c).2
  have hdl : (claimVectors im ul c m s (regionOf im ul c).2).dl = s.dl := by rw [hkeeps]
  have hbuffer : { s.dl with buffer := [] } = s.dl := by rw [← h]
  have hclaim : claimSlot im ul c m s =
      let s1 := claimVectors im ul c m s (regionOf im ul c).2
      let s2 := (s1.dl.buffer.filter fun x => deliveryFor s1 ul c m x && !x.applied).foldl (fun t x => applyDelivery ul c m x t) s1
      { s2 with dl := { s2.dl with buffer := s2.dl.buffer.map fun x => if deliveryFor s1 ul c m x then { x with applied := true } else x } } := rfl
  rw [hclaim]
  simp only [hdl, h, List.filter_nil, List.foldl_nil, List.map_nil]
  rw [hbuffer, ← hdl]

end

/-- The claim instant has come, and the slot is noted as its carrier's last. -/
def claimDue (im : Image) (ul : Bool) (c m : Nat) (s : State) : State :=
  let t := advanceTo (claimInstant (ccMu im ul c) m) s
  { t with bf := { t.bf with
    claimed := tput (claimKey ul c) (slotStart (ccMu im ul c) m) (tdrop t.bf.claimed (claimKey ul c)) } }

theorem exec_weightClaim {s : State} {ul : Bool} {c frame slot : Nat} {im : Image} (him : claimImage s ul c frame slot = some im)
    (hbf : s.pwr.ready.getLsbD 5 = true) : exec (.weightClaim ul c frame slot) s =
      .next (claimSlot im ul c (slotCountOf (ccMu im ul c) frame slot) (claimDue im ul c (slotCountOf (ccMu im ul c) frame slot) s)) := by
  simp only [exec, execWeightClaim, him, hbf, if_true]
  rfl

theorem weightClaim_empties {s : State} {ul : Bool} {c frame slot : Nat} {im : Image} (him : claimImage s ul c frame slot = some im)
    (hbf : s.pwr.ready.getLsbD 5 = true) (hbuffer : s.dl.buffer = []) :
    let m := slotCountOf (ccMu im ul c) frame slot
    let reg := regionOf im ul c
    ∃ t, exec (.weightClaim ul c frame slot) s = .next t ∧
      (∀ k < reg.2, tget {} t.bf.vec (vecKey ul (m % 2) (reg.1 + k)) =
        { claim := some (c, m), ends := slotStart (ccMu im ul c) (m + 1), state := 0, data := [],
          past := (tget {} t.bf.vec (vecKey ul (m % 2) (reg.1 + k))).past }) ∧
      (∀ key, (∀ k < reg.2, vecKey ul (m % 2) (reg.1 + k) ≠ key) → tget {} t.bf.vec key = tget {} s.bf.vec key) ∧
      t = { s with bf := { s.bf with vec := t.bf.vec, claimed := t.bf.claimed }, stat := t.stat, tm := t.tm } := by
  intro m reg
  have hvec : (claimDue im ul c m s).bf.vec = s.bf.vec := by simp [claimDue]
  have hkeeps := claimVectors_keeps im ul c m (claimDue im ul c m s) reg.2
  refine ⟨_, exec_weightClaim him hbf, ?_⟩
  rw [claimSlot_of_no_delivery _ _ _ _ (by simpa [claimDue] using hbuffer)]
  refine ⟨fun k hk => claimVectors_claimed _ _ _ _ _ hk, fun key hkey => (claimVectors_other _ _ _ _ _ hkey).trans (by rw [hvec]), ?_⟩
  rw [hkeeps]
  simp only [claimDue]
  rw [advanceTo_eq]

/-! ### A delivery (R125, R198) -/

theorem tget_setVec (key : Nat) (w : WeightVec) (s : State) (j : Nat) : tget {} (setVec key w s).bf.vec j =
    if j = key then { w with past := pastOf s (tget {} s.bf.vec key) } else tget {} s.bf.vec j := by
  simp [setVec, tget_tset]

section
variable {ul : Bool} {c m : Nat} {x : Section} {reg : Nat × Nat} {s : State} {k : Nat}

/-- Key of the vector that place k of a delivery is for. -/
def deliveryKey (ul : Bool) (m : Nat) (x : Section) (k : Nat) : Nat := vecKey ul (m % 2) (u x.head 0 2 + k)

/-- The item that place k of a delivery names. -/
def deliveryItem (ul : Bool) (c m : Nat) (x : Section) (s : State) (k : Nat) : Item :=
  ⟨3, ul, c, 0, x.sym.frame, m % slotsPerFrame (ccMu (imageAt s x.air) ul c), 0, u x.head 0 2 + k⟩

theorem applyVector_eq : applyVector ul c m x reg s k =
    let key := deliveryKey ul m x k
    let w := tget {} s.bf.vec key
    if u x.head 0 2 + k < reg.1 ∨ reg.1 + reg.2 ≤ u x.head 0 2 + k then statAdd 0x17 (b2n ul) 2 1 s
    else if w.claim ≠ some (c, m) ∨ w.state = 2 then s
    else if w.state = 0 ∧ deliveryItem ul c m x s k ∉ s.dl.invalid then
      statAdd 0x17 (b2n ul) 0 1 (setVec key { w with state := 1, data := slice x.payload (256 * k) 256 } s)
    else statAdd 0x17 (b2n ul) 1 1 (setVec key { w with state := 2, data := [] } s) := rfl

/-- A delivery touches the vector that it names alone. -/
theorem applyVector_other {j : Nat} (h : j ≠ deliveryKey ul m x k) :
    tget {} (applyVector ul c m x reg s k).bf.vec j = tget {} s.bf.vec j := by
  rw [applyVector_eq]
  dsimp only
  split_ifs <;> simp [tget_setVec, h]

/-- Outside the region, or of another claim, the vector stays as it is. -/
theorem applyVector_unclaimed (h : u x.head 0 2 + k < reg.1 ∨ reg.1 + reg.2 ≤ u x.head 0 2 + k ∨
      (tget {} s.bf.vec (deliveryKey ul m x k)).claim ≠ some (c, m)) :
    tget {} (applyVector ul c m x reg s k).bf.vec (deliveryKey ul m x k) = tget {} s.bf.vec (deliveryKey ul m x k) := by
  by_cases hregion : u x.head 0 2 + k < reg.1 ∨ reg.1 + reg.2 ≤ u x.head 0 2 + k
  · simp [applyVector_eq, hregion]
  · have hclaim : (tget {} s.bf.vec (deliveryKey ul m x k)).claim ≠ some (c, m) := by tauto
    simp [applyVector_eq, hregion, hclaim]

section
variable (hlo : reg.1 ≤ u x.head 0 2 + k) (hhi : u x.head 0 2 + k < reg.1 + reg.2)
include hlo hhi

theorem applyVector_of_invalid (hinvalid : (tget {} s.bf.vec (deliveryKey ul m x k)).state = 2) : applyVector ul c m x reg s k = s := by
  simp [applyVector_eq, Nat.not_lt.mpr hlo, Nat.not_le.mpr hhi, hinvalid]

variable (hclaim : (tget {} s.bf.vec (deliveryKey ul m x k)).claim = some (c, m))
include hclaim

theorem applyVector_fills (hempty : (tget {} s.bf.vec (deliveryKey ul m x k)).state = 0) (hitem : deliveryItem ul c m x s k ∉ s.dl.invalid) :
    tget {} (applyVector ul c m x reg s k).bf.vec (deliveryKey ul m x k) =
      { tget {} s.bf.vec (deliveryKey ul m x k) with
        state := 1, data := slice x.payload (256 * k) 256, past := pastOf s (tget {} s.bf.vec (deliveryKey ul m x k)) } := by
  simp [applyVector_eq, Nat.not_lt.mpr hlo, Nat.not_le.mpr hhi, hclaim, hempty, hitem, tget_setVec]

theorem applyVector_invalidates (hfilled : (tget {} s.bf.vec (deliveryKey ul m x k)).state = 1) :
    tget {} (applyVector ul c m x reg s k).bf.vec (deliveryKey ul m x k) =
      { tget {} s.bf.vec (deliveryKey ul m x k) with
        state := 2, data := [], past := pastOf s (tget {} s.bf.vec (deliveryKey ul m x k)) } := by
  simp [applyVector_eq, Nat.not_lt.mpr hlo, Nat.not_le.mpr hhi, hclaim, hfilled, tget_setVec]

end

end

/-- Settles O55: the rows of the Cabinet one by one, then the claim and the delivery. -/
theorem cabinetAndClaim : Obligations.CabinetAndClaim := by
  unfold Obligations.CabinetAndClaim
  refine ⟨⟨?write, fun s q qs => cabinetWriteComplete_waits, fun s b => cabinetBoundary_makesLive, ?persist, ?complete⟩,
    fun s ul c frame slot im => weightClaim_empties, ?delivery⟩
  case write =>
    intro ring dma s h p d hlen hcount hzero hrecords hidle
    refine ⟨exec_beamCatalogueWrite_empty d hlen hzero hidle, fun w hsome hw =>
      ⟨_, exec_beamCatalogueWrite d hlen hcount hzero hrecords hidle hsome hw, rfl, writeQueued_frame ..⟩⟩
  case persist =>
    intro ring dma s h p d hlen hzero hidle hfree w
    exact exec_beamCataloguePersist d hlen hzero hidle hfree
  case complete =>
    intro s hrunning halone hwaiting hwrites hjobs hended hbad
    have hready : PersistReady s := ⟨hrunning, halone, hwaiting, hwrites, hjobs, hended, hbad⟩
    exact ⟨cataloguePersistComplete_done hready, cataloguePersistComplete_cutShort hready⟩
  case delivery =>
    intro s ul c m x reg k
    exact ⟨fun j => applyVector_other, fun hlo hhi hclaim => ⟨applyVector_fills hlo hhi hclaim, applyVector_invalidates hlo hhi hclaim,
      fun hinvalid => applyVector_of_invalid hlo hhi hinvalid⟩, applyVector_unclaimed⟩

end Sys2Proof.Machine
end

section
/-! SUPPORT. What passes the stages of a path unchanged, and what fits their words (R14, R209, R212, R214), and with them O54. -/

namespace Sys2Proof.Machine

/-! ### Saturation and rounding -/

theorem clampI_mem {lo hi : Int} (h : lo ≤ hi) (v : Int) : lo ≤ clampI lo hi v ∧ clampI lo hi v ≤ hi := by
  unfold clampI
  split_ifs <;> omega

theorem satBits_16_mem (v : Int) : -32768 ≤ satBits 16 v ∧ satBits 16 v ≤ 32767 := clampI_mem (by decide) v

theorem satBits_14_mem (v : Int) : -8192 ≤ satBits 14 v ∧ satBits 14 v ≤ 8191 := clampI_mem (by decide) v

/-- A multiple of the divisor is rounded to itself. -/
theorem rhe_mul_self (x : Int) {d : Nat} (hd : 0 < d) : rhe (x * d) d = x := by
  have hq : x * (d : Int) / d = x := Int.mul_ediv_cancel x (by omega)
  simp [rhe, hq, hd]

/-! ### Sums of products -/

theorem addIQ_zero (a : IQ) : addIQ a (0, 0) = a := by simp [addIQ]

theorem sumIQ_of_zero {l : List IQ} (h : ∀ x ∈ l, x = (0, 0)) : sumIQ l = (0, 0) := by
  induction l with
  | nil => rfl
  | cons x l ih =>
    obtain ⟨rfl, hl⟩ := List.forall_mem_cons.mp h
    exact ih hl

theorem accOf_of_zero {ops : List (IQ × IQ)} (h : ∀ e ∈ ops, e.1 = (0, 0)) : accOf ops = (0, 0) := by
  refine sumIQ_of_zero fun x hx => ?_
  obtain ⟨e, he, rfl⟩ := List.mem_map.mp hx
  simp [mulIQ, h e he]

/-! ### Predistortion (R212, R214) -/

/-- Zero coefficients add nothing to a path's own sample. -/
theorem dpdSum_of_zero (depth : Nat) (terms : List (Nat × Nat × Nat × Nat)) {coefs : List IQ} (h : ∀ c ∈ coefs, c = (0, 0))
    (own : Nat → IQ) (nb : Nat → Nat → Option IQ) : dpdSum depth terms coefs own nb [] = own 0 := by
  have hops : ∀ e ∈ dpdOperands depth terms coefs own nb [], e.1 = (0, 0) := fun e he => by
    obtain ⟨x, hx, rfl⟩ := List.mem_map.mp he
    exact h _ (List.of_mem_zip (List.of_mem_zip hx).2).2
  have herr : dpdErr [] none = (0, 0) := rfl
  have hround (x : Int) : rhe (x * 65536) 65536 = x := rhe_mul_self x (by decide)
  simp [dpdSum, accOf_of_zero hops, herr, addIQ_zero, rheIQ, hround]

theorem tgetList_nil {α : Type} (d : α) (k n : Nat) : tgetList d [] k n = List.replicate n d := by
  induction n generalizing k with
  | zero => rfl
  | succ n ih => rw [tgetList, ih]; rfl

theorem dpdView_coefs {s : State} {p : Nat} {t : Instant} {v : DpdView} (h : dpdView s p t = some v) :
    v.coefs = tgetList (0, 0) (bankAt s p (classAt s t) t) 0 48 := by
  simp only [dpdView] at h
  split at h
  · cases h
  · cases h
    rfl

theorem dpdAt_of_zero_bank {s : State} {p : Nat} {t : Instant} {v : DpdView} (hbank : bankAt s p (classAt s t) t = [])
    (hv : dpdView s p t = some v) (ws : List (Nat × Array IQ)) (a n : Int) : dpdAt (some v) ws a p [] n = sampleOf ws a p n := by
  have hcoefs : ∀ c ∈ v.coefs, c = (0, 0) := fun c hc => by
    rw [dpdView_coefs hv, hbank, tgetList_nil] at hc
    exact List.eq_of_mem_replicate hc
  simp [dpdAt, dpdSum_of_zero _ _ hcoefs]

theorem dpdView_of_bypass {s : State} {p : Nat} {t : Instant} (h : 3 < basisSet (imageAt s t) p) : dpdView s p t = none := if_pos h

/-! ### CFR (R206, R209) -/

section
variable {plan : Int → CfrPlan} (a : Int) (xs : List IQ)

/-- Without stages and clip a window goes on as it is. -/
theorem cfrStage_of_none (h : ∀ t, (plan t).stages = []) (i : Nat) : cfrStage plan a i xs = ⟨xs, []⟩ := by
  simp [cfrStage, CfrPlan.stage, h]

theorem cfrClip_of_none (h : ∀ t, (plan t).clip = none) : cfrClip plan a xs = xs := by
  simp only [cfrClip, h]
  exact List.map_snd_zip (by simp)

theorem cfrRun_of_none (hplan : ∀ t, plan t = ⟨[], none, #[]⟩) (hfits : ∀ x ∈ xs, satIQ 16 x = x) :
    (cfrRun plan a xs).out = xs ∧ (cfrRun plan a xs).peaks = [] := by
  have hstage := cfrStage_of_none a xs (plan := plan) (fun t => by rw [hplan])
  have hclip := cfrClip_of_none a xs (plan := plan) (fun t => by rw [hplan])
  have hsat : xs.map (satIQ 16) = xs := (List.map_congr_left hfits).trans (List.map_id xs)
  have hrange : List.range 4 = [0, 1, 2, 3] := rfl
  simp only [cfrRun, hrange, List.foldl_cons, List.foldl_nil, hstage, hsat, hclip, List.append_nil, and_self]

theorem cfrRun_fits (plan : Int → CfrPlan) : ∀ y ∈ (cfrRun plan a xs).out,
    (-32768 ≤ y.1 ∧ y.1 ≤ 32767) ∧ (-32768 ≤ y.2 ∧ y.2 ≤ 32767) := by
  intro y hy
  simp only [cfrRun] at hy
  obtain ⟨x, -, rfl⟩ := List.mem_map.mp hy
  exact ⟨satBits_16_mem x.1, satBits_16_mem x.2⟩

end

/-! ### Sample words (R14) -/

/-- A 14-bit pattern reads back as its value. -/
theorem signed_wrapN_14 {v : Int} (h : -8192 ≤ v ∧ v ≤ 8191) : signed 14 (wrapN 14 v) = v := by
  have hpow : 2 ^ 14 = 16384 := rfl
  simp only [signed, wrapN, hpow]
  split_ifs <;> omega

theorem sampleWord_toNat (c : IQ) : (sampleWord c).toNat = wrapN 14 c.1 * 2 ^ 18 + wrapN 14 c.2 * 4 := by
  have h (v : Int) : wrapN 14 v < 2 ^ 14 := by simp only [wrapN]; omega
  have hi := h c.1
  have hq := h c.2
  rw [sampleWord, BitVec.toNat_ofNat]
  omega

theorem wordCode_sampleWord {c : IQ} (hi : -8192 ≤ c.1 ∧ c.1 ≤ 8191) (hq : -8192 ≤ c.2 ∧ c.2 ≤ 8191) : wordCode (sampleWord c) = c := by
  have hhigh : bits (sampleWord c).toNat 18 14 = wrapN 14 c.1 := by
    rw [sampleWord_toNat, bits]
    simp only [wrapN]
    omega
  have hlow : bits (sampleWord c).toNat 2 14 = wrapN 14 c.2 := by
    rw [sampleWord_toNat, bits]
    simp only [wrapN]
    omega
  rw [wordCode, hhigh, hlow, signed_wrapN_14 hi, signed_wrapN_14 hq]

/-- The code leaves the two low bits of each half free. -/
theorem sampleWord_low (c : IQ) : ∀ k ∈ [0, 1, 16, 17], (sampleWord c).getLsbD k = false := by
  have hword := sampleWord_toNat c
  have hq : wrapN 14 c.2 < 2 ^ 14 := by simp only [wrapN]; omega
  intro k hk
  rw [BitVec.getLsbD, Nat.testBit_eq_decide_div_mod_eq, hword]
  fin_cases hk <;> simp only [decide_eq_false_iff_not] <;> omega

/-- Settles O54: zero coefficients, a bypass, and stages that are not in use; then the words. -/
theorem zeroBankPassesTheInput : Obligations.ZeroBankPassesTheInput := by
  unfold Obligations.ZeroBankPassesTheInput
  refine ⟨fun depth n terms own nb => dpdSum_of_zero _ _ (fun c hc => List.eq_of_mem_replicate hc) _ _,
    fun s p t v ws a n hbank hv => dpdAt_of_zero_bank hbank hv ws a n, fun s p t h => ⟨dpdView_of_bypass h, fun ws a err n => rfl⟩,
    fun plan a xs hplan hfits => cfrRun_of_none a xs hplan hfits, fun plan a xs => cfrRun_fits a xs plan,
    fun c => ⟨wordCode_sampleWord (satBits_14_mem c.1) (satBits_14_mem c.2), sampleWord_low _⟩⟩

end Sys2Proof.Machine
end

section
/-! SUPPORT. DPD banks: writes into the shadow banks (R221), and their commit (R219). -/

namespace Sys2Proof.Machine

/-! ### Tables into which a list is written -/

section
variable {α β : Type} [DecidableEq α] (d : α) (key : β → Nat) (val : β → α)

/-- A table after an entry for each element of a list, one after the other. -/
def written (l : List β) (t : Tbl α) : Tbl α := l.foldl (fun t b => tset d t (key b) (val b)) t

/-- An index whose every write gives one value reads as that value, if it is written or has read so before. -/
theorem tget_written {l : List β} {k : Nat} {v : α} (hval : ∀ b ∈ l, key b = k → val b = v) {t : Tbl α}
    (h : tget d t k = v ∨ ∃ b ∈ l, key b = k) : tget d (written d key val l t) k = v := by
  induction l generalizing t with
  | nil => simpa [written] using h
  | cons c l ih =>
    obtain ⟨hc, hl⟩ := List.forall_mem_cons.mp hval
    refine ih hl ?_
    by_cases hck : key c = k
    · exact .inl (by simp [hck, hc hck])
    · simpa [tget_tset_ne _ _ _ (Ne.symm hck), hck] using h

theorem tget_written_other {l : List β} {k : Nat} (h : ∀ b ∈ l, key b ≠ k) (t : Tbl α) : tget d (written d key val l t) k = tget d t k :=
  tget_written d key val (fun b hb hk => absurd hk (h b hb)) (.inl rfl)

end

/-! ### The bank write (R221) -/

theorem accessDomain_lin {d : Nat} {s t : State} (h : accessDomain d s = some t) : t.lin = s.lin := by
  unfold accessDomain at h
  dsimp only at h
  split_ifs at h <;> (injection h with h; subst h; simp)

/-- Shadow banks after the first n records of a write. -/
def shadowWritten (p : List Byte) (n : Nat) (t : Tbl Bank) : Tbl Bank := written [] (bankRecKey p) (bankRec p) (List.range n) t

/-- The first n records of a write have filled their shadow banks. -/
def banksWritten (p : List Byte) (n : Nat) (s : State) : State := { s with lin := { s.lin with shadow := shadowWritten p n s.lin.shadow } }

theorem banksWritten_eq (p : List Byte) (n : Nat) (s : State) : (List.range n).foldl (fun t r =>
    { t with lin := { t.lin with shadow := tset [] t.lin.shadow (bankRecKey p r) (bankRec p r) } }) s = banksWritten p n s := by
  induction n with
  | zero => rfl
  | succ n ih =>
    rw [List.range_succ, List.foldl_append, ih]
    simp only [banksWritten, shadowWritten, written, List.range_succ, List.foldl_append, List.foldl_cons, List.foldl_nil]

/-- A commit of banks is pending that the host or adaptation has asked for now. -/
def commitRequested (keys : List Nat) (host : Bool) (s : State) : State := (requestCommit keys host (nowU s) s).2

/-- Instant of the boundary of a commit requested now (R219). -/
def commitInstant (s : State) : Instant :=
  let t := nowU s + 50 * (usU : Int)
  nextClassSlot (imageAt s t) t

theorem commitRequested_eq (keys : List Nat) (host : Bool) (s : State) : commitRequested keys host s =
    { s with lin := { s.lin with commits := s.lin.commits ++ [⟨keys, commitInstant s, host⟩] } } := rfl

/-- What the answer of a bank write tells of the commit it has asked for (Table 9-5). -/
def commitReply (s : State) : List Byte :=
  let nm := className (imageAt s (commitInstant s)) (commitInstant s)
  zeros 6 ++ (leBytes 8 nm.frame ++ (leBytes 1 nm.subframe ++ (leBytes 1 nm.slot ++ zeros 6)))

theorem commitReply_length (s : State) : (commitReply s).length = 22 := by
  simp [commitReply, leBytes_length, zeros_length]

section
variable {p : List Byte} {n : Nat}

/-- Records whose fields all pass name a class below 16, and no pair twice. -/
theorem bankRecKey_injOn (h : firstBad ((List.range n).flatMap (bankRecChecks p)) = none) {q r : Nat} (hq : q < n) (hr : r < n)
    (hkey : bankRecKey p q = bankRecKey p r) : q = r := by
  have hgood : ∀ k < n, ∀ c ∈ bankRecChecks p k, c.2 = true := fun k hk c hc =>
    (firstBad_eq_none_iff _).mp h c (List.mem_flatMap.mpr ⟨k, List.mem_range.mpr hk, hc⟩)
  have hclass : ∀ k < n, (bankRecName p k).2 ≤ 15 := fun k hk => by
    simpa [inRange, bankRecName] using hgood k hk (inRange p (16 + 392 * k + 1) 1 0 15) (by simp [bankRecChecks])
  have hnew : ∀ k < n, ∀ j < k, bankRecName p j ≠ bankRecName p k := fun k hk j hj => by
    have hdup := hgood k hk _ (List.mem_append_left _ List.mem_cons_self)
    simp only [Bool.and_eq_true, Bool.not_eq_true', List.any_eq_false, List.mem_range, decide_eq_true_eq] at hdup
    exact hdup.2 j hj
  have hname : bankRecName p q = bankRecName p r := by
    have hcq := hclass q hq
    have hcr := hclass r hr
    simp only [bankRecKey, bankKey] at hkey
    exact Prod.ext (by omega) (by omega)
  rcases Nat.lt_trichotomy q r with hlt | heq | hlt
  · exact absurd hname (hnew r hr q hlt)
  · exact heq
  · exact absurd hname.symm (hnew q hq r hlt)

theorem tget_shadowWritten (h : firstBad ((List.range n).flatMap (bankRecChecks p)) = none) {r : Nat} (hr : r < n) (t : Tbl Bank) :
    tget [] (shadowWritten p n t) (bankRecKey p r) = bankRec p r := by
  refine tget_written _ _ _ (fun q hq hkey => ?_) (.inr ⟨r, List.mem_range.mpr hr, rfl⟩)
  rw [bankRecKey_injOn h (List.mem_range.mp hq) hr hkey]

theorem tget_shadowWritten_other {k : Nat} (h : ∀ r < n, bankRecKey p r ≠ k) (t : Tbl Bank) :
    tget [] (shadowWritten p n t) k = tget [] t k :=
  tget_written_other _ _ _ (fun r hr => h r (List.mem_range.mp hr)) t

end

/-- A write into shadow banks whose fields pass, in a mode that allows it, and whose pairs neither adapt nor wait for a commit. -/
structure ShadowWrite (p : List Byte) (s : State) : Prop where
  length : p.length = 16 + 392 * u p 0 2
  count : u p 0 2 ≤ 41
  target : u p 2 1 = 0
  commit : u p 3 1 ≤ 1
  reserved : slice p 4 12 = zeros 12
  records : firstBad ((List.range (u p 0 2)).flatMap (bankRecChecks p)) = none
  mode : bankMode s.pwr.mode = true
  free : ∀ r < u p 0 2, (tget {} s.lin.adapt (bankRecKey p r)).state ≠ 1 ∧ frozen s (bankRecKey p r) = false

theorem ShadowWrite.body {p : List Byte} {s : State} (hp : ShadowWrite p s) (a : Asker) :
    bankWriteBody a p s = onDomain 8 a s fun w =>
      let t := banksWritten p (u p 0 2) w
      if u p 3 1 = 1 ∧ u p 0 2 ≠ 0 then
        ok (leBytes 2 (u p 0 2) ++ commitReply w) (commitRequested ((List.range (u p 0 2)).map (bankRecKey p)) true t)
      else ok (leBytes 2 (u p 0 2) ++ zeros 22) t := by
  have hlength : ¬(p.length < 16 ∨ p.length ≠ 16 + 392 * u p 0 2) := by have := hp.length; omega
  have hcommit : u p 3 1 = 0 ∨ u p 3 1 = 1 := by have := hp.commit; omega
  have hfields : firstBad ([inRange p 0 2 0 41, inRange p 2 1 0 1, (3, decide (u p 3 1 = 0 ∨ (u p 3 1 = 1 ∧ u p 2 1 = 0))), isZero p 4 12] ++
      (List.range (u p 0 2)).flatMap (bankRecChecks p)) = none := by
    rw [firstBad_eq_none_iff, List.forall_mem_append]
    exact ⟨by simp [inRange, hp.count, hp.target, hcommit, isZero_of_slice hp.reserved], (firstBad_eq_none_iff _).mp hp.records⟩
  have hrunning : ((List.range (u p 0 2)).map (bankRecKey p)).any (fun k => decide ((tget {} s.lin.adapt k).state = 1)) = false := by
    simpa using fun r hr => (hp.free r hr).1
  have hfrozen : ((List.range (u p 0 2)).map (bankRecKey p)).any (frozen s) = false := by
    simpa using fun r hr => (hp.free r hr).2
  have hmatch (l : List Nat) : l.find? (fun _ => false) = none := by simp
  simp only [bankWriteBody, hlength, if_false, withFields_of_none hfields]
  simp only [hp.target, hp.mode, Bool.not_true, Bool.false_eq_true, hrunning, or_self, and_false, if_false, zero_ne_one, decide_false,
    List.not_mem_nil, not_false_eq_true, decide_true, Bool.and_true, hmatch, hfrozen, ne_eq, if_true, List.append_assoc, banksWritten_eq]
  rfl

theorem ShadowWrite.at_consumed {p : List Byte} {s : State} (hp : ShadowWrite p s) (ring : Nat) (h : Hdr) :
    ShadowWrite p (consumed ring h s) :=
  ⟨hp.length, hp.count, hp.target, hp.commit, hp.reserved, hp.records, by rw [consumed_pwr]; exact hp.mode,
    by simpa [frozen] using hp.free⟩

section
variable {ring : Nat} {dma : List Byte} {s w : State} {h : Hdr} {p : List Byte} (d : Delivered 0x0402 ring dma s h p) (hp : ShadowWrite p s)
  (hw : accessDomain 8 (consumed ring h s) = some w)
include d hp hw

theorem exec_dpdBankWrite_commits (hcommit : u p 3 1 = 1 ∧ u p 0 2 ≠ 0) : exec (.dpdBankWrite ring dma) s =
    .next (answered (askerOf ring h s) (leBytes 2 (u p 0 2) ++ commitReply w)
      (commitRequested ((List.range (u p 0 2)).map (bankRecKey p)) true (banksWritten p (u p 0 2) w))) := by
  simp only [exec, execDpdBankWrite, runMessage_delivered _ d, (hp.at_consumed ring h).body, onDomain_of_access hw, if_pos hcommit, settle_ok]

theorem exec_dpdBankWrite_fills (hcommit : ¬(u p 3 1 = 1 ∧ u p 0 2 ≠ 0)) : exec (.dpdBankWrite ring dma) s =
    .next (answered (askerOf ring h s) (leBytes 2 (u p 0 2) ++ zeros 22) (banksWritten p (u p 0 2) w)) := by
  simp only [exec, execDpdBankWrite, runMessage_delivered _ d, (hp.at_consumed ring h).body, onDomain_of_access hw, if_neg hcommit, settle_ok]

theorem dpdBankWrite_fillsShadow : ∃ t b, exec (.dpdBankWrite ring dma) s =
      .next (answered (askerOf ring h s) (leBytes 2 (u p 0 2) ++ b) t) ∧ b.length = 22 ∧
    (∀ r < u p 0 2, tget [] t.lin.shadow (bankRecKey p r) = bankRec p r) ∧
    (∀ k, (∀ r < u p 0 2, bankRecKey p r ≠ k) → tget [] t.lin.shadow k = tget [] s.lin.shadow k) ∧
    t = { w with lin := { w.lin with shadow := t.lin.shadow, commits := t.lin.commits } } ∧
    (u p 3 1 = 0 → t.lin.commits = w.lin.commits) ∧
    (u p 3 1 = 1 → u p 0 2 ≠ 0 → ∃ at_, t.lin.commits = w.lin.commits ++ [⟨(List.range (u p 0 2)).map (bankRecKey p), at_, true⟩]) := by
  have hlin : w.lin = s.lin := by rw [accessDomain_lin hw, consumed_lin]
  have hself : ∀ r < u p 0 2, tget [] (shadowWritten p (u p 0 2) w.lin.shadow) (bankRecKey p r) = bankRec p r :=
    fun r hr => tget_shadowWritten hp.records hr _
  have hother : ∀ k, (∀ r < u p 0 2, bankRecKey p r ≠ k) →
      tget [] (shadowWritten p (u p 0 2) w.lin.shadow) k = tget [] s.lin.shadow k :=
    fun k hk => (tget_shadowWritten_other hk _).trans (by rw [hlin])
  by_cases hcommit : u p 3 1 = 1 ∧ u p 0 2 ≠ 0
  · exact ⟨_, _, exec_dpdBankWrite_commits d hp hw hcommit, commitReply_length w, hself, hother, rfl, fun h0 => by omega,
      fun _ _ => ⟨_, rfl⟩⟩
  · exact ⟨_, _, exec_dpdBankWrite_fills d hp hw hcommit, zeros_length 22, hself, hother, rfl, fun _ => rfl,
      fun h1 hn => absurd ⟨h1, hn⟩ hcommit⟩

end

/-! ### The commit (R219) -/

/-- One bank of a commit becomes live: counted, and noted by the pair that asked for it. -/
def bankLive (c : BankCommit) (t : State) (key : Nat) : State :=
  let t1 := { t with lin := { t.lin with live := tset [] t.lin.live key (tget [] t.lin.shadow key) } }
  let t2 := statAdd 0x18 (key / 16) (if c.host then 3 else 4) 1 t1
  if c.host then t2
  else
    let a := tget {} t2.lin.adapt key
    let a1 : Adapt := { a with commits := (a.commits + 1) % 2 ^ 32, lastAir := some c.boundary }
    { t2 with lin := { t2.lin with adapt := tset {} t2.lin.adapt key a1 } }

theorem bankLive_lin (c : BankCommit) (t : State) (key : Nat) : (bankLive c t key).lin =
    { t.lin with live := tset [] t.lin.live key (tget [] t.lin.shadow key), adapt := (bankLive c t key).lin.adapt } := by
  unfold bankLive
  dsimp only
  split <;> simp

theorem foldl_bankLive_lin (c : BankCommit) (keys : List Nat) (s : State) : (keys.foldl (bankLive c) s).lin =
    { s.lin with live := written [] id (tget [] s.lin.shadow) keys s.lin.live, adapt := (keys.foldl (bankLive c) s).lin.adapt } := by
  induction keys generalizing s with
  | nil => rfl
  | cons k keys ih =>
    rw [List.foldl_cons, ih, bankLive_lin]
    rfl

theorem runCommit_lin (c : BankCommit) (s : State) : (runCommit c s).lin =
    { s.lin with live := written [] id (tget [] s.lin.shadow) c.pairs s.lin.live, commits := s.lin.commits.erase c,
                 adapt := (runCommit c s).lin.adapt } := by
  have hlin : (runCommit c s).lin = (c.pairs.foldl (bankLive c) { s with lin := { s.lin with commits := s.lin.commits.erase c } }).lin := by
    simp only [runCommit, raise_frame]
    rfl
  rw [hlin, foldl_bankLive_lin]

theorem runCommit_status (c : BankCommit) (s : State) : (runCommit c s).ev.status.getLsbD 84 = true := raise_status _ _ _ (by decide)

theorem bankCommit_makesLive {s : State} {c : BankCommit} (h : firstCommit s.lin.commits = some c) : ∃ t, exec .bankCommit s = .next t ∧
    (∀ k ∈ c.pairs, tget [] t.lin.live k = tget [] s.lin.shadow k) ∧ (∀ k, k ∉ c.pairs → tget [] t.lin.live k = tget [] s.lin.live k) ∧
    t.lin.shadow = s.lin.shadow ∧ t.lin.commits = s.lin.commits.erase c ∧ t.ev.status.getLsbD 84 = true ∧ t.cfg = s.cfg ∧ t.pwr = s.pwr := by
  have hexec : exec .bankCommit s = .next (runCommit c (advanceTo c.boundary s)) := by simp only [exec, execBankCommit, h]
  have hlin := runCommit_lin c (advanceTo c.boundary s)
  refine ⟨_, hexec, fun k hk => ?_, fun k hk => ?_, ?_, ?_, runCommit_status .., by simp, by simp⟩
  all_goals rw [hlin]; simp only [advanceTo_frame]
  · exact tget_written _ _ _ (fun b _ hb => by rw [← hb]; rfl) (.inr ⟨k, hk, rfl⟩)
  · exact tget_written_other _ _ _ (fun b hb (hbk : b = k) => hk (hbk ▸ hb)) _

end Sys2Proof.Machine
end

section
/-! SUPPORT. The write of a record by a persist that queues it alone: done, cut short, or its lease revoked (R222, R370, R392), and with the
record of the banks O51. -/

namespace Sys2Proof.Machine

/-! ### The lease of the NVM (R391, R392) -/

/-- A lease that is not being given up stands as its entry says. -/
theorem leaseNow_of_not_freed {s : State} {e : Nat} (h : (leaseOf s e).free = none) : leaseNow s e = leaseOf s e := by
  simp only [leaseNow, h]

/-- Lease e is held, and not being given up. -/
def Held (e : Nat) (s : State) : Prop := (leaseOf s e).holder ≠ 0 ∧ (leaseOf s e).free = none

theorem Held.of_ls {s t : State} {e : Nat} (h : Held e s) (hls : t.ls = s.ls) : Held e t := by
  unfold Held leaseOf
  rw [hls]
  exact h

/-- Once asked for, a lease is held: by the one that asks, or by who has held it before. -/
theorem requestLease_held {s : State} {e n : Nat} (h : (leaseOf s e).free = none) (hn : n ≠ 0) : Held e (requestLease e n s) := by
  unfold requestLease Held
  rw [leaseNow_of_not_freed h]
  dsimp only
  split_ifs with hfree hheld
  · simpa [h] using hn
  · exact ⟨hfree, h⟩
  · simpa [h] using hfree

theorem writeLog_nvm (kind : Nat) (detail : List Byte) (s : State) : (writeLog kind detail s).nvm.copy = s.nvm.copy ∧
    (writeLog kind detail s).nvm.jobs = s.nvm.jobs ∧ (writeLog kind detail s).nvm.ended = s.nvm.ended := by
  unfold writeLog
  dsimp only
  split_ifs <;> simp

/-- The revocation of a held lease is an event (R392), and it touches no record. -/
theorem revokeEntry_of_held {s : State} {e : Nat} (h : Held e s) (cause : Nat) : (revokeEntry e cause s).ev.status.getLsbD 208 = true ∧
    (revokeEntry e cause s).nvm.copy = s.nvm.copy ∧ (revokeEntry e cause s).nvm.jobs = s.nvm.jobs ∧
    (revokeEntry e cause s).nvm.ended = s.nvm.ended := by
  obtain ⟨hheld, hfree⟩ := h
  have hgo : ¬((leaseNow s e).holder = 0 ∨ (leaseNow s e).free.isSome = true) := by simp [leaseNow_of_not_freed hfree, hheld, hfree]
  simp only [revokeEntry, if_neg hgo, setLease_frame, writeLog_frame, writeLog_nvm, raise_frame]
  exact ⟨raise_status _ _ _ (by decide), trivial, trivial, trivial⟩

theorem revokeLease_nvm {s : State} (h : Held 0 s) (cause : Nat) : revokeLease 0 cause s = revokeEntry 0 cause (tearWrites s) := by
  obtain ⟨hheld, hfree⟩ := h
  have hgo : ¬((leaseNow s 0).holder = 0 ∨ (leaseNow s 0).free.isSome = true) := by simp [leaseNow_of_not_freed hfree, hheld, hfree]
  simp [revokeLease, hgo, forceRelease]

/-! ### A record that a persist queues alone (R370) -/

/-- The write of a record that a persist queues. -/
def recordJob (id : Nat) (data : List Byte) (s : State) : NvmJob := ⟨id, (nextWrite s id).1, (nextWrite s id).2, data, 0, none, false⟩

/-- That write is the only one in the queue. -/
def recordQueued (id : Nat) (data : List Byte) (s : State) : State := { s with nvm := { s.nvm with jobs := [recordJob id data s] } }

/-- The copy that the next write of the record leaves after its first k words. -/
def recordCopy (id : Nat) (data : List Byte) (s : State) (k : Nat) : NvmCopy :=
  partialCopy (copyOf s id (nextWrite s id).1) id (nextWrite s id).2 data k

/-- The record, written to its end. -/
def recordWritten (id : Nat) (data : List Byte) (s : State) : State :=
  writeWords (recordJob id data s) [] (recordWords data.length) (recordQueued id data s)

/-- A write that has not begun when it stops leaves its first word (R370). -/
theorem nvmTorn_recordQueued (id : Nat) (data : List Byte) (s : State) : (nvmTorn (recordQueued id data s)).nvm =
    { (recordQueued id data s).nvm with copy := tset {} s.nvm.copy (2 * id + (nextWrite s id).1) (recordCopy id data s 1) } := rfl

theorem nvmTorn_nvm_congr {s t : State} (h : t.nvm = s.nvm) : (nvmTorn t).nvm = (nvmTorn s).nvm := by
  simp only [nvmTorn, h]
  split
  · exact h
  · split <;> simp [setCopy, copyOf, h]

/-- A persist's write that loses its lease ends torn, with LEASE_REVOKED (R392). -/
theorem tearWrites_nvm {t : State} {j : NvmJob} (hjobs : t.nvm.jobs = [j]) (hpersist : j.asker = none) (hcal : calRecord j.id = false) :
    (tearWrites t).nvm.copy = (nvmTorn t).nvm.copy ∧ (tearWrites t).nvm.jobs = [] ∧
    (tearWrites t).nvm.ended = (j.id, stLeaseRevoked) :: (nvmTorn t).nvm.ended := by
  simp [tearWrites, hjobs, hpersist, hcal]

/-- The Bureau has asked for the lease and held it for its maximum. -/
def leaseOverheld (s : State) : State :=
  let t := requestLease 0 1 s
  advanceSince (leaseNow t 0).granted (leaseMax 0 * 1474560) t

theorem leaseOverheld_frame (s : State) : (leaseOverheld s).nvm = s.nvm ∧ (leaseOverheld s).lin = s.lin := by simp [leaseOverheld]

theorem leaseOverheld_held {s : State} (h : (leaseOf s 0).free = none) : Held 0 (leaseOverheld s) :=
  (requestLease_held (n := 1) h (by decide)).of_ls (by simp [leaseOverheld])

theorem revokeStep_eq (s : State) : revokeStep s = revokeLease 0 1 (leaseOverheld s) := rfl

theorem persistEnd_leaseRevoked {id : Nat} {s : State} (hopen : persistStatus id (queuePersists s) = none)
    (hbusy : recordBusy id (queuePersists s) = true) : persistEnd id .leaseRevoked s =
    let t := revokeStep (finishWrites id false (queuePersists s).nvm.jobs (queuePersists s))
    some ((persistStatus id t).getD stLeaseRevoked, endForgotten id t) := by
  simp only [persistEnd, hopen, hbusy]
  rfl

/-- A persist queues its record alone, no write has ended, and no word of a memory holds an error. -/
structure QueuesAlone (id : Nat) (data : List Byte) (s : State) : Prop where
  queued : queuePersists s = recordQueued id data s
  ended : s.nvm.ended = []
  bad : s.ls.bad = []
  persists : id ∉ [0x0101, 0x0102, 0x0201, 0x0202]

section
variable {id : Nat} {data : List Byte} {s : State} (h : QueuesAlone id data s)
include h

theorem QueuesAlone.persistStatus : persistStatus id (queuePersists s) = none := by
  simp [Machine.persistStatus, h.queued, recordQueued, h.ended]

theorem QueuesAlone.recordBusy : recordBusy id (queuePersists s) = true := by
  simp [Machine.recordBusy, h.queued, recordQueued, recordJob]

theorem QueuesAlone.not_calRecord : calRecord id = false := by
  have := h.persists
  simp only [calRecord, decide_eq_false_iff_not]
  simp only [List.mem_cons] at this ⊢
  tauto

theorem QueuesAlone.written_nvm : (recordWritten id data s).nvm.copy =
      tset {} s.nvm.copy (2 * id + (nextWrite s id).1) (recordCopy id data s (recordWords data.length)) ∧
    (recordWritten id data s).nvm.jobs = [] ∧ (recordWritten id data s).nvm.ended = [(id, 0)] := by
  have hnvm : (recordWritten id data s).nvm = _ := writeWords_whole (s := recordQueued id data s) h.bad rfl h.persists
  rw [hnvm]
  exact ⟨rfl, rfl, congrArg _ h.ended⟩

theorem QueuesAlone.persistEnd_done : ∃ v, persistEnd id .done s = some (0, v) ∧
    NextCopyIs s v id (recordCopy id data s (recordWords data.length)) ∧ v.lin = s.lin ∧ v.nvm.jobs = [] := by
  obtain ⟨hcopy, hjobs, hended⟩ := h.written_nvm
  have hfinish : finishWrites id true (recordQueued id data s).nvm.jobs (recordQueued id data s) = recordWritten id data s := if_pos rfl
  have hstatus : Machine.persistStatus id (recordWritten id data s) = some 0 := by simp [Machine.persistStatus, hended]
  have hend : persistEnd id .done s = some (0, endForgotten id (recordWritten id data s)) := by
    rw [Machine.persistEnd_done h.persistStatus h.recordBusy, h.queued, hfinish]
    simp only [hstatus, Option.getD_some]
  exact ⟨_, hend, hcopy, by simp [endForgotten, recordWritten, recordQueued], hjobs⟩

/-- A cut leaves the copy torn. -/
theorem QueuesAlone.persistEnd_cutShort : ∃ v, persistEnd id .cutShort s = some (0x19, v) ∧
    NextCopyIs s v id (recordCopy id data s 1) ∧ v.lin = s.lin ∧ v.nvm.jobs = [] := by
  have hdrop : dropJob id (recordQueued id data s) = { nvmTorn (recordQueued id data s) with
      nvm := { (nvmTorn (recordQueued id data s)).nvm with jobs := [] } } := by
    simp [dropJob, recordQueued, recordJob, nvmTorn_jobs]
  refine ⟨_, Machine.persistEnd_cutShort h.persistStatus h.recordBusy, ?_, ?_, ?_⟩
  all_goals rw [h.queued, hdrop]
  · rw [NextCopyIs, nvmTorn_recordQueued]
  · simp [recordQueued]

theorem QueuesAlone.revoked_nvm (hfree : (leaseOf s 0).free = none) : (revokeStep (recordQueued id data s)).nvm.copy =
      tset {} s.nvm.copy (2 * id + (nextWrite s id).1) (recordCopy id data s 1) ∧
    (revokeStep (recordQueued id data s)).nvm.jobs = [] ∧ (revokeStep (recordQueued id data s)).nvm.ended = [(id, stLeaseRevoked)] ∧
    (revokeStep (recordQueued id data s)).ev.status.getLsbD 208 = true := by
  have hheld : Held 0 (leaseOverheld (recordQueued id data s)) := leaseOverheld_held hfree
  have hnvm := (leaseOverheld_frame (recordQueued id data s)).1
  have htorn := nvmTorn_nvm_congr hnvm
  obtain ⟨hcopy, hjobs, hended⟩ := tearWrites_nvm (t := leaseOverheld (recordQueued id data s)) (j := recordJob id data s)
    (by rw [hnvm]; rfl) rfl h.not_calRecord
  obtain ⟨hstatus, hcopy', hjobs', hended'⟩ := revokeEntry_of_held (hheld.of_ls (t := tearWrites (leaseOverheld (recordQueued id data s)))
    (by simp)) 1
  rw [revokeStep_eq, revokeLease_nvm hheld, hcopy', hcopy, hjobs', hjobs, hended', hended, htorn, nvmTorn_recordQueued]
  exact ⟨rfl, rfl, congrArg _ h.ended, hstatus⟩

theorem QueuesAlone.persistEnd_leaseRevoked (hfree : (leaseOf s 0).free = none) :
    ∃ v, persistEnd id .leaseRevoked s = some (stLeaseRevoked, v) ∧
    NextCopyIs s v id (recordCopy id data s 1) ∧ v.lin = s.lin ∧ v.nvm.jobs = [] ∧ v.ev.status.getLsbD 208 = true := by
  obtain ⟨hcopy, hjobs, hended, hstatus⟩ := h.revoked_nvm hfree
  have hfinish : finishWrites id false (recordQueued id data s).nvm.jobs (recordQueued id data s) = recordQueued id data s := if_pos rfl
  have hpersist : Machine.persistStatus id (revokeStep (recordQueued id data s)) = some stLeaseRevoked := by
    simp [Machine.persistStatus, hended]
  have hend : persistEnd id .leaseRevoked s = some (stLeaseRevoked, endForgotten id (revokeStep (recordQueued id data s))) := by
    rw [Machine.persistEnd_leaseRevoked h.persistStatus h.recordBusy, h.queued, hfinish]
    simp only [hpersist, Option.getD_some]
  have hlin : (revokeStep (recordQueued id data s)).lin = s.lin := by
    rw [revokeStep_eq, revokeLease_nvm (leaseOverheld_held (s := recordQueued id data s) hfree)]
    simp [leaseOverheld_frame, recordQueued]
  exact ⟨_, hend, hcopy, hlin, hjobs, hstatus⟩

end

/-! ### The record of the banks (R222, Table 16-3) -/

theorem imgBytes_length (im : Image) (sec o n : Nat) : (imgBytes im sec o n).length = n := by
  induction n generalizing o with
  | zero => rfl
  | succ n ih => simp [imgBytes, ih]

theorem leI_length (n : Nat) (v : Int) : (leI n v).length = n := leBytes_length ..

theorem coef6Bytes_length (c : IQ) : (coef6Bytes c).length = 6 := by simp [coef6Bytes, leI_length]

theorem bankRecordBytes_length (s : State) : (bankRecordBytes s).length = 298048 := by
  have hbank (k : Nat) : ((tgetList (0, 0) (tget [] s.lin.live k) 0 48).flatMap coef6Bytes).length = 288 := by
    rw [flatMap_length_of_length coef6Bytes_length, tgetList_length]
  rw [bankRecordBytes, List.length_append, imgBytes_length, flatMap_length_of_length hbank, List.length_range]

/-- A bank persist runs, alone, with no commit pending and its write not begun; no word of a memory holds an error. -/
structure BankPersistReady (s : State) : Prop where
  running : longRunning .bankPersist s = true
  alone : longRunning .cataloguePersist s = false
  commits : s.lin.commits = []
  jobs : s.nvm.jobs = []
  ended : s.nvm.ended = []
  bad : s.ls.bad = []

/-! ### The rows (R222) -/

theorem exec_dpdBankPersist {ring : Nat} {dma : List Byte} {s w : State} {h : Hdr} {p : List Byte} (d : Delivered 0x0404 ring dma s h p)
    (hlen : p.length = 4) (hzero : slice p 0 4 = zeros 4) (hidle : longRunning .bankPersist s = false)
    (hfree : recordBusy 0x0401 s = false) (hw : accessDomain 2 (consumed ring h s) = some w) :
    exec (.dpdBankPersist ring dma) s = .next (acceptedLong .bankPersist (askerOf ring h s) w) := by
  have hgood : ∀ c ∈ [isZero p 0 4], c.2 = true := by simp [isZero_of_slice hzero]
  have hready : ¬(longRunning .bankPersist (consumed ring h s) = true ∨ recordBusy 0x0401 (consumed ring h s) = true) := by
    have hidle' : longRunning .bankPersist (consumed ring h s) = false := by rwa [longRunning, consumed_long]
    have hfree' : recordBusy 0x0401 (consumed ring h s) = false := by rwa [recordBusy, consumed_nvm]
    simp [hidle', hfree']
  have hroom : (consumed ring h s).ph.long.length < 8 := by simpa using (d.long (by decide)).2
  simp only [exec, execDpdBankPersist, runMessage_delivered _ d, bankPersistBody,
    withLength_of_mem (show p.length ∈ [4] by simp [hlen]), withFields_of_good hgood, if_neg hready, onDomain_of_access hw,
    settle_accepted _ _ _ _ _ hroom]

theorem exec_bankPersistComplete {s v : State} {e : LongEnd} {st : Nat} (hrunning : longRunning .bankPersist s = true)
    (hend : persistEnd 0x0401 e s = some (st, v)) : exec (.bankPersistComplete e) s =
      .next (finishLong .bankPersist st 0 (if st = 0 then leBytes 4 (recordSeq v 0x0401) ++ zeros 4 else []) v) := by
  simp only [exec, execBankPersistComplete, hrunning, hend, Bool.not_true, Bool.false_eq_true, if_false]

section
variable {s : State} (h : BankPersistReady s)
include h

theorem BankPersistReady.queuesAlone : QueuesAlone 0x0401 (bankRecordBytes s) s where
  queued := by
    have hbusy : recordBusy 0x0401 s = false := by simp [recordBusy, h.jobs]
    have hqueued : queueRecord 0x0401 (bankRecordBytes s) none s = recordQueued 0x0401 (bankRecordBytes s) s := by
      rw [queueRecord, h.jobs]
      rfl
    simp [queuePersists, h.running, h.alone, h.commits, h.ended, hbusy, hqueued]
  ended := h.ended
  bad := h.bad
  persists := by decide

theorem bankPersistComplete_done : ∃ v, exec (.bankPersistComplete .done) s =
      .next (finishLong .bankPersist 0 0 (leBytes 4 (nextWrite s 0x0401).2 ++ zeros 4) v) ∧
    (bankRecordBytes s).length = 298048 ∧ recordData v 0x0401 = some (bankRecordBytes s) ∧
    (∀ id, id ≠ 0x0401 → inForce v id = inForce s id) ∧ v.lin = s.lin ∧ v.nvm.jobs = [] := by
  obtain ⟨v, hend, hcopy, hlin, hjobs⟩ := h.queuesAlone.persistEnd_done
  have hvalid : copyState 0x0401 (recordCopy 0x0401 (bankRecordBytes s) s (recordWords (bankRecordBytes s).length)) = 1 :=
    copyState_whole _ _ (by decide) (by rw [bankRecordBytes_length]; decide)
  have hforce := hcopy.inForce_valid hvalid (by rw [recordCopy, partialCopy_whole])
  have hdata : recordData v 0x0401 = some (bankRecordBytes s) := by rw [recordData, hforce, recordCopy, partialCopy_whole]; rfl
  have hseq : recordSeq v 0x0401 = (nextWrite s 0x0401).2 := by rw [recordSeq, hforce, recordCopy, partialCopy_whole]; rfl
  refine ⟨v, ?_, bankRecordBytes_length s, hdata, fun id hid => hcopy.inForce_other hid, hlin, hjobs⟩
  rw [exec_bankPersistComplete h.running hend, if_pos rfl, hseq]

theorem bankPersistComplete_cutShort : ∃ v, exec (.bankPersistComplete .cutShort) s = .next (finishLong .bankPersist 0x19 0 [] v) ∧
    inForce v 0x0401 = inForce s 0x0401 ∧ v.lin = s.lin ∧ v.nvm.jobs = [] := by
  obtain ⟨v, hend, hcopy, hlin, hjobs⟩ := h.queuesAlone.persistEnd_cutShort
  refine ⟨v, ?_, hcopy.inForce_invalid (copyState_torn _ _ _ _), hlin, hjobs⟩
  rw [exec_bankPersistComplete h.running hend, if_neg (by decide)]

theorem bankPersistComplete_leaseRevoked (hfree : (leaseOf s 0).free = none) : ∃ v, exec (.bankPersistComplete .leaseRevoked) s =
      .next (finishLong .bankPersist 0x1A 0 [] v) ∧
    inForce v 0x0401 = inForce s 0x0401 ∧ v.lin = s.lin ∧ v.nvm.jobs = [] ∧ v.ev.status.getLsbD 208 = true := by
  obtain ⟨v, hend, hcopy, hlin, hjobs, hstatus⟩ := h.queuesAlone.persistEnd_leaseRevoked hfree
  refine ⟨v, ?_, hcopy.inForce_invalid (copyState_torn _ _ _ _), hlin, hjobs, hstatus⟩
  rw [exec_bankPersistComplete h.running hend, if_neg (by decide), stLeaseRevoked]

end

/-- Settles O51: the write, the commit, and the persist with its three ends. -/
theorem banksWrittenAndCommitted : Obligations.BanksWrittenAndCommitted := by
  unfold Obligations.BanksWrittenAndCommitted
  refine ⟨?write, fun s c => bankCommit_makesLive, ?persist, ?complete⟩
  case write =>
    intro ring dma s h p w d hlen hcount htarget hcommit hzero hrecords hmode hfree hw
    exact dpdBankWrite_fillsShadow d ⟨hlen, hcount, htarget, hcommit, hzero, hrecords, hmode, hfree⟩ hw
  case persist =>
    intro ring dma s h p d hlen hzero hidle hbusy w
    exact exec_dpdBankPersist d hlen hzero hidle hbusy
  case complete =>
    intro s hrunning halone hcommits hjobs hended hbad
    have hready : BankPersistReady s := ⟨hrunning, halone, hcommits, hjobs, hended, hbad⟩
    exact ⟨bankPersistComplete_done hready, bankPersistComplete_cutShort hready, bankPersistComplete_leaseRevoked hready⟩

end Sys2Proof.Machine
end

section
/-! SUPPORT. Adaptation: `dpd.adapt_control` (R227) and ADAPTATION_SOLUTION (R228, R229, R239, R254), and with them O52. -/

namespace Sys2Proof.Machine

/-! ### `dpd.adapt_control` (R227) -/

/-- A field of one byte. -/
theorem u_byte_le (p : List Byte) (o : Nat) : u p o 1 ≤ 255 := by
  unfold u slice
  cases p.drop o with
  | nil => exact Nat.zero_le _
  | cons b t => exact Nat.le_of_lt_succ b.isLt

/-- A pair once a start or stop has named it. -/
def adaptAfter (p : List Byte) (a : Adapt) : Adapt :=
  if u p 0 1 = 1 then { a with state := 1, cause := 0, damping := u p 1 1, length := u p 2 2, atten := u p 6 1,
                               paused := false, retried := false, missedRun := 0 }
  else { a with state := 0, cause := 0, paused := false, retried := false, inputs := [] }

/-- To be named once more changes nothing. -/
theorem adaptAfter_adaptAfter (p : List Byte) (a : Adapt) : adaptAfter p (adaptAfter p a) = adaptAfter p a := by
  unfold adaptAfter
  split <;> rfl

/-- The pairs once those of a list have been named. -/
def adaptsSet (p : List Byte) (keys : List Nat) (t : Tbl Adapt) : Tbl Adapt :=
  keys.foldl (fun t k => tset {} t k (adaptAfter p (tget {} t k))) t

theorem tget_adaptsSet (p : List Byte) (keys : List Nat) (t : Tbl Adapt) (k : Nat) :
    tget {} (adaptsSet p keys t) k = if k ∈ keys then adaptAfter p (tget {} t k) else tget {} t k := by
  induction keys generalizing t with
  | nil => rfl
  | cons c keys ih =>
    have hcons : adaptsSet p (c :: keys) t = adaptsSet p keys (tset {} t c (adaptAfter p (tget {} t c))) := rfl
    rw [hcons, ih, tget_tset]
    by_cases hc : k = c
    · subst hc
      simp [adaptAfter_adaptAfter]
    · simp [hc]

/-- A start or stop has set its pairs. -/
def adaptControlled (p : List Byte) (s : State) : State :=
  { s with lin := { s.lin with adapt := adaptsSet p (maskPairs (u p 8 8) (u p 4 2)) s.lin.adapt } }

theorem adaptControlled_eq (p : List Byte) (keys : List Nat) (s : State) :
    keys.foldl (fun t k => { t with lin := { t.lin with adapt := tset {} t.lin.adapt k (adaptAfter p (tget {} t.lin.adapt k)) } }) s =
      { s with lin := { s.lin with adapt := adaptsSet p keys s.lin.adapt } } := by
  induction keys generalizing s with
  | nil => rfl
  | cons k keys ih => exact ih _

/-- A request whose fields are in range. -/
structure AdaptRequest (p : List Byte) : Prop where
  length : p.length = 16
  damping : 1 ≤ u p 1 1
  capture : 1024 ≤ u p 2 2 ∧ u p 2 2 ≤ 16384 ∧ u p 2 2 % 1024 = 0
  atten : u p 6 1 ≤ 30
  reserved : slice p 7 1 = zeros 1

section
variable {p : List Byte} (hp : AdaptRequest p)
include hp

theorem AdaptRequest.fields (hact : u p 0 1 ≤ 2) : ∀ c ∈ [inRange p 0 1 0 2, inRange p 1 1 1 255,
    (2, decide (1024 ≤ u p 2 2 ∧ u p 2 2 ≤ 16384 ∧ u p 2 2 % 1024 = 0)), inRange p 6 1 0 30, isZero p 7 1], c.2 = true := by
  simp [inRange, hact, hp.damping, u_byte_le, hp.capture, hp.atten, isZero_of_slice hp.reserved]

theorem AdaptRequest.body_sets {s : State} (a : Asker) (hact : u p 0 1 ≤ 1) (hmode : u p 0 1 = 1 → isOperate s.pwr.mode = true) :
    adaptControlBody a p s = ok [] (adaptControlled p s) := by
  have hgo : ¬(u p 0 1 = 1 ∧ (!isOperate s.pwr.mode) = true) := by simpa using hmode
  have hread : u p 0 1 ≠ 2 := by omega
  simp only [adaptControlBody, withLength_of_mem (show p.length ∈ [16] by simp [hp.length]), withFields_of_good (hp.fields (by omega)), if_neg hgo,
    if_neg hread]
  exact congrArg _ (adaptControlled_eq ..)

theorem AdaptRequest.body_reads_none (s : State) (a : Asker) (hact : u p 0 1 = 2) (hkeys : maskPairs (u p 8 8) (u p 4 2) = []) :
    adaptControlBody a p s = ok [] s := by
  have hgo : ¬(u p 0 1 = 1 ∧ (!isOperate s.pwr.mode) = true) := by omega
  simp only [adaptControlBody, withLength_of_mem (show p.length ∈ [16] by simp [hp.length]), withFields_of_good (hp.fields (by omega)), if_neg hgo,
    if_pos hact, hkeys]

theorem AdaptRequest.body_reads (s : State) (a : Asker) (hact : u p 0 1 = 2) {k : Nat} {ks : List Nat}
    (hkeys : maskPairs (u p 8 8) (u p 4 2) = k :: ks) : adaptControlBody a p s = onDomain 8 a s fun s => ok (adaptReport s k) s := by
  have hgo : ¬(u p 0 1 = 1 ∧ (!isOperate s.pwr.mode) = true) := by omega
  simp only [adaptControlBody, withLength_of_mem (show p.length ∈ [16] by simp [hp.length]), withFields_of_good (hp.fields (by omega)), if_neg hgo,
    if_pos hact, hkeys]

end

section
variable {ring : Nat} {dma : List Byte} {s : State} {h : Hdr} {p : List Byte} (d : Delivered 0x0403 ring dma s h p) (hp : AdaptRequest p)
include d hp

theorem dpdAdaptControl_sets (hact : u p 0 1 ≤ 1) (hmode : u p 0 1 = 1 → isOperate s.pwr.mode = true) :
    ∃ t, exec (.dpdAdaptControl ring dma) s = .next (answered (askerOf ring h s) [] t) ∧
      t = { consumed ring h s with lin := { s.lin with adapt := t.lin.adapt } } ∧
      (∀ k ∈ maskPairs (u p 8 8) (u p 4 2), (tget {} t.lin.adapt k).state = u p 0 1 ∧ (tget {} t.lin.adapt k).cause = 0 ∧
        (tget {} t.lin.adapt k).commits = (tget {} s.lin.adapt k).commits ∧
        (u p 0 1 = 1 → (tget {} t.lin.adapt k).damping = u p 1 1 ∧ (tget {} t.lin.adapt k).length = u p 2 2 ∧
          (tget {} t.lin.adapt k).atten = u p 6 1)) ∧
      (∀ k, k ∉ maskPairs (u p 8 8) (u p 4 2) → tget {} t.lin.adapt k = tget {} s.lin.adapt k) := by
  have hexec : exec (.dpdAdaptControl ring dma) s = .next (answered (askerOf ring h s) [] (adaptControlled p (consumed ring h s))) := by
    have hmode' : u p 0 1 = 1 → isOperate (consumed ring h s).pwr.mode = true := by simpa using hmode
    simp only [exec, execDpdAdaptControl, runMessage_delivered _ d, hp.body_sets _ hact hmode', settle_ok]
  have hget (k : Nat) : tget {} (adaptControlled p (consumed ring h s)).lin.adapt k =
      if k ∈ maskPairs (u p 8 8) (u p 4 2) then adaptAfter p (tget {} s.lin.adapt k) else tget {} s.lin.adapt k := by
    rw [adaptControlled, tget_adaptsSet, consumed_lin]
  refine ⟨_, hexec, ?_, fun k hk => ?_, fun k hk => by rw [hget, if_neg hk]⟩
  · simp only [adaptControlled, consumed_lin]
  · rw [hget, if_pos hk, adaptAfter]
    split_ifs with hstart
    · exact ⟨hstart.symm, rfl, rfl, fun _ => ⟨rfl, rfl, rfl⟩⟩
    · exact ⟨by simp only; omega, rfl, rfl, fun hs => absurd hs hstart⟩

theorem exec_dpdAdaptControl_reads_none (hact : u p 0 1 = 2) (hkeys : maskPairs (u p 8 8) (u p 4 2) = []) :
    exec (.dpdAdaptControl ring dma) s = .next (answered (askerOf ring h s) [] (consumed ring h s)) := by
  simp only [exec, execDpdAdaptControl, runMessage_delivered _ d, hp.body_reads_none _ _ hact hkeys, settle_ok]

theorem exec_dpdAdaptControl_reads {w : State} {k : Nat} {ks : List Nat} (hact : u p 0 1 = 2)
    (hkeys : maskPairs (u p 8 8) (u p 4 2) = k :: ks) (hw : accessDomain 8 (consumed ring h s) = some w) :
    exec (.dpdAdaptControl ring dma) s = .next (answered (askerOf ring h s) (adaptReport w k) w) := by
  simp only [exec, execDpdAdaptControl, runMessage_delivered _ d, hp.body_reads _ _ hact hkeys, onDomain_of_access hw, settle_ok]

end

/-! ### ADAPTATION_SOLUTION: a fault (R229) -/

theorem adaptFault_lin (key cause : Nat) (s : State) : (adaptFault key cause s).lin = { s.lin with
    adapt := tset {} s.lin.adapt key { tget {} s.lin.adapt key with state := 2, cause := cause, inputs := [] } } := by
  simp [adaptFault]

theorem adaptFault_status (key cause : Nat) (s : State) : (adaptFault key cause s).ev.status.getLsbD 80 = true :=
  raise_status _ _ _ (by decide)

theorem adaptFault_grows (key cause : Nat) (s : State) : Grows s (adaptFault key cause s) :=
  ((statAdd_grows ..).trans (raise_grows ..)).after (.of_eq rfl rfl)

/-! ### ADAPTATION_SOLUTION: the row (R228, R239, R254) -/

/-- Coefficients outside what a bank holds (R217). -/
def OutOfRange (c : IQ) : Prop := c.1 < -131072 ∨ 131071 < c.1 ∨ c.2 < -131072 ∨ 131071 < c.2

/-- A solution of the pair can be taken: it runs, is not paused, and has the samples of a capture. -/
structure SolutionDue (s : State) (path cls : Nat) : Prop where
  pathIn : path < 64
  classIn : cls < 16
  bureau : bureauRuns s = true
  runs : (tget {} s.lin.adapt (bankKey path cls)).state = 1
  active : (tget {} s.lin.adapt (bankKey path cls)).paused = false
  inputs : (tget {} s.lin.adapt (bankKey path cls)).inputs ≠ []

/-- The end of the core's last run has been taken note of. -/
def endTaken (path : Nat) (s : State) : State :=
  { s with core := tset {} s.core (path / 8) { tget {} s.core (path / 8) with vendorEnd := none } }

theorem endTaken_vendorEnd (path : Nat) (s : State) : (tget {} (endTaken path s).core (path / 8)).vendorEnd = none := by
  simp [endTaken]

/-- Where no run has ended, there is nothing to take note of. -/
theorem tget_endTaken {path : Nat} {s : State} (h : (tget {} s.core (path / 8)).vendorEnd = none) (j : Nat) :
    tget {} (endTaken path s).core j = tget {} s.core j := by
  simp only [endTaken, tget_tset]
  split_ifs with hj
  · subst hj
    exact congrArg (fun e => { tget {} s.core (path / 8) with vendorEnd := e }) h.symm
  · rfl

/-- A solution has been poisoned: counted, and EV_ACC_OVF raised with the accumulators that overflowed, but for a trap, which has raised its own
event (R244, R255). -/
def poisonNoted (path cls : Nat) (poisoned : Bool) (ovf : Nat) (s : State) : State :=
  let end_ := (tget {} s.core (path / 8)).vendorEnd
  let s1 := statAdd 0x18 path 5 1 (endTaken path s)
  let n := match end_ with | some (_, o) => ovf ||| o.toNat | none => ovf
  let trapped := match end_ with | some (t, _) => t && !poisoned | none => false
  if trapped then s1 else raise 98 (det (path / 8) 0xFF n 0 (path % 256 + 256 * cls)) s1

theorem poisonNoted_frame (path cls : Nat) (poisoned : Bool) (ovf : Nat) (s : State) :
    (poisonNoted path cls poisoned ovf s).lin = s.lin ∧ (poisonNoted path cls poisoned ovf s).core = (endTaken path s).core := by
  unfold poisonNoted
  dsimp only
  constructor <;> split <;> simp [endTaken]

/-- A result that the command calls poisoned, or a run that ended so, raises EV_ACC_OVF. -/
theorem poisonNoted_status {path : Nat} (cls : Nat) {poisoned : Bool} (ovf : Nat) {s : State}
    (h : poisoned = true ∨ ∃ o, (tget {} s.core (path / 8)).vendorEnd = some (false, o)) :
    (poisonNoted path cls poisoned ovf s).ev.status.getLsbD 98 = true := by
  unfold poisonNoted
  dsimp only
  rw [if_neg]
  · exact raise_status _ _ _ (by decide)
  · rcases h with rfl | ⟨o, ho⟩
    · split <;> simp
    · simp [ho]

section
variable {s : State} {path cls : Nat} (h : SolutionDue s path cls) (ovf : Nat) (cs : List IQ)
include h

theorem SolutionDue.goes : path < 64 ∧ cls < 16 ∧ (tget {} s.lin.adapt (bankKey path cls)).state = 1 ∧
    (!(tget {} s.lin.adapt (bankKey path cls)).paused) = true ∧ (tget {} s.lin.adapt (bankKey path cls)).inputs ≠ [] ∧ bureauRuns s = true :=
  ⟨h.pathIn, h.classIn, h.runs, by simp [h.active], h.inputs, h.bureau⟩

/-- A poisoned solution, by the command's word or by how the core's run ended, is retried once, and then it faults. -/
theorem exec_adaptationSolution_poisoned {poisoned : Bool}
    (hpoison : (poisoned || (tget {} s.core (path / 8)).vendorEnd.isSome) = true) :
    exec (.adaptationSolution path cls poisoned ovf cs) s =
      let w := poisonNoted path cls poisoned ovf s
      if (tget {} s.lin.adapt (bankKey path cls)).retried then .next (adaptFault (bankKey path cls) 1 w)
      else .next { w with lin := { w.lin with
        adapt := tset {} w.lin.adapt (bankKey path cls) { tget {} s.lin.adapt (bankKey path cls) with retried := true } } } := by
  rw [exec, execAdaptationSolution]
  exact (if_pos h.goes).trans (if_pos hpoison)

theorem exec_adaptationSolution_outOfRange (hend : (tget {} s.core (path / 8)).vendorEnd = none) (hbad : ∃ c ∈ cs, OutOfRange c) :
    exec (.adaptationSolution path cls false ovf cs) s = .next (adaptFault (bankKey path cls) 2 (endTaken path s)) := by
  have hsound : ¬(false || (tget {} s.core (path / 8)).vendorEnd.isSome) = true := by simp [hend]
  have hany : cs.any (fun c => decide (c.1 < -131072 ∨ 131071 < c.1 ∨ c.2 < -131072 ∨ 131071 < c.2)) = true := by
    simpa [OutOfRange] using hbad
  rw [exec, execAdaptationSolution]
  exact (if_pos h.goes).trans ((if_neg hsound).trans (if_pos hany))

/-- The damped step from the live bank fills the shadow bank, and its commit is asked for. -/
def solved (key : Nat) (cs : List IQ) (s : State) : State :=
  let a := tget {} s.lin.adapt key
  commitRequested [key] false { s with lin := { s.lin with
    shadow := tset [] s.lin.shadow key (dampedBank a.damping (tget [] s.lin.live key) cs),
    adapt := tset {} s.lin.adapt key { a with retried := false, inputs := [] } } }

theorem exec_adaptationSolution_inRange (hend : (tget {} s.core (path / 8)).vendorEnd = none) (hgood : ∀ c ∈ cs, ¬OutOfRange c)
    (hfree : frozen s (bankKey path cls) = false) :
    exec (.adaptationSolution path cls false ovf cs) s = .next (solved (bankKey path cls) cs (endTaken path s)) := by
  have hsound : ¬(false || (tget {} s.core (path / 8)).vendorEnd.isSome) = true := by simp [hend]
  have hany : ¬cs.any (fun c => decide (c.1 < -131072 ∨ 131071 < c.1 ∨ c.2 < -131072 ∨ 131071 < c.2)) = true := by
    simpa [OutOfRange] using hgood
  have hfrozen : ¬frozen (endTaken path s) (bankKey path cls) = true := by simpa [frozen, endTaken] using hfree
  rw [exec, execAdaptationSolution]
  exact (if_pos h.goes).trans ((if_neg hsound).trans ((if_neg hany).trans (if_neg hfrozen)))

theorem adaptationSolution_solves (hend : (tget {} s.core (path / 8)).vendorEnd = none) (hgood : ∀ c ∈ cs, ¬OutOfRange c)
    (hfree : frozen s (bankKey path cls) = false) : ∃ t, exec (.adaptationSolution path cls false ovf cs) s = .next t ∧
      tget [] t.lin.shadow (bankKey path cls) =
        dampedBank (tget {} s.lin.adapt (bankKey path cls)).damping (tget [] s.lin.live (bankKey path cls)) cs ∧
      frozen t (bankKey path cls) = true ∧ t.lin.live = s.lin.live ∧
      (∀ k, k ≠ bankKey path cls → tget [] t.lin.shadow k = tget [] s.lin.shadow k) ∧
      (∀ j, tget {} t.core j = tget {} s.core j) ∧ t = { s with lin := t.lin, core := t.core } := by
  refine ⟨_, exec_adaptationSolution_inRange h ovf cs hend hgood hfree, ?_, ?_, rfl, fun k hk => ?_, tget_endTaken hend, rfl⟩
  · exact tget_tset_self ..
  · simp [frozen, solved, commitRequested_eq]
  · exact tget_tset_ne _ _ _ hk

/-- A poisoned solution that has not been retried is, and the end of the core's run has been taken note of. -/
theorem adaptationSolution_retries {poisoned : Bool} (hpoison : (poisoned || (tget {} s.core (path / 8)).vendorEnd.isSome) = true)
    (hfirst : (tget {} s.lin.adapt (bankKey path cls)).retried = false) :
    ∃ t, exec (.adaptationSolution path cls poisoned ovf cs) s = .next t ∧
      tget {} t.lin.adapt (bankKey path cls) = { tget {} s.lin.adapt (bankKey path cls) with retried := true } ∧
      (tget {} t.core (path / 8)).vendorEnd = none ∧ t.lin.shadow = s.lin.shadow ∧
      t.ev = (poisonNoted path cls poisoned ovf s).ev := by
  obtain ⟨hlin, hcore⟩ := poisonNoted_frame path cls poisoned ovf s
  have hexec := exec_adaptationSolution_poisoned h ovf cs hpoison
  simp only [hfirst, Bool.false_eq_true, if_false] at hexec
  refine ⟨_, hexec, tget_tset_self .., ?_, by rw [hlin], rfl⟩
  simp only [hcore, endTaken_vendorEnd]

theorem adaptationSolution_poisonedAgain (hsecond : (tget {} s.lin.adapt (bankKey path cls)).retried = true) :
    ∃ t, exec (.adaptationSolution path cls true ovf cs) s = .next t ∧ (tget {} t.lin.adapt (bankKey path cls)).state = 2 ∧
      (tget {} t.lin.adapt (bankKey path cls)).cause = 1 ∧ t.lin.shadow = s.lin.shadow ∧ t.ev.status.getLsbD 98 = true ∧
      t.ev.status.getLsbD 80 = true := by
  have hlin := (poisonNoted_frame path cls true ovf s).1
  have hexec := exec_adaptationSolution_poisoned h ovf cs (poisoned := true) (Bool.true_or _)
  simp only [hsecond, if_true] at hexec
  refine ⟨_, hexec, ?_, ?_, ?_, (adaptFault_grows ..).status _ (poisonNoted_status cls ovf (.inl rfl)), adaptFault_status ..⟩
  all_goals rw [adaptFault_lin]
  · simp
  · simp
  · rw [hlin]

theorem adaptationSolution_outOfRange (hend : (tget {} s.core (path / 8)).vendorEnd = none) (hbad : ∃ c ∈ cs, OutOfRange c) :
    ∃ t, exec (.adaptationSolution path cls false ovf cs) s = .next t ∧ (tget {} t.lin.adapt (bankKey path cls)).state = 2 ∧
      (tget {} t.lin.adapt (bankKey path cls)).cause = 2 ∧ t.lin.shadow = s.lin.shadow ∧ t.ev.status.getLsbD 80 = true := by
  refine ⟨_, exec_adaptationSolution_outOfRange h ovf cs hend hbad, ?_, ?_, ?_, adaptFault_status ..⟩
  all_goals rw [adaptFault_lin]
  · simp
  · simp
  · rfl

end

theorem not_outOfRange_iff (c : IQ) : ¬OutOfRange c ↔ -131072 ≤ c.1 ∧ c.1 ≤ 131071 ∧ -131072 ≤ c.2 ∧ c.2 ≤ 131071 := by
  unfold OutOfRange
  omega

/-- Settles O52: the message by what it asks, then the solutions by how they end. -/
theorem adaptationRows : Obligations.AdaptationRows := by
  unfold Obligations.AdaptationRows
  refine ⟨?control, ?solution⟩
  case control =>
    intro ring dma s h p d hlen hdamping hlow hhigh hstep hatten hzero keys
    have hp : AdaptRequest p := ⟨hlen, hdamping, ⟨hlow, hhigh, hstep⟩, hatten, hzero⟩
    exact ⟨dpdAdaptControl_sets d hp, exec_dpdAdaptControl_reads_none d hp, fun k ks w => exec_dpdAdaptControl_reads d hp⟩
  case solution =>
    intro s path cls ovf cs hpath hcls hbureau key a end_ hruns hactive hinputs
    have h : SolutionDue s path cls := ⟨hpath, hcls, hbureau, hruns, by simpa using hactive, hinputs⟩
    refine ⟨fun hend hgood => adaptationSolution_solves h ovf cs hend fun c hc => (not_outOfRange_iff c).mpr (hgood c hc),
      fun trapped o hend hfirst => ?_, adaptationSolution_outOfRange h ovf cs, fun hfirst => ?_, adaptationSolution_poisonedAgain h ovf cs⟩
    · obtain ⟨t, hexec, hadapt, hcore, hshadow, hev⟩ := adaptationSolution_retries h ovf cs (poisoned := false)
        (by simp [show (tget {} s.core (path / 8)).vendorEnd = some (trapped, o) from hend]) hfirst
      refine ⟨t, hexec, hadapt, hcore, hshadow, ?_⟩
      rintro rfl
      rw [hev, poisonNoted_status cls ovf (.inr ⟨o, hend⟩)]
    · obtain ⟨t, hexec, hadapt, _, hshadow, hev⟩ := adaptationSolution_retries h ovf cs (poisoned := true) (Bool.true_or _) hfirst
      exact ⟨t, hexec, hadapt, hshadow, by rw [hev, poisonNoted_status cls ovf (.inl rfl)]⟩

end Sys2Proof.Machine
end

section
/-! SUPPORT. Captures: the record in capture memory (Table 9-6, R14, R223, R254), what a capture's end leaves, and how an occurrence is
decided (R226). -/

namespace Sys2Proof.Machine

/-! ### Bytes of the record (Table 9-6) -/

theorem capHeader_length (c : Capturing) (state cause frac : Nat) : (capHeader c state cause frac).length = 60 := by
  simp [capHeader, leBytes_length, zeros_length]

/-- A record begins with its state. -/
theorem capHeader_state (c : Capturing) (state cause frac : Nat) : (capHeader c state cause frac)[0]? = some (BitVec.ofNat 8 state) := by
  simp [capHeader, leBytes]

/-- ORx word of a sample, zero where it failed parity (R16). -/
def storedWord (c : Capturing) (run : OrxRun) (k : Nat) : Nat :=
  if k ∈ run.parity then 0 else orxWord (selOf c.path) (run.codes.getD k (0, 0))

/-- DPD input of a sample. -/
def storedInput (input : List IQ) (k : Nat) : List Byte :=
  leBytes 2 (wrapN 16 (input.getD k (0, 0)).1) ++ leBytes 2 (wrapN 16 (input.getD k (0, 0)).2)

theorem storedInput_length (input : List IQ) (k : Nat) : (storedInput input k).length = 4 := by simp [storedInput, leBytes_length]

theorem capBytes_eq (c : Capturing) (input : List IQ) (run : OrxRun) :
    capBytes c input run = (List.range c.length).flatMap fun k => storedInput input k ++ leBytes 4 (storedWord c run k) := rfl

theorem sampleBytes_length (c : Capturing) (input : List IQ) (run : OrxRun) (l : List Nat) :
    (l.flatMap fun k => storedInput input k ++ leBytes 4 (storedWord c run k)).length = 8 * l.length := by
  rw [flatMap_length_of_length (n := 8) (fun k => by simp [storedInput_length, leBytes_length]), Nat.mul_comm]

theorem capBytes_length (c : Capturing) (input : List IQ) (run : OrxRun) : (capBytes c input run).length = 8 * c.length := by
  rw [capBytes_eq, sampleBytes_length, List.length_range]

theorem storedWord_lt (c : Capturing) (run : OrxRun) (k : Nat) : storedWord c run k < 2 ^ 32 := by
  have hcode (v : Int) : wrapN 12 v < 2 ^ 12 := by simp only [wrapN]; omega
  have hi := hcode (run.codes.getD k (0, 0)).1
  have hq := hcode (run.codes.getD k (0, 0)).2
  unfold storedWord orxWord
  split_ifs <;> omega

theorem leNat_four_bytes {v : Nat} (h : v < 2 ^ 32) : leNat (leBytes 4 v) = v := by
  simp only [leBytes, leNat, BitVec.toNat_ofNat]
  omega

theorem slice_append_append {a b c : List Byte} {o n : Nat} (ha : a.length = o) (hb : b.length = n) : slice (a ++ (b ++ c)) o n = b := by
  rw [slice, List.drop_left' ha, List.take_left' hb]

/-- Sample k stands behind those before it. -/
theorem range_split {n k : Nat} (h : k < n) : ∃ l, List.range n = List.range k ++ k :: l := by
  obtain ⟨m, rfl⟩ := Nat.exists_eq_add_of_lt h
  exact ⟨_, by rw [Nat.add_assoc, List.range_add, List.range_succ_eq_map, List.map_cons, Nat.add_zero]⟩

theorem u_capBytes (c : Capturing) (input : List IQ) (run : OrxRun) {k : Nat} (h : k < c.length) :
    u (capBytes c input run) (8 * k + 4) 4 = storedWord c run k := by
  obtain ⟨l, hl⟩ := range_split h
  have hbefore := sampleBytes_length c input run (List.range k)
  rw [List.length_range] at hbefore
  rw [u, capBytes_eq, hl, List.flatMap_append, List.flatMap_cons, List.append_assoc, ← List.append_assoc,
    slice_append_append (by simp [hbefore, storedInput_length]) (leBytes_length 4 _), leNat_four_bytes (storedWord_lt c run k)]

/-! ### Samples that a solution takes (R254) -/

theorem solutionInputs_length_le (c : Capturing) (input : List IQ) (run : OrxRun) : (solutionInputs c input run).length ≤ 4096 := by
  have hstep : c.length ≤ 4096 * solutionStep c.length := by unfold solutionStep ceilN; omega
  simp only [solutionInputs, List.length_map, List.length_range, ceilN]
  generalize solutionStep c.length = k at hstep
  rcases Nat.eq_zero_or_pos k with rfl | hk
  · simp
  · exact Nat.le_of_lt_succ ((Nat.div_lt_iff_lt_mul hk).mpr (by omega))

theorem getElem?_solutionInputs (c : Capturing) (input : List IQ) (run : OrxRun) {n : Nat} (h : n * solutionStep c.length < c.length) :
    (solutionInputs c input run)[n]? = some (input.getD (n * solutionStep c.length) (0, 0),
      if n * solutionStep c.length ∈ run.parity then (0, 0) else run.codes.getD (n * solutionStep c.length) (0, 0)) := by
  have hstep : 0 < solutionStep c.length := by unfold solutionStep ceilN; omega
  have hn : n < ceilN c.length (solutionStep c.length) := by
    rw [ceilN, Nat.lt_iff_add_one_le, Nat.le_div_iff_mul_le hstep, Nat.add_mul]
    omega
  simp [solutionInputs, hn]

end Sys2Proof.Machine
end

section
/-! SUPPORT. The rows of captures: plans (R225), occurrences (R226, R261) and complete captures (R223, R254), and with them O53. -/

namespace Sys2Proof.Machine

/-! ### The plan (R225) -/

theorem exec_capturePlan {ring : Nat} {dma : List Byte} {s : State} {h : Hdr} {p : List Byte} (d : Delivered 0x0406 ring dma s h p)
    (hlen : p.length = 16 + 48 * u p 0 2) (hcount : u p 0 2 ≤ 64) (hzero : slice p 2 14 = zeros 14)
    (hentries : firstBad ((List.range (u p 0 2)).flatMap (planChecks s.cfg.live p)) = none)
    (hapart : ∀ e < u p 0 2, ∀ d < e, regionsMeet (planEntry p d) (planEntry p e) = false) :
    exec (.capturePlan ring dma) s = .next (answered (askerOf ring h s) [] { consumed ring h s with
      lin := { s.lin with plan := (List.range (u p 0 2)).map (planEntry p), planFrom := nowU s + (msU : Int), taken := [] } }) := by
  have hlength : ¬(p.length < 16 ∨ p.length ≠ 16 + 48 * u p 0 2) := by omega
  have hfields : firstBad ([inRange p 0 2 0 64, isZero p 2 14] ++ (List.range (u p 0 2)).flatMap (planChecks s.cfg.live p)) = none := by
    rw [firstBad_eq_none_iff, List.forall_mem_append]
    exact ⟨by simp [inRange, hcount, isZero_of_slice hzero], (firstBad_eq_none_iff _).mp hentries⟩
  have hmeets : (List.range (u p 0 2)).find? (fun e => (List.range e).any fun d => regionsMeet (planEntry p d) (planEntry p e)) = none := by
    simpa using hapart
  have hnow : nowU (consumed ring h s) = nowU s := nowU_congr (consumed_tm ..)
  simp only [exec, execCapturePlan, runMessage_delivered _ d, capturePlanBody, hlength, if_false, consumed_cfg, withFields_of_none hfields, hmeets,
    hnow, consumed_lin, settle_ok]

/-! ### What the capture operations leave alone -/

/-- The plan and the banks stay as they are. -/
structure KeepsPlan (s t : State) : Prop where
  plan : t.lin.plan = s.lin.plan
  live : t.lin.live = s.lin.live
  shadow : t.lin.shadow = s.lin.shadow

theorem KeepsPlan.of_lin {s t : State} (h : t.lin = s.lin) : KeepsPlan s t := ⟨by rw [h], by rw [h], by rw [h]⟩

theorem KeepsPlan.trans {r s t : State} (h : KeepsPlan r s) (k : KeepsPlan s t) : KeepsPlan r t :=
  ⟨k.plan.trans h.plan, k.live.trans h.live, k.shadow.trans h.shadow⟩

theorem capWrite_lin (o : Nat) (b : List Byte) (s : State) :
    (capWrite o b s).lin = { s.lin with capMem := tsetList 0 s.lin.capMem o b } := rfl

theorem capWrite_keepsPlan (o : Nat) (b : List Byte) (s : State) : KeepsPlan s (capWrite o b s) := ⟨rfl, rfl, rfl⟩

theorem adaptFault_keepsPlan (key cause : Nat) (s : State) : KeepsPlan s (adaptFault key cause s) := by
  constructor <;> rw [adaptFault_lin]

/-- A missed capture has its record, count and event. -/
def captureMissed (c : Capturing) (cause : Nat) (s : State) : State :=
  raise 83 (detSym (srcEntry c.src) c.orx cause c.sym) (statAdd 0x19 c.orx 1 1 (capWrite c.region (capHeader c 3 cause 0) s))

/-- One more miss in a row of a pair. -/
def missCounted (key : Nat) (s : State) : State :=
  let a := tget {} s.lin.adapt key
  { s with lin := { s.lin with adapt := tset {} s.lin.adapt key { a with missedRun := a.missedRun + 1 } } }

theorem missCapture_host {c : Capturing} {n : Nat} (hsrc : c.src = .host n) (cause : Nat) (s : State) :
    missCapture c cause s = captureMissed c cause s := by
  cases c
  cases hsrc
  rfl

theorem missCapture_adapt {c : Capturing} {p k : Nat} (hsrc : c.src = .adapt p k) (cause : Nat) (s : State) :
    missCapture c cause s =
      let t := captureMissed c cause s
      if 16 ≤ (tget {} t.lin.adapt (bankKey p k)).missedRun + 1 then adaptFault (bankKey p k) 3 (missCounted (bankKey p k) t)
      else missCounted (bankKey p k) t := by
  cases c
  cases hsrc
  rfl

theorem captureMissed_keepsPlan (c : Capturing) (cause : Nat) (s : State) : KeepsPlan s (captureMissed c cause s) :=
  (capWrite_keepsPlan c.region (capHeader c 3 cause 0) s).trans (.of_lin (by simp [captureMissed]))

theorem missCounted_keepsPlan (key : Nat) (s : State) : KeepsPlan s (missCounted key s) := ⟨rfl, rfl, rfl⟩

theorem missCapture_keepsPlan (c : Capturing) (cause : Nat) (s : State) : KeepsPlan s (missCapture c cause s) := by
  cases hsrc : c.src with
  | host n =>
    rw [missCapture_host hsrc]
    exact captureMissed_keepsPlan c cause s
  | adapt p k =>
    have hcounted := (captureMissed_keepsPlan c cause s).trans (missCounted_keepsPlan (bankKey p k) _)
    rw [missCapture_adapt hsrc]
    dsimp only
    split
    · exact hcounted.trans (adaptFault_keepsPlan ..)
    · exact hcounted

theorem skipCapture_keepsPlan (c : Capturing) (s : State) : KeepsPlan s (skipCapture c s) :=
  (capWrite_keepsPlan c.region (capHeader c 4 0 0) s).trans (.of_lin (by simp [skipCapture]))

/-! ### A complete capture (R223, R254) -/

theorem selectNext_lin (orx : Nat) (t : Instant) (s : State) : ∃ x, (selectNext orx t s).lin = { s.lin with orx := x } := by
  unfold selectNext
  split
  · exact ⟨_, rfl⟩
  · exact ⟨_, rfl⟩

/-- Samples of a capture's path as its end finds them. -/
def finalInput (c : Capturing) (s : State) : List IQ := capInput s c (tickOf c.start + c.length)

/-- Record of a complete capture: header in state 2, CRC, samples (Table 9-6). -/
def capRecord (c : Capturing) (run : OrxRun) (s : State) : List Byte :=
  let data := capBytes c (finalInput c s) run
  let h := capHeader c 2 0 (alignFraction s c)
  (h ++ leBytes 4 (crc32c (h ++ data))) ++ data

/-- What a capture's end leaves, but for the samples of an adaptation. -/
def captureEnded (c : Capturing) (run : OrxRun) (s : State) : State :=
  selectNext c.orx (c.start + tk c.length) (releaseCaptureLeases c.orx (statAdd 0x19 c.orx 0 1 (capWrite c.region (capRecord c run s)
    ((run.parity.filter fun k => decide (k < c.length)).foldl (fun t _ => orxFail (c.orx / 2) t)
      { s with lin := { s.lin with caps := s.lin.caps.filter fun d => decide (d ≠ c) } }))))

theorem captureEnded_lin (c : Capturing) (run : OrxRun) (s : State) : ∃ x, (captureEnded c run s).lin = { s.lin with
    caps := s.lin.caps.filter fun d => decide (d ≠ c), capMem := tsetList 0 s.lin.capMem c.region (capRecord c run s), orx := x } := by
  unfold captureEnded
  obtain ⟨x, hx⟩ := selectNext_lin c.orx (c.start + tk c.length) (releaseCaptureLeases c.orx (statAdd 0x19 c.orx 0 1
    (capWrite c.region (capRecord c run s) ((run.parity.filter fun k => decide (k < c.length)).foldl (fun t _ => orxFail (c.orx / 2) t)
      { s with lin := { s.lin with caps := s.lin.caps.filter fun d => decide (d ≠ c) } }))))
  refine ⟨x, hx.trans ?_⟩
  simp [capWrite_lin]

/-- A pair has the samples that its capture took (R254). -/
def samplesTaken (key : Nat) (xs : List (IQ × IQ)) (s : State) : State :=
  { s with lin := { s.lin with adapt := tset {} s.lin.adapt key { tget {} s.lin.adapt key with missedRun := 0, inputs := xs } } }

theorem completeCapture_host {c : Capturing} {n : Nat} (hsrc : c.src = .host n) (run : OrxRun) (s : State) :
    completeCapture c run s = captureEnded c run s := by
  cases c
  cases hsrc
  rfl

theorem completeCapture_adapt {c : Capturing} {p k : Nat} (hsrc : c.src = .adapt p k) (run : OrxRun) (s : State) :
    completeCapture c run s = samplesTaken (bankKey p k) (solutionInputs c (finalInput c s) run) (captureEnded c run s) := by
  cases c
  cases hsrc
  rfl

theorem completeCapture_lin (c : Capturing) (run : OrxRun) (s : State) : ∃ x a, (completeCapture c run s).lin = { s.lin with
    caps := s.lin.caps.filter fun d => decide (d ≠ c), capMem := tsetList 0 s.lin.capMem c.region (capRecord c run s), orx := x,
    adapt := a } := by
  obtain ⟨x, hx⟩ := captureEnded_lin c run s
  cases hsrc : c.src with
  | host n => exact ⟨x, s.lin.adapt, by rw [completeCapture_host hsrc, hx]⟩
  | adapt p k => exact ⟨x, _, by rw [completeCapture_adapt hsrc, samplesTaken, hx]⟩

theorem completeCapture_inputs {c : Capturing} {p k : Nat} (hsrc : c.src = .adapt p k) (run : OrxRun) (s : State) :
    (tget {} (completeCapture c run s).lin.adapt (bankKey p k)).inputs = solutionInputs c (finalInput c s) run := by
  rw [completeCapture_adapt hsrc, samplesTaken, tget_tset_self]

theorem completeCapture_keepsPlan (c : Capturing) (run : OrxRun) (s : State) : KeepsPlan s (completeCapture c run s) := by
  obtain ⟨x, a, hx⟩ := completeCapture_lin c run s
  constructor <;> rw [hx]

/-! ### The record in capture memory (Table 9-6) -/

theorem tsetList_append (t : Tbl Byte) (k : Nat) (a b : List Byte) : tsetList 0 t k (a ++ b) = tsetList 0 (tsetList 0 t k a) (k + a.length) b := by
  induction a generalizing t k with
  | nil => rfl
  | cons x a ih => rw [List.cons_append, tsetList, tsetList, ih, List.length_cons, Nat.add_right_comm, Nat.add_assoc]

/-- A record whose first bytes are its header begins with its state. -/
theorem tget_header (t : Tbl Byte) (c : Capturing) (state cause frac : Nat) (l : List Byte) :
    tget 0 (tsetList 0 t c.region (capHeader c state cause frac ++ l)) c.region = BitVec.ofNat 8 state := by
  have hlength := capHeader_length c state cause frac
  rw [tget_tsetList, if_pos (by rw [List.length_append]; omega), Nat.sub_self, List.getD_append _ _ _ _ (by omega),
    List.getD_eq_getElem?_getD, capHeader_state]
  rfl

section
variable (c : Capturing) (run : OrxRun) (s : State) (t : Tbl Byte)

theorem capRecord_length : (capRecord c run s).length = 64 + 8 * c.length := by
  simp only [capRecord, List.length_append, capHeader_length, leBytes_length, capBytes_length]

theorem capRecord_state : tget 0 (tsetList 0 t c.region (capRecord c run s)) c.region = 2 := by
  rw [capRecord, List.append_assoc]
  exact tget_header ..

theorem capRecord_samples : tgetList 0 (tsetList 0 t c.region (capRecord c run s)) (c.region + 64) (8 * c.length) =
    capBytes c (finalInput c s) run := by
  rw [capRecord, tsetList_append, ← capBytes_length c (finalInput c s) run]
  simp only [List.length_append, capHeader_length, leBytes_length]
  exact tgetList_tsetList ..

theorem capRecord_other {o : Nat} (h : o < c.region ∨ c.region + 64 + 8 * c.length ≤ o) :
    tget 0 (tsetList 0 t c.region (capRecord c run s)) o = tget 0 t o := by
  rw [tget_tsetList, if_neg (by rw [capRecord_length]; omega)]

end

/-- A complete capture is no longer in progress, and its record stands in capture memory. -/
theorem completeCapture_stores (c : Capturing) (run : OrxRun) (s : State) :
    let t := completeCapture c run s
    t.lin.caps = s.lin.caps.filter (fun d => decide (d ≠ c)) ∧ tget 0 t.lin.capMem c.region = 2 ∧
      tgetList 0 t.lin.capMem (c.region + 64) (8 * c.length) = capBytes c (finalInput c s) run ∧
      (∀ o, (o < c.region ∨ c.region + 64 + 8 * c.length ≤ o) → tget 0 t.lin.capMem o = tget 0 s.lin.capMem o) := by
  obtain ⟨x, a, hlin⟩ := completeCapture_lin c run s
  have hmem : (completeCapture c run s).lin.capMem = tsetList 0 s.lin.capMem c.region (capRecord c run s) := by rw [hlin]
  dsimp only
  rw [hmem]
  exact ⟨by rw [hlin], capRecord_state c run s _, capRecord_samples c run s _, fun o ho => capRecord_other c run s _ ho⟩

theorem exec_captureComplete {s : State} {src : CaptureSrc} {c : Capturing} (run : OrxRun)
    (hc : s.lin.caps.find? (fun d => decide (d.src = src)) = some c) :
    exec (.captureComplete src run) s = .next (completeCapture c run (advanceTo (c.start + tk c.length) s)) := by
  simp only [exec, execCaptureComplete, hc]

theorem captureComplete_stores {s : State} {src : CaptureSrc} {c : Capturing} (run : OrxRun)
    (hc : s.lin.caps.find? (fun d => decide (d.src = src)) = some c) :
    let w := advanceTo (c.start + tk c.length) s
    ∃ t, exec (.captureComplete src run) s = .next t ∧ t.lin.caps = s.lin.caps.filter (fun d => decide (d ≠ c)) ∧
      tget 0 t.lin.capMem c.region = 2 ∧
      tgetList 0 t.lin.capMem (c.region + 64) (8 * c.length) = capBytes c (capInput w c (tickOf c.start + c.length)) run ∧
      (∀ o, (o < c.region ∨ c.region + 64 + 8 * c.length ≤ o) → tget 0 t.lin.capMem o = tget 0 s.lin.capMem o) ∧
      (∀ p k, src = .adapt p k → (tget {} t.lin.adapt (bankKey p k)).inputs =
        solutionInputs c (capInput w c (tickOf c.start + c.length)) run) ∧
      t.lin.plan = s.lin.plan ∧ t.lin.live = s.lin.live ∧ t.lin.shadow = s.lin.shadow := by
  have hsrc : c.src = src := by simpa using List.find?_some hc
  have hexec := exec_captureComplete run hc
  have hw : (advanceTo (c.start + tk c.length) s).lin = s.lin := by simp
  generalize advanceTo (c.start + tk c.length) s = w at hexec hw
  obtain ⟨hcaps, hstate, hsamples, hother⟩ := completeCapture_stores c run w
  obtain ⟨hplan, hlive, hshadow⟩ := completeCapture_keepsPlan c run w
  rw [hw] at hcaps hother hplan hlive hshadow
  exact ⟨_, hexec, hcaps, hstate, hsamples, hother, fun p k hp => completeCapture_inputs (hsrc.trans hp) run w, hplan, hlive, hshadow⟩

end Sys2Proof.Machine
end

section
/-! SUPPORT. Occurrences of captures (R226, R261), and with the plan and the complete captures O53. -/

namespace Sys2Proof.Machine

/-! ### A capture starts (R223, R261) -/

theorem startCapture_host {c : Capturing} {n : Nat} (hsrc : c.src = .host n) (hlength : c.length ≠ 0) (s : State) :
    startCapture c s =
      let c1 := { c with taken := (c.taken + 1) % 2 ^ 32 }
      capWrite c.region (capHeader c1 1 0 0) (requestLease (3 + c.orx) 1 (requestLease 2 1 { s with lin := { s.lin with
        taken := tset 0 s.lin.taken n c1.taken, caps := s.lin.caps ++ [c1],
        orx := tset 0 s.lin.orx c.orx (selOf c.path * 32 + c.atten) } })) := by
  cases c
  cases hsrc
  exact if_neg hlength

theorem startCapture_keepsPlan (c : Capturing) (s : State) : KeepsPlan s (startCapture c s) := by
  have hbegun (c1 : Capturing) (taken : Tbl Nat) : KeepsPlan s (capWrite c.region (capHeader c1 1 0 0) (requestLease (3 + c.orx) 1
      (requestLease 2 1 { s with lin := { s.lin with
        taken := taken, caps := s.lin.caps ++ [c1], orx := tset 0 s.lin.orx c.orx (selOf c.path * 32 + c.atten) } }))) := by
    constructor <;> simp [capWrite_lin]
  unfold startCapture
  dsimp only
  split
  · exact (hbegun _ _).trans (completeCapture_keepsPlan ..)
  · exact hbegun _ _

theorem decideCapture_keepsPlan (c : Capturing) (filter : Nat) (conflict : Bool) (s : State) :
    KeepsPlan s (decideCapture c filter conflict s) := by
  unfold decideCapture
  split_ifs
  · exact missCapture_keepsPlan ..
  · exact missCapture_keepsPlan ..
  · exact skipCapture_keepsPlan ..
  · exact missCapture_keepsPlan ..
  · exact missCapture_keepsPlan ..
  · exact startCapture_keepsPlan ..

/-- What a started capture of the plan leaves: itself in progress, counted, its ORx turned to it, its record in state 1. -/
theorem startCapture_host_starts {c : Capturing} {n : Nat} (hsrc : c.src = .host n) (hlength : c.length ≠ 0) (s : State) :
    let t := startCapture c s
    t.lin.caps = s.lin.caps ++ [{ c with taken := (c.taken + 1) % 2 ^ 32 }] ∧
      tget 0 t.lin.orx c.orx = selOf c.path * 32 + c.atten ∧ tget 0 t.lin.capMem c.region = 1 ∧
      (∀ o, (o < c.region ∨ c.region + 60 ≤ o) → tget 0 t.lin.capMem o = tget 0 s.lin.capMem o) ∧
      t = { s with lin := t.lin, ls := t.ls } := by
  rw [startCapture_host hsrc hlength]
  simp only [capWrite_lin, requestLease_frame, tget_tset_self, true_and]
  refine ⟨?_, fun o ho => ?_, ?_⟩
  · simpa using tget_header s.lin.capMem { c with taken := (c.taken + 1) % 2 ^ 32 } 1 0 0 []
  · rw [tget_tsetList, if_neg (by rw [capHeader_length]; omega)]
  · apply state_eq
    all_goals simp [capWrite_lin]

/-! ### How an occurrence is decided (R226, Table 9-8) -/

/-- No condition of Table 9-8 stops a capture. -/
structure Unstopped (c : Capturing) (filter : Nat) (s : State) : Prop where
  service : isService s.pwr.mode = true
  carrier : (classCarrier (imageAt s c.start)).isSome = true
  cls : filter = 0xFF ∨ filter = c.cls
  ready : s.pwr.ready.getLsbD (12 + c.orx / 2) = true
  free : txHeld s (c.orx / 2) = false

theorem Unstopped.decideCapture_starts {c : Capturing} {filter : Nat} {s : State} (h : Unstopped c filter s) :
    decideCapture c filter false s = startCapture c s := by
  have hcarrier : (classCarrier (imageAt s c.start)).isNone = false := by
    rw [Option.isNone_eq_false_iff]
    exact h.carrier
  have hcls : ¬(filter ≠ 0xFF ∧ filter ≠ c.cls) := by
    have := h.cls
    omega
  simp [decideCapture, h.service, hcarrier, hcls, h.ready, h.free]

theorem stopCaptures_of_none {s : State} (h : s.lin.caps = []) (p : Capturing → Bool) (cause : Nat) : stopCaptures p cause s = s := by
  have hlin : { s.lin with caps := [] } = s.lin := by rw [← h]
  simp only [stopCaptures, h, List.filter_nil, List.foldl_nil, hlin]

/-- Air time of an occurrence's first sample. -/
def occurrenceAir (s : State) (sym : SymName) (tick : Nat) : Instant := airOf (classMu (classImage s sym)) sym + tk tick

/-- Capture of a plan entry's occurrence in a class symbol. -/
def plannedCapture (n : Nat) (e : PlanEntry) (sym : SymName) (s : State) : Capturing :=
  let start := occurrenceAir s sym e.tick
  let first := className (imageAt s start) start
  { src := .host n, orx := orxOf e.path, path := e.path, start := start, length := e.length, cls := classAt (advanceTo start s) start,
    atten := e.atten, sym := first, tick := (tickOf start - tickOf (airOf (classMu (imageAt s start)) first)).toNat,
    region := 0x300000 + e.region, taken := takenOf (.host n) (advanceTo start s) }

/-- An occurrence of a plan entry comes, and no capture is in progress. -/
structure PlanOccurs (s : State) (n : Nat) (e : PlanEntry) (sym : SymName) : Prop where
  entry : s.lin.plan[n]? = some e
  occurs : occursIn e sym.frame = true
  subframe : e.subframe = sym.subframe
  slot : e.slot = sym.slot
  symbol : e.symbol = sym.symbol
  idle : s.lin.caps = []
  planned : s.lin.planFrom ≤ occurrenceAir s sym e.tick

theorem PlanOccurs.exec_captureOccurrence {s : State} {n : Nat} {e : PlanEntry} {sym : SymName} (h : PlanOccurs s n e sym) :
    exec (.captureOccurrence (.host n) sym e.tick) s =
      let start := occurrenceAir s sym e.tick
      let w := advanceTo start s
      .next (decideCapture (plannedCapture n e sym s) e.clsFilter
        (lowerConflict w (classImage s sym) n (orxOf e.path) start e.length sym.frame) w) := by
  have hidle (t : Instant) : (advanceTo t s).lin.caps = [] := by simp [h.idle]
  have hplanned := h.planned
  unfold occurrenceAir at hplanned
  simp only [exec, execCaptureOccurrence, h.entry, h.occurs, h.subframe, h.slot, h.symbol, hplanned, decide_true, Bool.and_self, if_true,
    stopCaptures_of_none (hidle _), hidle, List.any_nil, Bool.false_or]
  rfl

theorem captureOccurrence_starts {s : State} {n : Nat} {e : PlanEntry} {sym : SymName} (h : PlanOccurs s n e sym)
    (hgo : Unstopped (plannedCapture n e sym s) e.clsFilter (advanceTo (occurrenceAir s sym e.tick) s)) (hlength : e.length ≠ 0)
    (hlower : lowerConflict (advanceTo (occurrenceAir s sym e.tick) s) (classImage s sym) n (orxOf e.path) (occurrenceAir s sym e.tick)
      e.length sym.frame = false) :
    ∃ t c, exec (.captureOccurrence (.host n) sym e.tick) s = .next t ∧ t.lin.caps = [c] ∧ c.src = .host n ∧ c.path = e.path ∧
      c.start = occurrenceAir s sym e.tick ∧ c.length = e.length ∧
      c.cls = classAt (advanceTo (occurrenceAir s sym e.tick) s) (occurrenceAir s sym e.tick) ∧
      c.taken = (tget 0 s.lin.taken n + 1) % 2 ^ 32 ∧
      tget 0 t.lin.orx (orxOf e.path) = selOf e.path * 32 + e.atten ∧ tget 0 t.lin.capMem (0x300000 + e.region) = 1 ∧
      (∀ o, (o < 0x300000 + e.region ∨ 0x300000 + e.region + 60 ≤ o) → tget 0 t.lin.capMem o = tget 0 s.lin.capMem o) ∧
      t = { s with lin := t.lin, ls := t.ls, tm := t.tm } := by
  have hexec := h.exec_captureOccurrence
  dsimp only at hexec
  rw [hlower, hgo.decideCapture_starts] at hexec
  obtain ⟨hcaps, horx, hstate, hother, hframe⟩ :=
    startCapture_host_starts (c := plannedCapture n e sym s) rfl hlength (advanceTo (occurrenceAir s sym e.tick) s)
  generalize startCapture (plannedCapture n e sym s) (advanceTo (occurrenceAir s sym e.tick) s) = t at *
  have hw : (advanceTo (occurrenceAir s sym e.tick) s).lin = s.lin := by simp
  rw [hw] at hother
  rw [hw, h.idle] at hcaps
  refine ⟨t, _, hexec, hcaps, rfl, rfl, rfl, rfl, rfl, ?_, horx, hstate, hother, ?_⟩
  · simp [plannedCapture, takenOf]
  · rw [hframe, advanceTo_eq]

/-! ### An occurrence of an adaptation (R227, R254) -/

theorem exec_captureOccurrence_adapt_keepsPlan {s : State} {p k : Nat} (tick : Nat) (sym : SymName) :
    ∃ t, exec (.captureOccurrence (.adapt p k) sym tick) s = .next t ∧ KeepsPlan s t := by
  rw [exec, execCaptureOccurrence]
  dsimp only
  split
  · exact ⟨_, rfl, (KeepsPlan.of_lin (by simp)).trans (decideCapture_keepsPlan ..)⟩
  · exact ⟨s, rfl, .of_lin rfl⟩

/-- Settles O53: a row at a time, from what a capture writes to its record and what it leaves of the state. -/
theorem capturesRunAndStore : Obligations.CapturesRunAndStore := by
  refine ⟨fun ring dma s h p d hlen hcount hzero hentries hapart => exec_capturePlan d hlen hcount hzero hentries hapart,
    fun s n e sym hentry hoccurs hsub hslot hsymbol hidle hservice hplanned hcarrier hcls hready hfree hlower hlength => ?_,
    fun s p k tick sym _ _ _ _ _ => ?_,
    fun s src c run hc => captureComplete_stores run hc,
    fun c input run => ⟨solutionInputs_length_le c input run, fun n hn => getElem?_solutionInputs c input run hn⟩,
    fun c input run => ⟨capBytes_length c input run, fun k hk => u_capBytes c input run hk⟩⟩
  · have hgo : Unstopped (plannedCapture n e sym s) e.clsFilter (advanceTo (occurrenceAir s sym e.tick) s) :=
      { service := by simpa using hservice
        carrier := by rwa [imageAt_congr (s := s) (by simp)]
        cls := hcls
        ready := by simpa [plannedCapture] using hready
        free := hfree }
    exact captureOccurrence_starts ⟨hentry, hoccurs, hsub, hslot, hsymbol, hidle, hplanned⟩ hgo hlength hlower
  · obtain ⟨t, hexec, hplan, hlive, hshadow⟩ := exec_captureOccurrence_adapt_keepsPlan (s := s) (p := p) (k := k) tick sym
    exact ⟨t, hexec, hplan, hlive, hshadow⟩

end Sys2Proof.Machine
end

section
/-! SUPPORT. What a Trestle core makes of an instruction (R232 to R244): the environment that it reads where no word of local memory
is struck, what retiring it leaves, and from them one rule for each way in which it may end: at the next word, by a jump, by
falling through elsewhere, or by a trap. -/

namespace Sys2Proof.Machine

/-! ### The fetch -/

theorem readWord_of_sound {m a : Nat} {s : State} (h : wordError s m a = none) : readWord m a s = s := by
  simp only [readWord, h]

/-- The environment of core c's next instruction where no word of its local memory is struck. -/
def soundEnv (c : Nat) (s : State) : TEnv :=
  { ctx := (coreOf s c).cur, regs := nowRegs c s, mem := (coreOf s c).dmem, bad := [], cycles := 0, hit := 0, fresh := s.fresh }

section
variable {c : Nat} {s : State}

theorem Fetches.envOf_eq (h : Fetches c s) : envOf s c = soundEnv c s := by
  have hdata := h.data
  unfold envOf at hdata ⊢
  dsimp only at hdata ⊢
  rw [hdata]
  rfl

theorem Fetches.issue_eq (h : Fetches c s) (rep : Bool) (op : TOp) : issue c rep op s = runFetched c rep op s := by
  simp only [issue, h.can, h.fetch, h.code, readWord_of_sound h.code, Bool.not_true, Bool.false_eq_true, if_false, reduceCtorEq]

/-- What comes of an instruction that runs once: it retires, or the run fails. -/
def onceRun (c : Nat) (s : State) : TRes → State
  | .ok e => retire c e (e.jump.getD (e.fall.getD ((nowRegs c s).pc + 4))) s
  | t => failRun c t s

/-- Outside an RPT the fetched instruction runs once. -/
theorem issue_once (hcan : canIssue s c = true) (hfetch : fetchTrap (coreOf s c) = none) (hcode : wordError s 6 (fetchWord s c) = none)
    (hrpt : (nowRegs c s).rpt = none) (rep : Bool) (op : TOp) : issue c rep op s = onceRun c s (op (envOf s c)) := by
  have hrpt : (envOf s c).regs.rpt = none := hrpt
  simp only [issue, hcan, hfetch, hcode, readWord_of_sound hcode, Bool.not_true, Bool.false_eq_true, if_false, reduceCtorEq, runFetched, hrpt]
  cases op (envOf s c) <;> rfl

theorem Issues.issue_eq (h : Issues c s) (rep : Bool) (op : TOp) : issue c rep op s = onceRun c s (op (soundEnv c s)) := by
  rw [issue_once h.can h.fetch h.code h.single, h.toFetches.envOf_eq]

theorem Issues.exec_ok (h : Issues c s) {i : Instr} {rep : Bool} {op : TOp} {e : TEnv} (hexec : exec i s = .next (issue c rep op s))
    (hop : op (soundEnv c s) = .ok e) :
    exec i s = .next (retire c e (e.jump.getD (e.fall.getD ((nowRegs c s).pc + 4))) s) := by
  rw [hexec, h.issue_eq, hop, onceRun]

/-- An instruction that traps ends the run with its cause and has no other effect (R244). -/
theorem Issues.exec_trap (h : Issues c s) {i : Instr} {rep : Bool} {op : TOp} {cause : Nat}
    (hexec : exec i s = .next (issue c rep op s)) (hop : op (soundEnv c s) = .trap cause) : exec i s = .next (trapRun c cause s) := by
  rw [hexec, h.issue_eq, hop]
  rfl

end

/-! ### Retiring an instruction -/

/-- Registers that an instruction leaves (R232, R243). -/
def retiredRegs (e : TEnv) (next : Nat) (k : Core) : TRegs :=
  let p := if e.jump.isNone then loopBack 4 e.regs next else (e.regs, next)
  { p.1 with pc := p.2 % 65536, cyc := ((regsOf k k.cur).cyc + e.cycles) % 2 ^ 32 }

/-- The core that an instruction leaves. -/
def retiredCore (e : TEnv) (next : Nat) (k : Core) : Core :=
  let k1 := { setRegs k.cur (retiredRegs e next k) k with dmem := e.mem, qcyc := k.qcyc + e.cycles }
  if k.cur = vendor ∨ e.hit = 0 then k1
  else setTslot k.cur { tslotOf k k.cur with ovf := (tslotOf k k.cur).ovf ||| e.hit } k1

theorem retiredCore_eq (e : TEnv) (next : Nat) (k : Core) : retiredCore e next k =
    { k with regs := tset {} k.regs k.cur (retiredRegs e next k), slot := (retiredCore e next k).slot, dmem := e.mem,
             qcyc := k.qcyc + e.cycles } := by
  unfold retiredCore
  dsimp only
  split <;> rfl

theorem regsOf_retiredCore (e : TEnv) (next : Nat) (k : Core) (x : Nat) :
    regsOf (retiredCore e next k) x = if x = k.cur then retiredRegs e next k else regsOf k x := by
  rw [retiredCore_eq]
  exact tget_tset ..

/-- Of the slots, retiring writes the accumulators that overflowed alone. -/
theorem tslotOf_retiredCore (e : TEnv) (next : Nat) (k : Core) (x : Nat) :
    tslotOf (retiredCore e next k) x = { tslotOf k x with ovf := (tslotOf (retiredCore e next k) x).ovf } := by
  unfold retiredCore
  dsimp only
  split
  · rfl
  · rw [tslotOf_setTslot]
    split
    · subst_vars; rfl
    · rfl

/-- An instruction that met no struck word leaves its core, and the next free value. -/
theorem retire_eq {c : Nat} {e : TEnv} (next : Nat) (s : State) (hmet : e.met = []) (hcleaned : e.cleaned = []) :
    retire c e next s = { setCore c (retiredCore e next (coreOf s c)) s with fresh := e.fresh } := by
  simp only [retire, settleWords, hmet, hcleaned, List.map_nil, List.foldl_nil]
  rfl

theorem coreOf_fresh (s : State) (f c : Nat) : coreOf { s with fresh := f } c = coreOf s c := rfl

section
variable {c : Nat} {e : TEnv} (next : Nat) (s : State) (hmet : e.met = []) (hcleaned : e.cleaned = [])
include hmet hcleaned

theorem coreOf_retire (j : Nat) : coreOf (retire c e next s) j = if j = c then retiredCore e next (coreOf s c) else coreOf s j := by
  rw [retire_eq next s hmet hcleaned, coreOf_fresh, coreOf_setCore]

theorem retire_coreFrame : CoreFrame c s (retire c e next s) where
  others j hj := by rw [coreOf_retire next s hmet hcleaned, if_neg hj]
  contexts x hx := by rw [coreOf_retire next s hmet hcleaned, if_pos rfl, regsOf_retiredCore, if_neg hx]
  slots x := by rw [coreOf_retire next s hmet hcleaned, if_pos rfl]; exact tslotOf_retiredCore ..
  core := by rw [coreOf_retire next s hmet hcleaned, if_pos rfl, retiredCore_eq]
  device := by rw [retire_eq next s hmet hcleaned]; rfl

theorem nowRegs_retire : nowRegs c (retire c e next s) = retiredRegs e next (coreOf s c) := by
  have hcur : (coreOf (retire c e next s) c).cur = (coreOf s c).cur := by rw [(retire_coreFrame next s hmet hcleaned).core]
  rw [nowRegs, hcur, coreOf_retire next s hmet hcleaned, if_pos rfl, regsOf_retiredCore, if_pos rfl]

theorem dmem_retire : (coreOf (retire c e next s) c).dmem = e.mem := by
  rw [coreOf_retire next s hmet hcleaned, if_pos rfl, retiredCore_eq]

theorem qcyc_retire : (coreOf (retire c e next s) c).qcyc = (coreOf s c).qcyc + e.cycles := by
  rw [coreOf_retire next s hmet hcleaned, if_pos rfl, retiredCore_eq]

end

/-! ### Block repeats (R243) -/

/-- The end of a block repeat changes the counters and the open levels alone. -/
theorem loopBack_frame (levels : Nat) (r : TRegs) (next : Nat) :
    (loopBack levels r next).1 = { r with lc := (loopBack levels r next).1.lc, depth := (loopBack levels r next).1.depth } := by
  induction levels generalizing r with
  | zero => rfl
  | succ levels ih =>
    simp only [loopBack]
    split
    · rfl
    · split
      · rfl
      · conv_lhs => rw [ih]

theorem loopBack_closed (levels : Nat) {r : TRegs} (h : r.depth = 0) (next : Nat) : loopBack levels r next = (r, next) := by
  cases levels with
  | zero => rfl
  | succ levels => simp only [loopBack, h, true_or, if_true]

theorem loopBack_open (levels : Nat) {r : TRegs} {next l : Nat} (h : r.depth = l + 1) : loopBack (levels + 1) r next =
    if next % 65536 ≠ (tget 0 r.le l + 4) % 65536 then (r, next)
    else if 1 < tget 0 r.lc l then ({ r with lc := tset 0 r.lc l (tget 0 r.lc l - 1) }, tget 0 r.ls l)
    else loopBack levels { r with lc := tset 0 r.lc l 0, depth := l } next := by
  simp only [loopBack, h, Nat.succ_ne_zero, false_or, Nat.add_sub_cancel]

/-- More levels than are open make no difference. -/
theorem loopBack_succ (levels : Nat) {r : TRegs} (h : r.depth ≤ levels) (next : Nat) :
    loopBack (levels + 1) r next = loopBack levels r next := by
  induction levels generalizing r with
  | zero => rw [loopBack_closed _ (by omega), loopBack_closed _ (by omega)]
  | succ levels ih =>
    cases hdepth : r.depth with
    | zero => rw [loopBack_closed _ hdepth, loopBack_closed _ hdepth]
    | succ l => rw [loopBack_open _ hdepth, loopBack_open _ hdepth, ih (by dsimp only; omega)]

/-! ### The ends of an instruction -/

theorem completes_of_retire {c : Nat} {i : Instr} {s : State} {e : TEnv} {r : TRegs}
    (hexec : exec i s = .next (retire c e (r.pc + 4) s)) (hmet : e.met = []) (hcleaned : e.cleaned = []) (hjump : e.jump = none)
    (hregs : e.regs = { r with cyc := e.regs.cyc }) (hcyc : r.cyc = (nowRegs c s).cyc) : Completes c i s r e.mem e.cycles := by
  have hnow := nowRegs_retire (r.pc + 4) s hmet hcleaned (c := c)
  simp only [retiredRegs, hjump, Option.isNone_none, if_true] at hnow
  have hstart : (regsOf (coreOf s c) (coreOf s c).cur).cyc = r.cyc := hcyc.symm
  rw [hstart] at hnow
  refine ⟨_, hexec, retire_coreFrame _ s hmet hcleaned, ?_, fun hdepth => ?_, dmem_retire _ s hmet hcleaned, qcyc_retire _ s hmet hcleaned⟩
  · rw [hnow, loopBack_frame, hregs]
  · rw [loopBack_closed 4 (by rw [hregs]; exact hdepth), hregs] at hnow
    rw [hnow]
    exact ⟨rfl, rfl, hdepth⟩

section
variable {c : Nat} {s : State} {i : Instr} {rep : Bool} {op : TOp} {r : TRegs} {n : Nat}

/-- An instruction that neither jumps nor traps completes, with the registers and memory that it leaves (R232). -/
theorem Issues.completes (h : Issues c s) {m : Tbl Byte} {hit : BitVec 8} {f : Nat} (hexec : exec i s = .next (issue c rep op s))
    (hop : op (soundEnv c s) = .ok { soundEnv c s with regs := r, mem := m, hit := hit, fresh := f, cycles := n })
    (hpc : r.pc = (nowRegs c s).pc) (hcyc : r.cyc = (nowRegs c s).cyc) : Completes c i s r m n :=
  completes_of_retire (e := { soundEnv c s with regs := r, mem := m, hit := hit, fresh := f, cycles := n })
    (by rw [h.exec_ok hexec hop, hpc]; rfl) rfl rfl rfl rfl hcyc

theorem Issues.jumps (h : Issues c s) {pc : Nat} (hexec : exec i s = .next (issue c rep op s))
    (hop : op (soundEnv c s) = .ok { soundEnv c s with regs := r, jump := some pc, cycles := n })
    (hcyc : r.cyc = (nowRegs c s).cyc) : Jumps c i s r pc n := by
  refine ⟨_, h.exec_ok hexec hop, retire_coreFrame _ s rfl rfl, ?_, dmem_retire _ s rfl rfl, qcyc_retire _ s rfl rfl⟩
  rw [nowRegs_retire _ s rfl rfl, hcyc]
  rfl

theorem Issues.falls (h : Issues c s) {next : Nat} (hexec : exec i s = .next (issue c rep op s))
    (hop : op (soundEnv c s) = .ok { soundEnv c s with regs := r, fall := some next, cycles := n })
    (hcyc : r.cyc = (nowRegs c s).cyc) : Falls c i s r next n := by
  refine ⟨_, h.exec_ok hexec hop, retire_coreFrame _ s rfl rfl, ?_, dmem_retire _ s rfl rfl, qcyc_retire _ s rfl rfl⟩
  rw [nowRegs_retire _ s rfl rfl, hcyc]
  rfl

end

end Sys2Proof.Machine
end

section
/-! SUPPORT. The integer and packed instructions of a Trestle core (R235, R236, R240, Table 10-4), and from them O39. -/

namespace Sys2Proof.Machine

/-! ### Moves (R235) -/

/-- A move writes neither the PC nor the cycle count. -/
theorem writeReg_keeps {v : Word} {r w : TRegs} {dst : TReg} (h : writeReg v r dst = some w) : w.pc = r.pc ∧ w.cyc = r.cyc := by
  cases dst with
  | d n | p n | be => cases h; exact ⟨rfl, rfl⟩
  | flags | cyc => cases h
  | loop n =>
    simp only [writeReg, Option.some.injEq] at h
    subst h
    split_ifs <;> exact ⟨rfl, rfl⟩

/-- A vendor kernel moves every register, a customer kernel every register but those of the loops (Table 10-6, cause 2). -/
theorem Issues.mov_completes {c : Nat} {s : State} (h : Issues c s) {dst src : TReg} {w : TRegs}
    (hmay : (coreOf s c).cur = 2 ∨ (isLoopReg dst = false ∧ isLoopReg src = false))
    (hw : writeReg (readReg (nowRegs c s) src) (nowRegs c s) dst = some w) :
    Completes c (.mov c dst src) s { w with
      z := decide (readReg (nowRegs c s) src = 0), n := (readReg (nowRegs c s) src).getLsbD 31 } (coreOf s c).dmem 1 := by
  obtain ⟨hpc, hcyc⟩ := writeReg_keeps hw
  have hallowed : ¬((soundEnv c s).ctx ≠ vendor ∧ (isLoopReg dst || isLoopReg src) = true) := by
    rintro ⟨hctx, hloop⟩
    rcases hmay with hcur | ⟨hd, hs⟩
    · exact hctx hcur
    · simp [hd, hs] at hloop
  refine h.completes (f := s.fresh) (hit := 0) rfl ?_ hpc hcyc
  dsimp only
  rw [if_neg hallowed, show (soundEnv c s).regs = nowRegs c s from rfl, hw]
  rfl

/-! ### Shifts (R235) -/

theorem Issues.shift_completes {c : Nat} {s : State} (h : Issues c s) {i : Instr} {d a : Fin 16} {b : TSrc} {f : Word → Nat → Word}
    (hexec : exec i s = .next (issue c true (shiftOp d a b f) s)) (hn : (srcVal (nowRegs c s) b).toNat < 32) :
    Completes c i s (withZN d.val (f (dReg (nowRegs c s) a.val) (srcVal (nowRegs c s) b).toNat) (nowRegs c s)) (coreOf s c).dmem 1 :=
  h.completes hexec (if_pos hn) rfl rfl

/-- A shift by 32 or more leaves the free value that is next. -/
theorem Issues.shift_completes_free {c : Nat} {s : State} (h : Issues c s) {i : Instr} {d a : Fin 16} {b : TSrc} {f : Word → Nat → Word}
    (hexec : exec i s = .next (issue c true (shiftOp d a b f) s)) (hn : 32 ≤ (srcVal (nowRegs c s) b).toNat) :
    Completes c i s (withZN d.val (BitVec.ofNat 32 (Config.freeValue s.fresh)) (nowRegs c s)) (coreOf s c).dmem 1 :=
  h.completes (f := s.fresh + 1) (hit := 0) hexec (if_neg (Nat.not_lt.mpr hn)) rfl rfl

/-! ### Packed complex words (R236, R240) -/

theorem packRegs_nodup (p : TPack) : (packRegs p).Nodup := by
  cases p with
  | one d => exact List.nodup_singleton _
  | quad q => exact List.nodup_range.map fun a b h => by simpa using h

theorem satPacked_eq (x : IQ) (r : TRegs) : satPacked x r = (pack (satIQ 16 x), { r with sat := r.sat || exceeds 16 x }) := by
  show (_, if exceeds 16 x = true then _ else _) = _
  cases exceeds 16 x with
  | false => simp
  | true => simp

/-- One list zipped with two others of its length, index by index. -/
theorem zip_zip_eq_map {α : Type} {ds : List Nat} {xs ys : List α} (x0 y0 : α) (hx : xs.length = ds.length) (hy : ys.length = ds.length) :
    ds.zip (xs.zip ys) = (List.range ds.length).map fun k => (ds.getD k 0, xs.getD k x0, ys.getD k y0) := by
  refine List.ext_getElem (by simp [hx, hy]) fun k h1 h2 => ?_
  have hk : k < ds.length := by simpa using h2
  simp only [List.getElem_zip, List.getElem_map, List.getElem_range, List.getD_eq_getElem, hk, hx, hy]

/-- Data registers after writes of `v k` to register `n k` for each k of a list in turn. -/
def writeEach (n : Nat → Nat) (v : Nat → Word) (l : List Nat) (d : Tbl Word) : Tbl Word :=
  l.foldl (fun t k => tset 0 t (n k) (v k)) d

theorem tget_writeEach_outside {n : Nat → Nat} (v : Nat → Word) {l : List Nat} {x : Nat} (h : ∀ k ∈ l, n k ≠ x) (d : Tbl Word) :
    tget 0 (writeEach n v l d) x = tget 0 d x := by
  induction l generalizing d with
  | nil => rfl
  | cons k l ih =>
    obtain ⟨hk, hl⟩ := List.forall_mem_cons.mp h
    exact (ih hl _).trans (tget_tset_ne 0 d (v k) hk.symm)

theorem tget_writeEach {n : Nat → Nat} (v : Nat → Word) {m k : Nat} (hn : ∀ j < m, n k = n j → k = j) (hk : k < m) (d : Tbl Word) :
    tget 0 (writeEach n v (List.range m) d) (n k) = v k := by
  induction m with
  | zero => omega
  | succ m ih =>
    have hlast : writeEach n v (List.range (m + 1)) d = tset 0 (writeEach n v (List.range m) d) (n m) (v m) := by
      simp only [writeEach, List.range_succ, List.foldl_append, List.foldl_cons, List.foldl_nil]
    rw [hlast, tget_tset]
    by_cases hkm : k = m
    · subst hkm
      exact if_pos rfl
    · rw [if_neg fun he => hkm (hn m (by omega) he), ih (fun j hj => hn j (by omega)) (by omega)]

/-- A packed instruction's fold over its words writes the words of the results, and adds to SAT what the words report. -/
theorem foldl_packed {f : IQ → IQ → TRegs → Word × TRegs} {v : IQ → IQ → Word} {o : IQ → IQ → Bool}
    (hf : ∀ x y r, f x y r = (v x y, { r with sat := r.sat || o x y })) (ds : List Nat) (x y : Nat → IQ) (l : List Nat) (r : TRegs) :
    (l.map fun k => (ds.getD k 0, x k, y k)).foldl (fun r t => let w := f t.2.1 t.2.2 r; setD t.1 w.1 w.2) r =
      { r with d := writeEach (ds.getD · 0) (fun k => v (x k) (y k)) l r.d, sat := r.sat || l.any fun k => o (x k) (y k) } := by
  induction l generalizing r with
  | nil => simp [writeEach]
  | cons k l ih =>
    rw [List.map_cons, List.foldl_cons, ih]
    simp only [hf, setD, writeEach, List.foldl_cons, List.any_cons, Bool.or_assoc]

/-- Word k of a packed operand. -/
def operand (r : TRegs) (p : TPack) (k : Nat) : IQ := unpack (dReg r ((packRegs p).getD k 0))

/-- Registers that a packed instruction leaves: word k of the destination is `v` of words k of the operands, and SAT is set where `o` of
them holds. -/
def packedRegs (v : IQ → IQ → Word) (o : IQ → IQ → Bool) (dst a b : TPack) (r : TRegs) : TRegs :=
  { r with
    d := writeEach ((packRegs dst).getD · 0) (fun k => v (operand r a k) (operand r b k)) (List.range (packRegs dst).length) r.d,
    sat := r.sat || (List.range (packRegs dst).length).any fun k => o (operand r a k) (operand r b k) }

theorem packedOp_eq {dst a b : TPack} {f : IQ → IQ → TRegs → Word × TRegs} {v : IQ → IQ → Word} {o : IQ → IQ → Bool}
    (ha : (packRegs a).length = (packRegs dst).length) (hb : (packRegs b).length = (packRegs dst).length)
    (hf : ∀ x y r, f x y r = (v x y, { r with sat := r.sat || o x y })) (e : TEnv) :
    packedOp dst a (some b) f e = tick1 (packedRegs v o dst a b e.regs) e := by
  have hword (p : TPack) (k : Nat) :
      ((packRegs p).map fun n => unpack (dReg e.regs n)).getD k (unpack (dReg e.regs 0)) = operand e.regs p k := List.getD_map ..
  simp only [packedOp, List.length_map, ha, hb, ne_eq, not_true_eq_false, or_false, if_false]
  rw [zip_zip_eq_map (unpack (dReg e.regs 0)) (unpack (dReg e.regs 0)) (by simp [ha]) (by simp [hb])]
  simp only [hword]
  exact congrArg (tick1 · e) (foldl_packed hf _ _ _ _ _)

/-- A packed instruction, one of a single operand taking it twice: all operands are read first, then word k of the destination takes
the result of words k of the operands; SAT is set if a result did, and no other register changes. -/
theorem Issues.packed_completes {c : Nat} {s : State} (h : Issues c s) {i : Instr} {op : TOp} {dst a b : TPack}
    {f : IQ → IQ → TRegs → Word × TRegs} {v : IQ → IQ → Word} {o : IQ → IQ → Bool} {fr : Nat}
    (ha : (packRegs a).length = (packRegs dst).length) (hb : (packRegs b).length = (packRegs dst).length)
    (hf : ∀ x y r, f x y r = (v x y, { r with sat := r.sat || o x y })) (hexec : exec i s = .next (issue c true op s))
    (hop : op (soundEnv c s) = packedOp dst a (some b) f { soundEnv c s with fresh := fr }) :
    let r := nowRegs c s
    let x := operand r a
    let y := operand r b
    ∃ w, Completes c i s w (coreOf s c).dmem 1 ∧ w = { r with d := w.d, sat := w.sat } ∧
      w.sat = (r.sat || (List.range (packRegs dst).length).any fun k => o (x k) (y k)) ∧
      (∀ k < (packRegs dst).length, dReg w ((packRegs dst).getD k 0) = v (x k) (y k)) ∧ ∀ n, n ∉ packRegs dst → dReg w n = dReg r n := by
  intro r x y
  refine ⟨packedRegs v o dst a b r, h.completes (hit := 0) (f := fr) hexec (hop.trans (packedOp_eq ha hb hf _)) rfl rfl, rfl, rfl,
    fun k hk => tget_writeEach _ (fun j hj hkj => ?same) hk _, fun n hn => tget_writeEach_outside _ (fun k hk hkn => hn ?inside) _⟩
  case same =>
    rw [List.getD_eq_getElem _ _ hk, List.getD_eq_getElem _ _ hj] at hkj
    exact (packRegs_nodup dst).getElem_inj_iff.mp hkj
  case inside =>
    have hk : k < (packRegs dst).length := List.mem_range.mp hk
    rw [← hkn, List.getD_eq_getElem _ _ hk]
    exact List.getElem_mem hk

/-- A packed instruction whose results saturate to 16 bits a component (R240). -/
theorem Issues.packed_completes_sat {c : Nat} {s : State} (h : Issues c s) (g : IQ → IQ → IQ) {i : Instr} {op : TOp} {dst a b : TPack}
    {f : IQ → IQ → TRegs → Word × TRegs} (ha : (packRegs a).length = (packRegs dst).length)
    (hb : (packRegs b).length = (packRegs dst).length) (hexec : exec i s = .next (issue c true op s))
    (hop : op (soundEnv c s) = packedOp dst a (some b) f (soundEnv c s)) (hf : ∀ x y r, f x y r = satPacked (g x y) r) :
    let r := nowRegs c s
    let x := operand r a
    let y := operand r b
    ∃ w, Completes c i s w (coreOf s c).dmem 1 ∧ w = { r with d := w.d, sat := w.sat } ∧
      w.sat = (r.sat || (List.range (packRegs dst).length).any fun k => exceeds 16 (g (x k) (y k))) ∧
      (∀ k < (packRegs dst).length, dReg w ((packRegs dst).getD k 0) = pack (satIQ 16 (g (x k) (y k)))) ∧
      ∀ n, n ∉ packRegs dst → dReg w n = dReg r n :=
  h.packed_completes (v := fun x y => pack (satIQ 16 (g x y))) (o := fun x y => exceeds 16 (g x y)) (fr := s.fresh) ha hb
    (fun x y r => (hf x y r).trans (satPacked_eq _ r)) hexec hop

/-- A packed instruction of one operand that does not touch SAT. -/
theorem Issues.packed_completes_plain {c : Nat} {s : State} (h : Issues c s) (v : IQ → Word) {i : Instr} {op : TOp} {dst a : TPack}
    {fr : Nat} (ha : (packRegs a).length = (packRegs dst).length) (hexec : exec i s = .next (issue c true op s))
    (hop : op (soundEnv c s) = packedOp dst a (some a) (fun x _ r => (v x, r)) { soundEnv c s with fresh := fr }) :
    let r := nowRegs c s
    ∃ w, Completes c i s w (coreOf s c).dmem 1 ∧ w = { r with d := w.d, sat := w.sat } ∧
      w.sat = (r.sat || (List.range (packRegs dst).length).any fun _ => false) ∧
      (∀ k < (packRegs dst).length, dReg w ((packRegs dst).getD k 0) = v (operand r a k)) ∧ ∀ n, n ∉ packRegs dst → dReg w n = dReg r n :=
  h.packed_completes (v := fun x _ => v x) (o := fun _ _ => false) ha ha (fun x y r => by simp only [Bool.or_false]) hexec hop

/-- CMP's Z is set where its operands are equal. -/
theorem trestleSubFlags_eq (x y : Word) (r : TRegs) : trestleSubFlags x y r = { r with
    z := decide (x = y), n := (x - y).getLsbD 31,
    c := decide (y.toNat ≤ x.toNat), v := decide ((x - y).toInt ≠ x.toInt - y.toInt) } := by
  simp only [trestleSubFlags, trestleZN, sub_eq_zero]

/-- Settles O39: instruction by instruction, from the registers that each leaves. -/
theorem trestleIntegerAndPacked : Obligations.TrestleIntegerAndPacked := by
  refine ⟨fun c s h => ⟨fun d a b => ⟨?add, ?sub, ?cmp, ?and, ?or, ?xor, ?not, ?min, ?max, fun hn => ⟨?lsl, ?lsr, ?asr⟩, fun hn => ?free⟩,
    fun d v => ⟨?movi, ?movhi⟩, fun dst src w hmay hw => h.mov_completes hmay hw, fun d e => rfl⟩,
    fun c s dst a b h ha hb => ⟨?cadd, ?csub, ?cneg, fun sh => ?cshr, ?swaph, ?unpko, ?conj, fun g z hz => ?conjWord⟩⟩
  case add | sub | and | or | xor | not | min | max | movi | movhi => exact h.completes rfl rfl rfl rfl
  case cmp => exact h.completes rfl (congrArg (tick1 · _) (trestleSubFlags_eq ..)) rfl rfl
  case lsl | lsr | asr => exact h.shift_completes rfl hn
  case free => exact ⟨_, h.shift_completes_free rfl hn, h.shift_completes_free rfl hn, h.shift_completes_free rfl hn⟩
  case cadd => exact h.packed_completes_sat addIQ ha hb rfl rfl fun _ _ _ => rfl
  case csub => exact h.packed_completes_sat subIQ ha hb rfl rfl fun _ _ _ => rfl
  case cneg =>
    exact h.packed_completes_sat (fun x _ => (-x.1, -x.2)) (f := fun x _ => satPacked (subIQ (0, 0) x)) ha ha rfl rfl
      fun x _ r => by simp only [subIQ, zero_sub]
  case cshr => exact h.packed_completes_plain (fun x => pack (rheIQ x (2 ^ sh))) (fr := s.fresh) ha rfl rfl
  case swaph => exact h.packed_completes_plain (fun x => pack (x.2, x.1)) (fr := s.fresh) ha rfl rfl
  case unpko => exact h.packed_completes_plain (fun x => unpkoWord (pack x)) (fr := s.fresh) ha rfl rfl
  case conj => exact ⟨_, h.packed_completes_plain (conjWord (Config.freeValue s.fresh)) (fr := s.fresh + 1) ha rfl rfl⟩
  case conjWord => simp only [conjWord, hz, if_false]

end Sys2Proof.Machine
end

section
/-! SUPPORT. The data memory of a Trestle core and its accesses (R233, Table 10-4), and from them O40. -/

namespace Sys2Proof.Machine

/-! ### Words of data memory -/

theorem memWord_congr {m m' : Tbl Byte} {a : Nat} (h : ∀ o, a ≤ o → o < a + 4 → tget 0 m o = tget 0 m' o) : memWord m a = memWord m' a := by
  simp only [memWord, tgetList, h a (by omega) (by omega), h (a + 1) (by omega) (by omega), h (a + 1 + 1) (by omega) (by omega),
    h (a + 1 + 1 + 1) (by omega) (by omega)]

theorem memWord_setWord_self (a : Nat) (v : Word) (m : Tbl Byte) : memWord (setWord a v m) a = v := by
  have hlist : tgetList 0 (setWord a v m) a 4 = leBytes 4 v.toNat := by
    simpa only [setWord, leBytes_length] using tgetList_tsetList 0 m a (leBytes 4 v.toNat)
  rw [memWord, hlist, leNat_four_bytes v.isLt, BitVec.ofNat_toNat, BitVec.setWidth_eq]

theorem tget_setWord {a o : Nat} (v : Word) (m : Tbl Byte) (h : o < a ∨ a + 4 ≤ o) : tget 0 (setWord a v m) o = tget 0 m o := by
  rw [setWord, tget_tsetList, leBytes_length, if_neg (by omega)]

theorem memWord_setWord {a b : Nat} (v : Word) (m : Tbl Byte) (h : a + 4 ≤ b ∨ b + 4 ≤ a) : memWord (setWord b v m) a = memWord m a :=
  memWord_congr fun o hlo hhi => tget_setWord v m (by omega)

/-- Data memory after stores of `v 0`, `v 1`, … to `n` words from `a` on. -/
def storeWords (a : Nat) (v : Nat → Word) (n : Nat) (m : Tbl Byte) : Tbl Byte :=
  (List.range n).foldl (fun t j => setWord (a + 4 * j) (v j) t) m

theorem storeWords_succ (a : Nat) (v : Nat → Word) (n : Nat) (m : Tbl Byte) :
    storeWords a v (n + 1) m = setWord (a + 4 * n) (v n) (storeWords a v n m) := by
  simp only [storeWords, List.range_succ, List.foldl_append, List.foldl_cons, List.foldl_nil]

theorem memWord_storeWords (a : Nat) (v : Nat → Word) {n j : Nat} (h : j < n) (m : Tbl Byte) :
    memWord (storeWords a v n m) (a + 4 * j) = v j := by
  induction n with
  | zero => omega
  | succ n ih =>
    rw [storeWords_succ]
    by_cases hj : j = n
    · subst hj
      exact memWord_setWord_self ..
    · rw [memWord_setWord _ _ (by omega), ih (by omega)]

theorem tget_storeWords (a : Nat) (v : Nat → Word) (n : Nat) {o : Nat} (h : o < a ∨ a + 4 * n ≤ o) (m : Tbl Byte) :
    tget 0 (storeWords a v n m) o = tget 0 m o := by
  induction n with
  | zero => rfl
  | succ n ih => rw [storeWords_succ, tget_setWord _ _ (by omega), ih (by omega)]

/-! ### Quads of data registers -/

theorem foldl_setD (n : Nat → Nat) (v : Nat → Word) (l : List Nat) (r : TRegs) :
    l.foldl (fun t j => setD (n j) (v j) t) r = { r with d := writeEach n v l r.d } := by
  induction l generalizing r with
  | nil => rfl
  | cons j l ih => exact ih _

/-- A quad loaded from memory takes the four data registers of the quad. -/
theorem loadQuad_eq (q : Nat) (m : Tbl Byte) (a : Nat) (r : TRegs) : loadQuad q m a r =
    { r with d := writeEach (4 * q + ·) (fun j => memWord m (a + 4 * j)) (List.range 4) r.d } := foldl_setD ..

theorem dReg_loadQuad (q : Nat) (m : Tbl Byte) (a : Nat) (r : TRegs) {j : Nat} (h : j < 4) :
    dReg (loadQuad q m a r) (4 * q + j) = memWord m (a + 4 * j) := by
  rw [loadQuad_eq]
  exact tget_writeEach (n := (4 * q + ·)) (fun j => memWord m (a + 4 * j)) (fun i _ hi => Nat.add_left_cancel hi) h _

theorem dReg_loadQuad_outside (q : Nat) (m : Tbl Byte) (a : Nat) (r : TRegs) {n : Nat} (h : n < 4 * q ∨ 4 * q + 4 ≤ n) :
    dReg (loadQuad q m a r) n = dReg r n := by
  rw [loadQuad_eq]
  refine tget_writeEach_outside _ (fun j hj hjn => ?_) _
  have hj : j < 4 := List.mem_range.mp hj
  omega

/-! ### Accesses (R233) -/

/-- A pointer that advances is the only register that an address operand changes. -/
theorem address_regs (r : TRegs) (a : TAddr) : (address r a).2.1 = { r with p := (address r a).2.1.p } := by
  cases a <;> rfl

theorem accessTrap_outside {ctx x n : Nat} (h : x < (dataRange ctx).1 ∨ (dataRange ctx).1 + (dataRange ctx).2 < x + n) :
    accessTrap ctx x n = some 5 := if_pos h

theorem accessTrap_misaligned {ctx x n : Nat} (hlo : (dataRange ctx).1 ≤ x) (hhi : x + n ≤ (dataRange ctx).1 + (dataRange ctx).2)
    (h : x % n ≠ 0) : accessTrap ctx x n = some 7 := (if_neg (by omega)).trans (if_pos h)

section
variable {n : Nat} {a : TAddr} {e : TEnv} (k : Nat → TRegs → TEnv → TRes) (hcode : (address e.regs a).2.2 = true)
include hcode

theorem access_trap {cause : Nat} (htrap : accessTrap e.ctx (address e.regs a).1 n = some cause) : access n a k e = .trap cause := by
  simp only [access, hcode, htrap, Bool.not_true, Bool.false_eq_true, if_false]

theorem loadAccess_trap {cause : Nat} (htrap : accessTrap e.ctx (address e.regs a).1 n = some cause) : loadAccess n a k e = .trap cause :=
  access_trap _ hcode htrap

theorem access_reaches (htrap : accessTrap e.ctx (address e.regs a).1 n = none) :
    access n a k e = k (address e.regs a).1 (address e.regs a).2.1 e := by
  simp only [access, hcode, htrap, Bool.not_true, Bool.false_eq_true, if_false]

/-- An access that reads its words goes on where no word is struck. -/
theorem loadAccess_reaches (hbad : e.bad = []) (htrap : accessTrap e.ctx (address e.regs a).1 n = none) :
    loadAccess n a k e = k (address e.regs a).1 (address e.regs a).2.1 e := by
  rw [loadAccess, access_reaches _ hcode htrap]
  have hnone : badAmong (wordsOf n (address e.regs a).1) e = [] := by rw [badAmong, hbad, List.filter_nil]
  simp only [hnone, List.find?_nil, List.map_nil, List.append_nil]

end

section
variable {c : Nat} {s : State} {a : TAddr} (h : Issues c s) (hcode : (address (nowRegs c s) a).2.2 = true)
include h hcode

/-- A load or store of a word that the context or the alignment forbids traps (R233). -/
theorem Issues.ld_traps (f : Fin 16) {cause : Nat} (htrap : accessTrap (coreOf s c).cur (address (nowRegs c s) a).1 4 = some cause) :
    exec (.ld c f a) s = .next (trapRun c cause s) := h.exec_trap rfl (loadAccess_trap (e := soundEnv c s) _ hcode htrap)

theorem Issues.st_traps (f : Fin 16) {cause : Nat} (htrap : accessTrap (coreOf s c).cur (address (nowRegs c s) a).1 4 = some cause) :
    exec (.st c f a) s = .next (trapRun c cause s) := h.exec_trap rfl (loadAccess_trap (e := soundEnv c s) _ hcode htrap)

theorem Issues.ldq_traps (f : Fin 4) {cause : Nat} (htrap : accessTrap (coreOf s c).cur (address (nowRegs c s) a).1 16 = some cause) :
    exec (.ldq c f a) s = .next (trapRun c cause s) := h.exec_trap rfl (loadAccess_trap (e := soundEnv c s) _ hcode htrap)

theorem Issues.stq_traps (f : Fin 4) {cause : Nat} (htrap : accessTrap (coreOf s c).cur (address (nowRegs c s) a).1 16 = some cause) :
    exec (.stq c f a) s = .next (trapRun c cause s) := h.exec_trap rfl (access_trap (e := soundEnv c s) _ hcode htrap)

theorem Issues.ld_completes (f : Fin 16) (hin : accessTrap (coreOf s c).cur (address (nowRegs c s) a).1 4 = none) :
    Completes c (.ld c f a) s
      { (address (nowRegs c s) a).2.1 with
        d := tset 0 (address (nowRegs c s) a).2.1.d f.val (memWord (coreOf s c).dmem (address (nowRegs c s) a).1) } (coreOf s c).dmem 1 :=
  h.completes rfl (loadAccess_reaches (e := soundEnv c s) _ hcode rfl hin) (by rw [address_regs]) (by rw [address_regs])

theorem Issues.st_completes (f : Fin 16) (hin : accessTrap (coreOf s c).cur (address (nowRegs c s) a).1 4 = none) :
    Completes c (.st c f a) s (address (nowRegs c s) a).2.1
      (setWord (address (nowRegs c s) a).1 (dReg (nowRegs c s) f.val) (coreOf s c).dmem) 1 :=
  h.completes rfl (loadAccess_reaches (e := soundEnv c s) _ hcode rfl hin) (by rw [address_regs]) (by rw [address_regs])

theorem Issues.ldq_completes (f : Fin 4) (hin : accessTrap (coreOf s c).cur (address (nowRegs c s) a).1 16 = none) :
    Completes c (.ldq c f a) s
      (loadQuad f.val (coreOf s c).dmem (address (nowRegs c s) a).1 (address (nowRegs c s) a).2.1) (coreOf s c).dmem 1 :=
  h.completes rfl (loadAccess_reaches (e := soundEnv c s) _ hcode rfl hin) (by rw [loadQuad_eq, address_regs])
    (by rw [loadQuad_eq, address_regs])

theorem Issues.stq_completes (f : Fin 4) (hin : accessTrap (coreOf s c).cur (address (nowRegs c s) a).1 16 = none) :
    Completes c (.stq c f a) s (address (nowRegs c s) a).2.1
      (storeWords (address (nowRegs c s) a).1 (fun j => dReg (nowRegs c s) (4 * f.val + j)) 4 (coreOf s c).dmem) 1 :=
  h.completes rfl (access_reaches (e := soundEnv c s) _ hcode hin) (by rw [address_regs]) (by rw [address_regs])

end

/-- Settles O40: the traps of an access by its address, and the words that each load and store moves. -/
theorem trestleLoadsAndStores : Obligations.TrestleLoadsAndStores := by
  intro c s a h r k x q hcode
  refine ⟨?traps, fun f hin => ⟨h.ld_completes hcode f hin, _, h.st_completes hcode f hin, memWord_setWord_self .., fun o ho => tget_setWord _ _ ho⟩,
    fun f hin => ⟨⟨_, h.ldq_completes hcode f hin, ?quad, fun j hj => dReg_loadQuad _ _ _ _ hj, fun n hn => ?others⟩,
      _, h.stq_completes hcode f hin, fun j hj => memWord_storeWords _ _ hj _, fun o ho => tget_storeWords _ _ _ ho _⟩, ?off, ?post⟩
  case traps =>
    rintro n d e (⟨rfl, f, rfl, rfl⟩ | ⟨rfl, f, rfl, rfl⟩)
    · exact ⟨fun hout => ⟨h.ld_traps hcode f (accessTrap_outside hout), h.st_traps hcode f (accessTrap_outside hout)⟩, fun hlo hhi hmod =>
        ⟨h.ld_traps hcode f (accessTrap_misaligned hlo hhi hmod), h.st_traps hcode f (accessTrap_misaligned hlo hhi hmod)⟩⟩
    · exact ⟨fun hout => ⟨h.ldq_traps hcode f (accessTrap_outside hout), h.stq_traps hcode f (accessTrap_outside hout)⟩, fun hlo hhi hmod =>
        ⟨h.ldq_traps hcode f (accessTrap_misaligned hlo hhi hmod), h.stq_traps hcode f (accessTrap_misaligned hlo hhi hmod)⟩⟩
  case quad => rw [loadQuad_eq]
  case others =>
    rw [dReg_loadQuad_outside _ _ _ _ hn, address_regs]
    rfl
  case off =>
    rintro m o rfl
    exact ⟨rfl, rfl⟩
  case post =>
    rintro m o rfl
    exact ⟨rfl, rfl⟩

end Sys2Proof.Machine
end

section
/-! SUPPORT. The accumulators of a Trestle core (R238 to R240), and from them O41. -/

namespace Sys2Proof.Machine

/-! ### One accumulator takes a result (R239) -/

/-- ACC_OVF bit that a result sets in accumulator n: none where it fits 40 bits. -/
def accBit (n : Nat) (v : IQ) : BitVec 8 := if exceeds 40 v then BitVec.twoPow 8 n else 0

/-- Registers in which accumulator n has taken an exact result. -/
def accRegs (n : Nat) (v : IQ) (r : TRegs) : TRegs :=
  { r with a := tset (0, 0) r.a n (satIQ 40 v), ovf := r.ovf ||| accBit n v, poison := r.poison || exceeds 40 v }

theorem setAcc_eq (n : Nat) (v : IQ) (e : TEnv) :
    setAcc n v e = { e with regs := accRegs n v e.regs, hit := e.hit ||| accBit n v } := by
  show (if exceeds 40 v = true then _ else _) = _
  unfold accRegs accBit
  cases exceeds 40 v with
  | false => simp
  | true => simp

theorem getLsbD_accBit_self {n : Nat} (hn : n < 8) (v : IQ) : (accBit n v).getLsbD n = exceeds 40 v := by
  unfold accBit
  cases exceeds 40 v <;> simp [hn]

theorem getLsbD_accBit_ne {n m : Nat} (h : m ≠ n) (v : IQ) : (accBit n v).getLsbD m = false := by
  unfold accBit
  cases exceeds 40 v <;> simp [BitVec.getLsbD_twoPow, h.symm]

theorem accKept_refl (n : Nat) (r : TRegs) : AccKept n r r := ⟨rfl, rfl⟩

theorem accRegs_takes {n : Nat} (hn : n < 8) {v : IQ} {r0 r : TRegs} (h : AccKept n r0 r) : AccTakes n v r0 (accRegs n v r) :=
  ⟨tget_tset_self .., by simp only [accRegs, BitVec.getLsbD_or, getLsbD_accBit_self hn, h.2]⟩

theorem accRegs_keeps {n m : Nat} (h : m ≠ n) (v : IQ) (r : TRegs) : AccKept m r (accRegs n v r) :=
  ⟨tget_tset_ne _ _ _ h, by simp only [accRegs, BitVec.getLsbD_or, getLsbD_accBit_ne h, Bool.or_false]⟩

theorem AccKept.trans {n : Nat} {r0 r w : TRegs} (h : AccKept n r0 r) (k : AccKept n r w) : AccKept n r0 w :=
  ⟨k.1.trans h.1, k.2.trans h.2⟩

theorem AccTakes.keep {n : Nat} {v : IQ} {r0 r w : TRegs} (h : AccTakes n v r0 r) (k : AccKept n r w) : AccTakes n v r0 w :=
  ⟨k.1.trans h.1, k.2.trans h.2⟩

/-- An instruction of class 5 leaves one accumulator, saturated to 40 bits, with its ACC_OVF bit and POISON. -/
theorem Issues.acc_completes {c : Nat} {s : State} (h : Issues c s) {i : Instr} {n : Fin 8} (f : TRegs → IQ)
    (hexec : exec i s = .next (issue c true (accOp n f) s)) :
    let r := nowRegs c s
    ∃ w, Completes c i s w (coreOf s c).dmem 1 ∧ w = { r with a := w.a, ovf := w.ovf, poison := w.poison } ∧
      AccTakes n.val (f r) r w ∧ (∀ m < 8, m ≠ n.val → AccKept m r w) ∧ w.poison = (r.poison || exceeds 40 (f r)) := by
  intro r
  refine ⟨accRegs n.val (f r) r, h.completes (f := s.fresh) (hit := 0 ||| accBit n.val (f r)) hexec ?_ rfl rfl, rfl,
    accRegs_takes n.isLt (accKept_refl ..), fun m _ hm => accRegs_keeps hm _ _, rfl⟩
  simp only [accOp, setAcc_eq]
  rfl

/-! ### The four lanes of a multiply (R238) -/

/-- Registers after `k` lanes of half `h` of the accumulators have taken their results in turn. -/
def laneRegs (h : Nat) (v : Nat → IQ) (k : Nat) (r : TRegs) : TRegs := (List.range k).foldl (fun t j => accRegs (4 * h + j) (v j) t) r

theorem laneRegs_succ (h : Nat) (v : Nat → IQ) (k : Nat) (r : TRegs) :
    laneRegs h v (k + 1) r = accRegs (4 * h + k) (v k) (laneRegs h v k r) := by
  simp only [laneRegs, List.range_succ, List.foldl_append, List.foldl_cons, List.foldl_nil]

theorem laneRegs_frame (h : Nat) (v : Nat → IQ) (k : Nat) (r : TRegs) : laneRegs h v k r =
    { r with a := (laneRegs h v k r).a, ovf := (laneRegs h v k r).ovf, poison := (laneRegs h v k r).poison } := by
  induction k with
  | zero => rfl
  | succ k ih =>
    rw [laneRegs_succ]
    conv_lhs => rw [ih]
    rfl

theorem laneRegs_keeps {h k n : Nat} (hn : ∀ j < k, n ≠ 4 * h + j) (v : Nat → IQ) (r : TRegs) : AccKept n r (laneRegs h v k r) := by
  induction k with
  | zero => exact accKept_refl ..
  | succ k ih =>
    rw [laneRegs_succ]
    exact (ih fun j hj => hn j (by omega)).trans (accRegs_keeps (hn k (by omega)) _ _)

theorem laneRegs_takes {h k j : Nat} (hh : h < 2) (hk : k ≤ 4) (hj : j < k) (v : Nat → IQ) (r : TRegs) :
    AccTakes (4 * h + j) (v j) r (laneRegs h v k r) := by
  induction k with
  | zero => omega
  | succ k ih =>
    rw [laneRegs_succ]
    by_cases hjk : j = k
    · subst hjk
      exact accRegs_takes (by omega) (laneRegs_keeps (fun i hi => by omega) v r)
    · exact (ih (by omega) (by omega)).keep (accRegs_keeps (by omega) _ _)

theorem laneRegs_poison (h : Nat) (v : Nat → IQ) (r : TRegs) : (laneRegs h v 4 r).poison =
    (r.poison || exceeds 40 (v 0) || exceeds 40 (v 1) || exceeds 40 (v 2) || exceeds 40 (v 3)) := by
  simp only [laneRegs_succ, accRegs]
  rfl

/-- What the four lanes of half `h` leave of the accumulators: lane j has taken `v j`, the other half is as it was. -/
def LanesTake (h : Nat) (v : Nat → IQ) (r w : TRegs) : Prop :=
  (∀ j < 4, AccTakes (4 * h + j) (v j) r w) ∧ (∀ n < 8, n / 4 ≠ h → AccKept n r w) ∧
  w.poison = (r.poison || exceeds 40 (v 0) || exceeds 40 (v 1) || exceeds 40 (v 2) || exceeds 40 (v 3))

theorem laneRegs_lanesTake (h : Fin 2) (v : Nat → IQ) (r : TRegs) : LanesTake h.val v r (laneRegs h.val v 4 r) :=
  ⟨fun _ hj => laneRegs_takes h.isLt le_rfl hj v r, fun n _ hn => laneRegs_keeps (fun j hj => by omega) v r, laneRegs_poison ..⟩

theorem foldl_setAcc (n : Nat → Nat) (v : Nat → IQ) (l : List Nat) (e : TEnv) : l.foldl (fun t j => setAcc (n j) (v j) t) e =
    { e with regs := l.foldl (fun t j => accRegs (n j) (v j) t) e.regs, hit := l.foldl (fun t j => t ||| accBit (n j) (v j)) e.hit } := by
  induction l generalizing e with
  | nil => rfl
  | cons j l ih =>
    rw [List.foldl_cons, ih, setAcc_eq]
    rfl

/-- Results of the four lanes: accumulator, x and y of each. -/
def laneValues (f : IQ → IQ → IQ → IQ) (h a b : Nat) (r : TRegs) (j : Nat) : IQ :=
  f (aReg r (4 * h + j)) (unpack (dReg r (4 * a + j))) (unpack (dReg r (4 * b + j)))

theorem macLanes_eq (h : Fin 2) (a b : Fin 4) (f : IQ → IQ → IQ → IQ) (e : TEnv) : ∃ hit, macLanes h a b f e =
    { e with regs := laneRegs h.val (laneValues f h.val a.val b.val e.regs) 4 e.regs, hit := hit } :=
  ⟨_, foldl_setAcc (4 * h.val + ·) (laneValues f h.val a.val b.val e.regs) (List.range 4) e⟩

/-- A complex multiply leaves its four accumulators, with their ACC_OVF bits and POISON. -/
theorem Issues.mac_completes {c : Nat} {s : State} (hi : Issues c s) {i : Instr} {h : Fin 2} {a b : Fin 4} (f : IQ → IQ → IQ → IQ)
    (hexec : exec i s = .next (issue c true (macOp h a b f) s)) :
    let r := nowRegs c s
    ∃ w, Completes c i s w (coreOf s c).dmem 1 ∧ w = { r with a := w.a, ovf := w.ovf, poison := w.poison } ∧
      LanesTake h.val (laneValues f h.val a.val b.val r) r w := by
  intro r
  obtain ⟨hit, hlanes⟩ := macLanes_eq h a b f (soundEnv c s)
  refine ⟨_, hi.completes (f := s.fresh) (hit := hit) (r := laneRegs h.val (laneValues f h.val a.val b.val r) 4 r) hexec ?_ ?_ ?_,
    laneRegs_frame .., laneRegs_lanesTake ..⟩
  · simp only [macOp, hlanes]
    rfl
  · rw [laneRegs_frame]
  · rw [laneRegs_frame]

/-- CMAC4L is a CMAC4 that also loads a quad; its operands are those before the load. -/
theorem Issues.cmac4l_completes {c : Nat} {s : State} (hi : Issues c s) (h : Fin 2) (a b d : Fin 4) {ad : TAddr}
    (hcode : (address (nowRegs c s) ad).2.2 = true) (hin : accessTrap (coreOf s c).cur (address (nowRegs c s) ad).1 16 = none) :
    let r := nowRegs c s
    let v := laneValues (fun z x y => addIQ z (mulIQ x y)) h.val a.val b.val r
    Completes c (.cmac4l c h a b d ad) s
      (loadQuad d.val (coreOf s c).dmem (address r ad).1 { laneRegs h.val v 4 r with p := (address r ad).2.1.p }) (coreOf s c).dmem 1 := by
  intro r v
  obtain ⟨hit, hlanes⟩ := macLanes_eq h a b (fun z x y => addIQ z (mulIQ x y)) (soundEnv c s)
  refine hi.completes (f := s.fresh) (hit := hit) rfl ((loadAccess_reaches (e := soundEnv c s) _ hcode rfl hin).trans ?_) ?_ ?_
  · simp only [hlanes]
    rfl
  · rw [loadQuad_eq, laneRegs_frame]
  · rw [loadQuad_eq, laneRegs_frame]

/-- CLRA zeroes the four accumulators of its half. -/
theorem aReg_cleared (r : TRegs) (h n : Nat) :
    tget (0, 0) (tsetList (0, 0) r.a (4 * h) (List.replicate 4 ((0, 0) : IQ))) n = if n / 4 = h then (0, 0) else aReg r n := by
  rw [tget_tsetList, List.length_replicate]
  by_cases hn : n / 4 = h
  · rw [if_pos (by omega), if_pos hn, List.getD_replicate _ (by omega)]
  · rw [if_neg (by omega), if_neg hn]
    rfl

/-! ### STR (R240) -/

/-- A pair scaled by 2^-sh. -/
def scaleIQ (z : IQ) (sh : Int) : IQ := (scaleBy z.1 sh, scaleBy z.2 sh)

theorem scaleIQ_eq (z : IQ) (sh : Int) : scaleIQ z sh =
    if 0 ≤ sh then rheIQ z (2 ^ sh.toNat) else (z.1 * 2 ^ (-sh).toNat, z.2 * 2 ^ (-sh).toNat) := by
  unfold scaleIQ scaleBy
  split
  · rfl
  · push_cast
    rfl

/-- N of a stored pair: both components negative, or one alone and the free value says so. -/
def strN (y : IQ) (free : Nat) : Bool := decide (y.1 < 0 ∧ y.2 < 0) || (decide (y.1 < 0 ∨ y.2 < 0) && free.testBit 0)

theorem strN_of_neg {y : IQ} (h1 : y.1 < 0) (h2 : y.2 < 0) (free : Nat) : strN y free = true := by simp [strN, h1, h2]

theorem strN_of_nonneg {y : IQ} (h1 : 0 ≤ y.1) (h2 : 0 ≤ y.2) (free : Nat) : strN y free = false := by
  simp [strN, Int.not_lt.mpr h1, Int.not_lt.mpr h2]

/-- STR places the scaled and saturated pair; the accumulator keeps its value. -/
theorem Issues.str_completes {c : Nat} {s : State} (h : Issues c s) {d : Fin 16} {a : Fin 8} {sh : Int} {w : Nat} (hlo : -8 ≤ sh)
    (hhi : sh ≤ 31) (hw : w ∈ [16, 18, 32]) (hpair : w = 16 ∨ d.val % 2 = 0) :
    let r := nowRegs c s
    let v := scaleIQ (aReg r a.val) sh
    Completes c (.str c d a sh w) s { r with
      d := if w = 16 then tset 0 r.d d.val (pack (satIQ 16 v))
        else tset 0 (tset 0 r.d d.val (BitVec.ofInt 32 (satIQ w v).1)) (d.val + 1) (BitVec.ofInt 32 (satIQ w v).2),
      sat := r.sat || exceeds w v, z := decide (satIQ w v = (0, 0)), n := strN (satIQ w v) (Config.freeValue s.fresh) }
      (coreOf s c).dmem 1 := by
  intro r v
  have hcode : ¬(sh < -8 ∨ 31 < sh ∨ w ∉ [16, 18, 32] ∨ (w ≠ 16 ∧ d.val % 2 ≠ 0)) := by
    rintro (h1 | h1 | h1 | ⟨h1, h2⟩)
    · omega
    · omega
    · exact h1 hw
    · exact hpair.elim h1 h2
  refine h.completes (f := s.fresh + 1) (hit := 0) rfl ((if_neg hcode).trans ?_) rfl rfl
  by_cases h16 : w = 16
  · subst h16
    simp only [if_true, exceeds, ← Bool.or_assoc]
    rfl
  · simp only [h16, if_false, exceeds, ← Bool.or_assoc]
    rfl

/-- Settles O41: the lanes of the multiplies, then the instructions of one accumulator. -/
theorem trestleAccumulators : Obligations.TrestleAccumulators := by
  refine ⟨fun c s h a b hi => ⟨hi.mac_completes (fun _ x y => mulIQ x y) rfl, hi.mac_completes (fun z x y => addIQ z (mulIQ x y)) rfl,
      hi.mac_completes (fun z x y => subIQ z (mulIQ x y)) rfl, hi.mac_completes (fun z x y => addIQ z (mulIQ x (y.1, -y.2))) rfl,
      fun d ad hcode hin => ⟨_, hi.cmac4l_completes h a b d hcode hin, ?frame, ?lanes, fun j hj => ?loaded, fun n hn => ?others⟩,
      ?clra⟩,
    fun c s a b hi => ⟨hi.acc_completes (fun r => addIQ (aReg r a.val) (aReg r b.val)) rfl,
      fun sh => hi.acc_completes (fun r => rheIQ (aReg r a.val) (2 ^ sh)) rfl, fun sh => ?ashl,
      fun d => hi.acc_completes (fun r => ((dReg r (2 * d.val)).toInt, (dReg r (2 * d.val + 1)).toInt)) rfl,
      fun d sh w hlo hhi hw hpair => ?str⟩⟩
  case frame => rw [loadQuad_eq, laneRegs_frame]
  case lanes =>
    rw [loadQuad_eq]
    exact laneRegs_lanesTake h (laneValues (fun z x y => addIQ z (mulIQ x y)) h.val a.val b.val (nowRegs c s)) (nowRegs c s)
  case loaded => exact dReg_loadQuad _ _ _ _ hj
  case others =>
    rw [dReg_loadQuad_outside _ _ _ _ hn, laneRegs_frame]
    rfl
  case clra =>
    refine ⟨_, hi.completes rfl rfl rfl rfl, rfl, fun j hj => ?_, fun n _ hn => ?_⟩
    · exact (aReg_cleared ..).trans (if_pos (by omega))
    · exact (aReg_cleared ..).trans (if_neg hn)
  case ashl =>
    have hcast (x : Int) : x * 2 ^ sh = x * (2 ^ sh : Nat) := by push_cast; rfl
    simp only [hcast]
    exact hi.acc_completes (fun r => ((aReg r a.val).1 * (2 ^ sh : Nat), (aReg r a.val).2 * (2 ^ sh : Nat))) rfl
  case str =>
    intro v
    have hv : v = scaleIQ (aReg (nowRegs c s) a.val) sh := (scaleIQ_eq ..).symm
    rw [hv]
    exact ⟨_, fun h1 h2 => strN_of_neg h1 h2 _, fun h1 h2 => strN_of_nonneg h1 h2 _, hi.str_completes hlo hhi hw hpair⟩

end Sys2Proof.Machine
end

section
/-! SUPPORT. The counts of redundant sign bits and the normalise instructions (R241, Table 10-5), and from them O42. -/

namespace Sys2Proof.Machine

/-! ### Redundant sign bits -/

/-- A value fits `w` bits when it lies between the limits of a signed `w`-bit number. -/
theorem overBits_eq_false_iff (w : Nat) (v : Int) : overBits w v = false ↔ -(2 ^ (w - 1)) ≤ v ∧ v < 2 ^ (w - 1) := by
  have hpos : (0 : Int) < 2 ^ (w - 1) := by positivity
  simp only [overBits, satBits, clampI, decide_eq_false_iff_not, not_not, Nat.cast_pow, Nat.cast_ofNat]
  split_ifs <;> omega

/-- What fits in fewer bits fits in more. -/
theorem overBits_mono {w w' : Nat} (h : w ≤ w') {v : Int} (hv : overBits w v = false) : overBits w' v = false := by
  rw [overBits_eq_false_iff] at hv ⊢
  have hpow : (2 : Int) ^ (w - 1) ≤ 2 ^ (w' - 1) := pow_le_pow_right₀ (by decide) (by omega)
  omega

/-- A predicate that never comes back once it is lost holds below its count. -/
theorem lt_length_filter_range_iff {p : Nat → Bool} (hp : ∀ k, p (k + 1) = true → p k = true) (w : Nat) {k : Nat} (hk : k < w) :
    k < ((List.range w).filter p).length ↔ p k = true := by
  induction w with
  | zero => omega
  | succ w ih =>
    have hle : ((List.range w).filter p).length ≤ w := by simpa using List.length_filter_le p (List.range w)
    have hdown {i j : Nat} (hij : i ≤ j) (hj : p j = true) : p i = true := Nat.decreasingInduction (fun i _ => hp i) hj hij
    rw [List.range_succ, List.filter_append, List.length_append]
    cases hw : p w with
    | false =>
      simp only [List.filter_cons, hw, Bool.false_eq_true, if_false, List.filter_nil, List.length_nil, Nat.add_zero]
      by_cases hkw : k = w
      · subst hkw
        simp [hw, Nat.not_lt.mpr hle]
      · exact ih (by omega)
    | true =>
      have hfull : ((List.range w).filter p).length = w := by
        rw [List.filter_eq_self.mpr fun i hi => hdown (by simpa using (List.mem_range.mp hi).le) hw, List.length_range]
      simp only [List.filter_cons, hw, if_true, List.filter_nil, List.length_cons, List.length_nil, hfull]
      exact iff_of_true (by omega) (hdown (by omega) hw)

/-- Of a value of `w` bits, the count of redundant sign bits is below `w`, the value fits without them, and without one more it would
not (R241). -/
theorem signBits_spec {w : Nat} {v : Int} (hw : 1 ≤ w) (hv : overBits w v = false) : signBits w v < w ∧
    overBits (w - signBits w v) v = false ∧ (signBits w v + 1 < w → overBits (w - (signBits w v + 1)) v = true) := by
  have hcount {k : Nat} (hk : k < w) : k < ((List.range w).filter fun k => !overBits (w - k) v).length ↔ overBits (w - k) v = false := by
    rw [lt_length_filter_range_iff (fun k hk => ?_) w hk, Bool.not_eq_true']
    rw [Bool.not_eq_true'] at hk ⊢
    exact overBits_mono (by omega) hk
  have hle : ((List.range w).filter fun k => !overBits (w - k) v).length ≤ w := by
    simpa using List.length_filter_le (fun k => !overBits (w - k) v) (List.range w)
  have hpos := (hcount (k := 0) (by omega)).mpr hv
  unfold signBits
  generalize ((List.range w).filter fun k => !overBits (w - k) v).length = m at hcount hle hpos
  refine ⟨by omega, (hcount (by omega)).mp (by omega), fun h => ?_⟩
  by_contra hfits
  have := (hcount h).mpr (Bool.eq_false_iff.mpr hfits)
  omega

/-! ### Block exponent -/

theorem bexpRegs_quad (w : Nat → Word) (r : TRegs) : bexpRegs ((List.range 4).map w) r = { r with
    be := Nat.min (Nat.min (Nat.min (Nat.min r.be (expcOf (unpack (w 0)))) (expcOf (unpack (w 1)))) (expcOf (unpack (w 2)))) (expcOf (unpack (w 3))),
    z := (List.range 4).all (fun j => decide (w j = 0)), n := false } := by
  rw [bexpRegs, List.all_map]
  rfl

/-- Settles O42: the counts, the edge values by evaluation, and what the counts say of a value. -/
theorem trestleNormaliseResults : Obligations.TrestleNormaliseResults := by
  refine ⟨fun c s h => ⟨fun d e => ⟨?exp, ?expc, fun f => ?norm⟩, fun d a => ?expa, fun q => ?bexpq, fun m hin => ?bexp, ?beclr⟩,
    ?edges, fun w v hw hlo hhi => ?counts⟩
  case exp | expc | norm | expa | beclr => exact h.completes rfl rfl rfl rfl
  case bexpq =>
    exact h.completes rfl
      (congrArg (tick1 · _) (bexpRegs_quad (fun j => dReg (nowRegs c s) (4 * q.val + j)) (nowRegs c s))) rfl rfl
  case bexp =>
    refine h.completes (f := s.fresh) (hit := 0) rfl ((loadAccess_reaches (n := 16) (a := .post m 16) (e := soundEnv c s) _ rfl rfl hin).trans ?_) rfl rfl
    exact congrArg (tick1 · _) (bexpRegs_quad (fun j => memWord (coreOf s c).dmem ((pReg (nowRegs c s) m.val).toNat + 4 * j)) _)
  case edges => exact ⟨by decide +kernel, by decide +kernel, by decide +kernel, by decide, by decide +kernel, by decide +kernel⟩
  case counts =>
    obtain ⟨hlt, hfits, hmore⟩ := signBits_spec hw ((overBits_eq_false_iff w v).mpr ⟨hlo, hhi⟩)
    rw [overBits_eq_false_iff, Nat.sub_right_comm] at hfits
    refine ⟨hlt, hfits.1, hfits.2, fun h => ?_⟩
    have hover := hmore h
    rwa [← Bool.not_eq_false, overBits_eq_false_iff, show w - (signBits w v + 1) - 1 = w - 2 - signBits w v by omega] at hover

end Sys2Proof.Machine
end

section
/-! SUPPORT. Branches, calls, repeats, flags and DMA of a Trestle core (R232, R237, R242, R243), and from them O43. -/

namespace Sys2Proof.Machine

/-! ### Calls, repeats and blocks -/

/-- Most calls that a context may have open (R237). -/
theorem Issues.call_jumps {c : Nat} {s : State} (h : Issues c s) (t : BitVec 16)
    (hroom : (nowRegs c s).stack.length < (if (coreOf s c).cur = 2 then 8 else 4)) :
    Jumps c (.call c t) s { nowRegs c s with stack := ((nowRegs c s).pc + 4) % 65536 :: (nowRegs c s).stack } t.toNat 3 :=
  h.jumps rfl (if_neg (Nat.not_le.mpr hroom)) rfl

theorem Issues.ret_falls {c : Nat} {s : State} (h : Issues c s) {x : Nat} {xs : List Nat} (hstack : (nowRegs c s).stack = x :: xs) :
    Falls c (.ret c) s { nowRegs c s with stack := xs } x 3 := by
  refine h.falls rfl ?_ rfl
  simp only [show (soundEnv c s).regs.stack = x :: xs from hstack]
  rfl

/-- The count of an RPT. -/
def rptCount (r : TRegs) : TCount → Nat
  | .imm k => k
  | .reg d => (dReg r d.val).toNat

/-- The cause of an RPT whose count is above 4,096 (R242). -/
def rptCause : TCount → Nat
  | .imm _ => 8
  | .reg _ => 3

/-- What an RPT does: it traps, skips the next instruction, or has it repeated. -/
def rptOp (n : TCount) : TOp := fun e =>
  if 4096 < rptCount e.regs n then .trap (rptCause n)
  else if rptCount e.regs n = 0 then .ok { e with fall := some (e.regs.pc + 8), cycles := e.cycles + 1 }
  else .ok { e with regs := { e.regs with rpt := some (rptCount e.regs n), inRpt := true } }

theorem exec_rpt (c : Nat) (n : TCount) (s : State) : exec (.rpt c n) s = .next (issue c false (rptOp n) s) := by
  cases n <;> rfl

section
variable {c : Nat} {s : State} (h : Issues c s) {n : TCount}
include h

theorem Issues.rpt_traps (hn : 4096 < rptCount (nowRegs c s) n) : exec (.rpt c n) s = .next (trapRun c (rptCause n) s) :=
  h.exec_trap (exec_rpt ..) (if_pos hn)

theorem Issues.rpt_skips (hn : rptCount (nowRegs c s) n = 0) : Falls c (.rpt c n) s (nowRegs c s) ((nowRegs c s).pc + 8) 1 :=
  h.falls (exec_rpt ..) ((if_neg (show ¬4096 < rptCount (nowRegs c s) n by omega)).trans (if_pos hn)) rfl

theorem Issues.rpt_repeats (hlo : 1 ≤ rptCount (nowRegs c s) n) (hhi : rptCount (nowRegs c s) n ≤ 4096) :
    ∃ t, exec (.rpt c n) s = .next t ∧ CoreFrame c s t ∧ (nowRegs c t).rpt = some (rptCount (nowRegs c s) n) ∧
      (nowRegs c t).inRpt = true ∧ (nowRegs c t).cyc = (nowRegs c s).cyc % 2 ^ 32 ∧ (coreOf t c).dmem = (coreOf s c).dmem := by
  have hop : rptOp n (soundEnv c s) = .ok { soundEnv c s with
      regs := { nowRegs c s with rpt := some (rptCount (nowRegs c s) n), inRpt := true } } :=
    (if_neg (show ¬4096 < rptCount (nowRegs c s) n by omega)).trans (if_neg (show rptCount (nowRegs c s) n ≠ 0 by omega))
  refine ⟨_, h.exec_ok (exec_rpt ..) hop, retire_coreFrame _ s rfl rfl, ?_, ?_, ?_, dmem_retire _ s rfl rfl⟩ <;>
    rw [nowRegs_retire _ s rfl rfl]
  · show (loopBack 4 _ _).1.rpt = _
    rw [loopBack_frame]
  · show (loopBack 4 _ _).1.inRpt = _
    rw [loopBack_frame]
  · rfl

end

section
variable {c : Nat} {s : State} (h : Issues c s) (hcur : (coreOf s c).cur = 2)
include h hcur

theorem Issues.blk_jumps {n : Nat} (e : BitVec 16) (hlo : 1 ≤ n) (hhi : n ≤ 65535) (hdepth : (nowRegs c s).depth < 4) :
    Jumps c (.blk c n e) s { nowRegs c s with
      lc := tset 0 (nowRegs c s).lc (nowRegs c s).depth n, ls := tset 0 (nowRegs c s).ls (nowRegs c s).depth (((nowRegs c s).pc + 4) % 65536),
      le := tset 0 (nowRegs c s).le (nowRegs c s).depth e.toNat, depth := (nowRegs c s).depth + 1 } ((nowRegs c s).pc + 4) 1 :=
  h.jumps rfl ((if_neg (not_not.mpr hcur)).trans ((if_neg (by omega)).trans ((if_neg (by omega)).trans (if_neg (Nat.not_le.mpr hdepth))))) rfl

theorem Issues.blk_falls (e : BitVec 16) : Falls c (.blk c 0 e) s (nowRegs c s) (e.toNat + 4) 1 :=
  h.falls rfl ((if_neg (not_not.mpr hcur)).trans rfl) rfl

/-- DMA of a vendor kernel leaves the vendor part of data memory free, and the slots' regions as they were (log 28). -/
theorem Issues.dma_completes : Completes c (.dma c) s (nowRegs c s)
    (tsetList 0 (tclear (coreOf s c).dmem 0 0x30000) 0 (fitBytes 0x30000 (Config.dmaData s.fresh))) 1 :=
  h.completes (f := s.fresh + 1) (hit := 0) rfl (if_neg (not_not.mpr hcur)) rfl rfl

end

theorem length_fitBytes (n : Nat) (p : List Byte) : (fitBytes n p).length = n := by
  simp [fitBytes, zeros]

theorem tget_dmaMemory (m : Tbl Byte) (p : List Byte) {a : Nat} (h : 0x30000 ≤ a) :
    tget 0 (tsetList 0 (tclear m 0 0x30000) 0 (fitBytes 0x30000 p)) a = tget 0 m a := by
  rw [tget_tsetList, length_fitBytes, if_neg (by omega), tget_tclear, if_neg (by omega)]

/-! ### Flags -/

/-- SETF clears the flags that it names. -/
theorem Issues.setf_completes {c : Nat} {s : State} (h : Issues c s) (v : Word) : Completes c (.setf c v) s { nowRegs c s with
    sat := (nowRegs c s).sat && !v.getLsbD 4, ovf := (nowRegs c s).ovf &&& ~~~BitVec.ofNat 8 (v.toNat / 256) } (coreOf s c).dmem 1 := by
  have hbits : v.extractLsb' 8 8 = BitVec.ofNat 8 (v.toNat / 256) := by
    rw [BitVec.extractLsb', Nat.shiftRight_eq_div_pow]
  rw [← hbits]
  exact h.completes rfl rfl rfl rfl

/-- Settles O43: the end of a block repeat, then the instructions of the classes 7 to 9. -/
theorem trestleControlResults : Obligations.TrestleControlResults := by
  refine ⟨fun r next l hdepth hl => ⟨fun hne => ?stays, fun heq hlc => ?loops, fun heq hlc => ?leaves⟩,
    fun c s h => ⟨fun t => ?br, fun cond t => ⟨fun hc => ?taken, fun hc => ?untaken⟩, fun t hroom => h.call_jumps t hroom,
      fun x xs hstack => h.ret_falls hstack, fun n hlo hhi => h.rpt_repeats hlo hhi, h.rpt_skips rfl, fun n hn => h.rpt_traps hn,
      fun d hd => h.rpt_traps hd, fun d hd => h.rpt_skips (congrArg BitVec.toNat hd), ?nop, fun v => h.setf_completes v, ?clrovf,
      fun n e hcur hlo hhi hdepth => h.blk_jumps hcur e hlo hhi hdepth, fun e hcur => h.blk_falls hcur e,
      fun hcur => ⟨_, h.dma_completes hcur, fun a ha => tget_dmaMemory _ _ ha⟩⟩⟩
  case stays => rw [loopBack_open _ hdepth, if_pos hne]
  case loops => rw [loopBack_open _ hdepth, if_neg (not_not.mpr heq), if_pos hlc]
  case leaves =>
    rw [loopBack_open _ hdepth, if_neg (not_not.mpr heq), if_neg (Nat.not_lt.mpr hlc)]
    exact (loopBack_succ 3 (Nat.le_of_lt_succ hl) next).symm
  case br => exact h.jumps rfl rfl rfl
  case taken => exact h.jumps rfl (if_pos hc) rfl
  case untaken => exact h.completes rfl (if_neg (Bool.eq_false_iff.mp hc)) rfl rfl
  case nop | clrovf => exact h.completes rfl rfl rfl rfl

end Sys2Proof.Machine
end

section
/-! SUPPORT. How the runs of a Trestle core end: traps (R244, Table 10-6), END (R252), quanta and budgets (R245, R246, R250); and from
them O44 and O45. -/

namespace Sys2Proof.Machine

/-! ### Events -/

/-- Raising an event touches the events, the pigeonholes and what leaves the device. -/
theorem raise_eq (e : Nat) (d : List Byte) (s : State) : raise e d s = { s with
    ph := (raise e d s).ph, ev := (raise e d s).ev, out := (raise e d s).out } := by
  generalize hlater : raise e d s = later
  apply state_eq <;> dsimp only
  all_goals simp [← hlater]

theorem coreOf_raise (e : Nat) (d : List Byte) (s : State) (c : Nat) : coreOf (raise e d s) c = coreOf s c := by
  rw [raise_eq]
  rfl

/-! ### Traps (R244) -/

/-- A core whose customer run has trapped. -/
def trappedCore (cause : Nat) (k : Core) : Core :=
  { setTslot k.cur { tslotOf k k.cur with
      state := 5, cause := cause, cycles := (regsOf k k.cur).cyc, trapPc := wrapN 32 ((regsOf k k.cur).pc - codeBase k.cur : Int),
      abortHeld := false } (setRegs k.cur { regsOf k k.cur with rpt := none, inRpt := false } k) with cur := 2 }

theorem tslotOf_trappedCore (cause : Nat) (k : Core) : tslotOf (trappedCore cause k) k.cur = { tslotOf k k.cur with
    state := 5, cause := cause, cycles := (regsOf k k.cur).cyc, trapPc := wrapN 32 ((regsOf k k.cur).pc - codeBase k.cur : Int),
    abortHeld := false } := by
  simp only [trappedCore, tslotOf, setTslot, tget_tset_self]

theorem trapRun_customer {c : Nat} {s : State} (h : (coreOf s c).cur ≠ 2) (cause : Nat) :
    ∃ d, trapRun c cause s = raise 96 d (setCore c (trappedCore cause (coreOf s c)) s) := ⟨_, if_neg h⟩

theorem trapRun_vendor {c : Nat} {s : State} (h : (coreOf s c).cur = 2) (cause : Nat) :
    ∃ d, trapRun c cause s = raise 96 d (setCore c (endVendor (some (true, (nowRegs c s).ovf)) (coreOf s c)) s) := by
  refine ⟨det c 0xFF cause 0 (nowRegs c s).pc, ?_⟩
  unfold trapRun
  exact if_pos h

/-- What a run leaves that ends with an event: its core as it is said to be, every other core, and the rest of the device but for the
event. -/
theorem raise_setCore (e : Nat) (d : List Byte) (c : Nat) (k : Core) (s : State) :
    coreOf (raise e d (setCore c k s)) c = k ∧ (∀ j, j ≠ c → coreOf (raise e d (setCore c k s)) j = coreOf s j) ∧
    raise e d (setCore c k s) = { s with
      core := (raise e d (setCore c k s)).core, ev := (raise e d (setCore c k s)).ev, ph := (raise e d (setCore c k s)).ph,
      out := (raise e d (setCore c k s)).out } := by
  refine ⟨by rw [coreOf_raise, coreOf_setCore, if_pos rfl], fun j hj => by rw [coreOf_raise, coreOf_setCore, if_neg hj], ?_⟩
  conv_lhs => rw [raise_eq]
  simp only [raise_frame]
  rfl

/-! ### What stops an instruction before it runs (R26, R233, R242) -/

theorem issue_fetchTrap {c f : Nat} {s : State} (hcan : canIssue s c = true) (hf : fetchTrap (coreOf s c) = some f) (rep : Bool) (op : TOp) :
    issue c rep op s = trapRun c f s := by
  simp only [issue, hcan, hf, Bool.not_true, Bool.false_eq_true, if_false]

theorem issue_struckCode {c : Nat} {s : State} (hcan : canIssue s c = true) (hf : fetchTrap (coreOf s c) = none)
    (hcode : wordError s 6 (fetchWord s c) = some true) (rep : Bool) (op : TOp) :
    issue c rep op s = trapRun c 10 (readWord 6 (fetchWord s c) s) := by
  simp only [issue, hcan, hf, hcode, Bool.not_true, Bool.false_eq_true, if_false, if_true]

/-- A functional read of a word with a double-bit error counts it and raises EV_SRAM_DED. -/
theorem readWord_double {m a : Nat} {s : State} (h : wordError s m a = some true) : (readWord m a s).ev.status.getLsbD 209 = true ∧
    tget 0 (readWord m a s).ls.ded m = tget 0 s.ls.ded m + 1 ∧ (readWord m a s).core = s.core := by
  have hread : readWord m a s = sramError true m 1 a s := by simp only [readWord, h]
  refine ⟨by rw [hread]; exact raise_status _ _ _ (by decide), ?_, by simp⟩
  simp only [hread, sramError, raise_frame, sramCount, if_true, tget_tset_self]

/-- A load of a word, or a store that covers one in part, finds it with a double-bit error. -/
theorem loadAccess_ded {a : TAddr} {e : TEnv} (k : Nat → TRegs → TEnv → TRes) (hcode : (address e.regs a).2.2 = true)
    (htrap : accessTrap e.ctx (address e.regs a).1 4 = none) (hcleaned : e.cleaned = [])
    (hword : ((address e.regs a).1 / 8, true) ∈ e.bad) : loadAccess 4 a k e = .ded ((address e.regs a).1 / 8) := by
  have hmem : ((address e.regs a).1 / 8, true) ∈ badAmong (wordsOf 4 (address e.regs a).1) e := by
    simp [badAmong, wordsOf, hcleaned, hword]
  rw [loadAccess, access_reaches _ hcode htrap]
  cases hfind : (badAmong (wordsOf 4 (address e.regs a).1) e).find? fun b => b.2 with
  | none => exact absurd rfl (List.find?_eq_none.mp hfind _ hmem)
  | some b =>
    have hb : b.1 = (address e.regs a).1 / 8 := by
      have := List.mem_of_find?_eq_some hfind
      simp only [badAmong, wordsOf, List.mem_filter, Bool.and_eq_true, decide_eq_true_eq] at this
      simpa using this.2.1
    rw [← hb]

section
variable {c : Nat} {s : State}

theorem Fetches.exec_unrepeatable (h : Fetches c s) {n : Nat} (hrpt : (nowRegs c s).rpt = some n) {i : Instr} {op : TOp}
    (hexec : exec i s = .next (issue c false op s)) : exec i s = .next (trapRun c 4 s) := by
  have hrpt : (soundEnv c s).regs.rpt = some n := hrpt
  rw [hexec, h.issue_eq]
  simp only [runFetched, h.envOf_eq, hrpt, Bool.not_false, if_true]

/-- END of a run that it may end. -/
theorem Fetches.exec_end (h : Fetches c s) :
    exec (.end_ c) s = if (nowRegs c s).rpt.isSome then .next (trapRun c 4 s) else .next (endRun c s) := by
  show execEnd c s = _
  simp only [execEnd, h.can, h.fetch, h.code, readWord_of_sound h.code, Bool.not_true, Bool.false_eq_true, if_false, reduceCtorEq]
  rfl

end

/-- Settles O45: what a trap leaves, then the causes that a fetch, a struck word, a customer kernel and a repeat meet. -/
theorem trestleTraps : Obligations.TrestleTraps := by
  refine ⟨fun c cause s hcur => ?customer, fun c cause s hcur => ?vendor,
    fun c s hcan => ⟨fun f hf => ?fetch, fun hf hcode => ?code, fun hcur hpc => if_pos ⟨hcur, hpc⟩, fun f m o hf hcode hrpt hin hbad => ?data⟩,
    fun c s h hcur => ⟨fun n e => ?blk, ?dma, fun n x => ⟨?movTo, ?movFrom⟩, fun x hfull => ?call, fun hempty => ?ret⟩,
    fun c s n h hrpt => ?repeated⟩
  case customer =>
    obtain ⟨d, ht⟩ := trapRun_customer hcur cause
    rw [ht]
    obtain ⟨hcore, hothers, hframe⟩ := raise_setCore 96 d c (trappedCore cause (coreOf s c)) s
    refine ⟨?_, by rw [hcore]; rfl, by rw [hcore]; rfl, raise_status _ _ _ (by decide), hothers, hframe⟩
    rw [hcore]
    exact tslotOf_trappedCore ..
  case vendor =>
    obtain ⟨d, ht⟩ := trapRun_vendor hcur cause
    rw [ht]
    obtain ⟨hcore, hothers, -⟩ := raise_setCore 96 d c (endVendor (some (true, (nowRegs c s).ovf)) (coreOf s c)) s
    exact ⟨by rw [hcore]; rfl, by rw [hcore]; exact hcur, by rw [hcore]; rfl, by rw [hcore]; rfl, raise_status _ _ _ (by decide), hothers⟩
  case fetch => exact congrArg Host.Outcome.next (issue_fetchTrap hcan hf _ _)
  case code => exact ⟨_, congrArg Host.Outcome.next (issue_struckCode hcan hf hcode _ _), readWord_double hcode⟩
  case data =>
    have hded (k : Nat → TRegs → TEnv → TRes) : issue c true (loadAccess 4 (.off m o) k) s =
        dedRun c ((pReg (nowRegs c s) m.val + BitVec.ofInt 32 o).toNat / 8) s := by
      rw [issue_once hcan hf hcode hrpt, loadAccess_ded (a := .off m o) (e := envOf s c) k rfl hin rfl hbad]
      rfl
    exact ⟨congrArg Host.Outcome.next (hded _), congrArg Host.Outcome.next (hded _)⟩
  case blk | dma => exact h.exec_trap rfl (if_pos hcur)
  case movTo | movFrom => exact h.exec_trap rfl (if_pos ⟨hcur, by simp [isLoopReg]⟩)
  case call =>
    have hcur : ¬(coreOf s c).cur = vendor := hcur
    have hdepth : (if (coreOf s c).cur = vendor then 8 else 4) ≤ (nowRegs c s).stack.length := by rwa [if_neg hcur]
    exact h.exec_trap rfl (if_pos hdepth)
  case ret =>
    refine h.exec_trap rfl ?_
    simp only [show (soundEnv c s).regs.stack = [] from hempty]
  case repeated =>
    have hend : exec (.end_ c) s = .next (trapRun c 4 s) := by rw [h.exec_end, hrpt]; rfl
    simp only [List.forall_mem_cons]
    exact ⟨h.exec_unrepeatable hrpt rfl, h.exec_unrepeatable hrpt rfl, h.exec_unrepeatable hrpt rfl, hend, h.exec_unrepeatable hrpt rfl,
      h.exec_unrepeatable hrpt rfl, h.exec_unrepeatable hrpt rfl, h.exec_unrepeatable hrpt rfl, h.exec_unrepeatable hrpt rfl,
      h.exec_unrepeatable hrpt rfl, List.forall_mem_nil _⟩

/-! ### END (R252) -/

/-- The slot of a customer run that is done: its figures, and its result copied from the result area. -/
def doneSlot (k : Core) : TSlot :=
  let r := regsOf k k.cur
  { tslotOf k k.cur with
    state := 4, cause := 0, cycles := (r.cyc + 1) % 2 ^ 32, trapPc := 0, poisoned := r.poison, sat := r.sat,
    result := tgetList 0 k.dmem ((dataRange k.cur).1 + 0x7000) (dReg r 0).toNat, abortHeld := false }

/-- The core after it: the rest of the quantum is the vendor's. -/
def doneCore (k : Core) : Core := { setTslot k.cur (doneSlot k) k with cur := 2, qcyc := k.qcyc + 1 }

theorem tslotOf_doneCore (k : Core) : tslotOf (doneCore k) k.cur = doneSlot k := by
  simp only [doneCore, tslotOf, setTslot, tget_tset_self]

theorem endRun_tooLong {c : Nat} {s : State} (hcur : (coreOf s c).cur ≠ 2) (hlen : 4096 < (dReg (nowRegs c s) 0).toNat) :
    endRun c s = trapRun c 12 s := by
  unfold endRun
  exact (if_neg hcur).trans (if_pos hlen)

theorem endRun_vendor {c : Nat} {s : State} (hcur : (coreOf s c).cur = 2) : endRun c s = setCore c { endVendor
    (if (nowRegs c s).poison then some (false, (nowRegs c s).ovf) else none) (coreOf s c) with qcyc := (coreOf s c).qcyc + 1 } s := by
  unfold endRun
  exact if_pos hcur

section
variable {c : Nat} {s : State} (h : Issues c s)
include h

theorem Issues.exec_end : exec (.end_ c) s = .next (endRun c s) := by
  rw [h.toFetches.exec_end, h.single]
  rfl

theorem Issues.endRun_done (hcur : (coreOf s c).cur ≠ 2) (hlen : (dReg (nowRegs c s) 0).toNat ≤ 4096) : ∃ d, endRun c s =
    if (nowRegs c s).poison then raise 98 d (setCore c (doneCore (coreOf s c)) s) else setCore c (doneCore (coreOf s c)) s := by
  have hnone (ws : List Nat) : badAmong ws (envOf s c) = [] := by rw [badAmong, h.data, List.filter_nil]
  have hfits : ¬4096 < (dReg (regsOf (coreOf s c) (coreOf s c).cur) 0).toNat := Nat.not_lt.mpr hlen
  unfold endRun
  dsimp only
  rw [if_neg (show (coreOf s c).cur ≠ vendor from hcur), hnone, if_neg hfits]
  exact ⟨_, rfl⟩

end

/-! ### Quanta (R245, R246) -/

theorem nextQuantum_eq (k : Core) : nextQuantum k = { k with
    quantum := k.quantum + 1, qcyc := 0, cur := (allocate k (k.quantum + 1)).1, turn := (allocate k (k.quantum + 1)).2,
    slot := (nextQuantum k).slot } := by
  unfold nextQuantum
  dsimp only
  split <;> rfl

/-- A slot that takes the quantum is running. -/
theorem tslotOf_nextQuantum {k : Core} {n : Nat} (hn : n ≠ 2) (h : (allocate k (k.quantum + 1)).1 = n) :
    (tslotOf (nextQuantum k) n).state = 3 := by
  unfold nextQuantum
  dsimp only
  rw [if_neg (by rw [h]; exact hn), h, tslotOf_setTslot, if_pos rfl]

theorem allocate_vendorTurn {k : Core} {q : Nat} (h : q % 8 ≠ 7) : allocate k q = (2, k.turn) := if_pos h

section
variable {k : Core} {q : Nat} (h : q % 8 = 7)
include h

theorem allocate_idle (h0 : hasWork k 0 = false) (h1 : hasWork k 1 = false) : allocate k q = (2, k.turn) := by
  simp only [allocate, h, h0, h1, ne_eq, not_true_eq_false, if_false, vendor]

theorem allocate_alone {n : Nat} (hn : n < 2) (hmine : hasWork k n = true) (hother : hasWork k (1 - n) = false) :
    allocate k q = (n, k.turn) := by
  have hn : n = 0 ∨ n = 1 := by omega
  rcases hn with rfl | rfl <;> simp only [Nat.sub_zero, Nat.sub_self] at hother <;>
    simp only [allocate, h, hmine, hother, ne_eq, not_true_eq_false, if_false]

theorem allocate_contested (h0 : hasWork k 0 = true) (h1 : hasWork k 1 = true) : allocate k q = (k.turn % 2, 1 - k.turn % 2) := by
  simp only [allocate, h, h0, h1, ne_eq, not_true_eq_false, if_false]

end

theorem exec_quantumEnd {c : Nat} {s : State} (hc : c < 8) (hready : s.pwr.ready.getLsbD 9 = true) (hrpt : (nowRegs c s).rpt = none)
    (hend : (coreOf s c).cur = 2 ∨ (12000 ≤ (coreOf s c).qcyc ∧
      (nowRegs c s).cyc < (tslotOf (coreOf s c) (coreOf s c).cur).budget)) :
    exec (.quantumEnd c) s = .next (setCore c (nextQuantum (coreOf s c)) s) := by
  have hrpt : (regsOf (coreOf s c) (coreOf s c).cur).rpt.isNone = true := by rw [Option.isNone_iff_eq_none]; exact hrpt
  have hbudget : (decide ((coreOf s c).cur ≠ vendor) && decide ((tslotOf (coreOf s c) (coreOf s c).cur).budget ≤
      (regsOf (coreOf s c) (coreOf s c).cur).cyc)) = false := by
    rcases hend with hcur | ⟨-, hcyc⟩
    · exact Bool.and_eq_false_imp.mpr fun h => absurd hcur (of_decide_eq_true h)
    · exact Bool.and_eq_false_imp.mpr fun _ => decide_eq_false (Nat.not_le.mpr hcyc)
  show execQuantumEnd c s = _
  unfold execQuantumEnd
  dsimp only
  exact if_pos ⟨hc, hready, hrpt, by rw [hbudget]; rfl, hend.imp id And.left⟩

/-- Settles O44: END of a customer and of a vendor run, then the boundaries of quantum and budget. -/
theorem trestleRunsAndQuanta : Obligations.TrestleRunsAndQuanta := by
  refine ⟨fun c s h => ⟨fun hcur hlen => ?done, fun hcur hlen => ?tooLong, fun hcur => ?vendorEnd⟩,
    fun c s hc hready hrpt => ⟨fun hend => ?quantum, fun hcur hrun hcyc => ?budget⟩⟩
  case done =>
    obtain ⟨d, hend⟩ := h.endRun_done hcur hlen
    rw [h.exec_end, hend]
    refine ⟨_, rfl, ?_⟩
    by_cases hpoison : (nowRegs c s).poison = true
    · obtain ⟨hcore, hothers, -⟩ := raise_setCore 98 d c (doneCore (coreOf s c)) s
      rw [if_pos hpoison, hcore, tslotOf_doneCore]
      exact ⟨rfl, rfl, rfl, hothers, fun _ => raise_status 98 _ _ (by decide), fun hno => absurd hno (by rw [hpoison]; decide)⟩
    · rw [if_neg hpoison, coreOf_setCore, if_pos rfl, tslotOf_doneCore]
      exact ⟨rfl, rfl, rfl, fun j hj => by rw [coreOf_setCore, if_neg hj], fun hyes => absurd hyes hpoison, fun _ => rfl⟩
  case tooLong => rw [h.exec_end, endRun_tooLong hcur hlen]
  case vendorEnd =>
    rw [h.exec_end, endRun_vendor hcur]
    refine ⟨_, rfl, ?_⟩
    rw [coreOf_setCore, if_pos rfl]
    refine ⟨hcur, rfl, rfl, ?_, rfl⟩
    cases hpoison : (nowRegs c s).poison <;> rfl
  case quantum =>
    refine ⟨_, exec_quantumEnd hc hready hrpt hend, ?_⟩
    have hcore : coreOf (setCore c (nextQuantum (coreOf s c)) s) c = nextQuantum (coreOf s c) := by rw [coreOf_setCore, if_pos rfl]
    have hcur : (nextQuantum (coreOf s c)).cur = (allocate (coreOf s c) ((coreOf s c).quantum + 1)).1 := by rw [nextQuantum_eq]
    have hturn : (nextQuantum (coreOf s c)).turn = (allocate (coreOf s c) ((coreOf s c).quantum + 1)).2 := by rw [nextQuantum_eq]
    rw [hcore, hcur, hturn]
    refine ⟨by rw [nextQuantum_eq], by rw [nextQuantum_eq], by rw [nextQuantum_eq], by rw [nextQuantum_eq], by rw [nextQuantum_eq], rfl,
      fun j hj => by rw [coreOf_setCore, if_neg hj], fun hq => by rw [allocate_vendorTurn hq], fun hq h0 h1 => by rw [allocate_idle hq h0 h1],
      fun n hn hq hmine hother => ?_, fun hq h0 h1 => by rw [allocate_contested hq h0 h1]; exact ⟨rfl, rfl⟩⟩
    have halloc := congrArg Prod.fst (allocate_alone hq hn hmine hother)
    exact ⟨halloc, tslotOf_nextQuantum (by omega) halloc⟩
  case budget =>
    have hslot : slotRuns (coreOf s c) = true := by simp only [slotRuns, hrun, decide_true, Bool.or_true]
    have hnone : (regsOf (coreOf s c) (coreOf s c).cur).rpt.isNone = true := by rw [Option.isNone_iff_eq_none]; exact hrpt
    exact if_pos ⟨hc, hready, hcur, hslot, hnone, hcyc⟩

end Sys2Proof.Machine
end

section
/-! SUPPORT. The repeated instruction of an RPT (R234, R242): one iteration, all of them by induction on the count, and from them
O46. -/

namespace Sys2Proof.Machine

theorem iterate_succ {start n : Nat} {op : TOp} {e e1 : TEnv} (h : op (atCycle start e) = .ok e1) :
    iterate start op (n + 1) e = iterate start op n e1 := by
  simp only [iterate, h]

section
variable {c n : Nat} {s : State} (h : Fetches c s) (hrpt : (nowRegs c s).rpt = some n)
    (hheld : (tslotOf (coreOf s c) (coreOf s c).cur).abortHeld = false)
include h hrpt hheld

/-- An RPT whose iterations all complete, with no host abort waiting: the instruction retires once, in the cycles of them all. -/
theorem Fetches.repeats {i : Instr} {op : TOp} {r : TRegs} {m : Nat} (hexec : exec i s = .next (issue c true op s))
    (hall : iterate (nowRegs c s).cyc op n (soundEnv c s) = ({ soundEnv c s with regs := r, cycles := m }, none))
    (hpc : r.pc = (nowRegs c s).pc) :
    Completes c i s { r with rpt := none, inRpt := false, cyc := (nowRegs c s).cyc } (coreOf s c).dmem m := by
  have hsome : (soundEnv c s).regs.rpt = some n := hrpt
  have hall : iterate (soundEnv c s).regs.cyc op n (soundEnv c s) = ({ soundEnv c s with regs := r, cycles := m }, none) := hall
  refine completes_of_retire (e := { soundEnv c s with regs := { r with rpt := none, inRpt := false }, cycles := m })
    ?_ rfl rfl rfl rfl rfl
  rw [hexec, h.issue_eq]
  simp only [runFetched, h.envOf_eq, hsome, hall, hheld, Bool.not_true, Bool.false_eq_true, and_false, if_false, hpc]
  rfl

end

/-! ### LD with post-increment -/

/-- LD f, [Pm]+inc as the core runs it. -/
def ldPostOp (f : Fin 16) (m : Fin 8) (inc : Int) : TOp :=
  loadAccess 4 (.post m inc) fun x r e => tick1 (setD f.val (memWord e.mem x) r) e

/-- Registers after one iteration of it. -/
def ldPostRegs (start : Nat) (f : Fin 16) (m : Fin 8) (inc : Int) (e : TEnv) : TRegs :=
  { e.regs with
    d := tset 0 e.regs.d f.val (memWord e.mem (pReg e.regs m.val).toNat),
    p := tset 0 e.regs.p m.val (pReg e.regs m.val + BitVec.ofInt 32 inc), cyc := (start + e.cycles) % 2 ^ 32 }

section
variable {f : Fin 16} {m : Fin 8} {inc : Int} (hinc : -512 ≤ inc ∧ inc ≤ 508 ∧ inc % 4 = 0)
include hinc

theorem ldPostOp_completes {start : Nat} {e : TEnv} (hbad : e.bad = []) (hin : accessTrap e.ctx (pReg e.regs m.val).toNat 4 = none) :
    ldPostOp f m inc (atCycle start e) = .ok { e with regs := ldPostRegs start f m inc e, cycles := e.cycles + 1 } :=
  (loadAccess_reaches (n := 4) (a := .post m inc) (e := atCycle start e) _ (decide_eq_true hinc) hbad hin).trans rfl

/-- The pointer advances on every iteration, and the destination holds what the last one loaded. -/
theorem iterate_ldPostOp (start n : Nat) {e : TEnv} (hbad : e.bad = [])
    (hin : ∀ j < n, accessTrap e.ctx (pReg e.regs m.val + BitVec.ofInt 32 (inc * j)).toNat 4 = none) :
    ∃ r, iterate start (ldPostOp f m inc) n e = ({ e with regs := r, cycles := e.cycles + n }, none) ∧ r.pc = e.regs.pc ∧
      pReg r m.val = pReg e.regs m.val + BitVec.ofInt 32 (inc * n) ∧
      (∀ j, n = j + 1 → dReg r f.val = memWord e.mem (pReg e.regs m.val + BitVec.ofInt 32 (inc * j)).toNat) ∧
      ∀ x, x ≠ f.val → dReg r x = dReg e.regs x := by
  induction n generalizing e with
  | zero => exact ⟨e.regs, rfl, rfl, by simp, fun j hj => by omega, fun _ _ => rfl⟩
  | succ n ih =>
    have hzero (v : Word) : v + BitVec.ofInt 32 (inc * (0 : Nat)) = v := by simp
    have hfirst := hin 0 (Nat.succ_pos n)
    rw [hzero] at hfirst
    have hp : pReg (ldPostRegs start f m inc e) m.val = pReg e.regs m.val + BitVec.ofInt 32 inc := tget_tset_self (α := Word) ..
    have hd : dReg (ldPostRegs start f m inc e) f.val = memWord e.mem (pReg e.regs m.val).toNat := tget_tset_self (α := Word) ..
    have hadvance (v : Word) (j : Nat) : v + BitVec.ofInt 32 inc + BitVec.ofInt 32 (inc * j) = v + BitVec.ofInt 32 (inc * (j + 1 : Nat)) := by
      rw [BitVec.add_assoc, ← BitVec.ofInt_add]
      congr 2
      push_cast
      ring
    obtain ⟨r, hall, hpc, hptr, hlast, hothers⟩ :=
      ih (e := { e with regs := ldPostRegs start f m inc e, cycles := e.cycles + 1 }) hbad fun j hj => by
        rw [hp, hadvance]
        exact hin (j + 1) (by omega)
    rw [hp, hadvance] at hptr
    refine ⟨r, ?_, hpc, hptr, fun j hj => ?_, fun x hx => (hothers x hx).trans (tget_tset_ne 0 _ _ hx)⟩
    · rw [iterate_succ (ldPostOp_completes hinc hbad hfirst), hall, Nat.add_assoc, Nat.add_comm 1 n]
    · obtain rfl : n = j := by omega
      cases n with
      | zero =>
        obtain rfl : r = ldPostRegs start f m inc e := (congrArg (fun x => x.1.regs) hall).symm
        rw [hd, hzero]
      | succ k => rw [hlast k rfl, hp, hadvance]

end

/-! ### MOV of CYC -/

/-- MOV f, CYC as the core runs it. -/
def movCycOp (f : Fin 16) : TOp := fun e =>
  if e.ctx ≠ vendor ∧ (isLoopReg (.d f) || isLoopReg .cyc) then .trap 2
  else match writeReg (readReg e.regs .cyc) e.regs (.d f) with
    | some r => tick1 (trestleZN (readReg e.regs .cyc) r) e
    | none => .trap 8

/-- Registers after one iteration of it, which reads the cycles before it (R234). -/
def movCycRegs (start : Nat) (f : Fin 16) (e : TEnv) : TRegs :=
  trestleZN (BitVec.ofNat 32 ((start + e.cycles) % 2 ^ 32))
    { e.regs with d := tset 0 e.regs.d f.val (BitVec.ofNat 32 ((start + e.cycles) % 2 ^ 32)), cyc := (start + e.cycles) % 2 ^ 32 }

theorem movCycOp_completes (start : Nat) (f : Fin 16) (e : TEnv) :
    movCycOp f (atCycle start e) = .ok { e with regs := movCycRegs start f e, cycles := e.cycles + 1 } :=
  (if_neg (by simp [isLoopReg])).trans rfl

/-- The destination holds the cycles before the last iteration. -/
theorem iterate_movCycOp (start n : Nat) (f : Fin 16) (e : TEnv) :
    ∃ r, iterate start (movCycOp f) (n + 1) e = ({ e with regs := r, cycles := e.cycles + (n + 1) }, none) ∧ r.pc = e.regs.pc ∧
      dReg r f.val = BitVec.ofNat 32 (start + e.cycles + n) ∧ ∀ x, x ≠ f.val → dReg r x = dReg e.regs x := by
  have hothers (e : TEnv) (x : Nat) (hx : x ≠ f.val) : dReg (movCycRegs start f e) x = dReg e.regs x := tget_tset_ne 0 _ _ hx
  induction n generalizing e with
  | zero =>
    refine ⟨movCycRegs start f e, by rw [iterate_succ (movCycOp_completes start f e)]; rfl, rfl, ?_, hothers e⟩
    have hd : dReg (movCycRegs start f e) f.val = BitVec.ofNat 32 ((start + e.cycles) % 2 ^ 32) := tget_tset_self (α := Word) ..
    rw [hd]
    exact BitVec.eq_of_toNat_eq (by simp)
  | succ n ih =>
    obtain ⟨r, hall, hpc, hlast, hkeep⟩ := ih { e with regs := movCycRegs start f e, cycles := e.cycles + 1 }
    refine ⟨r, ?_, hpc, ?_, fun x hx => (hkeep x hx).trans (hothers e x hx)⟩
    · rw [iterate_succ (movCycOp_completes start f e), hall, Nat.add_assoc, Nat.add_comm 1 (n + 1)]
    · rw [hlast]
      congr 1
      dsimp only
      omega

/-- Settles O46: the iterations of each instruction, retired at once. -/
theorem repeatRunsEveryIteration : Obligations.RepeatRunsEveryIteration := by
  refine ⟨fun c n s f m inc h hrpt hheld hlo hhi hmod hin => ?ld, fun c n s f h hrpt hheld => ?mov⟩
  case ld =>
    obtain ⟨r, hall, hpc, hptr, hlast, hothers⟩ := iterate_ldPostOp (f := f) ⟨hlo, hhi, hmod⟩ (nowRegs c s).cyc n (e := soundEnv c s) rfl hin
    rw [show (soundEnv c s).cycles + n = n from Nat.zero_add n] at hall
    exact ⟨_, h.repeats hrpt hheld rfl hall hpc, rfl, rfl, hptr, hlast, hothers⟩
  case mov =>
    obtain ⟨r, hall, hpc, hlast, hothers⟩ := iterate_movCycOp (nowRegs c s).cyc n f (soundEnv c s)
    rw [show (soundEnv c s).cycles + (n + 1) = n + 1 from Nat.zero_add _] at hall
    exact ⟨_, h.repeats hrpt hheld rfl hall hpc, hlast, hothers⟩

end Sys2Proof.Machine
end

section
/-! SUPPORT. The messages of customer kernels (R249, R250, R253), and from them O47. -/

namespace Sys2Proof.Machine

theorem coreOf_consumed (ring : Nat) (h : Hdr) (s : State) (c : Nat) : coreOf (consumed ring h s) c = coreOf s c := by
  simp only [coreOf, consumed_core]

theorem stageNow_consumed (ring : Nat) (h : Hdr) (s : State) : stageNow (consumed ring h s) = stageNow s := by
  simp only [stageNow, consumed_life]

theorem keyInForce_consumed (ring : Nat) (h : Hdr) (s : State) : keyInForce (consumed ring h s) = keyInForce s := by
  simp only [keyInForce, consumed_life]

/-! ### `trestle.kernel_load` (R249) -/

/-- A core with an image in one of its slots. -/
def loadedCore (img : TImage) (n : Nat) (k : Core) : Core :=
  setTslot n { state := 1, image := img } { k with imem := tsetList 0 k.imem (codeBase n) img.code }

theorem coreOf_loadSlot (img : TImage) (n : Nat) (s : State) (c j : Nat) :
    coreOf (loadSlot img n s c) j = if j = c then loadedCore img n (coreOf s j) else coreOf s j := by
  have hcore : coreOf (loadSlot img n s c) j = coreOf (setCore c (loadedCore img n (coreOf s c)) s) j := rfl
  rw [hcore, coreOf_setCore]
  split
  · subst_vars; rfl
  · rfl

/-- A load touches the cores, and the struck words of their local memory that it rewrites. -/
theorem foldl_loadSlot_frame (img : TImage) (n : Nat) (l : List Nat) (s : State) : l.foldl (loadSlot img n) s = { s with
    core := (l.foldl (loadSlot img n) s).core, ls := { s.ls with bad := (l.foldl (loadSlot img n) s).ls.bad } } := by
  induction l generalizing s with
  | nil => rfl
  | cons c l ih =>
    rw [List.foldl_cons]
    conv_lhs => rw [ih]
    rfl

theorem coreOf_foldl_loadSlot (img : TImage) (n : Nat) {l : List Nat} (hl : l.Nodup) (s : State) (j : Nat) :
    coreOf (l.foldl (loadSlot img n) s) j = if j ∈ l then loadedCore img n (coreOf s j) else coreOf s j := by
  induction l generalizing s with
  | nil => rfl
  | cons c l ih =>
    obtain ⟨hc, hl⟩ := List.nodup_cons.mp hl
    rw [List.foldl_cons, ih hl, coreOf_loadSlot]
    by_cases hj : j = c
    · subst hj
      simp [hc]
    · simp [hj]

/-- The cores that a load names. -/
def namedCores (p : List Byte) : List Nat := (List.range 8).filter fun c => (u p 0 1).testBit c

theorem namedCores_nodup (p : List Byte) : (namedCores p).Nodup := List.nodup_range.filter _

theorem mem_namedCores {p : List Byte} {c : Nat} : c ∈ namedCores p ↔ c < 8 ∧ (u p 0 1).testBit c = true := by
  simp [namedCores]

/-- A request that every check of R249 lets pass. -/
structure LoadReady (key p : List Byte) (s : State) : Prop where
  length : p.length = 80 + u p 36 4 + u p 40 4 + 96
  fields : firstBad (loadChecks p) = none
  stage : stageNow s ∈ [.provisioned, .field, .return_]
  keyed : keyInForce s = some key
  ready : s.pwr.ready.getLsbD 9 = true
  idle : ∀ c ∈ namedCores p, hasWork (coreOf s c) (u p 1 1) = false
  firmware : u p 32 4 ≤ s.sys.idFw
  signed : Config.signatureOk key (slice p 16 (64 + u p 36 4 + u p 40 4)) (slice p (80 + u p 36 4 + u p 40 4) 96) = true

theorem LoadReady.kernelLoadBody_loads {key p : List Byte} {s : State} (h : LoadReady key p s) (a : Asker) :
    kernelLoadBody a p s = ok [] ((namedCores p).foldl (loadSlot (imageOfLoad p) (u p 1 1)) s) := by
  have hidle : ¬((namedCores p).any fun c => hasWork (coreOf s c) (u p 1 1)) = true := by
    rw [List.any_eq_true]
    rintro ⟨c, hc, hwork⟩
    simp [h.idle c hc] at hwork
  have hsigned : Config.signatureOk key (slice p 16 (80 + u p 36 4 + u p 40 4 - 16)) (slice p (80 + u p 36 4 + u p 40 4) 96) = true := by
    rw [show 80 + u p 36 4 + u p 40 4 - 16 = 64 + u p 36 4 + u p 40 4 by omega]
    exact h.signed
  have hpass : ¬(stageNow s ∉ [.provisioned, .field, .return_] ∨ (keyInForce s).isNone = true ∨ (!s.pwr.ready.getLsbD 9) = true) := by
    simp only [h.keyed, h.ready, Option.isNone_some, Bool.not_true, Bool.false_eq_true, or_false]
    exact not_not.mpr h.stage
  unfold kernelLoadBody
  dsimp only
  rw [show (List.range 8).filter (fun c => (u p 0 1).testBit c) = namedCores p from rfl]
  rw [if_neg (by have := h.length; omega), withFields_of_none h.fields, if_neg hpass, if_neg hidle, if_neg (Nat.not_lt.mpr h.firmware),
    h.keyed, Option.getD_some, hsigned]
  rfl

/-! ### `trestle.kernel_start` (R250) -/

theorem coreOf_readWords (m : Nat) (as : List Nat) (s : State) (c : Nat) : coreOf (readWords m as s) c = coreOf s c := by
  simp only [coreOf, readWords_frame]

/-- The slot of a run that is queued under the next run number. -/
def queuedSlot (p : List Byte) (q : TSlot) : TSlot :=
  { q with
    state := 2, cause := 0, run := (q.run + 1) % 2 ^ 32, cycles := 0, trapPc := 0, poisoned := false, ovf := 0, sat := false,
    budget := if u p 4 4 = 0xFFFFFFFF then q.image.budget else u p 4 4, abortHeld := false }

/-- The device after a start: the input read, the slot's region written afresh, and the run queued. -/
def startedRun (p : List Byte) (s : State) : State :=
  let c := u p 1 1
  let n := u p 2 1
  let q := tslotOf (coreOf s c) n
  cleanWords 6 (localWord c ((dataRange n).1 / 8)) 4096 (setCore c (setTslot n (queuedSlot p q)
    (prepareRun n q.image (tgetList 0 s.lin.capMem (0x300000 + u p 8 4) (u p 12 4))
      ((List.range 8).map fun j => BitVec.ofNat 32 (u p (16 + 4 * j) 4)) (coreOf s c)))
    (readWords 5 ((List.range ((u p 12 4 + u p 8 4 % 8 + 7) / 8)).map fun w => (0x300000 + u p 8 4) / 8 + w) s))

theorem startedRun_frame (p : List Byte) (s : State) : startedRun p s = { s with
    core := (startedRun p s).core, ls := (startedRun p s).ls, ev := (startedRun p s).ev, ph := (startedRun p s).ph,
    out := (startedRun p s).out } := by
  generalize hlater : startedRun p s = later
  apply state_eq <;> dsimp only
  all_goals simp [← hlater, startedRun, setCore]

theorem coreOf_cleanWords (m lo n : Nat) (s : State) (c : Nat) : coreOf (cleanWords m lo n s) c = coreOf s c := rfl

theorem tslotOf_startedRun (p : List Byte) (s : State) :
    tslotOf (coreOf (startedRun p s) (u p 1 1)) (u p 2 1) = queuedSlot p (tslotOf (coreOf s (u p 1 1)) (u p 2 1)) := by
  rw [startedRun, coreOf_cleanWords, coreOf_setCore, if_pos rfl, tslotOf_setTslot, if_pos rfl]

theorem coreOf_startedRun (p : List Byte) (s : State) {c : Nat} (hc : c ≠ u p 1 1) : coreOf (startedRun p s) c = coreOf s c := by
  rw [startedRun, coreOf_cleanWords, coreOf_setCore, if_neg hc, coreOf_readWords]

/-- A request for a loaded slot that the checks of Table 10-10 let pass. -/
structure StartReady (p : List Byte) (s : State) : Prop where
  length : p.length = 64
  fields : firstBad (startChecks p s) = none
  ready : s.pwr.ready.getLsbD 9 = true
  loaded : (tslotOf (coreOf s (u p 1 1)) (u p 2 1)).state ≠ 0

section
variable {p : List Byte} {s : State} (h : StartReady p s) (a : Asker)
include h

/-- What `trestle.kernel_start` does once its checks have passed. -/
theorem StartReady.kernelStartBody_passes : kernelStartBody a p s =
    if u p 0 1 = 1 then
      if hasWork (coreOf s (u p 1 1)) (u p 2 1) then err stBusy 0 s
      else ok (leBytes 4 (((tslotOf (coreOf s (u p 1 1)) (u p 2 1)).run + 1) % 2 ^ 32) ++ zeros 4) (startedRun p s)
    else if (tslotOf (coreOf s (u p 1 1)) (u p 2 1)).state = 2 then
      ok [] (setCore (u p 1 1) (setTslot (u p 2 1) { tslotOf (coreOf s (u p 1 1)) (u p 2 1) with state := 1 } (coreOf s (u p 1 1))) s)
    else if (tslotOf (coreOf s (u p 1 1)) (u p 2 1)).state = 3 then
      if (coreOf s (u p 1 1)).cur = u p 2 1 ∧ (regsOf (coreOf s (u p 1 1)) (u p 2 1)).rpt.isSome then
        ok [] (setCore (u p 1 1) (setTslot (u p 2 1) { tslotOf (coreOf s (u p 1 1)) (u p 2 1) with abortHeld := true } (coreOf s (u p 1 1))) s)
      else ok [] (abortRun (u p 1 1) (u p 2 1) s)
    else ok [] s := by
  have hpass : ¬((tslotOf (coreOf s (u p 1 1)) (u p 2 1)).state = 0 ∨ (!s.pwr.ready.getLsbD 9) = true) := by
    simp only [h.loaded, h.ready, Bool.not_true, Bool.false_eq_true, or_false, not_false_eq_true]
  unfold kernelStartBody
  rw [withLength_of_mem (show p.length ∈ [64] by simp [h.length]), withFields_of_none h.fields]
  exact if_neg hpass

theorem StartReady.queues (hstart : u p 0 1 = 1) (hidle : hasWork (coreOf s (u p 1 1)) (u p 2 1) = false) : kernelStartBody a p s =
    ok (leBytes 4 (((tslotOf (coreOf s (u p 1 1)) (u p 2 1)).run + 1) % 2 ^ 32) ++ zeros 4) (startedRun p s) := by
  rw [h.kernelStartBody_passes, if_pos hstart, if_neg (by rw [hidle]; decide)]

theorem StartReady.unqueues (habort : u p 0 1 = 2) (hqueued : (tslotOf (coreOf s (u p 1 1)) (u p 2 1)).state = 2) : kernelStartBody a p s =
    ok [] (setCore (u p 1 1) (setTslot (u p 2 1) { tslotOf (coreOf s (u p 1 1)) (u p 2 1) with state := 1 } (coreOf s (u p 1 1))) s) := by
  rw [h.kernelStartBody_passes, if_neg (by omega), if_pos hqueued]

theorem StartReady.aborts (habort : u p 0 1 = 2) (hruns : (tslotOf (coreOf s (u p 1 1)) (u p 2 1)).state = 3)
    (hrpt : (regsOf (coreOf s (u p 1 1)) (u p 2 1)).rpt = none) : kernelStartBody a p s = ok [] (abortRun (u p 1 1) (u p 2 1) s) := by
  rw [h.kernelStartBody_passes, if_neg (by omega), if_neg (by omega), if_pos hruns, if_neg (by rw [hrpt]; simp)]

end

/-- A run that is aborted leaves its slot so, with cause 1. -/
theorem tslotOf_abortRun (c n : Nat) (s : State) : (tslotOf (coreOf (abortRun c n s) c) n).state = 6 ∧
    (tslotOf (coreOf (abortRun c n s) c) n).cause = 1 := by
  simp only [abortRun, coreOf_setCore, if_true, tslotOf, setTslot, tget_tset_self, and_self]

/-- Settles O47: each message passes its checks and runs its body, whose effect the lemmas above give. -/
theorem trestleMessages : Obligations.TrestleMessages := by
  intro ring dma s h p a w
  have hcore (c : Nat) : coreOf w c = coreOf s c := coreOf_consumed ring h s c
  refine ⟨fun key d hlen hfields hstage hkey hready hidle hfw hsig => ?load, fun d hlen hfields hready hloaded => ?start,
    fun d hlen hcoreOk hslotOk hzero => ?status⟩
  case load =>
    have hp : LoadReady key p w := ⟨hlen, hfields, by rwa [stageNow_consumed], by rwa [keyInForce_consumed], by rwa [consumed_pwr],
      fun c hc => by rw [hcore]; exact hidle c (mem_namedCores.mp hc).1 (mem_namedCores.mp hc).2, by rwa [consumed_sys], hsig⟩
    refine ⟨(namedCores p).foldl (loadSlot (imageOfLoad p) (u p 1 1)) w, ?_, foldl_loadSlot_frame .., fun c => ?_⟩
    · show execTrestleKernelLoad ring dma s = _
      rw [execTrestleKernelLoad, runMessage_delivered _ d, hp.kernelLoadBody_loads, settle_ok]
    · rw [coreOf_foldl_loadSlot _ _ (namedCores_nodup p), hcore]
      exact if_congr mem_namedCores rfl rfl
  case start =>
    have hp : StartReady p w := ⟨hlen, hfields, by rwa [consumed_pwr], by rwa [hcore]⟩
    have hexec {payload : List Byte} {t : State} (hbody : kernelStartBody a p w = ok payload t) :
        exec (.trestleKernelStart ring dma) s = .next (answered a payload t) := by
      show execTrestleKernelStart ring dma s = _
      rw [execTrestleKernelStart, runMessage_delivered _ d, hbody, settle_ok]
    intro k q
    refine ⟨fun hop hidle => ?queues, fun hop hqueued => ?unqueues, fun hop hruns hrpt => ?aborts⟩
    case queues =>
      have hbody := hp.queues a hop (by rwa [hcore])
      have hslot := tslotOf_startedRun p w
      rw [hcore] at hbody hslot
      exact ⟨startedRun p w, startedRun_frame p w, hexec hbody, by rw [hslot]; rfl, by rw [hslot]; rfl, by rw [hslot]; rfl,
        fun c hc => (coreOf_startedRun p w hc).trans (hcore c)⟩
    case unqueues =>
      have hbody := hp.unqueues a hop (by rwa [hcore])
      rw [hcore] at hbody
      exact hexec hbody
    case aborts =>
      exact ⟨hexec (hp.aborts a hop (by rwa [hcore]) (by rwa [hcore])), tslotOf_abortRun ..⟩
  case status =>
    have hfields : ∀ c ∈ [inRange p 0 1 0 7, inRange p 1 1 0 1, isZero p 2 2], c.2 = true := by
      simp [inRange, hcoreOk, hslotOk, isZero_of_slice hzero]
    have hreport : trestleReport w (u p 0 1) (u p 1 1) = trestleReport s (u p 0 1) (u p 1 1) := by simp only [trestleReport, hcore]
    show execTrestleStatus ring dma s = _
    rw [execTrestleStatus, runMessage_delivered _ d, trestleStatusBody, withLength_of_mem (show p.length ∈ [4] by simp [hlen]),
      withFields_of_good hfields, settle_ok, hreport]

end Sys2Proof.Machine
end

section
/-! SUPPORT. The frame timer's events (R16, R271), the synthesisers' locks (R267 to R269) and the RFFE programs (R276, R278, R349), and from
them O34. -/

namespace Sys2Proof.Machine

/-! ### Targets of the pattern (R271) -/

/-- Noting an edge of a pin writes its level and rise time alone. -/
theorem notePin_eq (s : State) (n : Nat) : ∃ level rise, notePin s n = { s with rf := { s.rf with level := level, rise := rise } } := by
  unfold notePin
  dsimp only
  split <;> exact ⟨_, _, rfl⟩

theorem setTarget_pin {n : Nat} (hn : n < 32) (l : Bool) (s : State) : ∃ level rise, setTarget n l s =
    { s with rf := { s.rf with gpio := tset false s.rf.gpio n l, level := level, rise := rise } } := by
  obtain ⟨level, rise, h⟩ := notePin_eq { s with rf := { s.rf with gpio := tset false s.rf.gpio n l } } n
  exact ⟨level, rise, (if_pos hn).trans h⟩

theorem setTarget_unnamed {n : Nat} (hn : 33 < n) (l : Bool) (s : State) : setTarget n l s = s := by
  simp [setTarget, show ¬n < 32 by omega, show n ≠ 32 by omega, show n ≠ 33 by omega]

/-- A target takes its level: what it is tells which of the front end's levels changes, and that nothing else does. -/
theorem setTarget_sets (n : Nat) (l : Bool) (s : State) : ∃ rf, setTarget n l s = { s with rf := rf } ∧
    (n < 32 → tget false rf.gpio n = l ∧ (∀ m, m ≠ n → tget false rf.gpio m = tget false s.rf.gpio m) ∧
      rf.txEnable = s.rf.txEnable ∧ rf.rxEnable = s.rf.rxEnable) ∧
    (n = 32 → rf.txEnable = l ∧ rf.gpio = s.rf.gpio ∧ rf.rxEnable = s.rf.rxEnable) ∧
    (n = 33 → rf.rxEnable = l ∧ rf.gpio = s.rf.gpio ∧ rf.txEnable = s.rf.txEnable) := by
  obtain hpin | rfl | rfl | hnone : n < 32 ∨ n = 32 ∨ n = 33 ∨ 33 < n := by omega
  · obtain ⟨level, rise, h⟩ := setTarget_pin hpin l s
    exact ⟨_, h, fun _ => ⟨tget_tset_self .., fun m hm => tget_tset_ne _ _ _ hm, rfl, rfl⟩, by omega, by omega⟩
  · exact ⟨_, rfl, by omega, fun _ => ⟨rfl, rfl, rfl⟩, by omega⟩
  · exact ⟨_, rfl, by omega, by omega, fun _ => ⟨rfl, rfl, rfl⟩⟩
  · exact ⟨_, setTarget_unnamed hnone l s, by omega, by omega, by omega⟩

/-! ### Control words that fail parity (R16) -/

/-- Counting failures writes the bridge's counters alone. -/
theorem foldl_bridgeCount_eq (ul : Bool) (tile : Nat) (l : List Nat) (s : State) : ∃ parity,
    l.foldl (fun t _ => bridgeCount ul tile t) s = { s with rf := { s.rf with parity := parity } } := by
  induction l generalizing s with
  | nil => exact ⟨_, rfl⟩
  | cons _ l ih => exact ih (bridgeCount ul tile s)

theorem controlFails_few (tile : Nat) {n : Nat} (hn : n < 3) (s : State) : ∃ parity,
    controlFails tile n s = { s with rf := { s.rf with parity := parity } } := by
  obtain ⟨parity, h⟩ := foldl_bridgeCount_eq false tile (List.range (Nat.min 3 n)) s
  exact ⟨parity, (if_neg (by omega)).trans h⟩

/-- The third failure raises EV_BRIDGE_PARITY; of the front end only the counters have changed. -/
theorem controlFails_thrice (tile : Nat) {n : Nat} (hn : 3 ≤ n) (s : State) :
    (controlFails tile n s).ev.status.getLsbD 112 = true ∧
    (controlFails tile n s).rf = { s.rf with parity := (controlFails tile n s).rf.parity } := by
  obtain ⟨parity, h⟩ := foldl_bridgeCount_eq false tile (List.range (Nat.min 3 n)) s
  have heq : controlFails tile n s = bridgeEvent false tile 3 { s with rf := { s.rf with parity := parity } } :=
    (if_pos hn).trans (congrArg _ h)
  rw [heq]
  exact ⟨raise_status _ _ _ (by decide), by simp⟩

/-! ### TDD_EVENT -/

section
variable {s : State} {k t target : Nat} {v l : Bool} (hevent : (tddEvents s.cfg.live)[k]? = some (t, target, v))
  (hruns : s.rf.running = true) (hservice : isService s.pwr.mode = true)
include hevent hruns hservice

theorem exec_tddEvent_lost {fails : Nat} (hfails : 3 ≤ fails) : exec (.tddEvent ⟨k, fails⟩) s =
    .next (controlFails (targetTile target) fails (advanceTo (nextOffset t (tickStart s)) s)) := by
  simp [exec, execTddEvent, hevent, hruns, hservice, hfails]

theorem exec_tddEvent_acts (hduplex : isFdd s.cfg.live = false) (hlevel : levelAt (tddEvents s.cfg.live) target t = some l)
    {fails : Nat} (hfails : fails < 3) : exec (.tddEvent ⟨k, fails⟩) s =
      .next (setTarget target l (controlFails (targetTile target) fails (advanceTo (nextOffset t (tickStart s)) s))) := by
  simp [exec, execTddEvent, hevent, hruns, hservice, hduplex, hlevel, show ¬3 ≤ fails by omega]
end

/-! ### Which synthesisers an operation leaves as they are -/

theorem loOf_congr {s t : State} (h : t.rf.lo = s.rf.lo) (k : Nat) : loOf t k = loOf s k := by
  rw [loOf, loOf, h]

@[simp] theorem loOf_statAdd (src r w n : Nat) (s : State) (k : Nat) : loOf (statAdd src r w n s) k = loOf s k := rfl

@[simp] theorem loOf_advanceSince (r n : Nat) (s : State) (k : Nat) : loOf (advanceSince r n s) k = loOf s k := rfl

theorem notePins_lo (s : State) : (notePins s).rf.lo = s.rf.lo := by
  obtain ⟨level, rise, h⟩ := notePins_eq s
  rw [h]

theorem resumeTiles_lo (m : BitVec 4) (s : State) : (resumeTiles m s).rf.lo = s.rf.lo := by
  unfold resumeTiles
  split
  · rfl
  · simp [notePins_lo]

theorem loServiceBack_lo (k r : Nat) (s : State) : (loServiceBack k r s).rf.lo = s.rf.lo := by
  unfold loServiceBack
  split_ifs
  · rfl
  · exact resumeTiles_lo ..
  · simp

theorem loServiceLost_lo (k : Nat) (s : State) : (loServiceLost k s).rf.lo = s.rf.lo := by
  unfold loServiceLost
  split_ifs <;> simp [notePins_lo]

theorem loOf_startLo_ne (retune : Bool) (s : State) {k j : Nat} (h : j ≠ k) : loOf (startLo retune s k) j = loOf s j := by
  unfold startLo
  dsimp only
  split <;> simp [h]

theorem loOf_foldl_startLo (retune : Bool) {l : List Nat} {j : Nat} (hj : j ∉ l) (s : State) :
    loOf (l.foldl (startLo retune) s) j = loOf s j := by
  induction l generalizing s with
  | nil => rfl
  | cons k l ih =>
    obtain ⟨hne, hl⟩ : j ≠ k ∧ j ∉ l := by simpa using hj
    exact (ih hl _).trans (loOf_startLo_ne retune s hne)

/-- Powering the domains of a target starts the synthesisers that are off, and touches no other. -/
theorem loOf_powerFor {j : Nat} (t : Trans) {s : State} (h : (loOf s j).state ≠ 0) : loOf (powerFor t s) j = loOf s j := by
  have hsome (mask : BitVec 20) (t : Trans) (w : State) : loOf (powerSome mask t w) j = loOf w j := loOf_congr (by simp) j
  have hstarts (l : List Nat) : loOf ((l.filter fun k => decide ((loOf (powerSome 0x00C1F t s) k).state = 0)).foldl (startLo false)
      (powerSome 0x00C1F t s)) j = loOf s j :=
    (loOf_foldl_startLo false (by simp [hsome, h]) _).trans (hsome ..)
  unfold powerFor
  dsimp only
  split
  · split
    · exact (hsome ..).trans (hstarts _)
    · exact hstarts _
  · exact hstarts _

theorem loOf_progress {j : Nat} {s : State} (h : (loOf s j).state ≠ 0) : loOf (progress s) j = loOf s j := by
  have hraise (want : BitVec 8) : loOf (raiseNext want s) j = loOf s j := loOf_congr (by simp) j
  unfold progress
  split
  · rfl
  · dsimp only
    split
    · exact (loOf_powerFor _ (by rwa [hraise])).trans (hraise _)
    · exact hraise _

theorem loOf_loEvent (k cause : Nat) (s : State) (j : Nat) : loOf (loEvent k cause s) j = loOf s j := loOf_congr (by simp) j

theorem loEvent_status (k cause : Nat) (s : State) : (loEvent k cause s).ev.status.getLsbD 113 = true :=
  raise_status _ _ _ (by decide)

/-! ### Synthesisers (R267 to R269) -/

/-- A tile whose LO-T is lost in service is silent (R268). -/
theorem loServiceLost_silences {k : Nat} {s : State} (heven : k % 2 = 0) (hservice : isService s.pwr.mode = true) :
    ∃ x ∈ (loServiceLost k s).dl.silence, x.isOpen false (k / 2) = true := by
  have hdl : (loServiceLost k s).dl = (silenceTiles [k / 2] false s).dl := by simp [loServiceLost, heven, hservice]
  rw [hdl]
  exact silenceTiles_open false s (List.mem_singleton_self _)

section
variable {s : State} {k : Nat} (hk : k < 8)
include hk

theorem exec_loQualified (hstate : (loOf s k).state = 1) (htime : loInTime s (loOf s k) = true) : exec (.loQualified k) s =
    .next (progress (loServiceBack k (loSince (loOf s k)) (setLo k { loOf s k with state := 2, late := false, retune := false } s))) := by
  simp [exec, execLoQualified, hk, hstate, htime]

theorem exec_loQualifyTimeout (hstate : (loOf s k).state = 1) (halone : s.pwr.trans = none ∨ (loOf s k).retune = true) :
    exec (.loQualifyTimeout k) s = .next (loEvent k 2 (statAdd 0x1A k 3 1 (setLo k { loOf s k with
      state := 3, late := true, retune := false, expired := false, since := (loOf s k).since + usTicks 150 }
      (advanceSince (loOf s k).since (usTicks 150) s)))) := by
  simp only [exec, execLoQualifyTimeout, hk, hstate, and_self, if_true]
  split
  next htrans hretune => simp [htrans, hretune] at halone
  next => rfl

theorem exec_loQualifyTimeout_started (hstate : (loOf s k).state = 1) (hretune : (loOf s k).retune = false) {tr : Trans}
    (htrans : s.pwr.trans = some tr) : exec (.loQualifyTimeout k) s = .next (refuseTrans 11 (loName k) s) := by
  simp [exec, execLoQualifyTimeout, hk, hstate, hretune, htrans]

theorem exec_loUnlock (hstate : (loOf s k).state = 2) : exec (.loUnlock k) s = .next (loEvent k 1 (loServiceLost k (statAdd 0x1A k 3 1
    (setLo k { loOf s k with state := 3, since := s.tm.raw, late := false, expired := false } s)))) := by
  simp [exec, execLoUnlock, hk, hstate]

theorem exec_loRelockTimeout (hstate : (loOf s k).state = 3) (hexpired : (loOf s k).expired = false) : exec (.loRelockTimeout k) s =
    .next (protect 5 0 (setLo k { loOf s k with expired := true } (advanceSince (loOf s k).since (usTicks 2000) s))) := by
  simp [exec, execLoRelockTimeout, hk, hstate, hexpired]

/-- In time, a synthesiser is qualified; of the others a transition that goes on starts those that are off. -/
theorem loQualified_qualifies (hstate : (loOf s k).state = 1) (htime : loInTime s (loOf s k) = true) : ∃ t,
    exec (.loQualified k) s = .next t ∧ loOf t k = { loOf s k with state := 2, late := false, retune := false } ∧
    (∀ j, j ≠ k → (loOf s j).state ≠ 0 → loOf t j = loOf s j) := by
  let w := loServiceBack k (loSince (loOf s k)) (setLo k { loOf s k with state := 2, late := false, retune := false } s)
  have hlo (j : Nat) : loOf w j = if j = k then { loOf s k with state := 2, late := false, retune := false } else loOf s j :=
    (loOf_congr (loServiceBack_lo ..) j).trans (loOf_setLo ..)
  refine ⟨_, exec_loQualified hk hstate htime, ?_, fun j hj hruns => ?_⟩
  · have hself := (hlo k).trans (if_pos rfl)
    exact (loOf_progress (by rw [hself]; exact two_ne_zero)).trans hself
  · have hother := (hlo j).trans (if_neg hj)
    exact (loOf_progress (by rwa [hother])).trans hother

/-- A retune not qualified in time is raised and unlocked, with power as it was. -/
theorem loQualifyTimeout_unlocks (hstate : (loOf s k).state = 1) (halone : s.pwr.trans = none ∨ (loOf s k).retune = true) : ∃ t,
    exec (.loQualifyTimeout k) s = .next t ∧ loOf t k = { loOf s k with
      state := 3, late := true, retune := false, expired := false, since := (loOf s k).since + usTicks 150 } ∧
    (∀ j, j ≠ k → loOf t j = loOf s j) ∧ t.ev.status.getLsbD 113 = true ∧ t.pwr = s.pwr := by
  have hlo (l : Lo) (j : Nat) : loOf (loEvent k 2 (statAdd 0x1A k 3 1 (setLo k l (advanceSince (loOf s k).since (usTicks 150) s)))) j =
      if j = k then l else loOf s j := by
    simp [loOf_loEvent]
  exact ⟨_, exec_loQualifyTimeout hk hstate halone, (hlo _ k).trans (if_pos rfl), fun j hj => (hlo _ j).trans (if_neg hj),
    loEvent_status .., by simp⟩

/-- A lost lock is raised, its synthesiser unlocked and, of an LO-T in service, the tile silent. -/
theorem loUnlock_unlocks (hstate : (loOf s k).state = 2) : ∃ t, exec (.loUnlock k) s = .next t ∧
    loOf t k = { loOf s k with state := 3, since := s.tm.raw, late := false, expired := false } ∧
    (∀ j, j ≠ k → loOf t j = loOf s j) ∧ t.ev.status.getLsbD 113 = true ∧
    (k % 2 = 0 → isService s.pwr.mode = true → ∃ x ∈ t.dl.silence, x.isOpen false (k / 2) = true) := by
  have hlo (l : Lo) (j : Nat) : loOf (loEvent k 1 (loServiceLost k (statAdd 0x1A k 3 1 (setLo k l s)))) j =
      if j = k then l else loOf s j := by
    rw [loOf_loEvent, loOf_congr (loServiceLost_lo ..), loOf_statAdd, loOf_setLo]
  refine ⟨_, exec_loUnlock hk hstate, (hlo _ k).trans (if_pos rfl), fun j hj => (hlo _ j).trans (if_neg hj), loEvent_status ..,
    fun heven hservice => ?_⟩
  simpa using loServiceLost_silences heven (by simpa using hservice)
end

/-! ### The entry into SAFE-HOLD (R343) -/

/-- A protection fault in an OPERATE mode with nothing in flight starts the entry, with its cause. -/
theorem protect_starts {s : State} (hmode : isOperate s.pwr.mode = true) (htrans : s.pwr.trans = none) (cause reg : Nat) : ∃ tr,
    (protect cause reg s).pwr.trans = some tr ∧ tr.target = .safeHold ∧ (protect cause reg s).pwr.cause = cause := by
  have hreset : ¬(s.pwr.mode = .reset ∨ s.pwr.mode = .thermalLatch) := by rintro (h | h) <;> simp [h, isOperate] at hmode
  have hhold : s.pwr.mode ≠ .safeHold := by rintro h; simp [h, isOperate] at hmode
  have hidle : ¬protecting s = true := by simp [protecting, protectiveEntry, htrans]
  simp [protect, hreset, hidle, hhold, protectEntry]

/-! ### RFFE programs (R276, R278) -/

/-- A lease given up with nobody waiting, and with the Rocker off, is free at once (R391, R396). -/
theorem releaseLease_frees {e : Nat} {s : State} (hwait : (leaseOf s e).wait = []) (hfree : (leaseOf s e).free = none)
    (hrocker : tget 0 s.rk.reg 0 = 0) : (leaseOf (releaseLease e s) e).holder = 0 := by
  simp [releaseLease, leaseNow_of_not_freed hfree, hfree, stretched, hrocker, passOn, hwait]

theorem rffeOver_leaves (bus : Nat) (s : State) : bus ∉ (rffeOver bus s).rf.rffe := by
  simp [rffeOver]

theorem rffeOver_frees {bus : Nat} {s : State} (hwait : (leaseOf s (12 + bus)).wait = []) (hfree : (leaseOf s (12 + bus)).free = none)
    (hrocker : tget 0 s.rk.reg 0 = 0) : (leaseOf (rffeOver bus s) (12 + bus)).holder = 0 :=
  releaseLease_frees hwait hfree hrocker

section
variable {s : State} {im : Image} {b : Boundary} {bus : Nat} (harmed : s.cfg.armed = some (im, b)) (hbus : bus ∈ s.rf.rffe) (run : RffeRun)
include harmed hbus

theorem exec_rffeProgram_issues (hready : s.pwr.ready.getLsbD (12 + bus) = true) (htime : nowU s ≤ boundaryU b - 100 * (usU : Int))
    (hreads : run.reads.length =
      (((rffeEntries im bus).filter fun e => !controlLost run.lost e.index).filter fun e => e.verify).length) :
    exec (.rffeProgram bus run) s = .next (rffeRun bus ((rffeEntries im bus).filter fun e => !controlLost run.lost e.index) run.reads
      (controlWords bus run.lost (rffeOver bus s))) := by
  simp only [exec, execRffeProgram, harmed, hbus, if_true, hready, Bool.not_true, Bool.false_eq_true, if_false, if_neg (not_lt.mpr htime),
    if_pos hreads]

theorem exec_rffeProgram_late (hready : s.pwr.ready.getLsbD (12 + bus) = true) (htime : boundaryU b - 100 * (usU : Int) < nowU s) :
    exec (.rffeProgram bus run) s = .next (rffeSkipAll bus 3 (rffeEntries im bus) (rffeOver bus s)) := by
  simp only [exec, execRffeProgram, harmed, hbus, if_true, hready, Bool.not_true, Bool.false_eq_true, if_false, if_pos htime]

theorem exec_rffeProgram_off (hready : s.pwr.ready.getLsbD (12 + bus) = false) :
    exec (.rffeProgram bus run) s = .next (rffeSkipAll bus 5 (rffeEntries im bus) (rffeOver bus s)) := by
  simp only [exec, execRffeProgram, harmed, hbus, if_true, hready, Bool.not_false]
end

/-- A write leaves on the pads of its bus unless they are held (R349). -/
theorem rffeIssue_out (bus : Nat) (e : RffeEntry) (s : State) : (rffeIssue bus e none s).out =
    if s.em.held.getLsbD (4 + bus) then s.out else s.out ++ [.rffe bus e.usid e.command e.address e.data] := by
  simp only [rffeIssue, statAdd_frame, rffeOut]
  split <;> rfl

/-- An entry without read-back takes none of the reads (R276). -/
theorem rffeRun_plain {e : RffeEntry} (h : e.verify = false) (bus : Nat) (es : List RffeEntry) (reads : List RffeRead) (s : State) :
    rffeRun bus (e :: es) reads s = rffeRun bus es reads (rffeIssue bus e none s) := by
  simp [rffeRun, h]

/-- Entries without read-back leave in their order. -/
theorem rffeRun_out {bus : Nat} {es : List RffeEntry} (hplain : ∀ e ∈ es, e.verify = false) (reads : List RffeRead) (s : State) :
    (rffeRun bus es reads s).out = if s.em.held.getLsbD (4 + bus) then s.out
      else s.out ++ es.map fun e => Out.rffe bus e.usid e.command e.address e.data := by
  induction es generalizing s with
  | nil => simp [rffeRun]
  | cons e es ih =>
    obtain ⟨he, hes⟩ := List.forall_mem_cons.mp hplain
    rw [rffeRun_plain he, ih hes, rffeIssue_out, (rffeIssue_frame ..).2.1]
    split <;> simp

/-- With no control word lost, every entry is issued, and the writes leave after what has left before. -/
theorem rffeProgram_out {im : Image} {bus : Nat} {run : RffeRun} (hlost : run.lost = []) (hplain : ∀ e ∈ rffeEntries im bus, e.verify = false)
    (s : State) : (rffeRun bus ((rffeEntries im bus).filter fun e => !controlLost run.lost e.index) run.reads
      (controlWords bus run.lost (rffeOver bus s))).out = if s.em.held.getLsbD (4 + bus) then s.out
        else s.out ++ (rffeEntries im bus).map fun e => Out.rffe bus e.usid e.command e.address e.data := by
  have hall : ((rffeEntries im bus).filter fun e => !controlLost [] e.index) = rffeEntries im bus :=
    List.filter_eq_self.mpr fun _ _ => rfl
  rw [hlost, hall, rffeRun_out hplain]
  simp [controlWords]

/-- Settles O34: the frame timer's events, the synthesisers' rows and the programs of a bus in turn. -/
theorem frontEndRows : Obligations.FrontEndRows := by
  unfold Obligations.FrontEndRows
  refine ⟨fun s k t target v l hevent hruns hservice hduplex hlevel => ⟨fun fails hfails => ?acts, fun fails hfails => ?lost⟩,
    fun s k hk => ⟨loQualified_qualifies hk, loQualifyTimeout_unlocks hk,
      fun hstate hretune ⟨tr, htrans⟩ => exec_loQualifyTimeout_started hk hstate hretune htrans, loUnlock_unlocks hk,
      fun hstate hexpired hmode htrans => ?relock⟩,
    fun s im b bus run harmed hbus => ⟨⟨rffeOver_leaves bus s, rffeOver_frees⟩,
      fun hready htime hreads => ⟨exec_rffeProgram_issues harmed hbus run hready htime hreads,
        fun hlost hplain => rffeProgram_out hlost hplain s⟩,
      exec_rffeProgram_late harmed hbus run, exec_rffeProgram_off harmed hbus run⟩⟩
  case acts =>
    have hexec := exec_tddEvent_acts hevent hruns hservice hduplex hlevel hfails
    obtain ⟨parity, hparity⟩ := controlFails_few (targetTile target) hfails (advanceTo (nextOffset t (tickStart s)) s)
    rw [hparity, advanceTo_eq] at hexec
    obtain ⟨rf, hset, hlevels⟩ := setTarget_sets target l { s with
      tm := (advanceTo (nextOffset t (tickStart s)) s).tm, rf := { s.rf with parity := parity } }
    exact ⟨_, hexec.trans (congrArg _ hset), rfl, hlevels⟩
  case lost =>
    obtain ⟨hstatus, hrf⟩ := controlFails_thrice (targetTile target) hfails (advanceTo (nextOffset t (tickStart s)) s)
    exact ⟨_, exec_tddEvent_lost hevent hruns hservice hfails, hstatus, by simpa using hrf, by simp⟩
  case relock =>
    obtain ⟨tr, hentry⟩ := protect_starts (s := setLo k { loOf s k with expired := true } (advanceSince (loOf s k).since (usTicks 2000) s))
      (by simp [hmode, isOperate]) (by simpa using htrans) 5 0
    exact ⟨_, tr, exec_loRelockTimeout hk hstate hexpired, hentry⟩

end Sys2Proof.Machine
end

section
/-! SUPPORT. The stage cells (R402) under the operations that write the lifecycle part: a restart, a boot and a reset leave them, and
programming only adds to them. -/

namespace Sys2Proof.Machine

/-- Every cell programmed in `c` is programmed in `d`. -/
def CellsGrow (c d : BitVec 10) : Prop := c &&& d = c

@[simp] theorem cellsGrow_refl (c : BitVec 10) : CellsGrow c c := BitVec.and_self

theorem cellsGrow_iff (c d : BitVec 10) : CellsGrow c d ↔ ∀ k, c.getLsbD k = true → d.getLsbD k = true := by
  refine ⟨fun h k hk => ?_, fun h => BitVec.eq_of_getLsbD_eq fun k _ => ?_⟩
  · have hbit := congrArg (·.getLsbD k) h
    simpa [hk] using hbit
  · have := h k
    rw [BitVec.getLsbD_and]
    cases hc : c.getLsbD k <;> simp_all

theorem CellsGrow.trans {c d e : BitVec 10} (h : CellsGrow c d) (k : CellsGrow d e) : CellsGrow c e :=
  (cellsGrow_iff ..).mpr fun n hn => (cellsGrow_iff ..).mp k n ((cellsGrow_iff ..).mp h n hn)

/-- A further cell programmed. -/
theorem cellsGrow_or (c d : BitVec 10) : CellsGrow c (c ||| d) :=
  (cellsGrow_iff ..).mpr fun k hk => by simp [hk]

/-! ### Restart and boot -/

@[simp] theorem ite_life_cells (c : Prop) [Decidable c] (a b : Life) : (if c then a else b).cells = if c then a.cells else b.cells := by
  split <;> rfl

@[simp] theorem cutRaise_cells (s : State) : (cutRaise s).life.cells = s.life.cells := by
  unfold cutRaise
  split
  · rfl
  · dsimp only
    split <;> simp

@[simp] theorem dropWork_cells (s : State) : (dropWork s).life.cells = s.life.cells := by
  simp [dropWork]

@[simp] theorem restartFirmware_cells (s : State) : (restartFirmware s).life.cells = s.life.cells := by
  simp [restartFirmware]

@[simp] theorem zeroRecords_cells (s : State) : (zeroRecords s).life.cells = s.life.cells := by
  simp [zeroRecords]

@[simp] theorem bootNotices_cells (s : State) : (bootNotices s).life.cells = s.life.cells := by
  unfold bootNotices
  extract_lets s1 _ s2 s3 s4 _ s5 l5 s6 l6
  have h4 : s4.life.cells = s.life.cells := by simp [s4, s3, s2, s1, notice]
  have h5 : s5.life.cells = s4.life.cells := by
    unfold s5
    split <;> simp
  have h6 : s6.life.cells = s5.life.cells := by
    unfold s6
    split <;> simp [l5]
  rw [← h4, ← h5, ← h6]
  split
  · dsimp only
    split <;> simp [l6]
  · rfl

@[simp] theorem endBoot_cells (s : State) : (endBoot s).life.cells = s.life.cells := by
  simp [endBoot]

/-! ### Resets -/

@[simp] theorem afterReset_cells (cause : Nat) (s : State) : (afterReset cause s).life.cells = s.life.cells := rfl

@[simp] theorem deviceReset_cells (cause : Nat) (s : State) : (deviceReset cause s).life.cells = s.life.cells := by
  simp [deviceReset]

@[simp] theorem resetNow_cells (cause : Nat) (s : State) : (resetNow cause s).life.cells = s.life.cells := by
  simp [resetNow]

@[simp] theorem powerOff_cells (latch : Bool) (s : State) : (powerOff latch s).life.cells = s.life.cells := by
  simp [powerOff]

@[simp] theorem resetScope_cells (scope : Nat) (s : State) : (resetScope scope s).life.cells = s.life.cells := by
  unfold resetScope
  split <;> simp

/-! ### Programming (R402, R404) -/

theorem programCell_grows (s : State) (k : Nat) : CellsGrow s.life.cells (programCell s k).life.cells := by
  unfold programCell
  split
  · exact cellsGrow_or ..
  · split <;> simp

theorem programFold_grows (ks : List Nat) (s : State) : CellsGrow s.life.cells (ks.foldl programCell s).life.cells := by
  induction ks generalizing s with
  | nil => simp
  | cons k ks ih => exact (programCell_grows s k).trans (ih _)

@[simp] theorem programKey_cells (n : Nat) (b : List Byte) (s : State) : (programKey n b s).life.cells = s.life.cells := by
  unfold programKey
  split <;> rfl

theorem programCells_grows (cmd : Nat) (g : Stage) (b : List Byte) (cut : Option Nat) (s : State) :
    CellsGrow s.life.cells (programCells cmd g b cut s).life.cells := by
  unfold programCells
  dsimp only
  split
  · simpa using programFold_grows _ (programKey (cut.getD 800) b s)
  · exact programFold_grows ..

theorem lifecycle_grows (row : Nat) (blk : LcBlock) (s : State) : CellsGrow s.life.cells (lifecycle row blk s).life.cells := by
  have hprogram (cmd : Nat) (g : Stage) {w : State} (hw : w.life.cells = s.life.cells) :
      CellsGrow s.life.cells (programCells cmd g blk.bytes blk.cut w).life.cells := hw ▸ programCells_grows ..
  unfold lifecycle takeFree
  dsimp only
  split
  · simp
  · split
    · simp
    · split
      · simp
      · split
        · simpa using hprogram _ _ (by split <;> rfl)
        · simpa using hprogram _ _ (by split <;> rfl)

/-! ### The stage -/

/-- A stage bit reads as set when both of its cells are programmed (R402). -/
theorem stageRead_getLsbD (c : BitVec 10) {k : Nat} (hk : k < 5) :
    (stageRead c).getLsbD k = (c.getLsbD (2 * k) && c.getLsbD (2 * k + 1)) := by
  have hfold : ∀ (l : List Nat) (a : BitVec 5),
      (l.foldl (fun a k => if c.getLsbD (2 * k) && c.getLsbD (2 * k + 1) then a ||| BitVec.twoPow 5 k else a) a).getLsbD k =
        (a.getLsbD k || (decide (k ∈ l) && c.getLsbD (2 * k) && c.getLsbD (2 * k + 1))) := by
    intro l
    induction l with
    | nil => simp
    | cons j l ih =>
      intro a
      rw [List.foldl_cons, ih]
      by_cases hj : k = j
      · subst hj
        by_cases hset : (c.getLsbD (2 * k) && c.getLsbD (2 * k + 1)) = true
        · obtain ⟨heven, hodd⟩ := Bool.and_eq_true_iff.mp hset
          simp [hk, heven, hodd]
        · rw [if_neg hset]
          simp [Bool.and_assoc, Bool.eq_false_iff.mpr hset]
      · split <;> simp [hj, Ne.symm hj]
  rw [stageRead, hfold]
  simp [hk]

/-- The stage of cells that have been added to has not gone back (R402). -/
theorem stageCode_le_of_grow {c d : BitVec 10} (h : CellsGrow c d) : stageCode (stageOf (stageRead c)) ≤ stageCode (stageOf (stageRead d)) := by
  have hgrow := (cellsGrow_iff ..).mp h
  have hmono : ∀ a b : BitVec 5, (∀ k < 5, a.getLsbD k = true → b.getLsbD k = true) → stageCode (stageOf a) ≤ stageCode (stageOf b) := by
    decide
  refine hmono _ _ fun k hk hset => ?_
  rw [stageRead_getLsbD c hk, Bool.and_eq_true] at hset
  rw [stageRead_getLsbD d hk, hgrow _ hset.1, hgrow _ hset.2, Bool.and_self]

end Sys2Proof.Machine
end

section
/-! SUPPORT. The stage cells under replies and accesses (R44, R336): all that is done with a message leaves them. -/

namespace Sys2Proof.Machine

/-! ### Operations that look into the state -/

section
variable {s t : State}

theorem accessDomain_life {d : Nat} (h : accessDomain d s = some t) : t.life = s.life := by
  unfold accessDomain at h
  dsimp only at h
  split_ifs at h <;> (injection h with h; subst h; simp)

theorem reachAll_life {ds : List Nat} (h : reachAll s ds = .inl t) : t.life = s.life := by
  induction ds generalizing s with
  | nil => simp_all [reachAll]
  | cons d ds ih =>
    unfold reachAll at h
    split at h
    next w hw => exact (ih h).trans (accessDomain_life hw)
    next => simp at h

theorem searchOn_life {osc : Nat} (h : searchOn osc s = some t) : t.life = s.life := by
  unfold searchOn at h
  split_ifs at h <;> (injection h with h; subst h; simp)

theorem takeSlot_life {c n : Nat} (h : takeSlot c s = some (n, t)) : t.life = s.life := by
  unfold takeSlot at h
  dsimp only at h
  split at h
  · simp_all
  · split at h <;> simp at h
    simp [← h.2]

theorem persistEnd_life {id st : Nat} {e : LongEnd} (h : persistEnd id e s = some (st, t)) : t.life = s.life := by
  unfold persistEnd at h
  dsimp only at h
  split at h
  · simp at h
    simp [← h.2]
  · split at h
    · simp at h
    · split at h <;> (simp at h; simp [← h.2])

theorem tryDomain_cells {d : Nat} {k fail : State → State} (hk : ∀ t, (k t).life.cells = t.life.cells)
    (hf : (fail s).life.cells = s.life.cells) : (tryDomain d s k fail).life.cells = s.life.cells := by
  unfold tryDomain
  split
  next t ht => rw [hk, accessDomain_life ht]
  next => split <;> simp [hf]
end

/-! ### W0 and SPI -/

@[simp] theorem w0Effect_cells (o v : Nat) (s : State) : (w0Effect o v s).life.cells = s.life.cells := by
  unfold w0Effect
  dsimp only
  split <;> simp

@[simp] theorem w0Write_cells (o width v : Nat) (s : State) : (w0Write o width v s).life.cells = s.life.cells := by
  simp [w0Write]

@[simp] theorem hostWrite_cells (o width v : Nat) (s : State) : (hostWrite o width v s).life.cells = s.life.cells := by
  unfold hostWrite
  split
  · rfl
  · simp [tryDomain_cells]

@[simp] theorem hostRead_cells (o width : Nat) (s : State) : (hostRead o width s).life.cells = s.life.cells := by
  unfold hostRead
  split
  · rfl
  · simp [tryDomain_cells]

@[simp] theorem spiDomain_cells {d info : Nat} {s : State} {k : State → State} (hk : ∀ t, (k t).life.cells = t.life.cells) :
    (spiDomain d info s k).life.cells = s.life.cells := tryDomain_cells hk (by simp)

@[simp] theorem spiFrame_cells {cmd : Nat} {f : List Byte} {good : SpiReq → Bool} {body : SpiReq → State → State} {s : State}
    (hbody : ∀ r, (body r s).life.cells = s.life.cells) : (spiFrame cmd f good body s).life.cells = s.life.cells := by
  unfold spiFrame
  split
  · rfl
  · split <;> simp [hbody]

@[simp] theorem spiRead_cells (f : List Byte) (s : State) : (spiRead f s).life.cells = s.life.cells := by
  unfold spiRead
  dsimp only
  split
  · split
    · rfl
    · split <;> simp
  · simp

/-! ### Replies -/

/-- A reply leaves the stage cells of `s` in its state, and so does what the device does after answering. -/
def Reply.KeepsCells (s : State) (r : Reply) : Prop := r.st.life.cells = s.life.cells ∧ ∀ t, (r.post t).life.cells = t.life.cells

section
variable {s t : State}

@[simp] theorem keepsCells_mk (code detail : Nat) (p : List Byte) (long : Option LongKind) (defer stall : Bool) (f : State → State) :
    Reply.KeepsCells s ⟨t, code, detail, p, long, defer, stall, f⟩ ↔
      t.life.cells = s.life.cells ∧ ∀ t, (f t).life.cells = t.life.cells := Iff.rfl
@[simp] theorem keepsCells_ok (p : List Byte) : (ok p t).KeepsCells s ↔ t.life.cells = s.life.cells := by simp [ok]
@[simp] theorem keepsCells_err (code detail : Nat) : (err code detail t).KeepsCells s ↔ t.life.cells = s.life.cells := by simp [err]
@[simp] theorem keepsCells_accepted (k : LongKind) : (accepted k t).KeepsCells s ↔ t.life.cells = s.life.cells := by simp [accepted]
@[simp] theorem keepsCells_deferred : (deferred t).KeepsCells s ↔ t.life.cells = s.life.cells := by simp [deferred]
@[simp] theorem keepsCells_stalled : (stalled t).KeepsCells s ↔ t.life.cells = s.life.cells := by simp [stalled]
@[simp] theorem pwrDone_keepsCells (d : Nat) : (pwrDone d t).KeepsCells s ↔ t.life.cells = s.life.cells := by simp [pwrDone]

@[simp] theorem keepsCells_ite (c : Prop) [Decidable c] (a b : Reply) :
    (if c then a else b).KeepsCells s ↔ (c → a.KeepsCells s) ∧ (¬c → b.KeepsCells s) := by
  split <;> simp [*]

@[simp] theorem keepsCells_withLength (ls : List Nat) (p : List Byte) (k : Reply) :
    (withLength ls p s k).KeepsCells s ↔ (p.length ∈ ls → k.KeepsCells s) := by
  simp [withLength]

@[simp] theorem keepsCells_withFields (cs : List (Nat × Bool)) (k : Reply) :
    (withFields cs s k).KeepsCells s ↔ (firstBad cs = none → k.KeepsCells s) := by
  unfold withFields
  split <;> simp [*]

@[simp] theorem onDomain_keepsCells {d : Nat} {a : Asker} {k : State → Reply} (hk : ∀ t, (k t).KeepsCells t) :
    (onDomain d a s k).KeepsCells s := by
  unfold onDomain
  split
  next t ht => exact ⟨(hk t).1.trans (congrArg Life.cells (accessDomain_life ht)), (hk t).2⟩
  next => split <;> simp
end

theorem settle_cells (a : Asker) {before back : State} {r : Reply} (hr : r.KeepsCells before) (hback : back.life = before.life) :
    (settle a before back r).life.cells = before.life.cells := by
  obtain ⟨hst, hpost⟩ := hr
  unfold settle
  split
  · simp [hback]
  · split
    · simp [hst]
    · split
      · simp [hst, hpost]
      · split <;> simp [hst]

theorem execute_cells (a : Asker) (p : List Byte) (bad : Option Nat) {body : Asker → List Byte → State → Reply} {back s : State}
    (hbody : ∀ a p t, (body a p t).KeepsCells t) (hback : back.life = s.life) :
    (execute a p bad body back s).life.cells = s.life.cells := by
  unfold execute
  refine settle_cells _ ?_ hback
  cases bad with
  | none => simp [hbody]
  | some d => simp

theorem takeMsg_cells (n : Nat) (h : Hdr) (p : List Byte) (bad : Option Nat) {body : Asker → List Byte → State → Reply} (s : State)
    (hbody : ∀ a p t, (body a p t).KeepsCells t) : (takeMsg n h p bad body s).life.cells = s.life.cells := by
  unfold takeMsg
  dsimp only
  split
  · simp
  · split
    · simp
    · rw [execute_cells _ _ _ hbody] <;> simp

theorem runMessage_cells (op n : Nat) (dma : List Byte) {body : Asker → List Byte → State → Reply} (s : State)
    (hbody : ∀ a p t, (body a p t).KeepsCells t) : (runMessage op n dma body s).life.cells = s.life.cells := by
  unfold runMessage
  split
  · split
    · split
      · rw [takeMsg_cells _ _ _ _ _ hbody]; simp
      · rfl
    · rfl
  · rfl

/-! ### Message bodies that branch on the state -/

section
variable (a : Asker) (p : List Byte) (s : State)

theorem pwrTarget_keepsCells (r : PwrReq) : (pwrTarget r s).KeepsCells s := by
  unfold pwrTarget
  (repeat' split) <;> simp [pwrRefused]

theorem pwrRequestBody_keepsCells : (pwrRequestBody a p s).KeepsCells s := by
  have h := pwrTarget_keepsCells (pwrActions (u p 1 1) s) (pwrParse p)
  simp only [pwrRequestBody, keepsCells_withLength, keepsCells_withFields, keepsCells_ite]
  exact fun _ _ => ⟨fun _ => by simp, fun _ => by simpa [Reply.KeepsCells] using h⟩

theorem thermalReadBody_keepsCells (readings : List (Nat × Reading)) : (thermalReadBody readings a p s).KeepsCells s := by
  simp only [thermalReadBody, keepsCells_withLength, keepsCells_ok]
  intro
  rw [foldl_life]
  · simp
  · intros
    split <;> simp

theorem biasReleaseBody_keepsCells (hvP hvN : Nat) : (biasReleaseBody hvP hvN a p s).KeepsCells s := by
  simp only [biasReleaseBody, keepsCells_withLength, keepsCells_withFields, keepsCells_ite, keepsCells_err, implies_true, true_and]
  refine fun _ _ _ => onDomain_keepsCells fun t => ?_
  split <;> simp

theorem nvmReadBody_keepsCells : (nvmReadBody a p s).KeepsCells s := by
  simp only [nvmReadBody, keepsCells_withLength, keepsCells_withFields]
  refine fun _ _ => onDomain_keepsCells fun t => ?_
  (repeat' split) <;> simp

@[simp] theorem digestWords_life : (digestWords s).2.life = s.life := by
  simp [digestWords, apply_ite]

theorem cfgStageBody_keepsCells : (cfgStageBody a p s).KeepsCells s := by
  simp only [cfgStageBody, keepsCells_withFields, keepsCells_ite]
  (repeat' split) <;> simp [stageReply]

theorem cfgCommitBody_keepsCells : (cfgCommitBody a p s).KeepsCells s := by
  simp only [cfgCommitBody, keepsCells_withFields, keepsCells_withLength, keepsCells_ite]
  intros
  (repeat' split) <;> simp [commitRejected]

theorem cfgDiscardBody_keepsCells : (cfgDiscardBody a p s).KeepsCells s := by
  simp only [cfgDiscardBody, keepsCells_withFields, keepsCells_withLength]
  intros
  (repeat' split) <;> simp

theorem cfgReadBody_keepsCells : (cfgReadBody a p s).KeepsCells s := by
  simp only [cfgReadBody, keepsCells_withFields, keepsCells_withLength]
  intros
  (repeat' split) <;> simp

theorem stageSection_keepsCells (sec : Nat) : (stageSection sec p s).KeepsCells s := by
  simp only [stageSection, keepsCells_withLength]
  intros
  (repeat' split) <;> simp [stageReply]

theorem catalogueWriteBody_keepsCells : (catalogueWriteBody a p s).KeepsCells s := by
  simp only [catalogueWriteBody, keepsCells_withFields, keepsCells_ite]
  (repeat' split) <;> simp

theorem bankWriteBody_keepsCells : (bankWriteBody a p s).KeepsCells s := by
  simp only [bankWriteBody, keepsCells_withFields, keepsCells_ite]
  (repeat' split) <;> simp

theorem adaptControlBody_keepsCells : (adaptControlBody a p s).KeepsCells s := by
  simp only [adaptControlBody, keepsCells_withFields, keepsCells_withLength, keepsCells_ite]
  intros
  (repeat' split) <;> simp

theorem capturePlanBody_keepsCells : (capturePlanBody a p s).KeepsCells s := by
  simp only [capturePlanBody, keepsCells_withFields, keepsCells_ite]
  (repeat' split) <;> simp

theorem calRunBody_keepsCells : (calRunBody a p s).KeepsCells s := by
  simp only [calRunBody, keepsCells_withFields, keepsCells_withLength, keepsCells_ite]
  intros
  (repeat' split) <;> simp [pwrRefused]

theorem testRunBody_keepsCells : (testRunBody a p s).KeepsCells s := by
  simp only [testRunBody, keepsCells_withFields, keepsCells_ite]
  (repeat' split) <;> simp [accepted, pwrRefused]

theorem clkMeasureBody_keepsCells : (clkMeasureBody a p s).KeepsCells s := by
  simp only [clkMeasureBody, takeFree, keepsCells_withFields, keepsCells_withLength]
  intros
  (repeat' split) <;> simp
end

end Sys2Proof.Machine
end

section
/-! SUPPORT. Every row adds to the stage cells at most: the rows that look into the state first, then all rows, and from them O4 (R402, R403). -/

namespace Sys2Proof.Machine

/-- An outcome is a next state in which every stage cell programmed in `s` is programmed. -/
def CellsFrom (s : State) (o : Host.Outcome State Fault Refusal) : Prop := ∃ t, o = .next t ∧ CellsGrow s.life.cells t.life.cells

@[simp] theorem cellsFrom_next (s t : State) : CellsFrom s (.next t) ↔ CellsGrow s.life.cells t.life.cells := by
  simp [CellsFrom]

@[simp] theorem cellsFrom_ite (s : State) (c : Prop) [Decidable c] (a b : Host.Outcome State Fault Refusal) :
    CellsFrom s (if c then a else b) ↔ (c → CellsFrom s a) ∧ (¬c → CellsFrom s b) := by
  split <;> simp [*]

/-- A row that leaves the cells as they are. -/
theorem cellsFrom_same {s t : State} (h : t.life.cells = s.life.cells) : CellsFrom s (.next t) := by
  simp [h]

/-- A message row leaves the cells where the reply of its body does. -/
theorem message_cellsFrom {op n : Nat} {dma : List Byte} {body : Asker → List Byte → State → Reply} {s : State}
    (hbody : ∀ a p t, (body a p t).KeepsCells t) : CellsFrom s (.next (runMessage op n dma body s)) :=
  cellsFrom_same (runMessage_cells _ _ _ _ hbody)

section
variable (s : State)

theorem execBadOpcode_cellsFrom (ring : Nat) (dma : List Byte) : CellsFrom s (execBadOpcode ring dma s) := by
  unfold execBadOpcode
  split
  · split
    · split
      · simp [takeMsg_cells]
      · simp
    · simp
  · simp

theorem execW2Read_cellsFrom (src : W2Source) : CellsFrom s (execW2Read src s) := by
  unfold execW2Read
  split
  · simp
  · simp only [cellsFrom_ite, cellsFrom_next, cellsGrow_refl, implies_true, true_and]
    intro
    split
    next t ht => simp [reachAll_life ht]
    next => simp
  · refine cellsFrom_same (spiFrame_cells fun r => ?_)
    split
    next t ht => simp [reachAll_life ht]
    next => simp

theorem execWakeStallTimeout_cellsFrom (domain : Nat) (req : StallReq) : CellsFrom s (execWakeStallTimeout domain req s) := by
  simp only [execWakeStallTimeout, cellsFrom_ite, cellsFrom_next, cellsGrow_refl, implies_true, and_true]
  intro
  split
  · simp
  · simp
  · split
    · exact message_cellsFrom fun a p t => by simp
    · simp
  · simp
  · simp

theorem execThermalRead_cellsFrom (ring : Nat) (dma : List Byte) (readings : List (Nat × Reading)) :
    CellsFrom s (execThermalRead ring dma readings s) := by
  have h := runMessage_cells 0x0E02 ring dma s fun a p t => thermalReadBody_keepsCells a p t readings
  simp [execThermalRead, h]

theorem execDomainReady_cellsFrom (domain : Nat) : CellsFrom s (execDomainReady domain s) := by
  simp only [execDomainReady, cellsFrom_ite, cellsFrom_next, cellsGrow_refl, implies_true, and_true]
  intro
  split
  next t ht => simp [accessDomain_life ht]
  next => simp

theorem execOscQualifyTimeout_cellsFrom (osc : Nat) : CellsFrom s (execOscQualifyTimeout osc s) := by
  simp only [execOscQualifyTimeout, cellsFrom_ite, cellsFrom_next, cellsGrow_refl, implies_true, and_true]
  intro
  split
  next t ht => simp [searchOn_life ht]
  next => simp

theorem execHkConversionComplete_cellsFrom (c code rck : Nat) : CellsFrom s (execHkConversionComplete c code rck s) := by
  simp only [execHkConversionComplete, cellsFrom_ite, cellsFrom_next, cellsGrow_refl, implies_true, and_true]
  intro
  split
  · simp
  · split
    · simp
    next n t ht => simp [takeSlot_life ht]

theorem execNvmWriteStep_cellsFrom : CellsFrom s (execNvmWriteStep s) := by
  simp only [execNvmWriteStep, cellsFrom_ite, cellsFrom_next, cellsGrow_refl, implies_true, true_and]
  intro
  split
  · simp
  next t ht => simp [accessDomain_life ht]

theorem execCataloguePersistComplete_cellsFrom (e : LongEnd) : CellsFrom s (execCataloguePersistComplete e s) := by
  simp only [execCataloguePersistComplete, cellsFrom_ite, cellsFrom_next, cellsGrow_refl, implies_true, true_and]
  intro
  split
  · simp
  next st t ht => simp [persistEnd_life ht]

theorem execBankPersistComplete_cellsFrom (e : LongEnd) : CellsFrom s (execBankPersistComplete e s) := by
  simp only [execBankPersistComplete, cellsFrom_ite, cellsFrom_next, cellsGrow_refl, implies_true, true_and]
  intro
  split
  · simp
  next st t ht => simp [persistEnd_life ht]
end

/-! ### All rows -/

theorem exec_cellsFrom (c : Instr) (s : State) : CellsFrom s (exec c s) := by
  cases c with
  -- messages
  | sysHello | sysInfo | sysReset | sysFwImage | eventConfig | eventDrain | beamCataloguePersist | dpdBankPersist | calStatus
  | pwrStatus | pwrRefusals | timeServo | timeSetOffset | timeStatus | clkSources | hkConfigure | hkWindow | testStatus
  | nvmWriteRecord | nvmStatus | trestleKernelLoad | trestleKernelStart | trestleStatus | linkStatus | linkCounters | logRead
  | leaseStatus | thermalConfigure =>
    exact message_cellsFrom fun a p t => by simp [
      bankPersistBody, cataloguePersistBody, clkSourcesBody, eventConfigBody, eventDrainBody, fwImageBody, hkConfigureBody,
      hkWindowBody, kernelLoadBody, kernelStartBody, leaseStatusBody, linkCountersBody, linkStatusBody, logReadBody, nvmStatusBody,
      nvmWriteBody, pwrRefusalsBody, pwrStatusBody, sysHelloBody, sysInfoBody, sysResetBody, testStatusBody, thermalConfigureBody,
      timeServoBody, timeSetOffsetBody, timeStatusBody, trestleStatusBody]
  | beamElementMap | dpdConfigure | cfrConfigure | linkConfigure => exact message_cellsFrom fun _ p t => stageSection_keepsCells p t _
  | cfgStage => exact message_cellsFrom cfgStageBody_keepsCells
  | cfgCommit => exact message_cellsFrom cfgCommitBody_keepsCells
  | cfgDiscard => exact message_cellsFrom cfgDiscardBody_keepsCells
  | cfgRead => exact message_cellsFrom cfgReadBody_keepsCells
  | beamCatalogueWrite => exact message_cellsFrom catalogueWriteBody_keepsCells
  | dpdBankWrite => exact message_cellsFrom bankWriteBody_keepsCells
  | dpdAdaptControl => exact message_cellsFrom adaptControlBody_keepsCells
  | capturePlan => exact message_cellsFrom capturePlanBody_keepsCells
  | calRun => exact message_cellsFrom calRunBody_keepsCells
  | pwrRequest => exact message_cellsFrom pwrRequestBody_keepsCells
  | clkMeasure => exact message_cellsFrom clkMeasureBody_keepsCells
  | biasSet | biasSpan => exact message_cellsFrom fun a p t => by simp [biasSetBody, biasSpanBody, biasRecords]
  | biasRelease => exact message_cellsFrom fun a p t => biasReleaseBody_keepsCells a p t _ _
  | hkRead => exact message_cellsFrom fun a p t => by simp [hkReadBody, urgent]
  | testRun => exact message_cellsFrom testRunBody_keepsCells
  | rockerSet => exact message_cellsFrom fun a p t => by simp [rockerSetBody, rockerReport]
  | nvmRead => exact message_cellsFrom nvmReadBody_keepsCells
  | thermalRead => exact execThermalRead_cellsFrom ..
  -- rows with a lemma of their own
  | badOpcode => exact execBadOpcode_cellsFrom ..
  | w2Read => exact execW2Read_cellsFrom ..
  | wakeStallTimeout => exact execWakeStallTimeout_cellsFrom ..
  | domainReady => exact execDomainReady_cellsFrom ..
  | oscQualifyTimeout => exact execOscQualifyTimeout_cellsFrom ..
  | hkConversionComplete => exact execHkConversionComplete_cellsFrom ..
  | nvmWriteStep => exact execNvmWriteStep_cellsFrom ..
  | cataloguePersistComplete => exact execCataloguePersistComplete_cellsFrom ..
  | bankPersistComplete => exact execBankPersistComplete_cellsFrom ..
  | padRelease src =>
    cases src with
    | message => exact message_cellsFrom fun a p t => by simp [padReleaseBody]
    | register => simp [exec, execPadRelease]
  -- rows that occur or do not, by one look at the state
  | commitArmed | commitArmTimeout | commitBoundary | cabinetWriteComplete | cabinetBoundary | bankCommit | dpdClassSwitch
  | captureComplete | hkSlotQueued | testComplete | muteEnd | w0Read | dlSymbolRelease | dlPlayout | ulExport | prachExport
  | prachOccasion | agcStep | weightClaim | serviceStart | serviceEnd | rffeProgram | modeEntered | quiesceTimeout | wakeRetry
  | thermalResult =>
    simp only [exec,
      execCommitArmed, execCommitArmTimeout, execCommitBoundary, execCabinetWriteComplete, execCabinetBoundary, execBankCommit,
      execDpdClassSwitch, execCaptureComplete, execHkSlotQueued, execTestComplete, execMuteEnd, execW0Read, execDlSymbolRelease,
      execDlPlayout, execUlExport, execPrachExport, execPrachOccasion, execAgcStep, execWeightClaim, execServiceStart, execServiceEnd,
      execRffeProgram, execModeEntered, execQuiesceTimeout, execWakeRetry, execThermalResult]
    split <;> simp
  -- rows with more looks at it
  | framingLost | fwImageComplete | sysReady | captureOccurrence | calComplete | end_ | sectionParse | sectionUsable | tddEvent | loQualifyTimeout
  | pllUnlock | refMonitorTrip | ppsInEdge | ppsOut | pllQualified =>
    simp only [exec,
      execFramingLost, execFwImageComplete, execSysReady, execCaptureOccurrence, execCalComplete, execEnd, execSectionParse, execSectionUsable,
      execTddEvent, execLoQualifyTimeout, execPllUnlock, execRefMonitorTrip, execPpsInEdge, execPpsOut, execPllQualified]
    (repeat' split) <;> simp [takeFree]
  -- instructions of a Trestle core
  | ld | st | ldq | stq | mov | movi | movhi | add | sub | and | or | xor | not | lsl | lsr | asr | cmp | min | max | cadd | csub
  | cneg | conj | cshr | swaph | unpko | cmul4 | cmac4 | cmsu4 | cmacj4 | cmac4l | clra | aadd | ashr | ashl | mova | str | exp
  | norm | expc | expa | bexp | bexpq | beclr | br | bcc | call | ret | rpt | nop | setf | clrovf | blk | dma =>
    exact cellsFrom_same (by simp)
  -- bias, housekeeping, cores and linearisation
  | biasSlewUpdate | biasParked | paClearN | paClearNRelease | hkTrigger | hkPowerDown | quantumEnd | cycleBudgetExhausted
  | adaptationSolution =>
    simp [exec,
      execBiasSlewUpdate, execBiasParked, execPaClearN, execPaClearNRelease, execHkTrigger, execHkPowerDown, execQuantumEnd,
      execCycleBudgetExhausted, execAdaptationSolution]
  -- registers, SPI and PCIe
  | phDoorbell | phHead | ringDisable | ringDisabled | ringEnable | phDmaErr | pcieLinkDown | pcieLinkUp | muteAll | parkAll
  | safeHoldReq | timeCapture | thDemand | rockerRegisterWrite | registerWrite | w0Write | slotWrite | slotRead =>
    simp [exec,
      execPhDoorbell, execPhHead, execRingDisable, execRingDisabled, execRingEnable, execPhDmaErr, execPcieLinkDown, execPcieLinkUp,
      execMuteAll, execParkAll, execSafeHoldReq, execTimeCapture, execThDemand, execRockerRegisterWrite, execRegisterWrite,
      execW0Write, execSlotWrite, execSlotRead]
  -- ports and gain
  | frameReceived | type5ResponseTimeout | linkDown | linkUp | protectionStep | protectionReturn =>
    simp [exec,
      execFrameReceived, execType5ResponseTimeout, execLinkDown, execLinkUp, execProtectionStep, execProtectionReturn]
  -- clocks and time
  | clkMeasureDone | loQualified | loUnlock | loRelockTimeout | oscQualified | oscRetry | frcMonitorTrip | xtalARevert
  | compensationUpdate | esmcTimeout | synceRequalify | synceMonitorTrip | monitorWindowEnd | pllQualifyTimeout | ptpSyncExchange
  | ptpMasterChange | ppsEdgeTimeout | holdoverTimeout =>
    simp [exec,
      execClkMeasureDone, execLoQualified, execLoUnlock, execLoRelockTimeout, execOscQualified, execOscRetry, execFrcMonitorTrip,
      execXtalARevert, execCompensationUpdate, execEsmcTimeout, execSynceRequalify, execSynceMonitorTrip, execMonitorWindowEnd,
      execPllQualifyTimeout, execPtpSyncExchange, execPtpMasterChange, execPpsEdgeTimeout, execHoldoverTimeout]
  -- power and temperature
  | pgGood | pgTimeout | pgLoss | wakeSenseTrip | wakeSenseRearm | rxEnergyWake | wakeTimer | pcieWake | domainIdleOff
  | thermalScheduledDemand =>
    simp [exec,
      execPgGood, execPgTimeout, execPgLoss, execWakeSenseTrip, execWakeSenseRearm, execRxEnergyWake, execWakeTimer, execPcieWake,
      execDomainIdleOff, execThermalScheduledDemand]
  -- leases, digests, resets and boot; the lifecycle blocks, which alone program cells
  | leaseExpiry | leaseRelease | watchdogExpiry | scrub | digestStart | digestComplete | powerOnReset | resetN | resetNRelease
  | pg0Retry | bootRom | powerCycle | vddAoDip =>
    simp [exec,
      execLeaseExpiry, execLeaseRelease, execWatchdogExpiry, execScrub, execDigestStart, execDigestComplete, execPowerOnReset,
      execResetN, execResetNRelease, execPg0Retry, execBootRom, execPowerCycle, execVddAoDip]
  | advance | provision | deploy | return_ | scrap | debugOff => exact (cellsFrom_next ..).mpr (lifecycle_grows ..)

/-- A step adds to the stage cells at most. -/
theorem step_cellsGrow {s t : State} (h : Steps s t) : CellsGrow s.life.cells t.life.cells := by
  unfold Steps step at h
  split at h
  · injection h with h
    simp [← h]
  next c cs _ =>
    obtain ⟨w, hw, hgrow⟩ := exec_cellsFrom c { s with pending := cs }
    obtain rfl : w = t := by simpa [hw] using h
    exact hgrow

/-- Settles O4: no row clears a stage cell, and the stage read from cells that only grow never goes back. -/
theorem stageNeverGoesBack : Obligations.StageNeverGoesBack := by
  unfold Obligations.StageNeverGoesBack
  exact fun s t h => ⟨step_cellsGrow h, stageCode_le_of_grow (step_cellsGrow h)⟩

end Sys2Proof.Machine
end

section
/-! SUPPORT. One step of the queue (R316, log 6), and from it O1. -/

namespace Sys2Proof.Machine

theorem step_cons {c : Instr} {cs : List Instr} {s : State} (h : s.pending = c :: cs) : step s = exec c { s with pending := cs } := by
  rw [step, h]

theorem step_nil {s : State} (h : s.pending = []) : step s = .next (advanceRaw 1 s) := by
  rw [step, h]

/-- Settles O1: the two cases of the queue. -/
theorem stepRunsFrontCommand : Obligations.StepRunsFrontCommand := by
  unfold Obligations.StepRunsFrontCommand
  exact ⟨fun _ _ _ => step_cons, fun _ => step_nil⟩

end Sys2Proof.Machine
end

section
/-! SUPPORT. Answers only add status bits and output; an access to a domain touches its power, its pads and a test that it stops (R336, R413). -/

namespace Sys2Proof.Machine

/-! ### Answers -/

theorem sendMsg_grows (n : Nat) (m : List Byte) (s : State) : Grows s (sendMsg n m s) := by
  unfold sendMsg postMsg
  dsimp only
  split
  · exact (placeMsg_grows ..).trans (raise_grows ..)
  · split
    · exact (setRing_grows ..).trans (raise_grows ..)
    · exact setRing_grows ..

theorem finish_grows (a : Asker) (code detail : Nat) (p : List Byte) (s : State) : Grows s (finish a code detail p s) := by
  unfold finish sendResponse
  dsimp only
  split
  · exact (sendMsg_grows ..).after (setRing_grows ..)
  · exact setRing_grows ..

theorem finishDeferred_grows (a : Asker) (code detail : Nat) (p : List Byte) (s : State) : Grows s (finishDeferred a code detail p s) :=
  (finish_grows ..).trans (setRing_grows ..)

theorem finishLong_grows (k : LongKind) (code detail : Nat) (p : List Byte) (s : State) : Grows s (finishLong k code detail p s) := by
  unfold finishLong
  split
  · exact (finish_grows ..).after (.of_eq rfl rfl)
  · exact .refl s

theorem writeLog_grows (kind : Nat) (d : List Byte) (s : State) : Grows s (writeLog kind d s) := .of_eq (by simp) (by simp)

/-! ### Access to a domain -/

/-- What an access to a domain leaves alone. -/
theorem accessDomain_eq {d : Nat} {s t : State} (h : accessDomain d s = some t) :
    t = { s with ph := t.ph, ev := t.ev, em := t.em, pwr := t.pwr, test := t.test, out := t.out, fresh := t.fresh } := by
  unfold accessDomain at h
  dsimp only at h
  split_ifs at h <;> (injection h with h; subst h; apply state_eq <;> simp)

end Sys2Proof.Machine
end

section
/-! SUPPORT. The slew limiter and the clear of one channel (R286, R289), and from the first O28. -/

namespace Sys2Proof.Machine

/-- Moving toward a target goes at most a step, not past it, and reaches one within a step. -/
theorem moveToward_spec (pos target step : Nat) :
    (pos ≤ target → pos ≤ moveToward pos target step ∧ moveToward pos target step ≤ target ∧ moveToward pos target step ≤ pos + step) ∧
    (target ≤ pos → target ≤ moveToward pos target step ∧ moveToward pos target step ≤ pos ∧ pos ≤ moveToward pos target step + step) ∧
    (target ≤ pos + step → pos ≤ target + step → moveToward pos target step = target) := by
  unfold moveToward
  split <;> simp only [Nat.min_def, Nat.max_def] <;> split <;> omega

/-- Settles O28: a slewed position is the old one moved toward the target by the step of its span and slew. -/
theorem slewNeverPassesTarget : Obligations.SlewNeverPassesTarget := by
  unfold Obligations.SlewNeverPassesTarget
  intro ch target
  obtain ⟨hup, hdown, hreach⟩ := moveToward_spec ch.pos (target * 65536) (slewStep ch.span ch.slew)
  exact ⟨hup, hdown, hreach, rfl, rfl, rfl⟩

/-- A clear takes the channel to the clear code of its span from whatever it was doing (R289). -/
theorem clearChan_eq (ch : Chan) : clearChan ch = { ch with
    target := clearCode ch ch.span, pos := clearCode ch ch.span * 65536, pin := clearCode ch ch.span, hold := 0, timer := 0,
    releaseAfter := false, phase := 0,
    state := if ch.state = 0 ∨ ch.state = 1 ∨ (ch.state = 4 ∧ 3 ≤ ch.phase) then 0 else 5 } := by
  unfold clearChan
  dsimp only
  split <;> rfl

theorem clearChan_state (ch : Chan) :
    (clearChan ch).state = if ch.state = 0 ∨ ch.state = 1 ∨ (ch.state = 4 ∧ 3 ≤ ch.phase) then 0 else 5 := by
  rw [clearChan_eq]

@[simp] theorem clearChan_pos (ch : Chan) : (clearChan ch).pos = clearCode ch ch.span * 65536 := by
  rw [clearChan_eq]

/-- A channel that has been cleared and then parked is parked, at the code of its clear. -/
theorem parkChan_clearChan (ch : Chan) : (parkChan (clearChan ch)).state = 0 ∧ (parkChan (clearChan ch)).pos = (clearChan ch).pos := by
  have hstate := clearChan_state ch
  unfold parkChan
  split <;> split at hstate <;> simp_all

end Sys2Proof.Machine
end

section
/-! SUPPORT. Clears, updates and rails of the bias channels (R283 to R291), and from them O27. -/

namespace Sys2Proof.Machine

/-! ### Lists of channels -/

/-- Each channel of a list without repetition takes `g` of what it was; the others stay. -/
theorem chanOf_foldl_setChan {α : Type} (key : α → Nat) (g : α → Chan → Chan) {l : List α} (hnodup : l.Nodup)
    (hinj : ∀ a ∈ l, ∀ b ∈ l, key a = key b → a = b) (s : State) :
    let t := l.foldl (fun t a => setChan (key a) (g a (chanOf t (key a))) t) s
    (∀ a ∈ l, chanOf t (key a) = g a (chanOf s (key a))) ∧ (∀ c, (∀ a ∈ l, key a ≠ c) → chanOf t c = chanOf s c) := by
  induction l generalizing s with
  | nil => simp
  | cons x l ih =>
    obtain ⟨hx, hl⟩ := List.nodup_cons.mp hnodup
    obtain ⟨hin, hout⟩ := ih hl (fun a ha b hb => hinj a (List.mem_cons_of_mem _ ha) b (List.mem_cons_of_mem _ hb))
      (setChan (key x) (g x (chanOf s (key x))) s)
    have hfresh : ∀ a ∈ l, key a ≠ key x := fun a ha heq =>
      hx (hinj a (List.mem_cons_of_mem _ ha) x List.mem_cons_self heq ▸ ha)
    refine ⟨fun a ha => ?_, fun c hc => ?_⟩
    · rcases List.mem_cons.mp ha with rfl | ha
      · exact (hout _ hfresh).trans (by simp)
      · exact (hin a ha).trans (by simp [hfresh a ha])
    · have hcx : c ≠ key x := (hc x List.mem_cons_self).symm
      exact (hout c fun a ha => hc a (List.mem_cons_of_mem _ ha)).trans (by simp [hcx])

theorem clearChans_eq_foldl (s : State) (cs : List Nat) : clearChans s cs = cs.foldl (fun t c => setChan c (clearChan (chanOf t c)) t) s := by
  induction cs generalizing s with
  | nil => rfl
  | cons c cs ih => exact ih _

theorem parkChans_eq_foldl (s : State) (cs : List Nat) : parkChans s cs = cs.foldl (fun t c => setChan c (parkChan (chanOf t c)) t) s := by
  induction cs generalizing s with
  | nil => rfl
  | cons c cs ih => exact ih _

theorem chanOf_clearChans {cs : List Nat} (h : cs.Nodup) (s : State) (c : Nat) :
    chanOf (clearChans s cs) c = if c ∈ cs then clearChan (chanOf s c) else chanOf s c := by
  obtain ⟨hin, hout⟩ := chanOf_foldl_setChan id (fun _ => clearChan) h (fun _ _ _ _ => id) s
  rw [clearChans_eq_foldl]
  split
  next hc => exact hin c hc
  next hc => exact hout c fun a ha hac => hc (hac ▸ ha)

theorem chanOf_parkChans {cs : List Nat} (h : cs.Nodup) (s : State) (c : Nat) :
    chanOf (parkChans s cs) c = if c ∈ cs then parkChan (chanOf s c) else chanOf s c := by
  obtain ⟨hin, hout⟩ := chanOf_foldl_setChan id (fun _ => parkChan) h (fun _ _ _ _ => id) s
  rw [parkChans_eq_foldl]
  split
  next hc => exact hin c hc
  next hc => exact hout c fun a ha hac => hc (hac ▸ ha)

/-- Writing channels leaves the rest of the bias part. -/
theorem foldl_setChan_bias (g : State → Nat → Chan) (l : List Nat) (s : State) :
    ∃ x, (l.foldl (fun t c => setChan c (g t c) t) s).bias = { s.bias with chan := x } := by
  induction l generalizing s with
  | nil => exact ⟨_, rfl⟩
  | cons c l ih =>
    obtain ⟨x, hx⟩ := ih (setChan c (g s c) s)
    exact ⟨x, hx⟩

/-! ### A clear (R289) -/

theorem clearTargets_nodup {cause : Nat} (h : cause ≠ 4) (path : Nat) (s : State) : (clearTargets cause path s).Nodup := by
  unfold clearTargets
  split
  · contradiction
  · exact List.nodup_singleton _
  · exact List.nodup_range.filter _
  · exact List.nodup_range.filter _

/-- Answering the releases that have ended drops them, and leaves the rest of the bias part. -/
theorem settleReleases_bias (s : State) : ∃ l, (settleReleases s).bias = { s.bias with release := l } := by
  unfold settleReleases
  dsimp only
  rw [foldl_bias _ (fun t e => by simp)]
  exact ⟨_, rfl⟩

theorem settleReleases_grows (s : State) : Grows s (settleReleases s) := by
  unfold settleReleases
  exact (Grows.foldl (fun t e => finishDeferred_grows ..) _ _).after (.of_eq rfl rfl)

/-- The channels after a clear of the targets of a cause: with cause 6 they are parked as well. -/
def channelsCleared (cause path : Nat) (s : State) : State :=
  let cs := clearTargets cause path s
  if cause = 6 then parkChans (clearChans s cs) cs else clearChans s cs

/-- A clear writes the channels, forces pins and, where it has targets, raises EV_PA_CLEAR and answers the releases that it ends. -/
theorem clearBias_stages (cause path : Nat) (s : State) : ∃ v : State, v.bias = (channelsCleared cause path s).bias ∧
    ((clearTargets cause path s = [] ∧ clearBias cause path s = v) ∨
      ∃ d, clearTargets cause path s ≠ [] ∧ clearBias cause path s = settleReleases (raise 131 d v)) := by
  unfold clearBias channelsCleared
  dsimp only
  cases clearTargets cause path s with
  | nil => exact ⟨_, by simp, .inl ⟨rfl, rfl⟩⟩
  | cons c cs => exact ⟨_, by simp, .inr ⟨_, by simp, rfl⟩⟩

theorem clearBias_bias (cause path : Nat) (s : State) : ∃ l, (clearBias cause path s).bias = { (channelsCleared cause path s).bias with release := l } := by
  obtain ⟨v, hv, ⟨-, heq⟩ | ⟨d, -, heq⟩⟩ := clearBias_stages cause path s
  · exact ⟨_, by rw [heq, hv]⟩
  · obtain ⟨l, hl⟩ := settleReleases_bias (raise 131 d v)
    exact ⟨l, by rw [heq, hl]; simp [hv]⟩

/-- Of the bias part a clear writes channels and the releases whose answer it brings. -/
theorem clearBias_frame_bias (cause path : Nat) (s : State) : ∃ x l, (clearBias cause path s).bias = { s.bias with chan := x, release := l } := by
  obtain ⟨l, hl⟩ := clearBias_bias cause path s
  obtain ⟨x, hx⟩ := foldl_setChan_bias (fun t c => clearChan (chanOf t c)) (clearTargets cause path s) s
  rw [← clearChans_eq_foldl] at hx
  rw [hl, channelsCleared]
  split
  · obtain ⟨y, hy⟩ := foldl_setChan_bias (fun t c => parkChan (chanOf t c)) (clearTargets cause path s) (clearChans s (clearTargets cause path s))
    rw [← parkChans_eq_foldl] at hy
    exact ⟨y, l, by rw [hy, hx]⟩
  · exact ⟨x, l, by rw [hx]⟩

theorem chanOf_clearBias (cause path : Nat) (s : State) (c : Nat) : chanOf (clearBias cause path s) c = chanOf (channelsCleared cause path s) c := by
  obtain ⟨l, hl⟩ := clearBias_bias cause path s
  simp only [chanOf, hl]

/-- A clear that has targets raises EV_PA_CLEAR. -/
theorem clearBias_status {cause path : Nat} {s : State} (h : clearTargets cause path s ≠ []) :
    (clearBias cause path s).ev.status.getLsbD 131 = true := by
  obtain ⟨v, -, ⟨hnil, -⟩ | ⟨d, -, heq⟩⟩ := clearBias_stages cause path s
  · contradiction
  · rw [heq]
    exact (settleReleases_grows _).status 131 (raise_status _ _ _ (by decide))

/-! ### The clauses of O27 -/

/-- PA_CLEAR_N low clears the channels of the mask (R289). -/
theorem paClearN_clears {s : State} (hhigh : s.bias.paClearLow = false) : ∃ t, exec .paClearN s = .next t ∧ t.bias.paClearLow = true ∧
    (∀ c < 80, chanOf t c = if clearMask s c then clearChan (chanOf s c) else chanOf s c) ∧ t.pwr = s.pwr ∧ t.em = s.em ∧
    t.ev.status.getLsbD 131 = true := by
  have hnodup : ∀ w, (clearTargets 1 0 w).Nodup := clearTargets_nodup (by decide) 0
  refine ⟨clearBias 1 0 { s with bias := { s.bias with paClearLow := true } }, by simp [exec, execPaClearN, hhigh], ?_, fun c hc => ?_,
    by simp, by simp, clearBias_status ?_⟩
  · obtain ⟨x, l, hl⟩ := clearBias_frame_bias 1 0 { s with bias := { s.bias with paClearLow := true } }
    rw [hl]
  · have hmem : c ∈ clearTargets 1 0 { s with bias := { s.bias with paClearLow := true } } ↔ clearMask s c = true := by
      simp [clearTargets, hc, clearMask, chanOf]
    rw [chanOf_clearBias, channelsCleared, if_neg (by decide), chanOf_clearChans (hnodup _)]
    simp only [hmem]
    rfl
  · exact List.ne_nil_of_mem (a := 0) (by simp [clearTargets, clearMask])

/-- Before the power of the domain goes every channel is parked, those that were not at their clear codes (R289). -/
theorem clearBias_six (s : State) {c : Nat} (hc : c < 80) : (chanOf (clearBias 6 0 s) c).state = 0 ∧
    ((chanOf s c).state ≠ 0 → (chanOf (clearBias 6 0 s) c).pos = clearCode (chanOf s c) (chanOf s c).span * 65536) := by
  have hnodup : (clearTargets 6 0 s).Nodup := clearTargets_nodup (by decide) 0 s
  have hmem : c ∈ clearTargets 6 0 s ↔ (chanOf s c).state ≠ 0 := by simp [clearTargets, hc]
  rw [chanOf_clearBias, channelsCleared, if_pos rfl, chanOf_parkChans hnodup, chanOf_clearChans hnodup]
  simp only [hmem]
  obtain ⟨hstate, hpos⟩ := parkChan_clearChan (chanOf s c)
  split
  · exact ⟨hstate, fun _ => by rw [hpos, clearChan_pos]⟩
  next h => exact ⟨not_not.mp h, fun hne => absurd hne h⟩

/-- A parked channel's pin is on its rail (R283). -/
theorem biasPin_parked {s : State} {c : Nat} (hheld : s.em.held.getLsbD (8 + chanTile c) = false) (h : (chanOf s c).state = 0) :
    biasPin s c = (some (parksOnB s c), none) := by
  simp [biasPin, parkClosed, drivesPin, hheld, h]

/-- A driven channel's pin is on its driver (R284). -/
theorem biasPin_driven {s : State} {c : Nat} (hheld : s.em.held.getLsbD (8 + chanTile c) = false)
    (h : (chanOf s c).state = 2 ∨ (chanOf s c).state = 3) : biasPin s c = (none, some ((chanOf s c).span, (chanOf s c).pin)) := by
  rcases h with h | h <;> simp [biasPin, parkClosed, drivesPin, hheld, h]

/-- Settles O27: a clear channel by channel, the updates and the parking row, and the switches of a pin. -/
theorem biasClearsAndUpdates : Obligations.BiasClearsAndUpdates := by
  unfold Obligations.BiasClearsAndUpdates
  refine ⟨fun s => ⟨paClearN_clears, rfl, fun hready => by simp [exec, execBiasSlewUpdate, hready],
      fun c hstate hafter => by simp [exec, execBiasParked, hstate, hafter],
      fun c hstate hafter => by simp [exec, execBiasParked, hstate, hafter]⟩,
    fun ch => ?clear, fun s c hc => ⟨(clearBias_six s hc).1, (clearBias_six s hc).2, fun hheld => ⟨biasPin_parked hheld, biasPin_driven hheld⟩⟩⟩
  rw [clearChan_eq]
  dsimp only
  split <;> simp_all

end Sys2Proof.Machine
end

section
/-! SUPPORT. The messages `bias.set`, `bias.span` and `bias.release` (R288, R291 to R293), and from them O26. -/

namespace Sys2Proof.Machine

section
variable {ring : Nat} {dma : List Byte} {s w : State} {h : Hdr} {p : List Byte} (hw : accessDomain 10 (consumed ring h s) = some w)
include hw

/-- `bias.set` whose fields all pass, no channel being in a span change (R292). -/
theorem exec_biasSet (hlen : p.length = 8 + 8 * u p 0 4) (d : Delivered 0x0801 ring dma s h p)
    (hgood : firstBad ((0, decide (1 ≤ u p 0 4) && decide (u p 0 4 ≤ 80)) :: isZero p 4 4 :: biasChecks true p (u p 0 4)) = none)
    (hidle : ∀ r < u p 0 4, (chanOf s (u p (8 + 8 * r) 1)).state ≠ 4) :
    exec (.biasSet ring dma) s = .next (answered (askerOf ring h s) (chanRecords (biasSetAll p (u p 0 4) w)) (biasSetAll p (u p 0 4) w)) := by
  have hbusy : ¬((List.range (u p 0 4)).any fun r => decide ((chanOf (consumed ring h s) (u p (8 + 8 * r) 1)).state = 4)) = true := by
    simpa [chanOf] using hidle
  simp only [exec, execBiasSet, runMessage_delivered _ d, biasSetBody, biasRecords]
  rw [if_neg (by omega), withFields_of_none hgood, if_neg hbusy, onDomain_of_access hw, settle_ok]

/-- `bias.span` of one channel that is in no span change (R291, R292). -/
theorem exec_biasSpan (hlen : p.length = 8 + 8 * u p 0 4) (d : Delivered 0x0802 ring dma s h p) (hone : u p 0 4 = 1)
    (hzero : slice p 4 4 = zeros 4) (hchan : u p 8 1 ≤ 79) (hspan : u p 9 1 ≤ 3) (htarget : u p 10 2 ≤ 16383)
    (hrest : slice p 12 4 = zeros 4) (hidle : (chanOf s (u p 8 1)).state ≠ 4) :
    let v := setChan (u p 8 1) (spanChan (chanOf w (u p 8 1)) (u p 9 1) (u p 10 2)) w
    exec (.biasSpan ring dma) s = .next (answered (askerOf ring h s) (chanRecords v) v) := by
  have hgood : ∀ c ∈ (0, decide (1 ≤ 1) && decide (1 ≤ 80)) :: isZero p 4 4 :: biasChecks false p 1, c.2 = true := by
    simp [biasChecks, isZero_of_slice hzero, isZero_of_slice hrest, inRange, hchan, hspan, htarget]
  have hbusy : ¬((List.range 1).any fun r => decide ((chanOf (consumed ring h s) (u p (8 + 8 * r) 1)).state = 4)) = true := by
    simpa [chanOf] using hidle
  simp only [exec, execBiasSpan, runMessage_delivered _ d, biasSpanBody, biasRecords, hone]
  rw [if_neg (by omega), withFields_of_good hgood, if_neg hbusy, onDomain_of_access hw, settle_ok]
  rfl
end

/-- Records whose fields all pass name no channel twice (R292). -/
theorem biasChecks_injOn {set : Bool} {p : List Byte} {n : Nat} (h : ∀ c ∈ biasChecks set p n, c.2 = true) {q r : Nat} (hq : q < n) (hr : r < n)
    (hkey : u p (8 + 8 * q) 1 = u p (8 + 8 * r) 1) : q = r := by
  have hnew : ∀ k < n, ∀ j < k, u p (8 + 8 * j) 1 ≠ u p (8 + 8 * k) 1 := fun k hk j hj => by
    have hdup := h (8 + 8 * k, decide (u p (8 + 8 * k) 1 ≤ 79) &&
      !((List.range k).any fun q => decide (u p (8 + 8 * q) 1 = u p (8 + 8 * k) 1)))
      (List.mem_flatMap.mpr ⟨k, List.mem_range.mpr hk, by cases set <;> simp⟩)
    simp only [Bool.and_eq_true, Bool.not_eq_true', List.any_eq_false, List.mem_range, decide_eq_true_eq] at hdup
    exact hdup.2 j hj
  rcases Nat.lt_trichotomy q r with hlt | heq | hlt
  · exact absurd hkey (hnew r hr q hlt)
  · exact heq
  · exact absurd hkey.symm (hnew q hq r hlt)

/-- `bias.set` gives each channel named its record's target and slew, and leaves the others. -/
theorem chanOf_biasSetAll {p : List Byte} {n : Nat} (hinj : ∀ q < n, ∀ r < n, u p (8 + 8 * q) 1 = u p (8 + 8 * r) 1 → q = r) (w : State) :
    (∀ r < n, chanOf (biasSetAll p n w) (u p (8 + 8 * r) 1) =
      { chanOf w (u p (8 + 8 * r) 1) with target := u p (8 + 8 * r + 2) 2, slew := u p (8 + 8 * r + 4) 2 }) ∧
    ∀ c, (∀ r < n, u p (8 + 8 * r) 1 ≠ c) → chanOf (biasSetAll p n w) c = chanOf w c := by
  obtain ⟨hin, hout⟩ := chanOf_foldl_setChan (fun r => u p (8 + 8 * r) 1)
    (fun r ch => { ch with target := u p (8 + 8 * r + 2) 2, slew := u p (8 + 8 * r + 4) 2 }) (l := List.range n) List.nodup_range
    (fun q hq r hr => hinj q (List.mem_range.mp hq) r (List.mem_range.mp hr)) w
  exact ⟨fun r hr => hin r (List.mem_range.mpr hr), fun c hc => hout c fun r hr => hc r (List.mem_range.mp hr)⟩

/-! ### `bias.release` (R288) -/

/-- The channels that `bias.release` checks: named, and parked or clearing. -/
def releaseNamed (p : List Byte) (w : State) : List Nat :=
  (List.range 80).filter fun c => (u p 0 10).testBit c && (decide ((chanOf w c).state = 0) || decide ((chanOf w c).state = 5))

/-- The state in which the named channels have begun their release, PARKED ended and the answer waiting for them. -/
def releaseBegun (a : Asker) (cs : List Nat) (w : State) : State :=
  let measured := urgentRun 0 [(112, 0, 1), (113, 0, 1)] w
  let v := cs.foldl (fun t c => setChan c (startRelease (chanOf t c)) t) (notePins { measured with em := { measured.em with parked := false } })
  { v with bias := { v.bias with release := v.bias.release ++ [(a, cs)] } }

/-- No channel is refused while the defaults are valid, the supplies measure good, no pad is held and PA_CLEAR_N is high (Table 12-5). -/
theorem releaseReason_none {w : State} {hvP hvN : Nat} (hvalid : w.bias.valid = true) (hP : 10240 ≤ hvP) (hN : hvN ≤ 3072)
    (hheld : w.em.held = 0) (hpin : w.bias.paClearLow = false) (c : Nat) : releaseReason w hvP hvN c = none := by
  simp [releaseReason, hvalid, hheld, hpin]
  omega

theorem exec_biasRelease {ring : Nat} {dma : List Byte} {s w : State} {h : Hdr} {p : List Byte} {hvP hvN : Nat}
    (d : Delivered 0x0803 ring dma s h p) (hlen : p.length = 16) (hzero : slice p 10 6 = zeros 6) (hmode : releaseMode s.pwr.mode = true)
    (hw : accessDomain 10 (consumed ring h s) = some w) (hreason : ∀ c, releaseReason w hvP hvN c = none) (hsome : releaseNamed p w ≠ []) :
    exec (.biasRelease ring dma hvP hvN) s =
      .next (deferredTo (askerOf ring h s) (releaseBegun (askerOf ring h s) (releaseNamed p w) w)) := by
  have hgood : ∀ c ∈ [isZero p 10 6], c.2 = true := by simp [isZero_of_slice hzero]
  have hnone : (releaseNamed p w).find? (fun c => (releaseReason w hvP hvN c).isSome) = none := by simp [hreason]
  simp only [exec, execBiasRelease, runMessage_delivered _ d, biasReleaseBody, withLength_of_mem (show p.length ∈ [16] by simp [hlen]),
    withFields_of_good hgood, consumed_pwr, hmode, Bool.not_true, Bool.false_eq_true, if_false, onDomain_of_access hw]
  rw [show (List.range 80).filter _ = releaseNamed p w from rfl, hnone]
  simp only [if_neg hsome, settle_deferred]
  rfl

theorem releaseBegun_parts (a : Asker) {cs : List Nat} (hnodup : cs.Nodup) (w : State) :
    let v := releaseBegun a cs w
    v.em.parked = false ∧ (∀ c ∈ cs, chanOf v c = startRelease (chanOf w c)) ∧ (∀ c, c ∉ cs → chanOf v c = chanOf w c) ∧
    v.bias.release = w.bias.release ++ [(a, cs)] ∧
    v = { urgentRun 0 [(112, 0, 1), (113, 0, 1)] w with em := v.em, bias := v.bias, rf := v.rf } ∧
    urgentRun 0 [(112, 0, 1), (113, 0, 1)] w = { w with hk := v.hk, tm := v.tm, stat := v.stat } := by
  let measured := urgentRun 0 [(112, 0, 1), (113, 0, 1)] w
  let b := notePins { measured with em := { measured.em with parked := false } }
  obtain ⟨hin, hout⟩ := chanOf_foldl_setChan id (fun _ => startRelease) hnodup (fun _ _ _ _ => id) b
  obtain ⟨x, hx⟩ := foldl_setChan_bias (fun t c => startRelease (chanOf t c)) cs b
  have hb : b.bias = w.bias := by simp [b, measured]
  have hchan : ∀ c, chanOf b c = chanOf w c := fun c => by simp only [chanOf, hb]
  refine ⟨by simp [releaseBegun], fun c hc => (hin c hc).trans (by rw [id, hchan]), fun c hc => (hout c fun a ha hac => hc (hac ▸ ha)).trans (hchan c),
    ?_, ?_, ?_⟩
  · show _ ++ _ = _ ++ _
    rw [hx, hb]
  · apply state_eq <;> simp [releaseBegun]
  · apply state_eq <;> simp [releaseBegun]

/-- Settles O26: an equation for each message, and the parts of the state that a release leaves. -/
theorem biasMessages : Obligations.BiasMessages := by
  unfold Obligations.BiasMessages
  refine ⟨fun ring dma s w h p hw hlen => ⟨fun d hgood hidle => ?set, exec_biasSpan hw hlen⟩,
    fun ring dma s w h p hvP hvN d hlen hzero hmode hw hvalid hP hN hheld hpin hsome => ?release⟩
  case set =>
    have hchecks : ∀ c ∈ biasChecks true p (u p 0 4), c.2 = true := fun c hc =>
      (firstBad_eq_none_iff _).mp hgood c (List.mem_cons_of_mem _ (List.mem_cons_of_mem _ hc))
    obtain ⟨hnamed, hother⟩ := chanOf_biasSetAll (fun q hq r hr => biasChecks_injOn hchecks hq hr) w
    exact ⟨exec_biasSet hw hlen d hgood hidle, hother, hnamed⟩
  case release =>
    exact ⟨_, exec_biasRelease d hlen hzero hmode hw (releaseReason_none hvalid hP hN hheld hpin) hsome,
      releaseBegun_parts _ (List.nodup_range.filter _) w⟩

end Sys2Proof.Machine
end

section
/-! SUPPORT. The housekeeping converters: the part of the state that each operation on them writes, and the queue's order (R296 to R298). -/

namespace Sys2Proof.Machine

/-! ### Converters -/

/-- Taking up the front of a queue writes converters alone. -/
theorem settleConv_eq (c : Nat) (s : State) : ∃ x, settleConv c s = { s with hk := { s.hk with conv := x } } := by
  unfold settleConv
  dsimp only
  split
  · exact ⟨_, rfl⟩
  · split <;> exact ⟨_, rfl⟩

/-- A converter that starts up is powered. -/
theorem wakeConv_powered (s : State) (v : Conv) : (wakeConv s v).powered = true := by
  unfold wakeConv
  split
  · split <;> assumption
  · rfl

/-- What a slot's trigger leaves alone, and the pulses and converters that it writes (R296). -/
theorem triggered_eq (n : Nat) (s : State) : ∃ tm conv pulse, triggered n s = { s with tm := tm, hk := { s.hk with conv := conv, pulse := pulse } } := by
  have htime : ∃ tm, triggerTime n s = { s with tm := tm } := by
    unfold triggerTime
    dsimp only
    split <;> exact ⟨_, rfl⟩
  obtain ⟨tm, htime⟩ := htime
  unfold triggered
  dsimp only
  rw [htime]
  obtain ⟨x, hx⟩ := settleConv_eq (slotOf s n).converter { s with tm := tm, hk := { s.hk with
    pulse := if (slotOf s n).source = 4 then tset 0 s.hk.pulse n (tget 0 s.rf.rise (slotOf s n).param + 1) else s.hk.pulse } }
  exact ⟨tm, x, _, hx⟩

/-! ### The queue (R297) -/

theorem enqueueSlot_perm (e : Instant × Nat) (q : List (Instant × Nat)) : (enqueueSlot e q).Perm (e :: q) := by
  induction q with
  | nil => exact .refl _
  | cons x xs ih =>
    unfold enqueueSlot
    split
    · exact .refl _
    · exact (ih.cons x).trans (.swap e x xs)

/-- The queue's order, read as one of instants and slots (R297). -/
theorem queueBefore_eq_false_iff {a b : Instant × Nat} :
    queueBefore a b = false ↔ LT.lt (α := Int) b.1 a.1 ∨ Eq (α := Int) b.1 a.1 ∧ b.2 ≤ a.2 := by
  have h : ∀ (x y : Int) (i j : Nat), (¬x < y ∧ (¬x = y ∨ ¬i < j)) ↔ (y < x ∨ y = x ∧ j ≤ i) := by omega
  simp only [queueBefore, Bool.or_eq_false_iff, Bool.and_eq_false_iff, decide_eq_false_iff_not]
  exact h a.1 b.1 a.2 b.2

/-- What is not before `a` is not before what `a` is not before. -/
theorem queueBefore_trans {a b c : Instant × Nat} (hab : queueBefore b a = false) (hbc : queueBefore c b = false) : queueBefore c a = false := by
  rw [queueBefore_eq_false_iff] at *
  have h : ∀ x y z : Int, (x < y ∨ x = y ∧ a.2 ≤ b.2) → (y < z ∨ y = z ∧ b.2 ≤ c.2) → (x < z ∨ x = z ∧ a.2 ≤ c.2) := by omega
  exact h _ _ _ hab hbc

theorem queueBefore_asymm {a b : Instant × Nat} (h : queueBefore a b = true) : queueBefore b a = false := by
  have hnot := mt queueBefore_eq_false_iff.mpr (Bool.eq_false_iff.not_left.mpr h)
  have key : ∀ x y : Int, ¬(y < x ∨ y = x ∧ b.2 ≤ a.2) → (x < y ∨ x = y ∧ a.2 ≤ b.2) := by omega
  exact queueBefore_eq_false_iff.mpr (key _ _ hnot)

theorem enqueueSlot_sorted {e : Instant × Nat} {q : List (Instant × Nat)} (h : q.Pairwise fun a b => queueBefore b a = false) :
    (enqueueSlot e q).Pairwise fun a b => queueBefore b a = false := by
  induction q with
  | nil => exact List.pairwise_singleton ..
  | cons x xs ih =>
    obtain ⟨hx, hxs⟩ := List.pairwise_cons.mp h
    unfold enqueueSlot
    split
    next hbefore =>
      have hex := queueBefore_asymm hbefore
      refine List.pairwise_cons.mpr ⟨fun y hy => ?_, h⟩
      rcases List.mem_cons.mp hy with rfl | hy
      · exact hex
      · exact queueBefore_trans hex (hx y hy)
    next hafter =>
      refine List.pairwise_cons.mpr ⟨fun y hy => ?_, ih hxs⟩
      rcases List.mem_cons.mp ((enqueueSlot_perm e xs).mem_iff.mp hy) with rfl | hy
      · exact Bool.eq_false_iff.mpr hafter
      · exact hx y hy

/-! ### The re-check of an overcurrent (R303) -/

/-- A clear keeps the paths with a confirmed overcurrent. -/
theorem clearBias_ocPaths (cause path : Nat) (s : State) : (clearBias cause path s).rf.ocPaths = s.rf.ocPaths := by
  have hnote : ∀ t : State, (notePins t).rf.ocPaths = t.rf.ocPaths := fun t => by
    obtain ⟨level, rise, h⟩ := notePins_eq t
    rw [h]
  have hchans : ∀ cs, (if cause = 6 then parkChans (clearChans s cs) cs else clearChans s cs).rf.ocPaths = s.rf.ocPaths := fun cs => by
    split <;> simp
  unfold clearBias
  generalize clearTargets cause path s = cs
  have hv := hchans cs
  dsimp only
  generalize (if cause = 6 then parkChans (clearChans s cs) cs else clearChans s cs) = v at hv
  cases cs with
  | nil =>
    rw [hnote]
    split <;> exact hv
  | cons c cs =>
    simp only [settleReleases_frame, raise_frame, hnote]
    split <;> exact hv

/-- The state in which the re-check has converted: 250 ns later. -/
def rechecked (c : Nat) (s : State) : State :=
  let w := advanceTo (nowU s + (250 * nsU : Nat)) s
  setConv c { convOf w c with since := nowU w } w

theorem recheck_unconfirmed {c p gain code : Nat} {s : State} (h : code < ocLimit s p gain) :
    recheck c p gain code s = statAdd 0x1D p 1 1 (rechecked c s) :=
  if_neg (Nat.not_le.mpr h)

theorem recheck_confirmed {c p gain code : Nat} {s : State} (h : ocLimit s p gain ≤ code) : ∃ d, recheck c p gain code s =
    raise 128 d (clearBias 5 p (statAdd 0x1D p 0 1 { rechecked c s with
      rf := { s.rf with ocPaths := s.rf.ocPaths ||| BitVec.twoPow 64 p } })) :=
  ⟨_, if_pos h⟩

/-- Of the housekeeping part a re-check writes its own converter's time. -/
theorem recheck_hk (c p gain code : Nat) (s : State) : (recheck c p gain code s).hk = (rechecked c s).hk := by
  by_cases h : ocLimit s p gain ≤ code
  · obtain ⟨d, hd⟩ := recheck_confirmed h
    rw [hd]
    simp
  · rw [recheck_unconfirmed (Nat.lt_of_not_le h)]
    simp

/-- A confirmed overcurrent clears its path's channel and no other, notes the path and raises EV_PA_OC. -/
theorem recheck_clears {c p gain code : Nat} {s : State} (h : ocLimit s p gain ≤ code) :
    (recheck c p gain code s).rf.ocPaths = s.rf.ocPaths ||| BitVec.twoPow 64 p ∧ (recheck c p gain code s).ev.status.getLsbD 128 = true ∧
    chanOf (recheck c p gain code s) p = clearChan (chanOf s p) ∧ ∀ q, q ≠ p → chanOf (recheck c p gain code s) q = chanOf s q := by
  obtain ⟨d, hd⟩ := recheck_confirmed h
  let v := statAdd 0x1D p 0 1 { rechecked c s with rf := { s.rf with ocPaths := s.rf.ocPaths ||| BitVec.twoPow 64 p } }
  have hchan : ∀ q, chanOf (recheck c p gain code s) q = if q ∈ [p] then clearChan (chanOf s q) else chanOf s q := fun q => by
    rw [hd, show chanOf (raise 128 d (clearBias 5 p v)) q = chanOf (clearBias 5 p v) q by simp [chanOf], chanOf_clearBias, channelsCleared,
      if_neg (by decide), chanOf_clearChans (clearTargets_nodup (by decide) p v)]
    rfl
  refine ⟨by rw [hd]; simp [clearBias_ocPaths], by rw [hd]; exact raise_status _ _ _ (by decide), by simp [hchan], fun q hq => by simp [hchan, hq]⟩

end Sys2Proof.Machine
end

section
/-! SUPPORT. The rows and messages of housekeeping (R295 to R303), and from them O29. -/

namespace Sys2Proof.Machine

/-! ### Messages (R295, R300 to R302) -/

/-- A revoked HK-ADC lease ends what the converters run; the configuration stays (R295, R392). -/
theorem hkRevoked_keeps {s : State} (hfree : (leaseOf s 11).free = none) :
    (hkRevoked s).hk = { s.hk with conv := (hkRevoked s).hk.conv } ∧ (hkRevoked s).ev.status.getLsbD 208 = true := by
  have hheld : Held 11 (requestLease 11 1 s) := requestLease_held hfree (by decide)
  let t := advanceSince (leaseNow (requestLease 11 1 s) 11).granted (leaseMax 11 * 1474560) (requestLease 11 1 s)
  have ht : Held 11 t := hheld.of_ls (by simp [t])
  have hrevoke : hkRevoked s = revokeEntry 11 1 (forceRelease 11 t) := by
    obtain ⟨hholder, hnone⟩ := ht
    have hgo : ¬((leaseNow t 11).holder = 0 ∨ (leaseNow t 11).free.isSome = true) := by simp [leaseNow_of_not_freed hnone, hholder, hnone]
    show revokeLease 11 1 t = _
    simp [revokeLease, hgo]
  have hforced : Held 11 (forceRelease 11 t) := ht.of_ls rfl
  rw [hrevoke]
  exact ⟨by simp [forceRelease, t], (revokeEntry_of_held hforced 1).1⟩

section
variable {ring : Nat} {dma : List Byte} {s w : State} {h : Hdr} {p : List Byte} (hw : accessDomain 10 (consumed ring h s) = some w)
include hw

theorem exec_hkConfigure (d : Delivered 0x0804 ring dma s h p) (hlen : p.length = 1168)
    (hgood : firstBad ((isZero p 8 8 :: (List.range 64).flatMap (slotChecks p)) ++
      (List.range 64).map fun n => inRange p (1040 + 2 * n) 2 1 16383) = none) (revoked : Bool) :
    exec (.hkConfigure ring ⟨dma, revoked⟩) s = .next (if revoked then answeredWith (askerOf ring h s) stLeaseRevoked 0 [] (hkRevoked w)
      else answered (askerOf ring h s) [] (hkApply p w)) := by
  simp only [exec, execHkConfigure, runMessage_delivered _ d, hkConfigureBody, withLength_of_mem (show p.length ∈ [1168] by simp [hlen]),
    withFields_of_none hgood, onDomain_of_access hw]
  split <;> rfl

/-- `hk.window` writes the 32 comparators (R302). -/
theorem hkWindow_writes (d : Delivered 0x0805 ring dma s h p) (hlen : p.length = 256)
    (hgood : firstBad ((List.range 32).flatMap (windowChecks p)) = none) :
    ∃ v, exec (.hkWindow ring dma) s = .next (answered (askerOf ring h s) [] v) ∧
      (∀ n < 32, windowOf v n = ⟨decide (u p (8 * n) 1 = 1), u p (8 * n + 1) 1, u p (8 * n + 2) 2, u p (8 * n + 4) 2, true⟩) ∧
      v = { w with hk := { w.hk with window := v.hk.window } } := by
  refine ⟨{ w with hk := { w.hk with window := (List.range 32).foldl (fun t n =>
    tset {} t n (⟨decide (u p (8 * n) 1 = 1), u p (8 * n + 1) 1, u p (8 * n + 2) 2, u p (8 * n + 4) 2, true⟩ : Window)) [] } }, ?_,
    fun n hn => tget_foldl_tset _ _ _ hn, rfl⟩
  simp only [exec, execHkWindow, runMessage_delivered _ d, hkWindowBody, withLength_of_mem (show p.length ∈ [256] by simp [hlen]),
    withFields_of_none hgood, onDomain_of_access hw, settle_ok]

theorem exec_hkRead (d : Delivered 0x0806 ring dma s h p) (hlen : p.length = 8) (hgood : firstBad (hkReadChecks p) = none) (code : Nat) :
    exec (.hkRead ring dma code) s = .next (if u p 0 1 = 1 then
      answered (askerOf ring h s) ((List.range 64).flatMap (slotRecord w)) w
      else answered (askerOf ring h s) (urgent p code w).payload (urgent p code w).st) := by
  simp only [exec, execHkRead, runMessage_delivered _ d, hkReadBody, withLength_of_mem (show p.length ∈ [8] by simp [hlen]),
    withFields_of_none hgood, onDomain_of_access hw]
  split <;> rfl
end

/-! ### Triggers and the queue (R296, R297) -/

section
variable {s : State} (hready : s.pwr.ready.getLsbD 10 = true)
include hready

theorem exec_hkTrigger {n : Nat} (hn : n < 64) : exec (.hkTrigger n) s = .next (
    let p := notePins s
    if triggerable p n then
      let w := triggered n p
      if slotBusy w n then statAdd 0x1C n 0 1 w
      else { w with hk := { w.hk with delayed := s.hk.delayed ++ [(n, nowU w + ((slotOf s n).delay * 10 * nsU : Nat))] } }
    else p) := by
  obtain ⟨level, rise, hp⟩ := notePins_eq s
  obtain ⟨tm, conv, pulse, ht⟩ := triggered_eq n (notePins s)
  have hdelayed : (triggered n (notePins s)).hk.delayed = s.hk.delayed := by rw [ht]; simp
  have hslot : slotOf (notePins s) n = slotOf s n := by simp [slotOf]
  simp only [exec, execHkTrigger, hn, hslot, hdelayed, notePins_frame, hready, true_and]
  split
  · split <;> rfl
  · rfl

/-- A slot whose delay has passed joins its queue, or has been overrun (R296, R297). -/
theorem exec_hkSlotQueued {n : Nat} {e : Nat × Instant} (he : s.hk.delayed.find? (fun e => decide (e.1 = n)) = some e) :
    exec (.hkSlotQueued n) s = .next (
      let c := (slotOf s n).converter
      let w := settleConv c (advanceTo e.2 { s with hk := { s.hk with delayed := s.hk.delayed.erase e } })
      if slotBusy w n then statAdd 0x1C n 0 1 w
      else setConv c { wakeConv w (convOf w c) with queue := enqueueSlot (e.2, n) (convOf w c).queue } w) := by
  simp only [exec, execHkSlotQueued, he, hready, if_true]

theorem hkSlotQueued_joins {n : Nat} {e : Nat × Instant} (he : s.hk.delayed.find? (fun e => decide (e.1 = n)) = some e) :
    let c := (slotOf s n).converter
    let w := settleConv c (advanceTo e.2 { s with hk := { s.hk with delayed := s.hk.delayed.erase e } })
    slotBusy w n = false → ∃ t, exec (.hkSlotQueued n) s = .next t ∧ (convOf t c).queue = enqueueSlot (e.2, n) (convOf w c).queue ∧
      (convOf t c).powered = true ∧ t.hk.delayed = s.hk.delayed.erase e ∧ t = { w with hk := t.hk } := by
  intro c w hfree
  obtain ⟨x, hx⟩ := settleConv_eq c (advanceTo e.2 { s with hk := { s.hk with delayed := s.hk.delayed.erase e } })
  refine ⟨setConv c { wakeConv w (convOf w c) with queue := enqueueSlot (e.2, n) (convOf w c).queue } w,
    (exec_hkSlotQueued hready he).trans (congrArg _ (if_neg (Bool.eq_false_iff.mp hfree))), by simp, by simp [wakeConv_powered], ?_, rfl⟩
  show w.hk.delayed = _
  rw [show w = _ from hx]
  rfl

end

/-! ### Conversions (R294, R295, R299) -/

/-- Where no comparator is enabled, none judges. -/
theorem judgeWindow_disabled (n value : Nat) {t : State} (h : ∀ k, (windowOf t k).enable = false) (l : List Nat) :
    l.foldl (judgeWindow n value) t = t := by
  induction l with
  | nil => rfl
  | cons k l ih => rw [List.foldl_cons, show judgeWindow n value t k = t by simp [judgeWindow, h], ih]

/-- The state in which slot n of converter c has stored its result: four times the mean of its codes, valid, with the time. -/
def withResult (c n : Nat) (s : State) : State := { s with hk := { s.hk with
  conv := tset {} s.hk.conv c { convOf s c with running := none, sum := 0, taken := 0, spoiled := false }
  fresh := s.hk.fresh.erase n
  result := tset {} s.hk.result n {
    value := (rhe ((4 * (convOf s c).sum : Nat) : Int) (Nat.max 1 (slotOf s n).avg)).toNat, valid := true,
    count := ((resultOf s n).count + 1) % 2 ^ 32, time := nowU s } } }

/-- A slot whose conversions are valid stores a valid result (R294). -/
theorem storeResult_valid {c n : Nat} {s : State} (hspoiled : (convOf s c).spoiled = false) (hfresh : n ∉ s.hk.fresh)
    (hwindow : ∀ k, (windowOf s k).enable = false) : storeResult c n s = withResult c n s := by
  unfold storeResult
  simp only [hspoiled, hfresh, decide_false, Bool.not_false, Bool.and_true, Bool.not_true, Bool.false_and, if_true, Bool.false_eq_true, if_false]
  refine (judgeWindow_disabled _ _ ?_ _).trans ?_
  · exact hwindow
  · rfl

/-- The end of a conversion is an instant: nothing but time moves. -/
theorem endConversion_eq (c : Nat) (s : State) : endConversion c s = { s with tm := (endConversion c s).tm } := advanceTo_eq _ s

/-- Re-checked or not, a converter has no orphan but its own, and the results stay. -/
theorem recheck_keeps (c p gain code : Nat) (s : State) :
    (convOf (recheck c p gain code s) c).orphan = (convOf s c).orphan ∧ (recheck c p gain code s).hk.result = s.hk.result := by
  simp only [convOf, recheck_hk]
  exact ⟨by simp [rechecked, setConv, convOf], by simp [rechecked, setConv]⟩

section
variable {s : State} {c : Nat} (hready : s.pwr.ready.getLsbD 10 = true) (hc : c < 2) (code rck : Nat)
include hready hc

/-- A conversion that ends a slot of one sample stores its result (R294, R299). -/
theorem hkConversion_stores {n : Nat} (horphan : (convOf s c).orphan = none) (hrun : (convOf s c).running = some n)
    (hsum : (convOf s c).sum = 0) (htaken : (convOf s c).taken = 0) (hspoiled : (convOf s c).spoiled = false)
    (hleft : (convOf s c).invalidLeft = 0) (havg : (slotOf s n).avg = 1) (hfresh : n ∉ s.hk.fresh)
    (hwindow : ∀ k, (windowOf s k).enable = false) (hmask : s.hk.ocMask = 0) :
    let w := endConversion c s
    ∃ t, exec (.hkConversionComplete c code rck) s = .next t ∧
      resultOf t n = { value := 4 * (code % 16384), valid := true, count := ((resultOf s n).count + 1) % 2 ^ 32, time := nowU w } ∧
      (∀ m, m ≠ n → resultOf t m = resultOf s m) ∧ (convOf t c).running = none ∧
      (convOf t c).prev = some ((slotOf s n).channel, (slotOf s n).sub, (slotOf s n).gain) ∧
      t = { s with hk := t.hk, tm := w.tm } := by
  intro w
  have hw := endConversion_eq c s
  have hconv : convOf w c = convOf s c := by simp only [convOf, w]; rw [hw]
  have hslot : slotOf w n = slotOf s n := by simp only [slotOf, w]; rw [hw]
  let v : Conv := { convOf s c with
    powered := true, since := nowU w, prev := some ((slotOf s n).channel, (slotOf s n).sub, (slotOf s n).gain),
    invalidLeft := 0, sum := code % 16384, taken := 1, spoiled := false }
  have hstore : storeResult c n (setConv c v w) = withResult c n (setConv c v w) := storeResult_valid (by simp [v])
    (by show n ∉ w.hk.fresh; simp only [w]; rw [hw]; exact hfresh)
    (fun k => by show (windowOf w k).enable = false; simp only [windowOf, w]; rw [hw]; exact hwindow k)
  have hmask' : (withResult c n (setConv c v w)).hk.ocMask = 0 := by
    show w.hk.ocMask = 0
    simp only [w]
    rw [hw]
    exact hmask
  refine ⟨withResult c n (setConv c v w), ?_, ?_, ?_, ?_, ?_, ?_⟩
  · have hover : ∀ ch gain k, overLimit (withResult c n (setConv c v w)) ch gain k = false := fun ch gain k => by simp [overLimit, hmask']
    simp only [exec, execHkConversionComplete, hc, hready, horphan, takeSlot, hrun, true_and, if_true]
    simp only [show endConversion c s = w from rfl, hconv, hslot, hleft, hsum, htaken, hspoiled, havg]
    simp [v] at hstore hover
    simp [v, hstore, hover]
  · have hvalue : (rhe ((4 * (code % 16384) : Nat) : Int) 1).toNat = 4 * (code % 16384) := by
      have := rhe_mul_self (4 * (code % 16384) : Nat) (d := 1) (by decide)
      simp only [Nat.cast_one, mul_one] at this
      rw [this, Int.toNat_natCast]
    have hslot' : slotOf (setConv c v w) n = slotOf s n := hslot
    have hresult' : resultOf (setConv c v w) n = resultOf s n := by show resultOf w n = _; simp only [resultOf, w]; rw [hw]
    simp only [resultOf, withResult, tget_tset_self, hslot', havg, convOf_setConv, if_true]
    rw [← resultOf, hresult']
    simp only [v, Nat.max_self, hvalue]
    rfl
  · intro m hm
    simp only [resultOf, withResult, tget_tset_ne _ _ _ hm]
    show tget {} w.hk.result m = _
    simp only [w]
    rw [hw]
  · simp [withResult, convOf]
  · simp [withResult, convOf, setConv, v]
  · exact congrArg (fun t : State => { t with hk := (withResult c n (setConv c v w)).hk }) hw

/-- The conversion that a new configuration left running ends, and its result is discarded (R295). -/
theorem hkOrphan_discarded {o : Orphan} (horphan : (convOf s c).orphan = some o) :
    ∃ t, exec (.hkConversionComplete c code rck) s = .next t ∧ (convOf t c).orphan = none ∧ t.hk.result = s.hk.result := by
  refine ⟨endOrphan c o (code % 16384) (rck % 16384) s, by simp [exec, execHkConversionComplete, hc, hready, horphan], ?_⟩
  have hresult : (endConversion c s).hk.result = s.hk.result := by rw [endConversion_eq]
  unfold endOrphan
  dsimp only
  split
  · obtain ⟨ho, hr⟩ := recheck_keeps c o.channel o.gain (rck % 16384) (setConv c
      { convOf (endConversion c s) c with
        powered := true, since := nowU (endConversion c s), prev := some (o.channel, o.sub, o.gain), orphan := none } (endConversion c s))
    exact ⟨by simpa using ho, hr.trans hresult⟩
  · exact ⟨by simp, hresult⟩
end


theorem exec_hkPowerDown {s : State} {c : Nat} (hc : c < 2) (hpowered : (convOf s c).powered = true) (hrun : (convOf s c).running = none)
    (horphan : (convOf s c).orphan = none) (hqueue : (convOf s c).queue = []) : exec (.hkPowerDown c) s =
      .next (setConv c { convOf s c with powered := false } (advanceTo ((convOf s c).since + (5 * usU : Nat)) s)) := by
  simp [exec, execHkPowerDown, hc, hpowered, hrun, horphan, hqueue]

/-! ### O29 -/

/-- Settles O29: the messages answer at once (a revoked lease leaves the configuration), a slot goes from its trigger through its queue,
which an insertion keeps in order, to its result, and a re-check clears its path's channel where the code reaches the limit. -/
theorem housekeeping : Obligations.Housekeeping := by
  unfold Obligations.Housekeeping
  refine ⟨fun ring dma s w h p code hw => ⟨fun d hlen hgood => ⟨exec_hkConfigure hw d hlen hgood false, fun hfree =>
    ⟨_, exec_hkConfigure hw d hlen hgood true, hkRevoked_keeps hfree⟩⟩, hkWindow_writes hw, fun d hp => ?_, fun d hlen hop hgood => ?_⟩,
    fun s hready => ⟨fun n hn => ⟨?_, fun ht => ?_, fun ht => ⟨fun hb => ?_, fun hb => ?_, ?_⟩⟩, fun n e he =>
      ⟨fun hb => (exec_hkSlotQueued hready he).trans (congrArg _ (if_pos hb)), hkSlotQueued_joins hready he⟩,
      fun c n code rck hc horphan hrun hsum htaken hspoiled hleft havg hfresh hwindow hmask =>
        hkConversion_stores hready hc code rck horphan hrun hsum htaken hspoiled hleft havg hfresh hwindow hmask,
      fun c o code rck hc horphan => hkOrphan_discarded hready hc code rck horphan,
      fun c hc hpowered hrun horphan hqueue => exec_hkPowerDown hc hpowered hrun horphan hqueue⟩,
    fun e q => ⟨enqueueSlot_perm e q, enqueueSlot_sorted⟩,
    fun s c p gain code _ => ⟨recheck_clears, recheck_unconfirmed⟩⟩
  · subst hp
    exact (exec_hkRead hw d rfl (by decide) code).trans (congrArg _ (if_pos (by decide)))
  · exact (exec_hkRead hw d hlen hgood code).trans (congrArg _ (if_neg (by simp [hop])))
  · obtain ⟨level, rise, hp⟩ := notePins_eq s
    rw [hp]
  · exact (exec_hkTrigger hready hn).trans (by simp [ht])
  · exact (exec_hkTrigger hready hn).trans (by simp [ht, hb])
  · exact (exec_hkTrigger hready hn).trans (by simp [ht, hb])
  · obtain ⟨tm, conv, pulse, ht⟩ := triggered_eq n (notePins s)
    rw [ht]
    simp

end Sys2Proof.Machine
end

section
/-! SUPPORT. Oscillators and loops (R306 to R312): what each operation on them writes of the clocks, and from it O35. -/

namespace Sys2Proof.Machine

/-! ### The clocks -/

/-- Setting the DPLL's word writes the word alone. -/
theorem setDpllWord_eq (s : State) : setDpllWord s = { s with clk := { s.clk with word := (setDpllWord s).clk.word } } := by
  unfold setDpllWord
  split <;> rfl

@[simp] theorem setDpllWord_clocks (s : State) : (setDpllWord s).clk.active = s.clk.active ∧ (setDpllWord s).clk.osc = s.clk.osc ∧
    (setDpllWord s).clk.switches = s.clk.switches ∧ (setDpllWord s).clk.plls = s.clk.plls ∧ (setDpllWord s).clk.dpll = s.clk.dpll ∧
    (setDpllWord s).clk.unlocks = s.clk.unlocks ∧ (setDpllWord s).clk.sources = s.clk.sources ∧ (setDpllWord s).clk.ql = s.clk.ql ∧
    (setDpllWord s).clk.synceOk = s.clk.synceOk ∧ (setDpllWord s).clk.synceSince = s.clk.synceSince ∧
    (setDpllWord s).clk.comp = s.clk.comp ∧ (setDpllWord s).clk.compCount = s.clk.compCount := by
  rw [setDpllWord_eq]
  simp

/-- A DPLL in holdover: its state, the correction that it holds and its word are written. -/
@[simp] theorem dpllHold_clocks (s : State) : (dpllHold s).clk.dpll = 3 ∧ (dpllHold s).clk.plls = s.clk.plls ∧
    (dpllHold s).clk.unlocks = s.clk.unlocks ∧ (dpllHold s).clk.sources = s.clk.sources ∧ (dpllHold s).clk.ql = s.clk.ql ∧
    (dpllHold s).clk.synceOk = s.clk.synceOk ∧ (dpllHold s).clk.synceSince = s.clk.synceSince ∧ (dpllHold s).clk.active = s.clk.active := by
  unfold dpllHold takeFree
  simp

/-- A switch makes oscillator k active, counts it and raises EV_REF_SWITCH (R311). -/
theorem switchTo_switches (k row : Nat) (s : State) : (switchTo k row s).clk.active = k ∧ (switchTo k row s).clk.osc = s.clk.osc ∧
    (switchTo k row s).clk.switches = (s.clk.switches + 1) % 2 ^ 32 ∧ (switchTo k row s).ev.status.getLsbD 145 = true := by
  unfold switchTo switchEvent
  exact ⟨by simp, by simp, by simp, raise_status _ _ _ (by decide)⟩

theorem switchTo_grows (k row : Nat) (s : State) : Grows s (switchTo k row s) := by
  unfold switchTo switchEvent
  exact (raise_grows 145 _ _).after (.of_eq (by simp) (by simp))

theorem frcWord_clocks (s : State) : (frcWord s).clk.osc = s.clk.osc ∧ (frcWord s).clk.switches = s.clk.switches := by
  unfold frcWord takeFree
  split
  · exact ⟨rfl, rfl⟩
  · dsimp only
    split <;> exact ⟨rfl, rfl⟩

/-! ### Protection faults of the clocks (R343) -/

/-- Outside SELF-TEST the end of a test loses no contents. -/
theorem testLoss_of_mode {s : State} (h : s.pwr.mode ≠ .selfTest) : testLoss s = s := by
  unfold testLoss
  split
  · rfl
  · exact if_neg fun ⟨_, hmode⟩ => h hmode

/-- A refusal record writes the records and their counts alone (R338). -/
theorem recordRefusal_pwr (target reason : Nat) (name : List Byte) (s : State) : ∃ refs index total count,
    (recordRefusal target reason name s).pwr = { s.pwr with refs := refs, refIndex := index, refTotal := total, refCount := count } :=
  ⟨_, _, _, _, by simp only [recordRefusal, raise_frame]; rfl⟩

/-- Dropped transitions leave the mode. -/
theorem dropTransitions_mode (reason : Nat) (name : List Byte) (s : State) : (dropTransitions reason name s).pwr.mode = s.pwr.mode := by
  have hrecord : ∀ t (w : State), (recordRefusal t reason name w).pwr.mode = w.pwr.mode := fun t w => by
    obtain ⟨refs, index, total, count, h⟩ := recordRefusal_pwr t reason name w
    rw [h]
  unfold dropTransitions
  cases s.pwr.trans <;> dsimp only
  all_goals split <;> simp [hrecord]

/-- A protection fault in an OPERATE mode with nothing in flight leaves the clocks and time alone. -/
theorem protect_keeps_clocks {s : State} (hmode : isOperate s.pwr.mode = true) (htrans : s.pwr.trans = none) (cause reg : Nat) :
    (protect cause reg s).clk = s.clk ∧ (protect cause reg s).tm = s.tm := by
  have hreset : ¬(s.pwr.mode = .reset ∨ s.pwr.mode = .thermalLatch) := by rintro (h | h) <;> simp [h, isOperate] at hmode
  have hhold : s.pwr.mode ≠ .safeHold := by rintro h; simp [h, isOperate] at hmode
  have htest : s.pwr.mode ≠ .selfTest := by rintro h; simp [h, isOperate] at hmode
  have hidle : ¬protecting s = true := by simp [protecting, protectiveEntry, htrans]
  have hends : (protectEnds 3 s).clk = s.clk ∧ (protectEnds 3 s).tm = s.tm := by
    unfold protectEnds
    dsimp only
    rw [testLoss_of_mode (by simpa [dropTransitions_mode] using htest)]
    constructor <;> (split <;> split <;> simp)
  simp [protect, hreset, hidle, hhold, hends]

/-- What stands before the protection fault of FRC-only operation (R314). -/
theorem frcOnly_protects (s : State) : ∃ v, frcOnly s = protect 6 0 v ∧ v.pwr = s.pwr ∧ v.clk.active = 3 ∧ v.tm.fine = false ∧
    v.clk.osc = s.clk.osc ∧ v.clk.switches = s.clk.switches :=
  have ⟨hosc, hswitches⟩ := frcWord_clocks s
  ⟨_, rfl, by simp, by simp, rfl, by simp [hosc], by simp [hswitches]⟩

/-- FRC-only operation entered from an OPERATE mode: time is coarse and the entry into SAFE-HOLD begins with cause 6. -/
theorem frcOnly_holds {s : State} (hmode : isOperate s.pwr.mode = true) (htrans : s.pwr.trans = none) : ∃ tr,
    (frcOnly s).pwr.trans = some tr ∧ tr.target = .safeHold ∧ (frcOnly s).pwr.cause = 6 ∧ (frcOnly s).clk.active = 3 ∧
    (frcOnly s).tm.fine = false ∧ (frcOnly s).clk.osc = s.clk.osc ∧ (frcOnly s).clk.switches = s.clk.switches := by
  obtain ⟨v, hv, hpwr, hactive, hfine, hosc, hswitches⟩ := frcOnly_protects s
  obtain ⟨tr, htr, htarget, hcause⟩ := protect_starts (s := v) (by rwa [hpwr]) (by rwa [hpwr]) 6 0
  obtain ⟨hclk, htm⟩ := protect_keeps_clocks (s := v) (by rwa [hpwr]) (by rwa [hpwr]) 6 0
  rw [hv, hclk, htm]
  exact ⟨tr, htr, htarget, hcause, hactive, hfine, hosc, hswitches⟩

/-! ### Trips (R308, R310 to R312) -/

section
variable {s : State} {k cause : Nat} (hk : k < 2) (hcause : cause = 1 ∨ cause = 2) (v : Int) (hqual : oscOf s k = 2)
include hk hcause hqual

/-- The active oscillator trips while the other is qualified: a switch to the other. -/
theorem tripOsc_switches (hother : oscOf s (1 - k) = 2) (hactive : s.clk.active = k) : let t := tripOsc k cause v s
    oscOf t k = 3 ∧ oscOf t (1 - k) = 2 ∧ t.clk.active = 1 - k ∧ t.clk.switches = (s.clk.switches + 1) % 2 ^ 32 ∧
    t.ev.status.getLsbD 144 = true ∧ t.ev.status.getLsbD 145 = true ∧ t.pwr = s.pwr := by
  have hne : 1 - k ≠ k := by omega
  have htrip : tripOsc k cause v s = switchTo (1 - k) 1 (raise 144 (det k cause (1 - k) 0 (arg32 v)) (setOsc k 3 s)) := by
    simp [tripOsc, fallback, hk, hcause, hqual, hactive, hother, hne]
  intro t
  obtain ⟨hact, hosc, hswitches, hevent⟩ := switchTo_switches (1 - k) 1 (raise 144 (det k cause (1 - k) 0 (arg32 v)) (setOsc k 3 s))
  have hosc' : ∀ j, oscOf t j = if j = k then 3 else oscOf s j := fun j => by
    rw [← oscOf_setOsc]
    simp only [t, htrip, oscOf, hosc]
    simp
  refine ⟨by simp [hosc'], by simp [hosc', hne, hother], by rw [show t = _ from htrip, hact], by rw [show t = _ from htrip, hswitches]; simp [setOsc], ?_,
    by rw [show t = _ from htrip, hevent], by rw [show t = _ from htrip]; simp⟩
  rw [show t = _ from htrip]
  exact (switchTo_grows _ _ _).status 144 (raise_status _ _ _ (by decide))

/-- The other oscillator trips: it is failed, and the active one goes on. -/
theorem tripOsc_fails (hactive : s.clk.active ≠ k) : let t := tripOsc k cause v s
    (∀ j, oscOf t j = if j = k then 3 else oscOf s j) ∧ t.clk = { s.clk with osc := t.clk.osc } ∧ t.pwr = s.pwr := by
  have htrip : tripOsc k cause v s = raise 144 (det k cause s.clk.active 0 (arg32 v)) (setOsc k 3 s) := by
    simp [tripOsc, hk, hcause, hqual, hactive]
  intro t
  rw [show t = _ from htrip]
  refine ⟨fun j => ?_, by simp [setOsc], by simp⟩
  rw [← oscOf_setOsc]
  simp [oscOf]

/-- The active oscillator trips with no other to switch to or to wait for: FRC-only operation. -/
theorem tripOsc_frcOnly (hcounting : oscOf s (1 - k) ≠ 1) (hother : oscOf s (1 - k) ≠ 2) (hactive : s.clk.active = k)
    (hmode : isOperate s.pwr.mode = true) (htrans : s.pwr.trans = none) : ∃ tr, let t := tripOsc k cause v s
    t.pwr.trans = some tr ∧ tr.target = .safeHold ∧ t.pwr.cause = 6 ∧ t.clk.active = 3 ∧ t.tm.fine = false ∧
    (∀ j, oscOf t j = if j = k then 3 else oscOf s j) ∧ t.clk.switches = s.clk.switches := by
  have hne : 1 - k ≠ k := by omega
  have htrip : tripOsc k cause v s = frcOnly (raise 144 (det k cause 3 0 (arg32 v)) (setOsc k 3 s)) := by
    simp [tripOsc, fallback, hk, hcause, hqual, hactive, hcounting, hother, hne]
  obtain ⟨tr, htr, htarget, hc, hact, hfine, hosc, hswitches⟩ :=
    frcOnly_holds (s := raise 144 (det k cause 3 0 (arg32 v)) (setOsc k 3 s)) (by simpa using hmode) (by simpa using htrans)
  refine ⟨tr, ?_⟩
  dsimp only
  rw [htrip]
  refine ⟨htr, htarget, hc, hact, hfine, fun j => ?_, by rw [hswitches]; simp [setOsc]⟩
  rw [← oscOf_setOsc]
  simp only [oscOf, hosc]
  simp
end

/-- Both oscillators trip, in oscillator order: the active one is left for the other, if at all, and then FRC-only operation. -/
theorem tripBoth_frcOnly {s : State} {c d : Nat} (hc : c = 1 ∨ c = 2) (hd : d = 1 ∨ d = 2) (v w : Int) (hzero : oscOf s 0 = 2)
    (hone : oscOf s 1 = 2) (hactive : s.clk.active < 2) (hmode : isOperate s.pwr.mode = true) (htrans : s.pwr.trans = none) :
    ∃ tr, let t := tripOsc 1 d w (tripOsc 0 c v s)
    oscOf t 0 = 3 ∧ oscOf t 1 = 3 ∧ t.clk.active = 3 ∧
    t.clk.switches = (if s.clk.active = 0 then (s.clk.switches + 1) % 2 ^ 32 else s.clk.switches) ∧
    t.pwr.trans = some tr ∧ tr.target = .safeHold ∧ t.pwr.cause = 6 := by
  have hfirst : oscOf (tripOsc 0 c v s) 0 = 3 ∧ oscOf (tripOsc 0 c v s) 1 = 2 ∧ (tripOsc 0 c v s).clk.active = 1 ∧
      (tripOsc 0 c v s).clk.switches = (if s.clk.active = 0 then (s.clk.switches + 1) % 2 ^ 32 else s.clk.switches) ∧
      (tripOsc 0 c v s).pwr = s.pwr := by
    by_cases h : s.clk.active = 0
    · obtain ⟨h0, h1, ha, hs, -, -, hp⟩ := tripOsc_switches (s := s) (k := 0) (by decide) hc v hzero hone h
      exact ⟨h0, h1, ha, by rw [if_pos h, hs], hp⟩
    · obtain ⟨ho, hclk, hp⟩ := tripOsc_fails (s := s) (k := 0) (by decide) hc v hzero h
      exact ⟨by simp [ho], by simp [ho, hone], by rw [hclk]; show s.clk.active = 1; omega, by rw [hclk, if_neg h], hp⟩
  obtain ⟨h0, h1, ha, hs, hp⟩ := hfirst
  obtain ⟨tr, htr, htarget, hcause, hact, -, hosc, hswitches⟩ := tripOsc_frcOnly (k := 1) (by decide) hd w h1
    (by simp [h0]) (by simp [h0]) ha (by rwa [hp]) (by rwa [hp])
  exact ⟨tr, by simp [hosc, h0], by simp [hosc], hact, hswitches.trans hs, htr, htarget, hcause⟩

/-! ### Loops (R306, R316) -/

theorem exec_pllUnlock_dpll {s : State} (hlock : s.clk.plls.getLsbD 0 = true) : ∃ t, exec (.pllUnlock 0) s = .next t ∧
    t.clk.plls.getLsbD 0 = false ∧ t.clk.dpll = 3 ∧ tget 0 t.clk.unlocks 0 = (tget 0 s.clk.unlocks 0 + 1) % 2 ^ 32 ∧
    t.ev.status.getLsbD 148 = true ∧ t.pwr = s.pwr := by
  refine ⟨_, by simp only [exec, execPllUnlock, hlock]; rfl, by simp, by simp, by simp, ?_, by simp⟩
  rw [(dpllHold_frame _).2.1]
  exact raise_status _ _ _ (by decide)

/-- CONV-PLL and SYS-PLL are protected: their loss in an OPERATE mode starts the entry into SAFE-HOLD with cause 4. -/
theorem exec_pllUnlock_protected {s : State} {k : Nat} (hk : k = 1 ∨ k = 2) (hlock : s.clk.plls.getLsbD k = true)
    (hmode : isOperate s.pwr.mode = true) (htrans : s.pwr.trans = none) : ∃ t tr, exec (.pllUnlock k) s = .next t ∧ t.pwr.trans = some tr ∧
    tr.target = .safeHold ∧ t.pwr.cause = 4 ∧ t.clk.plls.getLsbD k = false ∧ (k = 1 → t.tm.fine = false) := by
  have hprotect : ∀ w : State, w.pwr = s.pwr → w.clk.plls = s.clk.plls &&& ~~~BitVec.twoPow 5 k → (k = 1 → w.tm.fine = false) → ∃ tr,
      (protect 4 0 w).pwr.trans = some tr ∧ tr.target = .safeHold ∧ (protect 4 0 w).pwr.cause = 4 ∧
      (protect 4 0 w).clk.plls.getLsbD k = false ∧ (k = 1 → (protect 4 0 w).tm.fine = false) := fun w hp hl hf => by
    obtain ⟨tr, htr, htarget, hcause⟩ := protect_starts (s := w) (by rwa [hp]) (by rwa [hp]) 4 0
    obtain ⟨hclk, htm⟩ := protect_keeps_clocks (s := w) (by rwa [hp]) (by rwa [hp]) 4 0
    exact ⟨tr, htr, htarget, hcause, by rw [hclk, hl]; rcases hk with rfl | rfl <;> simp, by rw [htm]; exact hf⟩
  rcases hk with rfl | rfl
  · obtain ⟨tr, h⟩ := hprotect { raise 148 (det 1 0 0 0 ((tget 0 s.clk.unlocks 1 + 1) % 2 ^ 32)) { s with clk := { s.clk with
      plls := s.clk.plls &&& ~~~BitVec.twoPow 5 1, unlocks := tset 0 s.clk.unlocks 1 ((tget 0 s.clk.unlocks 1 + 1) % 2 ^ 32) } } with
      tm := { s.tm with fine := false } } (by simp) (by simp) (by simp)
    exact ⟨_, tr, by simp [exec, execPllUnlock, hlock], h⟩
  · obtain ⟨tr, h⟩ := hprotect (raise 148 (det 2 0 0 0 ((tget 0 s.clk.unlocks 2 + 1) % 2 ^ 32)) { s with clk := { s.clk with
      plls := s.clk.plls &&& ~~~BitVec.twoPow 5 2, unlocks := tset 0 s.clk.unlocks 2 ((tget 0 s.clk.unlocks 2 + 1) % 2 ^ 32) } })
      (by simp) (by simp) (by simp)
    exact ⟨_, tr, by simp [exec, execPllUnlock, hlock], h⟩

theorem exec_pllQualified_conv {s : State} (hrun : pllsRun s = true) : exec (.pllQualified 1) s =
    .next { s with clk := { s.clk with plls := s.clk.plls ||| 2 }, tm := { s.tm with fine := true } } := by
  simp [exec, execPllQualified, hrun]
  rfl

theorem exec_pllQualified_sys {s : State} (hrun : pllsRun s = true) : exec (.pllQualified 2) s =
    .next { s with clk := { s.clk with plls := s.clk.plls ||| 4 } } := by
  simp [exec, execPllQualified, hrun]
  rfl

/-! ### O35 -/

/-- Settles O35: a switch, a failure and FRC-only operation are what a trip can do; two trips at once compose them. -/
theorem loopsAndOscillators : Obligations.LoopsAndOscillators := by
  unfold Obligations.LoopsAndOscillators
  refine ⟨fun s => ⟨exec_pllUnlock_dpll, fun k hk hlock hmode htrans => exec_pllUnlock_protected hk hlock hmode htrans,
    fun hrun => ⟨_, exec_pllQualified_conv hrun, rfl, rfl, rfl⟩, exec_pllQualified_sys,
    fun tr hlock htrans => by simp only [exec, execPllQualifyTimeout, hlock, htrans]; rfl⟩,
    fun s => ⟨fun k hk hcount hactive => ?_, fun k hk hcount hsearch hactive => ?_, fun k hk cause hcause v hqual hother hactive => ?_,
      fun k hk cause hcause v hqual hcounting hother hactive hmode htrans => ?_, fun k hk c d hc hd v w hzero hone hactive hmode htrans => ?_,
      fun hfailed hmode hactive hother => ?_, fun hactive hqual hrevert => ?_, fun k v hk hmode => ?_, fun v hzero hone => ?_⟩⟩
  · refine ⟨setDpllWord { setOsc k 2 s with clk := { (setOsc k 2 s).clk with active := k } },
      by simp [exec, execOscQualified, hk, hcount, hactive], by simp [oscOf, setOsc], by simp, ?_⟩
    rw [setDpllWord_eq]
    rfl
  · have h2 : ¬1 - k = 2 := by omega
    have h3 : ¬1 - k = 3 := by omega
    simp [exec, execOscQualifyTimeout, hk, hcount, hsearch, hactive, h2, h3]
  · have h3 : cause ≠ 3 := by omega
    obtain ⟨ho, -, ha, hs, he, he', hp⟩ := tripOsc_switches hk hcause v hqual hother hactive
    exact ⟨_, by simp only [exec, execRefMonitorTrip, h3, if_false], ho, ha, hs, he, he', hp⟩
  · have h3 : cause ≠ 3 := by omega
    obtain ⟨tr, htr, htarget, hc, ha, hf, -⟩ := tripOsc_frcOnly hk hcause v hqual hcounting hother hactive hmode htrans
    exact ⟨_, tr, by simp only [exec, execRefMonitorTrip, h3, if_false], ha, htr, htarget, hc, hf⟩
  · have h3 : c ≠ 3 := by omega
    obtain rfl | rfl : k = 0 ∨ k = 1 := by omega
    · obtain ⟨tr, h⟩ := tripBoth_frcOnly hc hd v w hzero hone hactive hmode htrans
      exact ⟨_, tr, by simp [exec, execRefMonitorTrip, h3], h⟩
    · obtain ⟨tr, h⟩ := tripBoth_frcOnly hd hc w v hzero hone hactive hmode htrans
      exact ⟨_, tr, by simp [exec, execRefMonitorTrip, h3], h⟩
  · simp [exec, execOscRetry, hfailed, hmode, hactive, hother]
  · obtain ⟨ha, -, hs, he⟩ := switchTo_switches 0 4 (advanceSince s.clk.aQualSince 14745600000 s)
    exact ⟨_, by simp [exec, execXtalARevert, hactive, hqual, hrevert], ha, by rw [hs]; simp, he⟩
  · simp [exec, execMonitorWindowEnd, hk, hmode]
  · simp [exec, execMonitorWindowEnd, hzero, hone]

end Sys2Proof.Machine
end

section
/-! SUPPORT. SyncE, crystal compensation, `clk.sources` and the frequency counter (R313, R315, R325, R326, R331), and from them O36. -/

namespace Sys2Proof.Machine

/-! ### SyncE (R313, R315) -/

/-- A qualified SyncE input that fails: the DPLL goes into holdover and EV_REF_TRIP and EV_HOLDOVER are raised. -/
theorem synceTrip_holds (cause : Nat) (v : Int) {s : State} (hok : s.clk.synceOk = true) : let t := synceTrip cause v s
    t.clk.ql = s.clk.ql ∧ t.clk.synceOk = false ∧ t.clk.dpll = 3 ∧ t.clk.synceSince = s.tm.raw ∧ t.ev.status.getLsbD 144 = true ∧
    t.ev.status.getLsbD 146 = true := by
  dsimp only
  simp only [synceTrip, synceLost, hok, if_true, holdoverEvent]
  exact ⟨by simp, by simp, by simp, by simp, raise_status _ _ _ (by decide),
    (raise_grows 144 _ _).status 146 (raise_status _ _ _ (by decide))⟩

/-! ### `clk.sources` (R326) -/

/-- A write with no oscillator active leaves none active. -/
theorem oscWrite_inactive (p : List Byte) (k : Nat) (hk : k < 2) {s : State} (h : s.clk.active = 3) :
    (oscWrite p k s).clk.active = 3 := by
  have hne : ¬3 = k := by omega
  unfold oscWrite
  rw [h, if_neg hne]
  split
  · exact h
  · exact h

theorem inputWrite_active (p : List Byte) (s : State) : (inputWrite p s).clk.active = s.clk.active := by
  unfold inputWrite
  dsimp only
  split
  · rfl
  · by_cases h : u s.clk.sources 3 1 = 0 <;> simp [h]

theorem minimumQl_sources (before s : State) : (minimumQl before s).clk.sources = s.clk.sources := by
  unfold minimumQl synceTrip synceLost
  dsimp only
  by_cases h1 : u s.clk.sources 3 1 = 1 <;> by_cases h2 : qlGood s s.clk.ql <;> by_cases h3 : s.clk.synceOk <;>
    by_cases h4 : qlGood before s.clk.ql <;> simp [h1, h2, h3, h4]

/-- `clk.sources` with a valid write in FRC-only operation: the settings are the ones written. -/
theorem clkSourcesBody_frcOnly {a : Asker} {p : List Byte} {s : State} (hlen : p.length = 32) (hgood : firstBad (clkChecks p) = none)
    (hactive : s.clk.active = 3) : ∃ v, clkSourcesBody a p s = ok (clkReport v) v ∧ v.clk.sources = p ∧ v.pwr = s.pwr := by
  let w := inputWrite p (oscWrite p 1 (oscWrite p 0 s))
  have hw : w.clk.active = 3 := by
    simp only [w, inputWrite_active]
    exact oscWrite_inactive p 1 (by decide) (oscWrite_inactive p 0 (by decide) hactive)
  refine ⟨minimumQl s { w with clk := { w.clk with sources := p } }, ?_, by rw [minimumQl_sources], by simp [w]⟩
  have hne : p ≠ [] := fun h => by simp [h] at hlen
  simp only [clkSourcesBody, withLength_of_mem (show p.length ∈ [32, 0] by simp [hlen]), hne, if_false, withFields_of_none hgood, hactive,
    show ¬3 < 2 by decide, false_and]
  simp [hw, w]

/-! ### `clk.measure` (R331) -/

/-- The taps and the gate of a start lie in their ranges. -/
def measureStarts (p : List Byte) : Prop := u p 1 1 ≤ 31 ∧ u p 2 1 ≤ 31 ∧ u p 1 1 ≠ u p 2 1 ∧ 10 ≤ u p 3 1 ∧ u p 3 1 ≤ 30

section
variable {ring : Nat} {dma : List Byte} {s : State} {h : Hdr} {p : List Byte} (d : Delivered 0x0704 ring dma s h p)
  (hlen : p.length = 8) (hzero : slice p 4 4 = zeros 4)
include d hlen hzero

/-- A well-formed `clk.measure` is answered by its operation. -/
theorem exec_clkMeasure (hop : u p 0 1 ≤ 2) (hstart : u p 0 1 = 1 → measureStarts p) : exec (.clkMeasure ring dma) s =
    .next (settle (askerOf ring h s) (consumed ring h s) s (
      let w := consumed ring h s
      match u p 0 1 with
      | 0 => ok [] { w with clk := { w.clk with mState := 0 } }
      | 1 =>
        if w.clk.mState = 1 then err stBusy 0 w
        else
          let v := { w with clk := { w.clk with mState := 1, mTap := u p 1 1, mRef := u p 2 1, mGate := u p 3 1, mRatio := 0, mElapsed := 0 } }
          ok (measureReport v) v
      | _ =>
        if w.clk.mState = 1 then
          let v := { (takeFree w).2 with clk := { w.clk with mElapsed := (takeFree w).1 % 2 ^ w.clk.mGate } }
          ok (measureReport v) v
        else ok (measureReport w) w)) := by
  simp only [exec, execClkMeasure, runMessage_delivered _ d, clkMeasureBody, withLength_of_mem (show p.length ∈ [8] by simp [hlen])]
  rw [withFields_of_good]
  · rfl
  · have hz := isZero_of_slice hzero
    by_cases h1 : u p 0 1 = 1
    · obtain ⟨htap, href, hne, hlow, hhigh⟩ := hstart h1
      simp [inRange, hz, h1, htap, href, hne, hlow, hhigh]
    · simp [inRange, hz, h1, hop]
end

theorem exec_clkMeasureDone {s : State} (hrun : s.clk.mState = 1) (n : Nat) : let ratio := (rhe ((n * 2 ^ 32 : Nat) : Int) (2 ^ s.clk.mGate)).toNat
    (∃ e, e < 2 ^ s.clk.mGate ∧ exec (.clkMeasureDone n false) s =
      .next { s with fresh := s.fresh + 1, clk := { s.clk with mState := 3, mElapsed := e } }) ∧
    (2 ^ 48 ≤ ratio → ∃ r, r < 2 ^ 48 ∧ exec (.clkMeasureDone n true) s =
      .next { s with fresh := s.fresh + 1, clk := { s.clk with mState := 4, mRatio := r, mElapsed := 2 ^ s.clk.mGate } }) ∧
    (ratio < 2 ^ 48 → exec (.clkMeasureDone n true) s =
      .next { s with clk := { s.clk with mState := 2, mRatio := ratio, mElapsed := 2 ^ s.clk.mGate } }) := by
  intro ratio
  refine ⟨⟨(takeFree s).1 % 2 ^ s.clk.mGate, Nat.mod_lt _ (by positivity), by simp only [exec, execClkMeasureDone, hrun]; rfl⟩,
    fun h => ⟨(takeFree s).1 % 2 ^ 48, Nat.mod_lt _ (by positivity), ?_⟩, fun h => ?_⟩
  · simp only [exec, execClkMeasureDone, hrun, if_true, Bool.not_true, Bool.false_eq_true, if_false]
    rw [if_pos h]
    rfl
  · simp only [exec, execClkMeasureDone, hrun, if_true, Bool.not_true, Bool.false_eq_true, if_false]
    rw [if_neg (Nat.not_le.mpr h)]

/-! ### O36 -/

/-- Settles O36: a failed SyncE input holds the DPLL until it is qualified again; the correction moves by a clamped step; the messages
report, start or abort, and the gate's end gives the ratio. -/
theorem syncEAndClockMessages : Obligations.SyncEAndClockMessages := by
  unfold Obligations.SyncEAndClockMessages
  refine ⟨fun s => ⟨fun hinput hql hok => ?_, fun v hinput hok => ?_, fun hinput hok hgood hup => ?_, fun hon hdpll hcurve => ?_, fun hoff => ?_⟩,
    fun ring dma s h d => ?_, fun ring dma s h p d hlen hgood hactive => ?_,
    fun ring dma s h p d hlen hzero => ⟨fun hop htap href hne hlow hhigh hidle => ?_, fun hop hidle => ?_, fun hop hrun => ?_, fun hop => ?_⟩,
    fun s n hrun => exec_clkMeasureDone hrun n⟩
  · obtain ⟨hql', hbad, hhold, -, htrip, hholdover⟩ := synceTrip_holds 6 0
      (s := { advanceSince s.clk.lastEsmc 7372800000 s with clk := { (advanceSince s.clk.lastEsmc 7372800000 s).clk with ql := 15 } })
      (by simpa using hok)
    exact ⟨_, by simp only [exec, execEsmcTimeout, if_pos (And.intro hinput hql)], hql', hbad, hhold, htrip, hholdover⟩
  · obtain ⟨-, hbad, hhold, hsince, htrip, -⟩ := synceTrip_holds 4 v hok
    exact ⟨_, by simp [exec, execSynceMonitorTrip, hinput], hbad, hhold, hsince, htrip⟩
  · refine ⟨_, by simp only [exec, execSynceRequalify, hinput, hok, hgood, hup]; rfl, rfl, rfl, rfl⟩
  · have hcond : ¬((u s.clk.sources 19 1).testBit 0 = false ∨ (recordData s 0x0103).isNone = true) := by
      rw [hon]
      cases h : recordData s 0x0103 <;> simp_all
    obtain ⟨hlow, hhigh⟩ := clampI_mem (lo := s.clk.comp - 28147) (hi := s.clk.comp + 28147) (by omega) (signed 48 (takeFree s).1)
    refine ⟨_, by simp only [exec, execCompensationUpdate]; rw [if_neg hcond, if_pos hdpll], ?_, ?_, ?_, ?_⟩
    · simpa using hlow
    · simpa using hhigh
    · simp [takeFree]
    · rw [setDpllWord_eq]
      rfl
  · refine ⟨_, by simp only [exec, execCompensationUpdate]; rw [if_pos hoff], by simp, ?_⟩
    rw [setDpllWord_eq]
  · simp only [exec, execClkSources, runMessage_delivered _ d, clkSourcesBody, withLength_of_mem (show [].length ∈ [32, 0] by simp), if_true, settle_ok]
  · obtain ⟨v, hv, hsources, hpwr⟩ := clkSourcesBody_frcOnly (a := askerOf ring h s) (s := consumed ring h s) hlen hgood (by simpa using hactive)
    exact ⟨v, by simp only [exec, execClkSources, runMessage_delivered _ d, hv, settle_ok], hsources, by simpa using hpwr⟩
  · rw [exec_clkMeasure d hlen hzero (by omega) fun _ => ⟨htap, href, hne, hlow, hhigh⟩]
    simp [hop, hidle, settle_ok]
  · rw [exec_clkMeasure d hlen hzero (by omega) (by omega)]
    simp [hop, hidle, settle_ok]
  · rw [exec_clkMeasure d hlen hzero (by omega) (by omega)]
    simp only [hop, consumed_clk, hrun, if_true, settle_ok]
    exact ⟨_, rfl, Nat.mod_lt _ (by positivity), rfl⟩
  · rw [exec_clkMeasure d hlen hzero (by omega) (by omega)]
    simp [hop, settle_ok]

end Sys2Proof.Machine
end

section
/-! SUPPORT. Corrected time, the servo and the phase sources (R317 to R329), and from them O37 and O38. -/

namespace Sys2Proof.Machine

/-! ### Changes of rate (R318) -/

/-- What a rate r adds to corrected time at a raw value. -/
def rateShare (r : Int) (raw : Nat) : Int := rhe ((raw * 400000 : Nat) * ((2 ^ 48 : Nat) + r)) (9 * 2 ^ 48)

theorem corrected_eq (t : Time) (raw : Nat) : corrected t raw = t.offset + rateShare t.rate raw := rfl

theorem setRate_eq (r : Int) (s : State) : setRate r s =
    { s with tm := { s.tm with offset := s.tm.offset + rateShare s.tm.rate s.tm.raw - rateShare r s.tm.raw, rate := r } } := rfl

/-- Settles O38: at Rc the offset takes back what the new rate's share differs by from the old one's. -/
theorem rateChangeKeepsTime : Obligations.RateChangeKeepsTime := by
  unfold Obligations.RateChangeKeepsTime
  intro r s
  have hnow : nowC (setRate r s) = nowC s := by
    simp only [nowC, corrected_eq, setRate_eq]
    ring
  refine ⟨rfl, rfl, hnow, fun n => ?_⟩
  have hraw : (advanceRaw n (setRate r s)).tm.raw = (advanceRaw n s).tm.raw := rfl
  rw [← hnow]
  show (setRate r s).tm.offset + rateShare r (advanceRaw n (setRate r s)).tm.raw - ((setRate r s).tm.offset + rateShare r s.tm.raw) =
    rateShare r (advanceRaw n s).tm.raw - rateShare r s.tm.raw
  rw [hraw]
  ring

/-! ### The servo (R320, R323) -/

@[simp] theorem setServo_keeps (n : Nat) (s : State) : (setServo n s).tm.servo = n ∧ (setServo n s).tm.rate = s.tm.rate ∧
    (setServo n s).tm.integ = s.tm.integ ∧ (setServo n s).tm.offset = s.tm.offset ∧ (setServo n s).tm.settings = s.tm.settings ∧
    (setServo n s).tm.master = s.tm.master := by
  unfold setServo
  split <;> simp [*]

theorem dpllFollows_tm (before : Nat) (s : State) : (dpllFollows before s).tm = s.tm := by simp

/-- What a holdover of the servo keeps of time. -/
@[simp] theorem servoHold_keeps (cause : Nat) (s : State) : (servoHold cause s).tm.servo = 3 ∧ (servoHold cause s).tm.rate = s.tm.rate ∧
    (servoHold cause s).tm.offset = s.tm.offset ∧ (servoHold cause s).tm.settings = s.tm.settings ∧
    (servoHold cause s).tm.master = s.tm.master ∧ (servoHold cause s).tm.holdCause = cause := by
  unfold servoHold
  split <;> simp [*]

@[simp] theorem servoLost_keeps (cause : Nat) (s : State) : (servoLost cause s).tm.rate = s.tm.rate ∧
    (servoLost cause s).tm.settings = s.tm.settings ∧ (servoLost cause s).tm.master = s.tm.master := by
  unfold servoLost
  split <;> simp

/-- A servo that was not in holdover raises EV_HOLDOVER as it enters it. -/
theorem servoHold_status {cause : Nat} {s : State} (h : s.tm.servo ≠ 3) : (servoHold cause s).ev.status.getLsbD 146 = true := by
  unfold servoHold
  rw [if_neg h]
  exact (dpllFollows_grows _ _).status 146 (raise_status _ _ _ (by decide))

theorem servoLock_tm (e : Int) (s : State) : (servoLock e s).tm.rate = s.tm.rate ∧ (servoLock e s).tm.integ = s.tm.integ := by
  unfold servoLock
  dsimp only
  split_ifs <;> simp

/-- The DPLL takes up a share of the command that lies between 0 and it, and nothing else changes but the free value taken (R320). -/
theorem dpllShare_between (r : Int) (s : State) : (dpllShare r s).2.tm = s.tm ∧
    ((0 ≤ (dpllShare r s).1 ∧ (dpllShare r s).1 ≤ r) ∨ (r ≤ (dpllShare r s).1 ∧ (dpllShare r s).1 ≤ 0)) := by
  unfold dpllShare takeFree
  split
  · have hmod : Config.freeValue s.fresh % (r.natAbs + 1) < r.natAbs + 1 := Nat.mod_lt _ (by omega)
    dsimp only
    refine ⟨rfl, ?_⟩
    split <;> omega
  · exact ⟨rfl, by dsimp only; omega⟩

/-- A measurement within 1 ms keeps the rate and the integral within the limit of the settings. -/
theorem servoAct_bounds {e : Int} (s : State) (hlow : -65536000000 ≤ e) (hhigh : e ≤ 65536000000) :
    ((servoAct e s).tm.rate ≤ svMaxRate s ∧ -svMaxRate s ≤ (servoAct e s).tm.rate) ∧
    (servoAct e s).tm.integ ≤ svMaxRate s ∧ -svMaxRate s ≤ (servoAct e s).tm.integ := by
  have hbig : (decide (e < -65536000000) || decide (65536000000 < e)) = false := by simp; omega
  have hm : -svMaxRate s ≤ svMaxRate s := by
    have : 0 ≤ svMaxRate s := Int.natCast_nonneg _
    omega
  unfold servoAct
  simp only [hbig, Bool.false_eq_true, if_false]
  generalize hinteg : clampI (-svMaxRate s) (svMaxRate s) (s.tm.integ - rhe ((svKi s : Int) * e) 65536) = integ
  generalize hr : clampI (-svMaxRate s) (svMaxRate s) (integ - rhe ((svKp s : Int) * e) 65536) = r
  have hinteg' := clampI_mem hm (s.tm.integ - rhe ((svKi s : Int) * e) 65536)
  have hr' := clampI_mem hm (integ - rhe ((svKp s : Int) * e) 65536)
  rw [hinteg] at hinteg'
  rw [hr] at hr'
  obtain ⟨-, hshare⟩ := dpllShare_between r s
  rw [(servoLock_tm _ _).1, (servoLock_tm _ _).2, setRate_eq]
  dsimp only
  omega

/-! ### Messages (R324, R327, R329) -/

theorem servoWrite_settings (p : List Byte) (s : State) : (servoWrite p s).tm.settings = p := by
  unfold servoWrite
  dsimp only
  split <;> split <;> simp

/-- An offset write sets the offset. -/
theorem writeOffset_offset (o : Int) (s : State) : (writeOffset o s).tm.offset = o := by
  simp [writeOffset]

/-- The answer of an offset write: the change of corrected time (R329). -/
def offsetReport (s t : State) : List Byte :=
  let d := 9 * (corrected t.tm t.tm.raw - nowC s)
  leI 8 (secOf d) ++ leBytes 4 (nsOf d) ++ leBytes 2 (fracOf d) ++ [0, 0]

theorem offsetReport_length (s t : State) : (offsetReport s t).length = 16 := by simp [offsetReport, leI_length, leBytes_length]

/-- The status of time behind its first two bytes (Table 13-10). -/
def timeRest (s : State) : List Byte :=
  let m := s.tm.master
  let o := 9 * s.tm.offset
  leBytes 1 (m.port.getD 0xFF) ++ leBytes 1 m.stepsRemoved ++ leBytes 8 m.grandmaster ++ leBytes 8 m.master ++
    leBytes 2 m.masterPort ++ leBytes 1 m.clockClass ++ [0] ++ leI 8 s.tm.lastE ++ leI 8 s.tm.meanDelay ++ leI 8 s.tm.rate ++ leI 8 (secOf o) ++
    leBytes 4 (nsOf o) ++ leBytes 2 (fracOf o) ++ leBytes 2 m.utcOffset ++
    leBytes 4 (if s.tm.servo = 3 then ticksSince s.tm.holdSince s / 1474560000 else 0) ++ leBytes 4 s.tm.measures

theorem timeRest_length (s : State) : (timeRest s).length = 70 := by simp [timeRest, leI_length, leBytes_length]

section
variable {ring : Nat} {dma : List Byte} {s : State} {h : Hdr} {p : List Byte}

theorem exec_timeSetOffset (d : Delivered 0x0702 ring dma s h p) (hlen : p.length = 40) (hop : u p 0 1 ≤ 1) (hzero : slice p 1 7 = zeros 7)
    (hns : u p 16 4 ≤ 999999999) (hzero' : slice p 22 2 = zeros 2) (hraw : u p 0 1 = 0 → u p 24 10 = 0) (hzero'' : slice p 34 6 = zeros 6)
    (hbarred : offsetBarred s.pwr.mode = false) (hfits : offsetFits (newOffset p s) s = true) :
    exec (.timeSetOffset ring dma) s = .next (answered (askerOf ring h s)
      (offsetReport (consumed ring h s) (writeOffset (newOffset p s) (consumed ring h s))) (writeOffset (newOffset p s) (consumed ring h s))) := by
  have hnew : newOffset p (consumed ring h s) = newOffset p s := by simp [newOffset]
  have hfits' : offsetFits (newOffset p s) (consumed ring h s) = true := by simpa [offsetFits] using hfits
  have hgood : ∀ c ∈ [inRange p 0 1 0 1, isZero p 1 7, inRange p 16 4 0 999999999, isZero p 22 2,
      (24, decide (u p 0 1 = 1) || decide (u p 24 10 = 0)), isZero p 34 6], c.2 = true := by
    obtain h0 | h1 : u p 0 1 = 0 ∨ u p 0 1 = 1 := by omega
    · simp [inRange, isZero_of_slice hzero, isZero_of_slice hzero', isZero_of_slice hzero'', h0, hraw h0, hns]
    · simp [inRange, isZero_of_slice hzero, isZero_of_slice hzero', isZero_of_slice hzero'', h1, hns]
  simp only [exec, execTimeSetOffset, runMessage_delivered _ d, timeSetOffsetBody, withLength_of_mem (show p.length ∈ [40] by simp [hlen]),
    withFields_of_good hgood, consumed_pwr, hbarred, hnew, hfits', Bool.false_eq_true, if_false, Bool.not_true, settle_ok, offsetReport]

theorem exec_timeStatus (d : Delivered 0x0703 ring dma s h []) : exec (.timeStatus ring dma) s = .next (answered (askerOf ring h s)
    (leBytes 1 s.tm.servo ++ leBytes 1 (if s.tm.servo = 3 then s.tm.holdCause else 0) ++ timeRest (consumed ring h s)) (consumed ring h s)) := by
  simp only [exec, execTimeStatus, runMessage_delivered _ d, timeStatusBody, withLength_of_mem (show [].length ∈ [0] by simp), settle_ok, timeRest,
    consumed_tm, List.append_assoc]
  cases s.tm.master.port <;> rfl
end

/-! ### Phase sources (R321 to R323, R328) -/

/-- A wake that is not armed does nothing. -/
theorem wakeOnce_of_unarmed {s : State} (h : s.pwr.armed = 0) (b : Nat) : wakeOnce b s = s := by
  have hand : s.pwr.armed &&& ~~~BitVec.twoPow 9 b = s.pwr.armed := by simp [h]
  have hby : wakeBy b s = s := by simp [wakeBy, h]
  simp only [wakeOnce, hby, hand]

/-- A master that the mask or the port's state keeps out is not selected, one that they admit is. -/
theorem exec_ptpMasterChange {s : State} {m : PtpMaster} (hsource : svSource s = 1)
    (hreach : ∀ p, m.port = some p → (u s.tm.settings 3 1).testBit p = true ∧ portUp s p = true) : ∃ d,
    exec (.ptpMasterChange m) s = .next (if sameMaster m s.tm.master then { s with tm := { s.tm with master := m } }
      else servoLost 2 (raise 147 d { s with tm := { s.tm with master := m } })) := by
  simp only [exec, execPtpMasterChange]
  cases hport : m.port with
  | none => exact ⟨_, by simp [hsource]; rfl⟩
  | some p =>
    obtain ⟨hmask, hup⟩ := hreach p hport
    exact ⟨_, by simp [hsource, hmask, hup]; rfl⟩

/-- Of time, waiting moves the raw counter alone. -/
theorem advanceSince_tm (from_ n : Nat) (s : State) : ∃ raw, (advanceSince from_ n s).tm = { s.tm with raw := raw } := ⟨_, rfl⟩

theorem exec_ppsEdgeTimeout {s : State} (hsource : svSource s = 2) : ∃ t, exec .ppsEdgeTimeout s = .next t ∧
    t.tm.ppsMissed = s.tm.ppsMissed + 1 ∧ t.ev.status.getLsbD 149 = true := by
  have hmissed : ∀ from_ n, (advanceSince from_ n s).tm.ppsMissed = s.tm.ppsMissed := fun from_ n => by
    obtain ⟨raw, hraw⟩ := advanceSince_tm from_ n s
    rw [hraw]
  have hexec : ∃ (w : State) (d : List Byte), w.tm.ppsMissed = s.tm.ppsMissed ∧
      exec .ppsEdgeTimeout s = .next (raise 149 d { w with tm := { w.tm with ppsMissed := w.tm.ppsMissed + 1 } }) :=
    ⟨advanceSince (s.tm.lastPps.getD s.tm.ppsSince) (1622016000 + s.tm.ppsMissed * 1474560000) s, det 0 0 0 0 (1 + s.tm.ppsMissed), hmissed _ _,
      by simp only [exec, execPpsEdgeTimeout, if_pos hsource]⟩
  obtain ⟨w, d, hw, hexec⟩ := hexec
  exact ⟨_, hexec, by simp [hw], raise_status _ _ _ (by decide)⟩

section
variable {s : State} (hsource : svSource s = 2) (harmed : s.pwr.armed = 0) (hmode : s.pwr.mode ≠ .deepSleep)
  (hready : s.pwr.ready.getLsbD 4 = true)
include hsource harmed hmode hready

theorem exec_ppsInEdge_first (hlast : s.tm.lastPps = none) :
    exec .ppsInEdge s = .next { s with tm := { s.tm with lastPps := some s.tm.raw, ppsMissed := 0 } } := by
  simp only [exec, execPpsInEdge, wakeOnce_of_unarmed harmed]
  simp [hsource, hmode, hready, hlast]

/-- An edge that follows the last one by a second, within a tenth, is measured. -/
theorem exec_ppsInEdge_measured {r : Nat} (hlast : s.tm.lastPps = some r)
    (hgap : 1327104000 ≤ s.tm.raw - r ∧ s.tm.raw - r ≤ 1622016000) : ∃ e,
    exec .ppsInEdge s = .next (servoMeasure e { s with tm := { s.tm with lastPps := some s.tm.raw, ppsMissed := 0 } }) := by
  have hcond : svSource s = 2 ∧ s.pwr.mode ≠ .deepSleep ∧ s.pwr.ready.getLsbD 4 = true := ⟨hsource, hmode, hready⟩
  simp only [exec, execPpsInEdge, wakeOnce_of_unarmed harmed]
  rw [if_pos hcond]
  simp only [hlast]
  rw [if_pos hgap]
  exact ⟨_, rfl⟩
end

/-- With the output on in fine mode, 1PPS_OUT rises at its instant and stays up for its width (R328). -/
theorem exec_ppsOut {s : State} (hpps : svPpsOut s = 2) (hfine : s.tm.fine = true) (hnone : s.tm.ppsOut = none) : ∃ t k,
    exec .ppsOut s = .next t ∧ t.out = s.out ++ [.pps] ∧ t.tm.ppsOut = some (k, t.tm.raw) ∧ (1 ≤ svWidth s → ppsOutLevel t = true) ∧
    t = { s with tm := t.tm, out := t.out } := by
  let d := psU (i s.tm.settings 28 4)
  let k := ceilDiv (nowU s + d) secU
  generalize hraw : rawAfter s.tm (rawReaching s.tm (k * (secU : Int) - d)) = raw
  refine ⟨{ s with tm := { s.tm with raw := raw, ppsOut := some (k, raw) }, out := s.out ++ [.pps] }, k, ?_, rfl, rfl, fun hwidth => ?_, rfl⟩
  · simp only [exec, execPpsOut, hpps, hfine, hnone, true_or, true_and, if_true, advanceTo, hraw, k, d] at *
  · have hpos : 0 < svWidth s * 1474560 := by omega
    show (s.tm.fine && decide (raw - raw < svWidth s * 1474560)) = true
    simp [hfine, hpos]

/-! ### O37 -/

/-- Settles O37: the messages read and write the settings and the offset; a holdover, a new master, an edge and a pulse do to the servo
what R320 to R328 say; the clamps bound the rate and the integral. -/
theorem timeAndPhaseSources : Obligations.TimeAndPhaseSources := by
  unfold Obligations.TimeAndPhaseSources
  refine ⟨⟨fun ring dma s h d => ?_, fun ring dma s h p d hlen hgood => ⟨?_, servoWrite_settings p _⟩,
    fun ring dma s h p d hlen hop hzero hns hzero' hraw hzero'' hbarred hfits => ?_, fun ring dma s h d =>
      ⟨_, exec_timeStatus d, by simp [timeRest_length, leBytes_length], by simp [leBytes]⟩⟩,
    fun s => ⟨fun hservo => ?_, fun m hsource hout => ?_, fun m hsource hreach hother => ?_, fun m hsource hreach hsame => ?_, exec_ppsEdgeTimeout,
      exec_ppsInEdge_first, fun r hsource harmed hmode hready hlast hlow hhigh =>
        exec_ppsInEdge_measured hsource harmed hmode hready hlast ⟨hlow, hhigh⟩, exec_ppsOut⟩,
    fun e s hlow hhigh => ?_⟩
  · simp only [exec, execTimeServo, runMessage_delivered _ d, timeServoBody, withLength_of_mem (show [].length ∈ [144, 0] by simp), if_true,
      settle_ok, consumed_tm]
  · have hne : p ≠ [] := fun h => by simp [h] at hlen
    simp only [exec, execTimeServo, runMessage_delivered _ d, timeServoBody, withLength_of_mem (show p.length ∈ [144, 0] by simp [hlen]), hne,
      if_false, withFields_of_none hgood, settle_ok]
  · exact ⟨_, exec_timeSetOffset d hlen hop hzero hns hzero' hraw hzero'' hbarred hfits, writeOffset_offset _ _, offsetReport_length _ _⟩
  · have hne : s.tm.servo ≠ 3 := by omega
    obtain ⟨raw, hraw⟩ := advanceSince_tm s.tm.lastMeas (svTimeout s * 1474560) s
    exact ⟨servoHold 1 (advanceSince s.tm.lastMeas (svTimeout s * 1474560) s), by simp only [exec, execHoldoverTimeout, if_pos hservo], by simp,
      by simp, by simp [hraw], by simp [hraw], servoHold_status (by rw [hraw]; exact hne)⟩
  · obtain ⟨p, hp, hbad⟩ := hout
    have hreach : ((u s.tm.settings 3 1).testBit p && portUp s p) = false := by rcases hbad with h | h <;> simp [h]
    simp [exec, execPtpMasterChange, hsource, hp, hreach]
  · obtain ⟨d, hd⟩ := exec_ptpMasterChange hsource hreach
    rw [hd]
    refine ⟨_, by rw [if_neg (by simp [hother])], by simp, (servoLost_grows _ _).status 147 (raise_status _ _ _ (by decide)), by simp, fun hservo => ?_⟩
    simp [servoLost, hservo]
  · obtain ⟨d, hd⟩ := exec_ptpMasterChange hsource hreach
    rw [hd, if_pos hsame]
  · obtain ⟨hrate, hinteg⟩ := servoAct_bounds s hlow hhigh
    exact ⟨hrate.1, hrate.2, hinteg.1, hinteg.2⟩

end Sys2Proof.Machine
end

section
/-! SUPPORT. The power messages (R351 to R353), and from them O20. -/

namespace Sys2Proof.Machine

theorem modeCode_modeOf {n : Nat} (h : n ≤ 11) : modeCode (modeOf n) = n := by
  interval_cases n <;> rfl

theorem modeOf_ne_safeHold {n : Nat} (h : n ≤ 7) : modeOf n ≠ .safeHold := fun he => by
  have hcode := modeCode_modeOf (n := n) (by omega)
  rw [he] at hcode
  change 10 = n at hcode
  omega

/-- A reply OK with a disposition is settled as an answer. -/
theorem settle_pwrDone (a : Asker) (before back : State) (d : Nat) (t : State) :
    settle a before back (pwrDone d t) = answered a (pwrDone d t).payload t := rfl

theorem settle_pwrRefused (a : Asker) (before back : State) (n : Nat) (nm : List Byte) (t : Mode) (s : State) :
    settle a before back (pwrRefused n nm t s) =
      answeredWith a 0x16 n (leBytes 2 s.pwr.refTotal ++ [0, 0]) (recordRefusal (modeCode t) n nm s) := rfl

/-- SAFE-HOLD is entered at once, whatever is in flight but a protective entry (R338, R343). -/
theorem pwrTarget_safeHold {r : PwrReq} {s : State} (hr : r.target = .safeHold) (hlatch : s.pwr.mode ≠ .thermalLatch)
    (hmode : s.pwr.mode ≠ .safeHold) (hidle : protecting s = false) : pwrTarget r s = pwrDone 1 (protect 2 0 s) := by
  unfold pwrTarget
  cases htrans : s.pwr.trans with
  | none => simp [hr, hlatch, hmode.symm]
  | some t =>
    have hcause : t.cause ≠ 3 := by simpa [protecting, protectiveEntry, htrans] using hidle
    simp [hr, hcause]

/-- Any other target is judged by Table 14-4 when nothing is in flight. -/
theorem pwrTarget_judged {r : PwrReq} {s : State} (hr : r.target ≠ .safeHold) (htrans : s.pwr.trans = none) (hmode : r.target ≠ s.pwr.mode) :
    pwrTarget r s = match refusalOf r.target s with
      | some (n, nm) => pwrRefused n nm r.target s
      | none => pwrDone 1 (startTrans r.target 1 0 r s) := by
  simp only [pwrTarget, htrans, hmode, hr, if_false, false_and] <;> rfl

section
variable {ring : Nat} {dma : List Byte} {s : State} {h : Hdr} {p : List Byte}

theorem exec_pwrRequest (d : Delivered 0x0601 ring dma s h p) (hlen : p.length = 48) (hgood : firstBad (pwrChecks p) = none) :
    exec (.pwrRequest ring dma) s = .next (settle (askerOf ring h s) (consumed ring h s) s (
      let w := pwrActions (u p 1 1) (consumed ring h s)
      if u p 0 1 = 255 then pwrDone 5 w else pwrTarget (pwrParse p) w)) := by
  simp only [exec, execPwrRequest, runMessage_delivered _ d, pwrRequestBody, withLength_of_mem (show p.length ∈ [48] by simp [hlen]),
    withFields_of_none hgood]

/-- The status behind its first eight bytes (R352). -/
def pwrHead (s : State) : List Byte :=
  let t := match s.pwr.trans with | some t => modeCode t.target | none => 0xFF
  let q := match s.pwr.queued with | some q => modeCode q.target | none => 0xFF
  leBytes 1 (if recovering s then 2 else b2n s.pwr.trans.isSome) ++ leBytes 1 t ++ leBytes 1 q ++ leBytes 1 s.pwr.wakeTarget ++
    leBytes 1 s.pwr.fails ++ leBytes 1 s.pwr.lastSource ++ leBytes 1 (if s.pwr.mode = .safeHold then s.pwr.cause else 0)

def pwrTail (s : State) : List Byte :=
  let b : Boundary := match s.pwr.service with | some (b, _) => b | none => {}
  leBytes 1 s.pwr.en.toNat ++ leBytes 1 s.pwr.pg.toNat ++ leBytes 1 (b2n s.em.muted + 2 * b2n s.em.parked) ++ [0] ++
    leBytes 4 (msSince s.pwr.since s) ++ leBytes 8 b.frame ++ leBytes 1 b.quarter ++ zeros 3 ++ leBytes 4 s.pwr.aborted

theorem exec_pwrStatus (d : Delivered 0x0602 ring dma s h []) : exec (.pwrStatus ring dma) s = .next (answered (askerOf ring h s)
    (leBytes 1 (modeCode s.pwr.mode) ++ (pwrHead (consumed ring h s) ++ ((leBytes 4 s.pwr.on.toNat ++ leBytes 4 s.pwr.ready.toNat) ++
      pwrTail (consumed ring h s)))) (consumed ring h s)) := by
  simp only [exec, execPwrStatus, runMessage_delivered _ d, pwrStatusBody, withLength_of_mem (show [].length ∈ [0] by simp), settle_ok, pwrHead,
    pwrTail, consumed_pwr, List.append_assoc] <;> rfl

theorem exec_pwrRefusals {c : Nat} (hc : c = 0 ∨ c = 1) (d : Delivered 0x0603 ring dma s h [BitVec.ofNat 8 c, 0, 0, 0]) :
    exec (.pwrRefusals ring dma) s = .next (answered (askerOf ring h s)
      (((List.range 12).flatMap fun m => leBytes 4 (tget 0 s.pwr.refCount m)) ++ leBytes 4 (s.pwr.refIndex + 65536 * s.pwr.refTotal) ++
        (List.range 32).flatMap (refBytes s))
      (if c = 1 then { consumed ring h s with pwr := { s.pwr with refCount := [] } } else consumed ring h s)) := by
  have hrefs : refBytes (consumed ring h s) = refBytes s := by
    funext r
    simp [refBytes]
  have hcode : u [BitVec.ofNat 8 c, 0, 0, 0] 0 1 = c := by rcases hc with rfl | rfl <;> rfl
  have hgood : ∀ e ∈ [inRange [BitVec.ofNat 8 c, 0, 0, 0] 0 1 0 1, isZero [BitVec.ofNat 8 c, 0, 0, 0] 1 3], e.2 = true := by
    rcases hc with rfl | rfl <;> decide
  simp only [exec, execPwrRefusals, runMessage_delivered _ d, pwrRefusalsBody,
    withLength_of_mem (show [BitVec.ofNat 8 c, 0, 0, 0].length ∈ [4] by simp), withFields_of_good hgood, hcode, hrefs, refNewest, consumed_pwr]
  rfl
end

/-! ### O20 -/

/-- Settles O20: a request does its actions and then its target is judged; the other two messages report. -/
theorem powerMessages : Obligations.PowerMessages := by
  unfold Obligations.PowerMessages
  intro ring dma s h p a w
  refine ⟨fun d hlen hgood => ⟨fun h255 => ?_, fun h7 htrans hmode hnone => ?_, fun h10 hlatch hmode hidle => ?_,
    fun n nm h7 htrans hmode hsome => ?_⟩, fun d hp => ?_, fun d c hc hp => ?_⟩
  · rw [exec_pwrRequest d hlen hgood]
    simp only [h255, if_true, settle_pwrDone]
    rfl
  · have hne : u p 0 1 ≠ 255 := by omega
    have htarget : (pwrParse p).target = modeOf (u p 0 1) := rfl
    have hhold : (pwrParse p).target ≠ .safeHold := modeOf_ne_safeHold h7
    rw [exec_pwrRequest d hlen hgood]
    simp only [hne, if_false]
    rw [pwrTarget_judged hhold htrans hmode, htarget, hnone]
    rfl
  · have htarget : (pwrParse p).target = .safeHold := by simp [pwrParse, h10, modeOf]
    rw [exec_pwrRequest d hlen hgood]
    simp only [h10]
    rw [if_neg (by decide), pwrTarget_safeHold htarget hlatch hmode hidle]
    rfl
  · have hne : u p 0 1 ≠ 255 := by omega
    have hcode := modeCode_modeOf (n := u p 0 1) (by omega)
    have htarget : (pwrParse p).target = modeOf (u p 0 1) := rfl
    have hhold : (pwrParse p).target ≠ .safeHold := modeOf_ne_safeHold h7
    rw [exec_pwrRequest d hlen hgood]
    simp only [hne, if_false]
    rw [pwrTarget_judged hhold htrans hmode, htarget, hsome]
    simp only [settle_pwrRefused, hcode]
    rfl
  · subst hp
    refine ⟨_, exec_pwrStatus d, ?_, ?_, ?_⟩
    · simp [pwrHead, pwrTail, leBytes_length, zeros]
    · simp [leBytes]
    · rw [← List.append_assoc]
      exact slice_append_append (by simp [pwrHead, leBytes_length]) (by simp [leBytes_length])
  · subst hp
    exact exec_pwrRefusals hc d

end Sys2Proof.Machine
end

section
/-! SUPPORT. What each operation on modes, domains and transitions writes of the power part (R334 to R345): one equation for each. -/

namespace Sys2Proof.Machine

/-! ### Regulators and domains -/

theorem raiseNext_pwr (want : BitVec 8) (s : State) : ∃ en, raiseNext want s = { s with pwr := { s.pwr with en := en } } := by
  unfold raiseNext
  split
  · exact ⟨_, rfl⟩
  · split
    · exact ⟨s.pwr.en, rfl⟩
    · split
      · exact ⟨_, rfl⟩
      · exact ⟨s.pwr.en, rfl⟩

theorem endTest_pwr (cut answer : Bool) (r : TestResult) (s : State) : ∃ ready, (endTest cut answer r s).pwr = { s.pwr with ready := ready } := by
  unfold endTest
  split
  · exact ⟨s.pwr.ready, rfl⟩
  · dsimp only
    split
    · exact ⟨_, rfl⟩
    · exact ⟨_, by simp; rfl⟩

/-- A test that stops brings its domains back: they are ready again. -/
theorem stopTest_pwr (answer : Bool) (s : State) : ∃ ready, (stopTest answer s).pwr = { s.pwr with ready := ready } := by
  unfold stopTest
  split
  · exact ⟨s.pwr.ready, rfl⟩
  · obtain ⟨ready, h⟩ := endTest_pwr true answer _ _
    exact ⟨ready, h⟩

theorem dropTransitions_pwr (reason : Nat) (name : List Byte) (s : State) : ∃ refs index total count endAt,
    (dropTransitions reason name s).pwr =
      { s.pwr with trans := none, queued := none, refs := refs, refIndex := index, refTotal := total, refCount := count, endAt := endAt } := by
  have hqueue : ∀ v : State, (∃ refs index total count endAt, v.pwr =
      { s.pwr with trans := none, refs := refs, refIndex := index, refTotal := total, refCount := count, endAt := endAt }) →
      (v.pwr.queued = none → ∃ refs index total count endAt, v.pwr =
        { s.pwr with trans := none, queued := none, refs := refs, refIndex := index, refTotal := total, refCount := count, endAt := endAt }) ∧
      ∀ t, ∃ refs index total count endAt, (recordRefusal t reason name { v with pwr := { v.pwr with queued := none } }).pwr =
        { s.pwr with trans := none, queued := none, refs := refs, refIndex := index, refTotal := total, refCount := count, endAt := endAt } := by
    rintro v ⟨refs, index, total, count, endAt, hv⟩
    refine ⟨fun hnone => ⟨refs, index, total, count, endAt, ?_⟩, fun t => ?_⟩
    · rw [hv] at hnone ⊢
      rw [← hnone]
    · obtain ⟨refs', index', total', count', h⟩ := recordRefusal_pwr t reason name { v with pwr := { v.pwr with queued := none } }
      exact ⟨refs', index', total', count', endAt, by rw [h, hv]⟩
  unfold dropTransitions
  cases htrans : s.pwr.trans with
  | none =>
    obtain ⟨hnone, hsome⟩ := hqueue s ⟨_, _, _, _, _, by rw [← htrans]⟩
    dsimp only
    cases hqueued : s.pwr.queued with
    | none => exact hnone hqueued
    | some q => exact hsome _
  | some t =>
    obtain ⟨refs, index, total, count, h⟩ :=
      recordRefusal_pwr (modeCode t.target) reason name { s with pwr := { s.pwr with trans := none, endAt := none } }
    dsimp only
    generalize recordRefusal (modeCode t.target) reason name { s with pwr := { s.pwr with trans := none, endAt := none } } = v at h
    obtain ⟨hnone, hsome⟩ := hqueue v ⟨refs, index, total, count, none, h⟩
    cases hqueued : v.pwr.queued with
    | none => exact hnone hqueued
    | some q => exact hsome _

/-! ### Service (R342) -/

theorem stopService_pwr (s : State) : (stopService s).pwr = { s.pwr with serving := false, service := none, endAt := none } := by
  simp [stopService]

theorem stopService_released (s : State) : (stopService s).dl.released = [] := by
  unfold stopService endPlayout
  simp

theorem planService_pwr (s : State) : ∃ service, planService s = { s with pwr := { s.pwr with service := service } } := ⟨_, rfl⟩

/-! ### Domains of a mode -/

theorem comeOn_pwr (new : BitVec 20) (s : State) : (comeOn new s).pwr = { s.pwr with on := s.pwr.on ||| new, ready := s.pwr.ready ||| new } := rfl

theorem setDomains_pwr (m : Mode) (s : State) : ∃ demand en pg on ready,
    (setDomains m s).pwr = { s.pwr with demand := demand, en := en, pg := pg, on := on, ready := ready } := by
  unfold setDomains
  extract_lets _ v want en pg _ w on off s1 s2 s3 plls lo s4
  obtain ⟨en', hw⟩ : ∃ en', w = { v with pwr := { v.pwr with pg := pg, en := en' } } := by
    obtain ⟨en', h⟩ := raiseNext_pwr want { v with pwr := { v.pwr with en := en, pg := pg } }
    exact ⟨en', h⟩
  have h1 : s1.pwr = w.pwr := by
    simp only [s1]
    split <;> simp
  have h3 : s3.pwr = w.pwr := by
    simp only [s3]
    split <;> simp [s2, h1]
  have h4 : s4.pwr = { w.pwr with on := w.pwr.on ||| on, ready := w.pwr.ready ||| on } := by
    simp only [s4, comeOn_pwr]
    split <;> simp [h3]
  refine ⟨v.pwr.demand, en', pg, on, on, ?_⟩
  simp only [darkenSensors_frame]
  show { s4.pwr with on := on, ready := on } = _
  rw [h4, hw]

/-- The instant M of a change of mode, in the power part (R337). -/
theorem enterMode_pwr (target : Mode) (cause source dur : Nat) (s : State) : ∃ demand en pg on ready serving service endAt,
    (enterMode target cause source dur s).pwr = { s.pwr with
      mode := target, since := s.tm.raw, trans := none, cause := if target = .safeHold then s.pwr.cause else 0,
      causeReg := if target = .safeHold then s.pwr.causeReg else 0, further := if target = .safeHold then s.pwr.further else 0,
      demand := demand, en := en, pg := pg, on := on, ready := ready, serving := serving, service := service, endAt := endAt } := by
  unfold enterMode
  extract_lets old _ _ s1 s2 s3 s4 s5 t s6
  have h2 : ∃ serving service endAt, s2.pwr = { s1.pwr with serving := serving, service := service, endAt := endAt } := by
    simp only [s2]
    split
    · exact ⟨_, _, _, stopService_pwr s1⟩
    · exact ⟨s1.pwr.serving, s1.pwr.service, s1.pwr.endAt, rfl⟩
  obtain ⟨serving, service, endAt, h2⟩ := h2
  obtain ⟨demand, en, pg, on, ready, h3⟩ := setDomains_pwr target s2
  have h5 : s5.pwr = s3.pwr := by
    have h4 : s4.pwr = s3.pwr := by
      simp only [s4]
      split <;> simp
    simp only [s5]
    split <;> simp [h4]
  have h6 : ∃ service, s6.pwr = { s5.pwr with service := service } := by
    have ht : t.pwr = s5.pwr := by
      simp only [t]
      split <;> simp
    simp only [s6]
    split
    · split
      · exact ⟨_, by rw [planService, ht]⟩
      · exact ⟨s5.pwr.service, ht⟩
    · exact ⟨s5.pwr.service, rfl⟩
  obtain ⟨service', h6⟩ := h6
  refine ⟨demand, en, pg, on, ready, serving, service', endAt, ?_⟩
  simp only [raise_frame, notePins_frame]
  rw [h6, h5, show s3.pwr = _ from h3, h2]

/-! ### Transitions (R337, R339) -/

theorem powerSome_pwr (mask : BitVec 20) (t : Trans) (s : State) : ∃ on ready powered,
    (powerSome mask t s).pwr = { s.pwr with on := on, ready := ready, trans := some { t with powered := powered } } :=
  ⟨_, _, _, rfl⟩

theorem powerFor_pwr (t : Trans) (s : State) : ∃ on ready powered,
    (powerFor t s).pwr = { s.pwr with on := on, ready := ready, trans := some { t with powered := powered } } := by
  unfold powerFor
  extract_lets s1 off s2
  obtain ⟨on, ready, powered, h1⟩ := powerSome_pwr 0x00C1F t s
  have h2 : s2.pwr = s1.pwr := by simp [s2]
  have htrans : s2.pwr.trans = some { t with powered := powered } := by rw [h2, h1]
  rw [htrans]
  dsimp only
  split
  · obtain ⟨on', ready', powered', h3⟩ := powerSome_pwr 0xFF3E0 { t with powered := powered } s2
    exact ⟨on', ready', powered', by rw [h3, h2, h1]⟩
  · exact ⟨on, ready, powered, by rw [h2, h1]⟩

/-- A transition that goes on stays the one it is, but for the domains that it has powered. -/
theorem progress_pwr {s : State} {t : Trans} (h : s.pwr.trans = some t) : ∃ en on ready powered,
    (progress s).pwr = { s.pwr with en := en, on := on, ready := ready, trans := some { t with powered := powered } } := by
  unfold progress
  rw [h]
  dsimp only
  obtain ⟨en, hraise⟩ := raiseNext_pwr (enablesFor s (modeDomains s t.target ||| s.pwr.on ||| demandMask s)) s
  rw [hraise]
  split
  · obtain ⟨on, ready, powered, hpower⟩ := powerFor_pwr t { s with pwr := { s.pwr with en := en } }
    exact ⟨en, on, ready, powered, hpower⟩
  · exact ⟨en, s.pwr.on, s.pwr.ready, t.powered, by rw [← h]⟩

/-- A transition starts: its target, cause, source and request, from the present mode. -/
theorem startTrans_pwr (t : Mode) (cause source : Nat) (req : PwrReq) (s : State) : ∃ wake endAt en on ready raised powered,
    (startTrans t cause source req s).pwr = { s.pwr with
      wake := wake, endAt := endAt, en := en, on := on, ready := ready,
      trans := some ⟨s.pwr.mode, t, s.tm.raw, cause, source, req, raised, powered⟩ } := by
  unfold startTrans
  extract_lets s0 s1 _ s2 e raised s3
  have h0 : ∃ ready, s0.pwr = { s.pwr with ready := ready } := by
    simp only [s0]
    split
    · exact ⟨s.pwr.ready, rfl⟩
    · exact stopTest_pwr true s
  obtain ⟨ready, h0⟩ := h0
  have h1 : s1.pwr = s0.pwr := by
    simp only [s1]
    split <;> simp
  have h2 : ∃ wake, s2.pwr = { s1.pwr with wake := wake } := by
    simp only [s2]
    split
    · exact ⟨req, rfl⟩
    · exact ⟨s1.pwr.wake, rfl⟩
  obtain ⟨wake, h2⟩ := h2
  have h3 : s3.pwr = s2.pwr ∧ s3.tm = s.tm := by
    have htm : s2.tm = s.tm := by
      simp only [s2, s1, s0]
      split <;> split <;> split <;> simp
    simp only [s3]
    split <;> simp [htm]
  obtain ⟨h3, htm⟩ := h3
  have hpwr : s3.pwr = { s.pwr with ready := ready, wake := wake } := by rw [h3, h2, h1, h0]
  obtain ⟨en, on, ready', powered, h⟩ := progress_pwr (s := { s3 with pwr := { s3.pwr with
    endAt := e, trans := some ⟨s3.pwr.mode, t, s3.tm.raw, cause, source, req, raised, 0⟩ } }) rfl
  exact ⟨wake, e, en, on, ready', raised, powered, by rw [h, hpwr, htm]⟩

/-! ### Protective entries (R343, R362) -/

/-- What a protective entry ends, in the power part: nothing is in flight or queued, and where service ran it is over. -/
theorem protectEnds_pwr (cause : Nat) (s : State) : ∃ refs index total count ready endAt serving service,
    (protectEnds cause s).pwr = { s.pwr with
      trans := none, queued := none, refs := refs, refIndex := index, refTotal := total, refCount := count, ready := ready,
      endAt := endAt, serving := serving, service := service } ∧
    (isService s.pwr.mode = true → serving = false ∧ (protectEnds cause s).dl.released = []) := by
  unfold protectEnds
  extract_lets powered s1 waiting s2
  obtain ⟨refs, index, total, count, endAt, h1⟩ := dropTransitions_pwr 13 (name8 "SAFEHOLD") s
  have h1 : s1.pwr = _ := Eq.trans (by simp [s1]) h1
  have h2 : ∃ ready, s2.pwr = { s1.pwr with ready := ready } := by
    simp only [s2, clearBias_frame]
    split
    · exact ⟨s1.pwr.ready, by simp⟩
    · exact stopTest_pwr true s1
  obtain ⟨ready, h2⟩ := h2
  have hmode : s2.pwr.mode = s.pwr.mode := by rw [h2, h1]
  rw [hmode]
  split
  next h =>
    exact ⟨refs, index, total, count, ready, none, false, none, by rw [stopService_pwr, h2, h1], fun _ => ⟨rfl, stopService_released s2⟩⟩
  next h => exact ⟨refs, index, total, count, ready, endAt, s.pwr.serving, s.pwr.service, by rw [h2, h1], fun hs => absurd hs h⟩

end Sys2Proof.Machine
end

section
/-! SUPPORT. What a protective entry ends keeps every event status that was set (R343, R362). -/

namespace Sys2Proof.Machine

/-! ### Frames and ports -/

theorem stampSent_grows (n : Nat) (start : Instant) (of_ : StampOf) (s : State) : Grows s (stampSent n start of_ s) := by
  unfold stampSent takeFree
  dsimp only
  exact .ite ((raise_grows ..).after (.of_eq rfl rfl)) (.of_eq rfl rfl)

theorem startFrame_grows (n : Nat) (start : Instant) (g : EgressFrame) (s : State) : Grows s (startFrame n start g s) := by
  unfold startFrame
  dsimp only
  split
  · have hread : ∀ w, Grows w (readStamps n start w) := fun w => .of_eq (by simp) (by simp)
    exact ((stampSent_grows ..).trans (hread _)).after (.of_eq rfl rfl)
  · exact .of_eq (by simp) (by simp)

theorem endFrame_grows (n : Nat) (x : Sending) (s : State) : Grows s (endFrame n x s) where
  status := fun e h => by simpa using h
  out := by simp [endFrame]

theorem drainFrames_grows (n fuel : Nat) (s : State) : Grows s (drainFrames n fuel s) := by
  induction fuel generalizing s with
  | zero => exact .refl s
  | succ fuel ih =>
    unfold drainFrames
    split
    · exact .ite ((endFrame_grows ..).trans (ih _)) (.refl s)
    · split
      · exact .refl s
      · exact .ite ((startFrame_grows ..).trans (ih _)) (.refl s)

theorem stopEgress_grows (n : Nat) (restart : Bool) (s : State) : Grows s (stopEgress n restart s) := by
  unfold stopEgress
  extract_lets s1 p k s2
  have h1 : Grows s s1 := drainFrames_grows ..
  have h2 : Grows s s2 := h1.trans (.ite (.refl s1) (.of_eq rfl rfl))
  exact h2.trans (.of_eq rfl rfl)

theorem linkFalls_grows (n cause : Nat) (s : State) : Grows s (linkFalls n cause s) := by
  unfold linkFalls
  extract_lets v p st s1 s2 s3
  have hv : Grows s v := stopEgress_grows ..
  have h1 : Grows s s1 := hv.trans (.of_eq rfl rfl)
  have h2 : Grows s s2 := h1.trans (raise_grows ..)
  have h3 : Grows s s3 := h2.trans (.ite (synceLost_grows _) (.refl _))
  exact .ite (h3.trans (servoLost_grows ..)) h3

theorem portsDark_grows (s : State) : Grows s (portsDark s) := by
  unfold portsDark
  exact (Grows.foldl (fun t n => linkFalls_grows n 1 t) _ s).trans (.of_eq rfl rfl)

/-! ### Captures and playout -/

theorem missCapture_grows (c : Capturing) (cause : Nat) (s : State) : Grows s (missCapture c cause s) := by
  unfold missCapture
  extract_lets s1 s2
  have h2 : Grows s s2 := (Grows.of_eq (by simp [s1]) (by simp [s1])).trans (raise_grows ..)
  split
  · exact h2
  · extract_lets key a s3
    have h3 : Grows s s3 := h2.trans (.of_eq rfl rfl)
    exact .ite (h3.trans (adaptFault_grows ..)) h3

theorem stopCaptures_grows (p : Capturing → Bool) (cause : Nat) (s : State) : Grows s (stopCaptures p cause s) := by
  unfold stopCaptures
  extract_lets gone _
  refine Grows.after (Grows.foldl (fun t c => ?_) gone _) (.of_eq rfl rfl)
  exact (missCapture_grows c cause t).trans (.of_eq (by simp) (by simp))

theorem sendUpTo_grows (p : Nat) (t : Int) (s : State) : Grows s (sendUpTo p t s) := by
  unfold sendUpTo
  split
  · extract_lets lo hi s1
    have h1 : Grows s s1 := .ite ((sendTicks_grows ..).after ⟨fun e h => h, List.prefix_append ..⟩) (.refl s)
    exact h1.trans (.of_eq rfl rfl)
  · exact .refl s

theorem endPlayout_grows (t : Instant) (s : State) : Grows s (endPlayout t s) := by
  unfold endPlayout
  extract_lets _ s0 s1
  have h0 : Grows s s0 := .of_eq rfl rfl
  have h1 : Grows s s1 := h0.trans (.ite (.refl s0) (Grows.foldl (fun st p => sendUpTo_grows p _ st) _ s0))
  exact h1.trans (.of_eq rfl rfl)

theorem stopService_grows (s : State) : Grows s (stopService s) := by
  unfold stopService
  extract_lets d
  have hd : Grows s d := (endPlayout_grows ..).after (.ite (.of_eq (by simp) (by simp)) (.refl s))
  exact hd.trans (.of_eq (by simp) (by simp))

/-! ### Leases and writes -/

theorem tearPatch_grows (s : State) : Grows s (tearPatch s) := by
  unfold tearPatch
  exact .ite (Grows.after (finishLong_grows ..) (.of_eq rfl rfl)) (.refl s)

theorem tearWrites_grows (s : State) : Grows s (tearWrites s) := by
  unfold tearWrites
  split
  · exact tearPatch_grows s
  next j js _ =>
    extract_lets s1 _ s2
    have h2 : Grows s s2 := .of_eq (by simp [s2, s1]) (by simp [s2, s1])
    refine .ite (.of_eq (by simp [s1]) (by simp [s1])) ?_
    split
    · exact h2.trans (finishDeferred_grows ..)
    · exact h2.trans (.of_eq rfl rfl)

theorem rffeSkipAll_grows (bus cause : Nat) (es : List RffeEntry) (s : State) : Grows s (rffeSkipAll bus cause es s) := by
  unfold rffeSkipAll
  split
  · exact .refl s
  · exact (statAdd_grows ..).trans (raise_grows ..)

theorem rffeRevoked_grows (bus : Nat) (s : State) : Grows s (rffeRevoked bus s) := by
  unfold rffeRevoked
  split
  · exact .refl s
  · exact .ite ((rffeSkipAll_grows ..).after (.of_eq rfl rfl)) (.refl s)

theorem forceRelease_grows (e : Nat) (s : State) : Grows s (forceRelease e s) := by
  unfold forceRelease
  refine .ite (tearWrites_grows s) (.ite ?_ (.ite ?_ (.ite (.of_eq rfl rfl) (.ite (rffeRevoked_grows ..) (.refl s)))))
  · split
    · exact .refl s
    · exact Grows.after (finishDeferred_grows ..) (.of_eq rfl rfl)
  · exact Grows.after (Grows.foldl (fun t c => missCapture_grows c 2 t) _ _) (.of_eq rfl rfl)

theorem revokeEntry_grows (e cause : Nat) (s : State) : Grows s (revokeEntry e cause s) := by
  unfold revokeEntry
  refine .ite (.refl s) ?_
  exact Grows.after (Grows.trans (raise_grows ..) (Grows.trans (writeLog_grows ..) (.of_eq rfl rfl))) (.of_eq rfl rfl)

theorem revokeLease_grows (e cause : Nat) (s : State) : Grows s (revokeLease e cause s) := by
  unfold revokeLease
  extract_lets s1
  have h1 : Grows s s1 := (forceRelease_grows e s).trans (revokeEntry_grows ..)
  exact .ite (.refl s) (.ite (h1.trans (.of_eq (by simp) (by simp))) (.ite (h1.trans (.of_eq (by simp) (by simp))) h1))

theorem revokeHolder_grows (h cause : Nat) (s : State) : Grows s (revokeHolder h cause s) := by
  unfold revokeHolder
  exact Grows.foldl (fun t e => (forceRelease_grows e t).trans (revokeEntry_grows ..)) _ s

theorem revokeWrites_grows (cause : Nat) (s : State) : Grows s (revokeWrites cause s) := by
  unfold revokeWrites
  exact .ite (.refl s) (Grows.trans (.of_eq (by simp) (by simp)) (revokeLease_grows ..))

/-! ### Domains, runs and transitions -/

theorem loseContents_grows (off : BitVec 20) (s : State) : Grows s (loseContents off s) := by
  unfold loseContents
  extract_lets _ s1 _ s2 t _ s3 _ s4 _ s5 s6
  have h1 : Grows s s1 := .ite (Grows.after (portsDark_grows _) (.of_eq rfl rfl)) (.refl s)
  have h2 : Grows s s2 := h1.trans (.ite (.of_eq rfl rfl) (.refl s1))
  have h3 : Grows s s3 := h2.trans (.ite (Grows.trans (stopCaptures_grows ..) (.of_eq rfl rfl)) (.refl s2))
  have h4 : Grows s s4 := h3.trans (.ite (.of_eq rfl rfl) (.refl s3))
  have h5 : Grows s s5 := h4.trans (.ite (.of_eq rfl rfl) (.refl s4))
  have h6 : Grows s s6 := h5.trans (.ite (.of_eq rfl rfl) (.refl s5))
  exact .ite (h6.trans ((revokeHolder_grows ..).trans (.of_eq rfl rfl))) h6

theorem testLoss_grows (s : State) : Grows s (testLoss s) := by
  unfold testLoss
  split
  · exact .refl s
  · exact .ite (loseContents_grows ..) (.refl s)

theorem recordRefusal_grows (target reason : Nat) (name : List Byte) (s : State) : Grows s (recordRefusal target reason name s) := by
  unfold recordRefusal
  exact Grows.after (raise_grows ..) (.of_eq rfl rfl)

theorem refuseRun_grows (t : Mode) (reason : Nat) (s : State) : Grows s (refuseRun t reason s) := by
  unfold refuseRun
  split
  · exact Grows.after (finishLong_grows ..) (.of_eq rfl rfl)
  · split
    · exact .refl s
    · exact Grows.after ((raise_grows ..).trans (finishLong_grows ..)) (.of_eq rfl rfl)
  · exact .refl s

theorem stopCal_grows (answer : Bool) (s : State) : Grows s (stopCal answer s) := by
  unfold stopCal
  split
  · exact .refl s
  next c _ =>
    extract_lets s1 _ _ s2
    have h2 : Grows s s2 := by
      simp only [s2]
      split <;> exact .of_eq rfl rfl
    exact .ite (.ite (refuseRun_grows ..) (.of_eq rfl rfl)) (.ite (h2.trans (finishLong_grows ..)) h2)

theorem endTest_grows (cut answer : Bool) (r : TestResult) (s : State) : Grows s (endTest cut answer r s) := by
  unfold endTest
  split
  · exact .refl s
  · extract_lets b _ _ s1 failing o s2 s3
    have h1 : Grows s s1 := .of_eq rfl rfl
    have h2 : Grows s s2 := h1.trans (Grows.foldl (fun t e => raise_grows _ _ t) _ s1)
    exact .ite h1 ((h2.trans (raise_grows ..)).trans (finishLong_grows ..))

theorem stopTest_grows (answer : Bool) (s : State) : Grows s (stopTest answer s) := by
  unfold stopTest stopTestAt
  split
  · exact .refl s
  · exact Grows.after (endTest_grows ..) (.of_eq rfl rfl)

theorem dropTransitions_grows (reason : Nat) (name : List Byte) (s : State) : Grows s (dropTransitions reason name s) := by
  unfold dropTransitions
  extract_lets _ s1
  have h1 : Grows s s1 := by
    simp only [s1]
    split
    · exact Grows.after (recordRefusal_grows ..) (.of_eq rfl rfl)
    · exact .refl s
  split
  · exact h1.trans (Grows.after (recordRefusal_grows ..) (.of_eq rfl rfl))
  · exact h1

theorem clearBias_grows (cause path : Nat) (s : State) : Grows s (clearBias cause path s) := by
  unfold clearBias
  extract_lets cs s0 s1 _ s2 s3
  have h3 : Grows s s3 := by
    refine .of_eq ?_ ?_ <;>
    · simp only [s3, notePins_frame, s2, s1, s0]
      split <;> split <;> simp
  clear_value s3 cs
  split
  · exact h3
  · exact h3.trans ((raise_grows ..).trans (settleReleases_grows _))

theorem protectEnds_grows (cause : Nat) (s : State) : Grows s (protectEnds cause s) := by
  unfold protectEnds
  extract_lets powered s1 waiting s2
  have hcancel : ∀ w, Grows w (cancelArmed 5 w) := fun w => .of_eq (by simp) (by simp)
  have h1 : Grows s s1 := ((dropTransitions_grows ..).trans (hcancel _)).trans ((stopCal_grows ..).trans (testLoss_grows _))
  have h2 : Grows s s2 := h1.trans (Grows.trans (.ite (refuseRun_grows ..) (stopTest_grows ..)) (clearBias_grows ..))
  exact .ite (h2.trans (stopService_grows _)) h2

end Sys2Proof.Machine
end

section
/-! SUPPORT. Entries into modes and service (R337, R342, R343, R362), and from them O22 and O23. -/

namespace Sys2Proof.Machine

/-! ### M (R337) -/

theorem enterMode_status (target : Mode) (cause source dur : Nat) (s : State) :
    (enterMode target cause source dur s).ev.status.getLsbD 164 = true := by
  unfold enterMode
  extract_lets
  exact raise_status _ _ _ (by decide)

@[simp] theorem recordRefusal_keeps (target reason : Nat) (name : List Byte) (s : State) :
    (recordRefusal target reason name s).pwr.mode = s.pwr.mode ∧ (recordRefusal target reason name s).pwr.trans = s.pwr.trans ∧
    (recordRefusal target reason name s).pwr.queued = s.pwr.queued := by
  obtain ⟨refs, index, total, count, h⟩ := recordRefusal_pwr target reason name s
  simp [h]

@[simp] theorem startTrans_mode (t : Mode) (cause source : Nat) (req : PwrReq) (s : State) :
    (startTrans t cause source req s).pwr.mode = s.pwr.mode := by
  obtain ⟨wake, endAt, en, on, ready, raised, powered, h⟩ := startTrans_pwr t cause source req s
  rw [h]

@[simp] theorem runQueue_mode (s : State) : (runQueue s).pwr.mode = s.pwr.mode := by
  unfold runQueue
  split
  · dsimp only
    split
    · rfl
    · split <;> simp
  · rfl

theorem continueWake_mode (t : Trans) (s : State) : (continueWake t s).pwr.mode = s.pwr.mode := by
  unfold continueWake
  dsimp only
  split
  · rfl
  · split
    · rfl
    · split <;> simp

theorem armWake_mode (t : Trans) (s : State) : (armWake t s).pwr.mode = s.pwr.mode := by
  unfold armWake
  split <;> rfl

/-- What arrives is the target. -/
theorem finishTrans_mode (t : Trans) (s : State) : (finishTrans t s).pwr.mode = t.target := by
  unfold finishTrans
  extract_lets before s1 s2 _ s3
  have h1 : s1.pwr.mode = t.target := by
    obtain ⟨demand, en, pg, on, ready, serving, service, endAt, h⟩ := enterMode_pwr t.target t.cause t.source (usSince t.start s) s
    rw [show s1.pwr = _ from h]
  have h2 : s2.pwr = s1.pwr := by
    simp only [s2]
    split <;> simp
  have h3 : s3.pwr.mode = s2.pwr.mode := by
    simp only [s3]
    split <;> rfl
  rw [runQueue_mode, continueWake_mode, armWake_mode, h3, h2, h1]

/-- Nothing follows the arrival of a protective entry without a queued request. -/
theorem entry_arrives {s : State} {m0 m : Mode} {start : Nat} (hm : m = .safeHold ∨ m = .thermalLatch)
    (htrans : s.pwr.trans = some ⟨m0, m, start, 3, 0, { target := m }, 0, 0⟩) (hqueued : s.pwr.queued = none) : ∃ w,
    exec .modeEntered s = .next w ∧ w.pwr.mode = m ∧ w.pwr.trans = none ∧ w.pwr.cause = if m = .safeHold then s.pwr.cause else 0 := by
  obtain ⟨demand, en, pg, on, ready, serving, service, endAt, henter⟩ := enterMode_pwr m 3 0 (usSince start s) s
  let t := enterMode m 3 0 (usSince start s) s
  let w : State := { t with pwr := { t.pwr with armed := 0, senseArmed := 0, retry := none } }
  have hfinish : finishTrans ⟨m0, m, start, 3, 0, { target := m }, 0, 0⟩ s = w := by
    have hlow : ¬(m = .listen ∨ m = .deepSleep) := by rcases hm with rfl | rfl <;> decide
    have hrun : ¬(m = .calibrate ∨ m = .selfTest) := by rcases hm with rfl | rfl <;> decide
    have hqueue : runQueue w = w := by simp [runQueue, w, t, henter, hqueued]
    simp only [finishTrans, continueWake, armWake, hlow, hrun, if_false, Bool.false_eq_true]
    exact hqueue
  refine ⟨w, ?_, by simp [w, t, henter], by simp [w, t, henter], by simp [w, t, henter]⟩
  simp only [exec, execModeEntered, htrans]
  rw [if_pos (by simp [arrived]), hfinish]

/-! ### Protective entries (R343, R362) -/

theorem protectEntry_pwr (m : Mode) (s : State) : (protectEntry m s).pwr = { s.pwr with
    endAt := none, trans := some ⟨s.pwr.mode, m, s.tm.raw, 3, 0, { target := m }, 0, 0⟩, armed := 0, senseArmed := 0, retry := none } := by
  simp [protectEntry]

theorem protectEnds_cfg (cause : Nat) (s : State) : (protectEnds cause s).cfg.armed = none ∧ (protectEnds cause s).cfg.live = s.cfg.live := by
  have hcancel : ∀ w : State, (cancelArmed 5 w).cfg.armed = none ∧ (cancelArmed 5 w).cfg.live = w.cfg.live := fun w => by
    cases h : w.cfg.armed with
    | none => simp [cancelArmed, h]
    | some e => simp [cancelArmed_cfg h]
  have hcfg : (protectEnds cause s).cfg = (cancelArmed 5 (dropTransitions 13 (name8 "SAFEHOLD") s)).cfg := by
    unfold protectEnds
    extract_lets powered s1 waiting s2
    have h2 : s2.cfg = s1.cfg := by
      simp only [s2, clearBias_frame]
      split <;> simp
    split <;> simp [h2, s1]
  rw [hcfg]
  simpa using hcancel (dropTransitions 13 (name8 "SAFEHOLD") s)

/-- The entry that a protection fault decides, behind what it ends (R343). -/
theorem protect_eq {s : State} (hreset : s.pwr.mode ≠ .reset) (hlatch : s.pwr.mode ≠ .thermalLatch) (hhold : s.pwr.mode ≠ .safeHold)
    (hidle : protecting s = false) (cause reg : Nat) : ∃ d, protect cause reg s =
      protectEntry .safeHold (writeLog 3 d (raise 163 d { protectEnds 3 s with
        pwr := { (protectEnds 3 s).pwr with cause := cause, causeReg := if cause = 8 then reg else 0, further := 0 } })) := by
  unfold protect
  rw [if_neg (by rintro (h | h) <;> contradiction), if_neg (by simp [hidle]), if_neg hhold]
  exact ⟨_, rfl⟩

/-- The entry that a latch decides, behind what it ends (R362). -/
theorem thermalLatch_eq {s : State} (hlatch : s.th.latch = false) (n : Nat) (v : Int) : ∃ d e r w,
    w = raise 179 d { s with th := { s.th with latch := true, latchRec := r } } ∧
    thermalLatch n v s = protectEntry .thermalLatch (releaseLease 0 (writeLog 4 e (requestLease 0 0x11 (revokeWrites 2 (protectEnds 4 w))))) := by
  unfold thermalLatch
  rw [if_neg (by simp [hlatch])]
  exact ⟨_, _, _, _, rfl, rfl⟩

/-- In the power part: the entry is in flight with its cause, nothing is queued, no wake is armed. -/
theorem protect_pwr {s : State} (hreset : s.pwr.mode ≠ .reset) (hlatch : s.pwr.mode ≠ .thermalLatch) (hhold : s.pwr.mode ≠ .safeHold)
    (hidle : protecting s = false) (cause reg : Nat) : ∃ refs index total count ready serving service start,
    (protect cause reg s).pwr = { s.pwr with
      trans := some ⟨s.pwr.mode, .safeHold, start, 3, 0, { target := .safeHold }, 0, 0⟩, queued := none, refs := refs, refIndex := index,
      refTotal := total, refCount := count, ready := ready, endAt := none, serving := serving, service := service, armed := 0, senseArmed := 0,
      retry := none, cause := cause, causeReg := if cause = 8 then reg else 0, further := 0 } ∧
    (isService s.pwr.mode = true → serving = false ∧ (protect cause reg s).dl.released = []) := by
  obtain ⟨d, heq⟩ := protect_eq hreset hlatch hhold hidle cause reg
  obtain ⟨refs, index, total, count, ready, endAt, serving, service, hends, hserv⟩ := protectEnds_pwr 3 s
  rw [heq, protectEntry_pwr]
  simp only [writeLog_frame, raise_frame, protectEntry_frame, hends]
  exact ⟨refs, index, total, count, ready, serving, service, _, rfl, hserv⟩

theorem protect_cfg {s : State} (hreset : s.pwr.mode ≠ .reset) (hlatch : s.pwr.mode ≠ .thermalLatch) (hhold : s.pwr.mode ≠ .safeHold)
    (hidle : protecting s = false) (cause reg : Nat) : (protect cause reg s).cfg.armed = none ∧ (protect cause reg s).cfg.live = s.cfg.live ∧
    (protect cause reg s).ev.status.getLsbD 163 = true := by
  obtain ⟨d, heq⟩ := protect_eq hreset hlatch hhold hidle cause reg
  obtain ⟨harmed, hlive⟩ := protectEnds_cfg 3 s
  rw [heq]
  simp only [writeLog_frame, raise_frame, protectEntry_frame]
  exact ⟨harmed, hlive, raise_status _ _ _ (by decide)⟩

/-! ### O22 -/

section
variable {s : State}

theorem exec_serviceStart {b : Boundary} {t : Instant} (hservice : s.pwr.service = some (b, t)) (hmode : isService s.pwr.mode = true)
    (hend : s.pwr.endAt = none) (hserving : s.pwr.serving = false) : exec .serviceStart s = .next (applyAtten { advanceTo t s with
      dl := { s.dl with cls := 0, clsAir := t, clsFrom := t }, ul := { s.ul with notBefore := t, notAfter := none },
      pwr := { s.pwr with serving := true }, rf := { s.rf with backoff := decide (s.pwr.mode = .bringUp) } }) := by
  simp [exec, execServiceStart, hservice, hmode, hend, hserving]

theorem endPlayout_dl (t : Instant) (s : State) : (endPlayout t s).dl.released = [] ∧ (endPlayout t s).dl.playing = [] := by
  unfold endPlayout
  exact ⟨rfl, rfl⟩

theorem endPlayout_lin (t : Instant) (s : State) : (endPlayout t s).lin = { s.lin with caps := (endPlayout t s).lin.caps } := by
  unfold endPlayout
  dsimp only
  split <;> simp
end

/-- Settles O22: entering a mode makes it the mode and nothing after it takes that back; service starts and ends as a whole. -/
theorem modesEnteredAndServed : Obligations.ModesEnteredAndServed := by
  unfold Obligations.ModesEnteredAndServed
  refine ⟨⟨fun t c src d s => ?_, fun s t htrans harrived => ?_⟩, fun s => ⟨fun b t hservice hmode hend hserving => ?_, fun e hend => ?_⟩⟩
  · obtain ⟨demand, en, pg, on, ready, serving, service, endAt, h⟩ := enterMode_pwr t c src d s
    exact ⟨by rw [h], by rw [h], by rw [h], enterMode_status t c src d s⟩
  · exact ⟨finishTrans t s, by simp [exec, execModeEntered, htrans, harrived], finishTrans_mode t s⟩
  · refine ⟨_, exec_serviceStart hservice hmode hend hserving, by simp, by simp, by simp, by simp, by simp [applyAtten], by simp, fun p hp => (applyAtten_atten _ hp).trans rfl, ?_⟩
    simp [applyAtten, advanceTo]
  · let v := if ((advanceTo e s).rk.start : Int) * frameU ≤ e ∧ e < digestEnd (advanceTo e s) then abortDigest (advanceTo e s) else advanceTo e s
    obtain ⟨hreleased, hplaying⟩ := endPlayout_dl e v
    have hlin : (endPlayout e v).lin = { s.lin with caps := (endPlayout e v).lin.caps } := by
      have hv : v.lin = s.lin := by simp [v]
      rw [endPlayout_lin, hv]
    refine ⟨{ endPlayout e v with
      pwr := { (endPlayout e v).pwr with serving := false, service := none, endAt := none },
      ul := { (endPlayout e v).ul with notAfter := some e } }, ?_, rfl, rfl, rfl, hreleased, hplaying, rfl, ?_⟩
    · simp only [exec, execServiceEnd, hend]
      rfl
    · apply state_eq <;> dsimp only
      case lin => exact hlin
      all_goals simp [v]

/-! ### O23 -/

/-- Settles O23: what a protective entry ends is ended at the decision, and its transition waits for nothing. -/
theorem protectionFaultHolds : Obligations.ProtectionFaultHolds := by
  unfold Obligations.ProtectionFaultHolds
  refine ⟨fun cause reg s hreset hlatch hhold hidle => ?_, fun n v s hlatch => ?_⟩
  · obtain ⟨refs, index, total, count, ready, serving, service, start, hpwr, hserv⟩ := protect_pwr hreset hlatch hhold hidle cause reg
    obtain ⟨harmed, hlive, hevent⟩ := protect_cfg hreset hlatch hhold hidle cause reg
    obtain ⟨w, hw, hmode, htrans, hcause⟩ := entry_arrives (s := protect cause reg s) (.inl rfl) (by rw [hpwr]) (by rw [hpwr])
    refine ⟨⟨_, by rw [hpwr], rfl, rfl, rfl⟩, by rw [hpwr], by rw [hpwr], by rw [hpwr], by rw [hpwr], harmed, fun h => ⟨?_, (hserv h).2⟩, hevent,
      protect_epoch .., hlive, w, hw, hmode, htrans, by rw [hcause, if_pos rfl, hpwr]⟩
    rw [hpwr]
    exact (hserv h).1
  · obtain ⟨d, e, r, w, hw, heq⟩ := thermalLatch_eq hlatch n v
    obtain ⟨refs, index, total, count, ready, endAt, serving, service, hends, hserv⟩ := protectEnds_pwr 4 w
    have hpwr : (thermalLatch n v s).pwr = _ := heq ▸ protectEntry_pwr .thermalLatch _
    simp only [releaseLease_frame, writeLog_frame, requestLease_frame, revokeWrites_frame, hends] at hpwr
    have hmode : w.pwr = s.pwr := by rw [hw]; simp
    rw [hmode] at hpwr hserv
    obtain ⟨u, hu, humode, -, -⟩ := entry_arrives (s := thermalLatch n v s) (.inr rfl) (by rw [hpwr]) (by rw [hpwr])
    refine ⟨⟨_, by rw [hpwr], rfl, rfl, rfl⟩, by rw [hpwr], ?_, by rw [hpwr], ?_, fun h => by rw [hpwr]; exact (hserv h).1, ?_, u, hu, humode⟩
    · rw [heq, hw]
      simp
    · rw [heq]
      simpa using (protectEnds_cfg 4 w).1
    · rw [heq]
      simp only [protectEntry_frame, releaseLease_frame, writeLog_frame, requestLease_frame]
      refine (revokeWrites_grows ..).status 179 ((protectEnds_grows ..).status 179 ?_)
      rw [hw]
      exact raise_status _ _ _ (by decide)

end Sys2Proof.Machine
end

section
/-! SUPPORT. Regulators (R344, R345), wakes (R346 to R348) and domains on demand (R336, R340), and from them O24 and O25. -/

namespace Sys2Proof.Machine

/-! ### Regulators -/

theorem powerMode_pwr (s : State) : ∃ en on ready, (powerMode s).pwr = { s.pwr with en := en, on := on, ready := ready } := by
  unfold powerMode
  extract_lets new t _ s1
  obtain ⟨en, h⟩ := raiseNext_pwr (enablesFor s1 (heldDomains s1 ||| s1.pwr.on ||| demandMask s1)) s1
  exact ⟨en, t.pwr.on, t.pwr.ready &&& ~~~testDomains s, by rw [h]; rfl⟩

theorem dropHeld_pwr (s : State) : (dropHeld s).pwr = { s.pwr with
    on := s.pwr.on &&& ~~~(s.pwr.on &&& s.pwr.heldOff), ready := s.pwr.ready &&& ~~~(s.pwr.on &&& s.pwr.heldOff) } := by
  unfold dropHeld
  extract_lets off s1
  have h1 : s1.pwr = s.pwr := by
    simp only [s1, loseDomains_frame]
    split <;> simp
  simp only [darkenSensors_frame]
  show { s1.pwr with on := s1.pwr.on &&& ~~~off, ready := s1.pwr.ready &&& ~~~off } = _
  rw [h1]

/-- What is held off is off. -/
theorem and_dropHeld (m h on : BitVec 20) : m &&& (on &&& ~~~(on &&& (h ||| m))) = 0 := by
  apply BitVec.eq_of_getLsbD_eq
  intro i hi
  simp only [BitVec.getLsbD_and, BitVec.getLsbD_not, BitVec.getLsbD_or, BitVec.ofNat_eq_ofNat, BitVec.getLsbD_zero, hi, decide_true, Bool.true_and]
  cases m.getLsbD i <;> cases on.getLsbD i <;> simp

/-- The power-good of regulator k is noted, and no domain that is fed again is held off. -/
def pgNoted (k : Nat) (s : State) : State :=
  let s1 := { s with pwr := { s.pwr with pg := s.pwr.pg ||| BitVec.twoPow 8 k } }
  { s1 with pwr := { s1.pwr with heldOff := s1.pwr.heldOff &&& ~~~fedDomains s1 } }

section
variable {s : State} {k : Nat} (hk : k < 8) (hen : s.pwr.en.getLsbD k = true)
include hk hen

theorem exec_pgGood (hpg : s.pwr.pg.getLsbD k = false) (hin : s.boot.inReset = false) : exec (.pgGood k) s =
    (let w := pgNoted k s
     if w.pwr.mode = .reset then
       .next (if k = 0 then enterMode (if w.th.latch then .thermalLatch else .boot) 6 0 (usSince w.boot.t0 w) w else w)
     else if w.pwr.trans.isSome then .next (progress w) else .next (powerMode w)) :=
  if_pos ⟨hk, hen, by simp [hpg], by simp [hin]⟩

/-- PG[0] in RESET enters BOOT, or THERMAL-LATCH where the latch is set (R422). -/
theorem exec_pgGood_reset (hpg : s.pwr.pg.getLsbD k = false) (hin : s.boot.inReset = false) (hmode : s.pwr.mode = .reset) (hzero : k = 0) :
    ∃ t, exec (.pgGood k) s = .next t ∧ t.pwr.mode = (if s.th.latch then .thermalLatch else .boot) := by
  let w := pgNoted k s
  obtain ⟨demand, en, pg, on, ready, serving, service, endAt, h⟩ :=
    enterMode_pwr (if w.th.latch then .thermalLatch else .boot) 6 0 (usSince w.boot.t0 w) w
  refine ⟨_, (exec_pgGood hk hen hpg hin).trans ((if_pos hmode).trans (congrArg _ (if_pos hzero))), ?_⟩
  rw [h]
  rfl

/-- Elsewhere a power-good is noted, and what it feeds goes on. -/
theorem exec_pgGood_noted (hpg : s.pwr.pg.getLsbD k = false) (hin : s.boot.inReset = false) (hmode : s.pwr.mode ≠ .reset) :
    ∃ t, exec (.pgGood k) s = .next t ∧ t.pwr.pg = s.pwr.pg ||| BitVec.twoPow 8 k ∧ t.pwr.mode = s.pwr.mode := by
  have hexec := (exec_pgGood hk hen hpg hin).trans (if_neg hmode)
  cases htrans : (pgNoted k s).pwr.trans with
  | none =>
    obtain ⟨en, on, ready, h⟩ := powerMode_pwr (pgNoted k s)
    exact ⟨_, hexec.trans (if_neg (by simp [htrans])), by rw [h]; rfl, by rw [h]; rfl⟩
  | some t =>
    obtain ⟨en, on, ready, powered, h⟩ := progress_pwr htrans
    exact ⟨_, hexec.trans (if_pos (by simp [htrans])), by rw [h]; rfl, by rw [h]; rfl⟩

theorem exec_pgTimeout_holdsOff (hpg : s.pwr.pg.getLsbD k = false) (hmode : s.pwr.mode ≠ .reset) (htrans : s.pwr.trans = none) :
    ∃ t, exec (.pgTimeout k) s = .next t ∧ t.pwr.heldOff = s.pwr.heldOff ||| BitVec.ofNat 20 (regMask s k) ∧ t = { s with pwr := t.pwr } := by
  let v : State := { s with pwr := { s.pwr with
    heldOff := s.pwr.heldOff ||| BitVec.ofNat 20 (regMask s k),
    demand := s.pwr.demand.filter fun e => !(regMask s k).testBit e.1 || s.pwr.on.getLsbD e.1 } }
  obtain ⟨en, h⟩ := raiseNext_pwr (enablesFor v (heldDomains v ||| v.pwr.on ||| demandMask v)) v
  refine ⟨raiseNext (enablesFor v (heldDomains v ||| v.pwr.on ||| demandMask v)) v, ?_, by rw [h], by rw [h]⟩
  refine (if_pos ⟨hk, hen, by rw [hpg]; rfl⟩).trans ((if_neg hmode).trans ?_)
  simp only [htrans, Bool.false_eq_true, if_false, v]

section
variable (hpg : s.pwr.pg.getLsbD k = true)
include hpg

theorem exec_pgLoss_unfed (hmode : s.pwr.mode ≠ .reset) (hmask : BitVec.ofNat 20 (regMask s k) &&& (s.pwr.on ||| heldDomains s) = 0) :
    exec (.pgLoss k) s = .next { s with pwr := { s.pwr with pg := s.pwr.pg &&& ~~~BitVec.twoPow 8 k } } :=
  (if_pos ⟨hk, hen, hpg, hmode⟩).trans (if_pos hmask)

/-- A lost power-good of a fed domain starts the entry into SAFE-HOLD with cause 8, and its domains go off (R345). -/
theorem exec_pgLoss_holds (hmode : isOperate s.pwr.mode = true) (htrans : s.pwr.trans = none)
    (hmask : BitVec.ofNat 20 (regMask s k) &&& (s.pwr.on ||| heldDomains s) ≠ 0) : ∃ t tr, exec (.pgLoss k) s = .next t ∧
    t.pwr.trans = some tr ∧ tr.target = .safeHold ∧ t.pwr.cause = 8 ∧ t.pwr.causeReg = k ∧ BitVec.ofNat 20 (regMask s k) &&& t.pwr.on = 0 := by
  have hreset : s.pwr.mode ≠ .reset := by rintro h; simp [h, isOperate] at hmode
  have hlatch : s.pwr.mode ≠ .thermalLatch := by rintro h; simp [h, isOperate] at hmode
  have hhold : s.pwr.mode ≠ .safeHold := by rintro h; simp [h, isOperate] at hmode
  obtain ⟨v, hv, hexec⟩ : ∃ v, v.pwr = { s.pwr with
      pg := s.pwr.pg &&& ~~~BitVec.twoPow 8 k, heldOff := s.pwr.heldOff ||| BitVec.ofNat 20 (regMask s k) } ∧
      exec (.pgLoss k) s = .next (dropHeld (protect 8 k v)) :=
    ⟨_, by simp, (if_pos ⟨hk, hen, hpg, hreset⟩).trans (if_neg hmask)⟩
  obtain ⟨refs, index, total, count, ready, serving, service, start, hpwr, -⟩ := protect_pwr (s := v) (by rwa [hv]) (by rwa [hv]) (by rwa [hv])
    (by simp [protecting, protectiveEntry, hv, htrans]) 8 k
  have hdrop := dropHeld_pwr (protect 8 k v)
  rw [hpwr, hv] at hdrop
  refine ⟨_, _, hexec, by rw [hdrop], rfl, by rw [hdrop], by rw [hdrop]; rfl, ?_⟩
  rw [hdrop]
  exact and_dropHeld _ _ _
end
end

/-- Settles O24: a good power-good goes on with what it feeds, a timeout holds off, a loss protects and switches off. -/
theorem regulatorRows : Obligations.RegulatorRows := by
  unfold Obligations.RegulatorRows
  intro s k hk hen
  refine ⟨exec_pgGood_reset hk hen, exec_pgGood_noted hk hen, fun hpg hmode hzero => ?_, exec_pgTimeout_holdsOff hk hen,
    exec_pgLoss_unfed hk hen, exec_pgLoss_holds hk hen⟩
  subst hzero
  exact (if_pos ⟨hk, hen, by rw [hpg]; rfl⟩).trans ((if_pos hmode).trans (if_pos rfl))

end Sys2Proof.Machine
end

section
/-! SUPPORT. Wakes (R346 to R348) and domains on demand (R336, R340), and from them O25. -/

namespace Sys2Proof.Machine

/-! ### Wakes from LISTEN -/

theorem startTrans_live (t : Mode) (cause source : Nat) (req : PwrReq) (s : State) : (startTrans t cause source req s).cfg.live = s.cfg.live := by
  have hcancel : ∀ w : State, (cancelArmed 5 w).cfg.live = w.cfg.live := fun w => by
    cases h : w.cfg.armed with
    | none => simp [cancelArmed, h]
    | some e => simp [cancelArmed_cfg h]
  unfold startTrans
  extract_lets s0 s1 _ s2 e raised s3
  have h0 : s0.cfg = s.cfg := by
    simp only [s0]
    split <;> simp
  have h1 : s1.cfg.live = s.cfg.live := by
    simp only [s1]
    split
    · rw [hcancel, h0]
    · rw [h0]
  have h3 : s3.cfg = s1.cfg := by
    simp only [s3, s2]
    split <;> split <;> simp
  simp [h3, h1]

theorem exec_pcieWake {s : State} (harmed : s.pwr.armed.getLsbD 7 = true) : exec .pcieWake s = .next (startWake 8 false s) :=
  congrArg _ (if_pos harmed)

section
variable {s : State} (hmode : s.pwr.mode = .listen) (htrans : s.pwr.trans = none) (source : Nat) (retry : Bool)
include hmode htrans

/-- With an oscillator active a wake leads to STANDBY. -/
theorem startWake_standby (hactive : s.clk.active ≠ 3) : ∃ wake endAt en on ready raised powered start, (startWake source retry s).pwr = { s.pwr with
    lastSource := source, retry := none, retrying := retry, wake := wake, endAt := endAt, en := en, on := on, ready := ready,
    trans := some ⟨s.pwr.mode, .standby, start, 2, source, {}, raised, powered⟩ } := by
  let v : State := { s with pwr := { s.pwr with lastSource := source, retry := none, retrying := retry } }
  obtain ⟨wake, endAt, en, on, ready, raised, powered, h⟩ := startTrans_pwr .standby 2 source {} v
  have hrf : wakesWithoutRf (startTrans .standby 2 source {} v) = false := by
    have hclk : (startTrans .standby 2 source {} v).clk = s.clk := by simp [v]
    simp only [wakesWithoutRf, hclk]
    simp [hactive]
  have hstart : startWake source retry s = startTrans .standby 2 source {} v :=
    (if_pos ⟨.inl hmode, by simp [htrans]⟩).trans (if_neg (Bool.eq_false_iff.mp hrf))
  exact ⟨wake, endAt, en, on, ready, raised, powered, _, by rw [hstart, h]⟩

/-- Where no oscillator can qualify, a wake leads to BRING-UP without RF (R424). -/
theorem startWake_bringUp (hactive : s.clk.active = 3) (hA : oscOf s 0 ≠ 1) (hB : oscOf s 1 ≠ 1) (hlive : liveFails23 s = false) :
    ∃ tr, (startWake source retry s).pwr.trans = some tr ∧ tr.target = .bringUp ∧ tr.source = source := by
  let v : State := { s with pwr := { s.pwr with lastSource := source, retry := none, retrying := retry } }
  obtain ⟨wake, endAt, en, on, ready, raised, powered, h⟩ := startTrans_pwr .standby 2 source {} v
  generalize hw : startTrans .standby 2 source {} v = w at h
  have hclk : w.clk = s.clk := by rw [← hw]; simp [v]
  have hlive' : liveFails23 w = false := by
    rw [← hlive, liveFails23, liveFails23, ← hw, startTrans_live]
  have htr : w.pwr.trans = some ⟨s.pwr.mode, .standby, s.tm.raw, 2, source, {}, raised, powered⟩ := by rw [h]
  have hrf : wakesWithoutRf w = true := by
    simp only [wakesWithoutRf, htr, hclk, hactive, hlive']
    simpa [oscOf] using ⟨hA, hB⟩
  have hstart : startWake source retry s = wakeWithoutRf w := by
    refine (if_pos ⟨.inl hmode, by simp [htrans]⟩).trans ?_
    show (if wakesWithoutRf (startTrans .standby 2 source {} v) then wakeWithoutRf (startTrans .standby 2 source {} v) else _) = _
    rw [hw, if_pos hrf]
  rw [hstart, wakeWithoutRf, htr]
  dsimp only
  obtain ⟨en', on', ready', powered', hprogress⟩ := progress_pwr (s := { w with pwr := { w.pwr with
    trans := some ⟨s.pwr.mode, .bringUp, s.tm.raw, 2, source, {}, raised ||| (enablesFor w (modeDomains w .bringUp) &&& ~~~w.pwr.en), powered⟩ } }) rfl
  exact ⟨_, by rw [hprogress], rfl, rfl⟩

theorem exec_wakeSenseTrip (hactive : s.clk.active ≠ 3) {w : SenseLevel} (hk : w.comparator < 4)
    (hsense : s.pwr.senseArmed.getLsbD w.comparator = true) (harmed : s.pwr.armed.getLsbD w.comparator = true)
    (hbeyond : senseBeyond s w.comparator w.level = true) : ∃ t tr, exec (.wakeSenseTrip w) s = .next t ∧ t.pwr.trans = some tr ∧
    tr.target = .standby ∧ tr.cause = 2 ∧ tr.source = w.comparator + 1 ∧ t.pwr.senseArmed.getLsbD w.comparator = false := by
  let v : State := { senseInput w s with pwr := { (senseInput w s).pwr with
    senseArmed := (senseInput w s).pwr.senseArmed &&& ~~~BitVec.twoPow 4 w.comparator } }
  obtain ⟨wake, endAt, en, on, ready, raised, powered, start, h⟩ := startWake_standby (s := v) hmode htrans (w.comparator + 1) false hactive
  have hwake : wakeBy w.comparator v = startWake (w.comparator + 1) false v := if_pos harmed
  refine ⟨wakeBy w.comparator v, _, ?_, by rw [hwake, h], rfl, rfl, rfl, ?_⟩
  · exact (if_neg (by omega)).trans (if_pos ⟨.inl hmode, hsense, hbeyond⟩)
  · rw [hwake, h]
    simp [v]

theorem exec_rxEnergyWake (hactive : s.clk.active ≠ 3) {p : Nat} {x : Int} (hp : p < 64) (hmask : s.pwr.wake.energyMask.testBit p = true)
    (hx : s.pwr.wake.energy < x) (hready : s.pwr.ready.getLsbD (16 + p / 16) = true) (harmed : s.pwr.armed.getLsbD 4 = true) :
    ∃ t tr, exec (.rxEnergyWake p x) s = .next t ∧ t.pwr.trans = some tr ∧ tr.target = .standby ∧ tr.source = 5 := by
  obtain ⟨wake, endAt, en, on, ready, raised, powered, start, h⟩ := startWake_standby hmode htrans 5 false hactive
  have hwake : wakeBy 4 s = startWake 5 false s := if_pos harmed
  exact ⟨wakeBy 4 s, _, if_pos ⟨hmode, hp, hmask, hx, hready⟩, by rw [hwake, h], rfl, rfl⟩

theorem exec_wakeTimer (hactive : s.clk.active ≠ 3) (harmed : s.pwr.armed.getLsbD 5 = true) : ∃ t tr, exec .wakeTimer s = .next t ∧
    t.pwr.trans = some tr ∧ tr.target = .standby ∧ tr.source = 6 ∧ t.pwr.armed.getLsbD 5 = false := by
  generalize hv : advanceSince s.pwr.since (s.pwr.wake.timer * 1474560) s = v
  have hpwr : v.pwr = s.pwr := by rw [← hv]; simp
  have hclk : v.clk = s.clk := by rw [← hv]; simp
  obtain ⟨wake, endAt, en, on, ready, raised, powered, start, h⟩ :=
    startWake_standby (s := v) (by rwa [hpwr]) (by rwa [hpwr]) 6 false (by rwa [hclk])
  have hwake : wakeBy 5 v = startWake 6 false v := if_pos (by rwa [hpwr])
  refine ⟨wakeOnce 5 v, _, ?_, by rw [wakeOnce, hwake, h], rfl, rfl, by rw [wakeOnce, hwake, h]; simp⟩
  rw [← hv]
  exact if_pos ⟨.inl hmode, harmed, by simp [htrans]⟩

theorem exec_wakeRetry (hactive : s.clk.active ≠ 3) {r : Nat} (hretry : s.pwr.retry = some r) : ∃ t tr, exec .wakeRetry s = .next t ∧
    t.pwr.trans = some tr ∧ tr.target = .standby ∧ tr.source = s.pwr.lastSource ∧ t.pwr.retrying = true ∧ t.pwr.retry = none := by
  generalize hv : advanceSince r 14745600 s = v
  have hpwr : v.pwr = s.pwr := by rw [← hv]; simp
  have hclk : v.clk = s.clk := by rw [← hv]; simp
  obtain ⟨wake, endAt, en, on, ready, raised, powered, start, h⟩ :=
    startWake_standby (s := v) (by rwa [hpwr]) (by rwa [hpwr]) s.pwr.lastSource true (by rwa [hclk])
  exact ⟨startWake s.pwr.lastSource true v, _, by simp only [exec, execWakeRetry, hretry, hv], by rw [h], rfl, rfl, by rw [h], by rw [h]⟩
end

theorem exec_wakeSenseRearm {s : State} (hmode : s.pwr.mode = .listen) {w : SenseLevel} (hk : w.comparator < 4) : exec (.wakeSenseRearm w) s = .next (
    if senseArms s w.comparator w.level then { s with pwr := { s.pwr with
      sense := tset 0 s.pwr.sense w.comparator w.level, senseArmed := s.pwr.senseArmed ||| BitVec.twoPow 4 w.comparator } }
    else senseInput w s) := by
  have hnot : ¬4 ≤ w.comparator := by omega
  refine (if_neg hnot).trans ?_
  by_cases h : senseArms s w.comparator w.level = true
  · exact (if_pos ⟨.inl hmode, h⟩).trans (congrArg _ (if_pos h).symm)
  · exact (if_neg fun hc => h hc.2).trans (congrArg _ (if_neg h).symm)

/-! ### Domains on demand (R336, R340) -/

/-- A domain that an access wakes at once: it comes on, and the time of the access is kept. -/
theorem exec_domainReady {s : State} {d : Nat} (hd : d < 20) (hready : s.pwr.ready.getLsbD d = false) (hwakes : wakes d s = true)
    (hfed : fed s d = true) (htest : s.test.run = none) : exec (.domainReady d) s =
    .next (comeOn (BitVec.twoPow 20 d) { s with pwr := { s.pwr with demand := tset 0 s.pwr.demand d (s.tm.raw + 1) } }) := by
  have haccess : accessDomain d s =
      some (comeOn (BitVec.twoPow 20 d) { s with pwr := { s.pwr with demand := tset 0 s.pwr.demand d (s.tm.raw + 1) } }) := by
    simp [accessDomain, hready, hwakes, hfed, stopTestOn, comeOn, htest]
  refine (if_pos ⟨hd, by rw [hready]; rfl⟩).trans ?_
  rw [haccess]

theorem wakeDomain_pwr (d : Nat) (s : State) : ∃ en, wakeDomain d s =
    { s with pwr := { s.pwr with en := en, demand := tset 0 s.pwr.demand d (s.tm.raw + 1) } } := by
  unfold wakeDomain
  extract_lets _ s1
  obtain ⟨en, h⟩ := raiseNext_pwr (enablesFor s1 (s1.pwr.on ||| heldDomains s1 ||| demandMask s1)) s1
  exact ⟨en, h⟩

/-- A failed access raises EV_WAKE_STALL_TIMEOUT. -/
theorem failAccess_status (d requester info : Nat) (s : State) : (failAccess d requester info s).ev.status.getLsbD 162 = true := by
  unfold failAccess
  extract_lets s1
  have h1 : s1.ev.status.getLsbD 162 = true := raise_status _ _ _ (by decide)
  split
  · obtain ⟨en, h⟩ := wakeDomain_pwr d s1
    rw [h]
    exact h1
  · exact h1

/-- An idle domain is off, and no wake on demand keeps it. -/
theorem exec_domainIdleOff {s : State} {d : Nat} (hdemand : tget 0 s.pwr.demand d ≠ 0)
    (hheld : (heldDomains s ||| testDomains s).getLsbD d = false) (hleased : leasedIn s d = false) : ∃ t, exec (.domainIdleOff d) s = .next t ∧
    t.pwr.on.getLsbD d = false ∧ t.pwr.ready.getLsbD d = false ∧ tget 0 t.pwr.demand d = 0 ∧ t.pwr.mode = s.pwr.mode := by
  obtain ⟨v, en, pg, hv, hexec⟩ : ∃ (v : State) (en pg : BitVec 8), v.pwr = { s.pwr with
      demand := tset 0 s.pwr.demand d 0, on := s.pwr.on &&& ~~~BitVec.twoPow 20 d, ready := s.pwr.ready &&& ~~~BitVec.twoPow 20 d } ∧
      exec (.domainIdleOff d) s = .next (darkenSensors { v with pwr := { v.pwr with en := en, pg := pg } }) :=
    ⟨_, _, _, by simp, if_pos ⟨hdemand, by rw [hheld]; rfl, by rw [hleased]; rfl⟩⟩
  refine ⟨_, hexec, ?_, ?_, ?_, ?_⟩ <;> simp [hv]

/-! ### O25 -/

/-- Settles O25: a wake starts its transition with its source's number; a domain is woken, stalls or fails by what the mode and its regulators
let it; an idle or unquiet one goes as its row says. -/
theorem wakesAndDomains : Obligations.WakesAndDomains := by
  unfold Obligations.WakesAndDomains
  refine ⟨fun s hmode htrans => ⟨fun hactive => ⟨fun w hk hsense harmed hbeyond => exec_wakeSenseTrip hmode htrans hactive hk hsense harmed hbeyond,
      fun p x hp hmask hx hready harmed => exec_rxEnergyWake hmode htrans hactive hp hmask hx hready harmed, exec_wakeTimer hmode htrans hactive,
      fun harmed => ?_, fun r hretry => exec_wakeRetry hmode htrans hactive hretry⟩, fun hactive hA hB hlive harmed => ?_,
      fun w hk => ⟨fun h => ?_, fun h => ?_⟩⟩,
    fun s d hd => ⟨fun hready hwakes hfed htest => ⟨_, exec_domainReady hd hready hwakes hfed htest⟩, fun hready o dma => ?_,
      exec_domainIdleOff, fun tr htrans hon htarget hend => ⟨fun hcause => ?_, fun hcause => ?_⟩, fun htrans hdemand => ?_⟩,
    fun ring dma s h d haccess => ⟨fun hwakes => ?_, fun hwakes => ?_⟩⟩
  · obtain ⟨wake, endAt, en, on, ready, raised, powered, start, h⟩ := startWake_standby hmode htrans 8 false hactive
    exact ⟨_, _, exec_pcieWake harmed, by rw [h], rfl, rfl⟩
  · obtain ⟨tr, h⟩ := startWake_bringUp hmode htrans 8 false hactive hA hB hlive
    exact ⟨_, tr, exec_pcieWake harmed, h⟩
  · exact (exec_wakeSenseRearm hmode hk).trans (congrArg _ (if_pos h))
  · exact (exec_wakeSenseRearm hmode hk).trans (congrArg _ (if_neg (Bool.eq_false_iff.mp h)))
  · exact ⟨_, if_pos ⟨hd, by rw [hready]; rfl⟩, rfl, failAccess_status d 1 o s⟩
  · simp [exec, execQuiesceTimeout, htrans, hon, htarget, hend, hcause]
  · refine ⟨advanceSince tr.start (usTicks 10) { s with pwr := { s.pwr with aborted := (s.pwr.aborted + 1) % 2 ^ 32 } }, ?_, by simp, by simp, by simp⟩
    simp only [exec, execQuiesceTimeout, htrans, hon, htarget, hend, hcause]
    rfl
  · simp [exec, execQuiesceTimeout, htrans, hdemand]
  · obtain ⟨en, hwake⟩ := wakeDomain_pwr 2 (consumed ring h s)
    refine ⟨en, (consumed ring h s).tm.raw + 1, ?_⟩
    simp only [exec, execNvmStatus, runMessage_delivered _ d, nvmStatusBody, withLength_of_mem (show [].length ∈ [0] by simp), onDomain, haccess,
      hwakes, if_true, settle_stalled]
    rw [hwake]
    simp
  · simp only [exec, execNvmStatus, runMessage_delivered _ d, nvmStatusBody, withLength_of_mem (show [].length ∈ [0] by simp), onDomain, haccess,
      hwakes, Bool.false_eq_true, if_false, settle_err]
    rfl

end Sys2Proof.Machine
end

section
/-! SUPPORT. Thermal configuration, demands and results (R357 to R359, R364, R365), and from them O19. -/

namespace Sys2Proof.Machine

/-! ### Demands (R358) -/

theorem thermalPeriod_fast {s : State} (h : s.pwr.mode = .boot ∨ s.pwr.mode = .calibrate ∨ s.pwr.mode = .selfTest ∨ recovering s = true) :
    thermalPeriod s = 50 := by
  rcases h with h | h | h | h
  · simp [thermalPeriod, h]
  · simp [thermalPeriod, h]
  · simp [thermalPeriod, h]
  · have hmode : s.pwr.mode = .safeHold := by
      simp only [recovering, Bool.and_eq_true, decide_eq_true_eq] at h
      exact h.1
    simp [thermalPeriod, h, hmode]

theorem thermalPeriod_slow {s : State} (h : s.pwr.mode = .bringUp ∨ s.pwr.mode = .standby ∨ s.pwr.mode = .listen ∨ isOperate s.pwr.mode = true ∨
    (s.pwr.mode = .safeHold ∧ recovering s = false)) : thermalPeriod s = 100 := by
  rcases h with h | h | h | h | ⟨h, hrec⟩
  · simp [thermalPeriod, h]
  · simp [thermalPeriod, h]
  · simp [thermalPeriod, h]
  · simp only [isOperate, Bool.or_eq_true, decide_eq_true_eq] at h
    rcases h with h | h <;> simp [thermalPeriod, h]
  · simp [thermalPeriod, h, hrec]

theorem demandSensor_starts {s : State} {n : Nat} (hm : measurable s n = true) (hcount : (sensorOf s n).counting = none) (arm : Nat) :
    sensorOf (demandSensor arm s n) n = { sensorOf s n with counting := some (s.tm.raw, arm) } := by
  simp [demandSensor, hm, hcount]

/-! ### Results (R357, R359) -/

/-- A result outside the range is a sensor fault: stored with VALID 0, counted and raised. -/
theorem sensorFault_stores (n : Nat) (v : Int) (count : Nat) (s : State) : let t := sensorFault n v count s
    (sensorOf t n).temp = v ∧ (sensorOf t n).valid = false ∧ (sensorOf t n).counting = none ∧
    t.th.faults = Nat.min 0xFFFFFFFF (s.th.faults + 1) ∧ t.ev.status.getLsbD 176 = true ∧ ∀ m, m ≠ n → sensorOf t m = sensorOf s m := by
  have hsensor : ∀ m, sensorOf (sensorFault n v count s) m = if m = n then { sensorOf s n with
      temp := v, valid := false, counting := none, hot := 0, upW := 0, downW := 0, upD := 0, downD := 0, last := [], hist := [] }
      else sensorOf s m := fun m => by
    rw [← sensorOf_setSensor]
    simp [sensorFault, sensorOf]
  refine ⟨by simp [hsensor], by simp [hsensor], by simp [hsensor], by simp [sensorFault, satAdd, setSensor], raise_status _ _ _ (by decide),
    fun m hm => by simp [hsensor, hm]⟩

/-- A result below 125 °C that no schedule asked for is stored with VALID 1, and no threshold acts. -/
theorem judge_stores {n : Nat} {m : Reading} {s : State} {r : Nat} (hcount : (sensorOf s n).counting = some (r, 0))
    (hlow : -240 ≤ converted s m) (hhigh : converted s m < 500) : judge n m s =
      setSensor n { sensorOf s n with temp := converted s m, valid := true, counting := none, hot := 0 } (trimReference n (converted s m) s) := by
  have hin : ¬(converted s m < -240 ∨ 700 < converted s m) := by omega
  have hcool : ¬500 ≤ converted s m := by omega
  have hsensor : sensorOf (trimReference n (converted s m) s) n = sensorOf s n := rfl
  simp [judge, hin, hcool, hsensor, hcount]

section
variable {s : State} {n r a : Nat} (hcount : (sensorOf s n).counting = some (r, a))
include hcount

theorem exec_thermalResult (m : Reading) : exec (.thermalResult n m) s = .next (judge n m (advanceSince r (usTicks 12) s)) := by
  simp only [exec, execThermalResult, hcount]
end

/-! ### O19 -/

/-- Settles O19: the messages store and report; a demand starts what is measurable; a result is a fault, or is stored and not judged. -/
theorem thermalRows : Obligations.ThermalRows := by
  unfold Obligations.ThermalRows
  refine ⟨⟨fun ring dma s h d => ?_, fun ring dma s h p d hlen hgood => ?_, fun ring dma s h rd d hrd => ?_, fun s => rfl,
    fun s => ⟨fun h => by simp [thermalPeriod, h], fun h => by rcases h with h | h <;> simp [thermalPeriod, h], thermalPeriod_fast,
      thermalPeriod_slow⟩, fun s v => rfl, fun s n arm hm hcount => demandSensor_starts hm hcount arm,
    fun s n m r a hcount => exec_thermalResult hcount m⟩, fun s n m r hcount => ⟨fun hout => ?_, fun hlow hhigh => ?_⟩⟩
  · simp only [exec, execThermalConfigure, runMessage_delivered _ d, thermalConfigureBody, withLength_of_mem (show [].length ∈ [64, 0] by simp),
      if_true, settle_ok, consumed_th]
  · have hne : p ≠ [] := fun h => by simp [h] at hlen
    refine ⟨(s.th.sensor.map fun e => (e.1, resetCounts s.th.cfg p e.1 e.2)).filter fun e => decide (e.2 ≠ {}), ?_⟩
    simp only [exec, execThermalConfigure, runMessage_delivered _ d, thermalConfigureBody, withLength_of_mem (show p.length ∈ [64, 0] by simp [hlen]),
      hne, if_false, withFields_of_none hgood, settle_ok, consumed_th]
  · have hall : ((List.range 32).all fun n => !measurable s n || rd.any fun e => decide (e.1 = n)) = true := by
      simp only [List.all_eq_true, List.mem_range, Bool.or_eq_true, Bool.not_eq_true', List.any_eq_true, decide_eq_true_eq]
      intro n hn
      cases hm : measurable s n with
      | false => exact .inl rfl
      | true => exact .inr (hrd n hn hm)
    obtain ⟨w, hw⟩ : ∃ w, thermalReadBody rd (askerOf ring h s) [] (consumed ring h s) = ok (thermalReport w) w :=
      ⟨_, withLength_of_mem (show [].length ∈ [0] by simp) _ _⟩
    refine ⟨w, (if_pos hall).trans ?_⟩
    rw [runMessage_delivered _ d, hw, settle_ok]
  · have hjudge : judge n m (advanceSince r (usTicks 12) s) = sensorFault n (converted s m) m.count (advanceSince r (usTicks 12) s) :=
      if_pos hout
    obtain ⟨htemp, hvalid, hnone, hfaults, hevent, hother⟩ := sensorFault_stores n (converted s m) m.count (advanceSince r (usTicks 12) s)
    exact ⟨_, (exec_thermalResult hcount m).trans (congrArg _ hjudge), htemp, hvalid, hnone, hfaults, hevent, hother⟩
  · have hjudge := judge_stores (n := n) (m := m) (s := advanceSince r (usTicks 12) s) hcount hlow hhigh
    refine ⟨_, (exec_thermalResult hcount m).trans (congrArg _ hjudge), ?_, fun k hk => ?_, rfl, rfl, rfl⟩
    · simp only [sensorOf_setSensor, if_true]
      rfl
    · simp only [sensorOf_setSensor, hk, if_false]
      rfl

end Sys2Proof.Machine
end

section
/-! SUPPORT. Calibration runs (R373, R376, R377), and from them O16. -/

namespace Sys2Proof.Machine

/-! ### `cal.run` and `cal.status` -/

/-- STANDBY admits CALIBRATE: Table 14-3 has the row, and no check of Table 14-4 speaks of the target. -/
theorem refusalOf_calibrate {s : State} (hmode : s.pwr.mode = .standby) : refusalOf .calibrate s = none := by
  simp [refusalOf, rowFor, isOperate, hmode]

/-- The run that an admitted request leaves behind. -/
def calStarted (p : List Byte) (t : State) : State :=
  { t with cal := { t.cal with run := some { mask := u p 0 2, tx := u p 8 8, rx := u p 16 8, left := calOrder (u p 0 2) } } }

section
variable {ring : Nat} {dma : List Byte} {s : State} {h : Hdr} {p : List Byte}

/-- A request whose stage, conflicts and gates pass starts the transition into CALIBRATE from STANDBY. -/
theorem calRunBody_accepts {a : Asker} (hlen : p.length = 24) (hgood : firstBad (calFields p) = none) (hstage : stageNow s ≠ .scrapped)
    (hfactory : (u p 0 2).testBit 10 = true ∨ (u p 0 2).testBit 11 = true → factoryStage (stageNow s) = true)
    (hgate : (u p 0 2).testBit 6 = true → ∀ c < 64, (u p 8 8).testBit c = true → (chanOf s c).state = 2 ∨ (chanOf s c).state = 3)
    (hcal : longRunning .calRun s = false) (htest : longRunning .testRun s = false) (hidle : s.pwr.trans = none)
    (hmode : s.pwr.mode = .standby) :
    calRunBody a p s = accepted .calRun (calStarted p (startTrans .calibrate 5 0 {} s)) := by
  have hadmitted : (decide (stageNow s = .scrapped) || (((u p 0 2).testBit 10 || (u p 0 2).testBit 11) && !factoryStage (stageNow s))) = false := by
    simp only [hstage, decide_false, Bool.false_or, Bool.and_eq_false_iff, Bool.or_eq_false_iff, Bool.not_eq_false']
    by_cases h1 : (u p 0 2).testBit 10 = true ∨ (u p 0 2).testBit 11 = true
    · exact Or.inr (hfactory h1)
    · exact Or.inl (by simpa using h1)
  have hgates : ((u p 0 2).testBit 6 && (List.range 64).any (fun c => (u p 8 8).testBit c &&
      !decide ((chanOf s c).state = 2 ∨ (chanOf s c).state = 3))) = false := by
    simp only [Bool.and_eq_false_iff, List.any_eq_false, List.mem_range, Bool.and_eq_true, not_and, Bool.not_eq_true', decide_eq_false_iff_not,
      not_not]
    by_cases h6 : (u p 0 2).testBit 6 = true
    · exact Or.inr fun c hc hbit => hgate h6 c hc hbit
    · exact Or.inl (by simpa using h6)
  simp only [calRunBody, withLength_of_mem (show p.length ∈ [24] by simp [hlen]), withFields_of_none hgood, hadmitted, hgates, hcal, htest,
    hidle, refusalOf_calibrate hmode, Option.isSome_none, Bool.false_eq_true, or_false, if_false]
  rfl

theorem exec_calRun (d : Delivered 0x0501 ring dma s h p) {t : State} (haccepts : calRunBody (askerOf ring h s) p (consumed ring h s) =
    accepted .calRun t) : exec (.calRun ring dma) s = .next (acceptedLong .calRun (askerOf ring h s) t) := by
  have hroom : (consumed ring h s).ph.long.length < 8 := by simpa using (d.long (by decide)).2
  simp only [exec, execCalRun, runMessage_delivered _ d, haccepts, settle_accepted _ _ _ _ _ hroom]

theorem exec_calStatus (d : Delivered 0x0502 ring dma s h []) :
    exec (.calStatus ring dma) s = .next (answered (askerOf ring h s) (calStatusBytes (consumed ring h s)) (consumed ring h s)) := by
  simp only [exec, execCalStatus, runMessage_delivered _ d, withLength_of_mem (show [].length ∈ [0] by simp), settle_ok]
end

/-! ### CAL_COMPLETE (R373, R376) -/

theorem calTour_cal (t : Nat) (s : State) : (calTour t s).cal = s.cal := by
  unfold calTour
  split <;> simp

theorem calRejects_cal (f : Nat → Nat → Nat) (typ worst count : Nat) (l : List (Nat × Nat)) (s : State) :
    (l.foldl (fun t e => calReject typ e.2 worst (f count e.1) t) s).cal = s.cal := by
  induction l generalizing s with
  | nil => rfl
  | cons e l ih => simp [ih]

/-- An outcome takes its type from those left of the run. -/
theorem calOne_run (c : CalRun) (r : CalResult) (whole : Bool) (s : State) :
    ∃ d, (calOne c r whole s).cal.run = some d ∧ d.left = c.left.drop 1 := by
  unfold calOne
  extract_lets old named rej hot pass worst base entry paths run cal s1 s2
  have hs2 : s2.cal = s1.cal := by
    simp only [s2]
    rw [calRejects_cal (fun n k => n + k + 1), calTour_cal]
  exact ⟨run, by simp [hs2, s1], rfl⟩

/-- Outcomes of as many types as a run has left leave a run with none left. -/
theorem calAll_run (whole : Bool) (rs : List CalResult) (s : State) (c : CalRun) (hrun : s.cal.run = some c) (hlen : rs.length = c.left.length) :
    ∃ d, (calAll whole rs s).cal.run = some d ∧ d.left = [] := by
  induction rs generalizing s c with
  | nil => exact ⟨c, hrun, List.eq_nil_of_length_eq_zero hlen.symm⟩
  | cons r rs ih =>
    obtain ⟨d, hd, hleft⟩ := calOne_run c r (whole || !rs.isEmpty) s
    simp only [calAll, hrun]
    exact ih _ d hd (by rw [hleft, List.length_drop, ← hlen]; simp)

/-- The end of a run: none is left, and the device starts back to the mode of entry. -/
theorem calEnd_returns (st detail : Nat) (s : State) : (calEnd st detail s).cal.run = none ∧
    ∃ tr, (calEnd st detail s).pwr.trans = some tr ∧ tr.target = s.pwr.from_ ∧ tr.cause = 5 := by
  obtain ⟨wake, endAt, en, on, ready, raised, powered, hpwr⟩ :=
    startTrans_pwr s.pwr.from_ 5 0 {} { s with cal := { s.cal with run := none } }
  have htrans := congrArg (fun w => w.trans) hpwr
  exact ⟨by simp [calEnd, returnMode], _, by simpa only [calEnd, returnMode, finishLong_frame] using htrans, rfl, rfl⟩

theorem calComplete_returns {s : State} {c : CalRun} {rs : List CalResult} (hrun : s.cal.run = some c) (hmode : s.pwr.mode = .calibrate)
    (hidle : s.pwr.trans = none) (hleft : rs.map (fun r => r.typ) = c.left)
    (hdecided : ∀ r ∈ rs, calDecided (calPaths c.tx c.rx r.typ) r = true) :
    ∃ st detail v, exec (.calComplete rs .done) s = .next (calEnd st detail v) ∧ v.pwr = s.pwr := by
  have hlen : rs.length = c.left.length := by rw [← hleft, List.length_map]
  have hfits : (decide (rs.map (fun r => r.typ) = c.left.take rs.length) && rs.all fun r => calDecided (calPaths c.tx c.rx r.typ) r) = true := by
    simp only [Bool.and_eq_true, decide_eq_true_eq, List.all_eq_true]
    exact ⟨by rw [hlen, List.take_length]; exact hleft, hdecided⟩
  obtain ⟨d, hd, hnone⟩ := calAll_run true rs (finishCalJob s) c (by simpa using hrun) hlen
  have hpwr : (calAll true rs (finishCalJob s)).pwr = s.pwr := by simp
  by_cases hrej : d.rejected = 0
  · refine ⟨0, 0, _, ?_, hpwr⟩
    simp [exec, execCalComplete, hrun, hmode, hidle, hfits, hd, hnone, hrej]
  · refine ⟨stRefused, 3, _, ?_, hpwr⟩
    simp [exec, execCalComplete, hrun, hmode, hidle, hfits, hd, hnone, hrej]

/-! ### The result of a path (R373) -/

/-- The first of numbered attempts that a test accepts, its number counted from 1. -/
theorem findSome?_numbered {α β : Type} {P : α → Bool} {g : α → β} {l : List α} {k : Nat} {b : β}
    (h : ((List.range l.length).zip l).findSome? (fun (k, a) => if P a then some (k + 1, g a) else none) = some (k, b)) :
    1 ≤ k ∧ ∃ a, l[k - 1]? = some a ∧ P a = true ∧ b = g a ∧ ∀ j < k - 1, ∀ c, l[j]? = some c → P c = false := by
  obtain ⟨before, ⟨n, a⟩, after, hl, hfound, hnone⟩ := List.findSome?_eq_some_iff.mp h
  obtain ⟨haccepted, heq⟩ : P a = true ∧ (n + 1, g a) = (k, b) := by simpa using hfound
  obtain ⟨rfl, rfl⟩ := Prod.mk.inj heq
  have hat : ((List.range l.length).zip l)[before.length]? = some (n, a) := by rw [hl]; simp
  obtain ⟨hrange, hnth⟩ := List.getElem?_zip_eq_some.mp hat
  obtain ⟨hlt, hn⟩ : before.length < l.length ∧ before.length = n := by simpa [List.getElem?_eq_some_iff] using hrange
  subst hn
  refine ⟨by omega, a, by simpa using hnth, haccepted, rfl, fun j hj c hc => ?_⟩
  have hjb : j < before.length := by omega
  have hzip : ((List.range l.length).zip l)[j]? = some (j, c) :=
    List.getElem?_zip_eq_some.mpr ⟨by rw [List.getElem?_range]; omega, hc⟩
  rw [hl, List.getElem?_append_left hjb] at hzip
  simpa using hnone (j, c) (List.mem_of_getElem? hzip)

/-! ### O16 -/

/-- Settles O16: an admitted run leads into CALIBRATE, its last outcome starts the way back, and a path takes its first accepted attempt. -/
theorem calibrationRuns : Obligations.CalibrationRuns := by
  unfold Obligations.CalibrationRuns
  refine ⟨fun ring dma s h p d hlen hgood hstage hfactory hgate hcal htest hidle hmode => ?_, fun ring dma s h d => exec_calStatus d,
    fun s c rs hrun hmode hidle hleft hdecided => ?_, fun r p k d hpath => findSome?_numbered hpath⟩
  · refine exec_calRun d (calRunBody_accepts hlen hgood ?_ ?_ ?_ ?_ ?_ ?_ ?_)
    · simpa [stageNow] using hstage
    · simpa [stageNow] using hfactory
    · simpa [chanOf] using hgate
    · rwa [longRunning, consumed_long]
    · rwa [longRunning, consumed_long]
    · simpa using hidle
    · simpa using hmode
  · obtain ⟨st, detail, v, hexec, hpwr⟩ := calComplete_returns hrun hmode hidle hleft hdecided
    obtain ⟨hnone, tr, htrans, htarget, hcause⟩ := calEnd_returns st detail v
    exact ⟨_, tr, hexec, hnone, htrans, by rw [htarget, hpwr], hcause⟩

end Sys2Proof.Machine
end

section
/-! SUPPORT. Record messages and the steps in which records are written (R369, R370, R378 to R380), and from them O17. -/

namespace Sys2Proof.Machine

/-! ### Messages (R378 to R380) -/

section
variable {ring : Nat} {dma : List Byte} {s w : State} {h : Hdr} {p : List Byte}

/-- A read of the copy in force answers its state, its sequence and its bytes. -/
theorem exec_nvmRead (d : Delivered 0x0A01 ring dma s h p) (hlen : p.length = 12) (hid : u p 0 2 ∈ recordIds) (hsel : u p 2 1 = 0)
    (hzero : slice p 3 1 = zeros 1) (hcount : u p 8 4 ≤ 16320) (hw : accessDomain 2 (consumed ring h s) = some w) {k : Nat} {c : NvmCopy}
    (hforce : inForce w (u p 0 2) = some (k, c)) : exec (.nvmRead ring dma) s = .next (answered (askerOf ring h s)
      (leBytes 1 1 ++ zeros 3 ++ leBytes 4 c.seq ++ leBytes 4 c.length ++ zeros 4 ++ copyBytes c (u p 4 4) (u p 8 4))
      (readRecord (u p 0 2) k w)) := by
  have hgood : ∀ e ∈ [(0, decide (u p 0 2 ∈ recordIds)), inRange p 2 1 0 2, isZero p 3 1, inRange p 8 4 0 16320], e.2 = true := by
    simp [inRange, isZero_of_slice hzero, hid, hsel, hcount]
  simp only [exec, execNvmRead, runMessage_delivered _ d, nvmReadBody, withLength_of_mem (show p.length ∈ [12] by simp [hlen]),
    withFields_of_good hgood, onDomain_of_access hw, hsel, hforce, settle_ok]

theorem recordLength_host {id n : Nat} (hlo : 0x0210 ≤ id) (hn : n ≤ 8168) : recordLength id n = true := by
  unfold recordLength
  split
  · omega
  · omega
  · omega
  · simpa using hn

theorem recordChecks_host {id : Nat} (hlo : 0x0210 ≤ id) (d : List Byte) : recordChecks id d = [] := by
  unfold recordChecks
  split
  · omega
  · omega
  · omega
  · rfl

/-- A host record that its checks admit waits as the last write of the queue. -/
theorem exec_nvmWriteRecord (d : Delivered 0x0A02 ring dma s h p) (hlen : p.length = 8 + u p 4 4) (hlo : 0x0210 ≤ u p 0 2)
    (hhi : u p 0 2 ≤ 0x021F) (hzero : slice p 2 2 = zeros 2) (hcount : u p 4 4 ≤ 8168) (hstage : recordStage (stageNow s) = true)
    (hfree : recordBusy (u p 0 2) s = false) (hw : accessDomain 2 (consumed ring h s) = some w) :
    exec (.nvmWriteRecord ring dma) s =
      .next (deferredTo (askerOf ring h s) (queueRecord (u p 0 2) (p.drop 8) (some (askerOf ring h s)) w)) := by
  have hgood : ∀ e ∈ [(0, hostRecord (u p 0 2)), isZero p 2 2, (4, recordLength (u p 0 2) (u p 4 4))] ++
      (recordChecks (u p 0 2) (p.drop 8)).map fun c => (8 + c.1, c.2), e.2 = true := by
    simp [recordChecks_host hlo, recordLength_host hlo hcount, isZero_of_slice hzero, hostRecord, hlo, hhi]
  have hlength : ¬(p.length < 8 ∨ p.length ≠ 8 + u p 4 4) := by omega
  have hstage' : recordStage (stageNow (consumed ring h s)) = true := by simpa [stageNow] using hstage
  have hfree' : recordBusy (u p 0 2) (consumed ring h s) = false := by rwa [recordBusy, consumed_nvm]
  simp only [exec, execNvmWriteRecord, runMessage_delivered _ d, nvmWriteBody, if_neg hlength, withFields_of_good hgood, hstage', hfree',
    Bool.not_true, Bool.false_eq_true, if_false, onDomain_of_access hw, settle_deferred]

/-- The status of each record (Table 16-7). -/
def recordStatus (s : State) (id : Nat) : List Byte :=
  leBytes 2 id ++ leBytes 1 (match inForce s id with | some (w, _) => w | none => 255) ++
    leBytes 1 (copyState id (copyOf s id 0) + 4 * copyState id (copyOf s id 1)) ++ leBytes 4 (copyOf s id 0).seq ++
    leBytes 4 (copyOf s id 1).seq ++ leBytes 4 (tget 0 s.nvm.writes (2 * id)) ++ leBytes 4 (tget 0 s.nvm.writes (2 * id + 1))

theorem recordStatus_length (s : State) (id : Nat) : (recordStatus s id).length = 20 := by
  simp [recordStatus, leBytes_length]

theorem exec_nvmStatus (d : Delivered 0x0A03 ring dma s h []) (hw : accessDomain 2 (consumed ring h s) = some w) :
    exec (.nvmStatus ring dma) s = .next (answered (askerOf ring h s) (leBytes 4 w.nvm.sec ++ leBytes 4 w.nvm.ded ++
      leBytes 4 w.nvm.logNext ++ zeros 4 ++ recordIds.flatMap (recordStatus w)) w) := by
  simp only [exec, execNvmStatus, runMessage_delivered _ d, nvmStatusBody, withLength_of_mem (show [].length ∈ [0] by simp),
    onDomain_of_access hw, settle_ok]
  rfl

end

/-! ### The lease of a step (R391) -/

theorem releaseLease_unwanted {e : Nat} {s : State} (hwait : (leaseOf s e).wait = []) (hfree : (leaseOf s e).free = none)
    (hrocker : tget 0 s.rk.reg 0 = 0) : (leaseNow (releaseLease e s) e).holder = 0 := by
  simp [releaseLease, leaseNow, hfree, stretched, hrocker, passOn, hwait]

/-! ### A write's last step (R370) -/

theorem recordEffect_nvm (id : Nat) (d : List Byte) (s : State) : (recordEffect id d s).nvm.copy = s.nvm.copy ∧
    (recordEffect id d s).nvm.jobs = s.nvm.jobs ∧ (recordEffect id d s).nvm.writes = s.nvm.writes := by
  unfold recordEffect
  split_ifs <;> simp

theorem answerJob_nvm (j : NvmJob) (st : Nat) (pay : List Byte) (s : State) : (answerJob j st pay s).nvm.copy = s.nvm.copy ∧
    (answerJob j st pay s).nvm.jobs = s.nvm.jobs ∧ (answerJob j st pay s).nvm.writes = s.nvm.writes := by
  unfold answerJob
  split
  · simp
  · split_ifs <;> simp

/-- With no word struck, the check word makes a copy valid: it is counted, and its record takes effect. -/
theorem jobDone_nvm {j : NvmJob} {js : List NvmJob} {s : State} (hclean : s.ls.bad = []) : (jobDone j js s).nvm.copy = s.nvm.copy ∧
    (jobDone j js s).nvm.jobs = js ∧ (jobDone j js s).nvm.writes =
      tset 0 s.nvm.writes (2 * j.id + j.copy) (tget 0 s.nvm.writes (2 * j.id + j.copy) + 1) := by
  have hread : readCopy j.id j.copy (countWrite j.id j.copy { s with nvm := { s.nvm with jobs := js } }) =
      countWrite j.id j.copy { s with nvm := { s.nvm with jobs := js } } := readCopy_of_clean (by simpa using hclean) ..
  have hunstruck : copyStruck s j.id j.copy = false := by simp [copyStruck, hclean]
  simp [jobDone, hread, hunstruck, answerJob_nvm, recordEffect_nvm, countWrite_nvm]

/-- The words that remain, none of whose copy is struck, make the copy whole. -/
theorem writeWords_last {j : NvmJob} {js : List NvmJob} {s : State} (hclean : s.ls.bad = []) :
    let t := writeWords j js (recordWords j.data.length) s
    t.nvm.copy = tset {} s.nvm.copy (2 * j.id + j.copy) (partialCopy (copyOf s j.id j.copy) j.id j.seq j.data (recordWords j.data.length)) ∧
    t.nvm.jobs = js ∧ t.nvm.writes = tset 0 s.nvm.writes (2 * j.id + j.copy) (tget 0 s.nvm.writes (2 * j.id + j.copy) + 1) := by
  intro t
  have ht : t = jobDone j js (setCopy j.id j.copy
      (partialCopy (copyOf s j.id j.copy) j.id j.seq j.data (recordWords j.data.length)) s) := by
    simp only [t, writeWords, cleanCopy_of_clean hclean, if_true]
  have hsame : (setCopy j.id j.copy (partialCopy (copyOf s j.id j.copy) j.id j.seq j.data (recordWords j.data.length)) s).ls.bad = [] := by
    simpa using hclean
  obtain ⟨hcopy, hjobs, hwrites⟩ := jobDone_nvm (j := j) (js := js) hsame
  rw [ht]
  exact ⟨hcopy, hjobs, hwrites⟩

theorem partialCopy_short (old : NvmCopy) (id sq : Nat) (data : List Byte) {k : Nat} (hpos : k ≠ 0) (hk : k < recordWords data.length) :
    (partialCopy old id sq data k).crcOk = false := by
  rw [partialCopy, if_neg hpos, if_neg (by omega)]

/-- Words short of the record's leave its copy invalid and its write at the front of the queue; no lease changes. -/
theorem writeWords_short {j : NvmJob} {js : List NvmJob} {k : Nat} {s : State} (hpos : k ≠ 0) (hk : k < recordWords j.data.length) :
    let t := writeWords j js k s
    t.nvm.jobs = { j with words := k } :: js ∧ (copyOf t j.id j.copy).crcOk = false ∧ t.ls.entry = s.ls.entry ∧
    t = { s with nvm := t.nvm, ls := t.ls } := by
  have hcopy := partialCopy_short (copyOf s j.id j.copy) j.id j.seq j.data hpos hk
  simp only [writeWords, if_neg (Nat.ne_of_lt hk)]
  exact ⟨trivial, by simpa [setCopy, copyOf] using hcopy, rfl, rfl⟩

/-! ### NVM_WRITE_STEP (R370) -/

/-- The state in which a step that gets the lease writes. -/
def stepLeased (w : State) : State := setLease 0 { leaseNow w 0 with holder := 1, granted := w.tm.raw } w

theorem requestLease_free {w : State} (h : (leaseNow w 0).holder = 0) : requestLease 0 1 w = stepLeased w := by
  simp only [requestLease, h, if_true]
  rfl

theorem stepLeased_lease {w : State} (hfree : (leaseNow w 0).free = none) : (leaseNow (stepLeased w) 0).holder = 1 ∧
    (leaseOf (stepLeased w) 0).free = none ∧ (leaseOf (stepLeased w) 0).wait = (leaseNow w 0).wait := by
  simp [stepLeased, leaseNow_of_not_freed, hfree]

theorem stepLeased_frame (w : State) : (stepLeased w).nvm = w.nvm ∧ (stepLeased w).rk = w.rk ∧ (stepLeased w).ls.bad = w.ls.bad ∧
    stepLeased w = { w with ls := (stepLeased w).ls } := ⟨rfl, rfl, rfl, rfl⟩

theorem queuePersists_idle {s : State} (h : s.ph.long = []) : queuePersists s = s := by
  simp [queuePersists, longRunning, h]

section
variable {s w : State} {j : NvmJob} {js : List NvmJob} (hjobs : s.nvm.jobs = j :: js) (hlong : s.ph.long = [])
  (hw : accessDomain 2 s = some w) (hheld : (leaseNow w 0).holder = 0) (hfree : (leaseNow w 0).free = none)
include hjobs hlong hw hheld hfree

theorem exec_nvmWriteStep : exec .nvmWriteStep s = .next (releaseLease 0
    (writeWords j js (Nat.min (recordWords j.data.length) (j.words + 1024)) (stepLeased w))) := by
  have hqueued : (stepLeased w).nvm.jobs = j :: js := by
    rw [(stepLeased_frame w).1, accessDomain_eq hw]
    exact hjobs
  obtain ⟨hholder, hopen, _⟩ := stepLeased_lease hfree
  have hgranted : (leaseNow (stepLeased w) 0).holder = 1 ∧ (leaseNow (stepLeased w) 0).free.isNone = true :=
    ⟨hholder, by rw [leaseNow_of_not_freed hopen, hopen]; rfl⟩
  simp only [exec, execNvmWriteStep, queuePersists_idle hlong, hjobs, hw, requestLease_free hheld]
  rw [if_neg (by simp), if_pos hgranted, writeStep, hqueued]

end

/-- A step that reaches the check word makes the copy whole and leaves the next write at the front. -/
theorem whole_step {w : State} {j : NvmJob} {js : List NvmJob} {t : State} (hclean : w.ls.bad = [])
    (ht : t = releaseLease 0 (writeWords j js (recordWords j.data.length) (stepLeased w))) : t.nvm.jobs = js ∧
    copyOf t j.id j.copy =
      { id := j.id, version := 1, seq := j.seq, length := j.data.length, data := j.data, chkSeq := j.seq, crcOk := true } ∧
    (∀ id k, 2 * id + k ≠ 2 * j.id + j.copy → copyOf t id k = copyOf w id k) ∧
    tget 0 t.nvm.writes (2 * j.id + j.copy) = tget 0 w.nvm.writes (2 * j.id + j.copy) + 1 := by
  obtain ⟨hcopy, hjobs, hwrites⟩ := writeWords_last (j := j) (js := js) (s := stepLeased w) hclean
  have hnvm : t.nvm = (writeWords j js (recordWords j.data.length) (stepLeased w)).nvm := by simp [ht]
  refine ⟨by rw [hnvm, hjobs], ?_, fun id k hne => ?_, ?_⟩
  · rw [copyOf, hnvm, hcopy, tget_tset_self, partialCopy_whole]
  · rw [copyOf, hnvm, hcopy, tget_tset_ne _ _ _ hne]
    rfl
  · rw [hnvm, hwrites, tget_tset_self]
    rfl

/-- A step of 1,024 words short of the check word leaves the copy invalid, and gives the lease up. -/
theorem short_step {w : State} {j : NvmJob} {js : List NvmJob} {t : State} (hshort : j.words + 1024 < recordWords j.data.length)
    (hfree : (leaseNow w 0).free = none) (ht : t = releaseLease 0 (writeWords j js (j.words + 1024) (stepLeased w))) :
    t.nvm.jobs = { j with words := j.words + 1024 } :: js ∧ (copyOf t j.id j.copy).crcOk = false ∧
    (tget 0 w.rk.reg 0 = 0 → (leaseNow w 0).wait = [] → (leaseNow t 0).holder = 0) ∧ t = { w with nvm := t.nvm, ls := t.ls, rk := t.rk } := by
  obtain ⟨v, hv⟩ : ∃ v, v = writeWords j js (j.words + 1024) (stepLeased w) := ⟨_, rfl⟩
  obtain ⟨hjobs, hcrc, hentry, hkeeps⟩ := writeWords_short (js := js) (s := stepLeased w) (Nat.succ_ne_zero _) hshort
  rw [← hv] at ht hjobs hcrc hentry hkeeps
  have hnvm : t.nvm = v.nvm := by simp [ht]
  refine ⟨by rw [hnvm, hjobs], by rwa [copyOf, hnvm], fun hrocker hwait => ?_, ?_⟩
  · obtain ⟨_, hopen, hwaits⟩ := stepLeased_lease hfree
    rw [ht]
    refine releaseLease_unwanted ?_ ?_ (by rw [hkeeps]; exact hrocker)
    · rw [leaseOf, hentry]
      exact hwaits.trans hwait
    · rw [leaseOf, hentry]
      exact hopen
  · have hkept : v = { w with nvm := v.nvm, ls := v.ls } := hkeeps
    rw [ht, hkept]
    apply state_eq <;> simp

/-! ### The copy in force (R369) -/

theorem seqHigher_antisymm {a b : Nat} (ha : a < 2 ^ 32) (hb : b < 2 ^ 32) (h : seqHigher a b = true) : seqHigher b a = false := by
  simp only [seqHigher, Bool.and_eq_true, decide_eq_true_eq] at h
  simp only [seqHigher, Bool.and_eq_false_iff, decide_eq_false_iff_not]
  omega

/-- A whole copy whose sequence is higher than that of the other valid one is in force. -/
theorem recordData_setCopy {s : State} {id w : Nat} {c : NvmCopy} (hw : w ≤ 1) (hvalid : copyState id c = 1) (hseq : c.seq < 2 ^ 32)
    (hother : copyState id (copyOf s id (1 - w)) = 1 →
      (copyOf s id (1 - w)).seq < 2 ^ 32 ∧ seqHigher c.seq (copyOf s id (1 - w)).seq = true) :
    recordData (setCopy id w c s) id = some c.data := by
  obtain rfl | rfl : w = 0 ∨ w = 1 := by omega
  · by_cases h1 : copyState id (copyOf s id 1) = 1
    · obtain ⟨hlt, hhigher⟩ := hother h1
      have hlower := seqHigher_antisymm hseq hlt hhigher
      simp only [Nat.sub_zero] at hlower
      simp [recordData, inForce, hvalid, hlower]
    · simp [recordData, inForce, hvalid, h1]
  · by_cases h0 : copyState id (copyOf s id 0) = 1
    · have hhigher := (hother h0).2
      simp only [Nat.sub_self] at hhigher
      simp [recordData, inForce, hvalid, h0, hhigher]
    · simp [recordData, inForce, hvalid, h0]

/-! ### O17 -/

/-- Settles O17: the three messages, a step that ends its copy and one that does not, and the copy in force. -/
theorem recordsReadAndWritten : Obligations.RecordsReadAndWritten := by
  unfold Obligations.RecordsReadAndWritten
  refine ⟨⟨fun ring dma s h p w k c d hlen hid hsel hzero hcount hw hforce => exec_nvmRead d hlen hid hsel hzero hcount hw hforce,
    fun ring dma s h p w d hlen hlo hhi hzero hcount hstage hfree hw =>
      exec_nvmWriteRecord d hlen hlo hhi hzero hcount hstage hfree hw,
    fun ring dma s h w d hw => ⟨_, exec_nvmStatus d hw, flatMap_length_of_length (recordStatus_length w) recordIds⟩,
    fun s w j js hjobs hlong hw hheld hfree => ⟨fun hlast hclean => ?_, fun hshort => ?_⟩⟩,
    fun s id w sq data hw hfits hid hsq hother => ?_⟩
  · refine ⟨_, exec_nvmWriteStep hjobs hlong hw hheld hfree, ?_⟩
    rw [show Nat.min _ _ = _ from Nat.min_eq_left hlast]
    exact whole_step hclean rfl
  · refine ⟨_, exec_nvmWriteStep hjobs hlong hw hheld hfree, ?_⟩
    rw [show Nat.min _ _ = _ from Nat.min_eq_right hshort.le]
    exact short_step hshort hfree rfl
  · exact recordData_setCopy hw (by simp [copyState, hid, hfits]) hsq hother

end Sys2Proof.Machine
end

section
/-! SUPPORT. `log.read` (R381, R382), and from it O18. -/

namespace Sys2Proof.Machine

/-! ### Reading the log (R367, R381) -/

/-- What a read of the MRAM leaves as it is: the log, and the words that are struck. -/
theorem readMram_keeps (id w lo n : Nat) (s : State) :
    (readMram id w lo n s).nvm.log = s.nvm.log ∧ (readMram id w lo n s).ls = s.ls := by
  unfold readMram
  induction (s.ls.bad.filter fun h => decide (h.memory = 8) && decide (lo ≤ h.address) && decide (h.address < lo + n)) generalizing s with
  | nil => exact ⟨rfl, rfl⟩
  | cons b bs ih =>
    obtain ⟨hlog, hls⟩ := ih (raise 194 (detH (id % 256) (id / 256) (w + 256 * (if b.double then 2 else 1)) b.address)
      { s with nvm := { s.nvm with sec := satAdd 0xFFFFFFFF s.nvm.sec (b2n !b.double), ded := satAdd 0xFFFFFFFF s.nvm.ded (b2n b.double) } })
    exact ⟨hlog.trans (by simp), hls.trans (by simp)⟩

/-- The entries read: their words, and the errors that these hold. -/
def logWordsRead (first n : Nat) (s : State) : State := (List.range n).foldl (fun t k => readMram 0 0 (logWord (first + k)) 8 t) s

theorem logWordsRead_keeps (first n : Nat) (s : State) :
    (logWordsRead first n s).nvm.log = s.nvm.log ∧ (logWordsRead first n s).ls = s.ls := by
  unfold logWordsRead
  induction List.range n generalizing s with
  | nil => exact ⟨rfl, rfl⟩
  | cons k ks ih =>
    obtain ⟨hlog, hls⟩ := ih (readMram 0 0 (logWord (first + k)) 8 s)
    obtain ⟨hlog', hls'⟩ := readMram_keeps 0 0 (logWord (first + k)) 8 s
    exact ⟨hlog.trans hlog', hls.trans hls'⟩

theorem logCount_logWordsRead (first n : Nat) (s : State) : logCount (logWordsRead first n s) = logCount s := by
  obtain ⟨hlog, hls⟩ := logWordsRead_keeps first n s
  simp only [logCount, goodLog, hlog, hls]

/-! ### The answers (R382) -/

section
variable {ring : Nat} {dma : List Byte} {s w : State} {h : Hdr} {p : List Byte}

theorem exec_logRead_entries (d : Delivered 0x0D03 ring dma s h p) (hlen : p.length = 8) (hzero : slice p 2 2 = zeros 2) (hsrc : u p 0 1 = 1)
    (hclear : u p 1 1 = 0) (hcount : u p 6 2 ≤ 255) (hw : accessDomain 2 (consumed ring h s) = some w) :
    exec (.logRead ring dma) s = .next (answered (askerOf ring h s)
      (leBytes 1 1 ++ [0] ++ leBytes 2 (logCount w) ++ leBytes 2 (u p 4 2) ++ leBytes 2 (logEntries w (u p 4 2) (u p 6 2)).length ++
        (logEntries w (u p 4 2) (u p 6 2)).flatten) (logWordsRead (u p 4 2) (u p 6 2) w)) := by
  have hgood : ∀ e ∈ [(0, decide ((sourceShape 1).1 ≠ 0)), (1, decide (u p 1 1 = 0) || (decide (u p 1 1 = 1) && decide (1 ≠ 1))),
      isZero p 2 2, (6, decide (u p 6 2 * (sourceShape 1).2 ≤ 16336))], e.2 = true := by
    have hfits : u p 6 2 * 64 ≤ 16336 := by omega
    simp [isZero_of_slice hzero, hclear, sourceShape, hfits]
  rw [← logCount_logWordsRead (u p 4 2) (u p 6 2) w]
  simp only [exec, execLogRead, runMessage_delivered _ d, logReadBody, withLength_of_mem (show p.length ∈ [8] by simp [hlen]), hsrc,
    withFields_of_good hgood, if_true, onDomain_of_access hw, settle_ok, logWordsRead]

/-- One statistics record, which the read zeroes. -/
theorem exec_logRead_cleared (d : Delivered 0x0D03 ring dma s h p) (hlen : p.length = 8) (hzero : slice p 2 2 = zeros 2)
    (hsrc : u p 0 1 = 0x12) (hclear : u p 1 1 = 1) (hfirst : u p 4 2 < 64) (hcount : u p 6 2 = 1) :
    exec (.logRead ring dma) s = .next (answered (askerOf ring h s)
      (leBytes 1 0x12 ++ [0] ++ leBytes 2 64 ++ leBytes 2 (u p 4 2) ++ leBytes 2 1 ++ statBytes 0x12 (u p 4 2) (consumed ring h s))
      (statClear 0x12 (u p 4 2) (consumed ring h s))) := by
  have hgood : ∀ e ∈ [(0, decide ((sourceShape (u p 0 1)).1 ≠ 0)),
      (1, decide (u p 1 1 = 0) || (decide (u p 1 1 = 1) && decide (u p 0 1 ≠ 1))), isZero p 2 2,
      (6, decide (u p 6 2 * (sourceShape (u p 0 1)).2 ≤ 16336))], e.2 = true := by
    simp [isZero_of_slice hzero, hsrc, hclear, hcount, sourceShape]
  have hother : u p 0 1 ≠ 1 := by omega
  simp only [exec, execLogRead, runMessage_delivered _ d, logReadBody]
  rw [withLength_of_mem (show p.length ∈ [8] by simp [hlen]), withFields_of_good hgood, if_neg hother, settle_ok]
  simp [sourceShape, hsrc, hclear, hcount, hfirst]
end

theorem statGet_statClear (r : Nat) {w : Nat} (hw : w < 8) (s : State) :
    statGet 0x12 r w (statClear 0x12 r s) = statGet 0x12 r w State.reset := by
  simp only [statGet, statClear, tget_tclear]
  rw [if_pos (by omega)]
  rfl

/-! ### O18 -/

/-- Settles O18: the log's entries with the errors that the words read hold, and a statistics record that the read zeroes. -/
theorem logReadAnswers : Obligations.LogReadAnswers := by
  unfold Obligations.LogReadAnswers
  intro ring dma s h p d hlen hzero
  refine ⟨fun w hsrc hclear hcount hw => exec_logRead_entries d hlen hzero hsrc hclear hcount hw, ?_⟩
  rintro r hsrc hclear rfl hr hcount
  exact ⟨_, exec_logRead_cleared d hlen hzero hsrc hclear hr hcount, fun w hw => statGet_statClear _ hw _, rfl⟩

end Sys2Proof.Machine
end

section
/-! SUPPORT. Leases given up and revoked (R391, R392, R396, R399), the scrubber (R387), and from them O12. -/

namespace Sys2Proof.Machine

/-! ### `lease.status` (R399) -/

section
variable {ring : Nat} {dma : List Byte} {s : State} {h : Hdr} {p : List Byte}

theorem exec_leaseStatus (d : Delivered 0x0D04 ring dma s h p) (hlen : p.length = 4) (hzero : slice p 1 3 = zeros 3)
    (hlease : u p 0 1 ≤ 23 ∨ u p 0 1 = 255) : exec (.leaseStatus ring dma) s = .next (answered (askerOf ring h s)
      (if u p 0 1 = 255 then (List.range 24).flatMap (leaseRecord (consumed ring h s)) else leaseRecord (consumed ring h s) (u p 0 1))
      (consumed ring h s)) := by
  have hgood : ∀ e ∈ [(0, decide (u p 0 1 ≤ 23) || decide (u p 0 1 = 255)), isZero p 1 3], e.2 = true := by
    simpa [isZero_of_slice hzero] using hlease
  simp only [exec, execLeaseStatus, runMessage_delivered _ d, leaseStatusBody, withLength_of_mem (show p.length ∈ [4] by simp [hlen]),
    withFields_of_good hgood, settle_ok]
end

/-! ### A release (R391, R396) -/

/-- A stretch ends at a time that is still to come. -/
theorem stretched_later {e : Nat} {s : State} {r : Nat} (h : (stretched e s).1 = some r) : s.tm.raw < r := by
  unfold stretched at h
  dsimp only at h
  split_ifs at h with hoff hlater
  injection h with h
  rwa [← h]

section
variable {e : Nat} {s : State} (hfree : (leaseNow s e).free = none)
include hfree

theorem releaseLease_now (h : (stretched e s).1 = none) :
    releaseLease e s = setLease e (passOn s.tm.raw (leaseNow s e)) (stretched e s).2 := by
  rcases hs : stretched e s with ⟨_ | r, v⟩
  · simp [releaseLease, hfree, hs]
  · rw [hs] at h
    exact absurd h (by simp)

theorem releaseLease_stretched {r : Nat} (h : (stretched e s).1 = some r) :
    releaseLease e s = setLease e { leaseNow s e with free := some r } (stretched e s).2 := by
  rcases hs : stretched e s with ⟨_ | q, v⟩
  · rw [hs] at h
    exact absurd h (by simp)
  · rw [hs] at h
    obtain rfl : q = r := Option.some.inj h
    simp [releaseLease, hfree, hs]

end

theorem leaseNow_setLease_free {e : Nat} {l : Lease} (h : l.free = none) (s : State) : leaseNow (setLease e l s) e = l := by
  rw [leaseNow_of_not_freed (by simpa using h)]
  simp

theorem leaseNow_setLease_stretched {e : Nat} {l : Lease} {r : Nat} {s : State} (h : l.free = some r) (hlater : s.tm.raw < r) :
    leaseNow (setLease e l s) e = l := by
  simp [leaseNow, h, hlater]

theorem leaseOf_stretched (e f : Nat) (s : State) : leaseOf (stretched e s).2 f = leaseOf s f := by
  simp [leaseOf]

theorem leaseOf_releaseLease_other {e f : Nat} (h : f ≠ e) (s : State) : leaseOf (releaseLease e s) f = leaseOf s f := by
  unfold releaseLease
  dsimp only
  split
  · rfl
  · split <;> rename_i heq <;> simp [h, ← leaseOf_stretched e f s, heq]

/-! ### A revocation (R392) -/

/-- Nothing of leases has changed but which words of memory are struck. -/
def KeepsLeases (s t : State) : Prop := t.ls.entry = s.ls.entry ∧ t.ls.revoked = s.ls.revoked

theorem KeepsLeases.refl (s : State) : KeepsLeases s s := ⟨rfl, rfl⟩

theorem KeepsLeases.trans {r s t : State} (h : KeepsLeases r s) (k : KeepsLeases s t) : KeepsLeases r t :=
  ⟨k.1.trans h.1, k.2.trans h.2⟩

theorem KeepsLeases.of_ls {s t : State} (h : t.ls = s.ls) : KeepsLeases s t := by
  simp [KeepsLeases, h]

theorem missCapture_keepsLeases (c : Capturing) (cause : Nat) (s : State) : KeepsLeases s (missCapture c cause s) := by
  have hwritten : KeepsLeases s (capWrite c.region (capHeader c 3 cause 0) s) := ⟨rfl, rfl⟩
  refine hwritten.trans (.of_ls ?_)
  unfold missCapture
  dsimp only
  split
  · simp
  · split_ifs <;> simp

theorem missCaptures_keepsLeases (l : List Capturing) (cause : Nat) (s : State) :
    KeepsLeases s (l.foldl (fun t c => missCapture c cause t) s) := by
  induction l generalizing s with
  | nil => exact .refl s
  | cons c l ih => exact (missCapture_keepsLeases c cause s).trans (ih _)

/-- What a holder was doing ends without a change of leases. -/
theorem forceRelease_keepsLeases (e : Nat) (s : State) : KeepsLeases s (forceRelease e s) := by
  unfold forceRelease
  dsimp only
  split_ifs
  · exact .of_ls (by simp)
  · split
    · exact .refl s
    · exact .of_ls (by simp)
  · exact KeepsLeases.trans (.of_ls rfl) (missCaptures_keepsLeases ..)
  · exact .of_ls rfl
  · exact .of_ls (by simp)
  · exact .refl s

/-- What releases and requests leave of revocations: each lease's count, and the record of the last ones. -/
def KeepsRevokes (s t : State) : Prop := (∀ e, (leaseOf t e).revokes = (leaseOf s e).revokes) ∧ t.ls.revoked = s.ls.revoked ∧ t.ev = s.ev

theorem KeepsRevokes.refl (s : State) : KeepsRevokes s s := ⟨fun _ => rfl, rfl, rfl⟩

theorem KeepsRevokes.trans {r s t : State} (h : KeepsRevokes r s) (k : KeepsRevokes s t) : KeepsRevokes r t :=
  ⟨fun e => (k.1 e).trans (h.1 e), k.2.1.trans h.2.1, k.2.2.trans h.2.2⟩

theorem passOn_revokes (raw : Nat) (l : Lease) : (passOn raw l).revokes = l.revokes := by
  unfold passOn
  split <;> rfl

theorem leaseNow_revokes (s : State) (e : Nat) : (leaseNow s e).revokes = (leaseOf s e).revokes := by
  unfold leaseNow
  dsimp only
  split
  · split_ifs
    · exact passOn_revokes ..
    · rfl
  · rfl

theorem setLease_keepsRevokes {e : Nat} {l : Lease} {s : State} (h : l.revokes = (leaseOf s e).revokes) : KeepsRevokes s (setLease e l s) := by
  refine ⟨fun f => ?_, rfl, rfl⟩
  rw [leaseOf_setLease]
  split_ifs with hf
  · rw [h, hf]
  · rfl

theorem requestLease_keepsRevokes (e n : Nat) (s : State) : KeepsRevokes s (requestLease e n s) := by
  unfold requestLease
  dsimp only
  split_ifs
  · exact setLease_keepsRevokes (leaseNow_revokes s e)
  · exact .refl s
  · exact setLease_keepsRevokes (leaseNow_revokes s e)

theorem stretched_keepsRevokes (e : Nat) (s : State) : KeepsRevokes s (stretched e s).2 :=
  ⟨fun f => by rw [leaseOf_stretched], by simp, by simp⟩

theorem releaseLease_keepsRevokes (e : Nat) (s : State) : KeepsRevokes s (releaseLease e s) := by
  cases hfree : (leaseNow s e).free with
  | some r => simpa [releaseLease, hfree] using KeepsRevokes.refl s
  | none =>
    have hkeeps := stretched_keepsRevokes e s
    cases h : (stretched e s).1 with
    | none =>
      rw [releaseLease_now hfree h]
      exact hkeeps.trans (setLease_keepsRevokes (by rw [passOn_revokes, leaseNow_revokes, hkeeps.1]))
    | some r =>
      rw [releaseLease_stretched hfree h]
      exact hkeeps.trans (setLease_keepsRevokes (by rw [hkeeps.1]; exact leaseNow_revokes s e))

theorem freeCaptures_keepsRevokes (s : State) : KeepsRevokes s (freeCaptures s) := by
  have hfold (l : List Nat) (s : State) : KeepsRevokes s (l.foldl (fun t o =>
      if (leaseNow t (3 + o)).holder = 1 ∧ t.lin.caps.all (fun c => decide (c.orx ≠ o)) then releaseLease (3 + o) t else t) s) := by
    induction l generalizing s with
    | nil => exact .refl s
    | cons o l ih =>
      refine KeepsRevokes.trans ?_ (ih _)
      dsimp only
      split_ifs
      · exact releaseLease_keepsRevokes ..
      · exact .refl s
  unfold freeCaptures
  dsimp only
  split_ifs
  · exact (hfold _ s).trans (releaseLease_keepsRevokes ..)
  · exact hfold _ s

theorem writeLog_keepsLeases (kind : Nat) (d : List Byte) (s : State) : KeepsLeases s (writeLog kind d s) := by
  unfold writeLog
  dsimp only
  split_ifs <;> exact ⟨rfl, rfl⟩

/-- A revocation of a held lease: counted with the lease, recorded first, and raised. -/
def Revoked (e cause : Nat) (l : Lease) (t : State) : Prop := (leaseOf t e).revokes = Nat.min 0xFFFFFFFF (l.revokes + 1) ∧
  t.ls.revoked.head? = some (e, l.holder, cause) ∧ t.ev.status.getLsbD 208 = true

theorem Revoked.keeps {e cause : Nat} {l : Lease} {s t : State} (h : Revoked e cause l s) (k : KeepsRevokes s t) : Revoked e cause l t := by
  obtain ⟨hcount, hrecord, hraised⟩ := h
  obtain ⟨hrevokes, hrevoked, hev⟩ := k
  exact ⟨(hrevokes e).trans hcount, by rwa [hrevoked], by rwa [hev]⟩

theorem revokeEntry_revoked {e : Nat} {s : State} (h : Held e s) (cause : Nat) : Revoked e cause (leaseOf s e) (revokeEntry e cause s) := by
  refine ⟨?_, ?_, (revokeEntry_of_held h cause).1⟩
  all_goals
    obtain ⟨hheld, hfree⟩ := h
    have hgo : ¬((leaseNow s e).holder = 0 ∨ (leaseNow s e).free.isSome = true) := by simp [leaseNow_of_not_freed hfree, hheld, hfree]
    simp only [revokeEntry, if_neg hgo]
  · simp [passOn_revokes, leaseNow_of_not_freed hfree, satAdd]
  · simp [setLease, (writeLog_keepsLeases ..).2, leaseNow_of_not_freed hfree]

theorem revokeLease_revoked {e : Nat} {s : State} (h : Held e s) (cause : Nat) : Revoked e cause (leaseOf s e) (revokeLease e cause s) := by
  have hkeeps := forceRelease_keepsLeases e s
  have hsame : leaseOf (forceRelease e s) e = leaseOf s e := by rw [leaseOf, hkeeps.1, leaseOf]
  have hstill : Held e (forceRelease e s) := by unfold Held; rw [hsame]; exact h
  have hrevoked := revokeEntry_revoked hstill cause
  rw [hsame] at hrevoked
  obtain ⟨hheld, hfree⟩ := h
  have hgo : ¬((leaseNow s e).holder = 0 ∨ (leaseNow s e).free.isSome = true) := by simp [leaseNow_of_not_freed hfree, hheld, hfree]
  simp only [revokeLease, if_neg hgo]
  split_ifs
  · exact hrevoked.keeps (requestLease_keepsRevokes ..)
  · exact hrevoked.keeps (freeCaptures_keepsRevokes _)
  · exact hrevoked

/-- No write of the Bureau is under way or asked for, so that an expiry of the NVM lease finds it as it stands. -/
def NvmQuiet (s : State) : Prop := s.nvm.jobs = [] ∧ s.nvm.fwOp = none ∧ s.ph.long = []

theorem expiring_quiet {e : Nat} {s : State} (h : e = 0 → NvmQuiet s) : expiring e s = s := by
  unfold expiring
  by_cases he : e = 0
  · obtain ⟨hjobs, hop, hlong⟩ := h he
    simp [he, queuePersists_idle hlong, hjobs, hop]
  · simp [he]

theorem calGivesUp_quiet {e : Nat} {s : State} (h : e = 0 → NvmQuiet s) : calGivesUp e s = false := by
  unfold calGivesUp
  by_cases he : e = 0
  · simp [(h he).1]
  · simp [he]

theorem leaseExpiry_revokes {e : Nat} {s : State} (hlt : e < 24) (hheld : (leaseOf s e).holder ≠ 0) (hfree : (leaseOf s e).free = none)
    (hquiet : e = 0 → NvmQuiet s) : ∃ t, exec (.leaseExpiry e) s = .next t ∧ Revoked e 1 (leaseOf s e) t := by
  have hnow := leaseNow_of_not_freed hfree
  have hgo : ¬(24 ≤ e ∨ (leaseNow s e).holder = 0 ∨ (leaseNow s e).free.isSome = true) := by
    rw [hnow]
    simp [hheld, hfree, hlt]
  obtain ⟨v, hv⟩ : ∃ v, v = advanceSince (leaseNow s e).granted (leaseMax e * 1474560) s := ⟨_, rfl⟩
  have hls : v.ls = s.ls := by rw [hv]; simp only [advanceSince_frame]
  have hlater : Held e v := Held.of_ls ⟨hheld, hfree⟩ hls
  have hrevoked := revokeLease_revoked hlater 1
  rw [show leaseOf v e = leaseOf s e by rw [leaseOf, hls, leaseOf]] at hrevoked
  refine ⟨_, ?_, hrevoked⟩
  rw [hv]
  simp only [exec, execLeaseExpiry, expiring_quiet hquiet, if_neg hgo, calGivesUp_quiet hquiet, Bool.false_eq_true, if_false]

/-! ### The scrubber (R26, R387) -/

/-- Error of a word in a list of the words that are struck. -/
def errorIn (l : List ScrubHit) (m a : Nat) : Option Bool :=
  (l.find? fun h => decide (h.memory = m) && decide (h.address = a)).map fun h => h.double

/-- The words that are struck, but the one at an address. -/
def othersThan (m a : Nat) (l : List ScrubHit) : List ScrubHit := l.filter fun b => !(decide (b.memory = m) && decide (b.address = a))

theorem errorIn_cons (h : ScrubHit) (l : List ScrubHit) (m a : Nat) :
    errorIn (h :: l) m a = if h.memory = m ∧ h.address = a then some h.double else errorIn l m a := by
  by_cases hat : h.memory = m ∧ h.address = a
  · simp [errorIn, hat]
  · have hmiss : (decide (h.memory = m) && decide (h.address = a)) = false := by simpa using hat
    simp [errorIn, hmiss, hat]

theorem errorIn_othersThan (m a : Nat) (l : List ScrubHit) (n b : Nat) :
    errorIn (othersThan m a l) n b = if n = m ∧ b = a then none else errorIn l n b := by
  induction l with
  | nil => simp [errorIn, othersThan]
  | cons h l ih =>
    rcases Decidable.em (h.memory = m ∧ h.address = a) with hat | hat
    · have hout : othersThan m a (h :: l) = othersThan m a l := by simp [othersThan, hat]
      rw [hout, ih, errorIn_cons, hat.1, hat.2]
      split_ifs <;> grind
    · have hin : othersThan m a (h :: l) = h :: othersThan m a l := by
        simp only [othersThan, List.filter_cons]
        rw [if_pos (by simpa [-not_and, not_and_or] using hat)]
      rw [hin, errorIn_cons, errorIn_cons, ih]
      split_ifs <;> grind

/-- The words that a scrub has not reached keep their errors. -/
theorem afterScrub_unmet {h : ScrubHit} (hunmet : scrubbed h = true → h.met = false) :
    ∃ g, afterScrub h = some g ∧ g.memory = h.memory ∧ g.address = h.address ∧ g.double = h.double := by
  cases hs : scrubbed h with
  | false => exact ⟨h, by simp [afterScrub, hs], rfl, rfl, rfl⟩
  | true => exact ⟨{ h with met := true }, by simp [afterScrub, hs, hunmet hs], rfl, rfl, rfl⟩

theorem errorIn_afterScrub {l : List ScrubHit} (hunmet : ∀ h ∈ l, scrubbed h = true → h.met = false) (m a : Nat) :
    errorIn (l.filterMap afterScrub) m a = errorIn l m a := by
  induction l with
  | nil => rfl
  | cons h l ih =>
    obtain ⟨g, hg, hm, ha, hd⟩ := afterScrub_unmet (hunmet h (by simp))
    rw [List.filterMap_cons_some hg, errorIn_cons, errorIn_cons, hm, ha, hd, ih fun x hx => hunmet x (by simp [hx])]

/-- A state in which one more word is struck. -/
def struck (h : ScrubHit) (s : State) : State := { s with ls := { s.ls with bad := h :: othersThan h.memory h.address s.ls.bad } }

theorem othersThan_unmet {l : List ScrubHit} (hunmet : ∀ b ∈ l, scrubbed b = true → b.met = false) (m a : Nat) :
    ∀ b ∈ othersThan m a l, scrubbed b = true → b.met = false :=
  fun b hb => hunmet b (List.mem_of_mem_filter hb)

section
variable {s : State} {h : ScrubHit} (hmode : s.pwr.mode ≠ .reset) (hmemory : h.memory ∈ [3, 4, 5, 6, 7])
  (hunmet : ∀ b ∈ s.ls.bad, scrubbed b = true → b.met = false)
include hmode hmemory hunmet

/-- A scrub of one word newly struck meets that word, where it is scrubbed, and no other. -/
theorem exec_scrub_one : exec (.scrub [h]) s =
    let t := if scrubbed h && h.met then scrubMeet (struck h s) h else struck h s
    .next { t with ls := { t.ls with bad := t.ls.bad.filterMap afterScrub } } := by
  have hheld : ¬(h.memory = 1 ∨ h.memory = 2 ∨ 8 < h.memory) := by simp at hmemory; omega
  have hmram : ¬(h.memory = 8 ∧ h.double = true) := by simp at hmemory; omega
  have hstruck : strikeWord s h = struck h s := by
    simp only [strikeWord, if_neg hheld, if_neg hmram]
    rfl
  have hothers : (othersThan h.memory h.address s.ls.bad).filter (fun h => scrubbed h && h.met) = [] := by
    rw [List.filter_eq_nil_iff]
    intro b hb hmet
    obtain ⟨hs, hm⟩ := Bool.and_eq_true_iff.mp hmet
    simp [othersThan_unmet hunmet _ _ b hb hs] at hm
  have hmeets : ((struck h s).ls.bad.filter fun h => scrubbed h && h.met) = if scrubbed h && h.met then [h] else [] := by
    simp only [struck, List.filter_cons, hothers]
  simp only [exec, execScrub, if_neg hmode, List.foldl_cons, List.foldl_nil, hstruck, hmeets]
  split_ifs <;> rfl
end

theorem wordError_eq (s : State) (m a : Nat) : wordError s m a = errorIn s.ls.bad m a := rfl

section
variable {s : State} {h : ScrubHit} (hmode : s.pwr.mode ≠ .reset) (hunmet : ∀ b ∈ s.ls.bad, scrubbed b = true → b.met = false)
include hmode hunmet

/-- A struck word of a memory that is not scrubbed holds its error; no other word changes. -/
theorem scrub_unscrubbed (hmemory : h.memory ∈ [3, 5, 6]) : ∃ t, exec (.scrub [h]) s = .next t ∧
    (∀ n b, wordError t n b = if n = h.memory ∧ b = h.address then some h.double else wordError s n b) ∧
    (t.ls.sec, t.ls.ded) = (s.ls.sec, s.ls.ded) ∧ t = { s with ls := t.ls } := by
  have hs : scrubbed h = false := by simp at hmemory; rcases hmemory with e | e | e <;> simp [scrubbed, e]
  have hread : h.memory ∈ [3, 4, 5, 6, 7] := by simp at hmemory ⊢; tauto
  refine ⟨_, exec_scrub_one hmode hread hunmet, ?_⟩
  simp only [hs, Bool.false_and, Bool.false_eq_true, if_false]
  refine ⟨fun n b => ?_, rfl, rfl⟩
  have hunmet' : ∀ b ∈ (struck h s).ls.bad, scrubbed b = true → b.met = false := by
    intro x hx hscrub
    rcases List.mem_cons.mp hx with rfl | hx
    · rw [hs] at hscrub
      exact absurd hscrub (by decide)
    · exact othersThan_unmet hunmet _ _ x hx hscrub
  rw [wordError_eq, errorIn_afterScrub hunmet', struck, errorIn_cons, errorIn_othersThan, wordError_eq]
  split_ifs <;> grind

/-- A word that the scrub meets: its error, and what of it is left. -/
theorem exec_scrub_met (hmemory : h.memory = 4 ∨ h.memory = 7) (hmet : h.met = true) : exec (.scrub [h]) s =
    let t := raise (if h.double then 209 else 210) (det (h.memory % 256) 2 0 0 h.address) (sramCount h.double h.memory (struck h s))
    .next { t with ls := { t.ls with bad := (struck h s).ls.bad.filterMap afterScrub } } := by
  have hs : scrubbed h = true := by rcases hmemory with e | e <;> simp [scrubbed, e]
  have hread : h.memory ∈ [3, 4, 5, 6, 7] := by rcases hmemory with e | e <;> simp [e]
  have hbanks : h.memory ≠ 0 := by omega
  have hbad : (sramCount h.double h.memory (struck h s)).ls.bad = (struck h s).ls.bad := by
    unfold sramCount
    split_ifs <;> rfl
  rw [exec_scrub_one hmode hread hunmet]
  simp only [hs, hmet, Bool.and_self, if_true, scrubMeet, if_neg hbanks, raise_frame, hbad]

end

theorem afterScrub_struck {s : State} {h : ScrubHit} (hunmet : ∀ b ∈ s.ls.bad, scrubbed b = true → b.met = false) :
    errorIn ((struck h s).ls.bad.filterMap afterScrub) h.memory h.address = (afterScrub h).map (·.double) := by
  have hrest : errorIn ((othersThan h.memory h.address s.ls.bad).filterMap afterScrub) h.memory h.address = none := by
    rw [errorIn_afterScrub (othersThan_unmet hunmet _ _), errorIn_othersThan, if_pos ⟨rfl, rfl⟩]
  simp only [struck]
  cases hafter : afterScrub h with
  | none => rw [List.filterMap_cons_none hafter, hrest]; rfl
  | some g =>
    have hsame : g.memory = h.memory ∧ g.address = h.address := by
      unfold afterScrub at hafter
      split_ifs at hafter <;> (injection hafter with hafter; subst hafter; exact ⟨rfl, rfl⟩)
    rw [List.filterMap_cons_some hafter, errorIn_cons, if_pos hsame]
    rfl

/-! ### O12 -/

/-- Settles O12: a lease is reported, given up at once or later, and revoked at its expiry; a scrub meets what it finds. -/
theorem leasesAndScrub : Obligations.LeasesAndScrub := by
  unfold Obligations.LeasesAndScrub
  refine ⟨⟨fun ring dma s h p d hlen hzero => ⟨fun hle => ?_, fun hall => ?_⟩, fun e s hlt hheld hfree => ⟨?_, fun hopen hquiet => ?_⟩⟩,
    fun s m a hmode hmemory hunmet => ⟨?_, ?_⟩, fun s m a d met hmode hmemory hunmet => ?_⟩
  · rw [exec_leaseStatus d hlen hzero (.inl hle), if_neg (by omega)]
  · rw [exec_leaseStatus d hlen hzero (.inr hall), if_pos hall]
  · have hgo : ¬(24 ≤ e ∨ (leaseNow s e).holder = 0) := by simp [hheld, hlt]
    refine ⟨releaseLease e s, by simp only [exec, execLeaseRelease, if_neg hgo], fun f hf => leaseOf_releaseLease_other hf s,
      fun hnow => ⟨by apply state_eq <;> simp, fun hwait => ?_, fun x xs hwait => ?_⟩, fun r hlater => ⟨stretched_later hlater, ?_⟩⟩
    · rw [releaseLease_now hfree hnow, leaseNow_setLease_free (by simp [passOn, hwait])]
      simp [passOn, hwait]
    · rw [releaseLease_now hfree hnow, leaseNow_setLease_free (by simp [passOn, hwait])]
      simp [passOn, hwait, hfree]
    · rw [releaseLease_stretched hfree hlater, leaseNow_setLease_stretched rfl]
      simpa using stretched_later hlater
  · have hnow := leaseNow_of_not_freed hopen
    rw [hnow] at hheld ⊢
    exact leaseExpiry_revokes hlt hheld hopen hquiet
  · have hleft : afterScrub ⟨m, a, false, true⟩ = none := by rcases hmemory with rfl | rfl <;> rfl
    refine ⟨_, exec_scrub_met hmode hunmet hmemory rfl, ?_, ?_, ?_, raise_status 210 _ _ (by decide), ?_⟩
    · simp [sramCount, struck]
    · simp [sramCount, struck]
    · exact (afterScrub_struck (h := ⟨m, a, false, true⟩) hunmet).trans (by rw [hleft]; rfl)
    · apply state_eq <;> simp [sramCount, struck]
  · refine ⟨_, exec_scrub_met hmode hunmet hmemory rfl, ?_, ?_, raise_status 209 _ _ (by decide), ?_, ?_⟩
    · simp [sramCount, struck]
    · simp [sramCount, struck]
    · rintro rfl
      exact afterScrub_struck (h := ⟨4, a, true, true⟩) hunmet
    · apply state_eq <;> simp [sramCount, struck]
  · obtain ⟨t, hexec, herrors, hcounts, hkeeps⟩ := scrub_unscrubbed (h := ⟨m, a, d, met⟩) hmode hunmet hmemory
    exact ⟨t, hexec, by simp [herrors], fun n b hne => by rw [herrors, if_neg (by simpa using hne)], hcounts, hkeeps⟩

end Sys2Proof.Machine
end

section
/-! SUPPORT. The boot ROM, the READY handshake and the watchdog (R393, R422 to R426), and from them O10. -/

namespace Sys2Proof.Machine

/-! ### BOOT_ROM (R422, R423) -/

theorem bootDomains_frame_boot (s : State) : (bootDomains s).boot = { s.boot with romDone := true } := by
  simp [bootDomains]

theorem stageNow_bootDomains (s : State) : stageNow (bootDomains s) = stageNow s := by
  simp [stageNow]

theorem sigFailBit_status (d : List Byte) (s : State) : (sigFailBit d s).ev.status.getLsbD 227 = true := by
  unfold sigFailBit
  split_ifs with h
  · exact h
  · simp only [BitVec.getLsbD_or, BitVec.getLsbD_twoPow]
    simp

section
variable {s : State} (a : BootFlash) (b : FwHeader) (hmode : s.pwr.mode = .boot) (hrom : s.boot.romDone = false)
  (hzero : s.life.zero = false) (hstage : stageNow s ≠ .scrapped)
include hmode hrom hzero hstage

/-- The ROM in a device that it may boot: slot 0, then slot 1, then neither. -/
theorem exec_bootRom : exec (.bootRom a b) s =
    let w := openFlash a.octal (bootDomains s)
    let f := if a.slot0.headerOk then (a.slot0.keyIndex, a.slot0.securityVersion, a.slot0.version) else (0, 0, 0)
    let v := sigFailBit (sigDetail 1 f.1 f.2.1 f.2.2) w
    .next (if imageOk a.slot0 w then startAethiq a.slot0 none w
      else if imageOk b w then startAethiq b (some f) v
      else { v with boot := { v.boot with romDone := true, xspi := .released } }) := by
  have hgo : ¬(s.pwr.mode ≠ .boot ∨ s.boot.romDone = true) := by simp [hmode, hrom]
  have hkeep : (bootDomains s).life.zero = false := by simpa using hzero
  have hruns : stageNow (bootDomains s) ≠ .scrapped := by rwa [stageNow_bootDomains]
  simp only [exec, execBootRom, if_neg hgo, hkeep, Bool.false_eq_true, if_false, if_neg hruns]
  split_ifs <;> rfl

end

/-! ### SYS_READY (R424, R426) -/

section
variable {s : State} (hstarted : s.boot.started = true) (hready : s.sys.ready = false) (hctrl : s.pwr.ready.getLsbD 1 = true)
include hstarted hready hctrl

theorem exec_sysReady_restarted (hmode : s.pwr.mode ≠ .boot) (hbooted : s.boot.booted = true) :
    exec .sysReady s = .next (readPorts (announce (readRecords s))) := by
  simp only [exec, execSysReady, hstarted, hready, hctrl, hmode, hbooted, Bool.not_true, Bool.false_eq_true, or_self, if_false]

theorem exec_sysReady_boots {m : Mode} (hmode : s.pwr.mode = .boot) (hidle : s.pwr.trans = none) (hsettled : settledMode s = some m) :
    exec .sysReady s = .next (if modeDomains s m &&& ~~~(s.pwr.on ||| s.pwr.heldOff) ≠ 0 then powerMode s
      else endBoot (enterMode m 6 0 0 (readRecords (loadAtBoot s)))) := by
  have hprotect : protecting s = false := by simp [protecting, protectiveEntry, hidle]
  simp only [exec, execSysReady, hstarted, hready, hctrl, hmode, hsettled, hprotect, Bool.not_true, Bool.false_eq_true, or_self, if_false,
    if_true]
  split_ifs <;> rfl

end

theorem settledMode_cases {s : State} {m : Mode} (h : settledMode s = some m) : m = .standby ∨ m = .bringUp := by
  unfold settledMode at h
  split_ifs at h <;> (injection h with h; simp [← h])

theorem announce_sys (s : State) : (announce s).sys = { s.sys with ready := true, halted := false } := by
  simp [announce]

/-- A boot that has come to a mode announces it from that mode. -/
theorem endBoot_announces (m : Mode) (s : State) : ∃ w, endBoot (enterMode m 6 0 0 s) = bootNotices (announce w) ∧
    w.pwr.mode = m ∧ w.boot.booted = true := by
  obtain ⟨demand, en, pg, on, ready, serving, service, endAt, hpwr⟩ := enterMode_pwr m 6 0 0 s
  exact ⟨_, rfl, by simp [hpwr], by simp⟩

/-! ### WATCHDOG_EXPIRY (R393) -/

theorem endTest_over (cut answer : Bool) (r : TestResult) (s : State) : (endTest cut answer r s).test.run = none := by
  unfold endTest
  split
  · assumption
  · dsimp only
    split_ifs <;> simp

theorem stopTest_over (answer : Bool) (s : State) : (stopTest answer s).test.run = none := by
  unfold stopTest
  split
  · assumption
  · exact endTest_over ..

/-- With no test under way a transition starts without a message. -/
theorem startTrans_ph {t : Mode} {cause source : Nat} {req : PwrReq} {s : State} (h : s.test.run = none) :
    (startTrans t cause source req s).ph = s.ph := by
  have hstop : stopTest true s = s := by simp [stopTest, h]
  unfold startTrans
  extract_lets s0 s1 _ s2 _ _ s3
  have h0 : s0 = s := by simp only [s0, hstop, ite_self]
  have h1 : s1.ph = s.ph := by simp only [s1, h0]; split_ifs <;> simp
  have h2 : s2.ph = s1.ph := by simp only [s2]; split_ifs <;> rfl
  have h3 : s3.ph = s2.ph := by simp only [s3]; split_ifs <;> simp
  simp [h1, h2, h3]

theorem unsetSequences_long (s : State) : (unsetSequences s).ph.long = s.ph.long := by
  unfold unsetSequences
  induction List.range 16 generalizing s with
  | nil => rfl
  | cons k ks ih => exact (ih _).trans rfl

/-- What a restart of the firmware ends, before READY goes and the device starts back (R393). -/
def firmwareStopped (s : State) : State :=
  unsetSequences (dropKernels (dropWork (stopTest false (testLoss (stopCal false (cancelArmed 6 s))))))

theorem restartFirmware_eq (s : State) : restartFirmware s =
    let w := { firmwareStopped s with sys := { (firmwareStopped s).sys with ready := false } }
    if (w.pwr.mode = .calibrate ∨ w.pwr.mode = .selfTest) ∧ !protecting w then returnMode w else w := rfl

theorem firmwareStopped_drops (s : State) :
    (firmwareStopped s).ph.long = [] ∧ (firmwareStopped s).test.run = none ∧ (firmwareStopped s).sys = s.sys := by
  refine ⟨?_, by simp [firmwareStopped, stopTest_over], by simp [firmwareStopped]⟩
  rw [firmwareStopped, unsetSequences_long]
  simp [dropWork]

/-- A restart of the firmware drops its long operations and takes READY away. -/
theorem restartFirmware_drops (s : State) : (restartFirmware s).ph.long = [] ∧ (restartFirmware s).sys = { s.sys with ready := false } := by
  obtain ⟨hlong, hover, hsys⟩ := firmwareStopped_drops s
  rw [restartFirmware_eq]
  generalize firmwareStopped s = w at hlong hover hsys
  dsimp only
  split_ifs
  · have hquiet : { w with sys := { w.sys with ready := false } }.test.run = none := hover
    rw [returnMode, startTrans_ph hquiet]
    exact ⟨hlong, by simp [hsys]⟩
  · exact ⟨hlong, by rw [hsys]⟩

theorem exec_watchdogExpiry {s : State} (hstarted : s.boot.started = true) (hctrl : s.pwr.ready.getLsbD 1 = true)
    (hmode : s.pwr.mode ≠ .reset) (hruns : s.sys.halted = false) : ∃ t, exec .watchdogExpiry s = .next t ∧ t.sys.ready = false ∧
    t.sys.halted = true ∧ t.sys.bootCause = 3 ∧ t.sys.restarts = Nat.min 0xFFFFFFFF (s.sys.restarts + 1) ∧ t.ph.long = [] ∧
    t.cfg.epoch = s.cfg.epoch := by
  have hgo : (s.boot.started && s.pwr.ready.getLsbD 1 && decide (s.pwr.mode ≠ .reset) && !s.sys.halted) = true := by
    simp [hstarted, hctrl, hmode, hruns, -BitVec.getLsbD_eq_getElem]
  simp only [exec, execWatchdogExpiry, hgo, if_true]
  refine ⟨_, rfl, ?_⟩
  simp [restartFirmware_drops, satAdd]

/-! ### O10 -/

/-- Settles O10: the ROM takes the lowest slot that verifies, SYS_READY announces, and the watchdog halts the Bureau. -/
theorem bootReadyAndWatchdog : Obligations.BootReadyAndWatchdog := by
  unfold Obligations.BootReadyAndWatchdog
  refine ⟨fun s a b hmode hrom hzero hstage => ⟨fun hgood => ?_, fun hbad hgood => ?_, fun hbad hbad' => ?_⟩,
    fun s => ⟨fun hstarted hready hctrl hmode hbooted => exec_sysReady_restarted hstarted hready hctrl hmode hbooted,
      fun m hstarted hready hctrl hmode hidle hsettled => ⟨fun hmissing => ?_, fun hpowered => ?_⟩,
      fun w => by simp [announce_sys], fun hstarted hctrl hmode hruns => exec_watchdogExpiry hstarted hctrl hmode hruns⟩⟩
  · rw [exec_bootRom a b hmode hrom hzero hstage]
    simp only [hgood, if_true]
  · have hexec := exec_bootRom a b hmode hrom hzero hstage
    simp only [hbad, hgood, Bool.false_eq_true, if_false, if_true] at hexec
    exact ⟨_, _, hexec⟩
  · rw [exec_bootRom a b hmode hrom hzero hstage]
    simp only [hbad, hbad', Bool.false_eq_true, if_false]
    exact ⟨_, rfl, rfl, by simp [openFlash, bootDomains_frame_boot], rfl, sigFailBit_status ..⟩
  · rw [exec_sysReady_boots hstarted hready hctrl hmode hidle hsettled, if_pos hmissing]
  · rw [exec_sysReady_boots hstarted hready hctrl hmode hidle hsettled, if_neg (not_not.mpr hpowered)]
    obtain ⟨w, hw, hm, hbooted⟩ := endBoot_announces m (readRecords (loadAtBoot s))
    exact ⟨w, by rw [hw], hm, hbooted, settledMode_cases hsettled⟩

end Sys2Proof.Machine
end

section
/-! SUPPORT. `sys.fw_image` and its completion (R425), and from them O11. -/

namespace Sys2Proof.Machine

section
variable {ring : Nat} {dma : List Byte} {s w : State} {h : Hdr} {p : List Byte}

theorem exec_sysFwImage (d : Delivered 0x0104 ring dma s h p) (hlen : p.length = 16 + u p 8 4) (hgood : firstBad (fwChecks p) = none)
    (hidle : longRunning .fwImage s = false) (hw : accessDomain 2 (consumed ring h s) = some w) :
    exec (.sysFwImage ring dma) s = .next (acceptedLong .fwImage (askerOf ring h s)
      { w with nvm := { w.nvm with fwOp := some (u p 0 1, u p 4 4, p.drop 16) } }) := by
  have hlength : ¬(p.length < 16 ∨ p.length ≠ 16 + u p 8 4) := by omega
  have hidle' : longRunning .fwImage (consumed ring h s) = false := by rwa [longRunning, consumed_long]
  have hroom : (consumed ring h s).ph.long.length < 8 := by simpa using (d.long (by decide)).2
  simp only [exec, execSysFwImage, runMessage_delivered _ d, fwImageBody, if_neg hlength, withFields_of_none hgood, hidle',
    Bool.false_eq_true, if_false, onDomain_of_access hw, settle_accepted _ _ _ _ _ hroom]
end

/-- A write of the patch region leaves no valid patch, and words without errors. -/
theorem patchWrite_eq (off : Nat) (data : List Byte) (s : State) : ∃ x, patchWrite off data s = { s with
    nvm := { s.nvm with patch := tsetList 0 (if s.nvm.patchFresh then [] else s.nvm.patch) off data, patchFresh := false, patchValid := false },
    ls := { s.ls with bad := x } } := by
  unfold patchWrite
  dsimp only
  split_ifs <;> exact ⟨_, rfl⟩

/-! ### FW_IMAGE_COMPLETE -/

section
variable {s : State} {op off : Nat} {data : List Byte} (hop : s.nvm.fwOp = some (op, off, data))
include hop

theorem exec_fwImageComplete_done :
    exec (.fwImageComplete .done) s = .next (fwDone op off data { s with nvm := { s.nvm with fwOp := none } }) := by
  simp only [exec, execFwImageComplete, hop]

theorem exec_fwImageComplete_cutShort : exec (.fwImageComplete .cutShort) s =
    .next (finishLong .fwImage 0x19 0 [] { s with nvm := { s.nvm with fwOp := none, patchValid := false } }) := by
  simp only [exec, execFwImageComplete, hop]
  rfl

/-- The revocation of the lease tears the write of the patch region. -/
theorem tearWrites_patch (hjobs : s.nvm.jobs = []) : tearWrites s = finishLong .fwImage stLeaseRevoked 0 []
    { s with nvm := { s.nvm with fwOp := none, patchValid := false } } := by
  simp [tearWrites, tearPatch, hjobs, hop]

end

theorem writeLog_patch (kind : Nat) (detail : List Byte) (s : State) : (writeLog kind detail s).nvm.fwOp = s.nvm.fwOp ∧
    (writeLog kind detail s).nvm.patchValid = s.nvm.patchValid := by
  unfold writeLog
  dsimp only
  split_ifs <;> simp

theorem revokeEntry_patch (e cause : Nat) (s : State) : (revokeEntry e cause s).nvm.fwOp = s.nvm.fwOp ∧
    (revokeEntry e cause s).nvm.patchValid = s.nvm.patchValid := by
  unfold revokeEntry
  dsimp only
  split_ifs <;> simp [writeLog_patch]

theorem fwImageComplete_leaseRevoked {s : State} {op off : Nat} {data : List Byte} (hop : s.nvm.fwOp = some (op, off, data))
    (hjobs : s.nvm.jobs = []) (hfree : (leaseOf s 0).free = none) : ∃ t, exec (.fwImageComplete .leaseRevoked) s = .next t ∧
      t.nvm.fwOp = none ∧ t.nvm.patchValid = false ∧ t.ev.status.getLsbD 208 = true := by
  have hexec : exec (.fwImageComplete .leaseRevoked) s = .next (revokeStep s) := by
    simp only [exec, execFwImageComplete, hop, hjobs, finishWrites]
  have hnvm : (leaseOverheld s).nvm = s.nvm := (leaseOverheld_frame s).1
  have hheld := leaseOverheld_held hfree
  have htorn := tearWrites_patch (s := leaseOverheld s) (by rw [hnvm, hop]) (by rw [hnvm, hjobs])
  refine ⟨_, hexec, ?_⟩
  rw [revokeStep_eq, revokeLease_nvm hheld, htorn]
  refine ⟨by simp [revokeEntry_patch], by simp [revokeEntry_patch], (revokeEntry_of_held (hheld.of_ls (by simp)) 1).1⟩

/-! ### O11 -/

/-- Settles O11: the request is a long operation, and each end of each operation leaves what R425 says. -/
theorem firmwareImageOperations : Obligations.FirmwareImageOperations := by
  unfold Obligations.FirmwareImageOperations
  refine ⟨fun ring dma s h p w d hlen hgood hidle hw _ => exec_sysFwImage d hlen hgood hidle hw,
    fun s off data => patchWrite_eq off data s, fun s off data => ⟨fun hop => ?_, fun h base hop hpatch => ?_, fun hop hpatch => ?_,
      fun hop => ?_, fun op hop => exec_fwImageComplete_cutShort hop,
      fun op hop hjobs hfree => fwImageComplete_leaseRevoked hop hjobs hfree⟩⟩
  · rw [exec_fwImageComplete_done hop]
    rfl
  · rw [exec_fwImageComplete_done hop]
    simp only [fwDone, hpatch]
    rfl
  · rw [exec_fwImageComplete_done hop]
    simp only [fwDone, hpatch]
    rfl
  · exact ⟨_, exec_fwImageComplete_done hop⟩

end Sys2Proof.Machine
end

section
/-! SUPPORT. The resets (R308, R363, R420), and from them O9. -/

namespace Sys2Proof.Machine

/-! ### What the entry into a mode keeps -/

@[simp] theorem darkenSensors_latch (s : State) : (darkenSensors s).th.latch = s.th.latch := rfl

@[simp] theorem disarmThermal_latch (s : State) : (disarmThermal s).th.latch = s.th.latch := by
  simp [disarmThermal]

@[simp] theorem setDomains_latch (m : Mode) (s : State) : (setDomains m s).th.latch = s.th.latch := by
  unfold setDomains
  extract_lets _ v want en pg _ w on off s1 s2 s3 plls lo s4
  have h1 : s1.th = w.th := by simp only [s1]; split <;> simp
  have h3 : s3.th = s2.th := by simp only [s3]; split <;> simp
  have h4 : s4.th = s3.th := by simp only [s4]; split <;> simp
  rw [darkenSensors_latch]
  simp [h4, h3, s2, h1, w, v]

@[simp] theorem enterMode_latch (m : Mode) (cause source dur : Nat) (s : State) : (enterMode m cause source dur s).th.latch = s.th.latch := by
  unfold enterMode
  extract_lets old _ _ s1 s2 s3 s4 s5 t s6
  have h2 : s2.th = s1.th := by simp only [s2]; split <;> simp
  have h3 : s3.th.latch = s2.th.latch := setDomains_latch ..
  have h4 : s4.th.latch = s3.th.latch := by simp only [s4]; split <;> simp
  have h5 : s5.th = s4.th := by simp only [s5]; split <;> simp
  have h6 : s6.th = s5.th := by
    have ht : t.th = s5.th := by simp only [t]; split <;> simp
    simp only [s6]
    split
    · split <;> simp [ht]
    · rfl
  have h1 : s1.th.latch = s.th.latch := rfl
  simp only [raise_frame, notePins_frame, h6, h5, h4, h3, h2, h1]

/-! ### Into RESET (R420) -/

/-- What is under way ends before the device enters RESET. -/
def workEnded (s : State) : State := dropWork (stopTest false (drainPorts s))

theorem workEnded_keeps (s : State) : (workEnded s).boot = s.boot ∧ (workEnded s).tm = s.tm ∧ (workEnded s).th = s.th ∧
    (workEnded s).nvm.copy = s.nvm.copy := by
  simp [workEnded, dropWork]

/-- RESET after a reset of the device: AO alone is on, and what the manual names is kept. -/
theorem deviceReset_enters (cause : Nat) (s : State) : let t := deviceReset cause s
    (t.pwr.mode = .reset ∧ t.pwr.on = 1 ∧ t.pwr.en = 0) ∧ (t.boot.inReset = true ∧ t.boot.resetLow = s.boot.resetLow) ∧
    t.sys.bootCause = cause ∧ t.tm.raw = s.tm.raw ∧ t.th.latch = s.th.latch ∧ t.cfg.epoch = 1 ∧ t.nvm.copy = s.nvm.copy := by
  obtain ⟨hboot, htm, hth, hcopy⟩ := workEnded_keeps s
  have hreset : deviceReset cause s = afterReset cause (workEnded s) := rfl
  rw [hreset]
  generalize workEnded s = v at hboot htm hth hcopy
  rw [← hboot, ← htm, ← hth, ← hcopy]
  exact ⟨⟨rfl, rfl, rfl⟩, ⟨rfl, rfl⟩, rfl, rfl, rfl, rfl, rfl⟩

/-! ### Out of RESET (R363, R420) -/

/-- The release without a latch: straps sampled, t0 taken, and the first enable raised. -/
def released (straps : BitVec 8) (s : State) : State :=
  { s with bias := { s.bias with straps := straps }, boot := { s.boot with inReset := false, t0 := s.tm.raw },
           pwr := { s.pwr with en := s.pwr.en ||| 1, since := s.tm.raw } }

theorem releaseReset_unlatched {s : State} (h : s.th.latch = false) (straps : BitVec 8) : releaseReset straps s = released straps s := by
  simp only [releaseReset, h, Bool.false_eq_true, if_false]
  rfl

theorem releaseReset_latched {s : State} (h : s.th.latch = true) (straps : BitVec 8) : let t := releaseReset straps s
    t.pwr.mode = .thermalLatch ∧ t.boot.inReset = false ∧ t.pwr.en = s.pwr.en ||| 1 ∧ t.th.latch = true := by
  obtain ⟨demand, en, pg, on, ready, serving, service, endAt, hpwr⟩ := enterMode_pwr .thermalLatch 6 0 0 (released straps s)
  have hrelease : releaseReset straps s = { enterMode .thermalLatch 6 0 0 (released straps s) with
      pwr := { (enterMode .thermalLatch 6 0 0 (released straps s)).pwr with
        en := (released straps s).pwr.en, pg := (released straps s).pwr.pg } } := by
    simp only [releaseReset, h, if_true]
    rfl
  rw [hrelease]
  exact ⟨by simp [hpwr], by simp [released], rfl, by simpa [released] using h⟩

section
variable {s : State} (straps : BitVec 8)

theorem exec_resetNRelease (hreset : s.boot.inReset = true) (hgood : s.boot.supplyBad = false) : exec (.resetNRelease straps) s =
    .next (releaseReset straps { s with boot := { s.boot with resetLow := false } }) := by
  simp [exec, execResetNRelease, hreset, hgood]

theorem exec_powerOnReset (hbad : s.boot.supplyBad = true) : exec (.powerOnReset straps) s =
    .next (if s.boot.resetLow then { s with boot := { s.boot with supplyBad := false } }
      else releaseReset straps { s with boot := { s.boot with supplyBad := false } }) := by
  simp [exec, execPowerOnReset, hbad]

theorem powerOff_enters (latch : Bool) (s : State) : let t := powerOff latch s
    (t.pwr.mode = .reset ∧ t.pwr.on = 1 ∧ t.pwr.refs = [] ∧ t.stat = []) ∧ t.tm.raw = 0 ∧ t.th.latch = (latch && s.th.latch) ∧
    t.boot.supplyBad = true ∧ t.boot.inReset = true := ⟨⟨rfl, rfl, rfl, rfl⟩, rfl, rfl, rfl, rfl⟩

/-- The FRC fails: the supervisor resets the device, and RESET is left at once. -/
theorem exec_frcMonitorTrip (hout : s.boot.inReset = false) (hmode : s.pwr.mode ≠ .reset) (hlatch : s.th.latch = false) :
    exec .frcMonitorTrip s = .next (released s.bias.straps (deviceReset 3 s)) := by
  obtain ⟨_, _, _, _, hkeeps, _⟩ := deviceReset_enters 3 s
  have hgo : ¬(s.boot.inReset = true ∨ s.pwr.mode = .reset) := by simp [hout, hmode]
  simp only [exec, execFrcMonitorTrip, if_neg hgo, resetNow, releaseReset_unlatched (hkeeps.trans hlatch)]

end

/-! ### O9 -/

/-- Settles O9: each row enters RESET or leaves it with what R420 keeps. -/
theorem resetsEnterAndLeaveReset : Obligations.ResetsEnterAndLeaveReset := by
  unfold Obligations.ResetsEnterAndLeaveReset
  intro s straps
  refine ⟨fun hgood => ?_, fun hbad => ⟨?_, ?_⟩, fun hreset hgood hlatch => ?_, fun hreset hgood hlatch => ?_, fun hbad hlow => ?_,
    fun hbad hhigh hlatch => ?_, ?_, ?_, fun hout hmode hlatch => ?_, fun hmode hout hen => ?_⟩
  · obtain ⟨⟨hmode, hon, hen⟩, ⟨hreset, hlow⟩, hcause, hraw, hlatch, hepoch, hcopy⟩ :=
      deviceReset_enters 1 { s with boot := { s.boot with resetLow := true } }
    exact ⟨_, by simp only [exec, execResetN, hgood, Bool.false_eq_true, if_false], hmode, hon, hen, hreset, hlow, hcause, hraw, hlatch,
      hepoch, deviceReset_cells .., hcopy⟩
  · simp only [exec, execResetN, hbad, if_true]
  · simp [exec, execResetNRelease, hbad]
  · rw [exec_resetNRelease straps hreset hgood, releaseReset_unlatched (by simpa using hlatch)]
    rfl
  · obtain ⟨hmode, hout, hen, hset⟩ := releaseReset_latched (s := { s with boot := { s.boot with resetLow := false } }) hlatch straps
    exact ⟨_, exec_resetNRelease straps hreset hgood, hmode, hout, hen, hset⟩
  · rw [exec_powerOnReset straps hbad, if_pos hlow]
  · rw [exec_powerOnReset straps hbad, if_neg (by simp [hhigh]), releaseReset_unlatched (by simpa using hlatch)]
    rfl
  · obtain ⟨⟨hmode, hon, hrefs, hstat⟩, hraw, hlatch, hbad, hreset⟩ := powerOff_enters false s
    exact ⟨_, rfl, hmode, hon, hraw, hlatch, hbad, hreset, hrefs, hstat, powerOff_cells ..⟩
  · obtain ⟨⟨hmode, hon, _, _⟩, hraw, hlatch, hbad, hreset⟩ := powerOff_enters true s
    exact ⟨_, rfl, hmode, hon, hraw, hlatch, hbad, hreset, powerOff_cells ..⟩
  · obtain ⟨⟨hreset, _, hen⟩, _, hcause, _⟩ := deviceReset_enters 3 s
    refine ⟨_, exec_frcMonitorTrip hout hmode hlatch, hreset, hcause, rfl, ?_⟩
    simp [released, hen]
  · have hgo : s.pwr.mode = .reset ∧ (!s.boot.inReset) = true ∧ s.pwr.en = 0 := ⟨hmode, by simp [hout], hen⟩
    simp only [exec, execPg0Retry, if_pos hgo]

end Sys2Proof.Machine
end

section
/-! SUPPORT. Self-test runs (R411, R412, R415, R416), and from them O14. -/

namespace Sys2Proof.Machine

/-! ### `test.run` and `test.status` (R415, R416) -/

section
variable {ring : Nat} {dma : List Byte} {s : State} {h : Hdr} {p : List Byte}

/-- A reachable request for STANDBY begins its slices. -/
theorem testRunBody_accepts {a : Asker} (hmin : 40 ≤ p.length) (hlen : p.length = 40 + 4 * u p 6 2) (hgood : firstBad (testChecks p) = none)
    (hstart : u p 0 1 = 1) (hstay : u p 1 1 = 0) (hfree : s.test.run = none) (hcal : s.cal.run = none) (hreach : testReachable p s = true) :
    testRunBody a p s = accepted .testRun (startSlices { s with test := { s.test with run := some p, start := s.tm.raw } }) := by
  have hlength : ¬(p.length < 40 ∨ p.length ≠ 40 + 4 * u p 6 2) := by omega
  have hrun : u p 0 1 ≠ 2 := by omega
  have hidle : ¬(s.test.run.isSome = true ∨ s.cal.run.isSome = true) := by simp [hfree, hcal]
  simp only [testRunBody, if_neg hlength, withFields_of_none hgood, if_neg hrun, hreach, Bool.not_true, Bool.false_eq_true, if_false,
    if_neg hidle, hstay, if_true]
  rfl

theorem testReachable_congr {s t : State} (hlife : t.life = s.life) (hpwr : t.pwr = s.pwr) : testReachable p t = testReachable p s := by
  have hstage : stageNow t = stageNow s := by rw [stageNow, hlife, stageNow]
  have hdebug : debugEn t = debugEn s := by rw [debugEn, hlife, debugEn]
  simp only [testReachable, hstage, hdebug, hpwr]

theorem exec_testRun (d : Delivered 0x0901 ring dma s h p) {t : State} (haccepts : testRunBody (askerOf ring h s) p (consumed ring h s) =
    accepted .testRun t) : exec (.testRun ring dma) s = .next (acceptedLong .testRun (askerOf ring h s) t) := by
  have hroom : (consumed ring h s).ph.long.length < 8 := by simpa using (d.long (by decide)).2
  simp only [exec, execTestRun, runMessage_delivered _ d, haccepts, settle_accepted _ _ _ _ _ hroom]

theorem exec_testStatus (d : Delivered 0x0902 ring dma s h []) : exec (.testStatus ring dma) s = .next (answered (askerOf ring h s)
    (leBytes 1 (b2n s.test.run.isSome) ++ [0, 0, 0] ++ fitBytes 1084 s.test.block) (consumed ring h s)) := by
  simp only [exec, execTestStatus, runMessage_delivered _ d, testStatusBody, withLength_of_mem (show [].length ∈ [0] by simp), settle_ok,
    consumed_test]
end

/-! ### TEST_COMPLETE (R416) -/

/-- A request ends with its block, and its slices' domains are accessible again. -/
theorem endTest_ends {s : State} {req : List Byte} (hrun : s.test.run = some req) (cut answer : Bool) (r : TestResult) :
    let t := endTest cut answer r s
    t.test.run = none ∧ t.test.block = testBlock cut req r s ∧
    t = { s with ph := t.ph, ev := t.ev, out := t.out, test := t.test, pwr := { s.pwr with ready := t.pwr.ready } } := by
  have hblock : (endTest cut answer r s).test.block = testBlock cut req r s := by
    unfold endTest
    rw [hrun]
    dsimp only
    split_ifs <;> simp
  obtain ⟨ready, hpwr⟩ := endTest_pwr cut answer r s
  refine ⟨endTest_over .., hblock, ?_⟩
  apply state_eq <;> simp [hpwr]

/-- With no test under way a transition starts without touching the last one's block. -/
theorem startTrans_test {t : Mode} {cause source : Nat} {req : PwrReq} {s : State} (h : s.test.run = none) :
    (startTrans t cause source req s).test = s.test := by
  have hstop : stopTest true s = s := by simp [stopTest, h]
  unfold startTrans
  extract_lets s0 s1 _ s2 _ _ s3
  have h0 : s0 = s := by simp only [s0, hstop, ite_self]
  have h1 : s1.test = s.test := by simp only [s1, h0]; split_ifs <;> simp
  have h2 : s2.test = s1.test := by simp only [s2]; split_ifs <;> rfl
  have h3 : s3.test = s2.test := by simp only [s3]; split_ifs <;> simp
  simp [h1, h2, h3]

/-- A run in SELF-TEST ends with the way back to the mode of entry. -/
theorem testComplete_returns {s : State} {req : List Byte} (hrun : s.test.run = some req) (haway : u req 1 1 ≠ 0)
    (hmode : s.pwr.mode = .selfTest) (hidle : s.pwr.trans = none) (r : TestResult) : ∃ t tr, exec (.testComplete r) s = .next t ∧
      t.test.run = none ∧ t.test.block = testBlock false req r (testLoss s) ∧ t.pwr.trans = some tr ∧ tr.target = s.pwr.from_ ∧
      tr.cause = 5 := by
  have hgo : s.pwr.mode = .selfTest ∧ s.pwr.trans.isNone = true := ⟨hmode, by simp [hidle]⟩
  obtain ⟨hover, hblock, _⟩ := endTest_ends (s := testLoss s) (by simpa using hrun) false true r
  obtain ⟨v, hv⟩ : ∃ v, v = endTest false true r (testLoss s) := ⟨_, rfl⟩
  rw [← hv] at hover hblock
  have hfrom : v.pwr.from_ = s.pwr.from_ := by
    obtain ⟨ready, hpwr⟩ := endTest_pwr false true r (testLoss s)
    rw [hv, hpwr]
    simp
  obtain ⟨wake, endAt, en, on, ready, raised, powered, hpwr⟩ := startTrans_pwr v.pwr.from_ 5 0 {} v
  have htest := startTrans_test (t := v.pwr.from_) (cause := 5) (source := 0) (req := {}) hover
  have hexec : exec (.testComplete r) s = .next (servoLost 3 (returnMode v)) := by
    simp only [exec, execTestComplete, hrun, if_neg haway, if_pos hgo, hv]
  have htrans := congrArg (fun w => w.trans) hpwr
  exact ⟨_, _, hexec, by simp [returnMode, htest, hover], by simp [returnMode, htest, hblock],
    by simpa only [returnMode, servoLost_frame] using htrans, hfrom, rfl⟩

/-! ### Slices (R411, R412) -/

/-- A slice passes when no signature differs and every window has completed. -/
theorem sliceVerdict_pass {n : Nat} {x : SliceResult} (h : x.completed ≤ n) :
    sliceVerdict n x = 1 ↔ x.firstFailing = none ∧ x.completed = n := by
  unfold sliceVerdict
  cases hfail : x.firstFailing with
  | some f => simp
  | none =>
    simp only [Option.isSome_none, Bool.false_eq_true, if_false, true_and]
    split_ifs <;> omega

theorem sliceOutcome_completed (req : List Byte) (e : Nat × Nat × Nat) (x : SliceResult) :
    (sliceOutcome req e x).completed ≤ e.2.2 ∧ (sliceOutcome req e x).completed ≤ budgetWindows req :=
  ⟨(Nat.min_le_right ..).trans (Nat.min_le_left ..), (Nat.min_le_right ..).trans (Nat.min_le_right ..)⟩

theorem sliceOutcome_failing {req : List Byte} {e : Nat × Nat × Nat} {x : SliceResult} {f : Nat}
    (h : (sliceOutcome req e x).firstFailing = some f) : e.2.1 ≤ f ∧ f < e.2.1 + (sliceOutcome req e x).completed :=
  of_decide_eq_true (Option.filter_eq_some_iff.mp h).2

/-! ### O14 -/

/-- Settles O14: the two messages, the two ways in which a run ends, and what a slice can have found. -/
theorem selfTestRuns : Obligations.SelfTestRuns := by
  unfold Obligations.SelfTestRuns
  refine ⟨fun ring dma s h p d hmin hlen hgood hstart hstay hfree hcal hreach => ?_, fun ring dma s h d => exec_testStatus d,
    fun s req r hrun => ⟨fun hstay => ?_, fun haway hmode hidle hfrom => ?_⟩, fun req e x => ?_⟩
  · refine exec_testRun d (testRunBody_accepts hmin hlen hgood hstart hstay ?_ ?_ ?_)
    · simpa using hfree
    · simpa using hcal
    · rwa [testReachable_congr (consumed_life ..) (consumed_pwr ..)]
  · obtain ⟨hover, hblock, hkeeps⟩ := endTest_ends hrun false true r
    exact ⟨_, by simp only [exec, execTestComplete, hrun, if_pos hstay], hover, hblock, hkeeps⟩
  · obtain ⟨t, tr, hexec, hover, hblock, htrans, htarget, hcause⟩ := testComplete_returns hrun haway hmode hidle r
    exact ⟨t, tr, hexec, hover, hblock, htrans, htarget.trans hfrom, hcause⟩
  · obtain ⟨hcount, hbudget⟩ := sliceOutcome_completed req e x
    exact ⟨hcount, hbudget, fun f hf => sliceOutcome_failing hf, sliceVerdict_pass hcount⟩

end Sys2Proof.Machine
end

section
/-! SUPPORT. The lifecycle commands (R402 to R406): what a block programs, and from it O15. -/

namespace Sys2Proof.Machine

/-! ### Cells that a list programs (R402) -/

theorem programCell_getLsbD (s : State) (k : Nat) {c : Nat} (hc : c < 10) :
    (programCell s k).life.cells.getLsbD c = (s.life.cells.getLsbD c || decide (c = k)) := by
  unfold programCell
  split_ifs with hcell hdebug
  · simp [hc, eq_comm]
  · have hne : c ≠ k := by omega
    simp [hne]
  · have hne : c ≠ k := by omega
    simp [hne]

theorem programFold_getLsbD (ks : List Nat) (s : State) {c : Nat} (hc : c < 10) :
    (ks.foldl programCell s).life.cells.getLsbD c = (s.life.cells.getLsbD c || decide (c ∈ ks)) := by
  induction ks generalizing s with
  | nil => simp
  | cons k ks ih =>
    rw [List.foldl_cons, ih, programCell_getLsbD s k hc]
    simp [Bool.or_assoc]

/-- What programming cells leaves of the lifecycle part: the keys; a debug disable stays, and cell 11 sets it. -/
theorem programFold_life (ks : List Nat) (s : State) : (ks.foldl programCell s).life.key0 = s.life.key0 ∧
    (ks.foldl programCell s).life.key1 = s.life.key1 ∧
    (s.life.debugDisable = true ∨ 11 ∈ ks → (ks.foldl programCell s).life.debugDisable = true) := by
  induction ks generalizing s with
  | nil => simp
  | cons k ks ih =>
    obtain ⟨h0, h1, hdebug⟩ := ih (programCell s k)
    have hstep : (programCell s k).life.key0 = s.life.key0 ∧ (programCell s k).life.key1 = s.life.key1 ∧
        (s.life.debugDisable = true ∨ 11 = k → (programCell s k).life.debugDisable = true) := by
      unfold programCell
      split_ifs with hcell hten
      · exact ⟨rfl, rfl, fun h => h.resolve_right (by omega)⟩
      · exact ⟨rfl, rfl, fun h => h.resolve_right (by omega)⟩
      · exact ⟨rfl, rfl, fun _ => rfl⟩
    obtain ⟨g0, g1, gdebug⟩ := hstep
    refine ⟨h0.trans g0, h1.trans g1, fun h => hdebug ?_⟩
    rcases h with h | h
    · exact .inl (gdebug (.inl h))
    · rcases List.mem_cons.mp h with h | h
      · exact .inl (gdebug (.inr h))
      · exact .inr h

/-! ### The order of the cells (R402) -/

/-- A stage bit that a block needs: one of its stage that does not read as set. -/
def Needed (g : Stage) (s : State) (k : Nat) : Prop := (stageBits g).getLsbD k = true ∧ (stageRead s.life.cells).getLsbD k = false

theorem mem_cellOrder {cmd : Nat} {g : Stage} {b : List Byte} {s : State} {c : Nat} (hc : c < 10) :
    c ∈ cellOrder cmd g b s ↔ Needed g s (c / 2) := by
  have hpre : c ∉ (if cmd = 2 ∧ u b 1 1 = 1 then [10] else []) ++ (if cmd = 6 then [11] else []) := by
    split_ifs <;> simp <;> omega
  rw [cellOrder, List.mem_append]
  simp only [hpre, false_or, List.mem_flatMap, List.mem_filter, Bool.and_eq_true, Bool.not_eq_true', Needed]
  constructor
  · rintro ⟨k, ⟨_, hneeded⟩, hk⟩
    have hck : c / 2 = k := by simp at hk; omega
    rwa [hck]
  · intro h
    refine ⟨c / 2, ⟨?_, h⟩, ?_⟩
    · have hlt : c / 2 < 5 := by omega
      interval_cases c / 2 <;> simp
    · simp
      omega

/-- The cells go from the highest stage bit down. -/
theorem cellOrder_descends (cmd : Nat) (g : Stage) (b : List Byte) (s : State) :
    (cellOrder cmd g b s).Pairwise fun x y => y / 2 ≤ x / 2 := by
  have hbits : ([4, 3, 2, 1, 0].filter fun k => (stageBits g).getLsbD k && !(stageRead s.life.cells).getLsbD k).Pairwise
      fun x y => y ≤ x := List.Pairwise.filter _ (by decide)
  have hlow : ∀ y ∈ ([4, 3, 2, 1, 0].filter fun k => (stageBits g).getLsbD k && !(stageRead s.life.cells).getLsbD k).flatMap
      (fun k => [2 * k, 2 * k + 1]), y / 2 ≤ 4 := by
    intro y hy
    obtain ⟨k, hk, hy⟩ := List.mem_flatMap.mp hy
    have hle : k ≤ 4 := by
      have := (List.mem_filter.mp hk).1
      simp at this
      omega
    simp at hy
    omega
  have hhigh : ∀ x ∈ (if cmd = 2 ∧ u b 1 1 = 1 then [10] else []) ++ (if cmd = 6 then [11] else []), x / 2 = 5 := by
    split_ifs <;> simp
  rw [cellOrder, List.pairwise_append]
  refine ⟨List.Pairwise.imp_of_mem (fun {x y} hx hy _ => by rw [hhigh x hx, hhigh y hy]) (List.pairwise_of_forall fun _ _ => trivial), ?_,
    fun x hx y hy => by rw [hhigh x hx]; exact (hlow y hy).trans (by decide)⟩
  rw [List.pairwise_flatMap]
  refine ⟨fun k _ => ?_, hbits.imp fun h x hx y hy => ?_⟩
  · simp; omega
  · simp at hx hy
    omega

/-- In a list that descends, what a prefix leaves out is not higher than what it has. -/
theorem mem_take_of_higher {l : List Nat} (h : l.Pairwise fun x y => y / 2 ≤ x / 2) {n x y : Nat} (hy : y ∈ l.take n) (hx : x ∈ l)
    (hlt : y / 2 < x / 2) : x ∈ l.take n := by
  rw [← List.take_append_drop n l] at h hx
  rcases List.mem_append.mp hx with hx | hx
  · exact hx
  · have := (List.pairwise_append.mp h).2.2 y hy x hx
    omega

/-! ### The stage bits after programming (R402) -/

/-- A prefix of a block's cells has been programmed. -/
def Programmed (cmd : Nat) (g : Stage) (b : List Byte) (s : State) (n : Nat) (t : State) : Prop :=
  ∀ c < 10, t.life.cells.getLsbD c = (s.life.cells.getLsbD c || decide (c ∈ (cellOrder cmd g b s).take n))

section
variable {cmd : Nat} {g : Stage} {b : List Byte} {s t : State} {n : Nat} (h : Programmed cmd g b s n t)
include h

theorem Programmed.stageRead {k : Nat} (hk : k < 5) : (stageRead t.life.cells).getLsbD k =
    ((s.life.cells.getLsbD (2 * k) || decide (2 * k ∈ (cellOrder cmd g b s).take n)) &&
      (s.life.cells.getLsbD (2 * k + 1) || decide (2 * k + 1 ∈ (cellOrder cmd g b s).take n))) := by
  rw [stageRead_getLsbD _ hk, h _ (by omega), h _ (by omega)]

theorem Programmed.keeps {k : Nat} (hk : k < 5) (hset : (Machine.stageRead s.life.cells).getLsbD k = true) :
    (Machine.stageRead t.life.cells).getLsbD k = true := by
  rw [stageRead_getLsbD _ hk, Bool.and_eq_true] at hset
  rw [h.stageRead hk, hset.1, hset.2]
  rfl

/-- A bit that the block does not need stays as it was. -/
theorem Programmed.unneeded {k : Nat} (hk : k < 5) (hneed : ¬Needed g s k) :
    (Machine.stageRead t.life.cells).getLsbD k = (Machine.stageRead s.life.cells).getLsbD k := by
  have hout (c : Nat) (hc : c < 10) (hck : c / 2 = k) : c ∉ (cellOrder cmd g b s).take n := fun hmem =>
    hneed (hck ▸ (mem_cellOrder hc).mp (List.mem_of_mem_take hmem))
  rw [h.stageRead hk, stageRead_getLsbD _ hk]
  simp [hout (2 * k) (by omega) (by omega), hout (2 * k + 1) (by omega) (by omega)]

/-- Once a needed bit reads as set, every higher needed bit does. -/
theorem Programmed.higher {j k : Nat} (hj : Needed g s j) (hk : Needed g s k) (hlt : j < k) (hk5 : k < 5)
    (hset : (Machine.stageRead t.life.cells).getLsbD j = true) : (Machine.stageRead t.life.cells).getLsbD k = true := by
  have hclear := hj.2
  rw [stageRead_getLsbD _ (by omega)] at hclear
  rw [h.stageRead (by omega)] at hset
  obtain ⟨c, hcj, hc⟩ : ∃ c, c / 2 = j ∧ c ∈ (cellOrder cmd g b s).take n := by
    by_cases heven : 2 * j ∈ (cellOrder cmd g b s).take n
    · exact ⟨_, by omega, heven⟩
    · refine ⟨2 * j + 1, by omega, ?_⟩
      by_contra hodd
      simp [heven, hodd, hclear] at hset
  have hin (d : Nat) (hd : d / 2 = k) : d ∈ (cellOrder cmd g b s).take n :=
    mem_take_of_higher (cellOrder_descends cmd g b s) hc ((mem_cellOrder (by omega)).mpr (hd ▸ hk)) (by omega)
  rw [h.stageRead hk5, decide_eq_true (hin (2 * k) (by omega)), decide_eq_true (hin (2 * k + 1) (by omega))]
  simp

/-- With every cell programmed, the stage bits are those of before and those of the stage. -/
theorem Programmed.all (hall : (cellOrder cmd g b s).length ≤ n) :
    Machine.stageRead t.life.cells = Machine.stageRead s.life.cells ||| stageBits g := by
  refine BitVec.eq_of_getLsbD_eq fun k hk => ?_
  rw [BitVec.getLsbD_or]
  by_cases hneed : Needed g s k
  · have hin (c : Nat) (hck : c / 2 = k) : c ∈ (cellOrder cmd g b s).take n := by
      rw [List.take_of_length_le hall]
      exact (mem_cellOrder (by omega)).mpr (hck ▸ hneed)
    rw [h.stageRead hk, decide_eq_true (hin (2 * k) (by omega)), decide_eq_true (hin (2 * k + 1) (by omega)), hneed.1]
    simp
  · rw [h.unneeded hk hneed]
    simp only [Needed, not_and, Bool.not_eq_false] at hneed
    cases hbit : (stageBits g).getLsbD k with
    | false => simp
    | true => simp [hneed hbit]

end

/-- Stage bits are a run from bit 0 up. -/
theorem stageBits_below {g : Stage} {j k : Nat} (hk : k < 5) (hjk : j < k) (hset : (stageBits g).getLsbD k = true) :
    (stageBits g).getLsbD j = true := by
  have hrun : ∀ k < 5, ∀ j < k, (stageBits g).getLsbD k = true → (stageBits g).getLsbD j = true := by cases g <;> decide
  exact hrun k hk j hjk hset

/-- The stage is decoded from the bits below the first one that is clear (R402). -/
theorem stageOf_of_clear {x y : BitVec 5} {k : Nat} (hk : k < 5) (hbelow : ∀ j < k, x.getLsbD j = true ∧ y.getLsbD j = true)
    (hx : x.getLsbD k = false) (hy : y.getLsbD k = false) : stageOf x = stageOf y := by
  have hdecoded : ∀ z : BitVec 5, (∀ j < k, z.getLsbD j = true) → z.getLsbD k = false →
      stageOf z = [Stage.blank, .manufacture, .provisioned, .field, .return_].getD k .scrapped := by
    intro z hrun hclear
    interval_cases k
    all_goals simp only [stageOf, hclear, hrun 0, hrun 1, hrun 2, hrun 3, Nat.reduceLT, Bool.not_true, Bool.not_false, if_true, if_false,
      Bool.false_eq_true]
    all_goals rfl
  rw [hdecoded x (fun j hj => (hbelow j hj).1) hx, hdecoded y (fun j hj => (hbelow j hj).2) hy]

/-- A programming cut short leaves the stage at its old value, or has programmed every stage bit that the block needs (R402). -/
theorem Programmed.stage_of_cut {cmd : Nat} {g : Stage} {b : List Byte} {s t : State} {n : Nat} (h : Programmed cmd g b s n t) :
    stageNow t = stageNow s ∨ Machine.stageRead t.life.cells &&& stageBits g = stageBits g := by
  by_cases hall : ∀ k < 5, Needed g s k → (Machine.stageRead t.life.cells).getLsbD k = true
  · refine .inr (BitVec.eq_of_getLsbD_eq fun k hk => ?_)
    rw [BitVec.getLsbD_and]
    cases hbit : (stageBits g).getLsbD k with
    | false => simp
    | true =>
      cases hset : (Machine.stageRead s.life.cells).getLsbD k with
      | true => simp [h.keeps hk hset]
      | false => simp [hall k hk ⟨hbit, hset⟩]
  · simp only [not_forall] at hall
    obtain ⟨m, hm, hneed, hclear⟩ := hall
    have hsome : ∃ k, Needed g s k := ⟨m, hneed⟩
    classical
    obtain ⟨k, hk, hleast⟩ : ∃ k, Needed g s k ∧ ∀ j < k, ¬Needed g s j :=
      ⟨Nat.find hsome, Nat.find_spec hsome, fun j => Nat.find_min hsome⟩
    have hkm : k ≤ m := by
      by_contra hlt
      exact hleast m (by omega) hneed
    have hk5 : k < 5 := by omega
    have hout : (Machine.stageRead t.life.cells).getLsbD k = false := by
      by_contra hset
      rw [Bool.not_eq_false] at hset
      rcases Nat.lt_or_eq_of_le hkm with hlt | rfl
      · exact hclear (h.higher hk hneed hlt hm hset)
      · exact hclear hset
    have hbelow : ∀ j < k, (Machine.stageRead s.life.cells).getLsbD j = true := fun j hj => by
      by_contra hset
      exact hleast j hj ⟨stageBits_below hk5 hj hk.1, by simpa using hset⟩
    exact .inl (stageOf_of_clear hk5 (fun j hj => ⟨h.keeps (by omega) (hbelow j hj), hbelow j hj⟩) hout hk.2)

end Sys2Proof.Machine
end

section
/-! SUPPORT. A lifecycle block accepted or refused (R402 to R406), and from it O15. -/

namespace Sys2Proof.Machine

/-! ### The width of CRC-32C (R108) -/

theorem crcBit_lt {c : Nat} (h : c < 2 ^ 32) : crcBit c < 2 ^ 32 := by
  unfold crcBit
  split_ifs
  · exact Nat.xor_lt_two_pow (by omega) (by decide)
  · omega

theorem crcRun_lt (p : List Byte) {c : Nat} (h : c < 2 ^ 32) : crcRun c p < 2 ^ 32 := by
  induction p generalizing c with
  | nil => exact h
  | cons b p ih =>
    have hin : Nat.xor c b.toNat < 2 ^ 32 := Nat.xor_lt_two_pow h (b.isLt.trans (by decide))
    exact ih (crcBit_lt (crcBit_lt (crcBit_lt (crcBit_lt (crcBit_lt (crcBit_lt (crcBit_lt (crcBit_lt hin))))))))

theorem crc32c_lt (p : List Byte) : crc32c p < 2 ^ 32 := Nat.xor_lt_two_pow (crcRun_lt p (by decide)) (by decide)

/-! ### The key (R406) -/

/-- A slot with every cell of a key programmed. -/
theorem keyPrefix_whole {c : List Byte} (n : Nat) (hn : 8 * c.length ≤ n) : keyPrefix n c = c := by
  unfold keyPrefix
  refine List.ext_getElem (by simp) fun i hi _ => ?_
  have hfull : Nat.min 8 (n - 8 * i) = 8 := Nat.min_eq_left (by simp at hi; omega)
  simp only [List.getElem_map, List.getElem_zip, List.getElem_range, hfull]
  exact BitVec.eq_of_toNat_eq (by rw [BitVec.toNat_ofNat, Nat.mod_mod, Nat.mod_eq_of_lt (BitVec.isLt _)])

theorem keyCells_length {b : List Byte} (hlen : b.length = 224) : (keyCells b).length = 100 := by
  simp [keyCells, slice, leBytes_length, hlen]

/-- A key that lies on the curve is not all zeros. -/
theorem onCurve_not_zeros : onCurve (zeros 96) = false := by decide +kernel

/-- The cells of a block's key make a slot valid. -/
theorem slotState_keyCells {b : List Byte} (hlen : b.length = 224) (hcurve : onCurve (slice b 28 96) = true) :
    slotState ⟨keyCells b⟩ = 1 := by
  have hkey : (slice b 28 96).length = 96 := by simp [slice, hlen]
  have hcells : fitBytes 100 (keyCells b) = keyCells b := by
    exact List.take_left' (keyCells_length hlen)
  have htake : (keyCells b).take 96 = slice b 28 96 := by
    rw [keyCells, List.take_append_of_le_length hkey.ge, List.take_of_length_le hkey.le]
  have hdrop : (keyCells b).drop 96 = leBytes 4 (crc32c (slice b 28 96)) := by
    rw [keyCells, List.drop_append_of_le_length hkey.ge, List.drop_eq_nil_of_le hkey.le, List.nil_append]
  have hused : ((keyCells b).all fun x => decide (x = 0)) = false := by
    by_contra hall
    rw [Bool.not_eq_false, List.all_eq_true] at hall
    have hzero : slice b 28 96 = zeros 96 := by
      rw [← htake]
      refine List.eq_replicate_iff.mpr ⟨by simp [keyCells_length hlen], fun x hx => ?_⟩
      simpa using hall x (List.mem_of_mem_take hx)
    rw [hzero, onCurve_not_zeros] at hcurve
    exact absurd hcurve (by decide)
  have hcrc : crc32c (slice b 28 96) = leNat (leBytes 4 (crc32c (slice b 28 96))) := by
    rw [leNat_four_bytes (crc32c_lt _)]
  simp only [slotState, hcells, hused, Bool.false_eq_true, if_false, htake, hdrop, ← hcrc, if_true]

/-- The key is programmed into a slot where none is in force. -/
theorem keyInForce_programKey {b : List Byte} {s : State} (hlen : b.length = 224) (hcurve : onCurve (slice b 28 96) = true)
    (hnone : (keyInForce s).isNone = true) : (keyInForce (programKey 800 b s)).isSome = true := by
  have hslot : slotState ⟨keyPrefix 800 (keyCells b)⟩ = 1 := by
    rw [keyPrefix_whole 800 (by rw [keyCells_length hlen]), slotState_keyCells hlen hcurve]
  unfold programKey
  split_ifs with hempty
  · simp [keyInForce, hslot]
  · have hfirst : slotState s.life.key0 ≠ 1 := fun hvalid => by simp [keyInForce, hvalid] at hnone
    simp [keyInForce, hslot, hfirst]

theorem keyInForce_congr {s t : State} (h0 : t.life.key0 = s.life.key0) (h1 : t.life.key1 = s.life.key1) : keyInForce t = keyInForce s := by
  simp only [keyInForce, h0, h1]

/-! ### The verdict on a block (Table 18-4) -/

/-- What the interface holds of a block before the verdict. -/
def blockTaken (b : List Byte) (s : State) : State := { s with life := { s.life with ir := 0xC1, lcCmd := b } }

/-- The verdict on a clean block depends on nothing that taking it changes. -/
theorem blockResult_taken {cmd : Nat} {b : List Byte} (hclean : blockClean cmd b = true) (free f : Nat) (s : State) :
    blockResult cmd free b { blockTaken b s with fresh := f } = blockResult cmd 0 b s := by
  simp only [blockResult, hclean, Bool.not_true, Bool.false_eq_true, if_false]
  rfl

/-- The TAP takes a block of the right length whose command is the row's. -/
theorem lifecycle_heard {s : State} {b : List Byte} {cmd : Nat} (hlen : b.length = 224) (hout : s.boot.inReset = false)
    (hcmd : u b 0 1 = cmd) : ¬(b.length ≠ 224 ∨ (u b 0 1 ≠ cmd ∧ u b 0 1 ≠ 0 ∧ u b 0 1 ≤ 6) ∨ s.boot.inReset = true) := by
  simp [hlen, hout, hcmd]

section
variable {s : State} {blk : LcBlock} {cmd : Nat} (hlen : blk.bytes.length = 224) (hout : s.boot.inReset = false)
  (hcmd : u blk.bytes 0 1 = cmd) (hclean : blockClean cmd blk.bytes = true)
include hlen hout hcmd hclean

theorem lifecycle_refused (h : blockResult cmd 0 blk.bytes s ≠ 0) : lifecycle cmd blk s = { s with
    life := { s.life with ir := 0xC1, lcCmd := blk.bytes, result := blockResult cmd 0 blk.bytes s,
                          nonce := if cmd = 4 then s.life.nonce + 1 else s.life.nonce } } := by
  have hgo := lifecycle_heard hlen hout hcmd
  have hresult := blockResult_taken hclean
  simp only [blockTaken] at hresult
  unfold lifecycle
  rw [if_neg hgo]
  simp only [hcmd, takeFree, hresult, hclean, Bool.true_or, if_true, h, ne_eq, not_false_eq_true, true_or]

theorem lifecycle_accepted {g : Stage} (hstage : stageChange cmd s = some g) (h : blockResult cmd 0 blk.bytes s = 0) :
    lifecycle cmd blk s =
      let v := programCells cmd g blk.bytes blk.cut (blockTaken blk.bytes s)
      if blk.cut.isSome then powerOff false v
      else
        let w := resetNow 2 (writeLog 8 (detH (stageCode (stageNow s)) (stageCode g) cmd 0) v)
        { w with life := { w.life with event := some (stageCode (stageNow s), stageCode g, cmd) } } := by
  have hgo := lifecycle_heard hlen hout hcmd
  have hresult := blockResult_taken hclean
  have hsame : stageChange cmd (blockTaken blk.bytes s) = some g := hstage
  have hnow : stageNow (blockTaken blk.bytes s) = stageNow s := rfl
  simp only [blockTaken] at hresult hsame hnow
  unfold lifecycle
  rw [if_neg hgo]
  simp only [hcmd, takeFree, hresult, hclean, Bool.true_or, if_true, h, ne_eq, not_true_eq_false, false_or, hsame,
    Bool.not_true, Bool.false_eq_true, if_false, hnow, blockTaken]

end

/-! ### What an accepted block programs (R402, R404, R406) -/

/-- Key cells that a block programs before the others. -/
def keyCount (cmd : Nat) (s : State) : Nat := if cmd = 2 ∧ (keyInForce s).isNone then 800 else 0

section
variable (cmd : Nat) (g : Stage) (b : List Byte) (cut : Option Nat) (s : State)

/-- Cells beside the key's that a block programs. -/
def cellCount : Nat := cut.getD (keyCount cmd s + (cellOrder cmd g b s).length) - keyCount cmd s

/-- The state with the key's cells programmed. -/
def keyProgrammed : State := if cmd = 2 ∧ (keyInForce s).isNone then programKey (cut.getD (keyCount cmd s)) b s else s

theorem programCells_eq : ∃ zero, programCells cmd g b cut s =
    let t := ((cellOrder cmd g b s).take (cellCount cmd g b cut s)).foldl programCell (keyProgrammed cmd b cut s)
    { t with life := { t.life with zero := zero } } := ⟨_, rfl⟩

theorem keyProgrammed_cells : (keyProgrammed cmd b cut s).life.cells = s.life.cells := by
  unfold keyProgrammed
  split_ifs <;> simp

theorem programCells_programmed : Programmed cmd g b s (cellCount cmd g b cut s) (programCells cmd g b cut s) := by
  intro c hc
  obtain ⟨zero, heq⟩ := programCells_eq cmd g b cut s
  rw [heq]
  exact (programFold_getLsbD _ _ hc).trans (by rw [keyProgrammed_cells])

/-- Not cut short, a block programs every cell. -/
theorem cellCount_whole : (cellOrder cmd g b s).length ≤ cellCount cmd g b none s := by
  simp [cellCount]

end

theorem programCells_key {g : Stage} {b : List Byte} {s : State} (hlen : b.length = 224) (hcurve : onCurve (slice b 28 96) = true) :
    (keyInForce (programCells 2 g b none s)).isSome = true := by
  obtain ⟨zero, heq⟩ := programCells_eq 2 g b none s
  obtain ⟨h0, h1, _⟩ := programFold_life ((cellOrder 2 g b s).take (cellCount 2 g b none s)) (keyProgrammed 2 b none s)
  have hkeys : keyInForce (programCells 2 g b none s) = keyInForce (keyProgrammed 2 b none s) := by
    rw [heq]
    exact keyInForce_congr h0 h1
  rw [hkeys]
  by_cases hnone : (keyInForce s).isNone = true
  · simpa [keyProgrammed, keyCount, hnone] using keyInForce_programKey hlen hcurve hnone
  · rw [keyProgrammed, if_neg (fun h => hnone h.2)]
    simpa [Option.isSome_iff_ne_none] using hnone

theorem programCells_debug {g : Stage} {b : List Byte} {s : State} : (programCells 6 g b none s).life.debugDisable = true := by
  obtain ⟨zero, heq⟩ := programCells_eq 6 g b none s
  obtain ⟨_, _, hdebug⟩ := programFold_life ((cellOrder 6 g b s).take (cellCount 6 g b none s)) (keyProgrammed 6 b none s)
  rw [heq]
  refine hdebug (.inr ?_)
  rw [List.take_of_length_le (cellCount_whole 6 g b s)]
  simp [cellOrder]

/-! ### The reset behind it (R404) -/

theorem workEnded_life (s : State) : ∃ secver raising, (workEnded s).life = { s.life with secver := secver, raising := raising } := by
  obtain ⟨v, hv⟩ : ∃ v, v = stopTest false (drainPorts s) := ⟨_, rfl⟩
  have hlife : v.life = s.life := by simp [hv]
  have hcut : (workEnded s).life = (cutRaise v).life := by simp [workEnded, ← hv, dropWork]
  rw [hcut, ← hlife]
  unfold cutRaise
  split
  · exact ⟨v.life.secver, v.life.raising, rfl⟩
  · dsimp only
    split_ifs
    · exact ⟨_, none, rfl⟩
    · exact ⟨v.life.secver, none, rfl⟩

theorem resetNow_life (cause : Nat) (s : State) : ∃ secver raising, (resetNow cause s).life =
    { s.life with secver := secver, raising := raising, result := 0, nonce := s.life.nonce + 1 } := by
  obtain ⟨secver, raising, hended⟩ := workEnded_life s
  have hlife : (resetNow cause s).life = { (workEnded s).life with result := 0, nonce := (workEnded s).life.nonce + 1 } := by
    simp only [resetNow, releaseReset_frame]
    rfl
  exact ⟨secver, raising, by rw [hlife, hended]⟩

theorem resetNow_enters (cause : Nat) (s : State) :
    (resetNow cause s).pwr.mode = (if s.th.latch = true then .thermalLatch else .reset) ∧ (resetNow cause s).sys.bootCause = cause := by
  obtain ⟨⟨hmode, _, _⟩, _, hcause, _, hkeeps, _⟩ := deviceReset_enters cause s
  refine ⟨?_, by rw [resetNow, (releaseReset_frame ..).1, hcause]⟩
  cases hlatch : s.th.latch with
  | false =>
    rw [resetNow, releaseReset_unlatched (hkeeps.trans hlatch)]
    exact hmode
  | true => exact (releaseReset_latched (hkeeps.trans hlatch) s.bias.straps).1

/-! ### O15 -/

theorem onCurve_of_accepted {b : List Byte} {s : State} (hclean : blockClean 2 b = true) (h : blockResult 2 0 b s = 0) :
    onCurve (slice b 28 96) = true := by
  by_contra hcurve
  rw [Bool.not_eq_true] at hcurve
  simp only [blockResult, hclean, hcurve, Bool.not_true, Bool.not_false, Bool.false_eq_true, and_self, if_true, if_false] at h
  split_ifs at h

section
variable {s : State} {blk : LcBlock} {cmd : Nat} (hlen : blk.bytes.length = 224) (hout : s.boot.inReset = false)
  (hcmd : u blk.bytes 0 1 = cmd) (hclean : blockClean cmd blk.bytes = true)
include hlen hout hcmd hclean

/-- An accepted block whose programming is not cut short. -/
theorem lifecycle_whole {g : Stage} (hstage : stageChange cmd s = some g) (h : blockResult cmd 0 blk.bytes s = 0) (hwhole : blk.cut = none) :
    let t := lifecycle cmd blk s
    t.pwr.mode = (if s.th.latch = true then .thermalLatch else .reset) ∧ t.sys.bootCause = 2 ∧ t.life.result = 0 ∧
    stageRead t.life.cells = stageRead s.life.cells ||| stageBits g ∧
    t.life.event = some (stageCode (stageNow s), stageCode g, cmd) ∧ (cmd = 6 → t.life.debugDisable = true) ∧
    (cmd = 2 → (keyInForce t).isSome = true) := by
  obtain ⟨v, hv⟩ : ∃ v, v = programCells cmd g blk.bytes none (blockTaken blk.bytes s) := ⟨_, rfl⟩
  obtain ⟨w, hw⟩ : ∃ w, w = writeLog 8 (detH (stageCode (stageNow s)) (stageCode g) cmd 0) v := ⟨_, rfl⟩
  have hlatch : w.th.latch = s.th.latch := by simp [hw, hv, blockTaken]
  have hlife : w.life = v.life := by simp [hw]
  obtain ⟨secver, raising, hreset⟩ := resetNow_life 2 w
  obtain ⟨hmode, hcause⟩ := resetNow_enters 2 w
  rw [hlatch] at hmode
  rw [hlife] at hreset
  have hcells : stageRead v.life.cells = stageRead s.life.cells ||| stageBits g := by
    rw [hv]
    exact (programCells_programmed cmd g blk.bytes none (blockTaken blk.bytes s)).all (cellCount_whole ..)
  rw [lifecycle_accepted hlen hout hcmd hclean hstage h, hwhole]
  dsimp only
  rw [if_neg (by simp), ← hv, ← hw]
  generalize resetNow 2 w = x at hreset hmode hcause
  refine ⟨hmode, hcause, by rw [hreset], by rw [hreset]; exact hcells, rfl, fun h6 => ?_, fun h2 => ?_⟩
  · subst h6
    have hdebug : v.life.debugDisable = true := by rw [hv, programCells_debug]
    rw [hreset]
    exact hdebug
  · subst h2
    have hkey := programCells_key (g := g) (s := blockTaken blk.bytes s) hlen (onCurve_of_accepted hclean h)
    rw [← hv] at hkey
    rwa [keyInForce_congr (s := v) (by rw [hreset]) (by rw [hreset])]

/-- An accepted block whose programming is cut short. -/
theorem lifecycle_cut {g : Stage} (hstage : stageChange cmd s = some g) (h : blockResult cmd 0 blk.bytes s = 0) (hcut : blk.cut ≠ none) :
    let t := lifecycle cmd blk s
    t.pwr.mode = .reset ∧ (stageNow t = stageNow s ∨ stageRead t.life.cells &&& stageBits g = stageBits g) := by
  obtain ⟨v, hv⟩ : ∃ v, v = programCells cmd g blk.bytes blk.cut (blockTaken blk.bytes s) := ⟨_, rfl⟩
  have hprogrammed := (programCells_programmed cmd g blk.bytes blk.cut (blockTaken blk.bytes s)).stage_of_cut
  rw [← hv] at hprogrammed
  rw [lifecycle_accepted hlen hout hcmd hclean hstage h]
  dsimp only
  rw [if_pos (Option.isSome_iff_ne_none.mpr hcut), ← hv]
  have hcells := powerOff_cells false v
  refine ⟨(powerOff_enters false v).1.1, ?_⟩
  rw [stageNow, hcells]
  exact hprogrammed

end

/-- Settles O15: a block that is accepted programs the cells of its stage and resets the device; a refused one leaves its result. -/
theorem lifecycleCommands : Obligations.LifecycleCommands := by
  unfold Obligations.LifecycleCommands
  intro s blk hlen hout b row cmd hrow hcmd hclean
  have hexec : exec row s = .next (lifecycle cmd blk s) := by
    rcases hrow with ⟨rfl, rfl⟩ | ⟨rfl, rfl⟩ | ⟨rfl, rfl⟩ | ⟨rfl, rfl⟩ | ⟨rfl, rfl⟩ | ⟨rfl, rfl⟩ <;> rfl
  refine ⟨fun g hstage hresult => ⟨_, hexec, lifecycle_grows cmd blk s, ?_⟩, fun r hresult hr => ?_⟩
  · by_cases hcut : blk.cut = none
    · obtain ⟨hmode, hcause, hzero, hstages, hevent, hdebug, hkey⟩ := lifecycle_whole hlen hout hcmd hclean hstage hresult hcut
      exact ⟨by simp [hmode, hcut], fun _ => ⟨hstages, hcause, hzero, hevent, hdebug, hkey⟩, fun hne => absurd hcut hne⟩
    · obtain ⟨hmode, hstages⟩ := lifecycle_cut hlen hout hcmd hclean hstage hresult hcut
      exact ⟨by simp [hmode, hcut], fun hwhole => absurd hwhole hcut, fun _ => hstages⟩
  · subst hresult
    rw [hexec, lifecycle_refused hlen hout hcmd hclean hr]

end Sys2Proof.Machine
end
